-- ==== Sys2Proof/Word.lean ====
section
/-! DEFINITION. The word types of the model: bytes, register words and the raw records that the spec numbers by bit. -/

namespace Sys2Proof

/-- One byte. -/
abbrev Byte := BitVec 8
/-- One 32-bit register word (R4). -/
abbrev Reg := BitVec 32
/-- A 64-bit quantity, held in a `_LO`/`_HI` pair of registers (R4). -/
abbrev Reg64 := BitVec 64

end Sys2Proof
end

