-- ==== Sys2Proof/Syntax.lean ====
section
/-! DEFINITION. The commands of the block: one constructor for each row of the spec's opcode table, with the operands that the
row's rule gives it, and the types of those operands. A command that brings data from outside (a frame, descriptors, a request
slot, a measured value) carries that data. -/

namespace Sys2Proof

/-- A fault domain (R421) or device-level unit (R422). -/
inductive Dom
  /-- Physical pipeline 0–9. -/
  | pipeline (p : Nat)
  /-- Cluster 0–15. -/
  | cluster (c : Nat)
  /-- Unrolled AES pipeline 0–33. -/
  | aes (u : Nat)
  /-- Iterated unit 0–5. -/
  | iru (u : Nat)
  /-- The key store. -/
  | keyStore
  /-- HBM pseudo-channel 0–127. -/
  | hbmPc (n : Nat)
  /-- Host port 0–31, its PCIe controller and host DMA engine. -/
  | hostPort (n : Nat)
  /-- The storage front end, data mover and volume service hardware. -/
  | storage
  /-- The Eft. -/
  | eft
  /-- A device-level unit: 0 buffer pool manager, 1 interconnect segment, 2 Leap controller, 3 fault collector,
  4 Regrowth controller, 5 mailbox engine. -/
  | device (n : Nat)
  deriving DecidableEq, Repr

/-- The unit exists (R421, R422). -/
def Dom.exists : Dom → Bool
  | .pipeline p => p < 10
  | .cluster c => c < 16
  | .aes u => u < 34
  | .iru u => u < 6
  | .hbmPc n => n < 128
  | .hostPort n => n < 32
  | .device n => n < 6
  | .keyStore | .storage | .eft => true

/-- A handshake domain with its own stall watchdog (R27), or another unit whose stages report invalid codewords (R421, R422). -/
inductive HsDom
  /-- Physical pipeline 0–9. -/
  | pipeline (p : Nat)
  /-- Cluster 0–15. -/
  | cluster (c : Nat)
  /-- Unrolled AES pipeline 0–33. -/
  | aes (u : Nat)
  /-- Iterated round unit 0–5. -/
  | iru (u : Nat)
  /-- The key store. -/
  | keyStore
  /-- The NVMe front end. -/
  | nvmeFrontEnd
  /-- The storage data mover. -/
  | dataMover
  /-- The volume service hardware. -/
  | volumeService
  /-- The buffer pool manager. -/
  | bufferPool
  /-- The host DMA engine of host port 0–31. -/
  | hostDma (n : Nat)
  /-- A segment of the on-die interconnect. -/
  | segment (n : Nat)
  /-- The Eft. -/
  | eft
  /-- HBM pseudo-channel 0–127. -/
  | hbmPc (n : Nat)
  /-- The Leap controller. -/
  | leapController
  /-- The fault collector. -/
  | faultCollector
  /-- The Regrowth controller. -/
  | regrowthController
  /-- The mailbox engine. -/
  | mailboxEngine
  deriving DecidableEq, Repr

/-- The fault domain or device-level unit that a handshake domain lies in (R421, R422). -/
def HsDom.dom : HsDom → Dom
  | .pipeline p => .pipeline p
  | .cluster c => .cluster c
  | .aes u => .aes u
  | .iru u => .iru u
  | .keyStore => .keyStore
  | .nvmeFrontEnd | .dataMover | .volumeService => .storage
  | .bufferPool => .device 0
  | .hostDma n => .hostPort n
  | .segment _ => .device 1
  | .eft => .eft
  | .hbmPc n => .hbmPc n
  | .leapController => .device 2
  | .faultCollector => .device 3
  | .regrowthController => .device 4
  | .mailboxEngine => .device 5

/-- Which of the handshake domains of one fault domain it is. -/
def HsDom.part : HsDom → Nat
  | .dataMover => 1
  | .volumeService => 2
  | .segment n => n
  | _ => 0

/-- What a stage whose request is not acknowledged waits for (R28). -/
inductive WaitOn
  /-- A stage of its own domain, or nothing that R28 names. -/
  | inside
  /-- An Ethernet port's priority, which the partner may have paused. -/
  | pause (port prio : Nat)
  /-- A completion ring. -/
  | ring (fid ring : Nat)
  /-- An NVMe completion queue. -/
  | cq (fid qid : Nat)
  /-- A buffer owner's thresholds. -/
  | threshold (owner : Nat)
  /-- Elastic credits of a rail's consumer. -/
  | credits (sds : Bool) (consumer : Nat)
  /-- A Skink thread. -/
  | thread (tid : Nat)
  /-- A host port's link. -/
  | hostPort (n : Nat)
  /-- An HBM pseudo-channel (R424). -/
  | hbmPc (n : Nat)
  deriving DecidableEq, Repr

/-- A rail guarded against glitches (R306). -/
inductive GuardedRail
  | core | sram | ret
  deriving DecidableEq, Repr

/-- A consumer of a rail (R33). -/
inductive Consumer
  /-- Physical pipeline 0–9. -/
  | pipeline (p : Nat)
  /-- The MACsec unit of octet 0–17. -/
  | macsec (octet : Nat)
  /-- Unrolled AES pipeline 0–33. -/
  | aes (u : Nat)
  /-- Iterated unit 0–5. -/
  | iru (u : Nat)
  /-- Skink cluster 0–15. -/
  | cluster (c : Nat)
  /-- The burst controller of HBM stack 0–3. -/
  | hbm (stack : Nat)
  /-- The Regrowth copy engine. -/
  | regrow
  /-- Lane 0–143, on VDD_SDS_A. -/
  | lane (l : Nat)
  /-- Link training and eye scans, on VDD_SDS_A. -/
  | training
  deriving DecidableEq, Repr

/-- The consumer exists. -/
def Consumer.exists : Consumer → Bool
  | .pipeline p => p < 10
  | .macsec o => o < 18
  | .aes u => u < 34
  | .iru u => u < 6
  | .cluster c => c < 16
  | .hbm h => h < 4
  | .lane l => l < 144
  | .regrow | .training => true

/-- The consumer's key in the arbiter's maps. -/
def Consumer.key : Consumer → Nat
  | .pipeline p => p
  | .macsec o => 256 + o
  | .aes u => 512 + u
  | .iru u => 768 + u
  | .cluster c => 1024 + c
  | .hbm h => 1280 + h
  | .regrow => 1536
  | .lane l => 1792 + l
  | .training => 2048

/-- The consumer draws on VDD_SDS_A. -/
def Consumer.onSds : Consumer → Bool
  | .lane _ | .training => true
  | _ => false

/-- The consumer has a floor. -/
def Consumer.hasFloor : Consumer → Bool
  | .aes _ | .iru _ | .regrow | .training => false
  | _ => true

/-- The consumer has an elastic use. -/
def Consumer.hasElastic : Consumer → Bool
  | .pipeline _ | .lane _ => false
  | _ => true

/-- A consumer's epoch (R32): the elastic credits it asks for, and the credits of the ended epoch that it used. -/
structure EpochReq where
  consumer : Consumer
  elastic : Nat
  used : Nat
  deriving DecidableEq, Repr

/-- What a stall watchdog has counted (R27, R28): the stage that waits, for how many microseconds, and for what. -/
structure Stall where
  stage : Nat
  us : Nat
  on : WaitOn
  deriving DecidableEq, Repr

/-- A turn of a pipeline's action engines: the pipeline, and whether what it punts matches its Path Check Word at the channel (R283). -/
structure PipeTurn where
  pipe : Nat
  puntOk : Bool
  deriving DecidableEq, Repr

/-- A command whose host requests go out: its identifier, and whether their two compositions agree (R80, R245, R252). -/
structure Posting where
  cid : Nat
  composed : Bool
  deriving DecidableEq, Repr

/-- A lend or a return of VDD_CORE credits that the Owner asks for (R455): the other unit's chain address and the credits. -/
structure LendReq where
  dest : Nat
  credits : Nat
  giveBack : Bool
  deriving DecidableEq, Repr

/-- What goes with a `POWER_BUDGET_SET` beside its payload: the sum of the floors that the configured ports would draw at 0.68 V and 105 °C (R25),
and a lend, when there is one (R455; log entry 78). -/
structure BudgetNote where
  floorsSlow : Nat
  lend : Option LendReq
  deriving DecidableEq, Repr

/-- The memory a scrubber visits (R419, R420). -/
inductive ScrubMem
  /-- A packet-buffer bank: `addr` is the stored packet that the cell belongs to. -/
  | packetBuffer
  /-- A table SRAM bank: `addr` is Pad × 2²⁰ + pipeline × 2¹⁵ + rule slot. -/
  | ruleSram
  /-- A table SRAM bank: `addr` is pipeline × 2²⁰ + L2 entry slot. -/
  | l2Sram
  /-- Table SRAM holding a replicated entry. -/
  | replicated
  /-- Other SRAM. -/
  | sram
  /-- eMRAM. -/
  | emram
  /-- eMRAM of the boot block. -/
  | bootBlock
  /-- An HBM line of the flow table: `addr` is the entry's slot. -/
  | hbmFlow
  /-- The key slot `addr` in HBM. -/
  | hbmKey
  /-- A metering counter in HBM. -/
  | hbmMeter
  /-- Skink memory of thread `addr`. -/
  | skink
  /-- Other HBM. -/
  | hbm
  deriving DecidableEq, Repr

/-- What a scrub of a word found. -/
inductive ScrubResult
  | clean | corrected | uncorrectable
  deriving DecidableEq, Repr

/-- A mailbox (R344, R407). -/
inductive MbxId
  /-- The mailbox of the function with this FID. -/
  | fn (fid : Nat)
  /-- The Board's, over I3C. -/
  | board
  deriving DecidableEq, Repr

/-- An XCS command as the mailbox engine brings it to execution: the mailbox whose oldest waiting request it is, and the entries
(ADDR, LEN) of the request and response lists that the request names (R349). `agree` is false where the mailbox engine's permission table and
the firmware's copy disagree about the request (R352), and `composed` where the two compositions of a request that its response makes differ
(R80). -/
structure XCall where
  mbx : MbxId
  reqList : List (Nat × Nat) := []
  rspList : List (Nat × Nat) := []
  agree : Bool := true
  composed : Bool := true
  deriving DecidableEq, Repr

/-- A function as a PCIe request names it: by FID, or as a VF that no `FN_CREATE` has bound (R70). -/
inductive FnRef
  | fid (f : Nat)
  | unprov (port pf vf : Nat)
  deriving DecidableEq, Repr

/-- The reference is of a possible function. -/
def FnRef.ok : FnRef → Bool
  | .fid f => f < 65536
  | .unprov p f v => p < 32 && (f = 1 || f = 2) && 1 ≤ v && v ≤ 1024

/-- Whose index word a read brings (R97, R346). -/
inductive IdxOf
  /-- A ring's. -/
  | ring (r : Nat)
  /-- The function's mailbox's request index word. -/
  | mailbox
  deriving DecidableEq, Repr

/-- A ring's number is one that a function can have (R72). -/
def IdxOf.ok : IdxOf → Bool
  | .ring r => r < 16320
  | .mailbox => true

/-- A capability of configuration space (R71). -/
inductive Cap
  /-- PCI Power Management. -/
  | power
  /-- PCI Express. -/
  | express
  /-- MSI-X. -/
  | msix
  /-- Advanced Error Reporting. -/
  | aer
  /-- Alternative Routing-ID Interpretation. -/
  | ari
  /-- Single Root I/O Virtualization. -/
  | sriov
  /-- Device Serial Number. -/
  | serial
  /-- Data Link Feature. -/
  | dataLink
  /-- Physical Layer at 16, 32, 64 or 128 GT/s. -/
  | physical (gt : Nat)
  /-- Lane Margining at the Receiver. -/
  | margining
  /-- Flit Logging. -/
  | flitLog
  /-- A capability that no row of R71 gives: one of those that R64 lists as not supported, or any other. -/
  | absent (n : Nat)
  deriving DecidableEq, Repr

/-- The configuration-space registers that the spec gives an effect or a value (R64, R65, R67, R68, R71, R82, R88, R89, R91 to R93). -/
inductive CfgReg
  /-- The header of a capability: zero where the function does not have it. -/
  | cap (c : Cap)
  /-- A base address register, 0 to 5 by its dword. -/
  | bar (i : Nat)
  /-- A VF base address register of the SR-IOV capability, 0 to 5 by its dword. -/
  | vfBar (i : Nat)
  /-- Power management capabilities: bits 31:27 PME_Support. -/
  | pmc
  /-- Device Capabilities: bits 2:0 Max_Payload_Size Supported. -/
  | devCap
  /-- Device Control: bits 7:5 Max_Payload_Size, bits 14:12 Max_Read_Request_Size, bit 15 Initiate FLR. -/
  | devCtl
  /-- Device Capabilities 2: bits 3:0 completion timeout ranges, bit 4 timeout disable, bit 16 10-bit tag completer, bit 17 requester. -/
  | devCap2
  /-- Link Capabilities: bits 3:0 highest rate, bits 9:4 widest link, bits 11:10 ASPM, bits 17:15 L1 exit latency. -/
  | linkCap
  /-- Link Control: bits 1:0 ASPM control. -/
  | linkCtl
  /-- SR-IOV Control: bit 0 VF Enable. -/
  | sriovCtl
  /-- Device Serial Number, lower and upper dword. -/
  | serial (upper : Bool)
  /-- AER uncorrectable error status. -/
  | aerStatus
  /-- AER uncorrectable error mask. -/
  | aerMask
  /-- AER uncorrectable error severity. -/
  | aerSeverity
  /-- Vendor and device ID. -/
  | id
  /-- Class code and revision ID. -/
  | classRev
  /-- Subsystem IDs. -/
  | subsystem
  /-- Command: bit 1 Memory Space Enable, bit 2 Bus Master Enable. -/
  | command
  /-- Device Control 2: bits 3:0 completion timeout value, bit 4 timeout disable, bit 12 10-bit tag requester enable. -/
  | devCtl2
  /-- MSI-X message control: bit 30 function mask, bit 31 enable. -/
  | msixCtl
  /-- Power management control: bits 1:0 PowerState, bit 8 PME_En, bit 15 PME_Status. -/
  | pmcsr
  /-- SR-IOV TotalVFs and InitialVFs. -/
  | sriovTotal
  /-- SR-IOV First VF Offset and VF Stride. -/
  | sriovOffset
  /-- SR-IOV NumVFs. -/
  | sriovNum
  /-- Any other register. -/
  | other (n : Nat)
  deriving DecidableEq, Repr

/-- The register is one that configuration space can have. -/
def CfgReg.ok : CfgReg → Bool
  | .cap (.physical gt) => [16, 32, 64, 128].contains gt
  | .bar i | .vfBar i => i < 6
  | _ => true

/-- The `PORT_CONFIG` payload (R361). -/
structure PortCfg where
  port : Nat := 0
  admin : Nat := 0
  octet : Nat := 0
  first : Nat := 0
  width : Nat := 0
  rate : Nat := 0
  fec : Nat := 0
  an : Nat := 0
  fc : Nat := 0
  pfcMask : Nat := 0
  mtu : Nat := 0
  stormMs : Nat := 0
  defPrio : Nat := 0
  /-- What the floors at 0.68 V and 105 °C would be, in credits, with the change made (R25). -/
  floors : Nat := 0
  deriving DecidableEq, Repr

/-- Every field fits its width. -/
def PortCfg.ok (p : PortCfg) : Bool :=
  [p.port, p.admin, p.octet, p.first, p.width, p.rate, p.fec, p.an, p.fc, p.pfcMask, p.defPrio].all (· < 256)
    && p.mtu < 65536 && p.stormMs < 65536

/-- The `WINDOW_SET` payload (R361). -/
structure WinCfg where
  port : Nat := 0
  index : Nat := 0
  fn : Nat := 0
  rd : Nat := 0
  wr : Nat := 0
  sizeLog2 : Nat := 0
  tgtType : Nat := 0
  tenant : Nat := 0
  barOff : Nat := 0
  tgtAddr : Nat := 0
  deriving DecidableEq, Repr

/-- Every field fits its width. -/
def WinCfg.ok (w : WinCfg) : Bool :=
  [w.port, w.index, w.rd, w.wr, w.sizeLog2, w.tgtType].all (· < 256) && w.fn < 65536 && w.tenant < 65536
    && w.barOff < 2 ^ 64 && w.tgtAddr < 2 ^ 64

/-- The `METER_EXPORT_CONFIG` payload (R380). -/
structure ExportCfg where
  mode : Nat := 0
  log2 : Nat := 0
  port : Nat := 0
  tenFirst : Nat := 0
  tenCount : Nat := 0
  udpSrc : Nat := 0
  udpDst : Nat := 0
  mtu : Nat := 0
  l3 : Nat := 0
  dscp : Nat := 0
  ringAddr : Nat := 0
  indexAddr : Nat := 0
  collector : Nat := 0
  deriving DecidableEq, Repr

/-- Every field fits its width. -/
def ExportCfg.ok (c : ExportCfg) : Bool :=
  [c.mode, c.log2, c.l3, c.dscp].all (· < 256)
    && [c.port, c.tenFirst, c.tenCount, c.udpSrc, c.udpDst, c.mtu].all (· < 65536)
    && c.ringAddr < 2 ^ 64 && c.indexAddr < 2 ^ 64 && c.collector < 2 ^ 128

/-- What the check bits of a fetched microword show (R188). -/
inductive WordEcc
  | clean | corrected | uncorrectable
  deriving DecidableEq, Repr

/-- An entry that a table command carries, in the table's `TBL_INSERT` layout (R139, R140, R143 to R145, R361). -/
inductive TblEntry
  /-- The record of an attachment, a VN, an L2 entry, a flow entry or a next hop. -/
  | record (v : BitVec 512)
  /-- A route: VRF, LEN, PREFIX as a number, DEST. -/
  | route (vrf len : Nat) (net : BitVec 128) (dest : Nat)
  deriving DecidableEq, Repr

/-- The entry has its table's layout, and every field fits. -/
def TblEntry.ok (table : Nat) : TblEntry → Bool
  | .record v => table ≠ 4 && table ≠ 5
      && v.toNat < 2 ^ (if table = 2 then 192 else if table = 3 then 512 else if table = 6 then 256 else 64)
  | .route vrf len _ dest => (table = 4 || table = 5) && vrf < 65536 && len < 256 && dest < 2 ^ 32

/-- The `UCODE_LOAD` payload (R361). -/
structure UcodeReq where
  pipes : Nat := 0
  cntBase : Nat := 0
  cntCount : Nat := 0
  scrBase : Nat := 0
  scrSize : Nat := 0
  polBase : Nat := 0
  polCount : Nat := 0
  queBase : Nat := 0
  queCount : Nat := 0
  image : List Byte := []
  deriving DecidableEq, Repr

/-- Every field fits its width. -/
def UcodeReq.ok (u : UcodeReq) : Bool :=
  [u.pipes, u.cntBase, u.cntCount, u.scrBase, u.scrSize].all (· < 65536)
    && [u.polBase, u.polCount, u.queBase, u.queCount].all (· < 2 ^ 32)

/-- The `QUEUE_MAP` payload by FORM (R361). -/
inductive QMap
  | node (level prio pfc overhead weight deadline node parent : Nat)
  | base (count dest base : Nat)
  | session (session trunc sample queue : Nat)
  | other (form : Nat)
  deriving DecidableEq, Repr

/-- Every field fits its width. -/
def QMap.ok : QMap → Bool
  | .node l p f o w d n q => [l, p, f, o].all (· < 256) && w < 65536 && d < 65536 && n < 2 ^ 32 && q < 2 ^ 32
  | .base c d b => c < 256 && d < 2 ^ 32 && b < 2 ^ 32
  | .session n t m q => n < 256 && t < 65536 && m < 65536 && q < 2 ^ 32
  | .other f => 3 ≤ f && f < 256

/-- The `SA_CREATE` payload (R361). -/
structure SaCfg where
  kind : Nat := 0
  suite : Nat := 0
  tenant : Nat := 0
  slot : Nat := 0
  warn : Nat := 0
  spi : Nat := 0
  salt : Nat := 0
  window : Nat := 0
  esn : Nat := 0
  home : Nat := 0
  octet : Nat := 0
  sc : Nat := 0
  an : Nat := 0
  offset : Nat := 0
  validate : Nat := 0
  sci : Nat := 0
  pn : Nat := 0
  deriving DecidableEq, Repr

/-- Every field fits its width. -/
def SaCfg.ok (c : SaCfg) : Bool :=
  [c.kind, c.suite, c.esn, c.home, c.octet, c.sc, c.an, c.offset, c.validate].all (· < 256)
    && c.tenant < 65536 && c.slot < 2 ^ 32 && c.warn < 2 ^ 32 && c.spi < 2 ^ 32 && c.salt < 2 ^ 32
    && c.window < (if c.kind < 2 then 65536 else 2 ^ 32) && c.sci < 2 ^ 64 && c.pn < 2 ^ 64

/-- The `BACKEND_ADD` payload (R263, R361). -/
structure BackCfg where
  port : Nat := 0
  l3 : Nat := 0
  queues : Nat := 0
  home : Nat := 0
  nsid : Nat := 0
  addr : Nat := 0
  nqn : List Byte := []
  deriving DecidableEq, Repr

/-- Every field fits its width. -/
def BackCfg.ok (c : BackCfg) : Bool :=
  c.port < 65536 && [c.l3, c.queues, c.home].all (· < 256) && c.nsid < 2 ^ 32 && c.addr < 2 ^ 128 && c.nqn.length = 224

/-- The TCP connection of one queue of a backend as it stands when it has connected: the device's port, and the sequence numbers that the device
and the backend go on at (R264, R290). -/
structure ConnIn where
  port : Nat := 0
  tx : Nat := 0
  rx : Nat := 0
  deriving DecidableEq, Repr

/-- The connections to a backend when it has connected: the Ethernet port by which they run, the addresses of the link (destination, then
source), the device's own address, and the connection of each queue (R10, R264). -/
structure Link where
  port : Nat := 0
  macs : Nat := 0
  addr : Nat := 0
  conns : List ConnIn := []
  deriving DecidableEq, Repr

/-- The port is an Ethernet port. -/
def Link.ok (l : Link) : Bool := l.port < 144

/-- A PDU as a backend sent it: the port on which it arrived, the queue whose connection carried it, the TCP sequence number of its first
byte (R10, R285, R290). -/
structure PduIn where
  port : Nat := 0
  queue : Nat := 0
  seq : Nat := 0
  bytes : List Byte := []
  deriving DecidableEq, Repr

/-- What the Path Check Words met as a cipher request ended: the block of a storage command whose word no longer matches its data, if any, and
whether what the pipelines then punt matches at its channel (R283). -/
structure PcwSeen where
  block : Option Nat := none
  puntOk : Bool := true
  deriving DecidableEq, Repr

/-- A cipher request whose wait is over, and whether what the pipelines then punt matches its Path Check Word (R283). -/
structure ReqTurn where
  req : Nat
  puntOk : Bool := true
  deriving DecidableEq, Repr

/-- A slot read from the key store, and whether its tag verifies (R298). -/
structure SlotRead where
  slot : Nat
  tagOk : Bool := true
  deriving DecidableEq, Repr

/-- What the connection to a backend and its Identify data show (R263): the connections, none when it does not connect within 10 s; whether
both digests are accepted; of `CAP`, MPSMIN; of Identify Controller, MDTS, ONCS and AWUPF; of Identify Namespace, NSZE, NSFEAT, FLBAS, DPS,
DLFEAT, NAWUPF, and the LBA formats, each with its LBADS and MS. -/
structure BackFound where
  link : Option Link := none
  hdgst : Bool := true
  ddgst : Bool := true
  mpsMin : Nat := 0
  mdts : Nat := 0
  oncs : Nat := 0
  awupf : Nat := 0
  nsze : Nat := 0
  nsfeat : Nat := 0
  flbas : Nat := 0
  dps : Nat := 0
  dlfeat : Nat := 0
  nawupf : Nat := 0
  lbafs : List (Nat × Nat) := []
  deriving DecidableEq, Repr

/-- The commands, in the table's order. -/
inductive Instr
  /-- SYS_RST_N_ASSERT (R83). Assertion of SYS_RST_N resets the whole device, losing all state except eMRAM and OTP. -/
  | sysRstNAssert
  /-- SYS_RST_N_RELEASE (R403). Release of SYS_RST_N starts the cold boot: boot block measured, slots verified, maps applied, store loaded, ports brought up. -/
  | sysRstNRelease (chnHead bootRecoveryN : Bool) (ownerStrap : Nat)
  /-- PWR_OK_RISE (R468). PWR_OK rising enables the device or, after Basking rail restoration, starts the wake bounds. -/
  | pwrOkRise
  /-- PWR_OK_FALL (R467). PWR_OK falling with BASK_REQ_N released finishes any eMRAM write begun and then acts as a reset. -/
  | pwrOkFall
  /-- ALARM_N_ASSERT (R306). ALARM_N held low for 100 ns or more raises a cipher alarm. -/
  | alarmNAssert (ns : Nat) (stillLow : Bool)
  /-- SUPPLY_GLITCH (R306). A supply excursion beyond 12% for 5 ns on a guarded rail raises a cipher alarm. -/
  | supplyGlitch (rail : GuardedRail) (permille ns : Nat)
  /-- TJ_THRESHOLD_CROSS (R473). A junction sensor crossing 105, 115 or 125 degrees triggers the corresponding thermal response. -/
  | tjThresholdCross (sensor : Nat) (tj : Nat)
  /-- WAKE_N_ASSERT (R410). WAKE_N low for 1 us wakes a Basking device by the fast path or a full boot. -/
  | wakeNAssert (ns : Nat)
  /-- PPS_IN_EDGE (R470). A rising edge of PPS_IN marks the second for timebase discipline. -/
  | ppsInEdge
  /-- PTP_STEP (R18). A PTP step changes device time, firing any timed action passed. -/
  | ptpStep (delta : Int)
  /-- ARBITER_EPOCH (R32). Each 1 us epoch the arbiter lapses unused credits and grants floors then elastic shares for the next epoch. -/
  | arbiterEpoch (core sds : List EpochReq) (coreNow sdsNow : Nat)
  /-- HARD_LIMIT_CROSS (R35). Rail current crossing the hard limit asserts hold to every elastic consumer within 200 ns. -/
  | hardLimitCross (sdsRail : Bool) (now : Nat)
  /-- GOVERNOR_PERIOD (R23). Each period the governor computes worst margin and steps VDD_CORE up, down or not. -/
  | governorPeriod (late : Bool)
  /-- AVS_WRITE_DONE (R26). An AVSBus voltage write and status read-back completes, and the arbiter applies new floors next epoch. -/
  | avsWriteDone (ok : Bool)
  /-- SENSOR_WINDOW (R21). Each 10 us window a token-rate sensor reports its unit's achievable rate. -/
  | sensorWindow (cluster : Bool) (unit rate : Nat)
  /-- STALL_WATCHDOG_FIRE (R27). A request unacknowledged past its domain timeout sends a fault record and starts containment. -/
  | stallWatchdogFire (dom : HsDom) (stall : Stall)
  /-- INVALID_CODEWORD (R27). A stage receiving an invalid dual-rail codeword reports it at once to the fault collector. -/
  | invalidCodeword (dom : HsDom) (stage : Nat)
  /-- CLEAR_SELFTEST_DONE (R423). The domain's reset and self-test end, entering PROBATION on pass or FENCED on fail. -/
  | clearSelftestDone (dom : Dom) (pass : Bool)
  /-- PROBATION_END (R423). After 1 s in PROBATION the domain returns to RUNNING. -/
  | probationEnd (dom : Dom)
  /-- CHECKER_SELFTEST (R418). Once per second each checker is fed a wrong input and a failure to flag it contains its domain. -/
  | checkerSelftest (dom : Dom) (checker : Nat) (flagged : Bool)
  /-- SCRUB_STEP (R419). A background scrubber reads and corrects a memory word as elastic work. -/
  | scrubStep (mem : ScrubMem) (unit addr : Nat) (found : ScrubResult)
  /-- EFT_LOCKSTEP_MISMATCH (R430). A lockstep mismatch or Eft stall restarts the Eft by the fast path and makes the device headless. -/
  | eftLockstepMismatch (stage : Nat)
  /-- EFT_RESTART_DONE (R357). The Eft returns from its restart and HEADLESS clears. -/
  | eftRestartDone
  /-- WEAR_EVALUATION (R435). Wear signals are evaluated and a worn unit is regrown or a wear-threshold event raised. -/
  | wearEvaluation (kind unit corr word row stall : Nat) (held24 : Bool)
  /-- AGE_HOUR (R440). Each hour of operation adds Arrhenius-weighted equivalent age. -/
  | ageHour (tjMax : Int)
  /-- REGROWTH_DONE (R437). A Regrowth finishes copying, switches the map, writes it to the store and retires the old unit. -/
  | regrowthDone (kind : Nat) (ok : Bool)
  /-- LANE_BER_WINDOW (R60). The averaged pre-FEC error rate of a lane is evaluated against the failure and wear thresholds. -/
  | laneBerWindow (lane ber10s ber10min : Nat)
  /-- LINK_TRAINING_DONE (R50). Auto-negotiation and link training end and the port comes up or the attempt fails. -/
  | linkTrainingDone (port : Nat) (ok : Bool) (failed : Nat)
  /-- REFORM_TIMEOUT (R61). The partner does not come up at the re-formed width within the training timers, so the port is FAILED. -/
  | reformTimeout (port : Nat)
  /-- LINK_LOSS (R62). A port going down drops its queued packets and is removed from its groups. -/
  | linkLoss (port : Nat)
  /-- ETH_FRAME_RECEIVE (R51). The MAC recovers a frame, checks length, FCS and FEC, applies MACsec and buffers it for the pipeline. -/
  | ethFrameReceive (port : Nat) (frame : List Byte) (fcs : BitVec 32) (fecOk : Bool)
  /-- PAUSE_FRAME_RECEIVE (R52). A received XOFF stops the queues of its priority for the received quanta. -/
  | pauseFrameReceive (port : Nat) (pfc : Bool) (mask : Nat) (quanta : List Nat)
  /-- PAUSE_QUANTA_EXPIRE (R52). The pause quanta run out and the paused queues resume. -/
  | pauseQuantaExpire (port prio : Nat)
  /-- PAUSE_STORM_LIMIT (R53). A priority paused longer than the limit raises a pause-storm event and starts head drops. -/
  | pauseStormLimit (port prio : Nat)
  /-- PAUSE_STORM_CLEAR (R53). No XOFF received for one full limit ends the pause-storm head drops. -/
  | pauseStormClear (port prio : Nat)
  /-- MGMT0_FRAME_RECEIVE (R58). A frame on MGMT0 is delivered to the Skink channel of the named partition. -/
  | mgmt0FrameReceive (frame : List Byte) (fcs : BitVec 32)
  /-- PIPELINE_HEADER_ACCEPT (R173). A pipeline with a free context takes a new packet header and parses, classifies and finds its VN and tenant;
  with what the check of a punt's Path Check Word finds at the channel (R283). -/
  | pipelineHeaderAccept (turn : PipeTurn)
  /-- MICROWORD (R176). An action engine executes one microword for a ready packet context. -/
  | microword (turn : PipeTurn) (engine : Nat) (ecc : WordEcc)
  /-- MICROCODE_OP_COMPLETE (R176). An asynchronous lookup, policer, hash, cipher, check-value or memory operation completes and its result becomes readable. -/
  | microcodeOpComplete (turn : PipeTurn) (ctx kind : Nat)
  /-- SPRAY_RESEQ_TIMEOUT (R165). The oldest held packet waits 50 us and the missing sequences before it are declared lost. -/
  | sprayReseqTimeout (unit stream : Nat)
  /-- SPRAY_CONTEXT_IDLE (R166). A context holding nothing for 1 ms becomes free for reuse. -/
  | sprayContextIdle (unit stream : Nat)
  /-- FLOWLET_GAP_EXPIRE (R161). A bucket with nothing queued and unused for GAP becomes idle and may switch to its target. -/
  | flowletGapExpire (group pipe bucket : Nat)
  /-- LB_IMBALANCE_WINDOW (R167). Each 1 ms window member bytes are compared and an imbalance may raise an event and rotation. -/
  | lbImbalanceWindow (group : Nat)
  /-- AGING_SLICE (R150). Each slice period a sweep removes aged entries in its slice and stash. -/
  | agingSlice (table pipe : Nat) (examined : Option Nat)
  /-- LEARN_SERVICE_EVENT (R147). The learning service takes a learn event, checks the limit and inserts or moves the home entry and copies. -/
  | learnServiceEvent (pipe : Nat)
  /-- REHASH_DONE (R157). The rehash walker moves the last old-generation entry and the old seed is erased. -/
  | rehashDone (table pipe : Nat)
  /-- EGRESS_SCHEDULE (R214). When a port or DMA engine can take a frame, the hierarchy picks a queue and sends or delivers its head copy.
  `composed` says whether the two compositions of a write to a host agree (R80). -/
  | egressSchedule (l0 : Nat) (bufs : List (BitVec 128)) (pcwOk composed : Bool)
  /-- DEADLINE_HEAD_CHECK (R216). Every T/4 a non-eligible deadline queue drops late head packets. -/
  | deadlineHeadCheck (queue : Nat)
  /-- QUEUE_TELEMETRY_SAMPLE (R217). At each interval every queue of a telemetry ring is sampled and records then the index written. -/
  | queueTelemetrySample (ring consumer inTime : Nat)
  /-- MINUTE_BOUNDARY (R378). At each minute the increment banks swap and the frozen bank is folded and snapshotted. -/
  | minuteBoundary
  /-- METER_EXPORT (R381). After a snapshot the export service sends changed tenants' records to the ring or by UDP. -/
  | meterExport (lost : List Nat)
  /-- TIMED_LEAP_TRIGGER (R226). Device time reaching TIME triggers an armed Leap in hardware. -/
  | timedLeapTrigger (spread : Nat)
  /-- PAD_WRITE_RESUME (R223). A waiting Pad write proceeds once vacated-Pad packets have gone, or completes BUSY after 10 ms. -/
  | padWriteResume (mbx : MbxId) (timedOut : Bool)
  /-- PCIE_CONFIG_REQUEST (R88). A configuration request is answered, with Request Retry Status until functions are ready. -/
  | pcieConfigRequest (fn : FnRef) (reg : CfgReg) (bus : Nat) (write : Bool) (value : Nat)
  /-- BME_CLEAR (R89). Clearing Bus Master Enable stops requests, discards pending writes and fences the function's rings and queues. -/
  | bmeClear (fid : Nat)
  /-- MSE_CLEAR (R89). Clearing Memory Space Enable makes every BAR access complete with Unsupported Request. -/
  | mseClear (fid : Nat)
  /-- FLR (R83). A function-level reset returns the function, and for PF1 or PF2 its VFs, to the newly enumerated state. -/
  | flr (fid : Nat)
  /-- VF_ENABLE_SET (R88). Setting VF Enable brings the enabled VFs up within 100 ms. -/
  | vfEnableSet (fid numVfs : Nat)
  /-- VF_ENABLE_CLEAR (R83). Clearing VF Enable outside an FLR resets every VF of the PF. -/
  | vfEnableClear (fid : Nat)
  /-- D3HOT_ENTER (R91). Entry to D3hot stops fetch and delivery at the next boundary and keeps state. -/
  | d3hotEnter (fid : Nat)
  /-- D0_RETURN (R91). Return to D0 resumes fetch and sends held messages. -/
  | d0Return (fid : Nat)
  /-- D3COLD_ENTER (R91). D3cold takes the link down and the port becomes host absent. -/
  | d3coldEnter (port : Nat)
  /-- HP_PERST_N_ASSERT (R83). Asserting a port's PERST takes its link down and resets every function of the port. -/
  | hpPerstNAssert (port ns : Nat)
  /-- HP_PERST_N_DEASSERT (R85). Deasserting PERST lets the port train when the partner is present. -/
  | hpPerstNDeassert (port : Nat)
  /-- HOT_RESET (R83). An in-band hot reset or DL_Down makes the port host absent and resets its functions. -/
  | hotReset (port : Nat)
  /-- DL_UP (R85). The link reaches DL_Up and the port leaves host absent with functions in reset state. -/
  | dlUp (port width gt : Nat) (flit : Bool)
  /-- L1_ENTER (R92). The port enters L1 under ASPM or when every function is in D3hot. -/
  | l1Enter (port : Nat) (aspm : Bool)
  /-- MSIX_UNMASK (R93). Unmasking a vector sends its held message once. -/
  | msixUnmask (fid vector : Nat)
  /-- BAR4_WINDOW_TLP (R77). A memory request to BAR4 is latched to an ACTIVE window's mapping or refused with Unsupported Request. -/
  | bar4WindowTlp (fid off len : Nat) (write : Bool) (data : List Byte) (stalled : Bool)
  /-- PCIE_READ_COMPLETION (R82). A completion for an outstanding read arrives and its data is used, or discarded when poisoned or late;
  `data` is none when it is poisoned or reports an error. -/
  | pcieReadCompletion (port tag : Nat) (data : Option (List Byte))
  /-- COMPLETION_TIMEOUT (R82). A read's completion timeout passes, fencing the ring or failing the NVMe command. -/
  | completionTimeout (port tag : Nat)
  /-- RING_ENABLE (R101). Writing ENABLE 1 in IDLE enables a ring with a valid configuration or sets CFG. -/
  | ringEnable (fid ring value : Nat)
  /-- RING_DISABLE (R114). Writing ENABLE 0 starts the ring shutdown sequence, or refuses it for a CPL ring with active sources. -/
  | ringDisable (fid ring value : Nat)
  /-- RING_RESET (R101). Writing RESET in FENCED returns the ring to IDLE. -/
  | ringReset (fid ring : Nat)
  /-- RING_DB (R98). A doorbell to an ACTIVE ring causes the index word to be read, when the two compositions of the read agree (R80). -/
  | ringDb (fid ring : Nat) (composed : Bool)
  /-- INDEX_WORD_READ_DONE (R97). The index word read returns and a valid value extends owned entries or an invalid one fences the ring. -/
  | indexWordReadDone (fid : Nat) (of : IdxOf) (q : Nat)
  /-- HOST_TX_PACKET (R104). Descriptor and data reads of a packet complete and it is checked, segmented and sent to ingress; `composed` says
  whether the two compositions of each data read agreed (R80). -/
  | hostTxPacket (fid ring : Nat) (descs : List (BitVec 256)) (data : List Byte) (composed : Bool)
  /-- CPL_CI (R100). The host writes its completion consumer index, freeing slots or setting CI_RANGE. -/
  | cplCi (fid ring c : Nat)
  /-- CPL_MOD_TIMER_EXPIRE (R112). The moderation timer of a completion ring expires and its MSI-X is sent or held. -/
  | cplModTimerExpire (fid ring : Nat)
  /-- FN_CTL_UNFENCE (R74). Writing UNFENCE returns every fenced ring and the mailbox of the function to IDLE. -/
  | fnCtlUnfence (fid : Nat)
  /-- REGISTER_WRITE (R6). A write to a register without a row of its own takes effect by its access type, or is ignored. -/
  | registerWrite (fn : FnRef) (bar off size value : Nat)
  /-- MBX_ENABLE (R347). Writing ENABLE 1 enables a mailbox or sets CFG. -/
  | mbxEnable (fid value : Nat)
  /-- MBX_DISABLE (R347). Writing ENABLE 0 drains the mailbox, answering unstarted requests ABORTED. -/
  | mbxDisable (fid value : Nat)
  /-- MBX_DB (R346). A mailbox doorbell makes the engine read the request index and take new requests, when the two compositions of its
  reads agree (R80). A doorbell has no data (R117): the value written has no effect, and a write that is not of 4 bytes has none either (R4). -/
  | mbxDb (fid value size : Nat) (composed : Bool)
  /-- MBX_HEADLESS_ANSWER (R357). While the Eft restarts, each request read is answered HEADLESS in order. -/
  | mbxHeadlessAnswer (mbx : MbxId)
  /-- UNASSIGNED_OPCODE (R353). A request with an unassigned opcode completes BAD_OPCODE. -/
  | unassignedOpcode (x : XCall)
  /-- DEV_INFO (R361). Returns grade, stepping, port, role, FID, tenant, ROM_ID, unique ID and firmware version. -/
  | devInfo (x : XCall)
  /-- DEV_CAPS (R355). Returns XCS version, limits and feature bits. -/
  | devCaps (x : XCall)
  /-- DEV_TIME_GET (R361). Returns device time and lock states. -/
  | devTimeGet (x : XCall)
  /-- DEV_TIME_SET (R18). Sets or steps device time, firing any passed timed action once. -/
  | devTimeSet (x : XCall) (mode value : Nat)
  /-- DEV_RESET (R361). Resets the device after the response or resets one host port. -/
  | devReset (x : XCall) (kind port : Nat)
  /-- PORT_CONFIG (R48). Forms, changes, deletes or clears failed lanes of an Ethernet port. -/
  | portConfig (x : XCall) (p : PortCfg)
  /-- PORT_STATE (R50). Returns a port's state, octet, pipeline, width, rate and failed lanes. -/
  | portState (x : XCall) (port : Nat)
  /-- PORT_STATS (R63). Returns a port's cumulative counters in the chosen form. -/
  | portStats (x : XCall) (port form : Nat)
  /-- LANE_DIAG (R59). Runs lane counts, eye scans, PRBS or loopback on a lane. -/
  | laneDiag (x : XCall) (lane func pattern : Nat) (measured : List Nat)
  /-- OCTET_MODE (R46). Sets an octet's mode while every port using it is down. -/
  | octetMode (x : XCall) (octet mode : Nat) (floors : Nat)
  /-- ALLOT_SET (R367). Reserves pool counts and index ranges for a host port and gives its PFs their shares. -/
  | allotSet (x : XCall) (port tenant tenBase tenCount : Nat) (counts : List Nat)
  /-- ALLOT_GET (R361). Returns a port's allotment and use. -/
  | allotGet (x : XCall) (port : Nat)
  /-- FN_CREATE (R369). Binds a VF number to a function number and grants its resources from the port allotment. -/
  | fnCreate (x : XCall) (port pf vf : Nat) (counts : List Nat)
  /-- FN_DESTROY (R370). Resets a VF, deletes its entries, SAs and keys, zeroes its page and returns its grants. -/
  | fnDestroy (x : XCall) (fid : Nat)
  /-- FN_QUERY (R69). Returns a function's pairing, tenant, status and grants. -/
  | fnQuery (x : XCall) (fid : Nat)
  /-- TENANT_BIND (R371). Binds a provisioned VF to a tenant ID once. -/
  | tenantBind (x : XCall) (fid tenant : Nat)
  /-- WINDOW_SET (R76). Writes a window entry, effective for TLPs arriving after the response. -/
  | windowSet (x : XCall) (w : WinCfg)
  /-- WINDOW_RETIRE (R79). Sets a window DRAINING so new TLPs are refused until its in-flight count drains. -/
  | windowRetire (x : XCall) (port index : Nat)
  /-- WINDOW_DRAIN_DONE (R79). INFLIGHT reaches zero and the retired entry becomes FREE with its response written. -/
  | windowDrainDone (port index : Nat)
  /-- WINDOW_RETIRE_TIMEOUT (R79). After 1 ms without draining the command completes TIMEOUT and a fault record names the target. -/
  | windowRetireTimeout (port index : Nat)
  /-- TBL_INSERT (R137). Inserts or rewrites a table entry on the named pipelines, undoing on failure. -/
  | tblInsert (x : XCall) (table pipes index : Nat) (entry : TblEntry)
  /-- TBL_DELETE (R361). Deletes a table entry by its key or index. -/
  | tblDelete (x : XCall) (table pipes index : Nat) (entry : TblEntry)
  /-- TBL_LOOKUP (R361). Returns a table entry by key or index. -/
  | tblLookup (x : XCall) (table pipe index : Nat) (entry : TblEntry)
  /-- TBL_ITER (R158). Returns entries or counters from a cursor. -/
  | tblIter (x : XCall) (table pipe form filter value cursor : Nat)
  /-- TBL_FLUSH (R158). Deletes non-static entries matching a filter, with their remote copies. -/
  | tblFlush (x : XCall) (table pipes filter value : Nat)
  /-- TBL_REHASH (R157). Draws a new seed and starts the rehash walker, or reports its status. -/
  | tblRehash (x : XCall) (table pipe : Nat)
  /-- LEARN_CONFIG (R148). Sets a source's learn limit, excess action and sharing. -/
  | learnConfig (x : XCall) (src srcHost excess share limit : Nat)
  /-- AGING_CONFIG (R150). Sets aging time and sweep slicing for L2 or flow tables. -/
  | agingConfig (x : XCall) (table pipes ageS sliceUs entries : Nat)
  /-- LB_GROUP_SET (R159). Writes a group record and members into the shadow Pad. -/
  | lbGroupSet (x : XCall) (group record : Nat) (members : List Nat)
  /-- LB_MONITOR (R167). Arms, disarms, reads the imbalance monitor or starts a seed rotation. -/
  | lbMonitor (x : XCall) (group op ratio windows rotate : Nat)
  /-- PARSE_DEPTH_SET (R121). Writes a parse record into the shadow Pad. -/
  | parseDepthSet (x : XCall) (port : Nat) (record : BitVec 128)
  /-- PORT_DEFAULT_SET (R131). Writes a parse port's default action into the shadow Pad. -/
  | portDefaultSet (x : XCall) (port : Nat) (action : BitVec 64)
  /-- RULE_WRITE (R132). Writes a rule or binding into the shadow Pad, or a rule into both Pads with LIVE. -/
  | ruleWrite (x : XCall) (pipes kind slot : Nat) (entry : BitVec 1536)
  /-- RULE_CLEAR (R132). Clears a rule or binding slot, VALID word first. -/
  | ruleClear (x : XCall) (pipes kind slot : Nat)
  /-- RULE_READ (R129). Returns a slot's entry and hit counter for a Pad and pipeline. -/
  | ruleRead (x : XCall) (pipe pad kind slot : Nat)
  /-- UCODE_LOAD (R197). Verifies and checks a microcode image and writes it into the shadow Pad. -/
  | ucodeLoad (x : XCall) (u : UcodeReq)
  /-- UCODE_KEY_ENROL (R196). Enrols or removes a customer public key. -/
  | ucodeKeyEnrol (x : XCall) (index op : Nat) (key : List Byte)
  /-- UCODE_INFO (R194). Returns ROM_ID, loaded versions and digests, and the export table. -/
  | ucodeInfo (x : XCall) (pipe pad : Nat)
  /-- UCODE_PATCH_STATE (R190). Returns the 32 match registers of a Pad and pipeline. -/
  | ucodePatchState (x : XCall) (pipe pad : Nat)
  /-- PAD_COPY (R222). Copies every Pad-scoped object of the active Pad into the shadow Pad. -/
  | padCopy (x : XCall)
  /-- PAD_LEAP (R224). Leaps at once, arms a timed or chain-wide Leap, or cancels a pending one. -/
  | padLeap (x : XCall) (mode expect time : Nat)
  /-- PAD_STATE (R221). Returns the active Pad, generation, shadow state, pending Leap and vacated cells. -/
  | padState (x : XCall)
  /-- PAD_DISCARD (R222). Returns the shadow Pad to reset contents. -/
  | padDiscard (x : XCall)
  /-- POOL_CONFIG (R200). Writes a buffer pool record. -/
  | poolConfig (x : XCall) (pool : Nat) (record : BitVec 64)
  /-- RESERVE_SET (R201). Sets an owner's pool, minimum, headroom and lossless flag. -/
  | reserveSet (x : XCall) (okind pool lossless id min headroom : Nat)
  /-- POLICER_SET (R210). Writes a policer record into the shadow Pad. -/
  | policerSet (x : XCall) (index : Nat) (record : BitVec 256)
  /-- SHAPER_SET (R213). Writes a node's rate fields into the shadow Pad. -/
  | shaperSet (x : XCall) (level resetTo node cir cbs pir pbs : Nat)
  /-- QUEUE_MAP (R212). Writes a node structure, queue base or mirror session into the shadow Pad. -/
  | queueMap (x : XCall) (q : QMap)
  /-- QUEUE_SAMPLE_CONFIG (R217). Sets up or stops a queue telemetry ring. -/
  | queueSampleConfig (x : XCall) (ring log2 interval count ringAddr indexAddr : Nat) (queues : List Nat)
  /-- QUEUE_STATS (R219). Returns and restarts a queue's maxima and its cumulative counters. -/
  | queueStats (x : XCall) (queue : Nat)
  /-- VOL_CREATE (R275). Creates a volume with its replicas and makes every block unwritten. -/
  | volCreate (x : XCall) (handle tenant slot size opts : Nat) (reps : List (Nat × Nat))
  /-- VOL_DESTROY (R275). Frees a detached volume's handle and extents. -/
  | volDestroy (x : XCall) (handle : Nat)
  /-- VOL_ATTACH (R275). Attaches a volume to a controller as a namespace, or starts a rebuild. -/
  | volAttach (x : XCall) (handle fid nsid format pitype rebuild : Nat)
  /-- VOL_DETACH (R275). Detaches a namespace after its in-flight commands post. -/
  | volDetach (x : XCall) (handle fid : Nat)
  /-- BACKEND_ADD (R263). Connects to a backend and admits it if it meets the conditions. -/
  | backendAdd (x : XCall) (c : BackCfg) (found : BackFound)
  /-- BACKEND_STATE (R264). Returns a backend's state and counters, or removes it. -/
  | backendState (x : XCall) (backend : Nat)
  /-- VOL_RECONCILE_STATE (R272). Returns a volume's state, open records and copy progress. -/
  | volReconcileState (x : XCall) (handle : Nat)
  /-- KEY_LOAD (R300). Writes key material, clear or wrapped, into an empty slot and returns its KCV. -/
  | keyLoad (x : XCall) (slot wrapSlot type usage tenant : Nat) (material : List Byte)
  /-- KEY_ERASE (R301). Marks a slot erasing so new requests fail, pending erasure after latched requests finish. -/
  | keyErase (x : XCall) (slot : Nat)
  /-- KEY_ERASE_COMPLETE (R301). Every latched request has finished and the slot and cache line are zeroed. -/
  | keyEraseComplete (slot : Nat)
  /-- SA_CREATE (R302). Creates an ESP or MACsec SA on a key slot. -/
  | saCreate (x : XCall) (c : SaCfg)
  /-- SA_STATE (R302). Returns an SA's state and counters, or deletes it. -/
  | saState (x : XCall) (sa : Nat)
  /-- ALARM_STATE (R308). Returns latched alarm sources, times and count. -/
  | alarmState (x : XCall)
  /-- ALARM_CLEAR (R308). Zeroes the key store, draws a new KEK and deletes erased SAs once no source holds. -/
  | alarmClear (x : XCall)
  /-- KEK_ROTATE (R309). Draws a new KEK and starts the reseal walker, or reports progress. -/
  | kekRotate (x : XCall)
  /-- KEK_ROTATION_DONE (R309). The walker has resealed every slot and the old KEK is zeroised. -/
  | kekRotationDone
  /-- CIPHER_REQUEST_COMPLETE (R297). A cipher unit finishes a request with one status and its output. -/
  | cipherRequestComplete (req : Nat) (hwFault : Bool) (pcw : PcwSeen)
  /-- CIPHER_BUSY_TIMEOUT (R295). A pipeline cipher request not started within 2 us completes BUSY. -/
  | cipherBusyTimeout (turn : ReqTurn)
  /-- KEY_CACHE_FILL (R299). A key cache miss completes after opening and expanding the slot. -/
  | keyCacheFill (read : SlotRead)
  /-- PART_CREATE (R313). Creates a customer partition on free cores. -/
  | partCreate (x : XCall) (form cluster cores action tenant clusters channels handles sentinelMs regionMib : Nat)
  /-- PART_DESTROY (R342). Zeroes a stopped partition and returns its resources. -/
  | partDestroy (x : XCall) (part : Nat)
  /-- IMAGE_LOAD (R341). Verifies a service image and loads it into a stopped partition. -/
  | imageLoad (x : XCall) (part : Nat) (image : List Byte)
  /-- PART_START (R328). Starts a loaded partition's supervisor at the image entry. -/
  | partStart (x : XCall) (part : Nat)
  /-- PART_STOP (R342). Stops every thread and discards channels, handles and contexts. -/
  | partStop (x : XCall) (part : Nat)
  /-- DEBUG_ATTACH (R336). Opens or closes a partition to the unlocked debug module. -/
  | debugAttach (x : XCall) (part op : Nat)
  /-- METER_READ (R378). Returns a tenant's meters, a snapshot entry or a microcode counter pair. -/
  | meterRead (x : XCall) (form tenant index : Nat)
  /-- METER_EXPORT_CONFIG (R380). Configures metering export mode and destination. -/
  | meterExportConfig (x : XCall) (c : ExportCfg)
  /-- TELEM_CONFIG (R361). Configures a device telemetry ring of temperature, rail and token-rate samples. -/
  | telemConfig (x : XCall) (intervalMs log2 ringAddr indexAddr : Nat)
  /-- EVENT_SUBSCRIBE (R362). Sets up or stops a mailbox's event ring. -/
  | eventSubscribe (x : XCall) (mask log2 vector ringAddr indexAddr : Nat)
  /-- FW_STAGE (R397). Writes a chunk of a slot image, verifying on FINAL, or empties the slot. -/
  | fwStage (x : XCall) (slot offset total : Nat) (data : List Byte)
  /-- FW_ACTIVATE (R398). Activates a slot, confirming or trialling it, with an Eft-only or full restart. -/
  | fwActivate (x : XCall) (type slot trial : Nat)
  /-- FW_ACTIVATE_DRAIN_DONE (R400). In-flight storage commands have drained and the full activation copies Pads, Leaps and restarts the Eft. -/
  | fwActivateDrainDone
  /-- FW_ACTIVATE_DRAIN_TIMEOUT (R261). The drain overruns 200 ms and the activation is abandoned with STATE. -/
  | fwActivateDrainTimeout
  /-- FW_STATE (R395). Returns the running slot, reason and per-slot state. -/
  | fwState (x : XCall)
  /-- TRIAL_CONFIRM (R396). The trial firmware, once its four conditions hold, writes CONFIRMED and demotes the other slot. -/
  | trialConfirm
  /-- TRIAL_TIMER_EXPIRE (R396). 60 s after release the slot word is locked against CONFIRMED and trial expired is raised. -/
  | trialTimerExpire
  /-- KEY_REVOKE (R401). Blows a root key's revocation fuse unless that would leave nothing bootable. -/
  | keyRevoke (x : XCall) (index : Nat)
  /-- ATTEST_QUOTE (R413). Returns signed measurements, flags and the certificate chain. -/
  | attestQuote (x : XCall) (nonce : List Byte)
  /-- BASK_ENTER (R408). Starts Basking entry by stopping fetch and draining. -/
  | baskEnter (x : XCall)
  /-- BASK_DRAIN_DONE (R408). The drain ends and the device responds, takes links down, saves state and enters self-refresh. -/
  | baskDrainDone
  /-- BASK_DRAIN_TIMEOUT (R408). The drain overruns 100 ms; fetch resumes and Basking refused is raised. -/
  | baskDrainTimeout (us : Nat)
  /-- FAULT_LOG_READ (R428). Returns the overflow count and pending fault records from a sequence number. -/
  | faultLogRead (x : XCall) (seqFrom : Nat)
  /-- FAULT_CLEAR (R428). Removes pending records up to a sequence and runs CLEAR for fenced domains or AVS faults. -/
  | faultClear (x : XCall) (seq : Nat)
  /-- REGROW_STATE (R361). Returns the physical map and spares. -/
  | regrowState (x : XCall)
  /-- REGROW_START (R436). Starts a Regrowth of a unit onto a free spare. -/
  | regrowStart (x : XCall) (kind unit : Nat)
  /-- WEAR_REPORT (R439). Returns age, spares and per-unit wear records. -/
  | wearReport (x : XCall)
  /-- POWER_BUDGET_SET (R31). Sets the rail budgets, hard limits and package power limit. -/
  | powerBudgetSet (x : XCall) (core coreHard sds sdsHard packageW : Nat) (note : BudgetNote)
  /-- POWER_STATE (R361). Returns voltage, rail currents, hold count and governor state. -/
  | powerState (x : XCall)
  /-- GOVERNOR_SET (R22). Sets the governor's parameters. -/
  | governorSet (x : XCall) (margin stepUpMv stepDownHalfMv vminMv vmaxMv periodUs holdDown : Nat)
  /-- MIG_DIRTY_START (R383). Starts dirty logging or switches to a new bitmap. -/
  | migDirtyStart (x : XCall) (fid len bitmap : Nat)
  /-- MIG_DIRTY_STOP (R383). Flushes the bitmap and stops logging. -/
  | migDirtyStop (x : XCall) (fid : Nat)
  /-- DIRTY_BIT_WRITE (R383). A logged VF write's page bit is written to the bitmap within 100 us. -/
  | dirtyBitWrite (fid page : Nat)
  /-- MIG_FREEZE (R384). Stops a VF's fetch and starts draining its in-flight work. -/
  | migFreeze (x : XCall) (fid : Nat)
  /-- MIG_FREEZE_DRAIN_DONE (R384). The drain ends, contexts are frozen and the freeze response is written. -/
  | migFreezeDrainDone (fid : Nat)
  /-- MIG_FREEZE_TIMEOUT (R384). The drain overruns 100 ms and the command completes TIMEOUT. -/
  | migFreezeTimeout (fid : Nat)
  /-- MIG_SAVE (R385). Invalidates the VF's SAs and writes the sealed state blob. -/
  | migSave (x : XCall) (fid : Nat)
  /-- MIG_RESTORE (R388). Verifies and installs a blob into a frozen VF. -/
  | migRestore (x : XCall) (fid : Nat) (blob : List Byte)
  /-- MIG_THAW (R389). Rereads index words, resumes fetch and interrupts and clears FROZEN. -/
  | migThaw (x : XCall) (fid : Nat)
  /-- MIG_KEY_SET (R387). Names the migration key slot. -/
  | migKeySet (x : XCall) (slot : Nat)
  /-- CHAIN_STATE (R453). Returns chain address, unit count, head and state. -/
  | chainState (x : XCall)
  /-- CHAIN_SEND (R457). Sends a DATA message to a chain unit and waits for its marked return. -/
  | chainSend (x : XCall) (dest len : Nat) (data : List Byte)
  /-- CHAIN_SEND_TIMEOUT (R457). The last part has not returned within 1 ms and the send completes TIMEOUT. -/
  | chainSendTimeout
  /-- CKV_CTX_READ (R288). Returns a check-value context as a snapshot. -/
  | ckvCtxRead (x : XCall) (index : Nat)
  /-- CKV_CTX_WRITE (R289). Writes a frozen context's RW fields. -/
  | ckvCtxWrite (x : XCall) (index : Nat) (context : BitVec 256)
  /-- VF_EXCH_NOTIFY (R375). A VF writes NOTIFY, setting its pending bit and OUT and signalling the port manager. -/
  | vfExchNotify (fid value : Nat)
  /-- PF_EXCH_NOTIFY (R374). The port manager notifies a VF, setting its IN bit. -/
  | pfExchNotify (fid value : Nat)
  /-- EXCH_PEND_CLEAR (R373). Clearing a pending bit clears the VF's OUT. -/
  | exchPendClear (fid index value : Nat)
  /-- RCV_OWNER_WRITE (R407). A recovery-function write changes the owner-port record in the store. -/
  | rcvOwnerWrite (value : Nat)
  /-- NVME_CC_ENABLE (R230). Setting CC.EN readies the controller or sets CFS for a bad configuration. -/
  | nvmeCcEnable (fn : FnRef) (value : Nat)
  /-- NVME_CC_DISABLE (R256). Clearing CC.EN stops fetch, discards unstarted commands and deletes queues. -/
  | nvmeCcDisable (fn : FnRef) (value : Nat)
  /-- NVME_CC_SHUTDOWN (R257). A shutdown notification stops fetch and lets fetched commands post. -/
  | nvmeCcShutdown (fn : FnRef) (value : Nat)
  /-- NVME_SQ_DOORBELL (R231). A submission doorbell publishes commands, or an invalid one raises an error event. -/
  | nvmeSqDoorbell (fid qid value : Nat)
  /-- NVME_CQ_DOORBELL (R252). A completion doorbell frees completion slots for waiting commands. -/
  | nvmeCqDoorbell (fid qid value : Nat)
  /-- NVME_COMMAND_FETCH (R232). The front end fetches a command, giving it a fetch sequence number and a lock entry, when the two
  compositions of the read agree (R80). What the PRP lists or SGL segments that the entry points to hold comes with it, in the order they are
  read: those of its data, the one of its metadata, the ranges of a Dataset Management. -/
  | nvmeCommandFetch (fid qid : Nat) (sqe : BitVec 512) (lists : List (List Byte)) (mdList : List Byte) (ranges : List (Nat × Nat))
    (composed : Bool)
  /-- NVME_COMMAND_START (R245). A command whose locks and ordered marks permit starts its data transfer or backend command, when the two
  compositions of the data requests agree (R80). -/
  | nvmeCommandStart (fid qid : Nat) (cmd : Posting)
  /-- NVME_POSTING_POINT (R252). A finished command hands its completion entry to DMA and releases its lock, when the two compositions of the
  entry's write agree (R80). -/
  | nvmePostingPoint (fid qid : Nat) (entry : Posting)
  /-- NVME_DELETE_IO_SQ (R255). Deletes a submission queue, aborting what R253 would abort. -/
  | nvmeDeleteIoSq (fid cid : Nat)
  /-- NVME_CREATE_IO_SQ (R233). Creates an I/O submission queue. -/
  | nvmeCreateIoSq (fid cid : Nat)
  /-- NVME_GET_LOG_PAGE (R236). Returns a supported log page. -/
  | nvmeGetLogPage (fid cid : Nat)
  /-- NVME_DELETE_IO_CQ (R233). Deletes an unused completion queue. -/
  | nvmeDeleteIoCq (fid cid : Nat)
  /-- NVME_CREATE_IO_CQ (R231). Creates an I/O completion queue within the grant. -/
  | nvmeCreateIoCq (fid cid : Nat)
  /-- NVME_IDENTIFY (R237). Returns an Identify structure. -/
  | nvmeIdentify (fid cid : Nat)
  /-- NVME_ABORT (R253). Aborts a named command if its state permits. -/
  | nvmeAbort (fid cid : Nat)
  /-- NVME_SET_FEATURES (R235). Sets a supported feature, including Ordered Mark Enable. -/
  | nvmeSetFeatures (fid cid : Nat)
  /-- NVME_GET_FEATURES (R235). Returns a feature's current value. -/
  | nvmeGetFeatures (fid cid : Nat)
  /-- NVME_ASYNC_EVENT_REQUEST (R233). Leaves an asynchronous event request outstanding. -/
  | nvmeAsyncEventRequest (fid cid : Nat)
  /-- NVME_ADMIN_UNSUPPORTED (R233). An unsupported admin opcode completes Invalid Command Opcode. -/
  | nvmeAdminUnsupported (fid cid : Nat)
  /-- NVME_FLUSH (R250). Completes after every earlier-fetched write to its namespace has posted. -/
  | nvmeFlush (fid qid cid : Nat)
  /-- NVME_WRITE (R269). Writes blocks through an intent record to every replica. -/
  | nvmeWrite (fid qid cid : Nat) (data md : List Byte)
  /-- NVME_READ (R271). Reads blocks from the primary or a spread replica. -/
  | nvmeRead (fid qid cid : Nat)
  /-- NVME_COMPARE (R234). Reads one replica and compares with host data. -/
  | nvmeCompare (fid qid cid : Nat) (data md : List Byte)
  /-- NVME_WRITE_ZEROES (R266). Makes blocks unwritten through backend Write Zeroes or deallocation. -/
  | nvmeWriteZeroes (fid qid cid : Nat)
  /-- NVME_DATASET_MANAGEMENT (R234). Deallocates ranges with AD, otherwise completes at once. -/
  | nvmeDatasetManagement (fid qid cid : Nat)
  /-- NVME_FUSED_COMPARE_WRITE (R246). Compares then writes under one exclusive lock. -/
  | nvmeFusedCompareWrite (fid qid cid : Nat) (data md wdata wmd : List Byte)
  /-- NVME_IO_UNSUPPORTED (R234). An unsupported I/O opcode completes Invalid Command Opcode. -/
  | nvmeIoUnsupported (fid qid cid : Nat)
  /-- INTENT_RECORD_TAKE (R269). A write takes a free intent record, opens it and issues its backend commands. -/
  | intentRecordTake (fid qid cid : Nat)
  /-- BACKEND_RESPONSE (R269). A replica acknowledges or fails a backend command. -/
  | backendResponse (tag : Nat) (good : Bool) (data : List Byte)
  /-- BACKEND_PDU_RECEIVE (R285). A backend PDU arrives and its digests are checked by the connection's context. -/
  | backendPduReceive (backend : Nat) (pdu : PduIn)
  /-- BACKEND_TIMEOUT (R264). A backend command outlives BACKEND_TIMEOUT and the backend becomes LOST. -/
  | backendTimeout (backend : Nat)
  /-- BACKEND_CONNECTION_LOST (R264). A backend connection closes and the backend becomes LOST. -/
  | backendConnectionLost (backend : Nat)
  /-- BACKEND_RECONNECT (R264). Every 5 s a LOST backend is reconnected. -/
  | backendReconnect (backend : Nat) (link : Option Link)
  /-- RECONCILE_CHUNK_DONE (R272). A reconciliation copy chunk completes and finished records are cleared. -/
  | reconcileChunkDone (vol failed : Nat) (data : List Byte)
  /-- REBUILD_CHUNK_DONE (R273). A rebuild chunk copy completes and the cursor advances. -/
  | rebuildChunkDone (vol lba failed : Nat) (data : List Byte)
  /-- CH_WR (R318). Writes a word into the thread's staging. -/
  | chWr (tid idx word : Nat)
  /-- CH_CMT (R318). Commits staging as one message, waiting on a full channel unless NB. -/
  | chCmt (tid chan n rd : Nat) (nb : Bool)
  /-- CH_CMT_RESUME (R318). Room frees and a waiting commit delivers its message. -/
  | chCmtResume (tid : Nat)
  /-- CH_RD (R319). Waits for and removes the oldest message of a channel. -/
  | chRd (tid chan rd : Nat)
  /-- CH_TRY (R319). Removes a message if one is present, without waiting. -/
  | chTry (tid chan rd : Nat)
  /-- CH_WAITANY (R319). Waits on a set of channels and receives from one round-robin. -/
  | chWaitany (tid base mask rd : Nat)
  /-- CHANNEL_WAIT_WAKE (R319). A message arrives for a waiting receiver, which retires its receive. -/
  | channelWaitWake (tid : Nat)
  /-- FORK (R330). Starts a pool thread at an entry address. -/
  | fork (tid entry arg rd : Nat)
  /-- JOIN (R330). Waits for a forked thread to exit and reaps it. -/
  | join (tid target rd : Nat)
  /-- THREAD_EXIT (R330). Ends the thread, returning it to the pool, EXITED or STOPPED. -/
  | threadExit (tid value : Nat)
  /-- TRELEASE (R329). Starts a seeded stopped thread. -/
  | trelease (tid target : Nat)
  /-- TRESET (R331). Resets a thread of the partition, ending its waits. -/
  | treset (tid target : Nat)
  /-- XTIRZU_ILLEGAL (R317). An unassigned Xtirzu encoding raises an illegal-instruction exception. -/
  | xtirzuIllegal (tid epc instr : Nat) (vectored : Bool)
  /-- THREAD_CONTROL_CSR (R327). The supervisor accesses a target thread's control CSRs. -/
  | threadControlCsr (tid csr : Nat) (write : Bool) (value rd : Nat)
  /-- CHANNEL_ENTRY_WRITE (R321). A supervisor writes a channel entry, discarding messages on a change of kind, EXT or PEER. -/
  | channelEntryWrite (tid chan half value : Nat)
  /-- ECALL_CUSTOMER (R315). An ECALL or M-mode trap in a customer partition is a thread fault. -/
  | ecallCustomer (tid epc tval : Nat)
  /-- THREAD_FAULT (R332). A thread halts FAULTED and a fault record goes to the supervisor's fault channel. -/
  | threadFault (tid code epc tval addr : Nat)
  /-- CIPHER_SUBMIT (R324). A store to SUBMIT queues the thread's cipher request. -/
  | cipherSubmit (tid : Nat) (request : BitVec 512)
  /-- COPY_OUT (R325). Copies packet bytes to partition memory. -/
  | copyOut (tid handle addr len off : Nat)
  /-- COPY_META (R325). Writes the packet's keys, fields and header list to partition memory. -/
  | copyMeta (tid handle addr : Nat)
  /-- FREE (R325). Releases a packet handle and its cells. -/
  | free (tid handle : Nat)
  /-- INJECT_HANDLE (R325). Injects a punted packet into a pipeline and releases the handle. -/
  | injectHandle (tid handle pipe port : Nat)
  /-- INJECT_BUFFER (R325). Injects bytes from partition memory into a pipeline. -/
  | injectBuffer (tid addr len pipe port : Nat)
  /-- CONTEXT_HOLD (R326). Holds a check-value context, freezing it at the next boundary. -/
  | contextHold (tid index : Nat)
  /-- CONTEXT_RELEASE (R326). Releases a held context. -/
  | contextRelease (tid index : Nat)
  /-- CONTEXT_READ (R326). Reads a context through the window. -/
  | contextRead (tid index : Nat)
  /-- CONTEXT_WRITE (R326). Writes a context the thread holds. -/
  | contextWrite (tid index : Nat) (data : BitVec 256)
  /-- SKINK_TIMER_FIRE (R323). A timer channel fires when device time reaches ARG. -/
  | skinkTimerFire (chan : Nat)
  /-- SKINK_PERIOD_TICK (R323). A period channel ticks, replacing an unconsumed tick and counting a miss. -/
  | skinkPeriodTick (chan : Nat)
  /-- SENTINEL_FIRE (R334). A deadlocked partition's sentinel posts to the fault channel and wakes the supervisor. -/
  | sentinelFire (part : Nat)
  /-- SENTINEL_ESCALATE (R335). The fault channel unread for a further interval raises partition deadlock and may restart the partition. -/
  | sentinelEscalate (part : Nat)
  /-- DEBUG_HALT (R337). The debugger halts a thread at an instruction boundary, leaving waits unretired. -/
  | debugHalt (tid : Nat)
  /-- DEBUG_RESUME (R337). The debugger resumes a halted thread. -/
  | debugResume (tid : Nat)
  /-- DEBUG_SINGLE_STEP (R336). The debugger single-steps a halted thread. -/
  | debugSingleStep (tid : Nat) (next : Option Nat)
  /-- I3C_PRIVATE_WRITE (R365). The Board sends a request header and payload, or is NACKed with eight outstanding. -/
  | i3cPrivateWrite (header : BitVec 512) (payload : List Byte)
  /-- I3C_PRIVATE_READ (R365). The Board reads the oldest ready response or event, or is NACKed. -/
  | i3cPrivateRead
  /-- ENEC (R443). Enables IBIs and hot-join. -/
  | enec (direct : Bool) (events : Nat)
  /-- DISEC (R443). Disables IBIs and hot-join. -/
  | disec (direct : Bool) (events : Nat)
  /-- RSTDAA (R443). Clears the dynamic address. -/
  | rstdaa
  /-- ENTDAA (R443). Assigns a dynamic address after presenting the provisioned ID, BCR and DCR. -/
  | entdaa (addr : Nat)
  /-- SETMWL (R443). Sets the maximum write length. -/
  | setmwl (direct : Bool) (len : Nat)
  /-- SETMRL (R443). Sets the maximum read length. -/
  | setmrl (direct : Bool) (len : Nat)
  /-- RSTACT (R443). Sets the reset action taken by the target reset. -/
  | rstact (direct : Bool) (action : Nat)
  /-- SETNEWDA (R443). Changes the dynamic address. -/
  | setnewda (addr : Nat)
  /-- GETMWL (R443). Returns the maximum write length. -/
  | getmwl
  /-- GETMRL (R443). Returns the maximum read length. -/
  | getmrl
  /-- GETPID (R442). Returns the provisioned ID. -/
  | getpid
  /-- GETBCR (R442). Returns the BCR. -/
  | getbcr
  /-- GETDCR (R442). Returns the DCR. -/
  | getdcr
  /-- GETSTATUS (R443). Returns ready count, error and headless status. -/
  | getstatus
  /-- GETMXDS (R443). Returns maximum data speeds. -/
  | getmxds
  /-- I3C_UNSUPPORTED_CCC (R443). Another CCC is NACKed if direct and ignored if broadcast. -/
  | i3cUnsupportedCcc (code : Nat) (direct : Bool)
  /-- TARGET_RESET_PATTERN (R445). The target resets alone or acts on the configured reset action. -/
  | targetResetPattern
  /-- HOT_JOIN_REQUEST (R444). An unaddressed target requests hot-join after 1 ms idle and every 100 ms. -/
  | hotJoinRequest
  /-- KEEP (R449). A keep-alive frame from the previous unit is received. -/
  | keep (frame : BitVec 64)
  /-- KEEP_SEND (R449). After 100 us of link idle a KEEP frame is sent to the next unit. -/
  | keepSend
  /-- ENUM (R451). A unit takes the offered address and forwards the offer plus one. -/
  | enum (frame : BitVec 64)
  /-- CLOSE (R451). A unit enters UP, and a lender restores its lent credits. -/
  | close (frame : BitVec 64)
  /-- RESET (R452). A unit receiving a chain reset enters FORMING and drops borrowed credits. -/
  | reset (frame : BitVec 64)
  /-- LEAP_ARM (R454). A unit arms the chain-wide Leap on PART 0 or marks a refusal. -/
  | leapArm (frame : BitVec 64)
  /-- LEAP_CANCEL (R454). Armed units disarm. -/
  | leapCancel (frame : BitVec 64)
  /-- LEND (R455). A borrower raises its budget, a lender restores it on return, or an excess is refused. -/
  | lend (frame : BitVec 64)
  /-- FAULT (R456). A received fault frame is delivered to the vendor management partition. -/
  | fault (frame : BitVec 64)
  /-- DATA (R449). A message part is assembled and a complete message delivered and marked. -/
  | data (frame : BitVec 64)
  /-- WAKE (R457). A Basking unit forwards the wake frame and wakes. -/
  | wake (frame : BitVec 64)
  /-- RESERVED_FRAME_TYPE (R449). A frame of reserved type is discarded and counted. -/
  | reservedFrameType (frame : BitVec 64)
  /-- CHAIN_BIT_TIMEOUT (R447). More than 400 ns between bits discards the partial frame as a link error. -/
  | chainBitTimeout
  /-- CHAIN_IN_LINK_LOST (R452). 1 ms without a valid frame marks the incoming link lost and re-forms the chain. -/
  | chainInLinkLost
  /-- CHAIN_OUT_LINK_LOST (R452). A transfer unacknowledged for 100 us marks the outgoing link lost and re-forms the chain. -/
  | chainOutLinkLost
  /-- CHAIN_ENUM_RETRY (R451). The head retries enumeration every 10 ms until it closes. -/
  | chainEnumRetry
  /-- CHAIN_ARM_TIMEOUT (R227). An arm frame not returned within 1 ms cancels the chain-wide Leap with TIMEOUT. -/
  | chainArmTimeout
  /-- IDCODE (R459). Selects the 32-bit IDCODE register. -/
  | idcode
  /-- SAMPLE_PRELOAD (R459). Selects the boundary register for sampling. -/
  | samplePreload
  /-- EXTEST (R460). Takes covered pins out of functional use for boundary test. -/
  | extest
  /-- EXTEST_PULSE (R460). Runs the 1149.6 pulse test on AC pins. -/
  | extestPulse
  /-- EXTEST_TRAIN (R460). Runs the 1149.6 train test on AC pins. -/
  | extestTrain
  /-- CLAMP (R460). Clamps outputs with bypass selected. -/
  | clamp
  /-- HIGHZ (R460). Places outputs in high impedance. -/
  | highz
  /-- DBG_CHALLENGE (R414). Captures a fresh unlock challenge. -/
  | dbgChallenge
  /-- DBG_TOKEN (R414). Writes an unlock token, unlocking its scope or raising an alarm. -/
  | dbgToken (token : List Byte)
  /-- DBG_STATUS (R459). Returns unlocked scopes. -/
  | dbgStatus
  /-- DBG_DMI (R460). Accesses the debug module within the unlocked scope. -/
  | dbgDmi (scope : Nat) (write : Bool) (addr value : Nat)
  /-- BYPASS (R459). Selects the 1-bit bypass register for any unassigned code. -/
  | bypass (code : Nat)
  /-- UART_RX_INPUT (R458). Console input is accepted only in an unlocked Eft or device scope, else discarded. -/
  | uartRxInput (char : Byte)
  /-- FUNCTION_READY (R88). The port's functions finish initialising after HP_PERST_N deassertion, DL_Up, an FLR or VF Enable, and stop answering Request Retry Status. -/
  | functionReady (port : Nat)
  /-- REFERENCE_CLOCK_STOP (R470). A REF156 or PCIe reference clock stops, taking down the ports it serves and, for REF156_P/N[0] in Basking, losing retention. -/
  | referenceClockStop (pcie : Bool) (index : Nat)
  /-- VDD_RET_UP (R465). VDD_RET comes within tolerance, putting the always-on logic in its pre-PWR_OK state with I3C pins high impedance. -/
  | vddRetUp
  /-- VDD_RET_REMOVE (R474). VDD_RET is removed, clearing the THERMTRIP_N latch, the retained I3C state and retention, so the next wake cannot take the fast path. -/
  | vddRetRemove
  /-- HDR_EXIT_PATTERN (R441). The target detects the HDR Exit Pattern and resumes SDR reception after ignoring HDR traffic. -/
  | hdrExitPattern
  /-- CHAIN_INVALID_CODEWORD (R447). A chain receiver sees both data wires high, discards the partial frame and counts a link error. -/
  | chainInvalidCodeword
  /-- NVME_COALESCING_TIME_EXPIRE (R235). The Interrupt Coalescing aggregation time of an NVMe controller expires and the held completion queue interrupt is sent. -/
  | nvmeCoalescingTimeExpire (fid cq : Nat)
  deriving DecidableEq, Repr

end Sys2Proof
end

