-- ==== Sys2Proof/Decode.lean ====
section
/-! DEFINITION. The reader of table words. The table of the spec gives none of its rows bits: its commands are events at the device's
pins, ports and mailboxes, and no word spells one. -/

namespace Sys2Proof

/-- The command that a word of `nbits` bits spells by the table's bits: none, since no row has any (log entry 38). -/
def decodeTableWord (_nbits _w : Nat) : Option Instr := none

end Sys2Proof
end

