-- ==== Sys2Proof/Config.lean ====
section
/-! DEFINITION. What the spec leaves open, as constants with no body: no proof can see their values. The log entries under
notes/assumptions say which point of the spec each one stands for. -/

namespace Sys2Proof.Config

/-- The stream of free values (log entry 3): the next draw is `freeNat s.free`, and the draw advances the counter. It stands
for TRNG draws (R156, R298, R414), for values a chapter leaves undefined, and for everything no rule states. -/
opaque freeNat : Nat → Nat

/-- A seed that the TRNG draws at a boot (R111, R156): the boot's draw, and which seed (log entry 3). -/
opaque bootSeed : Nat → Nat → Nat

/-- The bytes that a keyed hash takes for a list of fields (R111, R152, R160, R185): the spec names SipHash-2-4 and the fields, and lays out
no bytes. -/
opaque hashInput : List Nat → List Byte

/-- The fuse `ID_SECRET` of a die (R391, R412). -/
opaque idSecret : BitVec 256

/-- The per-message secret of a signature over a digest (R413): FIPS 186-5 fixes none. -/
opaque signSecret : BitVec 384 → Nat

/-- The output of a cipher operation under a key of another TYPE than the operation's (R296, R298), and whether its integrity check passes: the
spec states neither. -/
opaque misused : Nat → List Byte → List Byte → List Byte → List Byte → List Byte
opaque misusedOk : Nat → List Byte → List Byte → List Byte → List Byte → Bool

/-- Hours of equivalent age, in millionths, that one hour at the given junction temperature in °C adds (R440), for a
temperature other than 95 °C: the Arrhenius exponential is a real number the spec does not tabulate. -/
opaque arrhenius : Int → Nat

/-- The remaining days that a trend projects (R440): the extrapolation method is not given. -/
opaque trendDays : Nat → Nat → Nat

/-- A word of the vendor microcode ROM (R191, R192): the spec does not print the ROM's code. -/
opaque romWord : Nat → BitVec 192

/-- The figures a RISC-V debug module access answers within an unlocked scope (R460): that module's own specification. -/
opaque dmiRead : Nat → Nat → Nat

/-- Payload rate in bit/s of a host link outside flit mode, by width and GT/s: R64 gives the figure for flit framing only. -/
opaque nonFlitPayload : Nat → Nat → Nat

/-- Ways of a set of the flow cache, which R145 does not state, and the set that holds a key (log entry 93). -/
opaque flowCacheWays : Nat
opaque flowCacheSet : Nat → Nat

/-- The Ethernet port, modulo their number, through which a flood reaches the member that a wire VNI's attachment names (R139; log entry 24). -/
opaque tunnelPort : Nat → Nat

/-- Weight of an elastic consumer (R32): the spec says that weights exist and gives none. -/
opaque elasticWeight : Nat → Nat

/-- The floor of a consumer in credits (R33), by its key, what it needs (a pipeline's required rate, a MACsec unit's line rate, a lane's rate), VDD_CORE
in 0.1 mV and Tj in kelvin: the spec gives no currents (log entry 102). -/
opaque floorCredits : Nat → Nat → Nat → Nat → Nat

/-- Packet handles that the device's partitions share: the spec says that they can run out and gives no number (R313; log entry 20). -/
opaque handlePool : Nat

/-- SHA-384 of the boot block, which the spec does not print (R390). -/
opaque bootBlockDigest : BitVec 384

/-- SHA-384 of the factory image of a slot (log entry 5). -/
opaque factoryDigest : BitVec 384

/-- Further stack levels that a routine of the export table uses (R192, R194: at most one; the table is not printed). -/
opaque routineStack : Nat → Nat

/-- Addresses of the vendor ROM, 0x0040 and above, that a call of a routine of the export table fetches, in order: the ROM's code is not
printed (R189, R194; log entry 26). -/
opaque routinePath : Nat → List Nat

/-- ROM_ID of the vendor microcode ROM of stepping A1 (R189). -/
def romId : BitVec 32 := 0xA1440001

/-- The root public keys (x then y) as a factory slot's key table holds them (log entry 5). -/
opaque rootPub : Nat → List Byte

/-- SHA-384 of each root public key, as the fuses hold it (R391). -/
opaque rootHash : Nat → BitVec 384

/-- The text of an Eft firmware version (R236, R238): the spec gives no form. -/
opaque firmwareText : Nat → List Byte

/-- The NGUID of a volume of a die (R237): the spec gives no value. -/
opaque nguid : Nat → Nat → List Byte

end Sys2Proof.Config
end

