-- ==== Sys2Proof/Machine/Bits.lean ====
section
/-! DEFINITION. Bit fields, byte order, wrapped arithmetic and the sparse maps the state is made of. -/

namespace Sys2Proof.Machine

/-- Bits `lo + w - 1 : lo` of `n`. -/
def bits (n lo w : Nat) : Nat := n / 2 ^ lo % 2 ^ w

/-- Bit `i` of `n`. -/
def bit (n i : Nat) : Bool := n / 2 ^ i % 2 == 1

/-- `n` with bits `lo + w - 1 : lo` replaced by `v`. -/
def setBits (n lo w v : Nat) : Nat :=
  n - bits n lo w * 2 ^ lo + v % 2 ^ w * 2 ^ lo

/-- `n` with the reserved fields of a record clear, each given as its lowest bit and its width (R5). -/
def clearBits (n : Nat) (fields : List (Nat × Nat)) : Nat := fields.foldl (fun n f => setBits n f.1 f.2 0) n

/-- A flag as a bit. -/
def b2n (b : Bool) : Nat := if b then 1 else 0

/-- Packs fields, given as (width, value) from bit 0 upward. -/
def pack : List (Nat × Nat) → Nat
  | [] => 0
  | (w, v) :: r => v % 2 ^ w + 2 ^ w * pack r

/-- The `n` low bytes of `v`, least significant first (R3). -/
def leBytes : Nat → Nat → List Byte
  | 0, _ => []
  | n + 1, v => BitVec.ofNat 8 v :: leBytes n (v / 256)

/-- The number whose little-endian bytes these are (R3). -/
def ofLe : List Byte → Nat
  | [] => 0
  | b :: r => b.toNat + 256 * ofLe r

/-- The number whose big-endian bytes these are, as packet headers hold it (R3). -/
def ofBe (bs : List Byte) : Nat := ofLe bs.reverse

/-- The `n` low bytes of `v`, most significant first. -/
def beBytes (n v : Nat) : List Byte := (leBytes n v).reverse

/-- `(a - b)` modulo 2³², for the free-running ring indices of R95. -/
def sub32 (a b : Nat) : Nat := (a + 2 ^ 32 - b % 2 ^ 32) % 2 ^ 32

/-- `(a + b)` modulo 2³². -/
def add32 (a b : Nat) : Nat := (a + b) % 2 ^ 32

/-- A count of ones. -/
def popcount : Nat → Nat → Nat
  | 0, _ => 0
  | w + 1, n => n % 2 + popcount w (n / 2)

/-- The bit positions below `w` that are set in `n`. -/
def setPositions (w n : Nat) : List Nat := (List.range w).filter (bit n ·)

/-- Rounded-up division. -/
def cdiv (a b : Nat) : Nat := (a + b - 1) / b

/-- The least element that passes, below `n`. -/
def leastBelow (n : Nat) (p : Nat → Bool) : Option Nat := (List.range n).find? p

/-! Sparse maps: lists of pairs with strictly rising keys. An absent key means what the reader of the map says it means. -/

/-- The entry under `k`. -/
def mget? {α : Type} (m : List (Nat × α)) (k : Nat) : Option α :=
  match m with
  | [] => none
  | (k', v) :: r => if k' = k then some v else mget? r k

/-- The entry under `k`, or a default. -/
def mgetD {α : Type} (m : List (Nat × α)) (k : Nat) (d : α) : α := (mget? m k).getD d

/-- The map with `v` under `k`, keys kept strictly rising. -/
def mput {α : Type} (m : List (Nat × α)) (k : Nat) (v : α) : List (Nat × α) :=
  match m with
  | [] => [(k, v)]
  | (k', v') :: r =>
    if k < k' then (k, v) :: (k', v') :: r
    else if k = k' then (k, v) :: r
    else (k', v') :: mput r k v

/-- The map without `k`. -/
def mdel {α : Type} (m : List (Nat × α)) (k : Nat) : List (Nat × α) := m.filter (fun e => e.1 ≠ k)

/-- The map with the entry under `k`, or the default, changed. -/
def mupd {α : Type} (m : List (Nat × α)) (k : Nat) (d : α) (f : α → α) : List (Nat × α) :=
  mput m k (f (mgetD m k d))

/-- Every entry changed in place. -/
def mmap {α : Type} (m : List (Nat × α)) (f : Nat → α → α) : List (Nat × α) := m.map (fun e => (e.1, f e.1 e.2))

/-- Keys strictly rising. -/
def mwf {α : Type} (m : List (Nat × α)) : Bool :=
  match m with
  | [] => true
  | [_] => true
  | (a, _) :: (b, v) :: r => a < b && mwf ((b, v) :: r)

/-! Byte memories: cells with rising addresses and no zero byte listed; an unlisted address of a memory the device zeroes at
grant, at `FN_DESTROY` or at reset reads 0 (log entry 2). -/

/-- The byte at `a`. -/
def rd8 (m : List Host.Cell) (a : Nat) : Byte := (mget? m a).getD 0

/-- The memory with byte `b` at `a`. -/
def wr8 (m : List Host.Cell) (a : Nat) (b : Byte) : List Host.Cell :=
  if b = 0 then mdel m a else mput m a b

/-- The `n` bytes from `a`. -/
def rdN (m : List Host.Cell) (a n : Nat) : List Byte := (List.range n).map (fun i => rd8 m (a + i))

/-- The memory with the bytes written from `a` upward. -/
def wrN (m : List Host.Cell) (a : Nat) : List Byte → List Host.Cell
  | [] => m
  | b :: r => wrN (wr8 m a b) (a + 1) r

/-- The memory with `n` bytes from `a` zeroed. -/
def zeroN (m : List Host.Cell) (a n : Nat) : List Host.Cell := m.filter (fun c => c.1 < a || a + n ≤ c.1)

/-- The canonical form: addresses strictly rising and no zero byte listed. -/
def memWf (m : List Host.Cell) : Bool := mwf m && m.all (fun c => c.2 ≠ 0)

/-- ASCII text. -/
def ascii (t : String) : List Byte := t.toList.map (fun c => BitVec.ofNat 8 c.toNat)
/-- `n` hexadecimal digits of a number, lower case. -/
def hexText (n v : Nat) : List Byte :=
  ((List.range n).map (fun i => v / 16 ^ (n - 1 - i) % 16)).map (fun d => BitVec.ofNat 8 (if d < 10 then 0x30 + d else 0x57 + d))

end Sys2Proof.Machine
end

