-- ==== Sys2Proof/Machine/BlockCiphers.lean ====
section
/-! DEFINITION. The AES block cipher and ChaCha20 with Poly1305, as the standards that R292 cites define them. -/

namespace Sys2Proof.Machine

/-! ### AES (FIPS 197) -/

/-- The substitution table and its inverse: byte `b` of the number is the substitute of `b`. -/
def aesSbox : Nat :=
  0x75b227ebe28012079a059618c323c7041531d871f1e5a534ccf73f362693fdb7c072a49cafa2d4adf04759fa7dc982ca76abd7fe2b670130c56f6bf27b777c63
  + 0xd2f3ff1021dab6bcf5389d928f40a351a89f3c507f02f94585334d43fbaaefd0cf584c4a39becb6a5bb1fc20ed00d153842fe329b3d63b52a05a6e1b1a2c8309 * 2 ^ 512
  + 0x08ae7a65eaf4566ca94ed58d6d37c8e779e4959162acd3c25c2406490a3a32e0db0b5ede14b8ee4688902a22dc4f816073195d643d7ea7c41744975fec130ccd * 2 ^ 1024
  + 0x16bb54b00f2d99416842e6bf0d89a18cdf2855cee9871e9b948ed9691198f8e19e1dc186b95735610ef6034866b53e708a8bbd4b1f74dde8c6b4a61c2e2578ba * 2 ^ 1536
def aesInvSbox : Nat :=
  0x25d18b6d49a25b76b224d92866a12e084ec3fa420b954cee3d23c2a632947b54cbe9dec444438e3487ff2f9b8239e37cfbd7f3819ea340bf38a53630d56a0952
  + 0x6b8a130103bdafc1020f3fca8f1e2cd00645b3b80558e4f70ad3bc8c00abd890849d8da75746155edab9edfd5048706c92b6655dcc5ca4d41698688664f6f872 * 2 ^ 512
  + 0xf45acd78fec0db9a2079d2c64b3e56fc1bbe18aa0e62b76f89c5291d711af1476edf751ce837f9e28535ade72274ac9673e6b4f0cecff297eadc674f4111913a * 2 ^ 1024
  + 0x7d0c2155631469e126d677ba7e042b17619953833cbbebc8b0f52aae4d3be0a0ef9cc9939f7ae52d0d4ab519a97f51605fec8027591012b131c7078833a8dd1f * 2 ^ 1536

def subByte (b : Nat) : Nat := bits aesSbox (8 * b) 8
def invSubByte (b : Nat) : Nat := bits aesInvSbox (8 * b) 8

/-- Multiplication by x in the field of AES. -/
def xtime (b : Nat) : Nat := if 128 ≤ b then 2 * b ^^^ 0x11B else 2 * b

/-- Multiplication by a number below 16. -/
def gmul (m b : Nat) : Nat :=
  (if bit m 0 then b else 0) ^^^ (if bit m 1 then xtime b else 0) ^^^ (if bit m 2 then xtime (xtime b) else 0)
    ^^^ (if bit m 3 then xtime (xtime (xtime b)) else 0)

/-- Each byte of a 32-bit word substituted. -/
def subWord (w : Nat) : Nat :=
  subByte (bits w 0 8) + subByte (bits w 8 8) * 2 ^ 8 + subByte (bits w 16 8) * 2 ^ 16 + subByte (bits w 24 8) * 2 ^ 24

/-- The key schedule, last word first: `i` is the number of the next word, `nk` the words of the key, `rc` the round constant. -/
def aesExpand (nk : Nat) : Nat → Nat → Nat → List Nat → List Nat
  | 0, _, _, l => l
  | n + 1, i, rc, l =>
    let t := l.getD 0 0
    let rot := t % 2 ^ 24 * 2 ^ 8 + t / 2 ^ 24
    let u := if i % nk = 0 then subWord rot ^^^ (rc * 2 ^ 24) else if 6 < nk && i % nk = 4 then subWord t else t
    aesExpand nk n (i + 1) (if i % nk = 0 then xtime rc else rc) ((l.getD (nk - 1) 0 ^^^ u) :: l)

/-- The round keys of a key of 16 or 32 bytes, each of 16 bytes. -/
def aesKeys (key : List Byte) : List (List Nat) :=
  let nk := key.length / 4
  let first := (List.range nk).map (fun i => ofBe ((key.drop (4 * i)).take 4))
  let w := (aesExpand nk (4 * (nk + 7) - nk) nk 1 first.reverse).reverse
  (List.range (nk + 7)).map (fun r => (List.range 16).map (fun i => bits (w.getD (4 * r + i / 4) 0) (24 - 8 * (i % 4)) 8))

/-- The bytes of a state XORed with a round key. -/
def addKey (s k : List Nat) : List Nat := s.zipWith (· ^^^ ·) k

/-- Rows shifted left by their number, or right for the inverse. -/
def shiftRows (s : List Nat) : List Nat := (List.range 16).map (fun i => s.getD ((i + 4 * (i % 4)) % 16) 0)
def invShiftRows (s : List Nat) : List Nat := (List.range 16).map (fun i => s.getD ((i + 12 * (i % 4)) % 16) 0)

/-- Columns multiplied by the circulant of four numbers. -/
def mixColumns (m : Nat × Nat × Nat × Nat) (s : List Nat) : List Nat :=
  (List.range 16).map fun i =>
    let a (k : Nat) : Nat := s.getD (i / 4 * 4 + (i + k) % 4) 0
    gmul m.1 (a 0) ^^^ gmul m.2.1 (a 1) ^^^ gmul m.2.2.1 (a 2) ^^^ gmul m.2.2.2 (a 3)

/-- One block under the round keys. -/
def aesEnc (ks : List (List Nat)) (b : List Byte) : List Byte :=
  let s := addKey (b.map (·.toNat)) (ks.headD [])
  let s := ((ks.drop 1).dropLast).foldl (fun s k => addKey (mixColumns (2, 3, 1, 1) (shiftRows (s.map subByte))) k) s
  (addKey (shiftRows (s.map subByte)) (ks.getLastD [])).map (BitVec.ofNat 8)

/-- One block back. -/
def aesDec (ks : List (List Nat)) (b : List Byte) : List Byte :=
  let s := addKey (b.map (·.toNat)) (ks.getLastD [])
  let s := (((ks.drop 1).dropLast).reverse).foldl
    (fun s k => mixColumns (14, 11, 13, 9) (addKey ((invShiftRows s).map invSubByte) k)) s
  (addKey ((invShiftRows s).map invSubByte) (ks.headD [])).map (BitVec.ofNat 8)

/-! ### ChaCha20 and Poly1305 (RFC 8439) -/

/-- A quarter round on four of the sixteen words. -/
def quarter (s : List Nat) (q : Nat × Nat × Nat × Nat) : List Nat :=
  let (i, j, k, l) := q
  let add (x y : Nat) : Nat := (x + y) % 2 ^ 32
  let rot (x n : Nat) : Nat := (x * 2 ^ n) % 2 ^ 32 ||| x / 2 ^ (32 - n)
  let a := add (s.getD i 0) (s.getD j 0)
  let d := rot (s.getD l 0 ^^^ a) 16
  let c := add (s.getD k 0) d
  let b := rot (s.getD j 0 ^^^ c) 12
  let a := add a b
  let d := rot (d ^^^ a) 8
  let c := add c d
  let b := rot (b ^^^ c) 7
  (((s.set i a).set j b).set k c).set l d

/-- The quarter rounds of a double round. -/
def chachaQuarters : List (Nat × Nat × Nat × Nat) :=
  [(0, 4, 8, 12), (1, 5, 9, 13), (2, 6, 10, 14), (3, 7, 11, 15), (0, 5, 10, 15), (1, 6, 11, 12), (2, 7, 8, 13), (3, 4, 9, 14)]

/-- The 64 bytes of key stream of a block. -/
def chachaBlock (key nonce : List Byte) (n : Nat) : List Byte :=
  let words (k : Nat) (bs : List Byte) : List Nat := (List.range k).map (fun i => ofLe ((bs.drop (4 * i)).take 4))
  let s := [0x61707865, 0x3320646e, 0x79622d32, 0x6b206574] ++ words 8 key ++ [n % 2 ^ 32] ++ words 3 nonce
  let t := (List.range 10).foldl (fun t _ => chachaQuarters.foldl quarter t) s
  (s.zipWith (fun x y => (x + y) % 2 ^ 32) t).flatMap (leBytes 4)

/-- Bytes XORed with the key stream from block 1. -/
def chachaXor (key nonce bs : List Byte) : List Byte :=
  let stream := (List.range ((bs.length + 63) / 64)).flatMap (fun i => chachaBlock key nonce (i + 1))
  bs.zipWith (· ^^^ ·) stream

/-- Poly1305 of a message whose length is a multiple of 16 bytes. -/
def poly1305 (key msg : List Byte) : List Byte :=
  let r := ofLe (key.take 16) &&& 0x0ffffffc0ffffffc0ffffffc0fffffff
  let n := msg.length / 16
  let a := (List.range n).foldl (fun a i => (a + 2 ^ 128 + ofLe ((msg.drop (16 * i)).take 16)) * r % (2 ^ 130 - 5)) 0
  leBytes 16 ((a + ofLe ((key.drop 16).take 16)) % 2 ^ 128)

end Sys2Proof.Machine
end

