-- ==== Sys2Proof/Machine/CipherModes.lean ====
section
/-! DEFINITION. The modes of the cipher engine (R292, R296): GCM, XTS with ciphertext stealing, CMAC, key wrap with and without padding,
ChaCha20-Poly1305, GHASH and single blocks; each by the OP value of R296. -/

namespace Sys2Proof.Machine

def zeros (n : Nat) : List Byte := List.replicate n 0
def xorBytes (a b : List Byte) : List Byte := a.zipWith (· ^^^ ·) b
/-- Zeros up to a multiple of `n` bytes. -/
def padTo (n : Nat) (bs : List Byte) : List Byte := bs ++ zeros ((n - bs.length % n) % n)
/-- Block `i` of 16 bytes. -/
def block16 (bs : List Byte) (i : Nat) : List Byte := (bs.drop (16 * i)).take 16

/-! ### GCM (NIST SP 800-38D, RFC 4106, RFC 4543) -/

/-- The product of two blocks in the field of GCM, bit 127 of a number being the block's first bit; `n` counts the bits left. -/
def gcmMul : Nat → Nat → Nat → Nat → Nat
  | 0, _, _, z => z
  | n + 1, x, v, z => gcmMul n x (if v % 2 = 1 then v / 2 ^^^ 0xE1 * 2 ^ 120 else v / 2) (if bit x n then z ^^^ v else z)

/-- GHASH under a hash subkey of a message whose length is a multiple of 16 bytes. -/
def ghash (h : Nat) (msg : List Byte) : Nat :=
  (List.range (msg.length / 16)).foldl (fun y i => gcmMul 128 (y ^^^ ofBe (block16 msg i)) h 0) 0

/-- The hash subkey. -/
def gcmSubkey (ks : List (List Nat)) : Nat := ofBe (aesEnc ks (zeros 16))

/-- Counter block `n` of a 96-bit IV. -/
def gcmCounter (iv : List Byte) (n : Nat) : List Byte := iv ++ beBytes 4 (n % 2 ^ 32)

/-- Bytes XORed with the key stream from counter 2. -/
def gcmXor (ks : List (List Nat)) (iv bs : List Byte) : List Byte :=
  bs.zipWith (· ^^^ ·) ((List.range ((bs.length + 15) / 16)).flatMap (fun i => aesEnc ks (gcmCounter iv (i + 2))))

/-- The 16-byte tag over additional data and ciphertext. -/
def gcmTag (ks : List (List Nat)) (iv aad ct : List Byte) : List Byte :=
  let g := ghash (gcmSubkey ks) (padTo 16 aad ++ padTo 16 ct ++ beBytes 8 (8 * aad.length) ++ beBytes 8 (8 * ct.length))
  xorBytes (beBytes 16 g) (aesEnc ks (gcmCounter iv 1))

/-! ### XTS (IEEE 1619) -/

/-- The tweak of the next block. -/
def xtsNext (t : Nat) : Nat := 2 * t % 2 ^ 128 ^^^ (if 2 ^ 127 ≤ t then 0x87 else 0)

/-- The tweak of block `n`. -/
def xtsTweak (t : Nat) : Nat → Nat
  | 0 => t
  | n + 1 => xtsTweak (xtsNext t) n

/-- The whole blocks from the first, each under its tweak. -/
def xtsBlocks (f : List Byte → List Byte) : Nat → List (List Byte) → List (List Byte)
  | _, [] => []
  | t, b :: l => xorBytes (f (xorBytes b (leBytes 16 t))) (leBytes 16 t) :: xtsBlocks f (xtsNext t) l

/-- A data unit of at least 16 bytes under a key (first key, then second) and a tweak; `dec` decrypts. A last part block steals from the
block before it. -/
def xts (dec : Bool) (key tweak bs : List Byte) : List Byte :=
  let half := key.length / 2
  let ks := aesKeys (key.take half)
  let f := if dec then aesDec ks else aesEnc ks
  let t := ofLe (aesEnc (aesKeys (key.drop half)) tweak)
  let m := bs.length / 16
  let r := bs.length % 16
  let whole (n : Nat) : List (List Byte) := (List.range n).map (block16 bs)
  if r = 0 then (xtsBlocks f t (whole m)).flatten
  else
    let one (i : Nat) (b : List Byte) : List Byte := let w := leBytes 16 (xtsTweak t i); xorBytes (f (xorBytes b w)) w
    let x := one (if dec then m else m - 1) (block16 bs (m - 1))
    let y := one (if dec then m - 1 else m) (bs.drop (16 * m) ++ x.drop r)
    (xtsBlocks f t (whole (m - 1))).flatten ++ y ++ x.take r

/-! ### CMAC (RFC 4493) -/

/-- A subkey from the one before it. -/
def cmacDouble (b : List Byte) : List Byte :=
  let v := ofBe b
  beBytes 16 (2 * v % 2 ^ 128 ^^^ (if 2 ^ 127 ≤ v then 0x87 else 0))

/-- AES-CMAC of a message. -/
def cmac (key bs : List Byte) : List Byte :=
  let ks := aesKeys key
  let k1 := cmacDouble (aesEnc ks (zeros 16))
  let n := (bs.length + 15) / 16 - 1
  let rest := bs.drop (16 * n)
  let last := if rest.length = 16 then xorBytes rest k1 else xorBytes (rest ++ [0x80] ++ zeros (15 - rest.length)) (cmacDouble k1)
  let x := (List.range n).foldl (fun x i => aesEnc ks (xorBytes x (block16 bs i))) (zeros 16)
  aesEnc ks (xorBytes x last)

/-! ### Key wrap (RFC 3394, RFC 5649) -/

/-- Block `i` of 8 bytes. -/
def block8 (bs : List Byte) (i : Nat) : List Byte := (bs.drop (8 * i)).take 8

/-- The wrapping function from an initial value. -/
def wrapFrom (ks : List (List Nat)) (iv bs : List Byte) : List Byte :=
  let n := bs.length / 8
  let x := (List.range (6 * n)).foldl (fun (x : List Byte × List (List Byte)) j =>
    let b := aesEnc ks (x.1 ++ x.2.getD (j % n) [])
    (xorBytes (b.take 8) (beBytes 8 (j + 1)), x.2.set (j % n) (b.drop 8))) (iv, (List.range n).map (block8 bs))
  x.1 ++ x.2.flatten

/-- The initial value and the data that a wrapped text of at least two blocks opens to. -/
def unwrapTo (ks : List (List Nat)) (bs : List Byte) : List Byte × List Byte :=
  let n := bs.length / 8 - 1
  let x := (List.range (6 * n)).foldl (fun (x : List Byte × List (List Byte)) k =>
    let j := 6 * n - 1 - k
    let b := aesDec ks (xorBytes x.1 (beBytes 8 (j + 1)) ++ x.2.getD (j % n) [])
    (b.take 8, x.2.set (j % n) (b.drop 8))) (bs.take 8, (List.range n).map (fun i => block8 bs (i + 1)))
  (x.1, x.2.flatten)

/-- Key wrap. -/
def keyWrap (key bs : List Byte) : List Byte := wrapFrom (aesKeys key) (List.replicate 8 0xA6) bs

/-- Key unwrap: none where the integrity check fails. -/
def keyUnwrap (key bs : List Byte) : Option (List Byte) :=
  let x := unwrapTo (aesKeys key) bs
  if 24 ≤ bs.length && bs.length % 8 = 0 && x.1 = List.replicate 8 0xA6 then some x.2 else none

/-- Key wrap with padding. -/
def keyWrapPad (key bs : List Byte) : List Byte :=
  let aiv := beBytes 4 0xA65959A6 ++ beBytes 4 bs.length
  let p := padTo 8 bs
  if p.length = 8 then aesEnc (aesKeys key) (aiv ++ p) else wrapFrom (aesKeys key) aiv p

/-- Key unwrap with padding: none where the integrity check fails. -/
def keyUnwrapPad (key bs : List Byte) : Option (List Byte) :=
  let x : List Byte × List Byte :=
    if bs.length = 16 then let b := aesDec (aesKeys key) bs; (b.take 8, b.drop 8) else unwrapTo (aesKeys key) bs
  let n := ofBe (x.1.drop 4)
  if 16 ≤ bs.length && bs.length % 8 = 0 && x.1.take 4 = beBytes 4 0xA65959A6 && n ≤ x.2.length && x.2.length < n + 8
      && x.2.drop n = zeros (x.2.length - n) then some (x.2.take n) else none

/-! ### ChaCha20-Poly1305 (RFC 8439) -/

/-- The tag over additional data and ciphertext. -/
def chachaTag (key nonce aad ct : List Byte) : List Byte :=
  poly1305 (chachaBlock key nonce 0) (padTo 16 aad ++ padTo 16 ct ++ leBytes 8 aad.length ++ leBytes 8 ct.length)

/-! ### By OP (R296) -/

/-- What an operation gives: its output, then its tag where it makes one. A tag is 16 bytes, of which a shorter one is the first part. -/
@[irreducible] def cipherRun (op : Nat) (key iv aad data : List Byte) : List Byte :=
  match op with
  | 1 => let ct := gcmXor (aesKeys key) iv data; ct ++ gcmTag (aesKeys key) iv aad ct
  | 2 => gcmXor (aesKeys key) iv data
  | 3 => xts false key iv data
  | 4 => xts true key iv data
  | 5 => cmac key data
  | 6 => keyWrap key data
  | 7 => (keyUnwrap key data).getD []
  | 8 => keyWrapPad key data
  | 9 => (keyUnwrapPad key data).getD []
  | 10 => let ct := chachaXor key iv data; ct ++ chachaTag key iv aad ct
  | 11 => chachaXor key iv data
  | 12 => beBytes 16 (ghash (gcmSubkey (aesKeys key)) (padTo 16 data))
  | 13 => aesEnc (aesKeys key) data
  | 14 => aesDec (aesKeys key) data
  | _ => []

/-- Whether the integrity that an operation checks holds: the tag of a decryption, which may be shortened, or an unwrap's own check. -/
@[irreducible] def cipherOk (op : Nat) (key iv aad data tag : List Byte) : Bool :=
  match op with
  | 2 => (gcmTag (aesKeys key) iv aad data).take tag.length = tag
  | 7 => (keyUnwrap key data).isSome
  | 9 => (keyUnwrapPad key data).isSome
  | 11 => chachaTag key iv aad data = tag
  | _ => true

end Sys2Proof.Machine
end

