-- ==== Sys2Proof/Machine/Digest.lean ====
section
/-! DEFINITION. SipHash-2-4, SHA-384 and HMAC-SHA-384: the hashes that the rules cite by name (R152, R160, R185, R195, R390, R393, R412). -/

namespace Sys2Proof.Machine

/-! ### Words of 64 bits -/

def w64 (x : Nat) : Nat := x % 2 ^ 64
def rotl64 (x n : Nat) : Nat := w64 (x * 2 ^ n) ||| x / 2 ^ (64 - n)
def rotr64 (x n : Nat) : Nat := rotl64 x (64 - n)

/-- Bytes in blocks of `n`, the last one as it is; `fuel` is at least the number of blocks. -/
def blocksOf (n : Nat) : Nat → List Byte → List (List Byte)
  | 0, _ => []
  | fuel + 1, bs => if bs.isEmpty then [] else bs.take n :: blocksOf n fuel (bs.drop n)

/-! ### SipHash-2-4 -/

/-- The four words of the state. -/
structure Sip where
  v0 : Nat
  v1 : Nat
  v2 : Nat
  v3 : Nat
  deriving DecidableEq, Repr

/-- One round. -/
def Sip.round (s : Sip) : Sip :=
  let a := w64 (s.v0 + s.v1)
  let b := rotl64 s.v1 13 ^^^ a
  let a := rotl64 a 32
  let c := w64 (s.v2 + s.v3)
  let d := rotl64 s.v3 16 ^^^ c
  let a := w64 (a + d)
  let d := rotl64 d 21 ^^^ a
  let c := w64 (c + b)
  let b := rotl64 b 17 ^^^ c
  { v0 := a, v1 := b, v2 := rotl64 c 32, v3 := d }

/-- One word of the message: two rounds. -/
def Sip.word (s : Sip) (m : Nat) : Sip :=
  let t := ({ s with v3 := s.v3 ^^^ m }).round.round
  { t with v0 := t.v0 ^^^ m }

/-- SipHash-2-4 of a message under a 128-bit key, its low half first. -/
@[irreducible] def sipHash24 (key : Nat) (msg : List Byte) : Nat :=
  let k0 := key % 2 ^ 64
  let k1 := key / 2 ^ 64 % 2 ^ 64
  let s : Sip := { v0 := k0 ^^^ 0x736f6d6570736575, v1 := k1 ^^^ 0x646f72616e646f6d
                   v2 := k0 ^^^ 0x6c7967656e657261, v3 := k1 ^^^ 0x7465646279746573 }
  let n := msg.length / 8
  let s := ((List.range n).map (fun i => ofLe ((msg.drop (8 * i)).take 8))).foldl Sip.word s
  let s := s.word (msg.length % 256 * 2 ^ 56 + ofLe (msg.drop (8 * n)))
  let s := ({ s with v2 := s.v2 ^^^ 0xff }).round.round.round.round
  s.v0 ^^^ s.v1 ^^^ s.v2 ^^^ s.v3

/-- The device's keyed hash of a list of fields under a seed (R111, R152, R160, R185); what bytes it takes for them is a free value. -/
def keyedHash (seed : Nat) (fields : List Nat) : Nat := sipHash24 seed (Config.hashInput fields)

/-! ### SHA-384 -/

/-- The constants of the rounds. -/
def shaK : List Nat :=
  [0x428a2f98d728ae22, 0x7137449123ef65cd, 0xb5c0fbcfec4d3b2f, 0xe9b5dba58189dbbc, 0x3956c25bf348b538]
  ++ [0x59f111f1b605d019, 0x923f82a4af194f9b, 0xab1c5ed5da6d8118, 0xd807aa98a3030242, 0x12835b0145706fbe]
  ++ [0x243185be4ee4b28c, 0x550c7dc3d5ffb4e2, 0x72be5d74f27b896f, 0x80deb1fe3b1696b1, 0x9bdc06a725c71235]
  ++ [0xc19bf174cf692694, 0xe49b69c19ef14ad2, 0xefbe4786384f25e3, 0x0fc19dc68b8cd5b5, 0x240ca1cc77ac9c65]
  ++ [0x2de92c6f592b0275, 0x4a7484aa6ea6e483, 0x5cb0a9dcbd41fbd4, 0x76f988da831153b5, 0x983e5152ee66dfab]
  ++ [0xa831c66d2db43210, 0xb00327c898fb213f, 0xbf597fc7beef0ee4, 0xc6e00bf33da88fc2, 0xd5a79147930aa725]
  ++ [0x06ca6351e003826f, 0x142929670a0e6e70, 0x27b70a8546d22ffc, 0x2e1b21385c26c926, 0x4d2c6dfc5ac42aed]
  ++ [0x53380d139d95b3df, 0x650a73548baf63de, 0x766a0abb3c77b2a8, 0x81c2c92e47edaee6, 0x92722c851482353b]
  ++ [0xa2bfe8a14cf10364, 0xa81a664bbc423001, 0xc24b8b70d0f89791, 0xc76c51a30654be30, 0xd192e819d6ef5218]
  ++ [0xd69906245565a910, 0xf40e35855771202a, 0x106aa07032bbd1b8, 0x19a4c116b8d2d0c8, 0x1e376c085141ab53]
  ++ [0x2748774cdf8eeb99, 0x34b0bcb5e19b48a8, 0x391c0cb3c5c95a63, 0x4ed8aa4ae3418acb, 0x5b9cca4f7763e373]
  ++ [0x682e6ff3d6b2b8a3, 0x748f82ee5defb2fc, 0x78a5636f43172f60, 0x84c87814a1f0ab72, 0x8cc702081a6439ec]
  ++ [0x90befffa23631e28, 0xa4506cebde82bde9, 0xbef9a3f7b2c67915, 0xc67178f2e372532b, 0xca273eceea26619c]
  ++ [0xd186b8c721c0c207, 0xeada7dd6cde0eb1e, 0xf57d4f7fee6ed178, 0x06f067aa72176fba, 0x0a637dc5a2c898a6]
  ++ [0x113f9804bef90dae, 0x1b710b35131c471b, 0x28db77f523047d84, 0x32caab7b40c72493, 0x3c9ebe0a15c9bebc]
  ++ [0x431d67c49c100d4c, 0x4cc5d4becb3e42b6, 0x597f299cfc657e2a, 0x5fcb6fab3ad6faec, 0x6c44198c4a475817]

/-- The initial hash value. -/
def shaInit : List Nat :=
  [0xcbbb9d5dc1059ed8, 0x629a292a367cd507, 0x9159015a3070dd17, 0x152fecd8f70e5939,
   0x67332667ffc00b31, 0x8eb44a8768581511, 0xdb0c2e0d64f98fa7, 0x47b5481dbefa4fa4]

/-- The message schedule of a block, last word first, extended by `n` words. -/
def shaSchedule : Nat → List Nat → List Nat
  | 0, l => l
  | n + 1, l =>
    let a := l.getD 1 0
    let b := l.getD 14 0
    let s1 := rotr64 a 19 ^^^ rotr64 a 61 ^^^ a / 2 ^ 6
    let s0 := rotr64 b 1 ^^^ rotr64 b 8 ^^^ b / 2 ^ 7
    shaSchedule n (w64 (s1 + l.getD 6 0 + s0 + l.getD 15 0) :: l)

/-- One round over the eight working words. -/
def shaRound (v : List Nat) (kw : Nat × Nat) : List Nat :=
  let g (i : Nat) : Nat := v.getD i 0
  let e := g 4
  let s1 := rotr64 e 14 ^^^ rotr64 e 18 ^^^ rotr64 e 41
  let ch := (e &&& g 5) ^^^ ((e ^^^ (2 ^ 64 - 1)) &&& g 6)
  let t1 := g 7 + s1 + ch + kw.1 + kw.2
  let a := g 0
  let s0 := rotr64 a 28 ^^^ rotr64 a 34 ^^^ rotr64 a 39
  let maj := (a &&& g 1) ^^^ (a &&& g 2) ^^^ (g 1 &&& g 2)
  [w64 (t1 + s0 + maj), a, g 1, g 2, w64 (g 3 + t1), e, g 5, g 6]

/-- One block of 128 bytes. -/
def shaBlock (h : List Nat) (b : List Byte) : List Nat :=
  let first := (List.range 16).map (fun i => ofBe ((b.drop (8 * i)).take 8))
  let w := (shaSchedule 64 first.reverse).reverse
  let v := (shaK.zip w).foldl shaRound h
  (h.zip v).map (fun e => w64 (e.1 + e.2))

/-- SHA-384 (FIPS 180-4). -/
@[irreducible] def sha384 (bs : List Byte) : BitVec 384 :=
  let pad := (239 - bs.length % 128) % 128
  let m := bs ++ [0x80] ++ List.replicate pad 0 ++ beBytes 16 (8 * bs.length)
  let h := (blocksOf 128 (m.length / 128) m).foldl shaBlock shaInit
  BitVec.ofNat 384 ((h.take 6).foldl (fun a x => a * 2 ^ 64 + x) 0)

/-- HMAC-SHA-384 (FIPS 198-1) under a key of at most 128 bytes. -/
def hmac384 (key bs : List Byte) : List Byte :=
  let k := key ++ List.replicate (128 - key.length) 0
  let inner := beBytes 48 (sha384 (k.map (· ^^^ 0x36) ++ bs)).toNat
  beBytes 48 (sha384 (k.map (· ^^^ 0x5c) ++ inner)).toNat

end Sys2Proof.Machine
end

