-- ==== Sys2Proof/Machine/Curve.lean ====
section
/-! DEFINITION. ECDSA on brainpoolP384r1: what verifies the signatures of images and tokens, and what signs a quote
(R195, R393, R412 to R414; FIPS 186-5, RFC 5639). -/

namespace Sys2Proof.Machine

/-! ### The curve -/

/-- The field's prime. -/
def ecP : Nat := 0x8CB91E82A3386D280F5D6F7E50E641DF152F7109ED5456B412B1DA197FB71123ACD3A729901D1A71874700133107EC53
/-- The coefficients. -/
def ecA : Nat := 0x7BC382C63D8C150C3C72080ACE05AFA0C2BEA28E4FB22787139165EFBA91F90F8AA5814A503AD4EB04A8C7DD22CE2826
def ecB : Nat := 0x04A8C7DD22CE28268B39B55416F0447C2FB77DE107DCD2A62E880EA53EEB62D57CB4390295DBC9943AB78696FA504C11
/-- The order of the base point. -/
def ecN : Nat := 0x8CB91E82A3386D280F5D6F7E50E641DF152F7109ED5456B31F166E6CAC0425A7CF3AB6AF6B7FC3103B883202E9046565
/-- A point in Jacobian coordinates: (X, Y, Z) stands for (X/Z², Y/Z³), and Z = 0 for the point at infinity. -/
structure EcPoint where
  x : Nat
  y : Nat
  z : Nat
  deriving DecidableEq, Repr

/-- The base point. -/
def ecG : EcPoint :=
  { x := 0x1D1C64F068CF45FFA2A63A81B7C13F6B8847A3E77EF14FE3DB7FCAFE0CBD10E8E826E03436D646AAEF87B2E247D4AF1E
    y := 0x8ABE1D7520F9C2A45CB1EB8E95CFD55262B70B29FEEC5864E19C054FF99129280E4646217791811142820341263C5315
    z := 1 }

/-- A power modulo `m`, for an exponent of at most 384 bits. -/
def powMod (b e m : Nat) : Nat :=
  (List.range 384).foldl (fun r i => let q := r * r % m; if bit e (383 - i) then q * b % m else q) 1

/-- The inverse modulo a prime. -/
def invMod (x m : Nat) : Nat := powMod (x % m) (m - 2) m

/-- The difference modulo `m`. -/
def subMod (a b m : Nat) : Nat := (a % m + (m - b % m)) % m

/-- A product of the field. -/
def ecTimes (a b : Nat) : Nat := a * b % ecP

/-- Twice a point. -/
def ecDouble (p : EcPoint) : EcPoint :=
  let yy := ecTimes p.y p.y
  let s := ecTimes (4 * p.x) yy
  let zz := ecTimes p.z p.z
  let m := (3 * p.x * p.x + ecA * ecTimes zz zz) % ecP
  let x := subMod (m * m) (2 * s) ecP
  { x, y := subMod (m * subMod s x ecP) (8 * ecTimes yy yy) ecP, z := ecTimes (2 * p.y) p.z }

/-- The sum of two points. -/
def ecAdd (p q : EcPoint) : EcPoint :=
  if p.z = 0 then q
  else if q.z = 0 then p
  else
    let pz := ecTimes p.z p.z
    let qz := ecTimes q.z q.z
    let u := ecTimes p.x qz
    let s := ecTimes p.y (ecTimes qz q.z)
    let h := subMod (q.x * pz) u ecP
    let r := subMod (q.y * ecTimes pz p.z) s ecP
    if h = 0 then (if r = 0 then ecDouble p else { x := 1, y := 1, z := 0 })
    else
      let hh := ecTimes h h
      let hhh := ecTimes hh h
      let v := ecTimes u hh
      let x := subMod (r * r) (hhh + 2 * v) ecP
      { x, y := subMod (r * subMod v x ecP) (s * hhh) ecP, z := ecTimes (ecTimes h p.z) q.z }

/-- A multiple of a point. -/
def ecMul (k : Nat) (p : EcPoint) : EcPoint :=
  (List.range 384).foldl (fun r i => let d := ecDouble r; if bit k (383 - i) then ecAdd d p else d) { x := 1, y := 1, z := 0 }

/-- The first coordinate of a point that is not at infinity. -/
def ecX (p : EcPoint) : Nat := let w := invMod p.z ecP; ecTimes p.x (ecTimes w w)

/-- The point is on the curve. -/
def ecOn (x y : Nat) : Bool := x < ecP && y < ecP && y * y % ecP = (x * x * x + ecA * x + ecB) % ecP

/-! ### Signatures -/

/-- A signature (r then s, 48 bytes each) of a digest verifies under a public key (x then y, 48 bytes each). -/
@[irreducible] def ecdsaVerify (key : List Byte) (digest : BitVec 384) (sig : List Byte) : Bool :=
  let x := ofBe (key.take 48)
  let y := ofBe ((key.drop 48).take 48)
  let r := ofBe (sig.take 48)
  let s := ofBe ((sig.drop 48).take 48)
  key.length = 96 && sig.length = 96 && ecOn x y && 0 < r && r < ecN && 0 < s && s < ecN &&
    let w := invMod s ecN
    let p := ecAdd (ecMul (digest.toNat * w % ecN) ecG) (ecMul (r * w % ecN) { x, y, z := 1 })
    p.z ≠ 0 && ecX p % ecN = r

/-- The signature (r then s) of a digest by a private key, under a per-message secret. -/
@[irreducible] def ecdsaSign (d k : Nat) (digest : BitVec 384) : List Byte :=
  let r := ecX (ecMul k ecG) % ecN
  beBytes 48 r ++ beBytes 48 (invMod k ecN * (digest.toNat + r * d) % ecN)

/-! ### The identity key (R412) -/

/-- The identity key's private number: `c` is 448 bits of NIST SP 800-108's counter mode over `ID_SECRET`. -/
def identityKey (secret : List Byte) : Nat :=
  let label : List Byte := "X144-IDENTITY".toList.map (fun c => BitVec.ofNat 8 c.toNat)
  let block (i : Nat) : List Byte := hmac384 secret (beBytes 4 i ++ label ++ [0] ++ beBytes 4 448)
  ofBe ((block 1 ++ block 2).take 56) % (ecN - 1) + 1

/-- The identity key's signature of a digest; the per-message secret is a free value (FIPS 186-5 fixes none). -/
def identitySign (digest : BitVec 384) : List Byte :=
  ecdsaSign (identityKey (beBytes 32 Config.idSecret.toNat)) (Config.signSecret digest % (ecN - 1) + 1) digest

end Sys2Proof.Machine
end

