-- ==== Sys2Proof/Machine/TypesCipher.lean ====
section
/-! DEFINITION. State records of check-value contexts, the cipher engine, the key store and security associations. The docstrings
follow the form that Types.lean states. -/

namespace Sys2Proof.Machine

/-- A key slot (R298). Its material is what the die obtains when it opens the slot. -/
structure KeySlot where
  /-- W4 R298 S: TYPE. -/
  type : Nat := 0
  /-- W1 R298 S: KGEN. -/
  kgen : Nat := 0
  /-- W8 R298 S: USAGE. -/
  usage : Nat := 0
  /-- W16 R298 S: TENANT. -/
  tenant : Nat := 0
  /-- W16 R298 S: OWNER. -/
  owner : Nat := 0
  /-- W64 R298 S: WRITE_CTR. -/
  writeCtr : Nat := 0
  /-- W64 R298 S: KCV. -/
  kcv : Nat := 0
  /-- W512 R298: key material. -/
  key : List Byte := []
  /-- W1 R301: being erased. -/
  erasing : Bool := false
  /-- W1 R298, R420: its tag fails. -/
  bad : Bool := false
  deriving DecidableEq, Repr

/-- A security association (R302). -/
structure Sa where
  /-- W2 R361: KIND: 0 ESP out, 1 ESP in, 2 MACsec transmit, 3 MACsec receive. -/
  kind : Nat := 0
  /-- W8 R361: SUITE. -/
  suite : Nat := 0
  /-- W16 R302: TENANT. -/
  tenant : Nat := 0
  /-- W18 R302: key slot. -/
  slot : Nat := 0
  /-- W16 R302 M: FID whose grant holds it, 0 for the Owner. -/
  owner : Nat := 0
  /-- W32 R302: WARN_REMAIN. -/
  warn : Nat := 0
  /-- W32 R302: SPI. -/
  spi : Nat := 0
  /-- W96 R302: salt: 32 bits of an ESP SA, 96 of an XPN suite. -/
  salt : Nat := 0
  /-- W32 R55: SSCI of an XPN suite. -/
  ssci : Nat := 0
  /-- W256 R56: the MACsec unit's key register; empty when zeroised. -/
  keyReg : List Byte := []
  /-- W30 R302: window. -/
  window : Nat := 0
  /-- W1 R302: ESN, or XPN. -/
  long : Bool := false
  /-- W8 R302: home pipeline. -/
  home : Nat := 0
  /-- W8 R361: OCTET. -/
  octet : Nat := 0
  /-- W8 R361: SC. -/
  sc : Nat := 0
  /-- W2 R361: AN. -/
  an : Nat := 0
  /-- W8 R361: OFFSET. -/
  offset : Nat := 0
  /-- W8 R361: VALIDATE. -/
  validate : Nat := 0
  /-- W64 R361: SCI. -/
  sci : Nat := 0
  /-- W3 R302: state. -/
  state : Nat := 0
  /-- W64 R304: next number to use. -/
  next : Nat := 1
  /-- W64 R304: highest number accepted. -/
  highest : Nat := 0
  /-- W1 R302: numbers accepted within the window, rising. -/
  seen : List (Nat × Unit) := []
  /-- W1 R304: the exhaustion event has been raised. -/
  exhaustedEvent : Bool := false
  deriving DecidableEq, Repr

/-- Who a cipher request answers (R294). -/
inductive CipherFor
  /-- The context with this serial on a pipeline. -/
  | pipeline (pipe ctx : Nat)
  /-- The data of the NVMe command with this fetch sequence number. -/
  | mover (seq : Nat)
  /-- A Skink thread's channel. -/
  | thread (tid channel : Nat)
  /-- Work of the control class, by what it is for: the slot of a key-cache fill; 262,144 the walker's; 262,145 and the FID for the command of a
  mailbox. -/
  | control (k : Nat)
  deriving DecidableEq, Repr

/-- A cipher request in the engine (R294 to R297). -/
structure CipherReq where
  /-- W64 M: serial. -/
  id : Nat := 0
  /-- W2 R294: class. -/
  cls : Nat := 0
  /-- W1 R292: served by an iterated unit. -/
  iterated : Bool := false
  /-- W6 R292: the physical unit that holds it, once started. -/
  unit : Option Nat := none
  /-- W16 R294: TENANT. -/
  tenant : Nat := 0
  /-- W16 R294: FID. -/
  fid : Nat := 0
  /-- W18 R296: SLOT. -/
  slot : Nat := 0
  /-- W18 R303: SA, where it names one. -/
  sa : Option Nat := none
  /-- W4 R296: operation: 1 encrypt, 2 decrypt for a pipeline and the data mover; OP of R296 for others. -/
  op : Nat := 0
  /-- W7 R185: CUR of a pipeline request. -/
  cur : Nat := 0
  /-- W64 R303: sequence number it was given. -/
  seq : Nat := 0
  /-- W32 R296: payload bytes. -/
  len : Nat := 0
  /-- W512 R296: the request, in the layout of R296, of a Skink or control request. -/
  body : Nat := 0
  /-- W4 R297: the status already decided, if any. -/
  status : Option Nat := none
  /-- W4 R298: TYPE of the key latched when it started. -/
  keyType : Nat := 0
  /-- W512 R301: the key latched when it started. -/
  key : List Byte := []
  /-- R294: who is answered. -/
  dst : CipherFor := .thread 0 0
  deriving DecidableEq, Repr

/-- The cipher engine, key store and check values. -/
structure CipherState where
  /-- R298 S: key slots by number. -/
  slots : List (Nat × KeySlot) := []
  /-- W256 R298: the KEK, as the draw that made it; none when zeroised. -/
  kek : Option Nat := none
  /-- W256 R309 S: the old KEK during a rotation. -/
  oldKek : Option Nat := none
  /-- W1 R309 S: KGEN of the KEK. -/
  kgen : Nat := 0
  /-- W64 R298: device-wide WRITE_CTR. -/
  writeCtr : Nat := 0
  /-- W1 R309 S: the walker is running. -/
  walking : Bool := false
  /-- W32 R309 S: slots resealed in the rotation. -/
  resealed : Nat := 0
  /-- W18 R299 S: slots in the key cache, most recently used first. -/
  cache : List Nat := []
  /-- W5 R306 S: latched alarm sources. -/
  sources : Nat := 0
  /-- W64 R307 M: SEQ of the present alarm's fault record. -/
  alarmRec : Nat := 0
  /-- W64 R308 S: time of each source's alarm. -/
  times : List (Nat × Nat) := []
  /-- W1 R57 M: octets whose ports have MACsec enabled, from the first MACsec SA created on them. -/
  macsecOn : List (Nat × Unit) := []
  /-- R302 S: SAs by number. -/
  sas : List (Nat × Sa) := []
  /-- W64 R302, R304: cumulative drops of an SA: SA × 16 + cause. -/
  saDrops : List (Nat × Nat) := []
  /-- R294 S: requests waiting or started, oldest first. -/
  reqs : List CipherReq := []
  /-- W64 M: serial of the next request. -/
  nextReq : Nat := 0
  /-- W32 R294: deficits of the classes, in blocks. -/
  deficit : List (Nat × Nat) := []
  /-- W256 R286 S: check-value contexts: 0–262,143 pipeline, 262,144 + n data mover n. -/
  ckv : List (Nat × Nat) := []
  /-- W318 R287 M: flow key each pipeline context is bound to. -/
  ckvFlow : List (Nat × Nat) := []
  /-- W64 R286 M: the common-header bytes of the PDU in progress, which the context's stages come from. -/
  ckvPart : List (Nat × List Byte) := []
  /-- W64 R287: data-mover contexts in use, with the fetch sequence number of the command that holds each. -/
  mover : List (Nat × Nat) := []
  deriving DecidableEq, Repr

end Sys2Proof.Machine
end

