-- ==== Sys2Proof/Machine/Types.lean ====
section
/-! DEFINITION. State records of the ports, the host functions, their rings and mailboxes, and of power, faults and wear.
Every field's docstring opens with its width (W), the rule that names it, and S where the spec states the reset value; M marks a
field of the model's own. A field with neither resets to the value of log entry 1. Default values are the reset values. -/

namespace Sys2Proof.Machine

/-! ### Pins and phase -/

/-- What the device as a whole is doing (R83, R403, R406, R408, R432). -/
inductive Phase
  /-- `SYS_RST_N` held low, or the device waiting for its rails. -/
  | inReset
  /-- Booted and in service. -/
  | running
  /-- Recovery mode (R406). -/
  | recovery
  /-- The safe state (R432). -/
  | safe
  /-- Asleep (R408). -/
  | basking
  deriving DecidableEq, Repr

/-- The 1.8 V pins the device drives or senses (R472), and what the board supplies. -/
structure Pins where
  /-- W1 R465 M: VDD_RET within tolerance. -/
  vddRet : Bool := true
  /-- W1 R467: `PWR_OK` as last seen. -/
  pwrOk : Bool := true
  /-- W1 R465: `PWR_OK` has risen since VDD_RET came up. -/
  pwrSeen : Bool := true
  /-- W1 R403: `SYS_RST_N` (low is reset). -/
  sysRstN : Bool := false
  /-- W1 R474 S: `THERMTRIP_N` latch on VDD_RET. -/
  thermtrip : Bool := false
  /-- W1 R433 S: `FAULT_N` asserted. -/
  faultN : Bool := false
  /-- W1 R468 S: `BASK_REQ_N` asserted. -/
  baskReq : Bool := false
  /-- W1 R469: strap `CHN_HEAD` as last sampled. -/
  chnHead : Bool := true
  /-- W1 R469: strap `BOOT_RECOVERY_N` as last sampled. -/
  bootRecoveryN : Bool := true
  /-- W5 R469: strap `OWNER_PORT_DEFAULT` as last sampled; an unconnected strap reads 31. -/
  ownerStrap : Nat := 31
  /-- W32 R470: reference clocks stopped, bit q for `REF156[q]` and bit 4+k for `PCIE_REFCLK[k]`. -/
  clkStopped : Nat := 0
  /-- W1 R470: `PPS_OUT` pulses given. -/
  ppsOut : Nat := 0
  /-- W32 R473: the junction sensors, sensor to °C offset by 273; an unlisted sensor reads 298. -/
  tj : List (Nat × Nat) := []
  /-- W1 R306: `ALARM_N` is low. -/
  alarmLow : Bool := false
  deriving DecidableEq, Repr

/-! ### Power, governor and arbiter (R20 to R37) -/

/-- The governor's and the arbiter's state. Voltages are in units of 0.1 mV, budgets and floors in credits of 0.25 A. -/
structure Power where
  /-- W16 R30 S: VDD_CORE budget; 1,350 A. -/
  core : Nat := 5400
  /-- W16 R30 S: VDD_SDS_A budget; 240 A. -/
  sds : Nat := 960
  /-- W16 R35 S: VDD_CORE hard limit; the rail maximum. -/
  coreHard : Nat := 5400
  /-- W16 R35 S: VDD_SDS_A hard limit; the rail maximum. -/
  sdsHard : Nat := 960
  /-- W16 R31 S: package power limit in W. -/
  packageW : Nat := 1100
  /-- W16 R464 S: VDD_CORE setpoint; the regulator starts at 0.75 V. -/
  vdd : Nat := 7500
  /-- W8 R22 S: MARGIN in percent. -/
  margin : Nat := 8
  /-- W16 R22 S: VMIN. -/
  vmin : Nat := 6000
  /-- W16 R22 S: VMAX. -/
  vmax : Nat := 8500
  /-- W16 R22 S: PERIOD in µs. -/
  period : Nat := 50
  /-- W8 R22 S: STEP_UP. -/
  stepUp : Nat := 50
  /-- W8 R22 S: STEP_DOWN. -/
  stepDown : Nat := 25
  /-- W16 R22 S: HOLD_DOWN in periods. -/
  holdDown : Nat := 20
  /-- W16 R23: surplus_count of the loop. -/
  surplus : Nat := 0
  /-- W1 R24: the "governor at ceiling" episode is open. -/
  atCeiling : Bool := false
  /-- W16 R26: a voltage written to the regulator and not yet read back. -/
  avsPending : Option Nat := none
  /-- W2 R26: consecutive failed attempts. -/
  avsFails : Nat := 0
  /-- W1 R26: AVS fault raised; elastic consumers get floors only. -/
  avsFault : Bool := false
  /-- W64 R428: SEQ of the AVS fault's record. -/
  avsSeq : Nat := 0
  /-- W1 R26: the Owner has cleared the fault and the next write must succeed. -/
  avsRetry : Bool := false
  /-- W16 R32: grants of the present epoch, floor and elastic, by consumer. -/
  grants : List (Nat × Nat) := []
  /-- W16 R32, R34: elastic credits of the present epoch, by consumer. -/
  elastic : List (Nat × Nat) := []
  /-- W1 R35: comparator hold on VDD_CORE. -/
  coreHold : Bool := false
  /-- W1 R35: comparator hold on VDD_SDS_A. -/
  sdsHold : Bool := false
  /-- W1 R35: the present epoch began under the VDD_CORE hold. -/
  coreHoldFull : Bool := false
  /-- W1 R35: the present epoch began under the VDD_SDS_A hold. -/
  sdsHoldFull : Bool := false
  /-- W16 R361: measured VDD_CORE current of the last epoch, in credits. -/
  coreNow : Nat := 0
  /-- W16 R361: measured VDD_SDS_A current of the last epoch, in credits. -/
  sdsNow : Nat := 0
  /-- W16 R36, R455: credits borrowed, by lender address. -/
  borrowed : List (Nat × Nat) := []
  /-- W16 R36, R455: credits lent and not returned, by borrower address. -/
  lent : List (Nat × Nat) := []
  /-- W16 R21: pipeline sensors by physical number, in M tokens/s; an unlisted one reads 5,600 (log entry 87). -/
  pipeRate : List (Nat × Nat) := []
  /-- W16 R21: cluster sensors, in M tokens/s; an unlisted one reads 2,000 (log entry 87). -/
  clusterRate : List (Nat × Nat) := []
  deriving DecidableEq, Repr

/-! ### Fault domains and the log (R421 to R433) -/

/-- The recovery machine of a domain (R423); values 0 to 6 in this order. -/
inductive DomState
  | running | contain | fence | clear | probation | fenced | regrowing
  deriving DecidableEq, Repr

/-- A fault record (R427). -/
structure FaultRec where
  /-- W64 R427: SEQ. -/
  seq : Nat := 0
  /-- W64 R427: TIME. -/
  time : Nat := 0
  /-- W8 R427: DKIND. -/
  dkind : Nat := 0
  /-- W16 R427: UNIT. -/
  unit : Nat := 0
  /-- W8 R427: SOURCE. -/
  source : Nat := 0
  /-- W8 R427: ACTION. -/
  action : Nat := 0
  /-- W8 R427: STATE. -/
  state : Nat := 0
  /-- W64 R427: DETAIL. -/
  detail : Nat := 0
  deriving DecidableEq, Repr

/-- One domain's machine. -/
structure DomRec where
  /-- W3 R423 S: STATE. -/
  state : DomState := .running
  /-- W64 R426: SEQ of the record that fenced the domain. -/
  fencedBy : Nat := 0
  /-- W64 R423: device time of resume, for PROBATION. -/
  since : Nat := 0
  deriving DecidableEq, Repr

/-- The fault collector (R427 to R433). -/
structure FaultState where
  /-- W3 R423 S: the domains that are not RUNNING with nothing remembered. -/
  doms : List (Dom × DomRec) := []
  /-- W256 R428 S: pending records, oldest first. -/
  log : List FaultRec := []
  /-- W64 R427 S: the next SEQ. -/
  nextSeq : Nat := 0
  /-- W64 R29: times of key-store stall or codeword events within the last 10 ms. -/
  keyStalls : List Nat := []
  deriving DecidableEq, Repr

/-! ### Regrowth and wear (R434 to R440) -/

/-- A regrowable unit: KIND of R434 and physical index. -/
structure WearUnit where
  /-- W3 R439: STATE: 0 active, 1 free spare, 2 worn, 3 retired, 4 failed. -/
  state : Nat := 0
  /-- W16 R439: LOGICAL; 0xFFFF for a spare or retired unit. -/
  logical : Nat := 0xFFFF
  /-- W32 R439: DECLINE_PPM. -/
  declinePpm : Nat := 0
  /-- W32 R439: CORR_24H. -/
  corr24 : Nat := 0
  /-- W16 R439: STALL_24H. -/
  stall24 : Nat := 0
  /-- W64 R439: CORR_TOTAL. -/
  corrTotal : Nat := 0
  deriving DecidableEq, Repr

/-- Regrowth and wear state. A unit's key is KIND × 65,536 + physical index. -/
structure Wear where
  /-- W192 R439: unit records that differ from a new device's. -/
  units : List (Nat × WearUnit) := []
  /-- W32 R437: the Regrowth in progress of each KIND: logical unit × 65,536 + spare. -/
  active : List (Nat × Nat) := []
  /-- W64 R440: EQUIV_AGE_H in millionths of an hour. -/
  ageMicro : Nat := 0
  /-- W16 R435: hours of operation counted, for the 100-hour baseline. -/
  hours : Nat := 0
  deriving DecidableEq, Repr

/-! ### Octets, lanes and Ethernet ports (R46 to R63) -/

/-- A lane (R59, R60). -/
structure Lane where
  /-- W1 R60: failed, as the store records it. -/
  failed : Bool := false
  /-- W2 R60: consecutive training attempts it failed while the others trained. -/
  trainFails : Nat := 0
  /-- W64 R60: pre-FEC error rate of the last 10 s window, in units of 1e-12. -/
  ber : Nat := 0
  /-- W3 R59: LANE_DIAG function running: 0 none, 2 PRBS, 4 near loopback, 5 far loopback. -/
  diag : Nat := 0
  /-- W8 R59: PRBS pattern. -/
  pattern : Nat := 0
  deriving DecidableEq, Repr

/-- An Ethernet port (R48 to R53). -/
structure EthPort where
  /-- W8 R48: the octet. -/
  octet : Nat := 0
  /-- W3 R48: first lane position configured. -/
  first : Nat := 0
  /-- W4 R48: lanes configured. -/
  width : Nat := 1
  /-- W3 R61: first lane position in force. -/
  curFirst : Nat := 0
  /-- W4 R61: lanes in force. -/
  curWidth : Nat := 1
  /-- W2 R48: RATE code: 25, 50, 100, 200 Gb/s. -/
  rate : Nat := 0
  /-- W2 R49: FEC code. -/
  fec : Nat := 0
  /-- W1 R50: auto-negotiation. -/
  an : Bool := false
  /-- W2 R52: flow control: 0 none, 1 802.3x, 2 PFC. -/
  fc : Nat := 0
  /-- W8 R52: PFC priorities. -/
  pfcMask : Nat := 0
  /-- W14 R51 S: MTU. -/
  mtu : Nat := 1518
  /-- W10 R53 S: pause-storm limit in ms. -/
  stormMs : Nat := 100
  /-- W3 R361: default priority. -/
  defPrio : Nat := 0
  /-- W1 R361: administratively up. -/
  admin : Bool := false
  /-- W3 R50: PORT_STATE: 0 DOWN, 1 TRAINING, 2 UP, 3 REFORMING, 4 FAILED. -/
  state : Nat := 0
  /-- W16 R52 S: quanta of the priorities that received XOFF and not yet resumed. -/
  paused : List (Nat × Nat) := []
  /-- W8 R53 S: priorities in a pause storm. -/
  storm : Nat := 0
  /-- W8 R52: priorities for which XOFF has been sent and not XON. -/
  xoffSent : Nat := 0
  deriving DecidableEq, Repr

/-! ### Host ports and functions (R64 to R93) -/

/-- A host port's link and what the store holds for it (R65). -/
structure HostPort where
  /-- W1 R65: enabled. -/
  enabled : Bool := true
  /-- W8 R65: highest rate to train, in GT/s. -/
  maxGt : Nat := 128
  /-- W5 R65: highest width. -/
  maxWidth : Nat := 16
  /-- W1 R65: SRIS. -/
  sris : Bool := false
  /-- W16 R65 S: subsystem vendor. -/
  subVendor : Nat := 0x22F4
  /-- W16 R65 S: subsystem ID where it is not the function's device ID. -/
  subId : Option Nat := none
  /-- W6 R65: BAR4 size of PF0 as log2 of bytes, 0 when absent. -/
  bar4Pf0 : Nat := 0
  /-- W6 R65: BAR4 size of PF1. -/
  bar4Pf1 : Nat := 0
  /-- W6 R65: BAR4 size of the network VFs. -/
  bar4Vf : Nat := 0
  /-- W1 R85 S: link up (DL_Up). -/
  linkUp : Bool := false
  /-- W1 R85: `HP_PERST_N` held low. -/
  perst : Bool := false
  /-- W1 R88: functions answer configuration requests. -/
  ready : Bool := false
  /-- W1 R92: in L1. -/
  l1 : Bool := false
  /-- W5 R64: negotiated width. -/
  width : Nat := 0
  /-- W8 R64: negotiated rate in GT/s. -/
  gt : Nat := 0
  /-- W1 R64: flit mode. -/
  flit : Bool := false
  /-- W8 R68: captured bus number. -/
  bus : Nat := 0
  /-- W1 R361: disabled by the safe state or by DEV_RESET in progress. -/
  resetting : Bool := false
  deriving DecidableEq, Repr

/-- Grants of a function (R369), in `FN_CREATE` order, then first indices. -/
structure Grants where
  /-- W32 R369: RINGS. -/
  rings : Nat := 0
  /-- W32 R369: NVME_QP. -/
  nvmeQp : Nat := 0
  /-- W32 R369: CMDS. -/
  cmds : Nat := 0
  /-- W32 R369: L2. -/
  l2 : Nat := 0
  /-- W32 R369: FLOW. -/
  flow : Nat := 0
  /-- W32 R369: CELLS. -/
  cells : Nat := 0
  /-- W32 R369: POLICERS. -/
  policers : Nat := 0
  /-- W32 R369: NODES. -/
  nodes : Nat := 0
  /-- W32 R369: KEY_SLOTS. -/
  keySlots : Nat := 0
  /-- W32 R369: CKV_CTX. -/
  ckvCtx : Nat := 0
  /-- W32 R369: SA. -/
  sa : Nat := 0
  /-- W32 R361: first POLICER index. -/
  polFirst : Nat := 0
  /-- W32 R361: first NODE index. -/
  nodeFirst : Nat := 0
  /-- W32 R361: first KEY_SLOT index. -/
  keyFirst : Nat := 0
  /-- W32 R361: first CKV_CTX index. -/
  ckvFirst : Nat := 0
  /-- W32 R361: first SA index. -/
  saFirst : Nat := 0
  deriving DecidableEq, Repr

/-- A packet a TX ring has sent and not completed (R108, R110). -/
structure TxPkt where
  /-- W64 R108 M: serial of the packet in the device. -/
  serial : Nat := 0
  /-- W32 R108: index of the last descriptor. -/
  last : Nat := 0
  /-- W5 R108: descriptors covered. -/
  ndesc : Nat := 1
  /-- W32 R108: COOKIE. -/
  cookie : Nat := 0
  /-- W18 R108: LEN. -/
  len : Nat := 0
  /-- W16 R108: SEGS. -/
  segs : Nat := 1
  /-- W1 R103: TS_REQ. -/
  tsReq : Bool := false
  /-- W32 R110: copies and segments not yet committed or dropped. -/
  open_ : Nat := 0
  /-- W32 R110: copies committed. -/
  committed : Nat := 0
  /-- W32 R110: copies dropped. -/
  dropped : Nat := 0
  /-- W8 R108: DROP_REASON, the first reason met. -/
  reason : Nat := 0
  /-- W64 R108: device time of the first commit. -/
  ts : Option Nat := none
  /-- W4 R108: CLASS. -/
  cls : Nat := 0
  /-- W2 R108: COLOUR. -/
  colour : Nat := 0
  /-- W8 R109: a status fixed before any copy exists (FORMAT, ABORTED). -/
  fixed : Option Nat := none
  deriving DecidableEq, Repr

/-- A ring register block (R100) and the ring behind it. -/
structure Ring where
  /-- W64 R100 S: BASE. -/
  base : Nat := 0
  /-- W5 R100 S: LOG2. -/
  log2 : Nat := 6
  /-- W2 R100 S: TYPE. -/
  type : Nat := 0
  /-- W64 R100 S: index word address. -/
  idxAddr : Nat := 0
  /-- W32 R100 S: RING_CI: fetch index, or the producer index written. -/
  ci : Nat := 0
  /-- W1 R100 S: ENABLE. -/
  enable : Bool := false
  /-- W14 R100 S: CPL_RING. -/
  cplRing : Nat := 0
  /-- W1 R100 S: SPREAD. -/
  spread : Bool := false
  /-- W1 R100 S: VLAN_STRIP. -/
  vlanStrip : Bool := false
  /-- W2 R100 S: STATE: 0 IDLE, 1 ACTIVE, 2 DRAINING, 3 FENCED. -/
  state : Nat := 0
  /-- W16 R100 S: CPL_MOD.COUNT. -/
  modCount : Nat := 1
  /-- W16 R100 S: CPL_MOD.TIMER in µs. -/
  modTimer : Nat := 0
  /-- W11 R100 S: CPL_VEC.VECTOR. -/
  vector : Nat := 0
  /-- W1 R100 S: CPL_VEC.POLL. -/
  poll : Bool := false
  /-- W32 R100 S: CPL_CI. -/
  cplCi : Nat := 0
  /-- W8 R100 S: RING_ERR. -/
  err : Nat := 0
  /-- W32 R97 S: last-read index p. -/
  lastRead : Nat := 0
  /-- W32 R97 S: done index d. -/
  done : Nat := 0
  /-- W1 R98: an index-word read is outstanding. -/
  idxReading : Bool := false
  /-- W1 R98: a further read is owed after it. -/
  idxAgain : Bool := false
  /-- W17 R112: entries written and not announced. -/
  unann : Nat := 0
  /-- W64 R112: device time of the index write of the first unannounced entry. -/
  unannAt : Nat := 0
  /-- W64 R112: device time at which the moderation timer expires. -/
  timerAt : Option Nat := none
  /-- W1 R114 M: the completions that a shutdown owes beyond the packets sent have joined `tx`. -/
  tail : Bool := false
  /-- W256 R104: descriptors fetched of a packet whose EOP has not been read, oldest first. -/
  partialDescs : List Nat := []
  /-- W128 R106: receive-buffer descriptors read, from the fetch index on. -/
  bufs : List Nat := []
  /-- W32 R107 M: indices of short buffers that completed FORMAT ahead of the fetch index. -/
  short : List Nat := []
  /-- R110: packets sent and not completed, in descriptor order. -/
  tx : List TxPkt := []
  deriving DecidableEq, Repr

/-- A request as the mailbox engine took it (R348). -/
structure Req where
  /-- W512 R348: the request slot. -/
  slot : BitVec 512 := 0
  deriving DecidableEq, Repr

/-- A Pad-scoped command, checked and ready to be carried out (R132, R220, R223, R224). -/
inductive PadOp
  /-- `PAD_COPY`. -/
  | copy
  /-- `PAD_DISCARD`. -/
  | discard
  /-- A parse record. -/
  | parse (port v : Nat)
  /-- A default action. -/
  | default_ (port v : Nat)
  /-- A rule (kind 0) or binding (kind 1), on a pipeline mask. -/
  | write (kind pipes slot v : Nat)
  /-- A rule or binding cleared. -/
  | clear (kind pipes slot : Nat)
  /-- A microcode image. -/
  | ucode (u : UcodeReq)
  /-- A policer record. -/
  | policer (i v : Nat)
  /-- The structure fields of a node: PARENT to OVERHEAD, RESET_TO aside. -/
  | node (level i v : Nat)
  /-- The rate fields of a node: RESET_TO, then CIR to PBS. -/
  | rates (level i resetTo v : Nat)
  /-- A queue base: destination, base × 32 + class count. -/
  | qbase (dest v : Nat)
  /-- A mirror session. -/
  | mirror (i trunc sample : Nat) (queue : Option Nat)
  /-- A group and its members. -/
  | group (g record : Nat) (members : List Nat)
  /-- A LIVE `RULE_WRITE`. -/
  | liveWrite (pipes slot v : Nat)
  /-- A LIVE `RULE_CLEAR`. -/
  | liveClear (pipes slot : Nat)
  /-- `PAD_LEAP`, with its FORCE flag. -/
  | leap (mode expect time : Nat) (force : Bool)
  deriving DecidableEq, Repr

/-- The bounds that a waiting command of a mailbox ends on (R351). -/
inductive Wait
  /-- `WINDOW_RETIRE` of a window entry (R79). -/
  | window (port index : Nat)
  /-- `MIG_FREEZE` (R384). -/
  | freeze (fid : Nat)
  /-- `KEY_ERASE` without FORCE (R301). -/
  | keyErase (slot : Nat)
  /-- `FW_ACTIVATE` FULL draining (R400). -/
  | fwDrain (slot : Nat) (trial : Bool)
  /-- `BASK_ENTER` draining (R408). -/
  | bask
  /-- `CHAIN_SEND` waiting for its last part (R457). -/
  | chainSend (dest : Nat)
  /-- A chain-wide `PAD_LEAP` waiting for its arm frame (R227). -/
  | chainLeap
  /-- A Pad-scoped command, the `n`th to wait, held by vacated-Pad packets or by those taken before it (R132, R223). -/
  | padWrite (n : Nat) (op : PadOp)
  /-- `VOL_DETACH` waiting for in-flight commands (R275). -/
  | volDetach (handle fid : Nat)
  /-- The command in the Eft's hands when no rule gives it a wait of its own. -/
  | running
  deriving DecidableEq, Repr

/-- An event subscription (R362). -/
structure EventRing where
  /-- W32 R362: MASK. -/
  mask : Nat := 0
  /-- W5 R362: LOG2. -/
  log2 : Nat := 6
  /-- W16 R362: VECTOR. -/
  vector : Nat := 0
  /-- W64 R362: ring address. -/
  ringAddr : Nat := 0
  /-- W64 R362: index block address. -/
  indexAddr : Nat := 0
  /-- W64 R362: producer index. -/
  pi : Nat := 0
  /-- W64 R362: consumer index as last read. -/
  ci : Nat := 0
  deriving DecidableEq, Repr

/-- A mailbox (R345, R346). -/
structure Mailbox where
  /-- W64 R345 S: MBX_REQ_BASE. -/
  reqBase : Nat := 0
  /-- W64 R345 S: MBX_RSP_BASE. -/
  rspBase : Nat := 0
  /-- W4 R345 S: LOG2. -/
  log2 : Nat := 8
  /-- W64 R345 S: MBX_RSP_IDX_ADDR. -/
  idxAddr : Nat := 0
  /-- W1 R345 S: ENABLE. -/
  enable : Bool := false
  /-- W1 R345 S: POLL. -/
  poll : Bool := false
  /-- W11 R345 S: VECTOR. -/
  vector : Nat := 0
  /-- W2 R345 S: STATE. -/
  state : Nat := 0
  /-- W5 R345 S: the W1C bits 12:8 of MBX_STATUS, bit 0 for IDX_RANGE. -/
  err : Nat := 0
  /-- W32 R346: last-read request index p. -/
  lastRead : Nat := 0
  /-- W32 R346: count of responses written, the done index d. -/
  done : Nat := 0
  /-- W32 R346: requests read, as a free-running count. -/
  fetched : Nat := 0
  /-- W1 R98: a read of the request index word is outstanding. -/
  idxReading : Bool := false
  /-- W1 R98: a further read is owed after it. -/
  idxAgain : Bool := false
  /-- R351: requests read and not started, in request order. -/
  queue : List Req := []
  /-- R351: the command started and not answered, with what it waits for. -/
  cur : Option (Req × Wait) := none
  /-- R362: the event subscription. -/
  events : Option EventRing := none
  /-- W64 R362: SEQ of the next event record; kept across subscriptions. -/
  eventSeq : Nat := 0
  deriving DecidableEq, Repr

/-- Dirty logging of a VF (R383). -/
structure DirtyLog where
  /-- W32 R383: LEN. -/
  len : Nat := 0
  /-- W64 R383: BITMAP. -/
  bitmap : Nat := 0
  /-- W64 R383: pages logged in this round, rising. -/
  pages : List (Nat × Unit) := []
  /-- W64 R383: pages whose bit is not yet written. -/
  due : List Nat := []
  /-- W16 R383 M: the function whose mailbox asked, in whose memory the bitmap stands. -/
  by_ : Nat := 0
  /-- W64 R383: writes beyond the bitmap's span. -/
  beyond : Nat := 0
  deriving DecidableEq, Repr

/-- A function of a host port. -/
structure Fn where
  /-- W2 R67: the PF it is, or is under. -/
  pf : Nat := 0
  /-- W11 R69: VF number, 0 for a PF. -/
  vf : Nat := 0
  /-- W16 R74: tenant bound; a PF carries its port's tenant. -/
  tenant : Nat := 0
  /-- W1 R74 S: BOUND. -/
  bound : Bool := false
  /-- W1 R74 S: Bus Master Enable. -/
  bme : Bool := false
  /-- W1 R89 S: Memory Space Enable. -/
  mse : Bool := false
  /-- W1 R68 S: VF Enable of PF1 and PF2. -/
  vfEnable : Bool := false
  /-- W16 R68 S: NumVFs. -/
  numVfs : Nat := 0
  /-- W1 R88: answers configuration requests (VFs and functions after an FLR). -/
  ready : Bool := false
  /-- W1 R86: in FLR. -/
  inFlr : Bool := false
  /-- W1 R91 S: in D3hot. -/
  d3 : Bool := false
  /-- W1 R91 S: PME_Status. -/
  pmeStatus : Bool := false
  /-- W1 R93 S: PME_En. -/
  pmeEn : Bool := false
  /-- W1 R93 S: MSI-X enabled. -/
  msixEn : Bool := false
  /-- W1 R93 S: MSI-X function mask. -/
  msixMask : Bool := false
  /-- W1 R93 S: vectors unmasked (PCI Express: a vector is masked at reset). -/
  unmasked : List (Nat × Unit) := []
  /-- W1 R93 S: vectors with their pending bit set. -/
  vecPending : List (Nat × Unit) := []
  /-- W32 R72: MSI-X table words (address, data), by dword offset in the table. -/
  msixTbl : List (Nat × Nat) := []
  /-- W4 R82 S: Device Control 2 completion timeout value. -/
  cto : Nat := 0
  /-- W1 R82 S: completion timeout disabled. -/
  ctoOff : Bool := false
  /-- W3 R64: Max_Payload_Size: 128 bytes × 2 to this power. -/
  mps : Nat := 0
  /-- W3 R64: Max_Read_Request_Size: 128 bytes × 2 to this power (log entry 90). -/
  mrrs : Nat := 2
  /-- W1 R64: 10-bit tags enabled. -/
  tag10 : Bool := false
  /-- W32 R67: base address registers as written, by dword. -/
  bars : List (Nat × Nat) := []
  /-- W32 R67: VF base address registers as written, by dword. -/
  vfBars : List (Nat × Nat) := []
  /-- W2 R92: ASPM control. -/
  aspm : Nat := 0
  /-- W32 R71: AER uncorrectable error mask. -/
  aerMask : Nat := 0
  /-- W32 R71: AER uncorrectable error severity (log entry 90). -/
  aerSev : Nat := 0x00462030
  /-- W1 R74 S: DRV_READY. -/
  drvReady : Bool := false
  /-- W1 R74 S: FROZEN. -/
  frozen : Bool := false
  /-- W1 R382: saved. -/
  saved : Bool := false
  /-- R369: grants. -/
  grants : Grants := {}
  /-- W128 R111: spreading seed. -/
  seed : Nat := 0
  /-- R100: ring register blocks by ring number; an unlisted block is at its reset values. -/
  rings : List (Nat × Ring) := []
  /-- W1 R373 S: EXCH_STATUS.IN. -/
  exchIn : Bool := false
  /-- W1 R373 S: EXCH_STATUS.OUT. -/
  exchOut : Bool := false
  /-- W11 R373 S: EXCH_STATUS.VECTOR. -/
  exchVector : Nat := 0
  /-- W1 R373 S: EXCH_STATUS.MASK. -/
  exchMask : Bool := true
  /-- W2048 R374 S: EXCH_PEND: function numbers whose VF has notified (PF0 only). -/
  exchPend : List (Nat × Unit) := []
  /-- R383: dirty logging. -/
  dirty : Option DirtyLog := none
  /-- W32 R77, R82, R84, R424: AER errors logged, by bit of the uncorrectable status register (PCI Express), oldest first. -/
  aer : List Nat := []
  deriving DecidableEq, Repr

/-- A VF that SR-IOV enables and no `FN_CREATE` has bound (R70). -/
structure Unprov where
  /-- R70: its configuration space, its MSI-X table and DRV_READY. -/
  fn : Fn := {}
  /-- W1 R70 S: CC.EN of a storage VF. -/
  ccEn : Bool := false
  deriving DecidableEq, Repr

/-- A window entry (R75). -/
structure Win where
  /-- W2 R75 S: STATE: 0 FREE, 1 ACTIVE, 2 DRAINING. -/
  state : Nat := 0
  /-- W1 R75 S: RD_EN. -/
  rdEn : Bool := false
  /-- W1 R75 S: WR_EN. -/
  wrEn : Bool := false
  /-- W6 R75 S: SIZE_LOG2. -/
  sizeLog2 : Nat := 0
  /-- W11 R75 S: FN. -/
  fn : Nat := 0
  /-- W16 R75 S: TENANT. -/
  tenant : Nat := 0
  /-- W3 R75 S: TGT_TYPE. -/
  tgtType : Nat := 0
  /-- W8 R75 S: VERSION. -/
  version : Nat := 0
  /-- W36 R75 S: BAR_OFF. -/
  barOff : Nat := 0
  /-- W48 R75 S: TGT_ADDR. -/
  tgtAddr : Nat := 0
  /-- W32 R75 S: INFLIGHT. -/
  inflight : Nat := 0
  deriving DecidableEq, Repr

/-- What an outstanding read of a host port serves (R81, R82). -/
inductive ReadFor
  /-- The index word of a ring. -/
  | index (ring : Nat)
  /-- Descriptors of a ring. -/
  | desc (ring : Nat)
  /-- A mailbox's request index word. -/
  | mbxIndex
  /-- Request slots of a mailbox: how many. -/
  | mbxSlots (n : Nat)
  /-- The data of an NVMe command. -/
  | nvme (qid cid : Nat)
  deriving DecidableEq, Repr

/-- A non-posted request: outstanding under its tag, or waiting for one (R81). -/
structure Read where
  /-- W14 R81: tag; none while it waits for one. -/
  tag : Option Nat := none
  /-- W16 R68, R81: requester ID under which the tag is bound. -/
  rid : Nat := 0
  /-- W64 R64: address. -/
  addr : Nat := 0
  /-- W13 R64: bytes. -/
  len : Nat := 0
  /-- W16 R81: function it was issued for. -/
  fid : Nat := 0
  /-- R82: what it serves. -/
  purpose : ReadFor := .mbxIndex
  /-- W1 R90: its completion is to be dropped. -/
  dead : Bool := false
  deriving DecidableEq, Repr

/-- A port's allotment (R367). -/
structure Allot where
  /-- W16 R367 S: TENANT of the port's PFs. -/
  tenant : Nat := 0
  /-- W16 R367 S: TEN_BASE. -/
  tenBase : Nat := 0
  /-- W16 R367 S: TEN_COUNT. -/
  tenCount : Nat := 0
  /-- W32 R366 S: the fourteen counts VFS … REGION_MIB in `ALLOT_SET` order. -/
  counts : List Nat := List.replicate 14 0
  /-- W32 R367 S: first indices of the POLICERS, NODES, KEY_SLOTS, CKV_CTX and SA ranges. -/
  firsts : List Nat := List.replicate 5 0
  /-- W1 R367: a first `ALLOT_SET` has been made. -/
  set : Bool := false
  deriving DecidableEq, Repr

end Sys2Proof.Machine
end

