-- ==== Sys2Proof/Machine/TypesMgmt.lean ====
section
/-! DEFINITION. State records of boot and trust, the Eft, the sideband, the Spawn Chain and the debug port. The docstrings
follow the form that Types.lean states. -/

namespace Sys2Proof.Machine

/-! ### Non-volatile stores (R390 to R402) -/

/-- The image a slot was delivered with, whose bytes the spec does not print (log entry 5). -/
structure FactoryImage where
  /-- W64 R392: VERSION. -/
  version : Nat := 1
  /-- W2 R393: the root key that signed it. -/
  key : Nat := 0
  /-- W32 R392: STATE_FMT. -/
  stateFmt : Nat := 0
  /-- W16 R392: its patch sets: TARGET and the bytes of the component. -/
  patches : List (Nat × List Byte) := []
  deriving DecidableEq, Repr

/-- A firmware slot (R392). -/
structure Slot where
  /-- W32 R394: STATE of the slot word: 0 EMPTY … 6 CONFIRMED. -/
  state : Nat := 0
  /-- W32 R392: INSTALL_SEQ of the slot word. -/
  seq : Nat := 0
  /-- R397: the bytes staged into the slot. -/
  img : List Byte := []
  /-- W32 R397: TOTAL of the image being staged. -/
  total : Nat := 0
  /-- R392: the delivered image, when the slot still holds it. -/
  factory : Option FactoryImage := none
  deriving DecidableEq, Repr

/-- An enrolled customer key (R196). -/
structure CustKey where
  /-- W768 R196: x then y. -/
  key : List Byte := []
  deriving DecidableEq, Repr

/-- OTP fuses and eMRAM: what `SYS_RST_N` does not lose (R83, R390, R391, R404). -/
structure Nvm where
  /-- W4 R391: REVOKE fuses. -/
  revoke : Nat := 0
  /-- W1 R391: BB_LOCK. -/
  bbLock : Bool := true
  /-- W64 R391: UNIQUE_ID. -/
  uniqueId : Nat := 0
  /-- W1 R461: GRADE: 0 A1, 1 A1E. -/
  grade : Nat := 0
  /-- R392: slot A. -/
  slotA : Slot := { state := 6, seq := 1, factory := some {} }
  /-- R392: slot B. -/
  slotB : Slot := {}
  /-- W3 R46: octet records, octet to mode value. -/
  octRec : List (Nat × Nat) := []
  /-- R404: Ethernet port records, by port number. -/
  portRec : List (Nat × EthPort) := []
  /-- W144 R60: failed lanes. -/
  failedLanes : List (Nat × Unit) := []
  /-- R65: host-port records, by port. -/
  hostRec : List (Nat × HostPort) := []
  /-- W5 R405: owner-port record. -/
  ownerRec : Option Nat := none
  /-- W1 R426 S: AUTO_REGROW; set is the default. -/
  autoRegrow : Bool := true
  /-- R421: Regrowth maps: unit records that differ from a new device's. -/
  wearUnits : List (Nat × WearUnit) := []
  /-- W64 R440: EQUIV_AGE_H in millionths. -/
  ageMicro : Nat := 0
  /-- W16 R435: hours counted. -/
  hours : Nat := 0
  /-- R196: enrolled customer keys, by index 0–3. -/
  custKeys : List (Nat × CustKey) := []
  /-- W14 R27 S: watchdog timeout of a handshake domain in µs where it differs from 100. -/
  watchdogUs : List (HsDom × Nat) := []
  /-- W16 R435: baseline rates in M tokens/s, by KIND of the sensor's units, sensor, VDD_CORE and Tj. -/
  baseline : List (Nat × Nat) := []
  /-- W8 R164: spray UNIT. -/
  sprayUnit : Nat := 0
  /-- W128 R404: tunnel source address. -/
  tunnelSrc : Nat := 0
  /-- W1 R58: MGMT0 mode: 0 1000BASE-X, 1 10GBASE-R. -/
  mgmt0Mode : Nat := 0
  /-- W8 R58: partition that MGMT0 frames go to. -/
  mgmt0Part : Nat := 0
  /-- W1 R55: ports that have MACsec off though SAs stand on their octet, as the store says. -/
  macsecOff : List (Nat × Unit) := []
  /-- W4 R313: clusters of the vendor partitions. -/
  vendorClusters : List Nat := [0, 1]
  /-- W8 R294 S: weights of the cipher engine's classes. -/
  cryWeights : List Nat := [8, 6, 2, 1]
  /-- W128 R121, R404: parse records of the active Pad, by parse port. -/
  parseRecs : List (Nat × Nat) := []
  /-- W64 R131, R404: default actions of the active Pad, by parse port. -/
  defaults : List (Nat × Nat) := []
  /-- R429: the last records before the safe state. -/
  priorFaults : List FaultRec := []
  /-- R412: certificate chain, DER. -/
  certChain : List Byte := []
  deriving DecidableEq, Repr

/-- What an event concerns (R364), which decides who receives it (R362). -/
inductive Subject
  /-- A thing of the device: only the Owner's and the Board's rings. -/
  | dev (n : Nat)
  /-- A host port. -/
  | hostPort (n : Nat)
  /-- A function. -/
  | fn (fid : Nat)
  deriving DecidableEq, Repr

/-! ### The Eft (R343, R357, R430) -/

/-- The Eft and the boot state. -/
structure Eft where
  /-- W1 R357 S: HEADLESS. -/
  headless : Bool := false
  /-- W64 R431: device time of the last restart after a fault. -/
  faultAt : Option Nat := none
  /-- W8 R395: RUNNING: 0 slot A, 1 slot B, 0xFF recovery. -/
  running : Nat := 0xFF
  /-- W8 R395: REASON. -/
  reason : Nat := 0xFF
  /-- W8 R407: recovery CAUSE. -/
  rcvCause : Nat := 0
  /-- W1 R396: the slot word is locked against CONFIRMED. -/
  trialLocked : Bool := false
  /-- W5 R405: the owner port. -/
  ownerPort : Nat := 0
  /-- W1 R88: the Eft has brought up ports. -/
  portsUp : Bool := false
  /-- W384 R390: boot-block measurement, as a number. -/
  bootDigest : Nat := 0
  /-- W1 R400: a FULL activation is draining. -/
  activating : Bool := false
  /-- W1 R408: Basking entry is draining. -/
  basking : Bool := false
  /-- W1 R408: a wake source asserted during entry. -/
  wakeLatched : Bool := false
  /-- W1 R409: retention kept since Basking entry (VDD_RET and the reference clock). -/
  retention : Bool := false
  /-- W1 R403: a Basking wake has been accepted and waits for its rails. -/
  waking : Bool := false
  /-- W1 R361: a device reset follows the response within 10 ms. -/
  resetAfter : Bool := false
  /-- W6 R361: a host port is reset after the response. -/
  resetPort : Option Nat := none
  /-- R438: events raised while headless, delivered when the Eft returns: TIME, CODE, SUBJECT, ARG. -/
  deferred : List (Nat × Nat × Subject × Nat) := []
  deriving DecidableEq, Repr

/-! ### I3C (R441 to R445) -/

/-- An item the Board can read: a response, or an event slot. -/
inductive BoardItem
  | response (bytes : List Byte)
  | event (bytes : List Byte)
  deriving DecidableEq, Repr

/-- The I3C target. -/
structure I3c where
  /-- W7 R441 S: dynamic address. -/
  addr : Option Nat := none
  /-- W1 R443 S: IBIs enabled. -/
  ibiEn : Bool := true
  /-- W1 R443 S: hot-join enabled. -/
  hjEn : Bool := true
  /-- W16 R443 S: maximum write length. -/
  mwl : Nat := 1088
  /-- W16 R443 S: maximum read length. -/
  mrl : Nat := 1088
  /-- W8 R443 S: reset action set by RSTACT, if any. -/
  rstact : Option Nat := none
  /-- W1 R443: protocol error latched. -/
  protoErr : Bool := false
  /-- W4 R365: ready items, oldest first. -/
  ready : List BoardItem := []
  /-- W1 R441: HDR traffic is on the bus. -/
  hdr : Bool := false
  deriving DecidableEq, Repr

/-! ### Spawn Chain (R446 to R457) -/

/-- The chain interface. -/
structure Chain where
  /-- W4 R451: chain address. -/
  addr : Nat := 0
  /-- W5 R451: unit count. -/
  units : Nat := 1
  /-- W2 R453: state: 0 SINGLE, 1 FORMING, 2 UP. -/
  state : Nat := 0
  /-- W1 R451: this unit is the head. -/
  head : Bool := false
  /-- W4 R451: address offered to this unit in the enumeration in progress. -/
  offered : Option Nat := none
  /-- W2048 R449: message parts received, by source address: LEN, bytes so far, next PART expected. -/
  rx : List (Nat × (Nat × List Byte × Nat)) := []
  /-- W32 R454: TIME bits 63:32 of an arm in progress, by source address. -/
  armHi : List (Nat × Nat) := []
  /-- W1 R451: the incoming link has received something. -/
  seen : Bool := false
  deriving DecidableEq, Repr

/-! ### JTAG and debug (R414, R459, R460) -/

/-- The debug port. -/
structure Debug where
  /-- W8 R459 S: instruction register; IDCODE after test-logic reset (IEEE 1149.1). -/
  ir : Nat := 1
  /-- W8 R414 S: scopes unlocked: bit 0 partition, bit 1 Eft, bit 2 device. -/
  scopes : Nat := 0
  /-- W8 R459 S: partition of scope 1. -/
  part : Nat := 0
  /-- W256 R414: the latest challenge. -/
  challenge : Option Nat := none
  /-- W1 R413 S: debug unlocked since `SYS_RST_N`. -/
  everUnlocked : Bool := false
  /-- W1 R460 S: pins taken out of functional use. -/
  pinsTaken : Bool := false
  /-- R460: debug-module registers within unlocked scopes, by scope × 2³² + address. -/
  dmi : List (Nat × Nat) := []
  deriving DecidableEq, Repr

/-! ### Meters (R376 to R381) -/

/-- A minute's entry of the snapshot ring (R379). -/
structure Snapshot where
  /-- W64 R379: MINUTE. -/
  minute : Nat := 0
  /-- W64 R379: TIME. -/
  time : Nat := 0
  /-- W8 R379: VALID. -/
  valid : Bool := true
  /-- W64 R379: the counters, keyed tenant × 72 + index; an unlisted one is 0. -/
  recs : List (Nat × Nat) := []
  deriving DecidableEq, Repr

/-- Meters. Counter keys are tenant × 72 + index. -/
structure Meter where
  /-- W64 R378 S: cumulative values. -/
  cum : List (Nat × Nat) := []
  /-- W64 R378 S: the active increment bank. -/
  active : List (Nat × Nat) := []
  /-- W1 R378 M: which of the two banks is active. -/
  bank : Bool := false
  /-- W64 R18: last minute snapshotted. -/
  lastMinute : Nat := 0
  /-- W16 R380 M: the tenants whose counters changed in that minute, rising. -/
  changed : List Nat := []
  /-- W1 R380 M: that minute's snapshot waits for its export. -/
  due : Bool := false
  /-- W64 R18 M: the minutes taken, as intervals of a first and a last. -/
  taken : List (Nat × Nat) := []
  /-- R379: snapshot ring, by slot (minute mod 60). -/
  ring : List (Nat × Snapshot) := []
  /-- R380: export configuration. -/
  export_ : ExportCfg := {}
  /-- W64 R381: producer index of the export ring. -/
  expPi : Nat := 0
  /-- W64 R381: consumer index of the export ring as last read. -/
  expCi : Nat := 0
  /-- W64 R361: telemetry ring: interval in ms, LOG2, ring address, index address, producer index. -/
  telem : Option (Nat × Nat × Nat × Nat × Nat) := none
  deriving DecidableEq, Repr

end Sys2Proof.Machine
end

