-- ==== Sys2Proof/Machine/TypesPacket.lean ====
section
/-! DEFINITION. State records of the packet domain: the two Pads, packets and their parse, action-engine contexts, forwarding tables,
groups, spray, buffers, queues, tokens and telemetry. The docstrings follow the form that Types.lean states. -/

namespace Sys2Proof.Machine

/-! ### Pads (R220) -/

/-- Customer windows of a pipeline (R193). -/
structure CustWin where
  /-- W16 R193 S: CNT_BASE. -/
  cntBase : Nat := 0
  /-- W16 R193 S: CNT_COUNT. -/
  cntCount : Nat := 0
  /-- W20 R193 S: POL_BASE. -/
  polBase : Nat := 0
  /-- W20 R193 S: POL_COUNT. -/
  polCount : Nat := 0
  /-- W17 R193 S: QUE_BASE. -/
  queBase : Nat := 0
  /-- W18 R193 S: QUE_COUNT. -/
  queCount : Nat := 0
  /-- W16 R193 S: SCR_BASE. -/
  scrBase : Nat := 0
  /-- W16 R193 S: SCR_SIZE. -/
  scrSize : Nat := 0
  deriving DecidableEq, Repr

/-- A mirror session (R209). -/
structure Mirror where
  /-- W17 R209 S: DEST_QUEUE, if any. -/
  queue : Option Nat := none
  /-- W14 R209 S: TRUNC. -/
  trunc : Nat := 0
  /-- W16 R209 S: SAMPLE. -/
  sample : Nat := 1
  deriving DecidableEq, Repr

/-- A group record and its members (R159). -/
structure Group where
  /-- W32 R159 S: RECORD. -/
  record : Nat := 0
  /-- W32 R159 S: members. -/
  members : List Nat := []
  deriving DecidableEq, Repr

/-- A loaded microcode image's identity (R194, R197). -/
structure UcodeId where
  /-- W64 R197 S: VERSION. -/
  version : Nat := 0
  /-- W384 R197 S: digest. -/
  digest : Nat := 0
  deriving DecidableEq, Repr

/-- One Lily Pad (R220). An unlisted record is at its reset contents. -/
structure Pad where
  /-- W128 R121 S: parse records by parse port. -/
  parse : List (Nat × Nat) := []
  /-- W64 R131 S: default actions by parse port. -/
  defaults : List (Nat × Nat) := []
  /-- W1536 R127 S: rules by pipeline × 32,768 + slot; an unlisted one is all zero, not VALID. Bit 1,536 marks a slot lost under R420. -/
  rules : List (Nat × Nat) := []
  /-- W64 R130 S: bindings by pipeline × 256 + index. -/
  binds : List (Nat × Nat) := []
  /-- W192 R189 S: patch RAM by pipeline × 512 + word. -/
  patch : List (Nat × Nat) := []
  /-- W32 R190 S: match registers by pipeline × 32 + number. -/
  matchRegs : List (Nat × Nat) := []
  /-- W192 R189 S: customer store by pipeline × 4,096 + word; an unlisted word is unloaded. -/
  cust : List (Nat × Nat) := []
  /-- W112 R193 S: customer windows by pipeline. -/
  wins : List (Nat × CustWin) := []
  /-- W448 R194 S: customer store image by pipeline. -/
  custId : List (Nat × UcodeId) := []
  /-- W448 R194 S: patch set image by pipeline. -/
  patchId : List (Nat × UcodeId) := []
  /-- W256 R210 S: policers by number. -/
  policers : List (Nat × Nat) := []
  /-- W192 R213 S: nodes by level × 131,072 + index. -/
  nodes : List (Nat × Nat) := []
  /-- W24 R213 S: queue bases by destination: base × 32 + class count. -/
  qbases : List (Nat × Nat) := []
  /-- W47 R209 S: mirror sessions 1–7. -/
  mirrors : List (Nat × Mirror) := []
  /-- W32 R159 S: groups by number. -/
  groups : List (Nat × Group) := []
  deriving DecidableEq, Repr

/-- The Leap controller (R221 to R226). -/
structure LeapState where
  /-- W1 R17 S: the active Pad: 0 A, 1 B. -/
  active : Nat := 0
  /-- W16 R17 S: generation. -/
  gen : Nat := 0
  /-- W32 R132 M: number of the next Pad-scoped command to wait. -/
  waitSeq : Nat := 0
  /-- W2 R221 S: shadow state; COPIED after `SYS_RST_N`. -/
  shadow : Nat := 2
  /-- W64 R221 S: device time of the armed Leap. -/
  pending : Option Nat := none
  /-- W1 R227 S: the armed Leap came from an arm frame or is chain-wide. -/
  chain : Bool := false
  /-- W64 R221 S: device time of the last Leap. -/
  last : Nat := 0
  /-- W32 R221 S: spread of the last Leap in ns. -/
  spread : Nat := 0
  deriving DecidableEq, Repr

/-! ### Packets and their parse (R118 to R126) -/

/-- Where a packet came from. -/
inductive Source
  /-- An Ethernet port. -/
  | eth (port : Nat)
  /-- A transmit ring: FID, ring, and the packet's serial. -/
  | host (fid ring serial : Nat)
  /-- A Skink thread of a partition. -/
  | inject (part : Nat)
  /-- The volume service, on a connection to a backend (R10). -/
  | storage (backend : Nat)
  deriving DecidableEq, Repr

/-- An entry of the header list (R119). -/
structure Hdr where
  /-- W6 R119: code. -/
  code : Nat
  /-- W10 R119: offset. -/
  off : Nat
  /-- W2 R119: level. -/
  level : Nat
  /-- W11 R119: bytes parsed. -/
  len : Nat
  deriving DecidableEq, Repr

/-- What the parser found (R119 to R124). -/
structure Parse where
  /-- W16 R119: header list. -/
  hdrs : List Hdr := []
  /-- W2 R126: deepest level reached. -/
  levels : Nat := 0
  /-- W3 R122: DEPTH_REASON. -/
  depth : Nat := 0
  /-- W4 R123: PARSE_ERR. -/
  err : Nat := 0
  /-- W1 R124: the packet is a fragment. -/
  frag : Bool := false
  /-- W1 R124: the parse error lies after the header that made it one. -/
  errAfterFrag : Bool := false
  /-- W24 R120: VNI. -/
  vni : Nat := 0
  deriving DecidableEq, Repr

/-- The way a packet's group member was chosen (R161, R164, R167). -/
structure Via where
  /-- W14 R159: group. -/
  group : Nat
  /-- W4 R160: logical pipeline. -/
  pipe : Nat
  /-- W9 R160: bucket. -/
  bucket : Nat
  /-- W10 R159: member number, 512 where the group no longer lists the member. -/
  index : Nat
  /-- W20 R159 M: member code. -/
  code : Nat
  deriving DecidableEq, Repr

/-- A packet on its way through the ingress side. -/
structure Pkt where
  /-- M: bytes, without FCS. -/
  bytes : List Byte := []
  /-- W1 R126 M: where it came from. -/
  src : Source := .eth 0
  /-- W8 R126: parse port. -/
  inPort : Nat := 0
  /-- W1 R17: Pad bit. -/
  pad : Nat := 0
  /-- W16 R8: FID. -/
  fid : Nat := 0
  /-- W16 R8: TENANT. -/
  tenant : Nat := 0
  /-- W20 R142: VN. -/
  vn : Nat := 0
  /-- W1 R141 M: the packet has a VN. -/
  hasVn : Bool := false
  /-- W1 R142 M: the VN came from a KTYPE 0 attachment. -/
  deep : Bool := false
  /-- W4 R126: CLASS. -/
  cls : Nat := 0
  /-- W2 R126: COLOUR. -/
  colour : Nat := 0
  /-- W18 R126: QUEUE. -/
  queue : Option Nat := none
  /-- W64 R54: ingress timestamp. -/
  rxTs : Option Nat := none
  /-- W1 R126: MACSEC_OK. -/
  macsecOk : Bool := false
  /-- W4 R9 M: logical pipeline of ingress. -/
  pipe : Nat := 0
  /-- W16 R126: RULE_SLOT. -/
  rule : Nat := 0xFFFF
  /-- W16 R126: BINDING_ARG. -/
  arg : Nat := 0
  /-- R119: parse. -/
  parse : Parse := {}
  /-- W3 R201: PCP of the outermost tag as received; none of an untagged frame. -/
  rxPrio : Option Nat := none
  /-- W14 R126: PKT_LEN, as received. -/
  rxLen : Nat := 0
  /-- W32 R164: the shim of a sprayed frame, without ETYPE. -/
  shim : Option Nat := none
  /-- W57 R185: the group member that LB or `GROUP_RESOLVE` chose for it. -/
  lb : Option Via := none
  deriving DecidableEq, Repr

/-! ### Action engines (R171 to R188) -/

/-- Flags of an ALU (R176). -/
structure AluFlags where
  /-- W1 R176 S: Z. -/
  z : Bool := false
  /-- W1 R176 S: N. -/
  n : Bool := false
  /-- W1 R176 S: C. -/
  c : Bool := false
  deriving DecidableEq, Repr

/-- An edit on the edit list, with the operands it took when it was issued (R183). -/
structure Edit where
  /-- W4 R183: kind. -/
  op : Nat
  /-- W8 R183: RW_ARG. -/
  arg : Nat
  /-- W48 R183: operand value. -/
  value : Nat
  /-- W7 R183: CUR at issue. -/
  cur : Nat
  deriving DecidableEq, Repr

/-- An asynchronous operation that has been issued, with the operands it took (R176, R182, R185). -/
inductive MOp
  /-- Lookup: table and key. -/
  | lookup (tbl key : Nat)
  /-- Policer by device index, and the COLOUR it starts from. -/
  | police (index colour : Nat)
  /-- Hash: seed A or B, fields. -/
  | hash (seed : Nat) (fields : List Nat)
  /-- Cipher request: its serial in the engine. -/
  | cipher (req : Nat)
  /-- Check value: kind, CUR, and the key of the flow. -/
  | ckv (op cur : Nat) (key : Option Nat)
  /-- Memory: operation, scratch address or comparand, operand, and the key of the flow entry. -/
  | mem (op addr value : Nat) (key : Option Nat)
  deriving DecidableEq, Repr

/-- The kind of an operation, of which a packet has at most one outstanding (R176). -/
def MOp.kind : MOp → Nat
  | .lookup .. => 0 | .police .. => 1 | .hash .. => 2 | .cipher .. => 3 | .ckv .. => 4 | .mem .. => 5

/-- A packet context of an action engine. -/
structure Ctx where
  /-- W64 M: serial, by which an outstanding cipher request names its context. -/
  id : Nat := 0
  /-- R174: the packet. -/
  pkt : Pkt := {}
  /-- W5 R171: engine. -/
  engine : Nat := 0
  /-- W15 R177: address of the next word. -/
  pc : Nat := 0
  /-- W32 R174 S: G0–G27; an unlisted one is 0. -/
  g : List (Nat × Nat) := []
  /-- W3 R174 S: flags of ALU A. -/
  fa : AluFlags := {}
  /-- W3 R174 S: flags of ALU B. -/
  fb : AluFlags := {}
  /-- W15 R174 S: micro-stack, top first. -/
  stack : List Nat := []
  /-- W7 R174 S: CUR. -/
  cur : Nat := 0
  /-- W9 R187 S: words executed. -/
  steps : Nat := 0
  /-- R183 S: edit list, in order. -/
  edits : List Edit := []
  /-- R174 S: operations outstanding. -/
  ops : List MOp := []
  /-- W24 R179: DEST. -/
  dest : Nat := 0
  /-- W1 R179 M: DEST has been given a value. -/
  hasDest : Bool := false
  /-- W8 R186 S: PUNT_REASON. -/
  reason : Nat := 4
  /-- W1 R184 M: marked by DROP. -/
  drop : Bool := false
  /-- W8 R184 M: the drop reason, where a routine gives one of its own. -/
  dropReason : Nat := 9
  /-- W1 R179 S: lookup hit. -/
  hit : Bool := false
  /-- W24 R179 S: lookup destination. -/
  lkDest : Nat := 0
  /-- W32 R179 S: lookup argument. -/
  lkArg : Nat := 0
  /-- W32 R179 S: flow STATE. -/
  lkState : Nat := 0
  /-- W318 R185 M: key of the flow entry that the last flow lookup hit. -/
  flowKey : Option Nat := none
  /-- W2 R179: policer result. -/
  pol : Option Nat := none
  /-- W1 R184 S M: a policer result was red. -/
  red : Bool := false
  /-- W1 R295 S M: its cipher request is a vendor ESP routine's. -/
  espRoutine : Bool := false
  /-- W1 R290 S M: its check-value operation is the vendor digest routine's. -/
  digestRoutine : Bool := false
  /-- W32 R179 S: HASH. -/
  hash : Nat := 0
  /-- W32 R179 S: MEM_DATA. -/
  mem : Nat := 0
  /-- W1 R178 S: the last FS_CAS swapped. -/
  swapped : Bool := false
  /-- W4 R297: cipher status. -/
  cry : Option Nat := none
  /-- W2 R290 S: check-value status. -/
  ckv : Option Nat := none
  /-- W1 R178: checksum verification. -/
  csum : Option Bool := none
  /-- W3 R185: outer UDP checksum on encapsulation. -/
  outer : Nat := 0
  /-- W7 R209: mirror sessions asked for. -/
  mirrors : List Nat := []
  /-- W1 R54: deliver the egress commit time. -/
  tsOut : Bool := false
  /-- W1 R184 M: its last word has run, and was ENDP or not; it ends once its operations have completed. -/
  ending : Option Bool := none
  deriving DecidableEq, Repr

/-! ### Tables (R136 to R158) -/

/-- A cuckoo table: slots and stash by number, entries as their chapter's record (R152). -/
structure Cuckoo where
  /-- W512 R152 S: slots. -/
  slots : List (Nat × Nat) := []
  /-- W512 R152 S: stash. -/
  stash : List (Nat × Nat) := []
  /-- W128 R156: seed. -/
  seed : Nat := 0
  /-- W128 R157 S: the old generation's seed while a rehash runs. -/
  old : Option Nat := none
  /-- W1 R153 S: GEN of the present generation. -/
  gen : Nat := 0
  /-- W24 R157 S: entries rehashed in the rehash in progress. -/
  moved : Nat := 0
  /-- W24 R157 S: entries the walker could not place. -/
  unplaced : Nat := 0
  /-- W64 R170 M: moves made, of chains and out of the stash. -/
  moves : Nat := 0
  /-- W64 R155 M: insertions of the walker that failed. -/
  fails : Nat := 0
  /-- W1 R155 S: the pressure event has been raised. -/
  pressure : Bool := false
  deriving DecidableEq, Repr

/-- A route entry (R145): prefix of `len` bits in a VRF. -/
structure Route where
  /-- W12 R145: VRF. -/
  vrf : Nat
  /-- W8 R145: prefix length. -/
  len : Nat
  /-- W128 R145: prefix, as a number of 32 or 128 bits. -/
  net : Nat
  /-- W24 R145: DEST. -/
  dest : Nat
  deriving DecidableEq, Repr

/-- Learning settings of a source (R148). -/
structure LearnCfg where
  /-- W19 R148 S: LIMIT. -/
  limit : Nat := 8192
  /-- W1 R148 S: EXCESS. -/
  excess : Nat := 0
  /-- W1 R147: SHARE. -/
  share : Bool := false
  deriving DecidableEq, Repr

/-- A learn event (R146). -/
structure LearnEvent where
  /-- W48 R146: MAC. -/
  mac : Nat
  /-- W20 R146: VN. -/
  vn : Nat
  /-- W1 R146: SRC_HOST. -/
  host : Bool
  /-- W16 R146: SRC. -/
  src : Nat
  deriving DecidableEq, Repr

/-- Aging settings and the sweep's place (R150). -/
structure Aging where
  /-- W20 R150 S: AGE_TIME in s. -/
  ageS : Nat := 300
  /-- W17 R150 S: SLICE_PERIOD in µs. -/
  sliceUs : Nat := 1000
  /-- W17 R150 S: SLICE_ENTRIES. -/
  entries : Nat := 4096
  /-- W24 R150 S: first slot of the next slice. -/
  cursor : Nat := 0
  deriving DecidableEq, Repr

/-! ### Groups and spray (R159 to R168) -/

/-- Hardware state of a group on a pipeline. -/
structure GroupHw where
  /-- W128 R156: seed. -/
  seed : Nat := 0
  /-- W128 R168 S: the old seed during a rotation. -/
  old : Option Nat := none
  /-- W512 R168 S: SWITCHED. -/
  switched : List (Nat × Unit) := []
  /-- W30 R160: current members by bucket: the member's number, and its code (R161). -/
  cur : List (Nat × (Nat × Nat)) := []
  /-- W9 R162: round-robin place. -/
  rr : Nat := 0
  /-- W64 R161: tick at which each bucket was last chosen. -/
  last : List (Nat × Nat) := []
  deriving DecidableEq, Repr

/-- Imbalance monitor of a group (R167). -/
structure Monitor where
  /-- W1 R167 S: armed. -/
  armed : Bool := false
  /-- W8 R167 S: RATIO. -/
  ratio : Nat := 24
  /-- W10 R167 S: WINDOWS. -/
  windows : Nat := 10
  /-- W1 R167 S: ROTATE. -/
  rotate : Bool := false
  /-- W10 R167 S: consecutive windows over RATIO. -/
  overs : Nat := 0
  /-- W64 R167 S: bytes of the window in progress, by member. -/
  bytes : List (Nat × Nat) := []
  /-- W64 R167 S: bytes of the last window. -/
  last : List (Nat × Nat) := []
  deriving DecidableEq, Repr

/-- A copy as it is asked for. -/
structure CopyReq where
  /-- M R283: destination. -/
  dest : Nat
  /-- M R212: queue. -/
  queue : Nat
  /-- M R209: TRUNC. -/
  trunc : Nat := 0
  /-- M R209: a mirror copy. -/
  mirror : Bool := false
  /-- W3 R209: its session. -/
  session : Nat := 0
  /-- M R208: per-copy tag: 0 unchanged, 1 untagged, 2 + v VLAN v. -/
  tag : Nat := 0
  /-- M R161: group member. -/
  via : Option Via := none
  /-- M R164: spray shim. -/
  shim : Option Nat := none
  deriving DecidableEq, Repr

/-- A packet held in the resequencing reserve (R165, R166). -/
structure Held where
  /-- M R165: the packet, finished. -/
  pkt : Pkt := {}
  /-- M R165: where its copies go. -/
  reqs : List CopyReq := []
  /-- W1 R54: deliver its commit time. -/
  tsOut : Bool := false
  /-- W64 R165: tick of arrival. -/
  at_ : Nat := 0
  deriving DecidableEq, Repr

/-- A resequencing context (R165). -/
structure SprayCtx where
  /-- W20 R165: E. -/
  e : Nat := 0
  /-- R165: held packets by sequence number. -/
  held : List (Nat × Held) := []
  /-- W64 R166: tick since which it has held nothing. -/
  since : Nat := 0
  deriving DecidableEq, Repr

/-! ### Buffers and queues (R199 to R219) -/

/-- A buffer owner (R201). -/
structure Owner where
  /-- W6 R201 S: POOL, where `RESERVE_SET` has placed it. -/
  pool : Option Nat := none
  /-- W20 R201 S: MIN, where `RESERVE_SET` has set it. -/
  min : Option Nat := none
  /-- W20 R201 S: HEADROOM. -/
  headroom : Nat := 0
  /-- W1 R201 S: LOSSLESS. -/
  lossless : Bool := false
  /-- W21 R203 S: use. -/
  use : Nat := 0
  /-- W21 R207 S: cells held in headroom. -/
  hr : Nat := 0
  /-- R204 S: the owners whose state has asserted back-pressure on it. -/
  causes : List Nat := []
  deriving DecidableEq, Repr

/-- A packet in the packet buffer (R199, R208). -/
structure Stored where
  /-- M: the packet with its final bytes. -/
  pkt : Pkt := {}
  /-- W6 R199: cells. -/
  cells : Nat := 0
  /-- W18 R208: copies outstanding. -/
  refs : Nat := 0
  /-- W32 R200: ingress owner charged. -/
  owner : Nat := 0
  /-- W1 R207: placed in headroom. -/
  headroom : Bool := false
  /-- W1 R185: deliver the egress commit time. -/
  tsOut : Bool := false
  deriving DecidableEq, Repr

/-- A copy on an egress queue (R208, R281). -/
structure Copy where
  /-- W20 R208 M: the stored packet. -/
  pkt : Nat := 0
  /-- W24 R283: destination: ETH_PORT or FUNCTION. -/
  dest : Nat := 0
  /-- W64 R216: tick of enqueue. -/
  at_ : Nat := 0
  /-- W16 R283: PSEQ. -/
  pseq : Nat := 0
  /-- W32 R282: Path Check Word. -/
  pcw : Nat := 0
  /-- W14 R209: TRUNC, 0 for the whole packet. -/
  trunc : Nat := 0
  /-- W1 R114: marked by a ring shutdown. -/
  marked : Bool := false
  /-- W1 R209: a mirror copy. -/
  mirror : Bool := false
  /-- W13 R208: per-copy tag: 0 unchanged, 1 untagged, 2 + v VLAN v. -/
  tag : Nat := 0
  /-- W57 R161: the group member it was chosen for. -/
  via : Option Via := none
  /-- W48 R164: spray shim to insert, without ETYPE. -/
  shim : Option Nat := none
  deriving DecidableEq, Repr

/-- Token buckets of a policer or node (R211, R214, R215). A token is 1/8,000 byte, or 1/1,000,000 packet. -/
structure Tokens where
  /-- W64 R211: committed. -/
  tc : Int := 0
  /-- W64 R211: excess or peak. -/
  tp : Int := 0
  /-- W64 R211: tick of the last refill. -/
  at_ : Nat := 0
  /-- W256 R215: the parameters last charged under. -/
  params : Option Nat := none
  deriving DecidableEq, Repr

/-- A telemetry ring (R217). -/
structure QSample where
  /-- W5 R217: LOG2. -/
  log2 : Nat := 12
  /-- W10 R217: interval in µs. -/
  interval : Nat := 1
  /-- W64 R217: ring address. -/
  ringAddr : Nat := 0
  /-- W64 R217: index address. -/
  indexAddr : Nat := 0
  /-- W16 R217: function whose memory holds it. -/
  fid : Nat := 0
  /-- W17 R217: queues. -/
  queues : List Nat := []
  /-- W64 R217 S: producer index. -/
  pi : Nat := 0
  /-- W64 R217 S: consumer index as last read. -/
  ci : Nat := 0
  /-- W32 R218 S: SEQ. -/
  seq : Nat := 0
  deriving DecidableEq, Repr

/-- The packet domain. -/
structure PacketState where
  /-- W64 M: the draw that stands for the seeds drawn at the last boot (R156, R111). -/
  boot : Nat := 0
  /-- R220: Pad A. -/
  padA : Pad := {}
  /-- R220: Pad B. -/
  padB : Pad := {}
  /-- R221: the Leap controller. -/
  leap : LeapState := {}
  /-- R173: packets waiting at each logical pipeline's input, oldest first. -/
  ingress : List (Nat × List Pkt) := []
  /-- R171: packet contexts of each logical pipeline, oldest first. -/
  ctxs : List (Nat × List Ctx) := []
  /-- W64 M: serial of the next context. -/
  nextCtx : Nat := 0
  /-- W64 R283 M: the Path Check Words of the command's punts: 0 while they match; else 1 and the number that have not matched. -/
  puntCheck : Nat := 0
  /-- W64 R136 S: attachment map, a copy for each pipeline. -/
  att : List (Nat × Cuckoo) := []
  /-- W64 R140 S: VN records (the nine copies hold the same between commands). -/
  vns : List (Nat × Nat) := []
  /-- W192 R143 S: L2 tables by pipeline. -/
  l2 : List (Nat × Cuckoo) := []
  /-- W512 R144 S: the flow table. -/
  flow : Cuckoo := {}
  /-- W318 R145: keys that the on-die flow cache holds, the most recently hit first. -/
  flowCache : List Nat := []
  /-- W318 R158 M: the places that `TBL_ITER`'s cursors name: cursor `n + 1` the `n`-th. -/
  cursors : List Nat := []
  /-- R145 S: IPv4 routes. -/
  v4 : List Route := []
  /-- R145 S: IPv6 routes. -/
  v6 : List Route := []
  /-- W256 R145 S: next hops. -/
  nhs : List (Nat × Nat) := []
  /-- W48 R140: router MACs 0–15. -/
  rmacs : List (Nat × Nat) := []
  /-- R148: learning settings, by SRC_HOST × 65,536 + SRC. -/
  learn : List (Nat × LearnCfg) := []
  /-- R147 S: learn-event queues by pipeline. -/
  learnQ : List (Nat × List LearnEvent) := []
  /-- W64 R148: device tick of the last learn-excess event, by source. -/
  excessAt : List (Nat × Nat) := []
  /-- W64 R187: device tick of the last microcode-fault event, by pipeline × 8 + code. -/
  mfaultAt : List (Nat × Nat) := []
  /-- R150: aging settings: 0–8 the L2 tables, 9 the flow table. -/
  aging : List (Nat × Aging) := []
  /-- R159: group hardware state by group × 16 + pipeline. -/
  grp : List (Nat × GroupHw) := []
  /-- R167: imbalance monitors by group. -/
  mon : List (Nat × Monitor) := []
  /-- W14 R164: spray group slots 0–127, slot to group. -/
  spraySlot : List (Nat × Nat) := []
  /-- W20 R164: next sequence number of each stream sent; an unlisted one is reset. -/
  sprayTx : List (Nat × Nat) := []
  /-- W9 R164: round-robin place of a spray group. -/
  sprayRr : List (Nat × Nat) := []
  /-- R165: resequencing contexts by UNIT × 65,536 + STREAM. -/
  sprayRx : List (Nat × SprayCtx) := []
  /-- W8 R185 S: scratch, by pipeline × 65,536 + address. -/
  scratch : List Host.Cell := []
  /-- W128 R185: microcode hash seeds, by pipeline × 2 + seed. -/
  hashSeed : List (Nat × Nat) := []
  /-- W64 R200 S: pool records that differ from reset, by pool. -/
  pools : List (Nat × Nat) := []
  /-- R201: owners, by OKIND × 1,048,576 + ID. -/
  owners : List (Nat × Owner) := []
  /-- R199 S: the packet buffer. -/
  buf : List (Nat × Stored) := []
  /-- W20 M: number of the next stored packet. -/
  nextPkt : Nat := 0
  /-- W64 R108 M: serial of the next packet that a transmit ring sends. -/
  nextTx : Nat := 0
  /-- W44 R151 M: the latest device time that entries may be stamped with, in units of TS, where the clock has stepped back from it. -/
  stampHigh : Nat := 0
  /-- R212 S: egress queues. -/
  queues : List (Nat × List Copy) := []
  /-- W16 R283: packets each pipeline has enqueued to each queue, by pipeline × 131,072 + queue. -/
  pseq : List (Nat × Nat) := []
  /-- R211: policer tokens. -/
  polTok : List (Nat × Tokens) := []
  /-- R214: node tokens by level × 131,072 + index. -/
  nodeTok : List (Nat × Tokens) := []
  /-- W32 R214: deficits by level × 131,072 + index. -/
  deficit : List (Nat × Nat) := []
  /-- W17 R214: the child being served, by level × 131,072 + index of the parent. -/
  serving : List (Nat × Nat) := []
  /-- W16 R209: packets counted by each mirror session, by pipeline × 8 + session. -/
  sampled : List (Nat × Nat) := []
  /-- R217: telemetry rings. -/
  telem : List (Nat × QSample) := []
  /-- W32 R219 S: MAX_DEPTH by queue. -/
  maxDepth : List (Nat × Nat) := []
  /-- W32 R219 S: MAX_DELAY by queue. -/
  maxDelay : List (Nat × Nat) := []
  deriving DecidableEq, Repr

end Sys2Proof.Machine
end

