-- ==== Sys2Proof/Machine/TypesSkink.lean ====
section
/-! DEFINITION. State records of the Skink cores: partitions, threads, channels, windows and packet handles. The docstrings follow
the form that Types.lean states. -/

namespace Sys2Proof.Machine

/-- A channel message (R318, R319). -/
structure Msg where
  /-- W64 R318: one to eight words. -/
  words : List Nat := []
  /-- W4 R322: source kind. -/
  kind : Nat := 0
  /-- W10 R319: sender's thread ID. -/
  tid : Nat := 0
  /-- W8 R319: sender's partition. -/
  part : Nat := 0
  deriving DecidableEq, Repr

/-- A channel (R321). -/
structure Channel where
  /-- W2 R321 S: KIND. -/
  kind : Nat := 0
  /-- W1 R321 S: EXT. -/
  ext : Bool := false
  /-- W1 R321 S: ARMED. -/
  armed : Bool := false
  /-- W8 R321 S: PEER. -/
  peer : Nat := 0
  /-- W32 R321 S: PERIOD. -/
  period : Nat := 0
  /-- W64 R321 S: ARG. -/
  arg : Nat := 0
  /-- R321 S: messages held, oldest first. -/
  msgs : List Msg := []
  /-- W10 R318: threads waiting in CH.CMT, in the order they began. -/
  commits : List Nat := []
  /-- W5 R324: places reserved by cipher requests. -/
  reserved : Nat := 0
  /-- W64 R322: ticks delivered. -/
  ticks : Nat := 0
  deriving DecidableEq, Repr

/-- What a blocked thread waits in (R327). -/
inductive TWait
  /-- CH.CMT of `n` words to a channel. -/
  | commit (ch n rd : Nat)
  /-- CH.RD. -/
  | read (ch rd : Nat)
  /-- CH.WAITANY: base, mask. -/
  | any (base mask rd : Nat)
  /-- A store to a window that waits: the cipher window's SUBMIT, or an injection. -/
  | window
  /-- JOIN. -/
  | join (tid rd : Nat)
  deriving DecidableEq, Repr

/-- The 64-byte block of the packet window (R325). -/
structure PktWin where
  /-- W32 R325 S: HANDLE. -/
  handle : Nat := 0
  /-- W64 R325 S: ADDR. -/
  addr : Nat := 0
  /-- W14 R325 S: LEN. -/
  len : Nat := 0
  /-- W14 R325 S: OFF. -/
  off : Nat := 0
  /-- W4 R325 S: PIPE. -/
  pipe : Nat := 0
  /-- W8 R325 S: PORT. -/
  port : Nat := 0
  /-- W2 R325 S: STATUS. -/
  status : Nat := 0
  deriving DecidableEq, Repr

/-- A thread (R327). -/
structure Thread where
  /-- W3 R327 S: state. -/
  state : Nat := 0
  /-- W64 R327: PC: the start PC of a stopped thread. -/
  pc : Nat := 0
  /-- W64 R327 S: x1–x31 and, from 32, f0–f31. -/
  regs : List (Nat × Nat) := []
  /-- W8 R327 S: last fault code. -/
  cause : Nat := 0
  /-- W64 R318 S: staging by index. -/
  staging : List (Nat × Nat) := []
  /-- R327 S: what it waits in. -/
  wait : Option TWait := none
  /-- W4 R319 S: round-robin place of CH.WAITANY: the bit last received from. -/
  rr : Option Nat := none
  /-- W1 R330 S: started by FORK. -/
  forked : Bool := false
  /-- W1 R330 S: detached. -/
  detached : Bool := false
  /-- W10 R330 S: thread that waits to join it. -/
  joiner : Option Nat := none
  /-- W64 R330 S: exit value. -/
  exit : Nat := 0
  /-- W19 R326 S: contexts held. -/
  held : List Nat := []
  /-- W512 R324 S: the request written in the cipher window. -/
  cipherWin : Nat := 0
  /-- R325 S: packet window. -/
  pktWin : PktWin := {}
  /-- W32 R326 S: context window: INDEX, status at 0x10. -/
  ckvIndex : Nat := 0
  /-- W2 R326 S: context window status. -/
  ckvStatus : Nat := 0
  /-- W256 R326 S: context window data. -/
  ckvData : Nat := 0
  /-- W10 R327 S: tsel. -/
  tsel : Nat := 0
  /-- W6 R327 S: tregsel. -/
  tregsel : Nat := 0
  /-- W2 R315: privilege mode: 3 machine, 1 supervisor. -/
  mode : Nat := 3
  /-- W64 R311: exception PC of the mode's last trap (`mepc`, `sepc`). -/
  epc : Nat := 0
  /-- W64 R311: cause of the mode's last trap (`mcause`, `scause`). -/
  xcause : Nat := 0
  /-- W64 R311: trap value of the mode's last trap (`mtval`, `stval`). -/
  xtval : Nat := 0
  /-- W1 R336: halts after its next instruction. -/
  stepping : Bool := false
  /-- W64 R311: `instret`: instructions retired. -/
  instret : Nat := 0
  /-- W1 R311 M: the instruction at hand has trapped. -/
  trapped : Bool := false
  deriving DecidableEq, Repr

/-- A loaded service image (R341). -/
structure ServiceImage where
  /-- W64 R340: VERSION. -/
  version : Nat := 0
  /-- W384 R341: digest. -/
  digest : Nat := 0
  /-- W64 R340: ENTRY. -/
  entry : Nat := 0
  deriving DecidableEq, Repr

/-- A partition (R313). -/
structure Part where
  /-- W1 R313: vendor privilege. -/
  vendor : Bool := false
  /-- W1 R313: a cluster partition. -/
  cluster : Bool := true
  /-- W128 R313: cores, by cluster × 8 + core, rising. -/
  cores : List Nat := []
  /-- W16 R313: TENANT. -/
  tenant : Nat := 0
  /-- W36 R313: REGION in MiB. -/
  regionMib : Nat := 2
  /-- W13 R313: channels in each cluster. -/
  channels : Nat := 64
  /-- W12 R313: first channel of the range. -/
  first : Nat := 0
  /-- W13 R313: HANDLES. -/
  handles : Nat := 256
  /-- W10 R313: SENTINEL in ms. -/
  sentinelMs : Nat := 10
  /-- W1 R313: SENTINEL_ACTION. -/
  action : Nat := 0
  /-- R341: the image loaded. -/
  image : Option ServiceImage := none
  /-- W1 R342: started. -/
  running : Bool := false
  /-- W24 R333: sequence number of the next fault record. -/
  faultSeq : Nat := 0
  /-- R333: fault records that found the channel full. -/
  overflow : List Msg := []
  /-- W1 R335: a sentinel message waits to be read. -/
  sentinel : Bool := false
  /-- W1 R336: open to the debug module. -/
  attached : Bool := false
  deriving DecidableEq, Repr

/-- A packet held by a partition under a handle (R325). -/
structure Handle where
  /-- W8 R325: partition. -/
  part : Nat := 0
  /-- M R325: the packet. -/
  pkt : Pkt := {}
  /-- W6 R199: cells. -/
  cells : Nat := 0
  /-- W32 R200: ingress owner charged. -/
  owner : Nat := 0
  deriving DecidableEq, Repr

/-- The service domain. -/
structure SkinkState where
  /-- R313: partitions by ID. -/
  parts : List (Nat × Part) := []
  /-- R327: threads by thread ID; an unlisted one is STOPPED. -/
  threads : List (Nat × Thread) := []
  /-- W64 R316: issue tables by core, where they differ from two slots for each thread. -/
  slots : List (Nat × Nat) := []
  /-- W64 R311, R316: `cycle` of each core: its issue slots, whose number modulo 16 is the slot that comes next. -/
  cycles : List (Nat × Nat) := []
  /-- R321 S: channels by channel ID. -/
  chans : List (Nat × Channel) := []
  /-- R325: packet handles. -/
  handles : List (Nat × Handle) := []
  /-- W16 R322: the channel that each logical pipeline's punts go to, where the Owner names one. -/
  puntCh : List (Nat × Nat) := []
  deriving DecidableEq, Repr

end Sys2Proof.Machine
end

