-- ==== Sys2Proof/Machine/Crc.lean ====
section
/-! DEFINITION. The cyclic redundancy checks of the check-value units and the Path Check Word (R279, R282). -/

namespace Sys2Proof.Machine

/-- One bit of a reflected register: it shifts right against the reversed polynomial. -/
def crcReflBit (poly reg : Nat) : Nat := if reg % 2 = 1 then (reg / 2) ^^^ poly else reg / 2

/-- One byte into a reflected register: it is XORed into bits 7:0 (R282). -/
def crcReflByte (poly reg : Nat) (b : Byte) : Nat :=
  (List.range 8).foldl (fun r _ => crcReflBit poly r) (reg ^^^ b.toNat)

/-- Bytes into a reflected register. -/
def crcRefl (poly reg : Nat) (bs : List Byte) : Nat := bs.foldl (crcReflByte poly) reg

/-- Bytes into an unreflected 16-bit register, most significant bit first. -/
def crcFwd16 (poly reg : Nat) (bs : List Byte) : Nat :=
  bs.foldl (fun r b => (List.range 8).foldl
    (fun r _ => if r / 2 ^ 15 % 2 = 1 then (r * 2 % 2 ^ 16) ^^^ poly else r * 2 % 2 ^ 16) (r ^^^ (b.toNat * 256))) reg

/-- Initial register of an algorithm by code (R279). -/
def crcInit (alg : Nat) : Nat := if alg = 2 then 0 else if alg = 3 then 2 ^ 64 - 1 else 2 ^ 32 - 1

/-- Bytes into the running register of an algorithm, in the form in which R286 holds it. -/
def crcRun (alg reg : Nat) (bs : List Byte) : Nat :=
  match alg with
  | 0 => crcRefl 0x82F63B78 reg bs
  | 1 => crcRefl 0xEDB88320 reg bs
  | 2 => crcFwd16 0x8BB7 reg bs
  | _ => crcRefl 0x9A6C9329AC4BC9B5 reg bs

/-- The final XOR. -/
def crcDone (alg reg : Nat) : Nat := if alg = 2 then reg else if alg = 3 then reg ^^^ (2 ^ 64 - 1) else reg ^^^ (2 ^ 32 - 1)

/-- A check value over whole bytes. -/
def crcOf (alg : Nat) (bs : List Byte) : Nat := crcDone alg (crcRun alg (crcInit alg) bs)

/-- The Path Check Word over data bytes, under a tenant, a sequence number and a destination word (R282). -/
def pcw (tenant pseq dest : Nat) (bs : List Byte) : Nat :=
  let r := crcRun 0 ((2 ^ 32 - 1) ^^^ (tenant % 65536 * 65536 + pseq % 65536)) bs
  crcDone 0 (crcRun 0 r (leBytes 4 dest))

end Sys2Proof.Machine
end

