-- ==== Sys2Proof/Machine/TypesStorage.lean ====
section
/-! DEFINITION. State records of the NVMe front end, the data mover's commands, the volume service, its backends and the intent log.
The docstrings follow the form that Types.lean states. -/

namespace Sys2Proof.Machine

/-! ### Controllers and queues (R229 to R236, R252) -/

/-- A submission queue. -/
structure NvSq where
  /-- W64 R231: base address. -/
  base : Nat := 0
  /-- W17 R231: entries. -/
  size : Nat := 0
  /-- W8 R233: completion queue. -/
  cq : Nat := 0
  /-- W16 R232: head: the next entry to fetch. -/
  head : Nat := 0
  /-- W16 R231: tail, as the doorbell published it. -/
  tail : Nat := 0
  /-- W1 R255: being deleted: nothing more is fetched. -/
  deleting : Bool := false
  /-- W1 R80: fenced by a composition mismatch: nothing more is fetched. -/
  fenced : Bool := false
  deriving DecidableEq, Repr

/-- A completion queue. -/
structure NvCq where
  /-- W64 R231: base address. -/
  base : Nat := 0
  /-- W17 R231: entries. -/
  size : Nat := 0
  /-- W8 R231: interrupt vector. -/
  iv : Nat := 0
  /-- W1 R231: interrupts enabled. -/
  ien : Bool := true
  /-- W16 R252: head, as the doorbell gave it. -/
  head : Nat := 0
  /-- W16 R252: tail: the next entry to write. -/
  tail : Nat := 0
  /-- W1 R252: phase tag of the next entry. -/
  phase : Bool := true
  /-- W17 R235: entries written since the last interrupt. -/
  held : Nat := 0
  deriving DecidableEq, Repr

/-- A namespace attached to a controller (R239). -/
structure Ns where
  /-- W12 R239: volume handle. -/
  vol : Nat := 0
  /-- W2 R239: LBA format. -/
  fmt : Nat := 0
  /-- W1 R239: FLBAS bit 4: metadata at the end of the data. -/
  ext : Bool := false
  /-- W3 R239: protection type. -/
  pt : Nat := 0
  deriving DecidableEq, Repr

/-- An entry of the Error Information log (R236, R241). -/
structure ErrEntry where
  /-- W64 R236: error count. -/
  count : Nat := 0
  /-- W16 R236: submission queue. -/
  sqid : Nat := 0
  /-- W16 R236: command identifier. -/
  cid : Nat := 0
  /-- W16 R236: status field. -/
  status : Nat := 0
  /-- W64 R241: LBA. -/
  lba : Nat := 0
  /-- W32 R236: namespace. -/
  nsid : Nat := 0
  deriving DecidableEq, Repr

/-- What `CC.EN` = 0 returns to its default (R235, R256). -/
structure Feats where
  /-- W32 R235: Arbitration. -/
  arb : Nat := 0
  /-- W16 R235 S: over-threshold of the composite temperature. -/
  tempOver : Nat := 378
  /-- W16 R235 S: under-threshold. -/
  tempUnder : Nat := 0
  /-- W32 R235: Error Recovery. -/
  errRec : Nat := 0
  /-- W8 R235: THR of Interrupt Coalescing. -/
  thr : Nat := 0
  /-- W8 R235: TIME of Interrupt Coalescing. -/
  time : Nat := 0
  /-- W1 R235: vectors with coalescing disabled (CD). -/
  cd : List (Nat × Unit) := []
  /-- W32 R235: Write Atomicity Normal. -/
  wan : Nat := 0
  /-- W32 R235: Asynchronous Event Configuration. -/
  async : Nat := 0
  /-- W1 R244 S: ORDEN. -/
  orden : Bool := false
  deriving DecidableEq, Repr

/-- A controller (R229, R230). -/
structure Ctrl where
  /-- W32 R230: CC, with EN in bit 0. -/
  cc : Nat := 0
  /-- W1 R230: CSTS.RDY. -/
  rdy : Bool := false
  /-- W1 R230: CSTS.CFS. -/
  cfs : Bool := false
  /-- W2 R257: CSTS.SHST. -/
  shst : Nat := 0
  /-- W1 R102 M: every queue FENCED (R258). -/
  fenced : Bool := false
  /-- W32 R231: AQA. -/
  aqa : Nat := 0
  /-- W64 R231: ASQ. -/
  asq : Nat := 0
  /-- W64 R231: ACQ. -/
  acq : Nat := 0
  /-- R231: submission queues by ID. -/
  sqs : List (Nat × NvSq) := []
  /-- R231: completion queues by ID. -/
  cqs : List (Nat × NvCq) := []
  /-- R235: features. -/
  feats : Feats := {}
  /-- W16 R233: outstanding Asynchronous Event Requests, oldest first. -/
  aers : List Nat := []
  /-- W24 R231, R275: asynchronous events not yet reported: type, information and log page. -/
  events : List (Nat × Nat × Nat) := []
  /-- R236: Error Information log, newest first. -/
  errs : List ErrEntry := []
  /-- W64 R236: errors recorded. -/
  errCount : Nat := 0
  /-- W32 R236: Changed Namespace List. -/
  changed : List Nat := []
  /-- W3 R233: asynchronous event types masked until their log page is read. -/
  masked : List Nat := []
  /-- W8 R232 M: the I/O submission queue that was served last. -/
  lastSq : Nat := 0
  deriving DecidableEq, Repr

/-! ### Commands in flight (R232, R245 to R253, R269) -/

/-- How far a command has come. -/
inductive NvPhase
  /-- Fetched, not started. -/
  | fetched
  /-- Started: its data is being fetched, or its backend command is due. -/
  | started
  /-- Waiting for the cipher engine. -/
  | cipher
  /-- Waiting for an intent record. -/
  | intent
  /-- Backend commands are outstanding. -/
  | backend
  /-- Finished; waiting for its posting point. -/
  | done
  deriving DecidableEq, Repr

/-- A command in flight. -/
structure NvCmd where
  /-- W64 R232: fetch sequence number. -/
  seq : Nat := 0
  /-- W16 R229: FID of the controller. -/
  fid : Nat := 0
  /-- W16 R231: submission queue. -/
  sqid : Nat := 0
  /-- W16 R234: CID. -/
  cid : Nat := 0
  /-- W512 R233: submission queue entry. -/
  sqe : Nat := 0
  /-- W1 R245: ordered. -/
  ord : Bool := false
  /-- W2 R246: fused: 1 first half, 2 second half. -/
  fuse : Nat := 0
  /-- M R253: how far it has come. -/
  phase : NvPhase := .fetched
  /-- W15 R242: status field, without the phase tag. -/
  status : Nat := 0
  /-- W32 R252: dword 0 of the completion entry. -/
  dw0 : Nat := 0
  /-- W13 R262: volume; 4,096 for a command that names none. -/
  vol : Nat := 4096
  /-- W2 R239: LBA format and protection type it was fetched under. -/
  ns : Ns := {}
  /-- W34 R234: blocks: first LBA and count, one range but for Dataset Management. -/
  ranges : List (Nat × Nat) := []
  /-- M R265: data with its metadata, encrypted on a write. -/
  data : List Byte := []
  /-- W16 R265: protection information that the host sent. -/
  md : List Byte := []
  /-- R239: host memory of the data, in order: address and length. -/
  segs : List (Nat × Nat) := []
  /-- R239: host memory of separate metadata. -/
  msegs : List (Nat × Nat) := []
  /-- W8 R229 M: status code of a data or metadata pointer that breaks its form. -/
  bad : Option Nat := none
  /-- R269: blocks read, by their place in the command, as the backend holds them. -/
  parts : List (Nat × List Byte) := []
  /-- W3 R269: replicas of RMASK that have failed nothing. -/
  acked : List Nat := []
  /-- W1 R253: a backend command has been issued. -/
  sent : Bool := false
  /-- W64 R246: the other half of a fused pair. -/
  pair : Option Nat := none
  /-- W64 R253, R255: commands that post before it. -/
  after : List Nat := []
  /-- W16 R268: intent record held. -/
  intent : Option Nat := none
  /-- W32 R281, R283: Path Check Words of a write's blocks. -/
  pcws : List Nat := []
  /-- W1 R297: its cipher request has been reissued. -/
  retried : Bool := false
  /-- W1 R256: its controller was reset: it posts nothing. -/
  orphan : Bool := false
  deriving DecidableEq, Repr

/-- An entry of the range-lock table (R247). -/
structure Lock where
  /-- W64 R247: fetch sequence number that orders it. -/
  seq : Nat := 0
  /-- W12 R247: volume: the namespace, to whichever controllers it is attached. -/
  vol : Nat := 0
  /-- W35 R247: first LBA. -/
  lo : Nat := 0
  /-- W35 R247: LBA past the last. -/
  hi : Nat := 0
  /-- W1 R247: exclusive. -/
  excl : Bool := false
  deriving DecidableEq, Repr

/-! ### Volumes and backends (R262 to R275) -/

/-- A replica of a volume. -/
structure Replica where
  /-- W8 R262: backend. -/
  backend : Nat := 0
  /-- W64 R262: first backend LBA. -/
  start : Nat := 0
  /-- W2 R270: 0 in sync, 1 degraded, 2 rebuilding. -/
  state : Nat := 0
  deriving DecidableEq, Repr

/-- A volume (R262, R267, R274). -/
structure Volume where
  /-- W35 R262: blocks. -/
  size : Nat := 0
  /-- W16 R262: TENANT. -/
  tenant : Nat := 0
  /-- W18 R262: key slot. -/
  slot : Nat := 0
  /-- W64 R267: key check value. -/
  kcv : Nat := 0
  /-- W1 R271: READ_SPREAD. -/
  spread : Bool := false
  /-- W1 R273: AUTO_REBUILD. -/
  auto : Bool := false
  /-- R262: replicas. -/
  reps : List Replica := []
  /-- W3 R274: state. -/
  state : Nat := 0
  /-- W32 R268: generation. -/
  gen : Nat := 0
  /-- W14 R273 S: REBUILD_RATE in MB/s. -/
  rate : Nat := 1000
  /-- W2 R271: round-robin place of spread reads. -/
  rr : Nat := 0
  /-- W2 R274: the replica with the lowest index that was in sync at the failure. -/
  source : Nat := 0
  /-- W34 R272: blocks of the present record copied. -/
  copied : Nat := 0
  /-- W34 R273: rebuild cursor. -/
  cursor : Nat := 0
  /-- W64 R273 M: µs of the timebase before which no further chunk is copied. -/
  pace : Nat := 0
  /-- W34 R273: rebuild chunks in flight: first LBA and lock. -/
  chunks : List (Nat × Nat) := []
  /-- W2 R275: replicas whose initial Write Zeroes is outstanding. -/
  zeroing : List Nat := []
  deriving DecidableEq, Repr

/-- What a backend's Identify answers (R263). -/
structure BackInfo where
  /-- W64 R263: blocks of the namespace. -/
  blocks : Nat := 0
  /-- W1 R266: DLFEAT bits 2:0 read 001b. -/
  dealloc : Bool := false
  deriving DecidableEq, Repr

/-- The TCP connection of one of a backend's queues (R264). -/
structure Conn where
  /-- W16 R264: the device's TCP port. -/
  port : Nat := 0
  /-- W32 R264: TCP sequence number of the next byte sent. -/
  tx : Nat := 0
  /-- W18 R287: the check-value context of what it receives. -/
  ctx : Option Nat := none
  deriving DecidableEq, Repr

/-- A backend (R263, R264). -/
structure Backend where
  /-- W2 R264: state. -/
  state : Nat := 0
  /-- W128 R263: address. -/
  addr : Nat := 0
  /-- W1 R263: the address is IPv6. -/
  v6 : Bool := false
  /-- W16 R263: TCP port. -/
  port : Nat := 0
  /-- M R263: subsystem NQN. -/
  nqn : List Byte := []
  /-- W32 R263: namespace ID. -/
  nsid : Nat := 0
  /-- W8 R263: queue count. -/
  queues : Nat := 1
  /-- W8 R263: home pipeline; 0xFF for none named. -/
  home : Nat := 0xFF
  /-- R263: what it identified as. -/
  info : BackInfo := {}
  /-- W8 R10: Ethernet port by which its connections run. -/
  via : Nat := 0
  /-- W96 R264: addresses of the link, destination then source. -/
  macs : Nat := 0
  /-- W128 R264: the device's own address. -/
  own : Nat := 0
  /-- R264: its connections, one for each queue; none while it is not connected. -/
  conns : List Conn := []
  deriving DecidableEq, Repr

/-- What an outstanding backend command serves. -/
inductive BackFor
  /-- The command with this fetch sequence number. -/
  | cmd (seq : Nat)
  /-- The initial Write Zeroes of a volume. -/
  | init (vol : Nat)
  deriving DecidableEq, Repr

/-- An outstanding backend command (R269). -/
structure BackCmd where
  /-- W64 M: tag. -/
  tag : Nat := 0
  /-- W8 R263: backend. -/
  backend : Nat := 0
  /-- W2 R262: replica index. -/
  rep : Nat := 0
  /-- M R269: what it serves. -/
  for_ : BackFor := .init 0
  /-- M R269: the place of its first block in the command. -/
  off : Nat := 0
  /-- W34 R269: blocks. -/
  len : Nat := 0
  /-- W8 R269: opcode. -/
  op : Nat := 0
  /-- W64 R269: first backend LBA. -/
  lba : Nat := 0
  /-- M R269: a write's data, until it has gone out. -/
  data : List Byte := []
  /-- W1 R206: it has gone out; until then it waits for the storage owner. -/
  out : Bool := false
  /-- W32 R264: cells charged to the storage owner. -/
  cells : Nat := 0
  /-- W64 R264 M: µs of the timebase at which it went out. -/
  at_ : Nat := 0
  deriving DecidableEq, Repr

/-- An intent record (R268). -/
structure Intent where
  /-- W3 R268 S: RMASK. -/
  rmask : Nat := 0
  /-- W1 R268 S: ZERO. -/
  zero : Bool := false
  /-- W16 R268 S: VOL. -/
  vol : Nat := 0
  /-- W32 R268 S: GEN. -/
  gen : Nat := 0
  /-- W48 R268 S: SLBA. -/
  slba : Nat := 0
  /-- W32 R268 S: NLB. -/
  nlb : Nat := 0
  /-- W64 R268 S: TIME. -/
  time : Nat := 0
  /-- W32 R268 S: CRC. -/
  crc : Nat := 0
  deriving DecidableEq, Repr

/-- The 60 bytes of an OPEN record that its CRC covers (R268). -/
def Intent.body (r : Intent) : Nat :=
  pack [(2, 1), (3, r.rmask), (1, b2n r.zero), (10, 0), (16, r.vol), (32, r.gen), (48, r.slba), (16, 0), (32, r.nlb), (32, 0),
    (64, r.time)]

/-- The CRC that an OPEN record should hold: CRC-32C, whose parameters R279 gives, of bits 479:0 (R268). -/
def Intent.sum (r : Intent) : Nat := crcOf 0 (leBytes 60 r.body)

/-- The record is valid. -/
def Intent.good (r : Intent) : Bool := r.crc = r.sum

/-- The storage domain. -/
structure StorageState where
  /-- R229: controllers by FID; an unlisted one is at its reset values. -/
  ctrls : List (Nat × Ctrl) := []
  /-- R239: attached namespaces by FID × 65,536 + NSID. -/
  nss : List (Nat × Ns) := []
  /-- R232: commands in flight, in fetch order. -/
  cmds : List NvCmd := []
  /-- W64 R232: next fetch sequence number. -/
  nextSeq : Nat := 0
  /-- W24 R232 M: the queue that was fetched from last: its controller and its number. -/
  turn : Nat × Nat := (0, 0)
  /-- W8 R232 M: the commands taken from it in its turn. -/
  burst : Nat := 0
  /-- R247: the range-lock table, in order. -/
  locks : List Lock := []
  /-- R262: volumes by handle. -/
  vols : List (Nat × Volume) := []
  /-- R263: backends by number. -/
  backs : List (Nat × Backend) := []
  /-- R269: outstanding backend commands. -/
  bcmds : List BackCmd := []
  /-- W64 M: next tag. -/
  nextTag : Nat := 0
  /-- R268 S: OPEN intent records by number; an unlisted record is FREE. -/
  intents : List (Nat × Intent) := []
  /-- W6 R264 S: BACKEND_TIMEOUT in s. -/
  timeout : Nat := 8
  deriving DecidableEq, Repr

/-- What `SYS_RST_N` leaves: the configuration store's volume and backend records, and the intent log (R262, R268). -/
def StorageState.persist (s : StorageState) : StorageState :=
  { vols := s.vols, backs := s.backs, intents := s.intents, timeout := s.timeout }

end Sys2Proof.Machine
end

