-- ==== Sys2Proof/Machine/State.lean ====
section
/-! DEFINITION. The state of the device: plain data, every register, table, queue, counter and pin the spec gives it, the queue of
waiting commands, and the state right after reset. -/

namespace Sys2Proof.Machine

/-- What the device gives the outside, in the order it gives it. The log of outputs is the model's own field: it is how an
effect on the world outside the package is stated. -/
inductive Output
  /-- A memory write of a function: one TLP, under its requester ID (R64, R68). -/
  | hostWrite (fid rid addr : Nat) (bytes : List Byte)
  /-- A memory read of a function: one TLP, under its requester ID and its tag (R64, R68, R81). -/
  | hostRead (fid rid tag addr len : Nat)
  /-- An MSI-X message of a function's vector. -/
  | msix (fid vector : Nat)
  /-- A configuration completion. -/
  | cfgData (value : Nat)
  /-- Request Retry Status (R88). -/
  | cfgRetry
  /-- Unsupported Request (R77, R89). -/
  | unsupported (fid off : Nat)
  /-- Data of a read of a function's BAR. -/
  | barData (fid : Nat) (bytes : List Byte)
  /-- PME (R93). -/
  | pme (fid : Nat)
  /-- A frame sent by an Ethernet MAC, with its FCS, which is complemented where a Path Check Word did not match (R277, R284). -/
  | ethTx (port : Nat) (frame : List Byte) (fcs : Nat)
  /-- A pause or PFC frame: priorities mask and XOFF or XON (R52). -/
  | ethPause (port mask : Nat) (xoff : Bool)
  /-- A frame sent on MGMT0 (R58). -/
  | mgmt0Tx (frame : List Byte)
  /-- A connection attempt to a backend, for the subsystem and under the host NQN named (R263, R264). -/
  | connect (backend : Nat) (subNqn hostNqn : List Byte)
  /-- The connections to a backend are closed (R263). -/
  | disconnect (backend : Nat)
  /-- I3C acknowledge. -/
  | i3cAck
  /-- I3C NACK. -/
  | i3cNack
  /-- I3C data returned. -/
  | i3cData (bytes : List Byte)
  /-- In-band interrupt with its mandatory byte (R444). -/
  | i3cIbi (byte : Nat)
  /-- Hot-join request (R444). -/
  | i3cHotJoin
  /-- A chain frame sent to the next unit (R448). -/
  | chainTx (frame : BitVec 64)
  /-- An AVSBus voltage write, in 0.1 mV (R26). -/
  | avsWrite (vdd : Nat)
  /-- A data register as JTAG shifts it out. -/
  | jtag (value : Nat)
  /-- `PPS_OUT` (R470). -/
  | pps
  /-- A UART character accepted as console input (R458). -/
  | uartIn (char : Byte)
  deriving DecidableEq, Repr

/-- Which cumulative counter (R39, R63, R135, R170, R219). -/
inductive CtrKind
  | portRxFrames | portRxBytes | portTxFrames | portTxBytes | portFcs | portLength | portFec
  | portPauseRx | portPauseTx | portStormDrop | portMacsecDrop | portSaDrop | laneErrors | portLaneErrors
  | fnDrop | lapse | hold | govMissed | deadlineDrop | sliceOverrun | sampleOverwrite | periodMiss
  | snapshotInvalid | exportLoss | faultOverflow | eventLost | chainLinkError | chainCrcError | chainReserved
  | corrected | ingressDrop | reads
  | poolAdmitted | poolRefused | poolMarks | poolBp | poolOverrun
  | bpAsserted | queueDrop | queueIn | queueInBytes | queueOut | queueOutBytes | ownerRefused | ownerAdmitted | headroomOverrun
  | mirrorDrop | ecnMark | policed | policedBytes | puntDrop | punted | ruleHit | parseErr | depthStop | noMatch | fragments
  | engineOverrun | spoof | tblInsert | tblDelete | tblMove | tblFail | tblAged | tblRehashed | learnEvents | learnExcess
  | learnFallback | groupPkts | groupBytes | sprayLost | sprayLate | sprayCtxDrop | mfault | tenantCross | ucodeCorrected
  | counterPkts | counterBytes | engineBusy | telemLate | telemOver | pcwBad | digestErr | piErr | ckvOutOfSeq | ckvExhausted | intentBad
  | macsecLate | macsecBad | keyStoreBad | alarms | flowLost | backendCmd | backendErr | lockPause | intentWait
  | nvReadBlocks | nvWriteBlocks | nvReadCmds | nvWriteCmds
  deriving DecidableEq, Repr

/-- A cumulative counter: its kind and up to two indices. -/
structure Ctr where
  /-- M: which counter. -/
  kind : CtrKind
  /-- M: first index (port, FID, queue, pipeline …). -/
  a : Nat := 0
  /-- M: second index (priority, drop reason …). -/
  b : Nat := 0
  deriving DecidableEq, Repr

/-- Why a step stops. -/
inductive Fault
  /-- Raised by every meaning whose command is not well formed: an operand that does not fit its width, or a unit the device
  does not have. No such command can be sent, so this is safe. -/
  | malformed
  deriving DecidableEq, Repr

/-- Why a command has no meaning. -/
inductive Refusal
  /-- Raised by the arms of a command not modelled yet. Safe: nothing can be proved of it. -/
  | notModelled (mnemonic : String)
  deriving DecidableEq, Repr

/-- The state of the device. -/
structure State where
  /-- M: commands waiting, first in, first out. -/
  pending : List Instr := []
  /-- M R403: what the device as a whole is doing. -/
  phase : Phase := .inReset
  /-- R472: pins. -/
  pins : Pins := {}
  /-- W64 R18 S: device time in ns. -/
  time : Nat := 0
  /-- W64 R32 S: epochs of the free-running 1 µs tick. -/
  tick : Nat := 0
  /-- W1 R361: timebase locked to PPS. -/
  ppsLocked : Bool := false
  /-- W1 R361: timebase locked to PTP. -/
  ptpLocked : Bool := false
  /-- R22 to R37: governor and arbiter. -/
  pow : Power := {}
  /-- R421 to R429: domains and fault log. -/
  flt : FaultState := {}
  /-- R434 to R440: Regrowth and wear. -/
  wear : Wear := {}
  /-- R390, R391: OTP and eMRAM. -/
  nv : Nvm := {}
  /-- R343, R403: the Eft and boot state. -/
  eft : Eft := {}
  /-- W3 R46: octet modes in force; an unlisted octet is `ETH`. -/
  octMode : List (Nat × Nat) := []
  /-- R60: lanes by number; an unlisted lane is at its reset values. -/
  lanes : List (Nat × Lane) := []
  /-- R48: Ethernet ports by port number. -/
  ports : List (Nat × EthPort) := []
  /-- R64: host ports by number; an unlisted port is at its reset values. -/
  hps : List (Nat × HostPort) := []
  /-- R67: functions by FID. -/
  fns : List (Nat × Fn) := []
  /-- R70: unprovisioned VFs that software has written, by port × 4096 + PF × 2048 + VF number. -/
  unprov : List (Nat × Unprov) := []
  /-- R344: function mailboxes by FID; an unlisted one is at its reset values. -/
  mbxs : List (Nat × Mailbox) := []
  /-- R344: the Board mailbox. -/
  boardMbx : Mailbox := { state := 1 }
  /-- R366: allotments by port. -/
  allots : List (Nat × Allot) := []
  /-- R75: window entries by port × 256 + index. -/
  wins : List (Nat × Win) := []
  /-- W8 R372 S: exchange pages by FID × 4096 + offset. -/
  exch : List Host.Cell := []
  /-- R84, R87: commands started whose mailbox has been reset since: they run to their end and answer nobody. -/
  ghosts : List (MbxId × Wait) := []
  /-- W8 R75: HBM and SRAM window targets and partition regions, by TGT_TYPE × 2⁴⁸ + address. -/
  region : List Host.Cell := []
  /-- R81: outstanding non-posted requests. -/
  reads : List Read := []
  /-- R17, R118 to R227: the packet domain. -/
  pkt : PacketState := {}
  /-- R228 to R275: the storage domain. -/
  sto : StorageState := {}
  /-- R276 to R309: check values, cipher engine and key store. -/
  cip : CipherState := {}
  /-- R311 to R342: the service domain. -/
  skk : SkinkState := {}
  /-- R376 to R381: meters. -/
  meter : Meter := {}
  /-- W32 R387: migration key slot. -/
  migKey : Option Nat := none
  /-- W64 R388: the SAVE_IDs last restored, newest first, 4,096 at most. -/
  migSaves : List Nat := []
  /-- R441: I3C target. -/
  i3c : I3c := {}
  /-- R446: Spawn Chain interface. -/
  chain : Chain := {}
  /-- R459: debug port. -/
  dbg : Debug := {}
  /-- W64 R39 S: cumulative counters; an unlisted one is 0. -/
  ctr : List (Ctr × Nat) := []
  /-- M: the next free value. -/
  free : Nat := 0
  /-- M: what the device has given the outside, oldest first. -/
  out : List Output := []
  deriving DecidableEq, Repr

/-- The machine right after reset: a new device whose rails and clocks are up, with `SYS_RST_N` held low. Every register is at the
value its rule gives for reset, or at the value that the assumption log names. -/
def State.reset : State := {}

end Sys2Proof.Machine
end

