-- ==== Sys2Proof/WellFormed.lean ====
section
/-! DEFINITION. Which commands are well formed: every operand fits the width the spec gives it, and every unit named exists.
A value that fits its width but that the spec refuses is well formed: its refusal is the command's effect. One check for each
command, and their collection. -/

namespace Sys2Proof

def wfSysRstNAssert : Bool := true
def wfSysRstNRelease (_chnHead _bootRecoveryN : Bool) (ownerStrap : Nat) : Bool := ownerStrap < 32
def wfPwrOkRise : Bool := true
def wfPwrOkFall : Bool := true
def wfAlarmNAssert (_ns : Nat) (_stillLow : Bool) : Bool := true
def wfSupplyGlitch (_rail : GuardedRail) (_permille _ns : Nat) : Bool := true
def wfTjThresholdCross (sensor : Nat) (_tj : Nat) : Bool := sensor < 64
def wfWakeNAssert (_ns : Nat) : Bool := true
def wfPpsInEdge : Bool := true
def wfPtpStep (_delta : Int) : Bool := true
def wfArbiterEpoch (core sds : List EpochReq) (_coreNow _sdsNow : Nat) : Bool :=
  core.all (fun r => r.consumer.exists && !r.consumer.onSds) && sds.all (fun r => r.consumer.exists && r.consumer.onSds)
def wfHardLimitCross (_sdsRail : Bool) (_now : Nat) : Bool := true
def wfGovernorPeriod (_late : Bool) : Bool := true
def wfAvsWriteDone (_ok : Bool) : Bool := true
def wfSensorWindow (cluster : Bool) (unit _rate : Nat) : Bool := unit < (if cluster then 16 else 10)
def wfStallWatchdogFire (dom : HsDom) (stall : Stall) : Bool := dom.dom.exists && dom.part < 2 ^ 16 && stall.stage < 2 ^ 32
def wfInvalidCodeword (dom : HsDom) (stage : Nat) : Bool := dom.dom.exists && dom.part < 2 ^ 16 && stage < 2 ^ 32
def wfClearSelftestDone (dom : Dom) (_pass : Bool) : Bool := dom.exists
def wfProbationEnd (dom : Dom) : Bool := dom.exists
def wfCheckerSelftest (dom : Dom) (_checker : Nat) (_flagged : Bool) : Bool := dom.exists
def wfScrubStep (_mem : ScrubMem) (_unit _addr : Nat) (_found : ScrubResult) : Bool := true
def wfEftLockstepMismatch (_stage : Nat) : Bool := true
def wfEftRestartDone : Bool := true
def wfWearEvaluation (kind _unit corr _word _row stall : Nat) (_held24 : Bool) : Bool := kind < 7 && corr < 2 ^ 32 && stall < 2 ^ 16
def wfAgeHour (_tjMax : Int) : Bool := true
def wfRegrowthDone (kind : Nat) (_ok : Bool) : Bool := kind < 7
def wfLaneBerWindow (lane _ber10s _ber10min : Nat) : Bool := lane < 144
def wfLinkTrainingDone (port : Nat) (_ok : Bool) (failed : Nat) : Bool := port < 144 && failed < 256
def wfReformTimeout (port : Nat) : Bool := port < 144
def wfLinkLoss (port : Nat) : Bool := port < 144
def wfEthFrameReceive (port : Nat) (_frame : List Byte) (_fcs : BitVec 32) (_fecOk : Bool) : Bool := port < 144
def wfPauseFrameReceive (port : Nat) (_pfc : Bool) (mask : Nat) (quanta : List Nat) : Bool := port < 144 && mask < 256 && quanta.length ≤ 8 && quanta.all (· < 65536)
def wfPauseQuantaExpire (port prio : Nat) : Bool := port < 144 && prio < 8
def wfPauseStormLimit (port prio : Nat) : Bool := port < 144 && prio < 8
def wfPauseStormClear (port prio : Nat) : Bool := port < 144 && prio < 8
def wfMgmt0FrameReceive (_frame : List Byte) (_fcs : BitVec 32) : Bool := true
def wfPipelineHeaderAccept (turn : PipeTurn) : Bool := turn.pipe < 9
def wfMicroword (turn : PipeTurn) (engine : Nat) (_ecc : WordEcc) : Bool := turn.pipe < 9 && engine < 32
def wfMicrocodeOpComplete (turn : PipeTurn) (_ctx kind : Nat) : Bool := turn.pipe < 9 && kind < 6
def wfSprayReseqTimeout (unit stream : Nat) : Bool := unit < 256 && stream < 65536
def wfSprayContextIdle (unit stream : Nat) : Bool := unit < 256 && stream < 65536
def wfFlowletGapExpire (group pipe bucket : Nat) : Bool := group < 16384 && pipe < 9 && bucket < 512
def wfLbImbalanceWindow (group : Nat) : Bool := group < 16384
def wfAgingSlice (table pipe : Nat) (_examined : Option Nat) : Bool := (table = 2 || table = 3) && pipe < 9
def wfLearnServiceEvent (pipe : Nat) : Bool := pipe < 9
def wfRehashDone (table pipe : Nat) : Bool := (table = 0 || table = 2 || table = 3) && pipe < 9
def wfEgressSchedule (l0 : Nat) (_bufs : List (BitVec 128)) (_pcwOk _composed : Bool) : Bool := l0 < 176
def wfDeadlineHeadCheck (queue : Nat) : Bool := queue < 131072
def wfQueueTelemetrySample (ring consumer _inTime : Nat) : Bool := ring < 16 && consumer < 2 ^ 64
def wfMinuteBoundary : Bool := true
def wfMeterExport (_lost : List Nat) : Bool := true
def wfTimedLeapTrigger (spread : Nat) : Bool := spread ≤ 2000
def wfPadWriteResume (_mbx : MbxId) (_timedOut : Bool) : Bool := true
def wfPcieConfigRequest (fn : FnRef) (reg : CfgReg) (bus : Nat) (_write : Bool) (value : Nat) : Bool := fn.ok && reg.ok && bus < 256 && value < 2 ^ 32
def wfBmeClear (fid : Nat) : Bool := fid < 65536
def wfMseClear (fid : Nat) : Bool := fid < 65536
def wfFlr (fid : Nat) : Bool := fid < 65536
def wfVfEnableSet (fid numVfs : Nat) : Bool := fid < 65536 && numVfs ≤ 1024
def wfVfEnableClear (fid : Nat) : Bool := fid < 65536
def wfD3hotEnter (fid : Nat) : Bool := fid < 65536
def wfD0Return (fid : Nat) : Bool := fid < 65536
def wfD3coldEnter (port : Nat) : Bool := port < 32
def wfHpPerstNAssert (port _ns : Nat) : Bool := port < 32
def wfHpPerstNDeassert (port : Nat) : Bool := port < 32
def wfHotReset (port : Nat) : Bool := port < 32
def wfDlUp (port width gt : Nat) (_flit : Bool) : Bool := port < 32 && [1, 2, 4, 8, 16].contains width && [2, 5, 8, 16, 32, 64, 128].contains gt
def wfL1Enter (port : Nat) (_aspm : Bool) : Bool := port < 32
def wfMsixUnmask (fid vector : Nat) : Bool := fid < 65536 && vector < 2048
def wfBar4WindowTlp (fid off len : Nat) (write : Bool) (data : List Byte) (_stalled : Bool) : Bool := fid < 65536 && off < 2 ^ 36 && 0 < len && len ≤ 4096 && (!write || data.length = len)
def wfPcieReadCompletion (port tag : Nat) (_data : Option (List Byte)) : Bool := port < 32 && tag < 16384
def wfCompletionTimeout (port tag : Nat) : Bool := port < 32 && tag < 16384
def wfRingEnable (fid ring value : Nat) : Bool := fid < 65536 && ring < 16320 && value < 2 ^ 32
def wfRingDisable (fid ring value : Nat) : Bool := fid < 65536 && ring < 16320 && value < 2 ^ 32
def wfRingReset (fid ring : Nat) : Bool := fid < 65536 && ring < 16320
def wfRingDb (fid ring : Nat) (_composed : Bool) : Bool := fid < 65536 && ring < 16320
def wfIndexWordReadDone (fid : Nat) (of : IdxOf) (q : Nat) : Bool := fid < 65536 && of.ok && q < 2 ^ 32
def wfHostTxPacket (fid ring : Nat) (descs : List (BitVec 256)) (_data : List Byte) (_composed : Bool) : Bool := fid < 65536 && ring < 16320 && 0 < descs.length && descs.length ≤ 16
def wfCplCi (fid ring c : Nat) : Bool := fid < 65536 && ring < 16320 && c < 2 ^ 32
def wfCplModTimerExpire (fid ring : Nat) : Bool := fid < 65536 && ring < 16320
def wfFnCtlUnfence (fid : Nat) : Bool := fid < 65536
def wfRegisterWrite (fn : FnRef) (bar off _size value : Nat) : Bool := fn.ok && bar < 6 && off < 2 ^ 36 && value < 2 ^ 64
def wfMbxEnable (fid value : Nat) : Bool := fid < 65536 && value < 2 ^ 32
def wfMbxDisable (fid value : Nat) : Bool := fid < 65536 && value < 2 ^ 32
def wfMbxDb (fid value _size : Nat) (_composed : Bool) : Bool := fid < 65536 && value < 2 ^ 64
def wfMbxHeadlessAnswer (_mbx : MbxId) : Bool := true
def wfUnassignedOpcode (_x : XCall) : Bool := true
def wfDevInfo (_x : XCall) : Bool := true
def wfDevCaps (_x : XCall) : Bool := true
def wfDevTimeGet (_x : XCall) : Bool := true
def wfDevTimeSet (_x : XCall) (mode value : Nat) : Bool := mode < 256 && value < 2 ^ 64
def wfDevReset (_x : XCall) (kind port : Nat) : Bool := kind < 256 && port < 256
def wfPortConfig (_x : XCall) (p : PortCfg) : Bool := p.ok
def wfPortState (_x : XCall) (port : Nat) : Bool := port < 65536
def wfPortStats (_x : XCall) (port form : Nat) : Bool := port < 65536 && form < 256
def wfLaneDiag (_x : XCall) (lane func pattern : Nat) (_measured : List Nat) : Bool := lane < 256 && func < 256 && pattern < 256
def wfOctetMode (_x : XCall) (octet mode : Nat) (_floors : Nat) : Bool := octet < 256 && mode < 256
def wfAllotSet (_x : XCall) (port tenant tenBase tenCount : Nat) (counts : List Nat) : Bool := port < 256 && tenant < 65536 && tenBase < 65536 && tenCount < 65536 && counts.length = 14 && counts.all (· < 2 ^ 32)
def wfAllotGet (_x : XCall) (port : Nat) : Bool := port < 256
def wfFnCreate (_x : XCall) (port pf vf : Nat) (counts : List Nat) : Bool := port < 256 && pf < 256 && vf < 65536 && counts.length = 11 && counts.all (· < 2 ^ 32)
def wfFnDestroy (_x : XCall) (fid : Nat) : Bool := fid < 65536
def wfFnQuery (_x : XCall) (fid : Nat) : Bool := fid < 65536
def wfTenantBind (_x : XCall) (fid tenant : Nat) : Bool := fid < 65536 && tenant < 65536
def wfWindowSet (_x : XCall) (w : WinCfg) : Bool := w.ok
def wfWindowRetire (_x : XCall) (port index : Nat) : Bool := port < 256 && index < 256
def wfWindowDrainDone (port index : Nat) : Bool := port < 32 && index < 256
def wfWindowRetireTimeout (port index : Nat) : Bool := port < 32 && index < 256
def wfTblInsert (_x : XCall) (table pipes index : Nat) (entry : TblEntry) : Bool := table < 256 && pipes < 65536 && index < 2 ^ 32 && entry.ok table
def wfTblDelete (_x : XCall) (table pipes index : Nat) (entry : TblEntry) : Bool := table < 256 && pipes < 65536 && index < 2 ^ 32 && entry.ok table
def wfTblLookup (_x : XCall) (table pipe index : Nat) (entry : TblEntry) : Bool := table < 256 && pipe < 256 && index < 2 ^ 32 && entry.ok table
def wfTblIter (_x : XCall) (table pipe form filter value cursor : Nat) : Bool := table < 256 && pipe < 256 && form < 256 && filter < 256 && value < 2 ^ 32 && cursor < 2 ^ 64
def wfTblFlush (_x : XCall) (table pipes filter value : Nat) : Bool := table < 256 && pipes < 65536 && filter < 256 && value < 2 ^ 32
def wfTblRehash (_x : XCall) (table pipe : Nat) : Bool := table < 256 && pipe < 256
def wfLearnConfig (_x : XCall) (src srcHost excess share limit : Nat) : Bool := src < 65536 && srcHost < 256 && excess < 256 && share < 256 && limit < 2 ^ 32
def wfAgingConfig (_x : XCall) (table pipes ageS sliceUs entries : Nat) : Bool := table < 256 && pipes < 65536 && ageS < 2 ^ 32 && sliceUs < 2 ^ 32 && entries < 2 ^ 32
def wfLbGroupSet (_x : XCall) (group record : Nat) (members : List Nat) : Bool := group < 65536 && record < 2 ^ 32 && members.all (· < 2 ^ 32)
def wfLbMonitor (_x : XCall) (group op ratio windows rotate : Nat) : Bool := group < 65536 && op < 256 && ratio < 256 && windows < 65536 && rotate < 256
def wfParseDepthSet (_x : XCall) (port : Nat) (_record : BitVec 128) : Bool := port < 65536
def wfPortDefaultSet (_x : XCall) (port : Nat) (_action : BitVec 64) : Bool := port < 65536
def wfRuleWrite (_x : XCall) (pipes kind slot : Nat) (_entry : BitVec 1536) : Bool := pipes < 65536 && kind < 256 && slot < 65536
def wfRuleClear (_x : XCall) (pipes kind slot : Nat) : Bool := pipes < 65536 && kind < 256 && slot < 65536
def wfRuleRead (_x : XCall) (pipe pad kind slot : Nat) : Bool := pipe < 256 && pad < 256 && kind < 256 && slot < 65536
def wfUcodeLoad (_x : XCall) (u : UcodeReq) : Bool := u.ok
def wfUcodeKeyEnrol (_x : XCall) (index op : Nat) (key : List Byte) : Bool := index < 256 && op < 256 && key.length = 96
def wfUcodeInfo (_x : XCall) (pipe pad : Nat) : Bool := pipe < 256 && pad < 256
def wfUcodePatchState (_x : XCall) (pipe pad : Nat) : Bool := pipe < 256 && pad < 256
def wfPadCopy (_x : XCall) : Bool := true
def wfPadLeap (_x : XCall) (mode expect time : Nat) : Bool := mode < 256 && expect < 65536 && time < 2 ^ 64
def wfPadState (_x : XCall) : Bool := true
def wfPadDiscard (_x : XCall) : Bool := true
def wfPoolConfig (_x : XCall) (pool : Nat) (_record : BitVec 64) : Bool := pool < 256
def wfReserveSet (_x : XCall) (okind pool lossless id min headroom : Nat) : Bool := okind < 256 && pool < 256 && lossless < 256 && id < 2 ^ 32 && min < 2 ^ 32 && headroom < 2 ^ 32
def wfPolicerSet (_x : XCall) (index : Nat) (_record : BitVec 256) : Bool := index < 2 ^ 32
def wfShaperSet (_x : XCall) (level resetTo node cir cbs pir pbs : Nat) : Bool := level < 256 && resetTo < 256 && node < 2 ^ 32 && cir < 2 ^ 32 && cbs < 2 ^ 32 && pir < 2 ^ 32 && pbs < 2 ^ 32
def wfQueueMap (_x : XCall) (q : QMap) : Bool := q.ok
def wfQueueSampleConfig (_x : XCall) (ring log2 interval count ringAddr indexAddr : Nat) (queues : List Nat) : Bool := ring < 256 && log2 < 256 && interval < 65536 && count < 65536 && ringAddr < 2 ^ 64 && indexAddr < 2 ^ 64 && queues.length = count && queues.all (· < 2 ^ 32)
def wfQueueStats (_x : XCall) (queue : Nat) : Bool := queue < 2 ^ 32
def wfVolCreate (_x : XCall) (handle tenant slot size opts : Nat) (reps : List (Nat × Nat)) : Bool := handle < 65536 && tenant < 65536 && slot < 2 ^ 32 && size < 2 ^ 64 && opts < 256 && reps.length < 256 && reps.all (fun r => r.1 < 65536 && r.2 < 2 ^ 64)
def wfVolDestroy (_x : XCall) (handle : Nat) : Bool := handle < 65536
def wfVolAttach (_x : XCall) (handle fid nsid format pitype rebuild : Nat) : Bool := handle < 65536 && fid < 65536 && nsid < 65536 && format < 256 && pitype < 256 && rebuild < 256
def wfVolDetach (_x : XCall) (handle fid : Nat) : Bool := handle < 65536 && fid < 65536
def wfBackendAdd (_x : XCall) (c : BackCfg) (found : BackFound) : Bool := c.ok && found.link.all (·.ok)
def wfBackendState (_x : XCall) (backend : Nat) : Bool := backend < 65536
def wfVolReconcileState (_x : XCall) (handle : Nat) : Bool := handle < 65536
def wfKeyLoad (_x : XCall) (slot wrapSlot type usage tenant : Nat) (_material : List Byte) : Bool := slot < 2 ^ 32 && wrapSlot < 2 ^ 32 && type < 256 && usage < 256 && tenant < 65536
def wfKeyErase (_x : XCall) (slot : Nat) : Bool := slot < 2 ^ 32
def wfKeyEraseComplete (slot : Nat) : Bool := slot < 262144
def wfSaCreate (_x : XCall) (c : SaCfg) : Bool := c.ok
def wfSaState (_x : XCall) (sa : Nat) : Bool := sa < 2 ^ 32
def wfAlarmState (_x : XCall) : Bool := true
def wfAlarmClear (_x : XCall) : Bool := true
def wfKekRotate (_x : XCall) : Bool := true
def wfKekRotationDone : Bool := true
def wfCipherRequestComplete (_req : Nat) (_hwFault : Bool) (_pcw : PcwSeen) : Bool := true
def wfCipherBusyTimeout (_turn : ReqTurn) : Bool := true
def wfKeyCacheFill (read : SlotRead) : Bool := read.slot < 262144
def wfPartCreate (_x : XCall) (form cluster cores action tenant clusters channels handles sentinelMs regionMib : Nat) : Bool := form < 256 && cluster < 256 && cores < 256 && action < 256 && tenant < 65536 && clusters < 65536 && channels < 65536 && handles < 65536 && sentinelMs < 65536 && regionMib < 2 ^ 32
def wfPartDestroy (_x : XCall) (part : Nat) : Bool := part < 256
def wfImageLoad (_x : XCall) (part : Nat) (_image : List Byte) : Bool := part < 256
def wfPartStart (_x : XCall) (part : Nat) : Bool := part < 256
def wfPartStop (_x : XCall) (part : Nat) : Bool := part < 256
def wfDebugAttach (_x : XCall) (part op : Nat) : Bool := part < 256 && op < 256
def wfMeterRead (_x : XCall) (form tenant index : Nat) : Bool := form < 256 && tenant < 65536 && index < 2 ^ 32
def wfMeterExportConfig (_x : XCall) (c : ExportCfg) : Bool := c.ok
def wfTelemConfig (_x : XCall) (intervalMs log2 ringAddr indexAddr : Nat) : Bool := intervalMs < 65536 && log2 < 256 && ringAddr < 2 ^ 64 && indexAddr < 2 ^ 64
def wfEventSubscribe (_x : XCall) (mask log2 vector ringAddr indexAddr : Nat) : Bool := mask < 2 ^ 32 && log2 < 256 && vector < 65536 && ringAddr < 2 ^ 64 && indexAddr < 2 ^ 64
def wfFwStage (_x : XCall) (slot offset total : Nat) (_data : List Byte) : Bool := slot < 256 && offset < 2 ^ 32 && total < 2 ^ 32
def wfFwActivate (_x : XCall) (type slot trial : Nat) : Bool := type < 256 && slot < 256 && trial < 256
def wfFwActivateDrainDone : Bool := true
def wfFwActivateDrainTimeout : Bool := true
def wfFwState (_x : XCall) : Bool := true
def wfTrialConfirm : Bool := true
def wfTrialTimerExpire : Bool := true
def wfKeyRevoke (_x : XCall) (index : Nat) : Bool := index < 256
def wfAttestQuote (_x : XCall) (nonce : List Byte) : Bool := nonce.length = 32
def wfBaskEnter (_x : XCall) : Bool := true
def wfBaskDrainDone : Bool := true
def wfBaskDrainTimeout (_us : Nat) : Bool := true
def wfFaultLogRead (_x : XCall) (seqFrom : Nat) : Bool := seqFrom < 2 ^ 64
def wfFaultClear (_x : XCall) (seq : Nat) : Bool := seq < 2 ^ 64
def wfRegrowState (_x : XCall) : Bool := true
def wfRegrowStart (_x : XCall) (kind unit : Nat) : Bool := kind < 256 && unit < 65536
def wfWearReport (_x : XCall) : Bool := true
def wfPowerBudgetSet (_x : XCall) (core coreHard sds sdsHard packageW : Nat) (note : BudgetNote) : Bool := core < 2 ^ 32 && coreHard < 2 ^ 32 && sds < 2 ^ 32 && sdsHard < 2 ^ 32 && packageW < 2 ^ 32 && note.lend.all (fun l => l.dest < 16 && l.credits < 2 ^ 16)
def wfPowerState (_x : XCall) : Bool := true
def wfGovernorSet (_x : XCall) (margin stepUpMv stepDownHalfMv vminMv vmaxMv periodUs holdDown : Nat) : Bool := margin < 256 && stepUpMv < 256 && stepDownHalfMv < 256 && vminMv < 65536 && vmaxMv < 65536 && periodUs < 65536 && holdDown < 65536
def wfMigDirtyStart (_x : XCall) (fid len bitmap : Nat) : Bool := fid < 65536 && len < 2 ^ 32 && bitmap < 2 ^ 64
def wfMigDirtyStop (_x : XCall) (fid : Nat) : Bool := fid < 65536
def wfDirtyBitWrite (fid _page : Nat) : Bool := fid < 65536
def wfMigFreeze (_x : XCall) (fid : Nat) : Bool := fid < 65536
def wfMigFreezeDrainDone (fid : Nat) : Bool := fid < 65536
def wfMigFreezeTimeout (fid : Nat) : Bool := fid < 65536
def wfMigSave (_x : XCall) (fid : Nat) : Bool := fid < 65536
def wfMigRestore (_x : XCall) (fid : Nat) (_blob : List Byte) : Bool := fid < 65536
def wfMigThaw (_x : XCall) (fid : Nat) : Bool := fid < 65536
def wfMigKeySet (_x : XCall) (slot : Nat) : Bool := slot < 2 ^ 32
def wfChainState (_x : XCall) : Bool := true
def wfChainSend (_x : XCall) (dest len : Nat) (_data : List Byte) : Bool := dest < 256 && len < 65536
def wfChainSendTimeout : Bool := true
def wfCkvCtxRead (_x : XCall) (index : Nat) : Bool := index < 2 ^ 32
def wfCkvCtxWrite (_x : XCall) (index : Nat) (_context : BitVec 256) : Bool := index < 2 ^ 32
def wfVfExchNotify (fid value : Nat) : Bool := fid < 65536 && value < 2 ^ 32
def wfPfExchNotify (fid value : Nat) : Bool := fid < 65536 && value < 2 ^ 32
def wfExchPendClear (fid index value : Nat) : Bool := fid < 65536 && index < 64 && value < 2 ^ 32
def wfRcvOwnerWrite (value : Nat) : Bool := value < 2 ^ 32
def wfNvmeCcEnable (fn : FnRef) (value : Nat) : Bool := fn.ok && value < 2 ^ 32
def wfNvmeCcDisable (fn : FnRef) (value : Nat) : Bool := fn.ok && value < 2 ^ 32
def wfNvmeCcShutdown (fn : FnRef) (value : Nat) : Bool := fn.ok && value < 2 ^ 32
def wfNvmeSqDoorbell (fid qid value : Nat) : Bool := fid < 65536 && qid < 65536 && value < 2 ^ 32
def wfNvmeCqDoorbell (fid qid value : Nat) : Bool := fid < 65536 && qid < 65536 && value < 2 ^ 32
def wfNvmeCommandFetch (fid qid : Nat) (_sqe : BitVec 512) (_lists : List (List Byte)) (_mdList : List Byte) (ranges : List (Nat × Nat)) (_composed : Bool) : Bool := fid < 65536 && qid < 65536 && ranges.length ≤ 256 && ranges.all (fun r => r.1 < 2 ^ 64 && r.2 < 2 ^ 32)
def wfNvmeCommandStart (fid qid : Nat) (cmd : Posting) : Bool := fid < 65536 && qid < 65536 && cmd.cid < 65536
def wfNvmePostingPoint (fid qid : Nat) (entry : Posting) : Bool := fid < 65536 && qid < 65536 && entry.cid < 65536
def wfNvmeDeleteIoSq (fid cid : Nat) : Bool := fid < 65536 && cid < 65536
def wfNvmeCreateIoSq (fid cid : Nat) : Bool := fid < 65536 && cid < 65536
def wfNvmeGetLogPage (fid cid : Nat) : Bool := fid < 65536 && cid < 65536
def wfNvmeDeleteIoCq (fid cid : Nat) : Bool := fid < 65536 && cid < 65536
def wfNvmeCreateIoCq (fid cid : Nat) : Bool := fid < 65536 && cid < 65536
def wfNvmeIdentify (fid cid : Nat) : Bool := fid < 65536 && cid < 65536
def wfNvmeAbort (fid cid : Nat) : Bool := fid < 65536 && cid < 65536
def wfNvmeSetFeatures (fid cid : Nat) : Bool := fid < 65536 && cid < 65536
def wfNvmeGetFeatures (fid cid : Nat) : Bool := fid < 65536 && cid < 65536
def wfNvmeAsyncEventRequest (fid cid : Nat) : Bool := fid < 65536 && cid < 65536
def wfNvmeAdminUnsupported (fid cid : Nat) : Bool := fid < 65536 && cid < 65536
def wfNvmeFlush (fid qid cid : Nat) : Bool := fid < 65536 && qid < 65536 && cid < 65536
def wfNvmeWrite (fid qid cid : Nat) (_data _md : List Byte) : Bool := fid < 65536 && qid < 65536 && cid < 65536
def wfNvmeRead (fid qid cid : Nat) : Bool := fid < 65536 && qid < 65536 && cid < 65536
def wfNvmeCompare (fid qid cid : Nat) (_data _md : List Byte) : Bool := fid < 65536 && qid < 65536 && cid < 65536
def wfNvmeWriteZeroes (fid qid cid : Nat) : Bool := fid < 65536 && qid < 65536 && cid < 65536
def wfNvmeDatasetManagement (fid qid cid : Nat) : Bool := fid < 65536 && qid < 65536 && cid < 65536
def wfNvmeFusedCompareWrite (fid qid cid : Nat) (_data _md _wdata _wmd : List Byte) : Bool := fid < 65536 && qid < 65536 && cid < 65536
def wfNvmeIoUnsupported (fid qid cid : Nat) : Bool := fid < 65536 && qid < 65536 && cid < 65536
def wfIntentRecordTake (fid qid cid : Nat) : Bool := fid < 65536 && qid < 65536 && cid < 65536
def wfBackendResponse (_tag : Nat) (_good : Bool) (_data : List Byte) : Bool := true
def wfBackendPduReceive (backend : Nat) (pdu : PduIn) : Bool := backend < 256 && pdu.port < 144 && pdu.seq < 2 ^ 32
def wfBackendTimeout (backend : Nat) : Bool := backend < 256
def wfBackendConnectionLost (backend : Nat) : Bool := backend < 256
def wfBackendReconnect (backend : Nat) (link : Option Link) : Bool := backend < 256 && link.all (·.ok)
def wfReconcileChunkDone (vol failed : Nat) (_data : List Byte) : Bool := vol < 4096 && failed < 8
def wfRebuildChunkDone (vol _lba failed : Nat) (_data : List Byte) : Bool := vol < 4096 && failed < 8
def wfChWr (tid idx word : Nat) : Bool := tid < 1024 && idx < 8 && word < 2 ^ 64
def wfChCmt (tid chan n rd : Nat) (_nb : Bool) : Bool := tid < 1024 && chan < 65536 && 1 ≤ n && n ≤ 8 && rd < 32
def wfChCmtResume (tid : Nat) : Bool := tid < 1024
def wfChRd (tid chan rd : Nat) : Bool := tid < 1024 && chan < 65536 && rd < 32
def wfChTry (tid chan rd : Nat) : Bool := tid < 1024 && chan < 65536 && rd < 32
def wfChWaitany (tid base mask rd : Nat) : Bool := tid < 1024 && base < 65536 && mask < 2 ^ 64 && rd < 32
def wfChannelWaitWake (tid : Nat) : Bool := tid < 1024
def wfFork (tid entry arg rd : Nat) : Bool := tid < 1024 && entry < 2 ^ 64 && arg < 2 ^ 64 && rd < 32
def wfJoin (tid target rd : Nat) : Bool := tid < 1024 && target < 2 ^ 64 && rd < 32
def wfThreadExit (tid value : Nat) : Bool := tid < 1024 && value < 2 ^ 64
def wfTrelease (tid target : Nat) : Bool := tid < 1024 && target < 2 ^ 64
def wfTreset (tid target : Nat) : Bool := tid < 1024 && target < 2 ^ 64
def wfXtirzuIllegal (tid epc instr : Nat) (_vectored : Bool) : Bool := tid < 1024 && epc < 2 ^ 64 && instr < 2 ^ 32
def wfThreadControlCsr (tid csr : Nat) (_write : Bool) (value rd : Nat) : Bool := tid < 1024 && (csr = 0xDC0 || (0x5C0 ≤ csr && csr ≤ 0x5C6)) && value < 2 ^ 64 && rd < 32
def wfChannelEntryWrite (tid chan half value : Nat) : Bool := tid < 1024 && chan < 65536 && half < 2 && value < 2 ^ 64
def wfEcallCustomer (tid epc tval : Nat) : Bool := tid < 1024 && epc < 2 ^ 64 && tval < 2 ^ 64
def wfThreadFault (tid code epc tval addr : Nat) : Bool := tid < 1024 && code < 256 && epc < 2 ^ 64 && tval < 2 ^ 64 && addr < 2 ^ 64
def wfCipherSubmit (tid : Nat) (_request : BitVec 512) : Bool := tid < 1024
def wfCopyOut (tid handle addr len off : Nat) : Bool := tid < 1024 && handle < 2 ^ 32 && addr < 2 ^ 64 && len < 16384 && off < 16384
def wfCopyMeta (tid handle addr : Nat) : Bool := tid < 1024 && handle < 2 ^ 32 && addr < 2 ^ 64
def wfFree (tid handle : Nat) : Bool := tid < 1024 && handle < 2 ^ 32
def wfInjectHandle (tid handle pipe port : Nat) : Bool := tid < 1024 && handle < 2 ^ 32 && pipe < 16 && port < 256
def wfInjectBuffer (tid addr len pipe port : Nat) : Bool := tid < 1024 && addr < 2 ^ 64 && len < 16384 && pipe < 16 && port < 256
def wfContextHold (tid index : Nat) : Bool := tid < 1024 && index < 2 ^ 32
def wfContextRelease (tid index : Nat) : Bool := tid < 1024 && index < 2 ^ 32
def wfContextRead (tid index : Nat) : Bool := tid < 1024 && index < 2 ^ 32
def wfContextWrite (tid index : Nat) (_data : BitVec 256) : Bool := tid < 1024 && index < 2 ^ 32
def wfSkinkTimerFire (chan : Nat) : Bool := chan < 65536
def wfSkinkPeriodTick (chan : Nat) : Bool := chan < 65536
def wfSentinelFire (part : Nat) : Bool := part < 256
def wfSentinelEscalate (part : Nat) : Bool := part < 256
def wfDebugHalt (tid : Nat) : Bool := tid < 1024
def wfDebugResume (tid : Nat) : Bool := tid < 1024
def wfDebugSingleStep (tid : Nat) (_next : Option Nat) : Bool := tid < 1024
def wfI3cPrivateWrite (_header : BitVec 512) (payload : List Byte) : Bool := payload.length ≤ 1024
def wfI3cPrivateRead : Bool := true
def wfEnec (_direct : Bool) (events : Nat) : Bool := events < 256
def wfDisec (_direct : Bool) (events : Nat) : Bool := events < 256
def wfRstdaa : Bool := true
def wfEntdaa (addr : Nat) : Bool := addr < 128
def wfSetmwl (_direct : Bool) (len : Nat) : Bool := len < 65536
def wfSetmrl (_direct : Bool) (len : Nat) : Bool := len < 65536
def wfRstact (_direct : Bool) (action : Nat) : Bool := action < 256
def wfSetnewda (addr : Nat) : Bool := addr < 128
def wfGetmwl : Bool := true
def wfGetmrl : Bool := true
def wfGetpid : Bool := true
def wfGetbcr : Bool := true
def wfGetdcr : Bool := true
def wfGetstatus : Bool := true
def wfGetmxds : Bool := true
def wfI3cUnsupportedCcc (code : Nat) (_direct : Bool) : Bool := code < 256
def wfTargetResetPattern : Bool := true
def wfHotJoinRequest : Bool := true
def wfKeep (_frame : BitVec 64) : Bool := true
def wfKeepSend : Bool := true
def wfEnum (_frame : BitVec 64) : Bool := true
def wfClose (_frame : BitVec 64) : Bool := true
def wfReset (_frame : BitVec 64) : Bool := true
def wfLeapArm (_frame : BitVec 64) : Bool := true
def wfLeapCancel (_frame : BitVec 64) : Bool := true
def wfLend (_frame : BitVec 64) : Bool := true
def wfFault (_frame : BitVec 64) : Bool := true
def wfData (_frame : BitVec 64) : Bool := true
def wfWake (_frame : BitVec 64) : Bool := true
def wfReservedFrameType (_frame : BitVec 64) : Bool := true
def wfChainBitTimeout : Bool := true
def wfChainInLinkLost : Bool := true
def wfChainOutLinkLost : Bool := true
def wfChainEnumRetry : Bool := true
def wfChainArmTimeout : Bool := true
def wfIdcode : Bool := true
def wfSamplePreload : Bool := true
def wfExtest : Bool := true
def wfExtestPulse : Bool := true
def wfExtestTrain : Bool := true
def wfClamp : Bool := true
def wfHighz : Bool := true
def wfDbgChallenge : Bool := true
def wfDbgToken (token : List Byte) : Bool := token.length = 256
def wfDbgStatus : Bool := true
def wfDbgDmi (scope : Nat) (_write : Bool) (addr value : Nat) : Bool := 1 ≤ scope && scope ≤ 3 && addr < 2 ^ 32 && value < 2 ^ 32
def wfBypass (code : Nat) : Bool := code < 256
def wfUartRxInput (_char : Byte) : Bool := true
def wfFunctionReady (port : Nat) : Bool := port < 32
def wfReferenceClockStop (pcie : Bool) (index : Nat) : Bool := index < (if pcie then 8 else 4)
def wfVddRetUp : Bool := true
def wfVddRetRemove : Bool := true
def wfHdrExitPattern : Bool := true
def wfChainInvalidCodeword : Bool := true
def wfNvmeCoalescingTimeExpire (fid cq : Nat) : Bool := fid < 65536 && cq < 65536

/-- The command's operands are ones that can be sent. -/
def wellFormed : Instr → Bool
  | .sysRstNAssert => wfSysRstNAssert
  | .sysRstNRelease chnHead bootRecoveryN ownerStrap => wfSysRstNRelease chnHead bootRecoveryN ownerStrap
  | .pwrOkRise => wfPwrOkRise
  | .pwrOkFall => wfPwrOkFall
  | .alarmNAssert ns stillLow => wfAlarmNAssert ns stillLow
  | .supplyGlitch rail permille ns => wfSupplyGlitch rail permille ns
  | .tjThresholdCross sensor tj => wfTjThresholdCross sensor tj
  | .wakeNAssert ns => wfWakeNAssert ns
  | .ppsInEdge => wfPpsInEdge
  | .ptpStep delta => wfPtpStep delta
  | .arbiterEpoch core sds coreNow sdsNow => wfArbiterEpoch core sds coreNow sdsNow
  | .hardLimitCross sdsRail now => wfHardLimitCross sdsRail now
  | .governorPeriod late => wfGovernorPeriod late
  | .avsWriteDone ok => wfAvsWriteDone ok
  | .sensorWindow cluster unit rate => wfSensorWindow cluster unit rate
  | .stallWatchdogFire dom stall => wfStallWatchdogFire dom stall
  | .invalidCodeword dom stage => wfInvalidCodeword dom stage
  | .clearSelftestDone dom pass => wfClearSelftestDone dom pass
  | .probationEnd dom => wfProbationEnd dom
  | .checkerSelftest dom checker flagged => wfCheckerSelftest dom checker flagged
  | .scrubStep mem unit addr found => wfScrubStep mem unit addr found
  | .eftLockstepMismatch stage => wfEftLockstepMismatch stage
  | .eftRestartDone => wfEftRestartDone
  | .wearEvaluation kind unit corr word row stall held24 => wfWearEvaluation kind unit corr word row stall held24
  | .ageHour tjMax => wfAgeHour tjMax
  | .regrowthDone kind ok => wfRegrowthDone kind ok
  | .laneBerWindow lane ber10s ber10min => wfLaneBerWindow lane ber10s ber10min
  | .linkTrainingDone port ok failed => wfLinkTrainingDone port ok failed
  | .reformTimeout port => wfReformTimeout port
  | .linkLoss port => wfLinkLoss port
  | .ethFrameReceive port frame fcs fecOk => wfEthFrameReceive port frame fcs fecOk
  | .pauseFrameReceive port pfc mask quanta => wfPauseFrameReceive port pfc mask quanta
  | .pauseQuantaExpire port prio => wfPauseQuantaExpire port prio
  | .pauseStormLimit port prio => wfPauseStormLimit port prio
  | .pauseStormClear port prio => wfPauseStormClear port prio
  | .mgmt0FrameReceive frame fcs => wfMgmt0FrameReceive frame fcs
  | .pipelineHeaderAccept turn => wfPipelineHeaderAccept turn
  | .microword turn engine ecc => wfMicroword turn engine ecc
  | .microcodeOpComplete turn ctx kind => wfMicrocodeOpComplete turn ctx kind
  | .sprayReseqTimeout unit stream => wfSprayReseqTimeout unit stream
  | .sprayContextIdle unit stream => wfSprayContextIdle unit stream
  | .flowletGapExpire group pipe bucket => wfFlowletGapExpire group pipe bucket
  | .lbImbalanceWindow group => wfLbImbalanceWindow group
  | .agingSlice table pipe examined => wfAgingSlice table pipe examined
  | .learnServiceEvent pipe => wfLearnServiceEvent pipe
  | .rehashDone table pipe => wfRehashDone table pipe
  | .egressSchedule l0 bufs pcwOk composed => wfEgressSchedule l0 bufs pcwOk composed
  | .deadlineHeadCheck queue => wfDeadlineHeadCheck queue
  | .queueTelemetrySample ring consumer inTime => wfQueueTelemetrySample ring consumer inTime
  | .minuteBoundary => wfMinuteBoundary
  | .meterExport lost => wfMeterExport lost
  | .timedLeapTrigger spread => wfTimedLeapTrigger spread
  | .padWriteResume mbx timedOut => wfPadWriteResume mbx timedOut
  | .pcieConfigRequest fn reg bus write value => wfPcieConfigRequest fn reg bus write value
  | .bmeClear fid => wfBmeClear fid
  | .mseClear fid => wfMseClear fid
  | .flr fid => wfFlr fid
  | .vfEnableSet fid numVfs => wfVfEnableSet fid numVfs
  | .vfEnableClear fid => wfVfEnableClear fid
  | .d3hotEnter fid => wfD3hotEnter fid
  | .d0Return fid => wfD0Return fid
  | .d3coldEnter port => wfD3coldEnter port
  | .hpPerstNAssert port ns => wfHpPerstNAssert port ns
  | .hpPerstNDeassert port => wfHpPerstNDeassert port
  | .hotReset port => wfHotReset port
  | .dlUp port width gt flit => wfDlUp port width gt flit
  | .l1Enter port aspm => wfL1Enter port aspm
  | .msixUnmask fid vector => wfMsixUnmask fid vector
  | .bar4WindowTlp fid off len write data stalled => wfBar4WindowTlp fid off len write data stalled
  | .pcieReadCompletion port tag data => wfPcieReadCompletion port tag data
  | .completionTimeout port tag => wfCompletionTimeout port tag
  | .ringEnable fid ring value => wfRingEnable fid ring value
  | .ringDisable fid ring value => wfRingDisable fid ring value
  | .ringReset fid ring => wfRingReset fid ring
  | .ringDb fid ring composed => wfRingDb fid ring composed
  | .indexWordReadDone fid of q => wfIndexWordReadDone fid of q
  | .hostTxPacket fid ring descs data composed => wfHostTxPacket fid ring descs data composed
  | .cplCi fid ring c => wfCplCi fid ring c
  | .cplModTimerExpire fid ring => wfCplModTimerExpire fid ring
  | .fnCtlUnfence fid => wfFnCtlUnfence fid
  | .registerWrite fn bar off size value => wfRegisterWrite fn bar off size value
  | .mbxEnable fid value => wfMbxEnable fid value
  | .mbxDisable fid value => wfMbxDisable fid value
  | .mbxDb fid value size composed => wfMbxDb fid value size composed
  | .mbxHeadlessAnswer mbx => wfMbxHeadlessAnswer mbx
  | .unassignedOpcode x => wfUnassignedOpcode x
  | .devInfo x => wfDevInfo x
  | .devCaps x => wfDevCaps x
  | .devTimeGet x => wfDevTimeGet x
  | .devTimeSet x mode value => wfDevTimeSet x mode value
  | .devReset x kind port => wfDevReset x kind port
  | .portConfig x p => wfPortConfig x p
  | .portState x port => wfPortState x port
  | .portStats x port form => wfPortStats x port form
  | .laneDiag x lane func pattern measured => wfLaneDiag x lane func pattern measured
  | .octetMode x octet mode floors => wfOctetMode x octet mode floors
  | .allotSet x port tenant tenBase tenCount counts => wfAllotSet x port tenant tenBase tenCount counts
  | .allotGet x port => wfAllotGet x port
  | .fnCreate x port pf vf counts => wfFnCreate x port pf vf counts
  | .fnDestroy x fid => wfFnDestroy x fid
  | .fnQuery x fid => wfFnQuery x fid
  | .tenantBind x fid tenant => wfTenantBind x fid tenant
  | .windowSet x w => wfWindowSet x w
  | .windowRetire x port index => wfWindowRetire x port index
  | .windowDrainDone port index => wfWindowDrainDone port index
  | .windowRetireTimeout port index => wfWindowRetireTimeout port index
  | .tblInsert x table pipes index entry => wfTblInsert x table pipes index entry
  | .tblDelete x table pipes index entry => wfTblDelete x table pipes index entry
  | .tblLookup x table pipe index entry => wfTblLookup x table pipe index entry
  | .tblIter x table pipe form filter value cursor => wfTblIter x table pipe form filter value cursor
  | .tblFlush x table pipes filter value => wfTblFlush x table pipes filter value
  | .tblRehash x table pipe => wfTblRehash x table pipe
  | .learnConfig x src srcHost excess share limit => wfLearnConfig x src srcHost excess share limit
  | .agingConfig x table pipes ageS sliceUs entries => wfAgingConfig x table pipes ageS sliceUs entries
  | .lbGroupSet x group record members => wfLbGroupSet x group record members
  | .lbMonitor x group op ratio windows rotate => wfLbMonitor x group op ratio windows rotate
  | .parseDepthSet x port record => wfParseDepthSet x port record
  | .portDefaultSet x port action => wfPortDefaultSet x port action
  | .ruleWrite x pipes kind slot entry => wfRuleWrite x pipes kind slot entry
  | .ruleClear x pipes kind slot => wfRuleClear x pipes kind slot
  | .ruleRead x pipe pad kind slot => wfRuleRead x pipe pad kind slot
  | .ucodeLoad x u => wfUcodeLoad x u
  | .ucodeKeyEnrol x index op key => wfUcodeKeyEnrol x index op key
  | .ucodeInfo x pipe pad => wfUcodeInfo x pipe pad
  | .ucodePatchState x pipe pad => wfUcodePatchState x pipe pad
  | .padCopy x => wfPadCopy x
  | .padLeap x mode expect time => wfPadLeap x mode expect time
  | .padState x => wfPadState x
  | .padDiscard x => wfPadDiscard x
  | .poolConfig x pool record => wfPoolConfig x pool record
  | .reserveSet x okind pool lossless id min headroom => wfReserveSet x okind pool lossless id min headroom
  | .policerSet x index record => wfPolicerSet x index record
  | .shaperSet x level resetTo node cir cbs pir pbs => wfShaperSet x level resetTo node cir cbs pir pbs
  | .queueMap x q => wfQueueMap x q
  | .queueSampleConfig x ring log2 interval count ringAddr indexAddr queues => wfQueueSampleConfig x ring log2 interval count ringAddr indexAddr queues
  | .queueStats x queue => wfQueueStats x queue
  | .volCreate x handle tenant slot size opts reps => wfVolCreate x handle tenant slot size opts reps
  | .volDestroy x handle => wfVolDestroy x handle
  | .volAttach x handle fid nsid format pitype rebuild => wfVolAttach x handle fid nsid format pitype rebuild
  | .volDetach x handle fid => wfVolDetach x handle fid
  | .backendAdd x c found => wfBackendAdd x c found
  | .backendState x backend => wfBackendState x backend
  | .volReconcileState x handle => wfVolReconcileState x handle
  | .keyLoad x slot wrapSlot type usage tenant material => wfKeyLoad x slot wrapSlot type usage tenant material
  | .keyErase x slot => wfKeyErase x slot
  | .keyEraseComplete slot => wfKeyEraseComplete slot
  | .saCreate x c => wfSaCreate x c
  | .saState x sa => wfSaState x sa
  | .alarmState x => wfAlarmState x
  | .alarmClear x => wfAlarmClear x
  | .kekRotate x => wfKekRotate x
  | .kekRotationDone => wfKekRotationDone
  | .cipherRequestComplete req hwFault pcw => wfCipherRequestComplete req hwFault pcw
  | .cipherBusyTimeout turn => wfCipherBusyTimeout turn
  | .keyCacheFill read => wfKeyCacheFill read
  | .partCreate x form cluster cores action tenant clusters channels handles sentinelMs regionMib => wfPartCreate x form cluster cores action tenant clusters channels handles sentinelMs regionMib
  | .partDestroy x part => wfPartDestroy x part
  | .imageLoad x part image => wfImageLoad x part image
  | .partStart x part => wfPartStart x part
  | .partStop x part => wfPartStop x part
  | .debugAttach x part op => wfDebugAttach x part op
  | .meterRead x form tenant index => wfMeterRead x form tenant index
  | .meterExportConfig x c => wfMeterExportConfig x c
  | .telemConfig x intervalMs log2 ringAddr indexAddr => wfTelemConfig x intervalMs log2 ringAddr indexAddr
  | .eventSubscribe x mask log2 vector ringAddr indexAddr => wfEventSubscribe x mask log2 vector ringAddr indexAddr
  | .fwStage x slot offset total data => wfFwStage x slot offset total data
  | .fwActivate x type slot trial => wfFwActivate x type slot trial
  | .fwActivateDrainDone => wfFwActivateDrainDone
  | .fwActivateDrainTimeout => wfFwActivateDrainTimeout
  | .fwState x => wfFwState x
  | .trialConfirm => wfTrialConfirm
  | .trialTimerExpire => wfTrialTimerExpire
  | .keyRevoke x index => wfKeyRevoke x index
  | .attestQuote x nonce => wfAttestQuote x nonce
  | .baskEnter x => wfBaskEnter x
  | .baskDrainDone => wfBaskDrainDone
  | .baskDrainTimeout us => wfBaskDrainTimeout us
  | .faultLogRead x seqFrom => wfFaultLogRead x seqFrom
  | .faultClear x seq => wfFaultClear x seq
  | .regrowState x => wfRegrowState x
  | .regrowStart x kind unit => wfRegrowStart x kind unit
  | .wearReport x => wfWearReport x
  | .powerBudgetSet x core coreHard sds sdsHard packageW note => wfPowerBudgetSet x core coreHard sds sdsHard packageW note
  | .powerState x => wfPowerState x
  | .governorSet x margin stepUpMv stepDownHalfMv vminMv vmaxMv periodUs holdDown => wfGovernorSet x margin stepUpMv stepDownHalfMv vminMv vmaxMv periodUs holdDown
  | .migDirtyStart x fid len bitmap => wfMigDirtyStart x fid len bitmap
  | .migDirtyStop x fid => wfMigDirtyStop x fid
  | .dirtyBitWrite fid page => wfDirtyBitWrite fid page
  | .migFreeze x fid => wfMigFreeze x fid
  | .migFreezeDrainDone fid => wfMigFreezeDrainDone fid
  | .migFreezeTimeout fid => wfMigFreezeTimeout fid
  | .migSave x fid => wfMigSave x fid
  | .migRestore x fid blob => wfMigRestore x fid blob
  | .migThaw x fid => wfMigThaw x fid
  | .migKeySet x slot => wfMigKeySet x slot
  | .chainState x => wfChainState x
  | .chainSend x dest len data => wfChainSend x dest len data
  | .chainSendTimeout => wfChainSendTimeout
  | .ckvCtxRead x index => wfCkvCtxRead x index
  | .ckvCtxWrite x index context => wfCkvCtxWrite x index context
  | .vfExchNotify fid value => wfVfExchNotify fid value
  | .pfExchNotify fid value => wfPfExchNotify fid value
  | .exchPendClear fid index value => wfExchPendClear fid index value
  | .rcvOwnerWrite value => wfRcvOwnerWrite value
  | .nvmeCcEnable fn value => wfNvmeCcEnable fn value
  | .nvmeCcDisable fn value => wfNvmeCcDisable fn value
  | .nvmeCcShutdown fn value => wfNvmeCcShutdown fn value
  | .nvmeSqDoorbell fid qid value => wfNvmeSqDoorbell fid qid value
  | .nvmeCqDoorbell fid qid value => wfNvmeCqDoorbell fid qid value
  | .nvmeCommandFetch fid qid sqe lists mdList ranges composed => wfNvmeCommandFetch fid qid sqe lists mdList ranges composed
  | .nvmeCommandStart fid qid cmd => wfNvmeCommandStart fid qid cmd
  | .nvmePostingPoint fid qid entry => wfNvmePostingPoint fid qid entry
  | .nvmeDeleteIoSq fid cid => wfNvmeDeleteIoSq fid cid
  | .nvmeCreateIoSq fid cid => wfNvmeCreateIoSq fid cid
  | .nvmeGetLogPage fid cid => wfNvmeGetLogPage fid cid
  | .nvmeDeleteIoCq fid cid => wfNvmeDeleteIoCq fid cid
  | .nvmeCreateIoCq fid cid => wfNvmeCreateIoCq fid cid
  | .nvmeIdentify fid cid => wfNvmeIdentify fid cid
  | .nvmeAbort fid cid => wfNvmeAbort fid cid
  | .nvmeSetFeatures fid cid => wfNvmeSetFeatures fid cid
  | .nvmeGetFeatures fid cid => wfNvmeGetFeatures fid cid
  | .nvmeAsyncEventRequest fid cid => wfNvmeAsyncEventRequest fid cid
  | .nvmeAdminUnsupported fid cid => wfNvmeAdminUnsupported fid cid
  | .nvmeFlush fid qid cid => wfNvmeFlush fid qid cid
  | .nvmeWrite fid qid cid data md => wfNvmeWrite fid qid cid data md
  | .nvmeRead fid qid cid => wfNvmeRead fid qid cid
  | .nvmeCompare fid qid cid data md => wfNvmeCompare fid qid cid data md
  | .nvmeWriteZeroes fid qid cid => wfNvmeWriteZeroes fid qid cid
  | .nvmeDatasetManagement fid qid cid => wfNvmeDatasetManagement fid qid cid
  | .nvmeFusedCompareWrite fid qid cid data md wdata wmd => wfNvmeFusedCompareWrite fid qid cid data md wdata wmd
  | .nvmeIoUnsupported fid qid cid => wfNvmeIoUnsupported fid qid cid
  | .intentRecordTake fid qid cid => wfIntentRecordTake fid qid cid
  | .backendResponse tag good data => wfBackendResponse tag good data
  | .backendPduReceive backend pdu => wfBackendPduReceive backend pdu
  | .backendTimeout backend => wfBackendTimeout backend
  | .backendConnectionLost backend => wfBackendConnectionLost backend
  | .backendReconnect backend link => wfBackendReconnect backend link
  | .reconcileChunkDone vol failed data => wfReconcileChunkDone vol failed data
  | .rebuildChunkDone vol lba failed data => wfRebuildChunkDone vol lba failed data
  | .chWr tid idx word => wfChWr tid idx word
  | .chCmt tid chan n rd nb => wfChCmt tid chan n rd nb
  | .chCmtResume tid => wfChCmtResume tid
  | .chRd tid chan rd => wfChRd tid chan rd
  | .chTry tid chan rd => wfChTry tid chan rd
  | .chWaitany tid base mask rd => wfChWaitany tid base mask rd
  | .channelWaitWake tid => wfChannelWaitWake tid
  | .fork tid entry arg rd => wfFork tid entry arg rd
  | .join tid target rd => wfJoin tid target rd
  | .threadExit tid value => wfThreadExit tid value
  | .trelease tid target => wfTrelease tid target
  | .treset tid target => wfTreset tid target
  | .xtirzuIllegal tid epc instr vectored => wfXtirzuIllegal tid epc instr vectored
  | .threadControlCsr tid csr write value rd => wfThreadControlCsr tid csr write value rd
  | .channelEntryWrite tid chan half value => wfChannelEntryWrite tid chan half value
  | .ecallCustomer tid epc tval => wfEcallCustomer tid epc tval
  | .threadFault tid code epc tval addr => wfThreadFault tid code epc tval addr
  | .cipherSubmit tid request => wfCipherSubmit tid request
  | .copyOut tid handle addr len off => wfCopyOut tid handle addr len off
  | .copyMeta tid handle addr => wfCopyMeta tid handle addr
  | .free tid handle => wfFree tid handle
  | .injectHandle tid handle pipe port => wfInjectHandle tid handle pipe port
  | .injectBuffer tid addr len pipe port => wfInjectBuffer tid addr len pipe port
  | .contextHold tid index => wfContextHold tid index
  | .contextRelease tid index => wfContextRelease tid index
  | .contextRead tid index => wfContextRead tid index
  | .contextWrite tid index data => wfContextWrite tid index data
  | .skinkTimerFire chan => wfSkinkTimerFire chan
  | .skinkPeriodTick chan => wfSkinkPeriodTick chan
  | .sentinelFire part => wfSentinelFire part
  | .sentinelEscalate part => wfSentinelEscalate part
  | .debugHalt tid => wfDebugHalt tid
  | .debugResume tid => wfDebugResume tid
  | .debugSingleStep tid next => wfDebugSingleStep tid next
  | .i3cPrivateWrite header payload => wfI3cPrivateWrite header payload
  | .i3cPrivateRead => wfI3cPrivateRead
  | .enec direct events => wfEnec direct events
  | .disec direct events => wfDisec direct events
  | .rstdaa => wfRstdaa
  | .entdaa addr => wfEntdaa addr
  | .setmwl direct len => wfSetmwl direct len
  | .setmrl direct len => wfSetmrl direct len
  | .rstact direct action => wfRstact direct action
  | .setnewda addr => wfSetnewda addr
  | .getmwl => wfGetmwl
  | .getmrl => wfGetmrl
  | .getpid => wfGetpid
  | .getbcr => wfGetbcr
  | .getdcr => wfGetdcr
  | .getstatus => wfGetstatus
  | .getmxds => wfGetmxds
  | .i3cUnsupportedCcc code direct => wfI3cUnsupportedCcc code direct
  | .targetResetPattern => wfTargetResetPattern
  | .hotJoinRequest => wfHotJoinRequest
  | .keep frame => wfKeep frame
  | .keepSend => wfKeepSend
  | .enum frame => wfEnum frame
  | .close frame => wfClose frame
  | .reset frame => wfReset frame
  | .leapArm frame => wfLeapArm frame
  | .leapCancel frame => wfLeapCancel frame
  | .lend frame => wfLend frame
  | .fault frame => wfFault frame
  | .data frame => wfData frame
  | .wake frame => wfWake frame
  | .reservedFrameType frame => wfReservedFrameType frame
  | .chainBitTimeout => wfChainBitTimeout
  | .chainInLinkLost => wfChainInLinkLost
  | .chainOutLinkLost => wfChainOutLinkLost
  | .chainEnumRetry => wfChainEnumRetry
  | .chainArmTimeout => wfChainArmTimeout
  | .idcode => wfIdcode
  | .samplePreload => wfSamplePreload
  | .extest => wfExtest
  | .extestPulse => wfExtestPulse
  | .extestTrain => wfExtestTrain
  | .clamp => wfClamp
  | .highz => wfHighz
  | .dbgChallenge => wfDbgChallenge
  | .dbgToken token => wfDbgToken token
  | .dbgStatus => wfDbgStatus
  | .dbgDmi scope write addr value => wfDbgDmi scope write addr value
  | .bypass code => wfBypass code
  | .uartRxInput char => wfUartRxInput char
  | .functionReady port => wfFunctionReady port
  | .referenceClockStop pcie index => wfReferenceClockStop pcie index
  | .vddRetUp => wfVddRetUp
  | .vddRetRemove => wfVddRetRemove
  | .hdrExitPattern => wfHdrExitPattern
  | .chainInvalidCodeword => wfChainInvalidCodeword
  | .nvmeCoalescingTimeExpire fid cq => wfNvmeCoalescingTimeExpire fid cq

end Sys2Proof
end

