-- ==== Sys2Proof/Machine/Ops.lean ====
section
/-! DEFINITION. The named operations over the state: counters, free values, outputs, functions, rings and mailboxes by name,
host writes and MSI-X, events and fault records. -/

namespace Sys2Proof.Machine

/-- A meaning: the command's effect when it is well formed; an ill-formed command cannot be sent. -/
def run (wf : Bool) (f : State → State) (s : State) : Host.Outcome State Fault Refusal :=
  if wf then .next (f s) else .fault .malformed

/-! ### Counters, free values and outputs -/

/-- The value of a cumulative counter. -/
def ctrOf (m : List (Ctr × Nat)) (c : Ctr) : Nat :=
  match m with
  | [] => 0
  | (c', n) :: r => if c' = c then n else ctrOf r c

/-- The counters with `c` raised by `n`. -/
def ctrAdd (m : List (Ctr × Nat)) (c : Ctr) (n : Nat) : List (Ctr × Nat) :=
  match m with
  | [] => [(c, n)]
  | (c', k) :: r => if c' = c then (c', k + n) :: r else (c', k) :: ctrAdd r c n

/-- Raises a counter (O11: nothing lowers one but `SYS_RST_N`). -/
def State.bump (s : State) (kind : CtrKind) (a b n : Nat) : State :=
  if n = 0 then s else { s with ctr := ctrAdd s.ctr { kind, a, b } n }

/-- Reads a counter. -/
def State.count (s : State) (kind : CtrKind) (a b : Nat) : Nat := ctrOf s.ctr { kind, a, b }

/-- The next free value and the state after the draw (log entry 3). -/
def State.draw (s : State) : Nat × State := (Config.freeNat s.free, { s with free := s.free + 1 })

/-- A free value below `n` (0 when `n` is 0). -/
def State.drawBelow (s : State) (n : Nat) : Nat × State := (Config.freeNat s.free % n, { s with free := s.free + 1 })

/-- Gives something to the outside. -/
def State.emit (s : State) (o : Output) : State := { s with out := s.out ++ [o] }

/-! ### Octets, host ports and functions -/

/-- The mode of an octet in force (R46). -/
def octetMode (s : State) (m : Nat) : Nat := mgetD s.octMode m 0

/-- Host port `n` exists under the octet modes (R12). -/
def hostPortExists (s : State) (n : Nat) : Bool :=
  n < 32 &&
    match octetMode s (n / 2) with
    | 1 => true
    | 2 => n % 2 = 0
    | 3 => n % 4 = 0
    | _ => false

/-- The logical pipeline that owns a host port (R12). -/
def pipeOfHost (n : Nat) : Nat := n / 4

/-- The logical pipeline that owns an octet (R11). -/
def pipeOfOctet (m : Nat) : Nat := m / 2

/-- The host port of a FID. -/
def fidPort (fid : Nat) : Nat := fid / 2048 % 32

/-- The function number of a FID. -/
def fidFn (fid : Nat) : Nat := fid % 2048

/-- The FID of a port's function (R15). -/
def mkFid (port fn : Nat) : Nat := port * 2048 + fn % 2048

/-- A host port's record. -/
def hostPort (s : State) (n : Nat) : HostPort := mgetD s.hps n {}

/-- Line rate of an Ethernet port in Gb/s, by RATE code and lanes in force. -/
def ethGbps (p : EthPort) : Nat := [25, 50, 100, 200].getD p.rate 0 * p.curWidth

/-- Payload rate of a host port's link in bit/s (R64): 242 of each 256 bytes in flit mode. -/
def hostPayload (h : HostPort) : Nat :=
  if h.flit then h.width * h.gt * 945312500 else Config.nonFlitPayload h.width h.gt

/-- A logical pipeline is active: some port of it is up (R23). -/
def pipeActive (s : State) (k : Nat) : Bool :=
  s.ports.any (fun e => e.2.state = 2 && pipeOfOctet e.2.octet = k) || s.hps.any (fun e => e.2.linkUp && pipeOfHost e.1 = k)

/-- A port's allotment. -/
def allotOf (s : State) (n : Nat) : Allot := mgetD s.allots n {}

/-- The function with this FID, if the device presents it: a PF of an existing port, or a provisioned VF; in recovery mode the
recovery function of the owner port alone (R66). -/
def fn? (s : State) (fid : Nat) : Option Fn :=
  if fid < 65536 && hostPortExists s (fidPort fid) then
    match mget? s.fns fid with
    | some f => some f
    | none =>
      if (s.phase ≠ .recovery && fidFn fid < 3) || (s.phase = .recovery && fid = mkFid s.eft.ownerPort 3) then
        some { pf := fidFn fid, bound := true, ready := true }
      else none
  else none

/-- The function's record, at reset values when absent. -/
def fnD (s : State) (fid : Nat) : Fn := (fn? s fid).getD {}

/-- The state with a present function's record changed. -/
def State.modFn (s : State) (fid : Nat) (f : Fn → Fn) : State :=
  match fn? s fid with
  | some r => { s with fns := mput s.fns fid (f r) }
  | none => s

/-- A VF, as against a PF. -/
def isVf (fid : Nat) : Bool := 4 ≤ fidFn fid

/-- PF2 or a storage VF. -/
def isNvme (s : State) (fid : Nat) : Bool := (fnD s fid).pf = 2

/-- A function with a mailbox: PF0, PF1 or a network VF (R344). -/
def hasMbx (s : State) (fid : Nat) : Bool := (fn? s fid).isSome && !isNvme s fid

/-- The tenant a function's traffic carries (R74). -/
def tenantOf (s : State) (fid : Nat) : Nat :=
  if isVf fid then (if (fnD s fid).bound then (fnD s fid).tenant else 0) else (allotOf s (fidPort fid)).tenant

/-- PF1's or PF2's fixed share (R368); a VF's grants. -/
def grantsOf (s : State) (fid : Nat) : Grants :=
  let c := (allotOf s (fidPort fid)).counts
  match fidFn fid with
  | 0 => {}
  | 1 => { rings := min (c.getD 1 0) 1024, l2 := min (c.getD 4 0) 1024, cells := min (c.getD 6 0) 4096 }
  | 2 => { nvmeQp := min (c.getD 2 0) 128, cmds := min (c.getD 3 0) 1024 }
  | _ => (fnD s fid).grants

/-- Size of a function's MSI-X table (R71). -/
def msixSize (s : State) (fid : Nat) : Nat :=
  match fidFn fid with
  | 0 => 64
  | 1 => 2048
  | 2 => 129
  | 3 => 4
  | _ => if isNvme s fid then 129 else 256

/-- The VF is enabled by SR-IOV of its PF (R88). -/
def vfOn (s : State) (fid : Nat) : Bool :=
  let f := fnD s fid
  let pf := fnD s (mkFid (fidPort fid) f.pf)
  !isVf fid || (pf.vfEnable && f.vf ≤ pf.numVfs)

/-- The function can issue a request at all: link up, Bus Master Enable, no fence of the port, not the safe state (R89, R432). -/
def canIssue (s : State) (fid : Nat) : Bool :=
  (s.phase = .running || s.phase = .recovery) && (hostPort s (fidPort fid)).linkUp && (fnD s fid).bme && vfOn s fid

/-- The function is in D0 with its configuration answered, so that register writes reach it (R88, R89). -/
def barOn (s : State) (fid : Nat) : Bool :=
  (s.phase = .running || s.phase = .recovery) && (hostPort s (fidPort fid)).linkUp && (fnD s fid).mse && vfOn s fid
    && (fn? s fid).isSome

/-! ### Requests to the host -/

/-- The 4 KiB pages a write of `n` bytes at `addr` touches. -/
def pagesOf (addr n : Nat) : List Nat :=
  if n = 0 then [] else (List.range ((addr + n - 1) / 4096 + 1 - addr / 4096)).map (· + addr / 4096)

/-- A page logged in a dirty log (R383). -/
def DirtyLog.note (d : DirtyLog) (p : Nat) : DirtyLog :=
  if p < d.len * 8 then
    if (mget? d.pages p).isSome then d else { d with pages := mput d.pages p (), due := d.due ++ [p] }
  else { d with beyond := d.beyond + 1 }

/-- The port leaves L1 when it has a TLP to send (R92). -/
def State.wakeLink (s : State) (port : Nat) : State :=
  if (hostPort s port).l1 then { s with hps := mupd s.hps port {} ({ · with l1 := false }) } else s

/-- The requester ID of a function: from the port's captured bus number, under ARI (R68). -/
def routingId (s : State) (fid : Nat) : Nat :=
  let f := fnD s fid
  let n : Nat :=
    if isVf fid then (if f.pf = 1 then 0x100 else 0x500) + (f.vf - 1) else if fidFn fid = 3 then 0 else fidFn fid
  ((hostPort s (fidPort fid)).bus * 256 + n) % 65536

/-- A request of `len` bytes at `addr` cut at the multiples of `m`: no piece is longer than `m` (R64). -/
def cutRequest (m : Nat) : Nat → Nat → Nat → List (Nat × Nat)
  | 0, _, _ => []
  | fuel + 1, addr, len =>
    if len = 0 then []
    else
      let n := min len (m - addr % m)
      (addr, n) :: cutRequest m fuel (addr + n) (len - n)

/-- Max payload size of a function's writes in bytes: what the host set, 512 at most (R64). -/
def mpsOf (s : State) (fid : Nat) : Nat := 128 * 2 ^ min (fnD s fid).mps 2

/-- Max read request size of a function in bytes: what the host set (R64). -/
def mrrsOf (s : State) (fid : Nat) : Nat := 128 * 2 ^ min (fnD s fid).mrrs 5

/-- The TLPs of a memory write. -/
def writeTlps (s : State) (fid addr : Nat) (bs : List Byte) : List Output :=
  (cutRequest (mpsOf s fid) bs.length addr bs.length).map fun p =>
    .hostWrite fid (routingId s fid) p.1 ((bs.drop (p.1 - addr)).take p.2)

/-- Issues a memory write of a function, logging it when its VF is being logged (R80, R383). -/
def State.hostWr (s : State) (fid addr : Nat) (bs : List Byte) : State :=
  if canIssue s fid && !bs.isEmpty then
    let s := (writeTlps s fid addr bs).foldl State.emit (s.wakeLink (fidPort fid))
    match (fnD s fid).dirty with
    | none => s
    | some d => s.modFn fid ({ · with dirty := some ((pagesOf addr bs.length).foldl DirtyLog.note d) })
  else s

/-- A function in D3hot has something for its host: PME_Status is set, and PME is sent when PME_En is (R91 to R93). -/
def State.pmeSet (s : State) (fid : Nat) : State :=
  let s := s.modFn fid ({ · with pmeStatus := true })
  if (fnD s fid).pmeEn then (s.wakeLink (fidPort fid)).emit (.pme fid) else s

/-- Sends a function's MSI-X, holds it with its pending bit set, or discards it, by the table of R93. -/
def State.sendMsix (s : State) (fid v : Nat) : State :=
  let f := fnD s fid
  if !(hostPort s (fidPort fid)).linkUp || (s.phase ≠ .running && s.phase ≠ .recovery) || !vfOn s fid then s
  else if f.d3 then
    (s.modFn fid (fun f => { f with vecPending := mput f.vecPending v () })).pmeSet fid
  else if f.bme && f.msixEn && !f.msixMask && (mget? f.unmasked v).isSome && !f.frozen then
    (s.wakeLink (fidPort fid)).emit (.msix fid v)
  else s.modFn fid (fun f => { f with vecPending := mput f.vecPending v () })

/-- Sends every held message that nothing holds any longer, each once (R93). -/
def State.flushMsix (s : State) (fid : Nat) : State :=
  let f := fnD s fid
  if f.d3 || !f.bme || !f.msixEn || f.msixMask || f.frozen then s
  else
    f.vecPending.foldl (fun s (v, _) =>
      if (mget? f.unmasked v).isSome then
        (s.modFn fid (fun f => { f with vecPending := mdel f.vecPending v })).sendMsix fid v
      else s) s

/-! ### Reads and their tags (R81, R82, R90) -/

/-- The tags that a host port holds, those of reads whose completion is to be dropped among them (R90). -/
def tagsHeld (s : State) (port : Nat) : List Nat :=
  s.reads.filterMap fun r => if fidPort r.fid = port then r.tag else none

/-- Tags that a function's link lets it use: 14 bits in flit mode, else 10 when the host enabled them, else 8 (R64). -/
def tagWidth (s : State) (fid : Nat) : Nat :=
  if (hostPort s (fidPort fid)).flit then 16384 else if (fnD s fid).tag10 then 1024 else 256

/-- Tags that the function's port may still take: up to 4,096 and its tag width, of what is left of its reserve of 128 and of what the
reserves of all ports leave of the device's 16,384 (R81). -/
def tagsLeft (s : State) (fid : Nat) : Nat :=
  let held (n : Nat) : Nat := (tagsHeld s n).length
  let ports := (List.range 32).filter (hostPortExists s)
  let shared := (ports.map (fun n => held n - 128)).foldl (· + ·) 0
  let mine := held (fidPort fid)
  min (min 4096 (tagWidth s fid) - mine) ((128 - mine) + (16384 - 128 * ports.length - shared))

/-- A read of the function finds a tag. -/
def tagRoom (s : State) (fid : Nat) : Bool := 0 < tagsLeft s fid

/-- The `n` least tags that a port does not hold. -/
def freeTags (s : State) (port n : Nat) : List Nat :=
  let held := tagsHeld s port
  ((List.range (held.length + n)).filter (fun t => !held.contains t)).take n

/-- The least tag that a port does not hold. -/
def freeTag (s : State) (port : Nat) : Nat := (freeTags s port 1).headD 0

/-- The first read equal to `w` takes its tag, bound to a requester ID. -/
def bindTag (w : Read) (tag rid : Nat) : List Read → List Read
  | [] => []
  | r :: l => if r = w then { r with tag := some tag, rid } :: l else r :: bindTag w tag rid l

/-- Issues a waiting read, when it finds a tag. -/
def State.issueRead (s : State) (w : Read) : State :=
  if canIssue s w.fid && tagRoom s w.fid then
    let tag := freeTag s (fidPort w.fid)
    let rid := routingId s w.fid
    { (s.wakeLink (fidPort w.fid)).emit (.hostRead w.fid rid tag w.addr w.len) with reads := bindTag w tag rid s.reads }
  else s

/-- Issues the waiting reads that find tags, oldest first. -/
def State.pumpReads (s : State) : State := (s.reads.filter (·.tag.isNone)).foldl State.issueRead s

/-- A function reads host memory, in requests of its max read request size (R64). -/
def State.hostRd (s : State) (fid addr len : Nat) (purpose : ReadFor) : State :=
  if canIssue s fid then
    State.pumpReads { s with
      reads := s.reads ++ (cutRequest (mrrsOf s fid) (len + 1) addr len).map fun p => { fid, addr := p.1, len := p.2, purpose } }
  else s

/-- A read whose data the command at hand brings: its requests go out under the tags that the port may take, each bound until its
completion, which the next to need it awaits; all are free again by the command's end. With no tag to take, nothing is issued (R81; log
entry 91). -/
def State.hostRdNow (s : State) (fid addr len : Nat) : State :=
  let ps := cutRequest (mrrsOf s fid) (len + 1) addr len
  if canIssue s fid && tagRoom s fid && !ps.isEmpty then
    let tags := freeTags s (fidPort fid) (min (tagsLeft s fid) ps.length)
    ps.zipIdx.foldl
      (fun s e => s.emit (.hostRead fid (routingId s fid) (tags.getD (e.2 % tags.length) 0) e.1.1 e.1.2)) (s.wakeLink (fidPort fid))
  else s

/-- Reads of which nothing is to be delivered: an outstanding one keeps its tag until its completion, a waiting one is never issued
(R90). -/
def State.killReads (s : State) (p : Read → Bool) : State :=
  { s with reads := (s.reads.filter (fun r => !(p r && r.tag.isNone))).map fun r => if p r then { r with dead := true } else r }

/-- A live read. -/
def liveRead (s : State) (p : Read → Bool) : Bool := s.reads.any (fun r => !r.dead && p r)

/-- Every live read that `p` takes has its tag, so that its completion can come. -/
def readsOut (s : State) (p : Read → Bool) : Bool := s.reads.all (fun r => r.dead || !p r || r.tag.isSome)

/-- The live reads that `p` takes have completed: their tags are free for what waits. -/
def State.endReads (s : State) (p : Read → Bool) : State :=
  State.pumpReads { s with reads := s.reads.filter (fun r => r.dead || !p r) }

/-! ### Rings and mailboxes -/

/-- A ring register block of a function. -/
def ringOf (s : State) (fid r : Nat) : Ring := mgetD (fnD s fid).rings r {}

/-- The state with a ring changed. -/
def State.modRing (s : State) (fid r : Nat) (f : Ring → Ring) : State :=
  s.modFn fid (fun x => { x with rings := mupd x.rings r {} f })

/-- A mailbox. -/
def mbxOf (s : State) : MbxId → Mailbox
  | .fn fid => mgetD s.mbxs fid {}
  | .board => s.boardMbx

/-- The state with a mailbox changed. -/
def State.modMbx (s : State) (m : MbxId) (f : Mailbox → Mailbox) : State :=
  match m with
  | .fn fid => { s with mbxs := mupd s.mbxs fid {} f }
  | .board => { s with boardMbx := f s.boardMbx }

/-- What started commands wait for, those among them whose mailbox has been reset since (R84, R87). -/
def started (s : State) : List Wait :=
  ((s.mbxs.map (·.2)) ++ [s.boardMbx]).filterMap (fun b => b.cur.map (·.2)) ++ s.ghosts.map (·.2)

/-- Some started command waits for `w`. -/
def waiting (s : State) (w : Wait → Bool) : Bool := (started s).any w

/-- A mailbox gives its started command up: it runs to its end and answers nobody (R84, R87). -/
def State.orphanCur (s : State) (m : MbxId) : State :=
  match (mbxOf s m).cur with
  | some (_, w) => ({ s with ghosts := s.ghosts ++ [(m, w)] } : State).modMbx m ({ · with cur := none })
  | none => s

/-- A read serves this ring of the function. -/
def readsRing (fid r : Nat) (q : Read) : Bool := q.fid = fid && (q.purpose = .desc r || q.purpose = .index r)

/-- A read serves the function's mailbox. -/
def readsMbx (fid : Nat) (q : Read) : Bool :=
  q.fid = fid && match q.purpose with
    | .mbxIndex | .mbxSlots _ => true
    | _ => false

/-- What a ring or mailbox that has become FENCED was reading is discarded when it comes (R116). -/
def State.killFenced (s : State) (fid : Nat) : State :=
  s.killReads fun q =>
    ((fnD s fid).rings.any fun e => e.2.state = 3 && readsRing fid e.1 q)
      || ((mbxOf s (.fn fid)).state = 3 && readsMbx fid q)

/-! ### Events (R362 to R364) -/

/-- The number an event's SUBJECT field holds. -/
def Subject.value : Subject → Nat
  | .dev n => n
  | .hostPort n => n
  | .fn f => f

/-- The event concerns what this mailbox may hear of (R362). -/
def hears (s : State) (fid : Nat) (subj : Subject) : Bool :=
  if fidFn fid = 0 then
    if fidPort fid = s.eft.ownerPort then true
    else match subj with
      | .dev _ => false
      | .hostPort n => n = fidPort fid
      | .fn f => fidPort f = fidPort fid
  else subj = .fn fid

/-- The 32 bytes of an event record (R362). -/
def eventBytes (seq time code : Nat) (subj : Subject) (arg : Nat) : List Byte :=
  leBytes 8 seq ++ leBytes 8 time ++ leBytes 2 code ++ leBytes 2 0 ++ leBytes 4 subj.value ++ leBytes 8 arg

/-- Writes a record to a function's event ring: the record, then the producer index, then the MSI-X (O3). A ring that is full, by
the consumer index the device reads, loses the record and counts it (O12). What the host has consumed is not the device's to know:
the index read is a free value between the last one read and the producer index (log entry 6). -/
def State.ringEvent (s : State) (fid time code : Nat) (subj : Subject) (arg : Nat) : State :=
  let m := mbxOf s (.fn fid)
  match m.events with
  | none => s
  | some e =>
    let full := e.pi - e.ci ≥ 2 ^ e.log2
    let (c, s) := if full && tagRoom s fid then
        let (d, s) := (s.hostRdNow fid (e.indexAddr + 8) 8).drawBelow (e.pi - e.ci + 1)
        (e.ci + d, s)
      else (e.ci, s)
    let seq := m.eventSeq
    if e.pi - c ≥ 2 ^ e.log2 || !canIssue s fid then
      (s.modMbx (.fn fid) ({ · with eventSeq := seq + 1, events := some { e with ci := c } })).bump .eventLost fid 0 1
    else
      let s := s.hostWr fid (e.ringAddr + 32 * (e.pi % 2 ^ e.log2)) (eventBytes seq time code subj arg)
      let s := s.hostWr fid e.indexAddr (leBytes 8 (e.pi + 1))
      (s.modMbx (.fn fid) ({ · with eventSeq := seq + 1, events := some { e with ci := c, pi := e.pi + 1 } })).sendMsix
        fid e.vector

/-- An event slot as the Board reads it: a 64-byte response header with the record in INLINE (R365). -/
def boardEvent (rec : List Byte) : List Byte :=
  leBytes 2 0x0C04 ++ leBytes 2 0xFFFF ++ List.replicate 28 0 ++ rec

/-- Gives the Board an event, 64 at most pending (R365), with an in-band interrupt when enabled (R444). -/
def State.boardRec (s : State) (time code : Nat) (subj : Subject) (arg : Nat) : State :=
  match s.boardMbx.events with
  | none => s
  | some _ =>
    let seq := s.boardMbx.eventSeq
    let held := (s.i3c.ready.filter (fun | .event _ => true | _ => false)).length
    let s := { s with boardMbx := { s.boardMbx with eventSeq := seq + 1 } }
    if 64 ≤ held then s.bump .eventLost 65536 0 1
    else
      let s := { s with i3c := { s.i3c with
        ready := s.i3c.ready ++ [.event (boardEvent (eventBytes seq time code subj arg))] } }
      if s.i3c.ibiEn && s.i3c.addr.isSome then s.emit (.i3cIbi 0xA2) else s

/-- The subscription's MASK takes the class of `code` (R363). -/
def EventRing.takes (e : EventRing) (code : Nat) : Bool := bit e.mask (code / 256 - 1)

/-- Delivers an event to every mailbox that subscribes to its class and may hear of its subject. -/
def State.deliver (s : State) (time code : Nat) (subj : Subject) (arg : Nat) : State :=
  let s := s.mbxs.foldl (fun s (fid, m) =>
    match m.events with
    | some e => if e.takes code && hears s fid subj then s.ringEvent fid time code subj arg else s
    | none => s) s
  match s.boardMbx.events with
  | some e => if e.takes code then s.boardRec time code subj arg else s
  | none => s

/-- Raises an event. While the Eft restarts, the event waits for its return (R343, R438; log entry 7). -/
def State.event (s : State) (code : Nat) (subj : Subject) (arg : Nat) : State :=
  if s.eft.headless then { s with eft := { s.eft with deferred := s.eft.deferred ++ [(s.time, code, subj, arg)] } }
  else s.deliver s.time code subj arg

/-! ### Elastic work (R34, R35) -/

/-- An elastic consumer runs: it holds credits for the present epoch, and no hold is asserted on its rail. -/
def elasticOn (s : State) (c : Consumer) : Bool :=
  0 < mgetD s.pow.elastic c.key 0 && !(if c.onSds then s.pow.sdsHold else s.pow.coreHold)

/-! ### Fault records (R427, R428) -/

/-- DKIND and UNIT of a domain (R427). -/
def domCode : Dom → Nat × Nat
  | .pipeline p => (0, p)
  | .cluster c => (1, c)
  | .aes u => (2, u)
  | .iru u => (3, u)
  | .keyStore => (4, 0)
  | .hbmPc n => (5, n)
  | .hostPort n => (6, n)
  | .storage => (7, 0)
  | .eft => (8, 0)
  | .device n => (10, n)

/-- STATE of a domain as a number (R423). -/
def DomState.num : DomState → Nat
  | .running => 0 | .contain => 1 | .fence => 2 | .clear => 3 | .probation => 4 | .fenced => 5 | .regrowing => 6

/-- Generates a fault record: kept pending while 64 are not, else lost and counted, its SEQ leaving a gap; it raises a
"fault recorded" event (R428). -/
def State.record (s : State) (dkind unit source action state detail : Nat) : State :=
  let seq := s.flt.nextSeq
  let r : FaultRec := { seq, time := s.time, dkind, unit, source, action, state, detail }
  let full := 64 ≤ s.flt.log.length
  let s := { s with flt := { s.flt with nextSeq := seq + 1, log := if full then s.flt.log else s.flt.log ++ [r] } }
  let s := s.bump .faultOverflow 0 0 (b2n full)
  s.event 0x0E01 (.dev (dkind + 256 * unit)) seq

/-- The machine of a domain. -/
def domOf (s : State) (d : Dom) : DomRec := ((s.flt.doms.find? (·.1 = d)).map (·.2)).getD {}

/-- The state with a domain's machine set. -/
def State.setDom (s : State) (d : Dom) (r : DomRec) : State :=
  { s with flt := { s.flt with doms := s.flt.doms.filter (·.1 ≠ d) ++ (if r = {} then [] else [(d, r)]) } }

/-- The record of a request that a host port did not issue, because the two compositions of its requester ID or address differ (R80): the
port's own domain stays as it is. -/
def State.composeFault (s : State) (fid : Nat) : State :=
  s.record 6 (fidPort fid) 5 0 (domOf s (.hostPort (fidPort fid))).state.num fid

/-- The domain takes intake: RUNNING or PROBATION (R423). -/
def domServes (s : State) (d : Dom) : Bool :=
  match (domOf s d).state with
  | .running | .probation => true
  | _ => false

/-- `FAULT_N` follows its causes (R433): the safe state, or a domain FENCED with no Regrowth in progress for it. -/
def State.updFaultN (s : State) : State :=
  { s with pins := { s.pins with faultN := s.phase = .safe || s.flt.doms.any (·.2.state = .fenced) } }

/-! ### The Spawn Chain's frames (R448) -/

/-- CRC-8 of R448 (polynomial 0x07, initial 0, unreflected) over the `w` low bits of `n`, most significant first. -/
def crc8 : Nat → Nat → Nat → Nat
  | 0, _, c => c
  | w + 1, n, c =>
    let top := (c / 128 % 2) != (n / 2 ^ w % 2)
    let c := c * 2 % 256
    crc8 w n (if top then c ^^^ 7 else c)

/-- Builds a frame with its CRC. -/
def mkFrame (type src dst : Nat) (bcast mark : Bool) (marker part data : Nat) : BitVec 64 :=
  let body := pack [(32, data), (6, part), (4, marker), (1, b2n mark), (1, b2n bcast), (4, dst), (4, src), (4, type)]
  BitVec.ofNat 64 (body * 256 + crc8 56 body 0)

/-- The pins are in functional use: no JTAG instruction has taken them (R460). -/
def pinsIn (s : State) : Bool := !s.dbg.pinsTaken

/-- Sends a frame of this unit to the next. -/
def State.chainSend (s : State) (type dst : Nat) (bcast : Bool) (part data : Nat) : State :=
  if pinsIn s then s.emit (.chainTx (mkFrame type s.chain.addr dst bcast false 0 part data)) else s

end Sys2Proof.Machine
end

