-- ==== Sys2Proof/Machine/Units.lean ====
section
/-! DEFINITION. Regrowable units, their spares and the maps from logical to physical numbers (R421, R434). -/

namespace Sys2Proof.Machine

/-! ### Units and maps (R421, R434) -/

/-- Working units of a KIND (R434). -/
def workingOf (kind : Nat) : Nat := [9, 128, 32, 4, 64, 128, 124].getD kind 0

/-- Physical units of a KIND. -/
def physicalOf (kind : Nat) : Nat := [10, 136, 34, 6, 68, 139, 128].getD kind 0

/-- A unit of a new device (R421): unit n holds logical number n, and the units after the working ones are spares. Of each
stack's pseudo-channels the last is the spare (log entry 9). -/
def freshUnit (kind phys : Nat) : WearUnit :=
  if (if kind = 6 then phys % 32 ≠ 31 else phys < workingOf kind) then { logical := phys } else { state := 1 }

/-- A unit's wear record. -/
def unitOf (s : State) (kind phys : Nat) : WearUnit := (mget? s.wear.units (kind * 65536 + phys)).getD (freshUnit kind phys)

/-- Every physical unit, KIND by KIND. -/
def allUnits : List (Nat × Nat) :=
  (List.range 7).flatMap fun k => (List.range (physicalOf k)).map fun p => (k, p)

/-- Free spares, of 32 (R434, R439). -/
def sparesFree (s : State) : Nat := (allUnits.filter (fun (k, p) => (unitOf s k p).state = 1)).length

/-- The state with a unit's wear record changed. -/
def State.modUnit (s : State) (kind phys : Nat) (f : WearUnit → WearUnit) : State :=
  { s with wear := { s.wear with units := mput s.wear.units (kind * 65536 + phys) (f (unitOf s kind phys)) } }

/-- A corrected error of a unit feeds its wear signals (R188, R419). -/
def State.unitCorrected (s : State) (kind phys : Nat) : State :=
  s.modUnit kind phys (fun u => { u with corr24 := u.corr24 + 1, corrTotal := u.corrTotal + 1 })

/-- The physical unit that serves a logical number. -/
def physOf (s : State) (kind logical : Nat) : Nat :=
  (leastBelow (physicalOf kind) (fun p => (unitOf s kind p).logical = logical)).getD logical

/-- The group a unit belongs to (R434). -/
def groupOf (kind phys : Nat) : Nat :=
  match kind with
  | 4 => if phys < 64 then phys / 16 else phys - 64
  | 5 => if phys < 128 then phys / 12 else phys - 128
  | 6 => phys / 32
  | _ => 0

/-- A free spare for a unit: of its kind and its group (R434). -/
def spareFor (s : State) (kind phys : Nat) : Option Nat :=
  leastBelow (physicalOf kind) (fun p => (unitOf s kind p).state = 1 && groupOf kind p = groupOf kind phys)

end Sys2Proof.Machine
end

