-- ==== Sys2Proof/Machine/CipherOps.lean ====
section
/-! DEFINITION. The cipher engine, the key store, the security associations' counters and the cipher alarm (R292 to R309, R424). -/

namespace Sys2Proof.Machine

/-- The state with the cipher engine changed. -/
def State.modCip (s : State) (f : CipherState → CipherState) : State := { s with cip := f s.cip }

/-- The state with the storage domain changed. -/
def State.modSto (s : State) (f : StorageState → StorageState) : State := { s with sto := f s.sto }

/-- A cipher alarm is latched. -/
def alarmLatched (s : State) : Bool := s.cip.sources ≠ 0

/-- A KEK rotation is in progress. -/
def rotating (s : State) : Bool := s.cip.walking

/-- Exactly `n` bytes. -/
def fit (n : Nat) (bs : List Byte) : List Byte := (bs ++ List.replicate n 0).take n

/-- Tj: the hottest junction sensor, in kelvin (R473). -/
def hottest (s : State) : Nat := (List.range 64).foldl (fun m i => max m (mgetD s.pins.tj i 298)) 0

/-! ### Slots (R298, R299) -/

def keySlot (s : State) (k : Nat) : KeySlot := mgetD s.cip.slots k {}
def State.modKey (s : State) (k : Nat) (f : KeySlot → KeySlot) : State :=
  s.modCip (fun c => { c with slots := mupd c.slots k {} f })

/-- The KEK that a slot's KGEN names is there. -/
def kekFor (s : State) (k : KeySlot) : Bool := if k.kgen = s.cip.kgen then s.cip.kek.isSome else s.cip.oldKek.isSome

/-- The slot opens: it holds a key, its KEK is there, and its tag verifies. -/
def slotOpens (s : State) (k : Nat) : Bool := (keySlot s k).type ≠ 0 && !(keySlot s k).bad && kekFor s (keySlot s k)

/-- The slot's key is in the cache. -/
def cached (s : State) (k : Nat) : Bool := s.cip.cache.contains k

/-- A slot used: it becomes the most recent of the cache, the least recent leaving when there are more than 8,192 (R299). -/
def touchCache (k : Nat) (s : State) : State :=
  s.modCip (fun c => { c with cache := (k :: c.cache.filter (· ≠ k)).take 8192 })

/-- The slot and any cache line of it are zeroed (R301). -/
def keyZeroise (k : Nat) (s : State) : State :=
  s.modCip (fun c => { c with slots := mdel c.slots k, cache := c.cache.filter (· ≠ k) })

/-! ### Security associations (R302 to R304) -/

def saOf (s : State) (n : Nat) : Sa := mgetD s.cip.sas n {}
def State.modSa (s : State) (n : Nat) (f : Sa → Sa) : State := s.modCip (fun c => { c with sas := mupd c.sas n {} f })

/-- The greatest number of a transmit counter (R304). -/
def saMax (a : Sa) : Nat := if a.long then 2 ^ 64 - 1 else 2 ^ 32 - 1

/-- Counts a drop of an SA for a cause. -/
def saDrop (n cause : Nat) (s : State) : State := s.modCip (fun c => { c with saDrops := mupd c.saDrops (n * 16 + cause) 0 (· + 1) })

/-- The SA has used its last number: its state and the one event (R304). -/
def saExhaust (n : Nat) (s : State) : State :=
  if (saOf s n).state = 2 then s else (s.modSa n ({ · with state := 2 })).event 0x0A03 (.dev n) 0

/-- Takes the next number of a transmit counter, with the warning and the exhaustion that it brings (R304). -/
def saTake (n : Nat) (s : State) : Nat × State :=
  let a := saOf s n
  let left := saMax a - a.next
  let s := s.modSa n ({ · with next := a.next + 1 })
  if left = 0 then (a.next, saExhaust n s)
  else if a.state = 0 && a.warn ≠ 0 && left ≤ a.warn then
    (a.next, (s.modSa n ({ · with state := 1 })).event 0x0A02 (.dev n) left)
  else (a.next, s)

/-- The full number of a received packet from the bits it carries, by the nearest number that the window allows (RFC 4303 with ESN,
IEEE 802.1AEbw with XPN). -/
def fullSeq (a : Sa) (lo : Nat) : Nat :=
  if !a.long then lo
  else
    let base := a.highest / 2 ^ 32 * 2 ^ 32
    let w := max a.window 1
    if a.highest % 2 ^ 32 + 1 < w then
      (if a.highest + 2 ^ 32 + 1 ≤ lo + w + base && 2 ^ 32 ≤ base then base - 2 ^ 32 + lo else base + lo)
    else if base + lo + w < a.highest + 1 then base + 2 ^ 32 + lo
    else base + lo

/-- The number falls inside the window and has not been taken (R297). -/
def saFresh (a : Sa) (q : Nat) : Bool := a.highest < q || (a.highest < q + a.window && (mget? a.seen q).isNone && q ≠ 0)

/-- Accepts a number (R302, R304). -/
def saAccept (n q : Nat) (s : State) : State :=
  let a := saOf s n
  let high := max a.highest q
  let s := s.modSa n ({ · with highest := high, seen := (mput a.seen q ()).filter (fun e => high < e.1 + a.window) })
  if saMax a ≤ high then saExhaust n s else s

/-! ### Requests (R294 to R297) -/

/-- The USAGE bit that a request needs (R298). -/
def usageBit (r : CipherReq) : Option Nat :=
  match r.cls with
  | 0 => some 0
  | 1 => some 2
  | 2 => match r.op with
    | 5 => some 4
    | 6 | 7 | 8 | 9 => some 5
    | _ => some 3
  | _ => none

/-- The slot holds the key of the volume whose data the request is for, where it is for a volume's (R267, R276). -/
def moverKey (s : State) (r : CipherReq) : Bool :=
  match r.dst with
  | .mover seq => match (s.sto.cmds.find? (·.seq = seq)).bind (fun c => mget? s.sto.vols c.vol) with
    | some v => (keySlot s r.slot).kcv = v.kcv
    | none => true
  | _ => true

/-- What ends a request before it starts, if anything does (R297). A slot whose tag fails is found when the slot is opened. -/
def reqCheck (s : State) (r : CipherReq) : Option Nat :=
  let k := keySlot s r.slot
  let sa : Option Nat := match r.sa with
    | some n =>
      let a := saOf s n
      if a.state = 4 then some 3 else if (mget? s.cip.sas n).isNone || a.state = 3 then some 11
      else if a.tenant ≠ r.tenant then some 2 else none
    | none => none
  if alarmLatched s then some 3
  else if r.cls = 3 then none
  else match sa with
    | some st => some st
    | none =>
      if k.type = 0 || k.erasing || !moverKey s r then some 4
      else if k.tenant ≠ r.tenant then some 2
      else if (match usageBit r with
        | some b => !bit k.usage b
        | none => false) then some 2
      else none

/-- Blocks that the round robin counts (R294). -/
def reqBlocks (r : CipherReq) : Nat := max 1 (cdiv r.len 16)

/-- The consumer that a unit is (R33). -/
def unitConsumer (iterated : Bool) (u : Nat) : Consumer := if iterated then .iru u else .aes u

/-- Requests that a unit holds. -/
def unitLoad (s : State) (iterated : Bool) (u : Nat) : Nat :=
  (s.cip.reqs.filter (fun r => r.iterated = iterated && r.unit = some u && r.status.isNone)).length

/-- Requests that a unit can hold: one for each round that an unrolled pipeline has in line; one in an iterated unit (R292; log entry 55). -/
def unitDepth (iterated : Bool) : Nat := if iterated then 1 else 14

/-- A working unit of a kind with room: active, in service, with credits; the one that holds the fewest requests, the lower on a tie (R34, R292,
R424; log entry 55). -/
def freeUnit (s : State) (iterated : Bool) : Option Nat :=
  let kind := if iterated then 3 else 2
  let l := (List.range (physicalOf kind)).filter fun u =>
    (unitOf s kind u).logical ≠ 0xFFFF && domServes s (if iterated then .iru u else .aes u) && elasticOn s (unitConsumer iterated u)
      && unitLoad s iterated u < unitDepth iterated
  l.foldl (fun b u => match b with
    | some v => if unitLoad s iterated u < unitLoad s iterated v then some u else some v
    | none => some u) none

/-- A request of a class waits. -/
def CipherReq.waits (r : CipherReq) : Bool := r.unit.isNone && r.status.isNone

/-- The oldest waiting request of a class. -/
def headOf (s : State) (cls : Nat) : Option CipherReq := s.cip.reqs.find? (fun r => r.cls = cls && r.waits)

/-- The head of a class can start: its key is in the cache, where it takes one from there, and a unit has room that holds credits under no hold
(R34, R35). -/
def canStart (s : State) (cls : Nat) : Option (CipherReq × Nat) :=
  match headOf s cls with
  | some r => if (cls = 3 || cached s r.slot) && domServes s .keyStore then (freeUnit s r.iterated).map (r, ·) else none
  | none => none

/-- The weight of a class, from the configuration store, 1 to 255 (R294). -/
def cryWeight (s : State) (cls : Nat) : Nat := min 255 (max 1 (s.nv.cryWeights.getD cls 1))

/-- Starts one request by weighted deficit round robin, with the key that it latches: every class that could start is given as many quanta as the first to reach
its blocks needs (R294). -/
def startOne (s : State) : Option State :=
  let ready := (List.range 4).filterMap (fun c => (canStart s c).map (fun x => (c, x)))
  let need (c : Nat) (r : CipherReq) : Nat := cdiv (reqBlocks r - mgetD s.cip.deficit c 0) (cryWeight s c)
  match ready with
  | [] => none
  | x :: _ =>
    let k := ready.foldl (fun k y => min k (need y.1 y.2.1)) (need x.1 x.2.1)
    let grown := ready.foldl (fun d y => mupd d y.1 0 (· + k * cryWeight s y.1)) s.cip.deficit
    match ready.find? (fun y => need y.1 y.2.1 ≤ k) with
    | none => none
    | some (c, r, u) =>
      let k := keySlot s r.slot
      let s := s.modCip (fun z => { z with
        reqs := z.reqs.map (fun q => if q.id = r.id then { q with unit := some u, keyType := k.type, key := k.key } else q)
        deficit := mupd grown c 0 (· - reqBlocks r) })
      some (if c = 3 then s else touchCache r.slot s)

/-- Starts what can start. A request that a check ends is ended; a class that has nothing waiting loses its deficit. -/
def pumpCipher : Nat → State → State
  | 0, s => s
  | fuel + 1, s =>
    let s := s.modCip (fun c => { c with
      reqs := c.reqs.map (fun r => if r.waits then { r with status := reqCheck s r } else r) })
    let s := s.modCip (fun c => { c with deficit := c.deficit.filter (fun e => (headOf s e.1).isSome) })
    match startOne s with
    | some s' => pumpCipher fuel s'
    | none => s

/-- Submits a request. -/
def cipherSubmit (r : CipherReq) (s : State) : State :=
  let s := s.modCip (fun c => { c with reqs := c.reqs ++ [{ r with id := c.nextReq }], nextReq := c.nextReq + 1 })
  pumpCipher s.cip.reqs.length s

/-- A request leaves the engine. -/
def cipherTake (id : Nat) (s : State) : State :=
  let s := s.modCip (fun c => { c with reqs := c.reqs.filter (·.id ≠ id) })
  pumpCipher s.cip.reqs.length s

/-- A started request has latched the slot's key, and has not ended. -/
def keyLatched (s : State) (k : Nat) : Bool := s.cip.reqs.any (fun r => r.cls ≠ 3 && r.slot = k && r.unit.isSome && r.status.isNone)

/-- The control class's turn for a piece of work (R293, R294): its request is queued where it is not, and the work is done once the request holds a
unit that has credits under no hold and the key store serves. Answers whether it is; until then it waits (log entry 98). -/
def controlTurn (k len : Nat) (s : State) : Bool × State :=
  let mine (r : CipherReq) : Bool := r.dst = .control k
  let s := s.modCip (fun c => { c with reqs := c.reqs.filter (fun r => !mine r || r.status.isNone) })
  let s := if s.cip.reqs.any mine then s else cipherSubmit { cls := 3, iterated := true, len, dst := .control k } s
  match s.cip.reqs.find? mine with
  | some r =>
    if r.unit.any (fun u => elasticOn s (unitConsumer true u)) && domServes s .keyStore then (true, cipherTake r.id s) else (false, s)
  | none => (false, s)

/-- What the command of a mailbox has the control class do. -/
def mbxControl (fid : Nat) : Nat := 262145 + fid

/-- SAs that pass go; what the engine still holds for one ends SA_INVALID (R297, R302). -/
def saDelete (p : Nat → Sa → Bool) (s : State) : State :=
  let gone := (s.cip.sas.filter (fun e => p e.1 e.2)).map (·.1)
  s.modCip (fun c => { c with
    sas := c.sas.filter (fun e => !p e.1 e.2)
    reqs := c.reqs.map (fun r => if r.status.isNone && r.sa.any gone.contains then { r with status := some 11 } else r) })

/-! ### Volumes that lose their key (R274, R276) -/

/-- A volume takes a new state, with its event. -/
def setVolState (h new : Nat) (s : State) : State :=
  match mget? s.sto.vols h with
  | some v =>
    if v.state = new then s
    else (s.modSto (fun t => { t with vols := mput t.vols h { v with state := new } })).event 0x0903 (.dev h) (new + 256 * v.state)
  | none => s

/-- Volumes whose slot passes become LOCKED. -/
def lockVolumes (p : Nat → Bool) (s : State) : State :=
  (s.sto.vols.filter (fun e => p e.2.slot)).foldl (fun s e => setVolState e.1 4 s) s

/-- An erase with FORCE (R301): SAs of the slot become INVALID, volumes LOCKED; the slot is zeroed once no request holds its key. -/
def forceErase (k : Nat) (s : State) : State :=
  let s := s.modCip (fun c => { c with sas := mmap c.sas (fun _ a => if a.slot = k && a.state ≠ 4 then { a with state := 3 } else a) })
  let s := lockVolumes (· = k) s
  let s := s.modKey k ({ · with erasing := true })
  if keyLatched s k then s else keyZeroise k s

/-! ### The cipher alarm (R306, R307) -/

/-- A second alarm adds its source to the record of the first, and to its event while that has not been delivered. -/
def alarmAdds (s : State) : State :=
  { s with
    flt := { s.flt with log := s.flt.log.map (fun r =>
      if r.dkind = 4 && r.seq = s.cip.alarmRec then { r with detail := s.cip.sources } else r) }
    eft := { s.eft with deferred := s.eft.deferred.map (fun e => if e.2.1 = 0x0A01 then (e.1, e.2.1, e.2.2.1, s.cip.sources) else e) } }

/-- A cipher alarm of a source: 0 supply glitch, 1 critical temperature, 2 stall storm, 3 debug unlock, 4 `ALARM_N`. A second one
while one is latched only adds its source. -/
def cipherAlarm (src : Nat) (s : State) : State :=
  let first := !alarmLatched s
  let s := s.bump .alarms 0 0 (b2n first)
  let s := s.modCip (fun c => { c with
    sources := c.sources ||| 2 ^ src
    times := if bit c.sources src then c.times else mput c.times src s.time })
  if first then
    let s := s.modCip (fun c => { c with
      kek := none, oldKek := none, walking := false, cache := []
      reqs := c.reqs.map (fun r => { r with status := some 3 })
      sas := mmap c.sas (fun _ a => { a with state := 4, keyReg := [] }) })
    let s := lockVolumes (fun _ => true) s
    let (source, s) := if src = 2 then (2, s) else s.drawBelow 256
    let s := (s.event 0x0A01 (.dev 0) s.cip.sources).modCip ({ · with alarmRec := s.flt.nextSeq })
    s.record 4 0 source 0 (domOf s .keyStore).state.num s.cip.sources
  else alarmAdds s

/-- Sources that still hold: `ALARM_N` low, a Tj sensor at or above 115 °C (R306, R308). -/
def sourcesHeld (s : State) : List Nat := (if 115 + 273 ≤ hottest s then [1] else []) ++ (if s.pins.alarmLow then [4] else [])

/-- A level that holds when the key store comes up raises its alarm (R306). -/
def alarmLevels (s : State) : State := (sourcesHeld s).foldl (fun s i => cipherAlarm i s) s

/-! ### Containment (R424) -/

/-- A unit leaves the arbitration; what it holds completes `HW_FAULT`. -/
def aesContain (iru : Bool) (u : Nat) (s : State) : State :=
  s.modCip (fun c => { c with
    reqs := c.reqs.map (fun r => if r.iterated = iru && r.unit = some u && r.status.isNone then { r with status := some 8 } else r) })

/-- The key store: requests that wait on a key complete `HW_FAULT`, and the cache is zeroised. -/
def keyStoreContain (s : State) : State :=
  s.modCip (fun c => { c with
    reqs := c.reqs.map (fun r => if r.unit.isNone && r.status.isNone && !c.cache.contains r.slot then { r with status := some 8 } else r)
    cache := [] })

/-- The MACsec unit of an octet is powered down with the octet's Ethernet mode. -/
def macsecPowerDown (octet : Nat) (s : State) : State :=
  (saDelete (fun _ a => 2 ≤ a.kind && a.octet = octet) s).modCip (fun c => { c with macsecOn := mdel c.macsecOn octet })

/-! ### Functions and boot (R298, R370) -/

/-- A context that its stream has left: its mismatches remain, and FROZEN (R286, R289). -/
def ckvLeft (x : Nat) : Nat := setBits (setBits 0 4 1 (bits x 4 1)) 224 32 (bits x 224 32)

/-- Contexts whose streams end. -/
def ckvDrop (l : List Nat) (s : State) : State :=
  s.modCip (fun c => { c with
    ckv := (c.ckv.map (fun e => if l.contains e.1 then (e.1, ckvLeft e.2) else e)).filter (·.2 ≠ 0)
    ckvFlow := c.ckvFlow.filter (fun e => !l.contains e.1)
    ckvPart := c.ckvPart.filter (fun e => !l.contains e.1) })

/-- A destroyed function's SAs go, its key slots are erased with FORCE, and its contexts are freed. -/
def fnKeysDestroy (fid : Nat) (s : State) : State :=
  let s := saDelete (fun _ a => a.owner = fid) s
  let s := (s.cip.slots.filter (fun e => e.2.owner = fid)).foldl (fun s e => forceErase e.1 s) s
  ckvDrop ((s.cip.ckv.filter (fun e => bits e.2 32 16 = fid)).map (·.1)) s

/-- The key store at the end of a boot: a KEK drawn from the TRNG, KGEN 0. -/
def bootCipher (s : State) : State :=
  let (k, s) := s.draw
  s.modCip (fun c => { c with kek := some k, kgen := 0 })

end Sys2Proof.Machine
end

