-- ==== Sys2Proof/Machine/Completion.lean ====
section
/-! DEFINITION. Completion entries of the rings: their layout, their writing in ring order, and the moderation of their messages
(R108 to R112). -/

namespace Sys2Proof.Machine

/-! ### Completion entries (R108, R110, R112) -/

/-- A completion entry's fields. -/
structure Cpl where
  /-- W32 R108: COOKIE. -/
  cookie : Nat := 0
  /-- W16 R108: IDX. -/
  idx : Nat := 0
  /-- W4 R108: TYPE. -/
  type : Nat := 0
  /-- W4 R108: NDESC, as a count. -/
  ndesc : Nat := 1
  /-- W8 R109: STATUS. -/
  status : Nat := 0
  /-- W16 R108: RING. -/
  ring : Nat := 0
  /-- W18 R108: LEN. -/
  len : Nat := 0
  /-- W14 R108: bits 111:98: L3_CS, L4_CS, INNER, TS_VALID, PTYPE, OUTER_BAD, VLAN_VALID. -/
  rxBits : Nat := 0
  /-- W16 R108: VLAN_TCI. -/
  vlanTci : Nat := 0
  /-- W32 R108: HASH. -/
  hash : Nat := 0
  /-- W4 R108: CLASS. -/
  cls : Nat := 0
  /-- W2 R108: COLOUR. -/
  colour : Nat := 0
  /-- W16 R108: SEGS. -/
  segs : Nat := 0
  /-- W8 R108: DROP_REASON. -/
  reason : Nat := 0
  /-- W64 R108: TIMESTAMP. -/
  ts : Nat := 0
  deriving DecidableEq, Repr

/-- The 32 bytes of a completion entry. -/
def Cpl.bytes (c : Cpl) : List Byte :=
  leBytes 32 (pack [(32, c.cookie), (16, c.idx), (4, c.type), (4, c.ndesc - 1), (8, c.status), (16, c.ring), (18, c.len),
    (14, c.rxBits), (16, c.vlanTci), (32, c.hash), (4, c.cls), (2, c.colour), (2, 0), (16, c.segs), (8, c.reason),
    (64, c.ts)])

/-- The completion ring is full (R113). -/
def cplFull (s : State) (fid c : Nat) : Bool :=
  let r := ringOf s fid c
  sub32 r.ci r.cplCi = 2 ^ r.log2

/-- Sends a completion ring's message, announcing every entry written before it (R112). -/
def announce (fid c : Nat) (s : State) : State :=
  let r := ringOf s fid c
  let s := s.modRing fid c ({ · with unann := 0, timerAt := none })
  if r.poll then s else s.sendMsix fid r.vector

/-- What moderation does once entries or `CPL_MOD` have changed: the timer runs from the index write of the first unannounced entry, and
the message goes when they reach COUNT (R112). -/
def moderate (fid c : Nat) (s : State) : State :=
  let r := ringOf s fid c
  let s := s.modRing fid c ({ · with
    timerAt := if r.unann = 0 || r.modTimer = 0 then none else some (r.unannAt + r.modTimer * 1000) })
  if 0 < r.unann && max r.modCount 1 ≤ r.unann then announce fid c s else s

/-- Writes entries of a source ring to its completion ring, then the index word, then moderates the message (O3, R110, R112).
The caller has seen that they fit. -/
def cplWrite (fid c : Nat) (es : List Cpl) (s : State) : State :=
  if es.isEmpty then s
  else
    let r := ringOf s fid c
    let s := (es.zipIdx).foldl (fun s (e, i) => s.hostWr fid (r.base + 32 * (add32 r.ci i % 2 ^ r.log2)) e.bytes) s
    let ci := add32 r.ci es.length
    let s := s.hostWr fid r.idxAddr (leBytes 8 ci)
    let since := if r.unann = 0 then s.time else r.unannAt
    moderate fid c (s.modRing fid c ({ · with ci := ci, unann := r.unann + es.length, unannAt := since }))

/-- Free slots of a completion ring. -/
def cplRoom (s : State) (fid c : Nat) : Nat :=
  let r := ringOf s fid c
  2 ^ r.log2 - sub32 r.ci r.cplCi

/-- A packet's completion can be written: every copy committed or dropped, or its status fixed (R110). -/
def TxPkt.ready (p : TxPkt) : Bool := p.open_ = 0 || p.fixed.isSome

/-- A packet's completion entry (R108, R109). -/
def TxPkt.entry (ring type : Nat) (p : TxPkt) : Cpl :=
  let status := match p.fixed with
    | some x => x
    | none => if p.committed = 0 then 1 else if p.dropped = 0 then 0 else 2
  { cookie := p.cookie, idx := p.last % 65536, type, ndesc := p.ndesc, status, ring, len := p.len, segs := p.segs
    cls := p.cls, colour := p.colour, reason := if status = 1 || status = 2 then p.reason else 0
    rxBits := if p.tsReq && p.ts.isSome then 2 ^ 5 else 0
    ts := if p.tsReq then p.ts.getD 0 else 0 }

/-- The packets at the head of a ring whose completions can be written now, in descriptor order (O2). -/
def readyPkts (room : Nat) (ps : List TxPkt) : List TxPkt := (ps.takeWhile TxPkt.ready).take room

/-- The index past the last entry covered (R97). -/
def doneAfter (old : Nat) (ps : List TxPkt) : Nat := match ps.getLast? with
  | some p => add32 p.last 1
  | none => old

/-- Writes what completions a source ring has ready (O2, R110). A fenced ring writes nothing (R102). -/
def txFlush (fid r : Nat) (s : State) : State :=
  let x := ringOf s fid r
  if (x.state = 1 || x.state = 2) && (ringOf s fid x.cplRing).state = 1 && canIssue s fid then
    let ps := readyPkts (cplRoom s fid x.cplRing) x.tx
    let s := s.modRing fid r ({ · with tx := x.tx.drop ps.length, done := doneAfter x.done ps })
    let s := if ps.any (·.fixed = some 3) then s.modRing fid r (fun x => { x with err := x.err ||| 64 }) else s
    cplWrite fid x.cplRing (ps.map (TxPkt.entry r x.type)) s
  else s

end Sys2Proof.Machine
end

