-- ==== Sys2Proof/Machine/Fetch.lean ====
section
/-! DEFINITION. When a transmit ring fetches: back-pressure on its function, room on its completion ring and in its pipeline, and the descriptor
reads (R91, R95, R98, R113, R173, R206). -/

namespace Sys2Proof.Machine

/-! ### Buffer owners as fetch sees them (R201, R206) -/

def ownerKey (kind id : Nat) : Nat := kind * 1048576 + id
def ownerKind (o : Nat) : Nat := o / 1048576
def ownerId (o : Nat) : Nat := o % 1048576

/-- An owner's record. -/
def ownerOf (s : State) (o : Nat) : Owner := mgetD s.pkt.owners o {}

/-- Back-pressure holds on an owner. -/
def bpOn (s : State) (o : Nat) : Bool := !(ownerOf s o).causes.isEmpty

/-- Transmit fetch of a function is stopped (R206). -/
def fnBackpressured (s : State) (fid : Nat) : Bool := bpOn s (ownerKey 1 fid)

/-! ### Fetch (R98, R99, R113, R173) -/

/-- A logical pipeline has a context for one packet more: those of its engines, less the packets of hosts and threads that wait for one
already (R171, R173). -/
def ctxRoom (s : State) (pipe : Nat) : Bool :=
  let ask (k : Pkt) : Bool := match k.src with
    | .eth _ => false
    | _ => true
  (mgetD s.pkt.ctxs pipe []).length + ((mgetD s.pkt.ingress pipe []).filter ask).length < 512

/-- The ring may fetch: ACTIVE, its function awake and not frozen, its completion ring not full; back-pressure, and a pipeline whose
contexts are all occupied, stop it at the next packet boundary (R91, R113, R173). -/
def mayFetch (s : State) (fid r : Nat) : Bool :=
  let x := ringOf s fid r
  let f := fnD s fid
  x.state = 1 && x.type = 0 && !f.d3 && !f.frozen && !s.eft.basking && !cplFull s fid x.cplRing
    && (!x.partialDescs.isEmpty || (!fnBackpressured s fid && ctxRoom s (pipeOfHost (fidPort fid))))

/-- Descriptors that one read takes: what is owned, 16 at most, up to the ring's end (R95, R98). -/
def fetchCount (x : Ring) : Nat := min (min 16 (sub32 x.lastRead x.ci)) (2 ^ x.log2 - x.ci % 2 ^ x.log2)

/-- Buffer descriptors that one read takes after those in hand: what is owned, 16 at most, up to the ring's end, in one request of the
function (R64, R95, R98). -/
def bufCount (s : State) (fid : Nat) (x : Ring) : Nat :=
  let i := add32 x.ci x.bufs.length
  let slot := i % 2 ^ x.log2
  min (min 16 (sub32 x.lastRead i)) (min (2 ^ x.log2 - slot) ((mrrsOf s fid - 16 * slot % mrrsOf s fid) / 16))

/-- Reads the next owned buffer descriptors of a receive ring, when there are any and none are being read (R98). -/
def readBufs (fid r : Nat) (s : State) : State :=
  let x := ringOf s fid r
  let f := fnD s fid
  let n := bufCount s fid x
  if x.state = 1 && x.type = 1 && !f.d3 && !f.frozen && !s.eft.basking && 0 < n
      && !liveRead s (fun q => q.fid = fid && q.purpose = .desc r) then
    s.hostRd fid (x.base + 16 * (add32 x.ci x.bufs.length % 2 ^ x.log2)) (16 * n) (.desc r)
  else s

/-- Reads the next owned descriptors, when there are any and none are being read: a receive ring's while it has fewer than 16 in hand. -/
def kick (fid r : Nat) (s : State) : State :=
  let x := ringOf s fid r
  if x.type = 1 then (if x.bufs.length < 16 then readBufs fid r s else s)
  else if mayFetch s fid r && x.ci ≠ x.lastRead && !liveRead s (fun q => q.fid = fid && q.purpose = .desc r) then
    s.hostRd fid (x.base + 32 * (x.ci % 2 ^ x.log2)) (32 * fetchCount x) (.desc r)
  else s

/-- Rings of a function, kicked. -/
def kickAll (fid : Nat) (s : State) : State := (fnD s fid).rings.foldl (fun s (r, _) => kick fid r s) s

/-- The functions whose packets enter a pipeline fetch again, once it has contexts where before it had none (R173). -/
def resumeHosts (pipe : Nat) (old s : State) : State :=
  if ctxRoom old pipe || !ctxRoom s pipe then s
  else (s.fns.filter (fun e => pipeOfHost (fidPort e.1) = pipe)).foldl (fun s e => kickAll e.1 s) s

end Sys2Proof.Machine
end

