-- ==== Sys2Proof/Machine/Channels.lean ====
section
/-! DEFINITION. Channels of the Skink cores as hardware writes them, and the partitions behind them (R313, R318 to R323). -/

namespace Sys2Proof.Machine

/-- A partition. -/
def part? (s : State) (p : Nat) : Option Part := mget? s.skk.parts p

/-- The state with a partition changed. -/
def State.modPart (s : State) (p : Nat) (f : Part → Part) : State :=
  match part? s p with
  | some x => { s with skk := { s.skk with parts := mput s.skk.parts p (f x) } }
  | none => s

/-- A thread, STOPPED when nothing is recorded of it. -/
def threadOf (s : State) (tid : Nat) : Thread := mgetD s.skk.threads tid {}

/-- The state with a thread changed. -/
def State.modThread (s : State) (tid : Nat) (f : Thread → Thread) : State :=
  { s with skk := { s.skk with threads := mput s.skk.threads tid (f (threadOf s tid)) } }

/-- A channel. -/
def chanOf (s : State) (ch : Nat) : Channel := mgetD s.skk.chans ch {}

/-- The state with a channel changed. -/
def State.modChan (s : State) (ch : Nat) (f : Channel → Channel) : State :=
  { s with skk := { s.skk with chans := mput s.skk.chans ch (f (chanOf s ch)) } }

/-- The cluster of a core, thread or channel. -/
def coreCluster (core : Nat) : Nat := core / 8
def tidCore (tid : Nat) : Nat := tid / 8
def chanCluster (ch : Nat) : Nat := ch / 4096

/-- The partition that a thread runs in. -/
def partOfThread (s : State) (tid : Nat) : Nat :=
  ((s.skk.parts.find? (fun e => e.2.cores.contains (tidCore tid))).map (·.1)).getD 0

/-- The channel lies in the partition's range: in one of its clusters, within its channel numbers (R313). -/
def Part.owns (p : Part) (ch : Nat) : Bool :=
  p.cores.any (fun c => coreCluster c = chanCluster ch) && p.first ≤ ch % 4096 && ch % 4096 < p.first + p.channels

/-- The partition that a channel belongs to; 0 for none. -/
def partOfChan (s : State) (ch : Nat) : Nat := ((s.skk.parts.find? (fun e => e.2.owns ch)).map (·.1)).getD 0

/-- The supervisor: the thread of the partition with the lowest thread ID. -/
def supervisorOf (p : Part) : Nat := (p.cores.headD 0) * 8

/-- The fault channel of a partition: the first channel of its range (R321). -/
def faultChan (p : Part) : Nat := coreCluster (p.cores.headD 0) * 4096 + p.first

/-- The channel is external: its entry says so, or it is the fault channel (R321). -/
def isExternal (s : State) (ch : Nat) : Bool :=
  (chanOf s ch).ext ||
    match part? s (partOfChan s ch) with
    | some p => faultChan p = ch
    | none => false

/-- A channel has room for one message more: 16, less the places reserved (R318, R324). -/
def chanRoom (s : State) (ch : Nat) : Bool := (chanOf s ch).msgs.length + (chanOf s ch).reserved < 16

/-- A thread's register written; x0 stays zero. -/
def Thread.setReg (t : Thread) (r v : Nat) : Thread := if r = 0 then t else { t with regs := mput t.regs r (v % 2 ^ 64) }

/-- The thread's instruction retires with a value in its destination register: it is READY, or HALTED when it single-steps. -/
def endWait (tid rd v : Nat) (s : State) : State :=
  s.modThread tid (fun t => { t.setReg rd v with state := if t.stepping then 4 else 2, wait := none, stepping := false })

/-- A supervisor that waits on anything but the fault channel is woken by a message on it, with −1 (R335). -/
def wakeSup (ch : Nat) (s : State) : State :=
  match part? s (partOfChan s ch) with
  | none => s
  | some p =>
    let sup := supervisorOf p
    let t := threadOf s sup
    if faultChan p ≠ ch || t.state ≠ 3 then s
    else match t.wait with
      | some (.read c rd) => if c = ch then s else endWait sup rd (2 ^ 64 - 1) s
      | some (.any base mask rd) => if base ≤ ch && ch < base + 64 && bit mask (ch - base) then s else endWait sup rd (2 ^ 64 - 1) s
      | some (.join target rd) => endWait sup rd (2 ^ 64 - 1) (s.modThread target ({ · with joiner := none }))
      | _ => s

/-- A message joins a channel. -/
def chPush (ch : Nat) (m : Msg) (s : State) : State := wakeSup ch (s.modChan ch (fun c => { c with msgs := c.msgs ++ [m] }))

/-- Delivers a message from hardware, when the channel's partition runs and there is room. -/
def hwDeliver (s : State) (ch : Nat) (m : Msg) : State × Bool :=
  let running : Bool := match part? s (partOfChan s ch) with
    | some p => p.running
    | none => false
  if running && isExternal s ch && chanRoom s ch then (chPush ch m s, true) else (s, false)

/-- The cluster of a vendor partition, from the configuration store (R313). -/
def vendorCluster (s : State) (part : Nat) : Nat := s.nv.vendorClusters.getD (part - 1) (part - 1) % 16

/-- The channels that hardware and the vendor services use (log entry 20). -/
def slowPathChan (s : State) : Nat := vendorCluster s 1 * 4096 + 1
def learnChan (s : State) : Nat := vendorCluster s 1 * 4096 + 2
def controlChan (s : State) (part : Nat) : Nat := vendorCluster s part * 4096 + 3
def mgmtChan (s : State) : Nat := vendorCluster s 2 * 4096 + 4

/-- The learning service runs: its partition runs and the Eft neither restarts nor activates firmware (R149). -/
def learnServiceUp (s : State) : Bool :=
  !s.eft.headless && !s.eft.activating &&
    match part? s 1 with
    | some p => p.running
    | none => false

/-- The metering export and management service runs. -/
def mgmtServiceUp (s : State) : Bool :=
  match part? s 2 with
  | some p => p.running
  | none => false

end Sys2Proof.Machine
end

