-- ==== Sys2Proof/Machine/Parser.lean ====
section
/-! DEFINITION. The parser and the classifier key: header types, the header list and its levels, depth limits, parse errors,
fragments, the two views, and the parsed-field dictionary (R118 to R126). -/

namespace Sys2Proof.Machine

/-- Byte `i` of a frame; bytes beyond its end read 0. -/
def at8 (bs : List Byte) (i : Nat) : Nat := (bs.getD i 0).toNat

/-- The big-endian number in `n` bytes from `i`. -/
def atBe (bs : List Byte) (i n : Nat) : Nat := (List.range n).foldl (fun a k => a * 256 + at8 bs (i + k)) 0

/-! ### Parse records (R121) -/

/-- A parse record at reset. -/
def parseReset : Nat :=
  pack [(10, 256), (2, 1), (3, 2), (4, 4), (3, 4), (2, 1), (1, 1), (7, 0), (16, 4789), (16, 6081), (16, 4420), (16, 0),
    (16, 0x88B5), (16, 0)]

def recBytes (r : Nat) : Nat := bits r 0 10
def recTunnel (r : Nat) : Nat := bits r 10 2
def recVlan (r : Nat) : Nat := bits r 12 3
def recMpls (r : Nat) : Nat := bits r 15 4
def recV6 (r : Nat) : Nat := bits r 19 3
def recMplsNext (r : Nat) : Nat := bits r 22 2
def recGeneveOpts (r : Nat) : Bool := bit r 24
def recVxlan (r : Nat) : Nat := bits r 32 16
def recGeneve (r : Nat) : Nat := bits r 48 16
def recNvme (r : Nat) : Nat := bits r 64 16
def recNvme2 (r : Nat) : Nat := bits r 80 16
def recSpray (r : Nat) : Nat := bits r 96 16

/-- The first field of a parse record that is outside its range, as an offset in the request (R121). -/
def parseRecOk (r : Nat) : Bool :=
  64 ≤ recBytes r && recBytes r ≤ 512 && recVlan r ≤ 4 && recMpls r ≤ 8 && recV6 r ≤ 6
    && recVxlan r ≠ 0 && recGeneve r ≠ 0 && recNvme r ≠ 0 && (recSpray r = 0 || 0x600 ≤ recSpray r)

/-! ### What follows a header (R118) -/

/-- What follows an EtherType, and whether the Ethernet type opens a level of its own (a GRE or GENEVE protocol type does). -/
def afterEtype (spray t : Nat) : Nat :=
  if spray ≠ 0 && t = spray then 0x19
  else match t with
    | 0x8100 => 0x02
    | 0x88A8 => 0x03
    | 0x8847 | 0x8848 => 0x04
    | 0x0800 => 0x05
    | 0x86DD => 0x06
    | 0x88E5 => 0x17
    | 0x88F7 => 0x18
    | _ => 0

/-- What a GRE or GENEVE protocol type opens. -/
def afterTunnel (t : Nat) : Nat :=
  match t with
  | 0x6558 => 0x01
  | 0x0800 => 0x05
  | 0x86DD => 0x06
  | _ => 0

/-- What follows an IP protocol number; IPv6 extension headers and ICMPv6 stand in IPv6 only, ICMP in IPv4 only. -/
def afterProto (v6 : Bool) (p : Nat) : Nat :=
  match p with
  | 4 => 0x05
  | 41 => 0x06
  | 6 => 0x0C
  | 17 => 0x0B
  | 47 => 0x0F
  | 50 => 0x14
  | 0 => if v6 then 0x07 else 0
  | 43 => if v6 then 0x08 else 0
  | 44 => if v6 then 0x09 else 0
  | 60 => if v6 then 0x0A else 0
  | 58 => if v6 then 0x0E else 0
  | 1 => if v6 then 0 else 0x0D
  | _ => 0

/-- A GRE header at `o` that is an NVGRE header: K set, version 0, protocol type 0x6558. -/
def isNvgre (bs : List Byte) (o : Nat) : Bool := bit (atBe bs o 2) 13 && atBe bs o 2 % 8 = 0 && atBe bs (o + 2) 2 = 0x6558

/-- The bytes that must be seen before a header's length is known. -/
def fixedLen (code : Nat) : Nat :=
  match code with
  | 0x01 => 14
  | 0x05 => 20
  | 0x06 => 40
  | 0x07 | 0x08 | 0x0A => 2
  | 0x0C => 20
  | 0x0F => 4
  | 0x15 => 12
  | 0x17 => 1
  | 0x18 => 34
  | 0x02 | 0x03 | 0x04 => 4
  | 0x13 => 0
  | _ => 8

/-- The bytes parsed of the header of this code at `o`. -/
def hdrLen (bs : List Byte) (code o : Nat) : Nat :=
  match code with
  | 0x05 => at8 bs o % 16 * 4
  | 0x07 | 0x08 | 0x0A => (at8 bs (o + 1) + 1) * 8
  | 0x0C => at8 bs (o + 12) / 16 * 4
  | 0x0F =>
    if isNvgre bs o then 8
    else 4 + 4 * (b2n (bit (at8 bs o) 7) + b2n (bit (at8 bs o) 5) + b2n (bit (at8 bs o) 4))
  | 0x13 => at8 bs (o - 8) % 64 * 4
  | 0x17 => if bit (at8 bs o) 5 then 16 else 8
  | c => fixedLen c

/-- The parse error that the header's own bytes show (R123). -/
def hdrErr (bs : List Byte) (code o : Nat) : Nat :=
  match code with
  | 0x05 =>
    if at8 bs o / 16 ≠ 4 || at8 bs o % 16 < 5 then 2
    else if bs.length - o < atBe bs (o + 2) 2 then 4 else 0
  | 0x06 => if at8 bs o / 16 ≠ 6 then 3 else if bs.length - o - 40 < atBe bs (o + 4) 2 then 4 else 0
  | 0x0C => if at8 bs (o + 12) / 16 < 5 then 5 else 0
  | 0x0F => if at8 bs (o + 1) % 8 ≠ 0 then 8 else 0
  | 0x12 => if bs.length < o + 8 + at8 bs o % 64 * 4 then 6 else 0
  | _ => 0

/-! ### The walk (R119, R122 to R124) -/

/-- The walk's working state. -/
structure Walk where
  /-- M: what has been found. -/
  p : Parse := {}
  /-- M: tags in the level. -/
  tags : Nat := 0
  /-- M: labels in the level. -/
  labels : Nat := 0
  /-- M: extension headers of the IPv6 header. -/
  exts : Nat := 0
  deriving DecidableEq, Repr

/-- Where the walk goes next: a header code, its offset, and whether it opens a level. -/
abbrev NextHdr := Option (Nat × Nat × Bool)

/-- The IPv6 fragment header sought along the extension chain past MAX_V6EXT, within MAX_BYTES (R124). -/
def fragBeyond : Nat → Nat → List Byte → Nat → Nat → Bool
  | 0, _, _, _, _ => false
  | n + 1, lim, bs, code, o =>
    if lim ≤ o then false
    else if code = 0x09 then true
    else if [0x07, 0x08, 0x0A].contains code && o + 2 ≤ lim then
      fragBeyond n lim bs (afterProto true (at8 bs o)) (o + hdrLen bs code o)
    else false

/-- The depth limit that a header of this code would break, before its bytes are looked at (R122). Of several that one header breaks, the
first met is the first of this order, and BYTES is the last (log entry 103, DESIGN CHOICE). -/
def limitHit (r : Nat) (w : Walk) (code level : Nat) : Nat :=
  if recTunnel r < level then 2
  else if (code = 2 || code = 3) && recVlan r ≤ w.tags then 3
  else if code = 4 && recMpls r ≤ w.labels then 4
  else if [0x07, 0x08, 0x09, 0x0A].contains code && recV6 r ≤ w.exts then 5
  else if 64 ≤ w.p.hdrs.length then 6
  else 0

/-- What follows the header just listed (R118, R119). A UDP port that two of the record's ports and the fixed ports share is taken in this
order, and an EtherType that SPRAY_ETYPE shares is the shim's (log entry 103, DESIGN CHOICE). -/
def follow (r : Nat) (eth : Bool) (bs : List Byte) (code o len : Nat) : NextHdr :=
  let e := o + len
  let spray := if eth then recSpray r else 0
  let byType (i : Nat) : NextHdr := some (afterEtype spray (atBe bs i 2), i + 2, false)
  let byProto (six : Bool) (p : Nat) : NextHdr := some (afterProto six p, e, p = 4 || p = 41)
  match code with
  | 0x01 => byType (o + 12)
  | 0x02 | 0x03 => byType (o + 2)
  | 0x19 => byType (o + 6)
  | 0x17 => if bit (at8 bs o) 3 then none else byType (e - 2)
  | 0x04 =>
    if !bit (at8 bs (o + 2)) 0 then some (0x04, e, false)
    else match recMplsNext r with
      | 1 => match at8 bs e / 16 with
        | 4 => some (0x05, e, false)
        | 6 => some (0x06, e, false)
        | _ => some (0x3F, e, false)
      | 2 => some (0x01, e, true)
      | 3 => some (0x01, e + 4, true)
      | _ => none
  | 0x05 => if atBe bs (o + 6) 2 % 8192 ≠ 0 then none else byProto false (at8 bs (o + 9))
  | 0x06 => byProto true (at8 bs (o + 6))
  | 0x07 | 0x08 | 0x0A => byProto true (at8 bs o)
  | 0x09 => if atBe bs (o + 2) 2 / 8 ≠ 0 then none else byProto true (at8 bs o)
  | 0x0B =>
    let d := atBe bs (o + 2) 2
    if d = recVxlan r then some (0x11, e, false)
    else if d = recGeneve r then some (0x12, e, false)
    else if d = 4791 then some (0x15, e, false)
    else if d = 319 || d = 320 then some (0x18, e, false)
    else none
  | 0x0C =>
    let is (p : Nat) : Bool := p = recNvme r || (recNvme2 r ≠ 0 && p = recNvme2 r)
    if is (atBe bs o 2) || is (atBe bs (o + 2) 2) then some (0x16, e, false) else none
  | 0x0F => some (afterTunnel (atBe bs (o + 2) 2), e, true)
  | 0x10 | 0x11 => some (0x01, e, true)
  | 0x12 =>
    let opt := at8 bs o % 64 * 4
    if opt ≠ 0 && recGeneveOpts r then some (0x13, e, false)
    else some (afterTunnel (atBe bs (o + 2) 2), e + opt, true)
  | 0x13 => some (afterTunnel (atBe bs (o - 6) 2), e, true)
  | _ => none

/-- The VNI that a tunnel header carries (R120). A GRE or IP-in-IP header has none, and leaves the VNI of the tunnel outside it in place (log
entry 103, DEDUCED). -/
def hdrVni (bs : List Byte) (code o : Nat) : Option Nat :=
  if code = 0x10 || code = 0x11 || code = 0x12 then some (atBe bs (o + 4) 3) else none

/-- The header shows the packet to be a fragment (R124). -/
def hdrFrag (bs : List Byte) (code o : Nat) : Bool :=
  code = 0x09 || (code = 0x05 && (bit (at8 bs (o + 6)) 5 || atBe bs (o + 6) 2 % 8192 ≠ 0))

/-- Stops the walk with a parse error (R123, R124). -/
def Walk.error (w : Walk) (e : Nat) : Walk := { w with p := { w.p with err := e, errAfterFrag := w.p.frag } }

/-- Stops the walk at a depth limit (R122). -/
def Walk.limit (w : Walk) (d : Nat) : Walk := { w with p := { w.p with depth := d } }

/-- Lists headers from the one of this code at `o`. A length that is inconsistent is an error of a header that is seen whole; a wrong version
is an error of a header whose fixed bytes are seen, though the rest cross MAX_BYTES (log entry 103, DESIGN CHOICE). An MPLS payload of
neither IP version is no header, and an error ahead of any limit (R123). -/
def walk (r : Nat) (eth : Bool) (bs : List Byte) : Nat → Nat → Nat → Nat → Walk → Walk
  | 0, _, _, _, w => w
  | fuel + 1, code, o, level, w =>
    if code = 0 || bs.length ≤ o then w
    else
      let seen := min bs.length (recBytes r)
      let short (k : Nat) : Bool := seen < o + k
      let cut (w : Walk) : Walk := if bs.length ≤ recBytes r then w.error 1 else w.limit 1
      if code = 0x3F then if short 1 then cut w else w.error 7
      else match limitHit r w code level with
      | 5 =>
        let w := if fragBeyond 64 seen bs code o then { w with p := { w.p with frag := true } } else w
        w.limit 5
      | d + 1 => w.limit (d + 1)
      | 0 =>
        if short (fixedLen code) then cut w
        else
          let code := if code = 0x0F && isNvgre bs o then 0x10 else code
          match hdrErr bs code o with
          | 0 =>
            let len := hdrLen bs code o
            if short len then cut w
            else
              let w := { w with
                p := { w.p with
                  hdrs := w.p.hdrs ++ [{ code, off := o, level, len }]
                  levels := level
                  frag := w.p.frag || hdrFrag bs code o
                  vni := (hdrVni bs code o).getD w.p.vni }
                tags := if code = 2 || code = 3 then w.tags + 1 else w.tags
                labels := if code = 4 then w.labels + 1 else w.labels
                exts := if code = 0x06 then 0 else if [0x07, 0x08, 0x09, 0x0A].contains code then w.exts + 1 else w.exts }
              match follow r eth bs code o len with
              | none => w
              | some (c, o', up) =>
                if c = 0 then w
                else walk r eth bs fuel c o' (if up then level + 1 else level)
                  (if up then { w with tags := 0, labels := 0 } else w)
          | e => if e = 4 && short (hdrLen bs code o) then cut w else w.error e

/-- Parses a frame under a parse record; `eth` on an Ethernet parse port, where the spray shim is recognised. -/
def parseFrame (r : Nat) (eth : Bool) (bs : List Byte) : Parse := (walk r eth bs 66 0x01 0 0 {}).p

/-- The parse end: the first byte after the parsed bytes of the last listed header, or the frame's length if smaller (R119). -/
def parseEnd (p : Parse) (len : Nat) : Nat :=
  match p.hdrs.getLast? with
  | some h => min (h.off + h.len) len
  | none => 0

/-! ### Views and the dictionary (R120, R126) -/

/-- The first header of a level with one of these codes. -/
def hdrIn (p : Parse) (level : Nat) (codes : List Nat) : Option Hdr :=
  p.hdrs.find? (fun h => h.level = level && codes.contains h.code)

/-- The headers of a level with one of these codes. -/
def hdrsIn (p : Parse) (level : Nat) (codes : List Nat) : List Hdr :=
  p.hdrs.filter (fun h => h.level = level && codes.contains h.code)

/-- A field taken from a header of the level, or zero (R120). -/
def fromHdr (p : Parse) (level : Nat) (codes : List Nat) (f : Hdr → Nat) : Nat :=
  match hdrIn p level codes with
  | some h => f h
  | none => 0

/-- The L4 codes of field 0x15. -/
def l4Codes : List Nat := [0x0B, 0x0C, 0x0D, 0x0E, 0x14]

/-- The extension headers of IPv6. -/
def extCodes : List Nat := [0x07, 0x08, 0x09, 0x0A]

/-- A field of the dictionary that depends on the view: the level it is taken from is given (R126). -/
def levelField (p : Parse) (bs : List Byte) (level id : Nat) : Nat :=
  let tag (i f : Nat) : Nat := match (hdrsIn p level [2, 3])[i]? with
    | some h => let t := atBe bs h.off 2
                if f = 0 then t % 4096 else if f = 1 then t / 8192 else t / 4096 % 2
    | none => 0
  let ip (f4 f6 : Nat → Nat) : Nat := fromHdr p level [5, 6] (fun h => if h.code = 5 then f4 h.off else f6 h.off)
  let label (f : Nat → Nat) : Nat := fromHdr p level [4] (fun h => f (atBe bs h.off 4))
  match id with
  | 0x08 => (hdrsIn p level [2, 3]).length
  | 0x09 => (hdrsIn p level [4]).length
  | 0x0A => (hdrsIn p level extCodes).length
  | 0x0B => fromHdr p level [1] (fun h => atBe bs h.off 6)
  | 0x0C => fromHdr p level [1] (fun h => atBe bs (h.off + 6) 6)
  | 0x0D => match (hdrsIn p level [1, 2, 3, 0x19]).getLast? with
    | some h => atBe bs (h.off + h.len - 2) 2
    | none => 0
  | 0x0E => tag 0 0
  | 0x0F => tag 0 1
  | 0x10 => tag 0 2
  | 0x11 => tag 1 0
  | 0x12 => tag 1 1
  | 0x13 => tag 1 2
  | 0x14 => ip (fun _ => 1) (fun _ => 2)
  | 0x15 => fromHdr p level l4Codes (·.code)
  | 0x16 => label (· / 4096)
  | 0x17 => label (· / 512 % 8)
  | 0x18 => label (· / 256 % 2)
  | 0x1A => ip (fun o => atBe bs (o + 12) 4) (fun o => atBe bs (o + 8) 16)
  | 0x1B => ip (fun o => atBe bs (o + 16) 4) (fun o => atBe bs (o + 24) 16)
  | 0x1C => ip (fun o => at8 bs (o + 9)) (fun o => match (hdrsIn p level extCodes).getLast? with
      | some h => at8 bs h.off
      | none => at8 bs (o + 6))
  | 0x1D => ip (fun o => at8 bs (o + 1) / 4) (fun o => atBe bs o 2 / 64 % 64)
  | 0x1E => ip (fun o => at8 bs (o + 1) % 4) (fun o => atBe bs o 2 / 16 % 4)
  | 0x1F => ip (fun o => at8 bs (o + 8)) (fun o => at8 bs (o + 7))
  | 0x20 => fromHdr p level l4Codes (fun h => if h.code = 0x0C then at8 bs (h.off + 13) else 0)
  | 0x21 => fromHdr p level l4Codes (fun h =>
      if h.code = 0x0D || h.code = 0x0E then at8 bs h.off + 256 * at8 bs (h.off + 1)
      else if h.code = 0x14 then atBe bs (h.off + 2) 2
      else atBe bs h.off 2)
  | 0x22 => fromHdr p level l4Codes (fun h =>
      if h.code = 0x0D || h.code = 0x0E then 0
      else if h.code = 0x14 then atBe bs h.off 2
      else atBe bs (h.off + 2) 2)
  | 0x23 => fromHdr p level [6] (fun h => atBe bs h.off 4 % 2 ^ 20)
  | _ => 0

/-- The level of a view: 0 innermost, 1 outermost (R120, R127). -/
def viewLevel (p : Parse) (view : Nat) : Nat := if view = 0 then p.levels else 0

/-- The source function's or thread's tenant, as field 0x07 holds it before classification. -/
def srcTenant (k : Pkt) : Nat :=
  match k.src with
  | .eth _ => 0
  | _ => k.tenant

/-- A field of the dictionary by ID (R126). -/
def dictField (k : Pkt) (view id : Nat) : Nat :=
  match id with
  | 0x00 => k.inPort
  | 0x01 => match k.src with
    | .host .. => 1
    | _ => 0
  | 0x02 => match k.src with
    | .inject _ => 1
    | _ => 0
  | 0x03 => b2n (k.parse.depth ≠ 0)
  | 0x04 => b2n k.macsecOk
  | 0x05 => k.parse.levels
  | 0x06 => match k.src with
    | .host .. => k.fid
    | _ => 0
  | 0x07 => srcTenant k
  | 0x19 => k.parse.vni
  | 0x28 => k.parse.hdrs.length
  | 0x29 => k.parse.depth
  | 0x2A => k.parse.err
  | 0x2B => k.rxLen
  | 0x2C => k.pad
  | 0x2D => k.rxTs.getD 0
  | 0x30 => k.rule
  | 0x31 => k.cls
  | 0x32 => k.colour
  | 0x33 => k.queue.getD 0x3FFFF
  | 0x34 => k.arg
  | _ => levelField k.parse k.bytes (viewLevel k.parse view) id

/-- The fields of the key with their widths, from key bit 0; code 0xFF stands for reserved bits (R126). -/
def keyLayout : List (Nat × Nat) :=
  [(0x00, 8), (0x01, 1), (0x02, 1), (0x03, 1), (0x04, 1), (0x05, 2), (0xFF, 2), (0x06, 16), (0x07, 16), (0x08, 3), (0xFF, 1),
   (0x09, 4), (0x0A, 3), (0xFF, 5), (0x0B, 48), (0x0C, 48), (0x0D, 16), (0x0E, 12), (0x0F, 3), (0x10, 1), (0x11, 12),
   (0x12, 3), (0x13, 1)]
  ++ [(0x14, 4), (0x15, 6), (0xFF, 6), (0x16, 20), (0x17, 3), (0x18, 1), (0xFF, 8), (0x19, 24), (0xFF, 8), (0x1A, 128),
   (0x1B, 128), (0x1C, 8), (0x1D, 6), (0x1E, 2), (0x1F, 8), (0x20, 8), (0x21, 16), (0x22, 16), (0x23, 20), (0xFF, 12)]

/-- The 640-bit classifier key of a packet in a view (R126). -/
def classKey (k : Pkt) (view : Nat) : Nat :=
  pack (keyLayout.map (fun (id, w) => (w, if id = 0xFF then 0 else dictField k view id)))

/-- The key bits that are reserved (R126, R127). -/
def keyReserved : Nat := pack (keyLayout.map (fun (id, w) => (w, if id = 0xFF then 2 ^ w - 1 else 0)))

/-- The packet is a PTP event message: its parse ends in a PTP header whose message type is below 4 (IEEE 1588). -/
def isPtpEvent (p : Parse) (bs : List Byte) : Bool :=
  p.hdrs.any (fun h => h.code = 0x18 && at8 bs h.off % 16 < 4)

/-- Where the 8 bytes of a frame's spray shim begin: the two bytes of ETYPE before its entry (R118, R164). -/
def shimAt (p : Parse) : Option Nat := (p.hdrs.find? (·.code = 0x19)).map (·.off - 2)

end Sys2Proof.Machine
end

