-- ==== Sys2Proof/Machine/Tables.lean ====
section
/-! DEFINITION. Cuckoo tables: insertion, deletion, lookup, rehash and the stash (R152 to R157), and the layouts of the table
entries (R138 to R145). -/

namespace Sys2Proof.Machine

/-! ### Table kinds -/

/-- What is particular to one of the three cuckoo tables. -/
structure TblKind where
  /-- M R139, R143, R144: key bits from bit 0. -/
  keyW : Nat
  /-- M: bit of GEN. -/
  genBit : Nat
  /-- M R136: slots. -/
  size : Nat

/-- The attachment map (R139). -/
def attKind : TblKind := { keyW := 34, genBit := 56, size := 2 ^ 20 }
/-- An L2 table (R143). -/
def l2Kind : TblKind := { keyW := 68, genBit := 72, size := 2 ^ 18 }
/-- The flow table (R144). -/
def flowKind : TblKind := { keyW := 318, genBit := 319, size := 2 ^ 24 }

/-- The key of an entry. -/
def keyOf (k : TblKind) (e : Nat) : Nat := bits e 0 k.keyW

/-- The two candidate buckets of a key under a seed (R152). -/
def bucketsOf (k : TblKind) (seed key : Nat) : Nat × Nat :=
  let h := keyedHash seed [key]
  let n := k.size / 4
  let b1 := h % 2 ^ 32 % n
  let b2 := h / 2 ^ 32 % n
  (b1, if b2 = b1 then b1 ^^^ 1 else b2)

/-- The slots of a bucket. -/
def bucketSlots (b : Nat) : List Nat := [4 * b, 4 * b + 1, 4 * b + 2, 4 * b + 3]

/-- The seed that an entry was placed under. -/
def seedOf (k : TblKind) (c : Cuckoo) (e : Nat) : Nat := if bits e k.genBit 1 = c.gen then c.seed else c.old.getD c.seed

/-- A lookup: every valid entry lies in a bucket of its key or in the stash, and at most one holds a given key (R152, R154). -/
def Cuckoo.find (k : TblKind) (c : Cuckoo) (key : Nat) : Option Nat :=
  ((c.slots ++ c.stash).find? (fun e => keyOf k e.2 = key)).map (·.2)

/-- Every entry. -/
def Cuckoo.entries (c : Cuckoo) : List Nat := (c.slots ++ c.stash).map (·.2)

/-- A free slot of one of two buckets, bucket 1 first. -/
def freeIn (c : Cuckoo) (b : Nat × Nat) : Option Nat :=
  (bucketSlots b.1 ++ bucketSlots b.2).find? (fun i => (mget? c.slots i).isNone)

/-- The bucket an entry could move to, other than the one that holds `slot`. -/
def otherBucket (k : TblKind) (c : Cuckoo) (slot : Nat) : Nat :=
  match mget? c.slots slot with
  | some e => let (a, b) := bucketsOf k (seedOf k c e) (keyOf k e); if slot / 4 = a then b else a
  | none => slot / 4

/-- A breadth-first search for a chain of moves, up to `fuel` more moves deep: each path is the slots to move, last first; the answer is
the free slot and the path (R153 step 2). -/
def findChain (k : TblKind) (c : Cuckoo) : Nat → List (List Nat) → Option (Nat × List Nat)
  | 0, _ => none
  | fuel + 1, paths =>
    let ends := paths.filterMap fun p => match p with
      | [] => none
      | s :: _ => ((bucketSlots (otherBucket k c s)).find? (fun i => (mget? c.slots i).isNone)).map (fun i => (i, p))
    match ends with
    | x :: _ => some x
    | [] => findChain k c fuel (paths.flatMap fun p => match p with
      | [] => []
      | s :: _ => ((bucketSlots (otherBucket k c s)).filter (fun i => !p.contains i)).map (· :: p))

/-- Carries a chain out from its free end backwards: each entry is written at its new slot before its old one is cleared (R154). -/
def runChain : List (Nat × Nat) → Nat → List Nat → List (Nat × Nat) × Nat
  | m, free, [] => (m, free)
  | m, free, s :: r =>
    match mget? m s with
    | some e => runChain (mdel (mput m free e) s) s r
    | none => runChain m free r

/-- Places an entry of the present generation (R153); nothing when the stash is full. -/
def Cuckoo.place (k : TblKind) (c : Cuckoo) (e : Nat) : Option Cuckoo :=
  let e := setBits e k.genBit 1 c.gen
  let b := bucketsOf k c.seed (keyOf k e)
  match freeIn c b with
  | some i => some { c with slots := mput c.slots i e }
  | none =>
    match findChain k c 4 ((bucketSlots b.1 ++ bucketSlots b.2).map (fun s => [s])) with
    | some (free, path) =>
      let (m, i) := runChain c.slots free path
      some { c with slots := mput m i e, moves := c.moves + path.length }
    | none => (leastBelow 64 (fun i => (mget? c.stash i).isNone)).map (fun i => { c with stash := mput c.stash i e })

/-- Rewrites the entry of the same key in place (R137). -/
def Cuckoo.rewrite (k : TblKind) (c : Cuckoo) (e : Nat) : Cuckoo :=
  let f (_ old : Nat) : Nat := if keyOf k old = keyOf k e then setBits e k.genBit 1 (bits old k.genBit 1) else old
  { c with slots := mmap c.slots f, stash := mmap c.stash f }

/-- Moves the first stash entry that has room in one of its buckets back into it, copy first (R153). -/
def unstash (k : TblKind) (c : Cuckoo) : Cuckoo :=
  match c.stash.findSome? (fun (i, e) => (freeIn c (bucketsOf k (seedOf k c e) (keyOf k e))).map (fun j => (i, e, j))) with
  | some (i, e, j) => { c with slots := mput c.slots j e, stash := mdel c.stash i, moves := c.moves + 1 }
  | none => c

/-- The table without the entry of a key, wherever it lies. -/
def Cuckoo.drop (k : TblKind) (c : Cuckoo) (key : Nat) : Cuckoo :=
  { c with slots := c.slots.filter (fun e => keyOf k e.2 ≠ key), stash := c.stash.filter (fun e => keyOf k e.2 ≠ key) }

/-- Entries of the old generation. -/
def Cuckoo.oldEntries (k : TblKind) (c : Cuckoo) : List Nat :=
  if c.old.isNone then [] else c.entries.filter (fun e => bits e k.genBit 1 ≠ c.gen)

/-- Reinserts an entry of the old generation under the new seed: its copy is placed while the old one still holds its slot, which is
cleared second (R157). -/
def Cuckoo.rehash1 (k : TblKind) (c : Cuckoo) (e : Nat) : Cuckoo :=
  let old (x : Nat × Nat) : Bool := keyOf k x.2 = keyOf k e && bits x.2 k.genBit 1 ≠ c.gen
  match c.place k e with
  | some c' => { c' with moved := c.moved + 1, slots := c'.slots.filter (!old ·), stash := c'.stash.filter (!old ·) }
  | none => { c with unplaced := c.unplaced + 1, fails := c.fails + 1 }

/-- A pass of the walker over every entry of the old generation; when none remains the old seed is erased (R157). -/
def Cuckoo.walkPass (k : TblKind) (c : Cuckoo) : Cuckoo :=
  let c := (c.oldEntries k).foldl (fun c e => Cuckoo.rehash1 k c e) { c with unplaced := 0 }
  if (c.oldEntries k).isEmpty then { c with old := none } else c

/-- Deletes a key: the stash gives back, and the walker retries the entries it could not place (R153, R157). -/
def Cuckoo.delete (k : TblKind) (c : Cuckoo) (key : Nat) : Cuckoo :=
  let c := unstash k (c.drop k key)
  if c.old.isSome && 0 < c.unplaced then c.walkPass k else c

/-! ### Attachment entries (R139), VN records (R140), L2 entries (R143), flow entries (R144), next hops (R145) -/

/-- The attachment key: KTYPE and the key bits. -/
def attKey (ktype key : Nat) : Nat := pack [(2, ktype), (32, key)]
def attVn (e : Nat) : Nat := bits e 34 20
def attFlood (e : Nat) : Bool := bit e 55

def vnTenant (r : Nat) : Nat := bits r 0 16
def vnVrf (r : Nat) : Nat := bits r 16 12
def vnLearn (r : Nat) : Bool := bit r 28
def vnFlowEn (r : Nat) : Bool := bit r 29
def vnFlowMiss (r : Nat) : Bool := bit r 30
def vnDropUnknown (r : Nat) : Bool := bit r 31
def vnRoute (r : Nat) : Bool := bit r 32
def vnRmac (r : Nat) : Nat := bits r 33 4
def vnValid (r : Nat) : Bool := bit r 37

/-- The L2 key of a MAC in a VN. -/
def l2Key (mac vn : Nat) : Nat := pack [(48, mac), (20, vn)]
def l2Static (e : Nat) : Bool := bit e 69
def l2Remote (e : Nat) : Bool := bit e 70
def l2Fallback (e : Nat) : Bool := bit e 71
def l2SrcHost (e : Nat) : Bool := bit e 73
def l2Src (e : Nat) : Nat := bits e 80 16
def l2Dest (e : Nat) : Nat := bits e 96 24
def l2Ts (e : Nat) : Nat := bits e 128 32
/-- Builds an L2 entry. -/
def mkL2 (mac vn : Nat) (static remote fallback host : Bool) (src dest ts : Nat) : Nat :=
  pack [(48, mac), (20, vn), (1, 1), (1, b2n static), (1, b2n remote), (1, b2n fallback), (1, 0), (1, b2n host), (6, 0), (16, src),
    (24, dest), (8, 0), (32, ts), (32, 0)]

/-- The flow key. -/
def flowKey (sip dip proto sport dport vn l3 : Nat) : Nat :=
  pack [(128, sip), (128, dip), (8, proto), (16, sport), (16, dport), (20, vn), (2, l3)]
def flowVn (e : Nat) : Nat := bits e 296 20
def flowDest (e : Nat) : Nat := bits e 320 24
def flowArg (e : Nat) : Nat := bits e 344 16
def flowOwner (e : Nat) : Nat := bits e 360 16
def flowPinned (e : Nat) : Bool := bit e 376
def flowTs (e : Nat) : Nat := bits e 384 32
def flowState (e : Nat) : Nat := bits e 416 32

def nhOut (r : Nat) : Nat := bits r 0 24
def nhDmac (r : Nat) : Nat := bits r 24 48
def nhRmac (r : Nat) : Nat := bits r 72 4
def nhVlan (r : Nat) : Nat := bits r 76 12
def nhEncap (r : Nat) : Nat := bits r 88 2
def nhVni (r : Nat) : Nat := bits r 90 24
def nhTtlDec (r : Nat) : Bool := bit r 114
def nhOuter (r : Nat) : Nat := bits r 128 128

/-! ### Destinations (R138) -/

def mkDest (type v : Nat) : Nat := type * 2 ^ 21 + v % 2 ^ 21
def destType (d : Nat) : Nat := d / 2 ^ 21 % 8
def destArg (d : Nat) : Nat := d % 2 ^ 21

/-- The longest matching prefix of an address of `w` bits in a VRF (R145). -/
def lpm (w : Nat) (rs : List Route) (vrf addr : Nat) : Option Nat :=
  let hits := rs.filter (fun r => r.vrf = vrf && r.net / 2 ^ (w - r.len) = addr / 2 ^ (w - r.len))
  (hits.foldl (fun (b : Option Route) r => match b with
    | some x => if x.len < r.len then some r else b
    | none => some r) none).map (·.dest)

end Sys2Proof.Machine
end

