-- ==== Sys2Proof/Machine/Pads.lean ====
section
/-! DEFINITION. The two Lily Pads: their records at reset, and Leap (R121, R131, R159, R210, R213, R220 to R226). -/

namespace Sys2Proof.Machine

/-- The Pad of a Pad bit. -/
def padOf (s : State) (b : Nat) : Pad := if b = 0 then s.pkt.padA else s.pkt.padB

/-- The state with a Pad changed. -/
def State.modPad (s : State) (b : Nat) (f : Pad → Pad) : State :=
  if b = 0 then { s with pkt := { s.pkt with padA := f s.pkt.padA } }
  else { s with pkt := { s.pkt with padB := f s.pkt.padB } }

/-- The state with the packet domain changed. -/
def State.modPkt (s : State) (f : PacketState → PacketState) : State := { s with pkt := f s.pkt }

/-- The shadow Pad's bit. -/
def shadowBit (s : State) : Nat := 1 - s.pkt.leap.active

/-! ### Records (R121, R131, R210, R213) -/

def parseRec (p : Pad) (port : Nat) : Nat := mgetD p.parse port parseReset
def defaultAct (p : Pad) (port : Nat) : Nat := mgetD p.defaults port 0
def ruleRec (p : Pad) (pipe slot : Nat) : Nat := mgetD p.rules (pipe * 32768 + slot) 0
def bindRec (p : Pad) (pipe i : Nat) : Nat := mgetD p.binds (pipe * 256 + i) 0

/-- A word of a rule entry. -/
def ruleWord (r w : Nat) : Nat := bits r (32 * w) 32

/-- A policer at reset: pass, colour-aware; a punt policer: packet mode, 2 M packets/s, a burst of 8,192 (R125, R210; log entry 21). -/
def policerReset (i : Nat) : Nat :=
  if 524279 ≤ i then pack [(2, 0), (1, 1), (29, 0), (32, 2000000), (32, 8192)] else pack [(2, 2), (1, 0), (1, 1)]

def policerRec (p : Pad) (i : Nat) : Nat := mgetD p.policers i (policerReset i)

/-- A node at reset (R213). -/
def nodeReset (level i : Nat) : Nat :=
  pack [(17, 0x1FFFF), (3, 7), (12, 1), (1, 0), (3, 0), (10, 0), (6, if level = 0 && i < 144 then 20 else 0)]

def nodeKey (level i : Nat) : Nat := level * 131072 + i
def nodeRec (p : Pad) (level i : Nat) : Nat := mgetD p.nodes (nodeKey level i) (nodeReset level i)
def nodeParent (r : Nat) : Nat := bits r 0 17
def nodePrio (r : Nat) : Nat := bits r 17 3
def nodeWeight (r : Nat) : Nat := bits r 20 12
def nodeResetTo (r : Nat) : Bool := bit r 32
def nodePfc (r : Nat) : Nat := bits r 33 3
def nodeDeadline (r : Nat) : Nat := bits r 36 10
def nodeOverhead (r : Nat) : Nat := bits r 46 6
def nodeCir (r : Nat) : Nat := bits r 64 32
def nodeCbs (r : Nat) : Nat := bits r 96 32
def nodePir (r : Nat) : Nat := bits r 128 32
def nodePbs (r : Nat) : Nat := bits r 160 32

/-- The nodes above a queue in a Pad: L2, L1 and L0 (R212). -/
def chainOf (p : Pad) (q : Nat) : Option (Nat × Nat × Nat) :=
  let l2 := nodeParent (nodeRec p 3 q)
  let l1 := nodeParent (nodeRec p 2 l2)
  let l0 := nodeParent (nodeRec p 1 l1)
  if l2 < 32768 && l1 < 4096 && l0 < 176 then some (l2, l1, l0) else none

/-- The egress port of a queue: its L0 ancestor. -/
def portOfQueue (p : Pad) (q : Nat) : Option Nat := (chainOf p q).map (·.2.2)

/-- The queue base of a destination: base and class count. -/
def qbaseOf (p : Pad) (dest : Nat) : Option (Nat × Nat) := (mget? p.qbases dest).map (fun v => (v / 32, v % 32))

/-! ### Groups' targets (R160) -/

/-- One turn of smooth weighted round robin over (weight, running weight): the index chosen and the weights after. -/
def wrrTurn (ws : List (Nat × Int)) : Nat × List (Nat × Int) :=
  let up := ws.map (fun (w, c) => (w, c + w))
  let total : Int := ws.foldl (fun a (w, _) => a + w) 0
  let best := up.zipIdx.foldl (fun (b : Nat × Int) x => if b.2 < x.1.2 then (x.2, x.1.2) else b) (0, -total - 1)
  (best.1, up.zipIdx.map (fun (x, i) => if i = best.1 then (x.1, x.2 - total) else x))

/-- The members chosen in `n` turns. -/
def wrrRun : Nat → List (Nat × Int) → List Nat
  | 0, _ => []
  | n + 1, ws => let (i, ws) := wrrTurn ws; i :: wrrRun n ws

/-- A group's member: ID and weight. -/
def memberId (m : Nat) : Nat := bits m 0 18
def memberWeight (m : Nat) : Nat := bits m 18 8

/-- The target member of a bucket. -/
def targetOf (g : Group) (b : Nat) : Nat := (wrrRun (b + 1) (g.members.map (fun m => (memberWeight m, 0)))).getD b 0

/-! ### Leap (R224 to R226) -/

/-- A Pad write would meet packets of the Pad in an action engine (R198, R223). -/
def padInEngines (s : State) (b : Nat) : Bool := s.pkt.ctxs.any (fun e => e.2.any (fun c => c.pkt.pad = b))

/-- Cells of queued packets that carry a Pad's bit (R221). -/
def vacatedCells (s : State) (b : Nat) : Nat :=
  (s.pkt.buf.filter (fun e => e.2.pkt.pad = b)).foldl (fun a e => a + e.2.cells) 0

/-- Packets that carry the Pad's bit are on egress queues, or are held in spray resequencing, from where they go on to queues (R165, R223). -/
def padQueued (s : State) (b : Nat) : Bool :=
  s.pkt.queues.any (fun e => e.2.any (fun c => ((mget? s.pkt.buf c.pkt).map (·.pkt.pad)) = some b))
    || s.pkt.sprayRx.any (fun e => e.2.held.any (fun h => h.2.pkt.pad = b))

/-- The trigger of a Leap (R225, R228). -/
def leapTrigger (spread : Nat) (s : State) : State :=
  let l := s.pkt.leap
  let gen := (l.gen + 1) % 65536
  let s := s.modPkt (fun p => { p with leap := { l with
    active := 1 - l.active, gen, shadow := 1, pending := none, chain := false, last := s.time, spread } })
  -- the Eft writes the new active Pad's parse records and default actions to the store (R404)
  let now := padOf s s.pkt.leap.active
  let s := { s with nv := { s.nv with parseRecs := now.parse, defaults := now.defaults } }
  s.event 0x0701 (.dev gen) (spread + if s.ptpLocked then 0 else 2 ^ 63)

def leapGen (s : State) : Nat := s.pkt.leap.gen
def leapPending (s : State) : Bool := s.pkt.leap.pending.isSome
def padEdited (s : State) : Bool := s.pkt.leap.shadow = 3

/-- Arms this unit for a chain-wide Leap at `time`, or refuses (R224, R227). -/
def leapArm (time : Nat) (s : State) : Option State :=
  if s.pkt.leap.pending.isSome || s.pkt.leap.shadow = 0 || time < s.time + 1000000 || s.time + 3600 * 10 ^ 9 < time then none
  else some (s.modPkt (fun p => { p with leap := { p.leap with pending := some time, chain := true } }))

/-- Disarms a chain-wide Leap. -/
def leapDisarm (s : State) : State :=
  if s.pkt.leap.chain then s.modPkt (fun p => { p with leap := { p.leap with pending := none, chain := false } }) else s

end Sys2Proof.Machine
end

