-- ==== Sys2Proof/Machine/Buffers.lean ====
section
/-! DEFINITION. The packet buffer: owners, pools, admission and thresholds, back-pressure, the copies on egress queues, the completion
accounting of transmitted packets, meters, policers and tokens (R199 to R211, R215, R377). -/

namespace Sys2Proof.Machine

/-! ### Meters (R376 to R378) -/

/-- Adds to a tenant's counter in the active increment bank. -/
def State.meterAdd (s : State) (tenant idx n : Nat) : State :=
  if n = 0 then s
  else { s with meter := { s.meter with active := mupd s.meter.active (tenant * 72 + idx) 0 (· + n) } }

/-- Counts a packet in: its disposition is decided (R377). -/
def meterIn (tenant cls bytes : Nat) (s : State) : State :=
  (s.meterAdd tenant (cls % 16) 1).meterAdd tenant (16 + cls % 16) bytes

/-- Counts a committed copy out (R377). -/
def meterOut (tenant cls bytes : Nat) (s : State) : State :=
  (s.meterAdd tenant (32 + cls % 16) 1).meterAdd tenant (48 + cls % 16) bytes

/-! ### Completion accounting of transmitted packets (R108 to R110) -/

/-- Changes the record of the transmitted packet that a source names, and writes the completions that become ready. -/
def txNote (src : Source) (f : TxPkt → TxPkt) (s : State) : State :=
  match src with
  | .host fid ring serial =>
    txFlush fid ring (s.modRing fid ring (fun r => { r with tx := r.tx.map (fun p => if p.serial = serial then f p else p) }))
  | _ => s

/-- A packet's copies are known: `n` copies take the place of the packet's own place among those open. -/
def txCopies (src : Source) (n cls colour : Nat) (s : State) : State :=
  txNote src (fun p => { p with open_ := p.open_ + n - 1, cls, colour }) s

/-- A copy was committed (R110): the first commit gives the timestamp. -/
def txCommit (src : Source) (s : State) : State :=
  txNote src (fun p => { p with open_ := p.open_ - 1, committed := p.committed + 1, ts := some (p.ts.getD s.time) }) s

/-- A copy was dropped for a reason of R109: the first reason met stays. -/
def txDrop (src : Source) (reason : Nat) (s : State) : State :=
  txNote src (fun p => { p with
    open_ := p.open_ - 1, dropped := p.dropped + 1, reason := if p.reason = 0 then reason else p.reason }) s

/-- A packet is dropped before it has copies: counted for its pipeline and reason. -/
def dropPkt (k : Pkt) (reason : Nat) (s : State) : State :=
  txDrop k.src reason (txNote k.src (fun p => { p with cls := k.cls, colour := k.colour }) (s.bump .ingressDrop k.pipe reason 1))

/-! ### Owners and pools (R200 to R203) -/

/-- A pool record (R200). -/
def poolRec (s : State) (p : Nat) : Nat :=
  mgetD s.pkt.pools p (pack [(1, b2n (p = 63)), (21, if p = 0 then 901120 else if p = 63 then 1048576 else 0), (4, 8), (4, 12),
    (3, 2), (3, 4)])
def poolType (r : Nat) : Nat := bits r 0 1
def poolSize (r : Nat) : Nat := bits r 1 21
def poolWarn1 (r : Nat) : Nat := bits r 22 4
def poolWarn2 (r : Nat) : Nat := bits r 26 4
def poolHyst (r : Nat) : Nat := bits r 30 3
def poolAlpha (r : Nat) : Nat := bits r 33 3

/-- The state with an owner changed. -/
def State.modOwner (s : State) (o : Nat) (f : Owner → Owner) : State :=
  s.modPkt (fun p => { p with owners := mupd p.owners o {} f })

/-- An owner's function is gone: its placement and its back-pressure go with it, and what its packets hold stays charged (R200, R201). -/
def ownerGone (o : Nat) (s : State) : State := s.modOwner o (fun w => { use := w.use, hr := w.hr })

/-- The pool an owner is placed in (R200): pool 63 for an egress queue, pool 0 for the rest, until `RESERVE_SET` places it. -/
def poolOfOwner (s : State) (o : Nat) : Nat := (ownerOf s o).pool.getD (if ownerKind o = 6 then 63 else 0)

/-- Counts for an owner and for its pool (R219); the resequencing owner belongs to no pool. -/
def bumpOwner (k pool : CtrKind) (o : Nat) (s : State) : State :=
  let s := s.bump k o 0 1
  if ownerKind o = 4 then s else s.bump pool (poolOfOwner s o) 0 1

def noteAdmitted : Nat → State → State := bumpOwner .ownerAdmitted .poolAdmitted
def noteRefused : Nat → State → State := bumpOwner .ownerRefused .poolRefused
def noteMark : Nat → State → State := bumpOwner .ecnMark .poolMarks
def noteOverrun : Nat → State → State := bumpOwner .headroomOverrun .poolOverrun

/-- An owner's reserved minimum (R201). -/
def ownerMin (s : State) (o : Nat) : Nat :=
  match ownerKind o with
  | 1 => (grantsOf s (ownerId o)).cells
  | 2 => (ownerOf s o).min.getD 65536
  | 3 => (ownerOf s o).min.getD 16384
  | 4 => 65536
  | _ => (ownerOf s o).min.getD 0

/-- Cells held above the minimum. -/
def sharedUse (s : State) (o : Nat) : Nat := (ownerOf s o).use - ownerMin s o

/-- Shared cells of a pool in use. -/
def occupancy (s : State) (p : Nat) : Nat :=
  (s.pkt.owners.filter (fun e => poolOfOwner s e.1 = p && ownerKind e.1 ≠ 4)).foldl (fun a e => a + sharedUse s e.1) 0

/-- The cells that pools, reserved minima, allotments and headrooms take: the sum of R202. -/
def cellSum (s : State) : Nat :=
  let sum (l : List Nat) : Nat := l.foldl (· + ·) 0
  let ports := s.pkt.owners.filter (fun e => ownerKind e.1 = 0)
  sum (((List.range 64).filter (fun p => poolType (poolRec s p) = 0)).map (fun p => poolSize (poolRec s p)))
    + sum ([2, 3, 4, 5].map (fun k => ownerMin s (ownerKey k 0)))
    + sum (ports.map (fun e => ownerMin s e.1 + if e.2.lossless then e.2.headroom else 0))
    + sum ((s.fns.filter (fun e => !(allotOf s (fidPort e.1)).set)).map (fun e => (grantsOf s e.1).cells))
    + sum (s.allots.map (fun e => e.2.counts.getD 6 0))

/-- The sum stays within the buffer (R202). -/
def cellsFit (s : State) : Bool := cellSum s ≤ 1048576

/-- Shared cells of the buffer itself, in use and in all: what the pools of TYPE 0 hold. -/
def sharedCells (s : State) (f : Nat → Nat) : Nat :=
  ((List.range 64).filter (fun p => poolType (poolRec s p) = 0)).foldl (fun a p => a + f p) 0

/-- While a packet-buffer bank is copied, its 16,384 cells are missing from the shared ones: from the whole, whichever pool asks (R437; log
entry 74). -/
def bankRoom (s : State) (r need : Nat) : Bool :=
  (mget? s.wear.active 4).isNone || poolType r ≠ 0
    || sharedCells s (occupancy s) + need + 16384 ≤ sharedCells s (fun p => poolSize (poolRec s p))

/-- The admission test of one owner for `n` cells (R203). -/
def admits (s : State) (o n : Nat) : Bool :=
  let use := (ownerOf s o).use
  let min := ownerMin s o
  if use + n ≤ min then true
  else
    let need := use + n - max use min
    let r := poolRec s (poolOfOwner s o)
    let occ := occupancy s (poolOfOwner s o)
    occ + need ≤ poolSize r && bankRoom s r need && (sharedUse s o + need) * 16 ≤ 2 ^ poolAlpha r * (poolSize r - occ)

/-- An owner's shared use is above `k` sixteenths of its dynamic limit (R204). -/
def above (s : State) (o k : Nat) : Bool :=
  let r := poolRec s (poolOfOwner s o)
  k * 2 ^ poolAlpha r * (poolSize r - occupancy s (poolOfOwner s o)) < sharedUse s o * 256

/-- The owner calls for ECN marking. -/
def callsMark (s : State) (o : Nat) : Bool := above s o (poolWarn1 (poolRec s (poolOfOwner s o)))
/-- The owner is above WARN2. -/
def callsBp (s : State) (o : Nat) : Bool := above s o (poolWarn2 (poolRec s (poolOfOwner s o)))
/-- The owner has fallen far enough for back-pressure to be released, as far as it goes (R204). -/
def bpGone (s : State) (o : Nat) : Bool :=
  let r := poolRec s (poolOfOwner s o)
  sharedUse s o = 0 || !above s o (poolWarn2 r - poolHyst r)

/-! ### Back-pressure (R204, R206) -/

/-- Brings what an up port has sent for a priority in line with its owner: XOFF while back-pressure holds on one that its flow control can
stop, XON otherwise (R52, R206). -/
def pauseSync (o : Nat) (s : State) : State :=
  let port := ownerId o / 8
  let prio := ownerId o % 8
  match mget? s.ports port with
  | none => s
  | some p =>
    let sent := bit p.xoffSent prio
    let can : Bool := p.fc = 1 || (p.fc = 2 && (ownerOf s o).lossless && bit p.pfcMask prio)
    let on := bpOn s o && can
    if p.state ≠ 2 || sent = on then s
    else
      let now := if on then p.xoffSent + 2 ^ prio else p.xoffSent - 2 ^ prio
      let s := { s with ports := mput s.ports port { p with xoffSent := now } }
      if p.fc = 2 then (s.emit (.ethPause port (2 ^ prio) on)).bump .portPauseTx port prio 1
      else if (p.xoffSent = 0) = (now = 0) then s
      else (List.range 8).foldl (fun s i => s.bump .portPauseTx port i 1) (s.emit (.ethPause port 255 on))

/-- What a change of back-pressure on an owner does to its source; a function's rings fetch again at release. -/
def bpAct (o : Nat) (on : Bool) (s : State) : State :=
  if ownerKind o = 0 then pauseSync o s
  else if ownerKind o = 1 && !on then kickAll (ownerId o) s
  else s

/-- Asserts back-pressure on an owner for a cause. -/
def bpAssert (cause o : Nat) (s : State) : State :=
  let w := ownerOf s o
  if w.causes.contains cause then s
  else
    let s := s.modOwner o ({ · with causes := w.causes ++ [cause] })
    if w.causes.isEmpty then bpAct o true (bumpOwner .bpAsserted .poolBp o s) else s

/-- Releases back-pressure on every owner all of whose causes have gone. -/
def bpRelease (s : State) : State :=
  (s.pkt.owners.filter (fun e => !e.2.causes.isEmpty && e.2.causes.all (bpGone s))).foldl
    (fun s e => bpAct e.1 false (s.modOwner e.1 ({ · with causes := [] }))) s

/-- Compares the state of every ingress owner with its pool's thresholds, as each enqueue and each free does: back-pressure rises on those
above WARN2, and falls where all its causes have gone (R204). -/
def bpSweep (s : State) : State :=
  bpRelease ((s.pkt.owners.filter (fun e => ownerKind e.1 ≠ 4 && ownerKind e.1 ≠ 6 && callsBp s e.1)).foldl
    (fun s e => bpAssert e.1 e.1 s) s)

/-- Cells of an ingress owner are freed: those in its headroom drain first (R207). -/
def freeCells (o n : Nat) (s : State) : State :=
  let fromHr := min (ownerOf s o).hr n
  bpSweep (s.modOwner o (fun w => { w with hr := w.hr - fromHr, use := w.use - (n - fromHr) }))

/-! ### The Path Check Word's and the copies' bookkeeping (R208, R281 to R283) -/

/-- A stored packet. -/
def stored? (s : State) (n : Nat) : Option Stored := mget? s.pkt.buf n

/-- One reference of a stored packet goes; at the last its cells are freed (R207, R208). -/
def dropRef (n : Nat) (s : State) : State :=
  match stored? s n with
  | none => s
  | some b =>
    if 1 < b.refs then bpSweep (s.modPkt (fun p => { p with buf := mput p.buf n { b with refs := b.refs - 1 } }))
    else freeCells b.owner b.cells (s.modPkt (fun p => { p with buf := mdel p.buf n }))

/-- A copy leaves its queue: the queue's cells go down and its packet's reference goes. -/
def leaveQueue (q : Nat) (c : Copy) (s : State) : State :=
  let n := ((stored? s c.pkt).map (·.cells)).getD 0
  dropRef c.pkt (s.modOwner (ownerKey 6 q) (fun w => { w with use := w.use - n }))

/-- A copy at the head of a queue is dropped for a reason: counted for the queue, and for its ring. A marked copy counts as marked. -/
def dropHead (q : Nat) (c : Copy) (reason : Nat) (s : State) : State :=
  let k := ((stored? s c.pkt).map (·.pkt)).getD {}
  let s := s.bump .queueDrop q (if c.marked then 16 else reason) 1
  let s := leaveQueue q c s
  if c.mirror then s else txDrop k.src reason s

/-- Drops every copy of a queue that passes, in order. -/
def dropCopies (q : Nat) (pass : Copy → Bool) (reason : Nat) (s : State) : State :=
  let l := mgetD s.pkt.queues q []
  let s := s.modPkt (fun p => { p with queues := mput p.queues q (l.filter (fun c => !pass c)) })
  (l.filter pass).foldl (fun s c => dropHead q c reason s) s

/-! ### ECN (R205) -/

/-- Adds two 16-bit numbers in ones' complement arithmetic (RFC 1624). -/
def oc16 (a b : Nat) : Nat := let t := a + b; t % 65536 + t / 65536

/-- A checksum after a 16-bit word it covers has changed (RFC 1624). -/
def csumAdj (c old new : Nat) : Nat := 65535 - oc16 (oc16 (65535 - c) (65535 - old)) new

/-- Bytes with those from `i` replaced. -/
def putAt (bs : List Byte) (i : Nat) (v : List Byte) : List Byte :=
  if bs.length < i + v.length then bs else bs.take i ++ v ++ bs.drop (i + v.length)

/-- CE set in one IP header whose ECN field is ECT(0) or ECT(1), with its IPv4 checksum. -/
def markHdr (bs : List Byte) (h : Hdr) : List Byte :=
  if h.code = 5 then
    let old := atBe bs h.off 2
    if old % 4 = 1 || old % 4 = 2 then
      let new := old ||| 3
      putAt (putAt bs h.off (beBytes 2 new)) (h.off + 10) (beBytes 2 (csumAdj (atBe bs (h.off + 10) 2) old new))
    else bs
  else if h.code = 6 then
    let old := atBe bs h.off 2
    if old / 16 % 4 = 1 || old / 16 % 4 = 2 then putAt bs h.off (beBytes 2 (old ||| 0x30)) else bs
  else bs

/-- CE set in every IP header of a packet that is capable. -/
def markEcn (p : Parse) (bs : List Byte) : List Byte := p.hdrs.foldl markHdr bs

/-! ### Enqueue (R184 step 4, R199, R203 to R209) -/

/-- Cells of a packet (R199). -/
def cellsOf (len : Nat) : Nat := cdiv (len + 32) 256

/-- The ingress owner a packet is charged to (R201): for a frame, by its priority as it was received. -/
def ownerOfPkt (s : State) (k : Pkt) : Nat :=
  match k.src with
  | .eth port => ownerKey 0 (port * 8 + k.rxPrio.getD (((mget? s.ports port).map (·.defPrio)).getD 0))
  | .host fid _ _ => ownerKey 1 fid
  | .inject _ => ownerKey 5 0
  | .storage _ => ownerKey 2 0

/-- A queue admits a copy; a mirror copy also gives way where its cells would cause back-pressure (R203, R209). -/
def queueTakes (s : State) (r : CopyReq) (n : Nat) : Bool :=
  let q := ownerKey 6 r.queue
  admits s q n && !(r.mirror && callsBp (s.modOwner q (fun w => { w with use := w.use + n })) q)

/-- Where a packet's cells are charged (R203, R207). -/
inductive Room
  /-- Its owner's pool. -/
  | pool
  /-- A lossless owner's headroom. -/
  | headroom
  /-- Nowhere: it is dropped with reason 3. -/
  | none
  deriving DecidableEq, Repr

/-- Where `n` cells of an ingress owner go. A refusal, whether the owner's own or that of an egress queue, draws on the headroom of a
lossless owner before any drop (R203, R207). -/
def roomFor (s : State) (o n : Nat) (queueRefuses : Bool) : Room :=
  let w := ownerOf s o
  if admits s o n && !queueRefuses then .pool
  else if w.lossless && w.hr + n ≤ w.headroom then .headroom
  else if admits s o n then .pool
  else .none

/-- Charges the ingress owner. -/
def chargeIngress (o n : Nat) (hr : Bool) (s : State) : State :=
  s.modOwner o (fun w => if hr then { w with hr := w.hr + n } else { w with use := w.use + n })

/-- Counts a refusal of a packet against both owners: the ingress owner, and the queue of each copy refused (R203). -/
def countRefused (o : Nat) (rs : List CopyReq) (s : State) : State :=
  rs.foldl (fun s r => noteRefused (ownerKey 6 r.queue) s) (noteRefused o s)

/-- Counts the mirror copies that give way, for their sessions (R209). -/
def countMirrors (pipe : Nat) (rs : List CopyReq) (s : State) : State :=
  (rs.filter (·.mirror)).foldl (fun s r => s.bump .mirrorDrop (pipe * 8 + r.session) 0 1) s

/-- Puts one copy on its queue: PSEQ taken and the Path Check Word sealed (R282, R283). -/
def putCopy (n : Nat) (k : Pkt) (r : CopyReq) (s : State) : State :=
  let key := k.pipe * 131072 + r.queue
  let pseq := mgetD s.pkt.pseq key 0
  let c : Copy := { pkt := n, dest := r.dest, at_ := s.tick, pseq, pcw := pcw k.tenant pseq r.dest k.bytes, trunc := r.trunc
                    mirror := r.mirror, tag := r.tag, via := r.via, shim := r.shim }
  let s := s.modPkt (fun p => { p with
    queues := mupd p.queues r.queue [] (· ++ [c])
    pseq := mput p.pseq key ((pseq + 1) % 65536) })
  let s := s.modPkt (fun p => { p with maxDepth := mupd p.maxDepth r.queue 0 (max (ownerOf s (ownerKey 6 r.queue)).use) })
  (s.bump .queueIn r.queue 0 1).bump .queueInBytes r.queue 0 k.bytes.length

/-- Admits a packet with its copies, marks it, seals and enqueues them, and raises back-pressure (R203 to R208). A copy that its
queue refuses is dropped on its own; a packet that its ingress owner refuses is dropped whole. -/
def enqueue (k : Pkt) (rs : List CopyReq) (tsOut : Bool) (s : State) : State :=
  let o := ownerOfPkt s k
  let n := cellsOf k.bytes.length
  let own := rs.filter (fun r => !r.mirror)
  let takes (t : List CopyReq) (r : CopyReq) : Bool := queueTakes s r (n * (1 + (t.filter (·.queue = r.queue)).length))
  let (taken, refused) := rs.foldl (fun (x : List CopyReq × List CopyReq) r =>
    if takes x.1 r then (x.1 ++ [r], x.2) else (x.1, x.2 ++ [r])) ([], [])
  let lost := refused.filter (!·.mirror)
  match roomFor s o n (!lost.isEmpty) with
  | .none =>
    let s := countMirrors k.pipe rs (countRefused o own s)
    let s := if (ownerOf s o).lossless then noteOverrun o s else s
    let s := txCopies k.src own.length k.cls k.colour s
    own.foldl (fun s _ => txDrop k.src 3 s) s
  | room =>
    let hr := room = .headroom
    let (taken, lost) := if hr then (own ++ taken.filter (·.mirror), []) else (taken, lost)
    let s := countMirrors k.pipe refused s
    let s := if !lost.isEmpty && (ownerOf s o).lossless then noteOverrun o s else s
    let s := txCopies k.src own.length k.cls k.colour s
    let s := if lost.isEmpty then s else countRefused o lost s
    let s := lost.foldl (fun s r => txDrop k.src 3 (s.bump .queueDrop r.queue 3 1)) s
    if taken.isEmpty then s
    else
      let id := s.pkt.nextPkt
      let s := chargeIngress o n hr (noteAdmitted o s)
      let s := taken.foldl (fun s r =>
        noteAdmitted (ownerKey 6 r.queue) (s.modOwner (ownerKey 6 r.queue) (fun w => { w with use := w.use + n }))) s
      let marked := callsMark s o || taken.any (fun r => callsMark s (ownerKey 6 r.queue))
      let bytes := if marked then markEcn k.parse k.bytes else k.bytes
      let s := if bytes = k.bytes then s else
          taken.foldl (fun s r => noteMark (ownerKey 6 r.queue) s) (noteMark o s)
      let k := { k with bytes }
      let s := s.modPkt (fun p => { p with
        buf := mput p.buf id { pkt := k, cells := n, refs := taken.length, owner := o, headroom := hr, tsOut }
        nextPkt := id + 1 })
      let s := bpSweep (taken.foldl (fun s r => putCopy id k r s) s)
      taken.foldl (fun s r => if callsBp s (ownerKey 6 r.queue) then bpAssert (ownerKey 6 r.queue) o s else s) s

/-! ### Tokens and policers (R211, R214, R215) -/

/-- A bucket refilled up to its burst: `rate` tokens a tick (a token is 1/8,000 byte or 1/1,000,000 packet). -/
def refill (t rate burst : Int) (dt : Nat) : Int := min burst (t + rate * dt)

/-- The unit's tokens in a byte or a packet. -/
def tokenUnit (packets : Bool) : Nat := if packets then 1000000 else 8000

/-- The rate parameters of a policer record (R210): MODE, UNIT, AWARE, CIR, CBS, PIR, EBS_PBS. -/
def polMode (r : Nat) : Nat := bits r 0 2
def polPackets (r : Nat) : Bool := bit r 2
def polAware (r : Nat) : Bool := bit r 3
def polResetTo (r : Nat) : Bool := bit r 4
def polCir (r : Nat) : Nat := bits r 32 32
def polCbs (r : Nat) : Nat := bits r 64 32
def polPir (r : Nat) : Nat := bits r 96 32
def polEbs (r : Nat) : Nat := bits r 128 32

/-- Tokens at their first charge, or at the first charge by a packet of the active Pad under changed parameters: full or zero, as
RESET_TO selects (R215). -/
def tokensFor (t : Tokens) (params : Nat) (resetTo active : Bool) (full1 full2 : Int) (now : Nat) : Tokens :=
  if t.params = some params then t
  else if t.params.isNone || active then
    if resetTo then { tc := 0, tp := 0, at_ := now, params := some params }
    else { tc := full1, tp := full2, at_ := now, params := some params }
  else t

/-- The colour test of R211: the result and the tokens left, from the refilled tokens, the size in tokens and the pre-colour. -/
def colourOf (mode : Nat) (tc tp size : Int) (pre : Nat) : Nat × Int × Int :=
  if mode = 1 then
    if pre = 2 || tp < size then (2, tc, tp)
    else if pre = 1 || tc < size then (1, tc, tp - size)
    else (0, tc - size, tp - size)
  else if pre = 0 && size ≤ tc then (0, tc - size, tp)
  else if pre ≠ 2 && size ≤ tp then (1, tc, tp - size)
  else (2, tc, tp)

/-- Polices a packet of `len` bytes on a policer, under a Pad, with its present colour (R210, R211, R215). -/
def police (pad i len colour : Nat) (s : State) : Nat × State :=
  let r := policerRec (padOf s pad) i
  if polMode r = 2 || polMode r = 3 then (0, (s.bump .policed i 0 1).bump .policedBytes i 0 len)
  else
    let u := tokenUnit (polPackets r)
    let full1 : Int := polCbs r * u
    let full2 : Int := polEbs r * u
    let t := tokensFor (mgetD s.pkt.polTok i {}) (r / 2 ^ 32 * 16 + r % 16) (polResetTo r) (pad = s.pkt.leap.active) full1 full2
      s.tick
    let dt := s.tick - t.at_
    let up := t.tc + polCir r * dt
    let tc := min full1 up
    let tp := if polMode r = 1 then refill t.tp (polPir r) full2 dt
      else min full2 (t.tp + max 0 (up - full1))
    let size : Int := (if polPackets r then 1 else len) * u
    let (res, tc, tp) := colourOf (polMode r) tc tp size (if polAware r then colour else 0)
    let s := s.modPkt (fun p => { p with polTok := mput p.polTok i { t with tc, tp, at_ := s.tick } })
    (res, (s.bump .policed i res 1).bump .policedBytes i res len)

/-! ### Punts (R125, R186, R322) -/

/-- The destination word of a punt (R138, R283). -/
def puntDest : Nat := mkDest 6 0
/-- The key of a pipeline's sequence of punts to a channel, behind those of its egress queues. -/
def puntSeq (pipe ch : Nat) : Nat := 2 ^ 32 + pipe * 2 ^ 20 + ch

/-- Sends a packet to the slow path: its pipeline's punt policer first, then its Path Check Word's check and the message to the slow-path
channel; a packet whose message cannot be delivered is dropped and counted, and its cells are freed (R125, R284, R322). It is measured as it was
received (R211), and a refusal draws on the headroom of a lossless owner before any drop (R207). -/
def punt (k : Pkt) (reason : Nat) (copy : Bool) (s : State) : State :=
  let (c, s) := police k.pad (524279 + k.pipe) k.rxLen k.colour s
  let lose (r : Nat) (s : State) : State :=
    let s := s.bump .puntDrop k.pipe 0 1
    if copy then s else dropPkt k r s
  if c = 2 then lose 2 s
  else
    let ch := mgetD s.skk.puntCh k.pipe (slowPathChan s)
    let key := puntSeq k.pipe ch
    let pseq := mgetD s.pkt.pseq key 0
    let word := pcw k.tenant pseq puntDest k.bytes
    let s := s.modPkt (fun p => { p with pseq := mput p.pseq key ((pseq + 1) % 65536) })
    if s.pkt.puntCheck ≠ 0 || pcw k.tenant pseq puntDest k.bytes ≠ word then
      -- the Path Check Word does not pass at the channel: nothing is delivered, and the packet goes with reason 7 (R284, R109)
      let s := s.modPkt (fun p => { p with puntCheck := p.puntCheck + 1 })
      if copy then s else dropPkt k 7 s
    else
      let p := partOfChan s ch
      let held := (s.skk.handles.filter (fun e => e.2.part = p)).length
      let limit := ((part? s p).map (·.handles)).getD 0
      let o := ownerOfPkt s k
      let n := cellsOf k.bytes.length
      let room := roomFor s o n false
      if limit ≤ held then lose 2 s
      else if room = .none then
        let s := noteRefused o s
        let s := if (ownerOf s o).lossless then noteOverrun o s else s
        if copy then s else dropPkt k 3 s
      else
        let h := (leastBelow (s.skk.handles.length + 1) (fun i => (mget? s.skk.handles i).isNone)).getD 0
        let words := [h + 2 ^ 32 * k.bytes.length,
          pack [(4, k.pipe), (4, 0), (8, k.inPort), (8, reason), (8, 0), (16, k.fid), (16, k.tenant)], k.rxTs.getD 0]
        let (s, sent) := hwDeliver s ch { words, kind := 1 }
        if sent then
          let s := bpSweep (chargeIngress o n (room = .headroom) (noteAdmitted o s))
          let s := { s with skk := { s.skk with handles := mput s.skk.handles h { part := p, pkt := k, cells := n, owner := o } } }
          let s := s.bump .punted k.inPort reason 1
          if copy then s else txCommit k.src s
        else lose 2 s

end Sys2Proof.Machine
end

