-- ==== Sys2Proof/Machine/Groups.lean ====
section
/-! DEFINITION. The forwarding tables as the pipelines use them, learning, load-balancing groups, and spray (R139 to R149, R159 to
R168). -/

namespace Sys2Proof.Machine

/-! ### Tables by number (R136, R153, R155, R170) -/

def tblKind (t : Nat) : TblKind := if t = 0 then attKind else if t = 2 then l2Kind else flowKind

/-- A cuckoo table of a pipeline: 0 attachment, 2 L2, 3 flow. -/
def tblOf (s : State) (t pipe : Nat) : Cuckoo :=
  if t = 0 then mgetD s.pkt.att pipe {} else if t = 2 then mgetD s.pkt.l2 pipe {} else s.pkt.flow

/-- The state with a cuckoo table replaced. -/
def State.setTbl (s : State) (t pipe : Nat) (c : Cuckoo) : State :=
  s.modPkt (fun p =>
    if t = 0 then { p with att := mput p.att pipe c } else if t = 2 then { p with l2 := mput p.l2 pipe c } else { p with flow := c })

/-- The table code of an event (R364). -/
def tblCode (t pipe : Nat) : Nat := t + 256 * (if t = 3 then 0xFF else pipe)

/-- The table-pressure event: above 48 stash entries, once until 32 or fewer (R155). -/
def tblPressure (t pipe : Nat) (s : State) : State :=
  let c := tblOf s t pipe
  if !c.pressure && 48 < c.stash.length then
    (s.setTbl t pipe { c with pressure := true }).event 0x0402 (.dev (tblCode t pipe)) c.stash.length
  else if c.pressure && c.stash.length ≤ 32 then s.setTbl t pipe { c with pressure := false }
  else s

/-- A cuckoo table after work of its insertion engine: moves, rehashed entries and the walker's failed insertions are counted, and a rehash
that has placed its last entry ends (R155, R157, R170). -/
def tblWorked (t pipe : Nat) (c' : Cuckoo) (s : State) : State :=
  let c := tblOf s t pipe
  let s := (((s.setTbl t pipe c').bump .tblMove t pipe (c'.moves - c.moves)).bump .tblRehashed t pipe (c'.moved - c.moved)).bump
    .tblFail t pipe (c'.fails - c.fails)
  let s := if c.old.isSome && c'.old.isNone then s.event 0x0403 (.dev (tblCode t pipe)) c'.moved else s
  tblPressure t pipe s

/-- The insertion engine: rewrites the entry of the same key in place, or places a new one (R137, R153). False when it fails. -/
def tblPlace (t pipe e : Nat) (s : State) : State × Bool :=
  let k := tblKind t
  let c := tblOf s t pipe
  match c.find k (keyOf k e) with
  | some _ => (s.setTbl t pipe (c.rewrite k e), true)
  | none => match c.place k e with
    | some c' => ((tblWorked t pipe c' s).bump .tblInsert t pipe 1, true)
    | none => (s.bump .tblFail t pipe 1, false)

/-- A flow entry that goes frees its check-value context (R287). -/
def ckvFree (key : Nat) (s : State) : State :=
  let gone := (s.cip.ckvFlow.filter (fun e => e.2 = key)).map (·.1)
  if gone.isEmpty then s else ckvDrop gone s

/-- Deletes a key; a walker that thereby places its last entry ends its rehash (R153, R157). -/
def tblDel (t pipe key : Nat) (s : State) : State :=
  let k := tblKind t
  let c := tblOf s t pipe
  if (c.find k key).isNone then s
  else
    let s := (tblWorked t pipe (c.delete k key) s).bump .tblDelete t pipe 1
    if t = 3 then ckvFree key (s.modPkt (fun p => { p with flowCache := p.flowCache.filter (· ≠ key) })) else s

/-- The time stamp of table entries: device time bits 51:20 (R150). -/
def tsNow (s : State) : Nat := s.time / 2 ^ 20 % 2 ^ 32

/-- The flow cache after a hit of a key: the line is the most recently hit one, and one that the hit has filled displaces the least
recently hit line of its set when the set is full (R145; log entry 93). -/
def cacheHit (key : Nat) (l : List Nat) : List Nat :=
  if l.contains key then key :: l.filter (· ≠ key)
  else
    let set := Config.flowCacheSet key
    let there := l.filter (fun x => Config.flowCacheSet x = set)
    key :: (if Config.flowCacheWays ≤ there.length || 262144 ≤ l.length then
      match there.getLast? with
      | some x => l.filter (· ≠ x)
      | none => l
    else l)

/-- A lookup of the flow table: a hit refreshes the entry, and the cached copy with it (R144 to R146). -/
def flowLook (key : Nat) (s : State) : Option Nat × State :=
  match s.pkt.flow.find flowKind key with
  | some e => (some e, s.modPkt (fun p => { p with
      flow := p.flow.rewrite flowKind (setBits e 384 32 (tsNow s)), flowCache := cacheHit key p.flowCache }))
  | none => (none, s)

/-- A table is rehashing (R157). -/
def rehashing (s : State) : Bool :=
  s.pkt.flow.old.isSome || s.pkt.att.any (fun e => e.2.old.isSome) || s.pkt.l2.any (fun e => e.2.old.isSome)

/-! ### Virtual networks (R139 to R141) -/

/-- The keys of the attachment map that a packet tries, in turn, as KTYPE and key: each type serves the packets its row names, and a tagged packet
tries type 1 alone, an untagged one type 2 (R139; log entry 94). -/
def attTries (k : Pkt) : List (Nat × Nat) :=
  match k.src with
  | .host .. => [(3, k.fid)]
  | _ => (if 0 < k.parse.levels then [(0, k.parse.vni)] else [])
    ++ [if 0 < levelField k.parse k.bytes 0 0x08 then (1, k.inPort + 256 * levelField k.parse k.bytes 0 0x0E) else (2, k.inPort)]

/-- The attachment entry that gives a packet its VN, with whether it is of KTYPE 0. -/
def attachment (s : State) (k : Pkt) : Option (Nat × Bool) :=
  (attTries k).findSome? fun t => ((tblOf s 0 k.pipe).find attKind (attKey t.1 t.2)).map (·, t.1 = 0)

/-- Step 1 of R142: the packet's VN, and its tenant when it came from Ethernet (R141). -/
def assignVn (s : State) (k : Pkt) : Pkt :=
  let vn := match attachment s k with
    | some (e, deep) => if vnValid (mgetD s.pkt.vns (attVn e) 0) then some (attVn e, deep) else none
    | none => none
  match vn with
  | some (v, deep) =>
    { k with
      vn := v
      hasVn := true
      deep := deep
      tenant := match k.src with
        | .eth _ => vnTenant (mgetD s.pkt.vns v 0)
        | _ => k.tenant }
  | none => { k with
      vn := 0
      hasVn := false
      tenant := match k.src with
        | .eth _ => 0
        | _ => k.tenant }

/-- The level that forwarding takes its addresses from (R142). -/
def fwdLevel (k : Pkt) : Nat := if k.deep then k.parse.levels else 0

/-- The packet's source as learning names it: SRC_HOST and SRC (R146). -/
def learnSrc (k : Pkt) : Bool × Nat :=
  match k.src with
  | .host fid _ _ => (true, fid)
  | _ => (false, k.inPort)

/-! ### Learning (R146 to R149) -/

/-- Home entries of a source over all pipelines (R148); a static entry, which every pipeline holds, counts once. -/
def homeCount (s : State) (host : Bool) (src : Nat) : Nat :=
  (s.pkt.l2.map (fun (p, c) => (c.entries.filter (fun e =>
    !l2Remote e && l2SrcHost e = host && l2Src e = src && (!l2Static e || p = 0))).length)).foldl (· + ·) 0

def learnKey (host : Bool) (src : Nat) : Nat := (if host then 65536 else 0) + src
def learnCfg (s : State) (host : Bool) (src : Nat) : LearnCfg := mgetD s.pkt.learn (learnKey host src) {}

/-- A source's learn limit (R148). -/
def learnLimit (s : State) (host : Bool) (src : Nat) : Nat :=
  if host then (grantsOf s src).l2 else (learnCfg s host src).limit

/-- An excess learn event: counted, and reported once a second for each source (R148). -/
def excess (pipe : Nat) (host : Bool) (src : Nat) (s : State) : State :=
  let k := learnKey host src
  let s := s.bump .learnExcess k 0 1
  let quiet : Bool := match mget? s.pkt.excessAt k with
    | some t => decide (s.tick < t + 1000000)
    | none => false
  if quiet then s
  else (s.modPkt (fun p => { p with excessAt := mput p.excessAt k s.tick })).event 0x0401
    (.dev (k + pipe * 2 ^ 24)) (s.count .learnExcess k 0)

/-- The destination that a source is reached at (R147). -/
def srcDest (host : Bool) (src : Nat) : Nat := if host then mkDest 2 src else mkDest 1 src

/-- Deletes the REMOTE copies of an address, on every pipeline (R147). -/
def dropRemote (key : Nat) (s : State) : State :=
  (List.range 9).foldl (fun s p => match (tblOf s 2 p).find l2Kind key with
    | some e => if l2Remote e then tblDel 2 p key s else s
    | none => s) s

/-- Installs the REMOTE copies of a home entry on the other eight pipelines; what they hold of the address is overwritten, but for a
static entry, which never moves (R143, R147). -/
def shareHome (pipe mac vn : Nat) (host : Bool) (src : Nat) (s : State) : State :=
  if (learnCfg s host src).share then
    (List.range 9).foldl (fun s p =>
      if p = pipe || ((tblOf s 2 p).find l2Kind (l2Key mac vn)).any l2Static then s
      else (tblPlace 2 p (mkL2 mac vn false true false host src (srcDest host src) (tsNow s)) s).1) s
  else s

/-- Installs or moves a home entry on the pipeline that saw the event. A home entry that moves loses its REMOTE copies, and the new one
has its own when the source shares (R147). Nothing changes when the insertion fails. -/
def installHome (pipe mac vn : Nat) (host : Bool) (src : Nat) (s : State) : State × Bool :=
  let moved := ((tblOf s 2 pipe).find l2Kind (l2Key mac vn)).any (!l2Remote ·)
  match tblPlace 2 pipe (mkL2 mac vn false false false host src (srcDest host src) (tsNow s)) s with
  | (s, false) => (s, false)
  | (s, true) => (shareHome pipe mac vn host src (if moved then dropRemote (l2Key mac vn) s else s), true)

/-- What a packet's learning came to: it goes on, or is dropped with reason 1. -/
inductive Learnt
  | go | drop
  deriving DecidableEq, Repr

/-- The fate of a packet whose learn event is excess (R148). -/
def excessFate (s : State) (host : Bool) (src : Nat) : Learnt := if (learnCfg s host src).excess = 0 then .drop else .go

/-- Hardware inserts the source itself (R149). -/
def fallbackLearn (pipe mac vn : Nat) (host : Bool) (src : Nat) (s : State) : State × Learnt :=
  match tblPlace 2 pipe (mkL2 mac vn false false true host src (srcDest host src) (tsNow s)) s with
  | (s, true) => (s.bump .learnFallback (learnKey host src) 0 1, .go)
  | (s, false) => (excess pipe host src s, excessFate s host src)

/-- Source learning of a packet that reaches step 4 with LEARN set (R142, R146, R148, R149). A source that is at its limit is excess
at once; else the event goes to the queue, or to fall-back when the queue is full or the service is away. -/
def learn (k : Pkt) (s : State) : State × Learnt :=
  if !vnLearn (mgetD s.pkt.vns k.vn 0) then (s, .go)
  else
    let mac := levelField k.parse k.bytes (fwdLevel k) 0x0C
    let (host, src) := learnSrc k
    let c := tblOf s 2 k.pipe
    match c.find l2Kind (l2Key mac k.vn) with
    | some e =>
      if l2SrcHost e = host && l2Src e = src then
        (s.setTbl 2 k.pipe (c.rewrite l2Kind (setBits e 128 32 (tsNow s))), .go)
      else if l2Static e then (s.bump .spoof (learnKey host src) 0 1, .drop)
      else learnNew mac host src s
    | none => learnNew mac host src s
where
  learnNew (mac : Nat) (host : Bool) (src : Nat) (s : State) : State × Learnt :=
    let s := s.bump .learnEvents (learnKey host src) 0 1
    if learnLimit s host src ≤ homeCount s host src then (excess k.pipe host src s, excessFate s host src)
    else
      let q := mgetD s.pkt.learnQ k.pipe []
      if learnServiceUp s && q.length < 4096 then
        (s.modPkt (fun p => { p with learnQ := mput p.learnQ k.pipe (q ++ [{ mac, vn := k.vn, host, src }]) }), .go)
      else fallbackLearn k.pipe mac k.vn host src s

/-- The service takes the fall-back entries as its own: stale copies of their addresses go, and copies follow under SHARE (R147, R149). -/
def takeFallback (s : State) : State :=
  (List.range 9).foldl (fun s p =>
    ((tblOf s 2 p).entries.filter l2Fallback).foldl (fun s e =>
      let s := s.setTbl 2 p ((tblOf s 2 p).rewrite l2Kind (setBits e 71 1 0))
      shareHome p (bits e 0 48) (bits e 48 20) (l2SrcHost e) (l2Src e) (dropRemote (keyOf l2Kind e) s)) s) s

/-! ### Load-balancing groups (R159 to R163, R168) -/

def grpKind (r : Nat) : Nat := bits r 0 2
def grpMode (r : Nat) : Nat := bits r 2 2
def grpCount (r : Nat) : Nat := bits r 4 10
def grpView (r : Nat) : Nat := bits r 14 1
def grpL4 (r : Nat) : Bool := bit r 15
def grpGap (r : Nat) : Nat := bits r 16 10

def grpOf (s : State) (pad g : Nat) : Group := mgetD (padOf s pad).groups g {}

/-- The egress port of a member is up: its port, or its next hop's OUT port, which is the host port for a function (R9, R159). -/
def destLive (s : State) (d : Nat) : Bool :=
  if destType d = 1 then ((mget? s.ports (destArg d)).map (·.state)) = some 2
  else destType d = 2 && (hostPort s (fidPort (destArg d))).linkUp

/-- The egress of a member: an Ethernet port, or the OUT of its next hop. -/
def memberDest (s : State) (kind id : Nat) : Nat := if kind = 1 then mkDest 1 id else nhOut (mgetD s.pkt.nhs id 0)

/-- A member's code, which names it when a Leap has changed the list it stood in (R161): its ID, and above it the group's KIND. -/
def memberCode (gr : Group) (m : Nat) : Nat := memberId (gr.members.getD m 0) + 2 ^ 18 * grpKind gr.record

/-- The egress of a member by its code. -/
def codeDest (s : State) (code : Nat) : Nat := memberDest s (code / 2 ^ 18) (code % 2 ^ 18)
/-- The member of a code is live. -/
def codeLive (s : State) (code : Nat) : Bool := destLive s (codeDest s code)

/-- The member is live. -/
def memberLive (s : State) (gr : Group) (m : Nat) : Bool := m < gr.members.length && codeLive s (memberCode gr m)

/-- Indices of the live members. -/
def liveMembers (s : State) (gr : Group) : List Nat := (List.range gr.members.length).filter (memberLive s gr)

/-- A member as a bucket holds it: its number and its code. -/
def memberOf (gr : Group) (m : Nat) : Nat × Nat := (m, memberCode gr m)

/-- The number under which a group lists a bucket's member now; 512 when it lists it no longer. -/
def listedAt (gr : Group) (x : Nat × Nat) : Nat :=
  let there (m : Nat) : Bool := m < gr.members.length && memberCode gr m = x.2
  if there x.1 then x.1 else ((List.range gr.members.length).find? there).getD 512

/-- A group's hardware state on a pipeline; its seed is the one drawn at the boot until a rotation draws another (R156). -/
def hwOf (s : State) (g pipe : Nat) : GroupHw :=
  mgetD s.pkt.grp (g * 16 + pipe) { seed := Config.bootSeed s.pkt.boot (g * 16 + pipe) }
def State.modHw (s : State) (g pipe : Nat) (f : GroupHw → GroupHw) : State :=
  s.modPkt (fun p => { p with grp := mput p.grp (g * 16 + pipe) (f (hwOf s g pipe)) })

/-- Copies that were chosen through a bucket of a group on a pipeline and have not left: queued, held in the resequencing reserve, or still
with an action engine (R161, R165, R182). -/
def viaBucket (s : State) (g pipe b : Nat) : Bool :=
  let it (v : Option Via) : Bool := v.any (fun v => v.group = g && v.pipe = pipe && v.bucket = b)
  s.pkt.queues.any (fun e => e.2.any (fun c => it c.via))
    || s.pkt.sprayRx.any (fun e => e.2.held.any (fun h => h.2.reqs.any (fun r => it r.via)))
    || s.pkt.ctxs.any (fun e => e.2.any (fun c => it c.pkt.lb))

/-- The bucket is idle: nothing chosen through it is queued, and nothing has been chosen through it for GAP (R161). -/
def bucketIdle (s : State) (g pipe b gap : Nat) : Bool :=
  !viaBucket s g pipe b &&
    match mget? (hwOf s g pipe).last b with
    | some t => t + gap ≤ s.tick
    | none => true

/-- Bytes of a queued copy's packet. -/
def copyBytes (s : State) (c : Copy) : Nat := ((stored? s c.pkt).map (·.pkt.bytes.length)).getD 0

/-- Bytes queued for a group's member on a pipeline's egress queues (R163). -/
def memberBytes (s : State) (g pipe code : Nat) : Nat :=
  ((s.pkt.queues.flatMap (·.2)).filter (fun c => c.via.any (fun v => v.group = g && v.pipe = pipe && v.code = code))).foldl
    (fun a c => a + copyBytes s c) 0

/-- Bytes queued towards a member's egress, whatever put them there (R164). -/
def portBytes (s : State) (code : Nat) : Nat :=
  ((s.pkt.queues.flatMap (·.2)).filter (fun c => c.dest = codeDest s code)).foldl (fun a c => a + copyBytes s c) 0

/-- The member with the fewest bytes queued; on a tie the first in the order given. -/
def leastQueued (bytes : Nat → Nat) (ms : List (Nat × Nat)) : Option (Nat × Nat) :=
  (ms.foldl (fun (b : Option ((Nat × Nat) × Nat)) m =>
    let n := bytes m.2
    match b with
    | some (x, k) => if n < k then some (m, n) else some (x, k)
    | none => some (m, n)) none).map (·.1)

/-- The bucket of a packet under a seed (R160). -/
def bucketOf (gr : Group) (seed : Nat) (k : Pkt) : Nat :=
  let v := grpView gr.record
  let f := dictField k v
  keyedHash seed ([k.vn, f 0x1A, f 0x1B, f 0x1C] ++ (if grpL4 gr.record then [f 0x21, f 0x22] else [])) % 512

/-- The live member whose turn it is, from the round-robin place on (R162). -/
def rrLive (live : List Nat) (rr : Nat) : Option Nat := (live.find? (rr ≤ ·)).or live.head?

/-- A bucket whose member is not live takes the live member whose turn it is; the place after it is the next bucket's (R162). -/
def rrTake (gr : Group) (live : List Nat) (hw : GroupHw) : Option (Nat × Nat) × GroupHw :=
  match rrLive live hw.rr with
  | some m => (some (memberOf gr m), { hw with rr := m + 1 })
  | none => (none, hw)

/-- The member a bucket uses next, by its idle-point rules (R161 to R163), and the hardware state after. -/
def bucketMember (s : State) (g pipe b : Nat) (gr : Group) : Option (Nat × Nat) × GroupHw :=
  let hw := hwOf s g pipe
  let live := liveMembers s gr
  let cur := (mget? hw.cur b).filter (codeLive s ·.2)
  let idle := bucketIdle s g pipe b (grpGap gr.record)
  if grpMode gr.record = 1 then
    match cur with
    | some x => (if idle then leastQueued (memberBytes s g pipe) (live.map (memberOf gr)) else some x, hw)
    | none => (leastQueued (memberBytes s g pipe) (live.map (memberOf gr)), hw)
  else
    let t := targetOf gr b
    if (idle || (mget? hw.cur b).isNone) && memberLive s gr t then (some (memberOf gr t), hw)
    else match cur with
      | some x => (some x, hw)
      | none => rrTake gr live hw

/-- The bucket of a packet, with the seed rotation that may be in progress (R168). -/
def pickBucket (k : Pkt) (g : Nat) (gr : Group) (s : State) : Nat × State :=
  let hw := hwOf s g k.pipe
  match hw.old with
  | none => (bucketOf gr hw.seed k, s)
  | some old =>
    let b := bucketOf gr old k
    if (mget? hw.switched b).isNone && !bucketIdle s g k.pipe b (grpGap gr.record) then (b, s)
    else
      let sw := mput hw.switched b ()
      let done := 512 ≤ sw.length
      let s := s.modHw g k.pipe (fun h => { h with switched := if done then [] else sw, old := if done then none else some old })
      let s := if done && !s.pkt.grp.any (fun e => e.1 / 16 = g && e.2.old.isSome) then s.event 0x0405 (.dev g) 0 else s
      (bucketOf gr hw.seed k, s)

/-- Counts a packet that leaves by a member, for the member's counters and its group's monitor (R167, R170). -/
def countMember (v : Via) (len : Nat) (s : State) : State :=
  let s := (s.bump .groupPkts v.group v.index 1).bump .groupBytes v.group v.index len
  match mget? s.pkt.mon v.group with
  | some mo => if mo.armed then
      s.modPkt (fun p => { p with mon := mput p.mon v.group { mo with bytes := mupd mo.bytes v.index 0 (· + len) } })
    else s
  | none => s

/-- A member chosen for a packet (R160 to R164). -/
def chooseMember (k : Pkt) (g : Nat) (s : State) : Option Via × State :=
  let gr := grpOf s k.pad g
  if grpMode gr.record = 2 then
    let live := liveMembers s gr
    let rr := mgetD s.pkt.sprayRr g 0
    let order := (live.filter (rr ≤ ·) ++ live.filter (· < rr)).map (memberOf gr)
    let b := bucketOf gr (hwOf s g k.pipe).seed k
    match leastQueued (portBytes s) order with
    | none => (none, s)
    | some (m, code) =>
      (some { group := g, pipe := k.pipe, bucket := b, index := m, code },
        s.modPkt (fun p => { p with sprayRr := mput p.sprayRr g (m + 1) }))
  else
    let (b, s) := pickBucket k g gr s
    match bucketMember s g k.pipe b gr with
    | (none, _) => (none, s)
    | (some x, hw) =>
      let s := s.modHw g k.pipe (fun _ => { hw with cur := mput hw.cur b x, last := mput hw.last b s.tick })
      (some { group := g, pipe := k.pipe, bucket := b, index := listedAt gr x, code := x.2 }, s)

/-- The shim of a packet that leaves by the member chosen for it, when its group sprays: the next number of its stream (R164). -/
def takeShim (k : Pkt) (v : Via) (s : State) : Option Nat × State :=
  if grpMode (grpOf s k.pad v.group).record ≠ 2 then (none, s)
  else
    let slot := ((s.pkt.spraySlot.find? (·.2 = v.group)).map (·.1)).getD 0
    let stream := slot * 512 + v.bucket
    let first := (mget? s.pkt.sprayTx stream).isNone
    let seq := mgetD s.pkt.sprayTx stream 0
    (some (pack [(4, b2n first), (20, seq), (16, stream), (8, s.nv.sprayUnit)]),
      s.modPkt (fun p => { p with sprayTx := mput p.sprayTx stream ((seq + 1) % 2 ^ 20) }))

/-- Groups that a Pad lists. -/
def groupsOf (s : State) : List Nat := (padOf s s.pkt.leap.active).groups.map (·.1)

/-- When members stop being live, every bucket whose current member is one of them takes, at once, the live member whose turn it is
(R162). -/
def regroup (s : State) : State :=
  s.pkt.grp.foldl (fun s (key, hw) =>
    let gr := grpOf s s.pkt.leap.active (key / 16)
    let live := liveMembers s gr
    let hw := hw.cur.foldl (fun hw (b, x) =>
      if codeLive s x.2 then hw
      else match rrTake gr live hw with
        | (some y, hw) => { hw with cur := mput hw.cur b y }
        | (none, hw) => { hw with cur := mdel hw.cur b }) hw
    s.modHw (key / 16) (key % 16) (fun _ => hw)) s

end Sys2Proof.Machine
end

