-- ==== Sys2Proof/Machine/Edits.lean ====
section
/-! DEFINITION. The edit list: which edits are faults, what each does to the packet as received, the incremental checksums, and
encapsulation (R145, R183 to R185). -/

namespace Sys2Proof.Machine

/-- A byte of the packet as received, on its way through the edits: what is inserted before it, its value, and whether it goes. -/
structure EByte where
  /-- M R183: bytes inserted before it. -/
  before : List Byte := []
  /-- M R183: value. -/
  byte : Byte
  /-- M R183: removed. -/
  gone : Bool := false
  deriving DecidableEq, Repr

/-- The offset of the header at CUR; the parse end beyond the list (R119). -/
def curOff (k : Pkt) (cur : Nat) : Nat :=
  match k.parse.hdrs[cur]? with
  | some h => h.off
  | none => parseEnd k.parse k.bytes.length

/-- The code of the header at CUR, 0x00 beyond the list (R119). -/
def curCode (k : Pkt) (cur : Nat) : Nat := ((k.parse.hdrs[cur]?).map (·.code)).getD 0

/-- The bytes of the packet as received that an edit changes or removes, or in front of which it inserts: first and count. -/
def editSpan (k : Pkt) (e : Edit) : Nat × Nat :=
  let o := curOff k e.cur
  match e.op with
  | 1 => (o + e.arg, 1)
  | 2 => (o + e.arg, 2)
  | 3 => (o + e.arg, 4)
  | 4 => (o + (if curCode k e.cur = 5 then 8 else 7), 1)
  | 5 | 6 => (o, 2)
  | 8 => (o + 12, 2)
  | 9 => (o - 2, 4)
  | 0xA => if curCode k e.cur = 4 then (o, 4) else (o + 12, 2)
  | 0xB => (o, 4)
  | 0xD => (o + 6, 6)
  | 0xE => (o, 6)
  | _ => (o, 0)

/-- The header at CUR is one that the edit applies to (R183, R187). -/
def editType (k : Pkt) (e : Edit) : Bool :=
  let c := curCode k e.cur
  match e.op with
  | 4 | 5 | 6 => c = 5 || c = 6
  | 7 => c ≠ 0
  | 8 | 0xD | 0xE => c = 1
  | 9 => c = 2 || c = 3
  | 0xB => c = 4
  | 0xA => c = 1 || c = 4
  | _ => true

/-- Bytes that a STRIP on the list removes: every byte below this offset (R183, R187). -/
def stripTo (k : Pkt) (es : List Edit) : Nat := (es.filter (·.op = 7)).foldl (fun a e => max a (curOff k e.cur)) 0

/-- An edit that is a microcode fault of code 6 when it is appended (R187). -/
def editFault (s : State) (k : Pkt) (es : List Edit) (e : Edit) : Bool :=
  let (a, n) := editSpan k e
  16 ≤ es.length || !editType k e
    || (0 < n && (recBytes (parseRec (padOf s k.pad) k.inPort) < a + n || parseEnd k.parse k.bytes.length < a + n
      || a < stripTo k es))

/-! ### Applying edits -/

/-- Sets bytes from `i`. -/
def setBytes (w : List EByte) (i : Nat) (v : List Byte) : List EByte :=
  w.zipIdx.map (fun (b, j) => if i ≤ j && j < i + v.length then { b with byte := v.getD (j - i) 0 } else b)

/-- Marks `n` bytes from `i` as removed. -/
def cutBytes (w : List EByte) (i n : Nat) : List EByte :=
  w.zipIdx.map (fun (b, j) => if i ≤ j && j < i + n then { b with gone := true, before := [] } else b)

/-- Inserts bytes before byte `i`, after what was inserted there already. -/
def insBytes (w : List EByte) (i : Nat) (v : List Byte) : List EByte :=
  w.zipIdx.map (fun (b, j) => if j = i then { b with before := b.before ++ v } else b)

/-- The present value of `n` bytes from `i`, big-endian. -/
def curBe (w : List EByte) (i n : Nat) : Nat :=
  (List.range n).foldl (fun a j => a * 256 + ((w[i + j]?).map (·.byte.toNat)).getD 0) 0

/-- What the edits come to: the bytes, what stands in front of them, and whether a TTL reached zero. -/
structure Edited where
  /-- M R183: the packet as received, edited. -/
  w : List EByte
  /-- M R145: next hops whose outer headers stand in front, the outermost first. -/
  front : List Nat := []
  /-- M R184: a TTL or hop limit reached zero. -/
  ttlZero : Bool := false

/-- Decrements a TTL or hop limit (R183, R184). -/
def decTtl (h : Hdr) (x : Edited) : Edited :=
  let i := h.off + (if h.code = 5 then 8 else 7)
  let t := curBe x.w i 1
  { x with w := setBytes x.w i (beBytes 1 (t - 1)), ttlZero := x.ttlZero || t ≤ 1 }

/-- The free values that an encapsulation takes (log entry 23): source port, identification, TTL, traffic class. -/
structure EncapFree where
  /-- M. -/
  sport : Nat := 0
  /-- M. -/
  ident : Nat := 0
  /-- M. -/
  ttl : Nat := 0
  /-- M. -/
  tos : Nat := 0

/-- One's complement sum of a byte string's 16-bit words. -/
def ocSum (bs : List Byte) : Nat := (List.range ((bs.length + 1) / 2)).foldl (fun a i => oc16 a (atBe bs (2 * i) 2)) 0

/-- The outer headers of an encapsulation of `len` bytes (R145, R185). -/
def outerHdr (s : State) (k : Pkt) (outer : Nat) (f : EncapFree) (nh : Nat) (inner : List Byte) : List Byte :=
  let len := inner.length
  let r := parseRec (padOf s k.pad) k.inPort
  let v6 := nhOuter nh / 2 ^ 32 ≠ 0
  let eth := beBytes 6 (nhDmac nh) ++ beBytes 6 (mgetD s.pkt.rmacs (nhRmac nh) 0)
    ++ (if nhVlan nh = 0 then [] else beBytes 2 0x8100 ++ beBytes 2 (nhVlan nh)) ++ beBytes 2 (if v6 then 0x86DD else 0x0800)
  let tun := if nhEncap nh = 1 then beBytes 1 8 ++ beBytes 3 0 ++ beBytes 3 (nhVni nh) ++ beBytes 1 0
    else beBytes 2 0 ++ beBytes 2 0x6558 ++ beBytes 3 (nhVni nh) ++ beBytes 1 0
  let ulen := 8 + tun.length + len
  let dport := if nhEncap nh = 1 then recVxlan r else recGeneve r
  let udp (c : Nat) : List Byte := beBytes 2 f.sport ++ beBytes 2 dport ++ beBytes 2 ulen ++ beBytes 2 c
  let addrs := if v6 then beBytes 16 s.nv.tunnelSrc ++ beBytes 16 (nhOuter nh) else beBytes 4 s.nv.tunnelSrc ++ beBytes 4 (nhOuter nh)
  let sum := ocSum (addrs ++ beBytes 2 17 ++ beBytes 2 ulen ++ udp 0 ++ tun)
  let c := 65535 - oc16 sum (ocSum inner)
  let want := if outer = 4 then true else if outer = 3 then false else v6
  let ip4 (c : Nat) : List Byte := beBytes 1 0x45 ++ beBytes 1 f.tos ++ beBytes 2 (20 + ulen) ++ beBytes 2 f.ident ++ beBytes 2 0
    ++ beBytes 1 f.ttl ++ beBytes 1 17 ++ beBytes 2 c ++ addrs
  let ip := if v6 then beBytes 4 (6 * 2 ^ 28 + f.tos % 256 * 2 ^ 20) ++ beBytes 2 ulen ++ beBytes 1 17 ++ beBytes 1 f.ttl ++ addrs
    else ip4 (65535 - ocSum (ip4 0))
  eth ++ ip ++ udp (if want then (if c = 0 then 65535 else c) else 0) ++ tun

/-- The present bytes, flattened. -/
def editedBytes (w : List EByte) : List Byte := w.flatMap (fun b => b.before ++ (if b.gone then [] else [b.byte]))

/-- The rewrite of a next hop: with an encapsulation its outer headers are to go in front, and without one the Ethernet header's addresses and
tag are its own; TTL_DEC acts on the IP header of the forwarding level (R145). -/
def nhRewrite (s : State) (k : Pkt) (nh : Nat) (x : Edited) : Edited :=
  let lvl := fwdLevel k
  let x := if nhTtlDec nh then
      match hdrIn k.parse lvl [5, 6] with
      | some h => decTtl h x
      | none => x
    else x
  if nhEncap nh = 1 || nhEncap nh = 2 then
    { x with front := nh :: x.front }
  else
    match hdrIn k.parse lvl [1] with
    | none => x
    | some h =>
      let w := setBytes (setBytes x.w h.off (beBytes 6 (nhDmac nh))) (h.off + 6) (beBytes 6 (mgetD s.pkt.rmacs (nhRmac nh) 0))
      let w := match hdrIn k.parse lvl [2, 3] with
        | some t => cutBytes w (t.off - 2) 4
        | none => w
      let w := if nhVlan nh = 0 then w else insBytes w (h.off + 12) (beBytes 2 0x8100 ++ beBytes 2 (nhVlan nh))
      { x with w }

/-- One edit of the list (R183). -/
def applyEdit (s : State) (k : Pkt) (x : Edited) (e : Edit) : Edited :=
  let o := curOff k e.cur
  match e.op with
  | 1 => { x with w := setBytes x.w (o + e.arg) (beBytes 1 e.value) }
  | 2 => { x with w := setBytes x.w (o + e.arg) (beBytes 2 e.value) }
  | 3 => { x with w := setBytes x.w (o + e.arg) (beBytes 4 e.value) }
  | 4 => match k.parse.hdrs[e.cur]? with
    | some h => decTtl h x
    | none => x
  | 5 =>
    let v := curBe x.w o 2
    { x with w := setBytes x.w o (beBytes 2 (if curCode k e.cur = 5 then setBits v 2 6 e.arg else setBits v 6 6 e.arg)) }
  | 6 =>
    let v := curBe x.w o 2
    { x with w := setBytes x.w o (beBytes 2 (if curCode k e.cur = 5 then setBits v 0 2 3 else setBits v 4 2 3)) }
  | 7 => { x with w := cutBytes x.w 0 o }
  | 8 => { x with w := insBytes x.w (o + 12) (beBytes 2 (if e.arg % 2 = 0 then 0x8100 else 0x88A8) ++ beBytes 2 e.value) }
  | 9 => { x with w := cutBytes x.w (o - 2) 4 }
  | 0xA =>
    let isLabel := curCode k e.cur = 4
    let word := beBytes 4 (e.value % 2 ^ 20 * 4096 + e.arg % 8 * 512 + (if isLabel then 0 else 256) + 255)
    { x with w := if isLabel then insBytes x.w o word else insBytes (setBytes x.w (o + 12) (beBytes 2 0x8847)) (o + 14) word }
  | 0xB => { x with w := cutBytes x.w o 4 }
  | 0xC => nhRewrite s k (mgetD s.pkt.nhs e.value 0) x
  | 0xD => { x with w := setBytes x.w (o + 6) (beBytes 6 (mgetD s.pkt.rmacs (e.arg % 16) 0)) }
  | 0xE => { x with w := setBytes x.w o (beBytes 6 e.value) }
  | _ => x

/-! ### Incremental checksums (R184) -/

/-- The 16-bit words of a covered range, counted from its start, with their old and new values where they changed in place. -/
def changedWords (k : Pkt) (w : List EByte) (a n : Nat) : List (Nat × Nat) :=
  ((List.range ((n + 1) / 2)).map (fun i => a + 2 * i)).filterMap fun i =>
    let len := if i + 1 < a + n then 2 else 1
    let sh := if len = 2 then 1 else 256
    let old := atBe k.bytes i len * sh
    let new := curBe w i len * sh
    if old = new || ((w[i]?).map (·.gone)).getD true then none else some (old, new)

/-- Adjusts the checksum at `at` for changed words; under `none` a checksum of zero is none and stays zero (a UDP checksum over IPv4), and a
UDP checksum that becomes zero is sent as all ones. -/
def adjust (udp none : Bool) (w : List EByte) (pos : Nat) (ch : List (Nat × Nat)) : List EByte :=
  let c := curBe w pos 2
  if none && c = 0 || ch.isEmpty then w
  else
    let c' := ch.foldl (fun c (o, n) => csumAdj c o n) c
    setBytes w pos (beBytes 2 (if udp && c' = 0 then 65535 else c'))

/-- Brings one header's checksum up to date. -/
def fixHdr (k : Pkt) (w : List EByte) (h : Hdr) : List EByte :=
  match h.code with
  | 5 => adjust false false w (h.off + 10) (changedWords k w h.off 10 ++ changedWords k w (h.off + 12) (h.len - 12))
  | 0x0B | 0x0C =>
    match hdrIn k.parse h.level [5, 6] with
    | none => w
    | some ip =>
      let pos := if h.code = 0x0B then 6 else 16
      let stop := if ip.code = 5 then ip.off + atBe k.bytes (ip.off + 2) 2 else ip.off + 40 + atBe k.bytes (ip.off + 4) 2
      let addrs := if ip.code = 5 then changedWords k w (ip.off + 12) 8 else changedWords k w (ip.off + 8) 32
      adjust (h.code = 0x0B) (h.code = 0x0B && ip.code = 5) w (h.off + pos)
        (addrs ++ changedWords k w h.off pos ++ changedWords k w (h.off + pos + 2) (stop - (h.off + pos + 2)))
  | _ => w

/-- Every checksum that covers a changed byte, the innermost headers first, since an outer one covers them. -/
def fixChecksums (k : Pkt) (w : List EByte) : List EByte := k.parse.hdrs.reverse.foldl (fixHdr k) w

/-! ### The packet as it leaves the engines -/

/-- The packet's bytes with the spray shim gone (R164). -/
def unshim (k : Pkt) : List Byte :=
  match shimAt k.parse with
  | some i => k.bytes.take i ++ k.bytes.drop (i + 8)
  | none => k.bytes

/-- The received bytes as edits start from, the shim removed. -/
def editBase (k : Pkt) : List EByte :=
  let w := k.bytes.map (fun b => { byte := b : EByte })
  match shimAt k.parse with
  | some i => cutBytes w i 8
  | none => w

/-- The edited packet; `nh` is the next hop that its destination resolved to. Outer headers are made over the bytes that they enclose when
those are final, checksums included (R184, R185). -/
def editPkt (s : State) (k : Pkt) (es : List Edit) (outer : Nat) (nh : Option Nat) (f : EncapFree) : List Byte × Bool :=
  let x := es.foldl (applyEdit s k) { w := editBase k }
  let x := match nh with
    | some i => nhRewrite s k (mgetD s.pkt.nhs i 0) x
    | none => x
  (x.front.foldr (fun nh inner => outerHdr s k outer f nh inner ++ inner) (editedBytes (fixChecksums k x.w)), x.ttlZero)

/-- The packet with its bytes as it leaves; when they have changed, its headers are found again in them, so that marking (R205) and
delivery (R108) work on the bytes sent. -/
def withBytes (s : State) (k : Pkt) (bs : List Byte) : Pkt :=
  if bs = k.bytes then k else { k with bytes := bs, parse := parseFrame (parseRec (padOf s k.pad) k.inPort) false bs }

end Sys2Proof.Machine
end

