-- ==== Sys2Proof/Machine/Forward.lean ====
section
/-! DEFINITION. How a packet leaves the ingress side: floods, set queues, destinations resolved to copies, resequencing, the end of a
packet, default actions, and microcode faults (R128, R131, R142, R165, R166, R184, R187). -/

namespace Sys2Proof.Machine

/-! ### Copies (R128, R131, R142, R213) -/

/-- The queue of a destination for a class, when it has a base and the queue a port (R213). -/
def queueFor (s : State) (k : Pkt) (dest : Nat) : Option Nat :=
  match qbaseOf (padOf s k.pad) dest with
  | some (b, n) =>
    let q := b + min k.cls (n - 1)
    if (portOfQueue (padOf s k.pad) q).isSome then some q else none
  | none => none

/-- The copy of a set queue: on the port the queue map gives it; on a host port to the function whose base covers it, the lowest
function number first (R128). -/
def setQueueCopy (s : State) (k : Pkt) (q : Nat) : Option CopyReq :=
  match portOfQueue (padOf s k.pad) q with
  | none => none
  | some l0 =>
    if l0 < 144 then some { dest := mkDest 1 l0, queue := q }
    else
      let p := padOf s k.pad
      let fns := p.qbases.filter (fun (d, v) =>
        destType d = 2 && fidPort (destArg d) = l0 - 144 && v / 32 ≤ q && q < v / 32 + v % 32)
      match fns with
      | (d, _) :: _ => some { dest := d, queue := q }
      | [] => none

/-- The members of a VN's flood set as copies' destinations, with the tag that each one's frames carry (R139, R208). The frames of a
member that a wire VNI names leave by a port that the spec does not tie to it (log entry 24). -/
def floodSet (s : State) (k : Pkt) (vn : Nat) : List (Nat × Nat) :=
  let es := (tblOf s 0 k.pipe).entries.filter (fun e => attFlood e && attVn e = vn)
  es.filterMap fun e =>
    let kt := bits e 0 2
    let key := bits e 2 32
    match kt with
    | 3 => some (mkDest 2 key, 0)
    | 1 => if key % 256 < 144 then some (mkDest 1 (key % 256), 2 + key / 256 % 4096) else none
    | 2 => if key % 256 < 144 then some (mkDest 1 (key % 256), 1) else none
    | _ => some (mkDest 1 (Config.tunnelPort key % 144), 0)

/-- The destination that a packet's source is (R142, R146). -/
def ownDest (k : Pkt) : Nat :=
  match k.src with
  | .host fid _ _ => mkDest 2 fid
  | _ => mkDest 1 k.inPort

/-- A flood's copies: every member except the source; a member without a queue leaves none. -/
def floodCopies (s : State) (k : Pkt) (vn : Nat) : List CopyReq :=
  (floodSet s k vn).filterMap fun (d, tag) =>
    if d = ownDest k then none else (queueFor s k d).map (fun q => { dest := d, queue := q, tag })

/-- The mirror copies a packet asks for (R209): one packet in SAMPLE. -/
def mirrorCopies (k : Pkt) (ms : List Nat) (s : State) : List CopyReq × State :=
  ms.foldl (fun (x : List CopyReq × State) m =>
    let (l, s) := x
    match mget? (padOf s k.pad).mirrors m with
    | some r => match r.queue with
      | some q =>
        let key := k.pipe * 8 + m
        let n := mgetD s.pkt.sampled key 0 + 1
        let s := s.modPkt (fun p => { p with sampled := mput p.sampled key (if r.sample ≤ n then 0 else n) })
        if r.sample ≤ n then
          match setQueueCopy s k q with
          | some c => (l ++ [{ c with trunc := r.trunc, mirror := true, session := m }], s)
          | none => (l, s)
        else (l, s)
      | none => (l, s)
    | none => (l, s)) ([], s)

/-! ### Resequencing (R165, R166) -/

def sprayKey (shim : Nat) : Nat := bits shim 40 8 * 65536 + bits shim 24 16
def spraySeq (shim : Nat) : Nat := bits shim 4 20

/-- Enqueues a packet that was held: the reserve frees its cells, and its own owner admits it (R201). -/
def releaseHeld (h : Held) (s : State) : State :=
  let n := cellsOf h.pkt.bytes.length
  enqueue h.pkt h.reqs h.tsOut (s.modOwner (ownerKey 4 0) (fun w => { w with use := w.use - n }))

/-- Enqueues the held packets from `E` onward in order (R165). -/
def releaseRun (key : Nat) : Nat → State → State
  | 0, s => s
  | fuel + 1, s =>
    let c := mgetD s.pkt.sprayRx key {}
    match mget? c.held c.e with
    | some h =>
      let c' := { c with e := (c.e + 1) % 2 ^ 20, held := mdel c.held c.e, since := s.tick }
      releaseRun key fuel (releaseHeld h (s.modPkt (fun p => { p with sprayRx := mput p.sprayRx key c' })))
    | none => s

/-- Declares the sequences from `E` up to `to` lost, releases what is held among them in order, and goes on from `to` (R165). -/
def sprayAdvance (key to_ : Nat) (s : State) : State :=
  let c := mgetD s.pkt.sprayRx key {}
  let dist (q : Nat) : Nat := (q + 2 ^ 20 - c.e) % 2 ^ 20
  let gone := c.held.filter (fun h => dist h.1 < dist to_)
  let s := s.bump .sprayLost 0 0 (dist to_ - gone.length)
  let s := s.modPkt (fun p => { p with sprayRx := mput p.sprayRx key { c with
    e := to_, held := c.held.filter (fun h => !(dist h.1 < dist to_)), since := s.tick } })
  let order := gone.mergeSort (fun a b => dist a.1 ≤ dist b.1)
  releaseRun key 1024 (order.foldl (fun s h => releaseHeld h.2 s) s)

/-- The oldest packet a context holds, by arrival. -/
def oldestHeld (c : SprayCtx) : Option (Nat × Held) :=
  c.held.foldl (fun b h => match b with
    | some x => if h.2.at_ < x.2.at_ then some h else b
    | none => some h) none

/-- A context whose oldest packet has waited too long, or that the full reserve pushes out: the sequences before that packet are lost
(R165, R166). -/
def sprayTimeout (key : Nat) (s : State) : State :=
  match oldestHeld (mgetD s.pkt.sprayRx key {}) with
  | some h => sprayAdvance key h.1 s
  | none => s

/-- Makes room in the reserve for `n` cells by timing out the context whose oldest packet is oldest (R166). -/
def sprayRoom (n : Nat) : Nat → State → State
  | 0, s => s
  | fuel + 1, s =>
    if (ownerOf s (ownerKey 4 0)).use + n ≤ 65536 then s
    else
      let oldest := s.pkt.sprayRx.foldl (fun (b : Option (Nat × Nat)) e => match oldestHeld e.2 with
        | some h => match b with
          | some x => if h.2.at_ < x.2 then some (e.1, h.2.at_) else b
          | none => some (e.1, h.2.at_)
        | none => b) none
      match oldest with
      | some (key, _) => sprayRoom n fuel (sprayTimeout key s)
      | none => s

/-- How far a sequence number lies ahead of the one that a context expects (R165). -/
def sprayAhead (s : State) (key seq : Nat) : Nat := (seq + 2 ^ 20 - (mgetD s.pkt.sprayRx key {}).e) % 2 ^ 20

/-- The expected packet of a context: it is enqueued, and the held packets from the next number on after it. -/
def sprayNext (key seq : Nat) (k : Pkt) (rs : List CopyReq) (tsOut : Bool) (s : State) : State :=
  releaseRun key 1024 (enqueue k rs tsOut (s.modPkt (fun p => { p with sprayRx := mupd p.sprayRx key {} (fun c =>
    { c with e := (seq + 1) % 2 ^ 20, since := s.tick }) })))

/-- Holds a packet in its context, once the reserve has room. Making room may time out the packet's own context: the packet is then
treated under the context as it stands. A second packet of a number that is held is late (log entry 95). -/
def sprayHold (key seq : Nat) (k : Pkt) (rs : List CopyReq) (tsOut : Bool) (s : State) : State :=
  let n := cellsOf k.bytes.length
  let s := sprayRoom n 8192 s
  let d := sprayAhead s key seq
  if d = 0 then sprayNext key seq k rs tsOut s
  else if 1024 ≤ d || (mget? (mgetD s.pkt.sprayRx key {}).held seq).isSome then s.bump .sprayLate 0 0 1
  else
    (s.modOwner (ownerKey 4 0) (fun w => { w with use := w.use + n })).modPkt (fun p => { p with
      sprayRx := mupd p.sprayRx key {} (fun c => { c with held := mput c.held seq { pkt := k, reqs := rs, tsOut, at_ := s.tick } }) })

/-- A context is opened or reset with the sequence number of the packet that does so. What a reset context holds is of the old run: it goes
out in order, and what is missing before it is lost (log entry 95). -/
def sprayReset (key seq : Nat) (s : State) : State :=
  let c := mgetD s.pkt.sprayRx key {}
  let dist (q : Nat) : Nat := (q + 2 ^ 20 - c.e) % 2 ^ 20
  let last := c.held.foldl (fun a h => max a (dist h.1 + 1)) 0
  let s := if c.held.isEmpty then s else sprayAdvance key ((c.e + last) % 2 ^ 20) s
  s.modPkt (fun p => { p with sprayRx := mupd p.sprayRx key {} (fun c => { c with e := seq, since := s.tick }) })

/-- Resequences a sprayed packet before it is enqueued (R165, R166). -/
def resequence (k : Pkt) (shim : Nat) (rs : List CopyReq) (tsOut : Bool) (s : State) : State :=
  let key := sprayKey shim
  let seq := spraySeq shim
  let known := mget? s.pkt.sprayRx key
  if known.isNone && 8192 ≤ s.pkt.sprayRx.length then s.bump .sprayCtxDrop 0 0 1
  else
    let s := if known.isNone || bit shim 0 then sprayReset key seq s else s
    let d := sprayAhead s key seq
    if d = 0 then sprayNext key seq k rs tsOut s
    else if d < 1024 then sprayHold key seq k rs tsOut s
    else if d < 2 ^ 19 then sprayHold key seq k rs tsOut (sprayAdvance key ((seq + 2 ^ 20 - 1023) % 2 ^ 20) s)
    else s.bump .sprayLate 0 0 1

/-- Enqueues a finished packet, through resequencing when it was sprayed. -/
def sendOut (k : Pkt) (rs : List CopyReq) (tsOut : Bool) (s : State) : State :=
  match k.shim with
  | some shim => resequence k shim rs tsOut s
  | none => enqueue k rs tsOut s

/-- Enqueues copies, or drops the packet for want of any. -/
def sendCopies (k : Pkt) (rs : List CopyReq) (reason : Nat) (tsOut : Bool) (s : State) : State :=
  if (rs.filter (fun r => !r.mirror)).isEmpty then dropPkt k reason s else sendOut k rs tsOut s

/-! ### The end of a packet (R142 step 5, R184) -/

/-- Free values for an encapsulation (log entry 23). -/
def drawEncap (s : State) : EncapFree × State :=
  let (a, s) := s.drawBelow 65536
  let (b, s) := s.drawBelow 65536
  let (c, s) := s.drawBelow 256
  let (d, s) := s.drawBelow 256
  ({ sport := a, ident := b, ttl := c, tos := d }, s)

/-- What a destination resolves to: the egress, the next hop on the way, and the group choice. -/
structure Egress where
  /-- M R142: ETH_PORT or FUNCTION destination. -/
  dest : Nat
  /-- M R145: next hop. -/
  nh : Option Nat := none
  /-- M R161: group choice. -/
  via : Option Via := none
  /-- M R164: spray shim. -/
  shim : Option Nat := none

/-- Resolves NEXT_HOP and GROUP destinations (R142 step 5). A packet sent to the egress of the member that LB has chosen for it leaves by that
member (R161, R164, R167, R185). -/
def resolve (k : Pkt) (dest : Nat) (s : State) : Option Egress × State :=
  match destType dest with
  | 3 => (some { dest := nhOut (mgetD s.pkt.nhs (destArg dest) 0), nh := some (destArg dest) }, s)
  | 4 =>
    match chooseMember k (destArg dest) s with
    | (some via, s) =>
      let (shim, s) := takeShim k via s
      (some { dest := codeDest s via.code, nh := if via.code / 2 ^ 18 = 1 then none else some (via.code % 2 ^ 18)
              via := some via, shim }, s)
    | (none, s) => (none, s)
  | _ => match k.lb.filter (fun v => codeDest s v.code = dest) with
    | some via =>
      let (shim, s) := takeShim k via s
      (some { dest, via := some via, shim }, s)
    | none => (some { dest }, s)

/-- The tenant check at the end of a packet: a reason to drop it, and whether it counts as a tenant cross (R184 step 3). -/
def tenantCheck (s : State) (k : Pkt) (dest : Nat) : Option (Nat × Bool) :=
  match destType dest with
  | 2 =>
    if (fn? s (destArg dest)).isNone then some (6, false)
    else if (isVf (destArg dest) && !(fnD s (destArg dest)).bound) || tenantOf s (destArg dest) ≠ k.tenant then some (1, true)
    else none
  | 5 => if vnTenant (mgetD s.pkt.vns (destArg dest) 0) ≠ k.tenant then some (1, true) else none
  | _ => none

/-- A tenant cross: counted, with its event (R184, R364). -/
def crossed (k : Pkt) (dest : Nat) (s : State) : State :=
  (s.bump .tenantCross k.pipe 0 1).event 0x0602 (.dev k.pipe) (k.tenant + 65536 * dest)

/-- What finishing a packet needs beyond the packet. -/
structure EndInfo where
  /-- M R183: edits. -/
  edits : List Edit := []
  /-- M R185: outer UDP checksum. -/
  outer : Nat := 0
  /-- M R209: mirror sessions. -/
  mirrors : List Nat := []
  /-- M R54: deliver the commit time. -/
  tsOut : Bool := false
  /-- M R138: destination. -/
  dest : Nat := 0
  /-- M R186: PUNT_REASON. -/
  reason : Nat := 4
  /-- M R184: ENDP. -/
  punt : Bool := false

/-- ECN marking of a packet that leaves for the slow path: its ingress owner may call for it (R184 step 4, R204, R205). -/
def markPunt (k : Pkt) (s : State) : Pkt × State :=
  let o := ownerOfPkt s k
  let bytes := if callsMark s o then markEcn k.parse k.bytes else k.bytes
  ({ k with bytes }, if bytes = k.bytes then s else noteMark o s)

/-- An edited packet leaves for the slow path, marked first, and its mirror copies for their queues (R184 steps 4 and 5, R209). -/
def puntEdited (k : Pkt) (reason : Nat) (ms : List CopyReq) (s : State) : State :=
  let (k, s) := markPunt k s
  let s := punt k reason false s
  if ms.isEmpty then s else enqueue k ms false s

/-- Ends a packet that is neither dropped by code nor by a policer (R184 steps 2 to 5). A set QUEUE overrides the destination (R128), and the
destination is checked all the same (R184 step 3; log entry 108, DESIGN CHOICE). What
choosing a group's member takes, it takes of a packet that goes on: one that its TTL or its tenant stops leaves the group as it was. -/
def endPkt (k : Pkt) (i : EndInfo) (s : State) : State :=
  let (f, s) := drawEncap s
  let (eg, t) := if i.punt || k.queue.isSome then (some { dest := i.dest }, s) else resolve k i.dest s
  let (bytes, ttl) := editPkt s k i.edits i.outer (match eg with
    | some e => e.nh
    | none => none) f
  if ttl then punt (withBytes s k (unshim k)) 0xF1 false s
  else
    match tenantCheck s k i.dest with
    | some (reason, cross) => dropPkt k reason (if cross then crossed k i.dest s else s)
    | none =>
      let k' := withBytes s k bytes
      let (ms, s) := mirrorCopies k' i.mirrors t
      if i.punt then puntEdited k' i.reason ms s
      else
        match k.queue with
        | some q => sendCopies k' ((setQueueCopy s k' q).toList ++ ms) 1 i.tsOut s
        | none =>
          match eg with
          | none => dropPkt k 6 s
          | some e =>
            match destType e.dest with
            | 1 | 2 =>
              let c := (queueFor s k' e.dest).map (fun q =>
                { dest := e.dest, queue := q, via := e.via, shim := e.shim : CopyReq })
              sendCopies k' (c.toList ++ ms) 1 i.tsOut s
            | 5 => sendCopies k' (floodCopies s k' (destArg e.dest) ++ ms) 6 i.tsOut s
            | 6 => puntEdited k' 0x03 ms s
            | _ => dropPkt k 1 s

/-- The default action of a packet's parse port (R131): no microcode runs. -/
def defaultAction (k : Pkt) (s : State) : State :=
  let a := defaultAct (padOf s k.pad) k.inPort
  let k := { k with cls := bits a 2 4, colour := bits a 6 2 }
  let s := meterIn k.tenant k.cls k.rxLen s
  let k' := withBytes s k (unshim k)
  match bits a 0 2 with
  | 0 => dropPkt k 1 s
  | 1 => punt k' 0x01 false s
  | 2 => sendCopies { k' with queue := some (bits a 8 17) } ((setQueueCopy s k' (bits a 8 17)).toList) 1 false s
  | _ => sendCopies k' (floodCopies s k' (bits a 32 20)) 6 false s

/-- A microcode fault ends the packet: it is punted unedited, counted, and reported once a second for its code (R187). -/
def mfaultEnd (k : Pkt) (code addr : Nat) (s : State) : State :=
  let key := k.pipe * 8 + code
  let s := s.bump .mfault k.pipe code 1
  let quiet : Bool := match mget? s.pkt.mfaultAt key with
    | some t => decide (s.tick < t + 1000000)
    | none => false
  let s := if quiet then s
    else (s.modPkt (fun p => { p with mfaultAt := mput p.mfaultAt key s.tick })).event 0x0601 (.dev k.pipe) (code + 65536 * addr)
  punt (withBytes s k (unshim k)) (0xF1 + code) false (meterIn k.tenant k.cls k.rxLen s)

/-! ### The vendor forwarding routine (R142, R194) -/

/-- The lookup of step 2: the flow entry of the packet in its VN, keyed in the innermost view (R144). -/
def flowKeyOf (k : Pkt) (view : Nat) : Nat :=
  let f := dictField k view
  let ports : Bool := f 0x15 = 0x0B || f 0x15 = 0x0C
  flowKey (f 0x1A) (f 0x1B) (f 0x1C) (if ports then f 0x21 else 0) (if ports then f 0x22 else 0) k.vn (f 0x14)

/-- Two packets are of one flow, as far as the ingress side tells it: one source and one flow key (O1). For a packet of a host, its ring
is the source. -/
def sameFlow (a b : Pkt) : Bool :=
  let key (k : Pkt) : Nat × Nat × Nat := match k.src with
    | .eth p => (0, p, 0)
    | .host fid ring _ => (1, fid, ring)
    | .inject part => (2, part, k.inPort)
    | .storage b => (3, b, 0)
  key a = key b && flowKeyOf a 0 = flowKeyOf b 0

/-- What steps 2 to 4 come to. -/
inductive Found
  /-- A destination. -/
  | dest (d : Nat)
  /-- No destination: dropped, with reason 1, unless a set QUEUE overrides it. -/
  | drop
  /-- Dropped by learning, with reason 1, as a spoof or as excess (R146, R148). -/
  | refused
  /-- Punted, with a reason of R186, unless a set QUEUE overrides it. -/
  | punt (reason : Nat)
  deriving DecidableEq, Repr

/-- Steps 3 and 4: route, or L2 with learning (R142). -/
def findL2 (k : Pkt) (s : State) : Found × State :=
  let vn := mgetD s.pkt.vns k.vn 0
  let lvl := fwdLevel k
  let field := levelField k.parse k.bytes lvl
  let dmac := field 0x0B
  if vnRoute vn && dmac = mgetD s.pkt.rmacs (vnRmac vn) 0 then
    let hit := if field 0x14 = 1 then lpm 32 s.pkt.v4 (vnVrf vn) (field 0x1B)
      else if field 0x14 = 2 then lpm 128 s.pkt.v6 (vnVrf vn) (field 0x1B) else none
    match hit with
    | some d => (.dest d, s)
    | none => (.drop, s)
  else
    let (s, l) := learn k s
    if l = .drop then (.refused, s)
    else if dmac / 2 ^ 40 % 2 = 1 then (.dest (mkDest 5 k.vn), s)
    else match (tblOf s 2 k.pipe).find l2Kind (l2Key dmac k.vn) with
      | some e => (.dest (l2Dest e), s)
      | none => if vnDropUnknown vn then (.drop, s) else (.dest (mkDest 5 k.vn), s)

/-- Steps 2 to 4 (R142); without step 2 for the routine FWD_NOFLOW. -/
def findDest (k : Pkt) (flow : Bool) (s : State) : Found × State :=
  let vn := mgetD s.pkt.vns k.vn 0
  if !k.hasVn then (.drop, s)
  else if flow && vnFlowEn vn then
    match flowLook (flowKeyOf k 0) s with
    | (some e, s) => (.dest (flowDest e), s)
    | (none, s) => if vnFlowMiss vn then (.punt 0x02, s) else findL2 k s
  else findL2 k s

end Sys2Proof.Machine
end

