-- ==== Sys2Proof/Machine/PacketOps.lean ====
section
/-! DEFINITION. What the rest of the device does to the packet domain: queues dropped at their heads, marked copies, a pipeline
contained, fenced or regrown, a function destroyed, and boot (R45, R53, R62, R114, R156, R370, R404, R413, R424, R437). -/

namespace Sys2Proof.Machine

/-! ### Queues dropped at their heads -/

/-- The logical pipeline of an egress port (R9). -/
def pipeOfPort (s : State) (l0 : Nat) : Nat :=
  if l0 < 144 then pipeOfOctet (((mget? s.ports l0).map (·.octet)).getD 0) else pipeOfHost (l0 - 144)

/-- The Pad bit that a copy's packet carries. -/
def copyPad (s : State) (c : Copy) : Nat := ((stored? s c.pkt).map (·.pkt.pad)).getD 0

/-- The egress port of a copy on a queue: by its own Pad's chain (R212). -/
def copyPort (s : State) (q : Nat) (c : Copy) : Option Nat := portOfQueue (padOf s (copyPad s c)) q

/-- Drops every queued copy that passes a test of its queue and itself. -/
def dropWhere (pass : Nat → Copy → Bool) (reason : Nat) (s : State) : State :=
  (s.pkt.queues.map (·.1)).foldl (fun s q => dropCopies q (pass q) reason s) s

/-- A port has gone down: the packets queued for it drop (R62). -/
def dropPortQueues (port : Nat) (s : State) : State := dropWhere (fun q c => copyPort s q c = some port) 6 s

/-- The copy's queue is stopped by XOFF of this priority of the port. -/
def stoppedBy (s : State) (port prio q : Nat) (c : Copy) : Bool :=
  copyPort s q c = some port && nodePfc (nodeRec (padOf s (copyPad s c)) 3 q) = prio

/-- A pause storm: the priority's queues on the port drop (R53). -/
def stormDrop (port prio : Nat) (s : State) : State :=
  let n := (s.pkt.queues.map (fun e => (e.2.filter (stoppedBy s port prio e.1)).length)).foldl (· + ·) 0
  dropWhere (stoppedBy s port prio) 10 (s.bump .portStormDrop port prio n)

/-- Marks the uncommitted copies of a ring's packets (R114 step 2). -/
def markRingCopies (fid ring : Nat) (s : State) : State :=
  let mine (c : Copy) : Bool := match stored? s c.pkt with
    | some b => match b.pkt.src with
      | .host f r _ => f = fid && r = ring
      | _ => false
    | none => false
  s.modPkt (fun p => { p with queues := mmap p.queues (fun _ l => l.map (fun c => if mine c then { c with marked := true } else c)) })

/-! ### Pipelines (R424, R437) -/

/-- A pipeline is contained: what waits at its input drops with reason 8, what its action engines hold with reason 9. -/
def pipelineContain (k : Nat) (s : State) : State :=
  let wait := mgetD s.pkt.ingress k []
  let run := mgetD s.pkt.ctxs k []
  let s := s.modPkt (fun p => { p with ingress := mdel p.ingress k, ctxs := mdel p.ctxs k })
  let s := wait.foldl (fun s x => dropPkt x 8 s) s
  run.foldl (fun s c => dropPkt c.pkt 9 (meterIn c.pkt.tenant c.pkt.cls c.pkt.rxLen s)) s

/-- A pipeline's fence is final: its held egress queues drop at their heads with reason 8. -/
def pipelineFencedDrop (k : Nat) (s : State) : State :=
  dropWhere (fun q c => match copyPort s q c with
    | some l0 => pipeOfPort s l0 = k
    | none => false) 8 s

/-- A spare pipeline has taken over: what was learned is learned again, and everything else was copied. -/
def pipelineRegrown (k : Nat) (s : State) : State :=
  let c := tblOf s 2 k
  tblPressure 2 k (s.setTbl 2 k { c with
    slots := c.slots.filter (fun e => l2Static e.2), stash := c.stash.filter (fun e => l2Static e.2) })

/-! ### Functions (R370) -/

/-- The table entries of a destroyed function go: flow entries that it owns, and static L2 entries whose source it is. -/
def fnTablesDestroy (fid : Nat) (s : State) : State :=
  let s := (s.pkt.flow.entries.filter (flowOwner · = fid)).foldl (fun s e => tblDel 3 0 (keyOf flowKind e) s) s
  (List.range 9).foldl (fun s p =>
    ((tblOf s 2 p).entries.filter (fun e => l2Static e && l2SrcHost e && l2Src e = fid)).foldl
      (fun s e => tblDel 2 p (keyOf l2Kind e) s) s) s

/-! ### Boot (R156, R404) -/

/-- The packet domain at the end of a boot: seeds drawn for every table of every pipeline, and the store's parse records and default
actions in both Pads. -/
def bootPacket (s : State) : State :=
  let (b, s) := s.draw
  let s := s.modPkt (fun p => { p with
    boot := b
    padA := { p.padA with parse := s.nv.parseRecs, defaults := s.nv.defaults }
    padB := { p.padB with parse := s.nv.parseRecs, defaults := s.nv.defaults } })
  let s := (List.range 9).foldl (fun s p =>
    let (x, s) := s.draw
    let (y, s) := s.draw
    let (z, s) := s.draw
    let (w, s) := s.draw
    s.modPkt (fun k => { k with
      att := mput k.att p { seed := x }
      l2 := mput k.l2 p { seed := y }
      hashSeed := mput (mput k.hashSeed (p * 2) z) (p * 2 + 1) w })) s
  let (f, s) := s.draw
  s.modPkt (fun k => { k with flow := { seed := f } })

/-! ### Measurements (R413) -/

/-- Patch sets and customer stores as a quote lists them: KIND, INDEX, PAD, VERSION, DIGEST. -/
def packetMeasures (s : State) : List (Nat × Nat × Nat × Nat × Nat) :=
  let of (kind : Nat) (ids : Pad → List (Nat × UcodeId)) : List (Nat × Nat × Nat × Nat × Nat) :=
    (List.range 9).flatMap fun p => [0, 1].filterMap fun b =>
      (mget? (ids (padOf s b)) p).map (fun u => (kind, p, b, u.version, u.digest))
  of 3 (·.patchId) ++ of 4 (·.custId)

end Sys2Proof.Machine
end

