-- ==== Sys2Proof/Machine/Ingress.lean ====
section
/-! DEFINITION. The ingress side up to the action engines: frames from a MAC, MACsec in both directions, the parse and classification
of a packet, and injected packets (R51, R54 to R57, R118 to R135, R173, R174, R325). -/

namespace Sys2Proof.Machine

/-! ### MACsec (R55 to R57, R304) -/

/-- The port has MACsec enabled: its octet has had a MACsec SA, and the store does not have the port off (log entry 28). -/
def macsecOn (s : State) (port octet : Nat) : Bool := (mget? s.cip.macsecOn octet).isSome && (mget? s.nv.macsecOff port).isNone

/-- The frame is protected: its EtherType is the SecTAG's. -/
def hasSecTag (bs : List Byte) : Bool := atBe bs 12 2 = 0x88E5

/-- Bytes of a frame's SecTAG, EtherType included. -/
def secTagLen (bs : List Byte) : Nat := if bit (at8 bs 14) 5 then 16 else 8

/-- The receive SA of a protected frame, in service or not: of its octet and AN, and of its SCI where the tag has one (log entry 28). -/
def rxSa (s : State) (octet : Nat) (bs : List Byte) : Option (Nat × Sa) :=
  let tci := at8 bs 14
  let sci := if bit tci 5 then atBe bs 20 8 else if bit tci 6 then atBe bs 6 6 * 65536 + 1 else 0
  s.cip.sas.find? (fun e => e.2.kind = 3 && e.2.octet = octet && e.2.an = tci % 4 && (e.2.sci = sci || (!bit tci 5 && !bit tci 6)))

/-- A frame that a MACsec SA drops, counted for the SA by its cause and for the port (R63, R302). -/
def secDrop (port n cause : Nat) (s : State) : State := saDrop n cause (s.bump .portSaDrop port n 1)

/-- The cause that an SA out of service drops for: KEYS_ERASED or SA_INVALID (R297, R302). -/
def secCause (s : State) (a : Sa) : Nat := if alarmLatched s || a.state = 4 then 3 else 11

/-- validateFrames where no receive SA matches: as the octet's receive SAs were last created; 0 Strict (log entry 28). -/
def octetValidate (s : State) (octet : Nat) : Nat :=
  (((s.cip.sas.filter (fun e => e.2.kind = 3 && e.2.octet = octet)).getLast?).map (·.2.validate)).getD 0

/-- The nonce of a MACsec frame: SCI and PN, or SSCI and PN exclusive-ored with the salt of an XPN suite (IEEE 802.1AE, 802.1AEbw; log entry
28). -/
def secNonce (a : Sa) (pn : Nat) : List Byte :=
  if a.long then beBytes 12 ((a.ssci * 2 ^ 64 + pn) ^^^ a.salt) else beBytes 8 a.sci ++ beBytes 4 pn

/-- What a MACsec unit makes of a received frame. -/
inductive SecRx
  /-- To the pipeline, with MACSEC_OK or without. -/
  | pass (bytes : List Byte) (ok : Bool)
  /-- Dropped and counted. -/
  | drop
  deriving DecidableEq, Repr

/-- A protected frame that is not verified, under a validateFrames (R55). -/
def unverified (validate : Nat) (bs : List Byte) : SecRx :=
  if validate = 0 || bit (at8 bs 14) 3 then .drop else .pass bs false

/-- Bytes of a protected frame's secure data: those that SL counts in a short frame, which may be padded after its ICV, and what lies before the ICV
in any other (IEEE 802.1AE). -/
def secLen (bs : List Byte) : Nat :=
  let sl := at8 bs 15 % 64
  if sl = 0 then bs.length - 12 - secTagLen bs - 16 else sl

/-- The frame without SecTAG and ICV, when its tag verifies under an SA. -/
def secOpen (a : Sa) (pn : Nat) (bs : List Byte) : Option (List Byte) :=
  let tag := secTagLen bs
  let enc := bit (at8 bs 14) 3
  let data := (bs.drop (12 + tag)).take (secLen bs)
  let icv := (bs.drop (12 + tag + secLen bs)).take 16
  let off := if enc then min a.offset data.length else data.length
  let aad := bs.take (12 + tag) ++ data.take off
  let body := data.drop off
  if icv.length < 16 || !cipherOk 2 a.keyReg (secNonce a pn) aad body icv then none
  else some (bs.take 12 ++ data.take off ++ fit body.length (cipherRun 2 a.keyReg (secNonce a pn) aad body))

/-- An unverified frame of a receive SA, counted for the SA when it is dropped. -/
def secFail (port n cause validate : Nat) (bs : List Byte) (s : State) : SecRx × State :=
  let r := unverified validate bs
  (r, if r = .drop then secDrop port n cause s else s)

/-- Verification of a received frame (R55 to R57, R304). Under a cipher alarm, and when it is out of service, its SA is as absent; a frame of an
exhausted SA is dropped; a late one fails its check. -/
def macsecRx (port octet : Nat) (bs : List Byte) (s : State) : SecRx × State :=
  if !macsecOn s port octet then (.pass bs false, s)
  else if !hasSecTag bs then
    -- EAPOL passes the uncontrolled port; other unprotected frames follow validateFrames (IEEE 802.1AE; log entry 28)
    (if atBe bs 12 2 = 0x888E || octetValidate s octet ≠ 0 then .pass bs false else .drop, s)
  else match rxSa s octet bs with
    | none => (if alarmLatched s then .drop else unverified (octetValidate s octet) bs, s.bump .macsecBad octet 0 1)
    | some (n, a) =>
      let pn := fullSeq a (atBe bs 16 4)
      let bad := s.bump .macsecBad octet 0 1
      if alarmLatched s then (.drop, secDrop port n 3 bad)
      else if 3 ≤ a.state then secFail port n (secCause s a) (octetValidate s octet) bs bad
      else if a.state = 2 then (.drop, secDrop port n 5 bad)
      else if pn + a.window < a.highest + 1 then secFail port n 6 a.validate bs (s.bump .macsecLate octet 0 1)
      else match secOpen a pn bs with
        | none => secFail port n 1 a.validate bs bad
        | some clear => (.pass clear true, saAccept n pn s)

/-- A transmit SA of an octet, drawn among those that can send: which SC a frame takes is the controlled port's affair, which the spec
does not set out (log entry 28). -/
def txSa (octet : Nat) (s : State) : Option (Nat × Sa) × State :=
  let l := s.cip.sas.filter (fun e => e.2.kind = 2 && e.2.octet = octet)
  let live := l.filter (fun e => e.2.state < 2)
  match live with
  | [] => (l.head?, s)
  | _ =>
    let (i, s) := s.drawBelow live.length
    (live[i]?, s)

/-- Protects a frame for the wire, or drops it for want of an SA or of numbers (R55 to R57, R304). -/
def macsecTx (port octet : Nat) (bs : List Byte) (s : State) : Option (List Byte) × State :=
  if !macsecOn s port octet || atBe bs 12 2 = 0x888E then (some bs, s)
  else match txSa octet s with
    | (none, s) => (none, s)
    | (some (n, a), s) =>
      if alarmLatched s || 2 ≤ a.state then (none, secDrop port n (if a.state = 2 && !alarmLatched s then 5 else secCause s a) s)
      else
        let (pn, s) := saTake n s
        let hdr := beBytes 2 0x88E5 ++ beBytes 1 (0x2C + a.an) ++ beBytes 1 (if bs.length < 60 then bs.length - 12 else 0)
          ++ beBytes 4 pn ++ beBytes 8 a.sci
        let clear := (bs.drop 12).take a.offset
        let aad := bs.take 12 ++ hdr ++ clear
        let body := bs.drop (12 + a.offset)
        (some (aad ++ fit (body.length + 16) (cipherRun 1 a.keyReg (secNonce a pn) aad body)), s)

/-! ### A pipeline's service (R424, R437) -/

/-- A logical pipeline takes headers: its unit is in service and no Regrowth of it runs. -/
def pipeServes (s : State) (k : Nat) : Bool :=
  let p := physOf s 0 k
  domServes s (.pipeline p) && !(match mget? s.wear.active 0 with
    | some v => v / 65536 = p
    | none => false)

/-- A packet reaches a pipeline's input; a stopped ingress drops it with reason 8 (R45). -/
def toIngress (k : Pkt) (s : State) : State :=
  if pipeServes s k.pipe then s.modPkt (fun p => { p with ingress := mupd p.ingress k.pipe [] (· ++ [k]) })
  else dropPkt k 8 s

/-- Bytes that an Ethernet port's ingress buffer holds (R173). -/
def ingressBytes (s : State) (pipe port : Nat) : Nat :=
  ((mgetD s.pkt.ingress pipe []).filter (fun k => k.src = .eth port)).foldl (fun a k => a + k.bytes.length) 0

/-! ### Frames from a MAC (R51, R54) -/

/-- A frame as the MAC hands it on: counted, time-stamped when it is a PTP event message, and buffered, or dropped at a full buffer. Its bytes
are counted without the FCS and as MACsec leaves them (log entry 106, DESIGN CHOICE). -/
def ethAccept (port : Nat) (p : EthPort) (bs : List Byte) (ok : Bool) (s : State) : State :=
  let pipe := pipeOfOctet p.octet
  let s := (s.bump .portRxFrames port 0 1).bump .portRxBytes port 0 bs.length
  if 65536 < ingressBytes s pipe port + bs.length then s.bump .engineOverrun port 0 1
  else
    let ts := if isPtpEvent (parseFrame parseReset true bs) bs then some s.time else none
    toIngress { bytes := bs, src := .eth port, inPort := port, pipe, rxTs := ts, macsecOk := ok, rxLen := bs.length } s

/-- A received frame, without its FCS, and the FCS that came with it: the length, FCS and FEC checks, MACsec, and the port's buffer (R51, R55). MAC control frames end
in the MAC (R52). -/
def ethReceive (port : Nat) (frame : List Byte) (fcs : Nat) (fecOk : Bool) (s : State) : State :=
  match mget? s.ports port with
  | none => s
  | some p =>
    if p.state ≠ 2 || s.phase ≠ .running then s
    else if !fecOk then s.bump .portFec port 0 1
    else if fcs ≠ crcOf 1 frame then s.bump .portFcs port 0 1
    else
      let sec := macsecOn s port p.octet
      let long := p.mtu + if sec && hasSecTag frame then secTagLen frame + 16 else 0
      if frame.length + 4 < 64 || long < frame.length + 4 then s.bump .portLength port 0 1
      else if atBe frame 12 2 = 0x8808 then s
      else match macsecRx port p.octet frame s with
        | (.drop, s) => s.bump .portMacsecDrop port 0 1
        | (.pass bs ok, s) => ethAccept port p bs ok s

/-! ### Classification (R127, R128) -/

def ruleClass (r : Nat) : Option Nat := if bit (ruleWord r 40) 4 then some (bits (ruleWord r 40) 0 4) else none
def ruleColour (r : Nat) : Option Nat := if bit (ruleWord r 40) 7 then some (bits (ruleWord r 40) 5 2) else none
def ruleQueue (r : Nat) : Option Nat := if bit (ruleWord r 40) 8 then some (bits (ruleWord r 41) 0 17) else none
def ruleDisp (r : Nat) : Nat := bits (ruleWord r 40) 9 2
def ruleBinding (r : Nat) : Nat := bits (ruleWord r 42) 0 8
def ruleValid (r : Nat) : Bool := bit (ruleWord r 47) 0
def ruleView (r : Nat) : Nat := bits (ruleWord r 47) 1 1

/-- A rule slot whose word was found uncorrectable, until it is cleared (R420): bit 1,536 of its record. -/
def ruleLost (r : Nat) : Bool := bit r 1536

/-- A valid rule whose every masked key bit equals the packet's (R128). -/
def ruleMatches (inner outer r : Nat) : Bool :=
  let key := if ruleView r = 0 then inner else outer
  ruleValid r && (key &&& bits r 640 640) = bits r 0 640

/-- The valid matching rule with the lowest slot number, or the lost slot that comes first. -/
def classify (s : State) (k : Pkt) : Option (Nat × Nat) :=
  let inner := classKey k 0
  let outer := classKey k 1
  ((padOf s k.pad).rules.find? (fun e => e.1 / 32768 = k.pipe && (ruleLost e.2 || ruleMatches inner outer e.2))).map (fun e => (e.1 % 32768, e.2))

def bindEntry (b : Nat) : Nat := bits b 0 15
def bindValid (b : Nat) : Bool := bit b 15
def bindArg (b : Nat) : Nat := bits b 16 16

/-- The engine that takes a packet: the first with a free context (R171). -/
def freeEngine (s : State) (pipe : Nat) : Option Nat :=
  leastBelow 32 (fun e => ((mgetD s.pkt.ctxs pipe []).filter (fun c => c.engine = e)).length < 16)

/-- A packet starts on an engine at an entry (R174). -/
def startCtx (k : Pkt) (engine entry : Nat) (s : State) : State :=
  s.modPkt (fun p => { p with
    ctxs := mupd p.ctxs k.pipe [] (· ++ [{ id := p.nextCtx, pkt := k, engine, pc := entry }])
    nextCtx := p.nextCtx + 1 })

/-- The matching rule's outcome (R128, R130). -/
def ruleOutcome (k : Pkt) (slot r engine : Nat) (s : State) : State :=
  let k := { k with
    rule := slot
    cls := (ruleClass r).getD 0
    colour := (ruleColour r).getD 0
    queue := ruleQueue r }
  let s := s.bump .ruleHit (k.pipe * 32768 + slot) k.pad 1
  match ruleDisp r with
  | 1 => dropPkt k 1 (meterIn k.tenant k.cls k.rxLen s)
  | 2 => punt (withBytes s k (unshim k)) 0x00 false (meterIn k.tenant k.cls k.rxLen s)
  | _ =>
    let b := bindRec (padOf s k.pad) k.pipe (ruleBinding r)
    if ruleBinding r ≠ 0 && bindValid b then startCtx { k with arg := bindArg b } engine (bindEntry b) s
    else startCtx k engine 0 s

/-- The parse of a packet under the active Pad, with its VN and tenant (R119, R139, R164). -/
def parsePkt (s : State) (k : Pkt) : Pkt :=
  let pad := s.pkt.leap.active
  let p := parseFrame (parseRec (padOf s pad) k.inPort) (k.inPort < 144) k.bytes
  let k := { k with
    pad, parse := p
    shim := (shimAt p).map (fun i => atBe k.bytes (i + 2) 6)
    rxPrio := if levelField p k.bytes 0 0x08 = 0 then none else some (levelField p k.bytes 0 0x0F) }
  assignVn s k

/-- A pipeline takes a packet: parse, VN and tenant, classification, and the outcome (R123, R124, R128, R131, R135). -/
def acceptHeader (k : Pkt) (engine : Nat) (s : State) : State :=
  let k := parsePkt s k
  let p := k.parse
  let s := if p.depth ≠ 0 then s.bump .depthStop k.inPort p.depth 1 else s
  let s := if p.err ≠ 0 then s.bump .parseErr k.inPort p.err 1 else s
  if p.frag && (p.err = 0 || p.errAfterFrag) then
    punt (withBytes s k (unshim k)) 0xF0 false (meterIn k.tenant 0 k.rxLen (s.bump .fragments k.inPort 0 1))
  else if p.err ≠ 0 then defaultAction k s
  else match classify s k with
    | some (slot, r) =>
      if ruleLost r then dropPkt k 1 (meterIn k.tenant 0 k.rxLen s) else ruleOutcome k slot r engine s
    | none => defaultAction k (s.bump .noMatch k.inPort 0 1)

/-- A packet that its port's default action would send on past a packet of its flow that the engines hold (O1, R131). -/
def overtakes (s : State) (k : Pkt) : Bool :=
  let k := parsePkt s k
  (k.parse.err ≠ 0 || (classify s k).isNone) && (mgetD s.pkt.ctxs k.pipe []).any (fun c => sameFlow c.pkt k)

/-- A pipeline with a free context takes its next header (R173). -/
def takeHeader (pipe : Nat) (s : State) : State :=
  match mgetD s.pkt.ingress pipe [], freeEngine s pipe with
  | k :: rest, some e =>
    if pipeServes s pipe && !overtakes s k then
      acceptHeader k e (s.modPkt (fun p => { p with ingress := mput p.ingress pipe rest }))
    else s
  | _, _ => s

/-! ### Injection (R325) -/

/-- A thread's packet enters a pipeline as a parse port. Service injection's back-pressure holds it at the thread (R206). -/
def injectPkt (part tenant pipe port : Nat) (bs : List Byte) (ts : Option Nat) (s : State) : State :=
  toIngress { bytes := bs, src := .inject part, inPort := port, tenant, pipe, rxTs := ts, rxLen := bs.length } s

/-! ### Commands -/

def execEthFrameReceive (port : Nat) (frame : List Byte) (fcs : BitVec 32) (fecOk : Bool) : State → Host.Outcome State Fault Refusal :=
  run (wfEthFrameReceive port frame fcs fecOk) (ethReceive port frame fcs.toNat fecOk)

end Sys2Proof.Machine
end

