-- ==== Sys2Proof/Machine/CheckValue.lean ====
section
/-! DEFINITION. Check-value contexts and the digests of NVMe/TCP PDUs as a stream passes a unit (R285 to R291). -/

namespace Sys2Proof.Machine

/-! ### Context fields (R286) -/

def ckvAlg (x : Nat) : Nat := bits x 0 3
def ckvValid (x : Nat) : Bool := bit x 3
def ckvFrozen (x : Nat) : Bool := bit x 4
def ckvResync (x : Nat) : Bool := bit x 5
def ckvStage (x : Nat) : Nat := bits x 8 4
def ckvTenant (x : Nat) : Nat := bits x 16 16
def ckvOwner (x : Nat) : Nat := bits x 32 16
def ckvCrc (x : Nat) : Nat := bits x 64 64
def ckvRemain (x : Nat) : Nat := bits x 128 32
def ckvNext (x : Nat) : Nat := bits x 160 32
def ckvDataLen (x : Nat) : Nat := bits x 192 32
def ckvErrors (x : Nat) : Nat := bits x 224 32

/-- A context. -/
def ckvOf (s : State) (i : Nat) : Nat := mgetD s.cip.ckv i 0

/-- The state with a context written. -/
def State.setCkv (s : State) (i x : Nat) : State := s.modCip (fun c => { c with ckv := mput c.ckv i x })

/-! ### The stages of a PDU (R285, R286) -/

/-- A unit at work on a stream of PDUs. -/
structure CkvRun where
  /-- M R286: ALG. -/
  alg : Nat := 0
  /-- M R286: STAGE. -/
  stage : Nat := 1
  /-- M R286: REMAIN. -/
  remain : Nat := 8
  /-- M R286: CRC. -/
  crc : Nat := 2 ^ 32 - 1
  /-- M R286: DATA_LEN. -/
  dataLen : Nat := 0
  /-- M R286: common-header bytes seen. -/
  part : List Byte := []
  /-- M R285: a header digest differed. -/
  badHdr : Bool := false
  /-- M R285: a data digest differed. -/
  badData : Bool := false
  /-- M R286: the digest at hand differs. -/
  cur : Bool := false
  /-- M R286: digests that differed. -/
  errs : Nat := 0
  /-- M R285: the bytes, with generated data digests in place. -/
  out : List Byte := []

def CkvRun.flag (r : CkvRun) (i : Nat) : Bool := bit (at8 r.part 1) i
def CkvRun.hlen (r : CkvRun) : Nat := max 8 (at8 r.part 2)
def CkvRun.pdo (r : CkvRun) : Nat := at8 r.part 3
def CkvRun.plen (r : CkvRun) : Nat := ofLe ((r.part.drop 4).take 4)

/-- The next PDU. -/
def CkvRun.fresh (r : CkvRun) : CkvRun := { r with stage := 1, remain := 8, crc := crcInit r.alg, dataLen := 0, part := [], cur := false }

/-- The data stage, when the PDU has data. -/
def CkvRun.toData (r : CkvRun) : CkvRun :=
  if r.dataLen = 0 then r.fresh else { r with stage := 4, remain := r.dataLen, crc := crcInit r.alg, cur := false }

/-- The padding before the data. -/
def CkvRun.toPad (r : CkvRun) : CkvRun :=
  let pad := r.pdo - r.hlen - (if r.flag 0 then 4 else 0)
  if r.pdo = 0 || pad = 0 then r.toData else { r with stage := 3, remain := pad }

/-- The header has passed: its length fields set the stages that follow. -/
def CkvRun.hdrDone (r : CkvRun) : CkvRun :=
  let r := { r with dataLen := if r.pdo = 0 then 0 else r.plen - r.pdo - (if r.flag 1 then 4 else 0) }
  if r.flag 0 then { r with stage := 2, remain := 4 } else r.toPad

/-- A stage has ended. -/
def CkvRun.stageDone (r : CkvRun) : CkvRun :=
  if r.remain ≠ 0 then r
  else match r.stage with
    | 1 => r.hdrDone
    | 2 => r.toPad
    | 3 => r.toData
    | 4 => if r.flag 1 then { r with stage := 5, remain := 4 } else r.fresh
    | _ => r.fresh

/-- A byte of a digest that differs: a mismatch, counted once for the digest. -/
def CkvRun.differs (r : CkvRun) (bad : Bool) : CkvRun := { r with errs := r.errs + b2n (bad && !r.cur), cur := r.cur || bad }

/-- One byte of the stream, under the context's algorithm. -/
def CkvRun.byte (gen : Bool) (r : CkvRun) (b : Byte) : CkvRun :=
  let r := if r.stage = 0 then r.fresh else r
  let want := (leBytes 4 (crcDone r.alg r.crc)).getD (4 - r.remain) 0
  match r.stage with
  | 1 =>
    let part := if r.part.length < 8 then r.part ++ [b] else r.part
    let remain := if r.part.length = 2 then max 8 b.toNat - 3 else r.remain - 1
    ({ r with part, remain, crc := crcRun r.alg r.crc [b], out := r.out ++ [b] }).stageDone
  | 2 => ({ r.differs (b ≠ want) with remain := r.remain - 1, badHdr := r.badHdr || b ≠ want, out := r.out ++ [b] }).stageDone
  | 5 =>
    let bad : Bool := !gen && b ≠ want
    ({ r.differs bad with remain := r.remain - 1, badData := r.badData || bad, out := r.out ++ [if gen then want else b] }).stageDone
  | 4 => ({ r with remain := r.remain - 1, crc := crcRun r.alg r.crc [b], out := r.out ++ [b] }).stageDone
  | _ => ({ r with remain := r.remain - 1, out := r.out ++ [b] }).stageDone

/-- A context as a unit works on it. Behind the eight bytes of a PDU's common header a ninth stands while its digest at hand differs. -/
def ckvLoad (s : State) (i : Nat) : CkvRun :=
  let x := ckvOf s i
  let part := mgetD s.cip.ckvPart i []
  { alg := ckvAlg x, stage := ckvStage x, remain := ckvRemain x, crc := ckvCrc x, dataLen := ckvDataLen x, part := part.take 8
    cur := part.length = 9 }

/-- The context written back, with the sequence number that the stream goes on at. -/
def ckvSave (i next : Nat) (r : CkvRun) (s : State) : State :=
  let x := ckvOf s i
  let part := if r.cur then fit 8 r.part ++ [1] else r.part
  let x := setBits (setBits (setBits x 8 4 r.stage) 64 64 r.crc) 128 32 r.remain
  let x := setBits (setBits (setBits x 160 32 next) 192 32 r.dataLen) 224 32 (ckvErrors x + r.errs)
  (s.setCkv i x).modCip (fun c => { c with ckvPart := if part.isEmpty then mdel c.ckvPart i else mput c.ckvPart i part })

/-! ### Contexts of flows (R287) -/

/-- A context of the Owner's share: in no port's range, and granted to no function of the owner port. -/
def ownerCkv (s : State) (i : Nat) : Bool :=
  !s.allots.any (fun e => e.2.firsts.getD 3 0 ≤ i && i < e.2.firsts.getD 3 0 + e.2.counts.getD 10 0)
    && !s.fns.any (fun e => e.2.grants.ckvFirst ≤ i && i < e.2.grants.ckvFirst + e.2.grants.ckvCtx)

/-- A free context for a flow of an owner, of its function's grant or of the Owner's share: one that neither a flow nor a thread holds. -/
def freeCkv (s : State) (owner : Nat) : Option Nat :=
  let free (i : Nat) : Bool := !ckvValid (ckvOf s i) && !ckvFrozen (ckvOf s i)
  if owner = 0 then leastBelow 262144 (fun i => free i && ownerCkv s i)
  else
    let g := grantsOf s owner
    (leastBelow g.ckvCtx (fun i => free (g.ckvFirst + i))).map (g.ckvFirst + ·)

/-- A context bound to a stream, at the start of a PDU that comes at `seq`; its mismatches count on. -/
def ckvBind (i tenant owner seq : Nat) (s : State) : State :=
  s.setCkv i (pack [(3, 0), (1, 1), (1, 0), (1, 0), (2, 0), (4, 1), (4, 0), (16, tenant), (16, owner), (16, 0), (64, 2 ^ 32 - 1), (32, 8),
    (32, seq), (32, 0), (32, ckvErrors (ckvOf s i))])

/-- The context of a flow entry; the flow's first selected segment binds one (log entry 29). -/
def flowCkv (key tenant seq : Nat) (s : State) : Option Nat × State :=
  match s.cip.ckvFlow.find? (fun e => e.2 = key) with
  | some (i, _) => (some i, s)
  | none =>
    match s.pkt.flow.find flowKind key with
    | none => (none, s)
    | some e => match freeCkv s (flowOwner e) with
      | none => (none, s.bump .ckvExhausted 0 0 1)
      | some i =>
        (some i, (ckvBind i tenant (flowOwner e) seq s).modCip (fun c => { c with ckvFlow := mput c.ckvFlow i key }))

/-- The stream bytes of a TCP segment from an offset: to the end of the IP packet. -/
def segEnd (k : Pkt) (level : Nat) : Nat :=
  match hdrIn k.parse level [5, 6] with
  | some ip => min k.bytes.length
      (if ip.code = 5 then ip.off + atBe k.bytes (ip.off + 2) 2 else ip.off + 40 + atBe k.bytes (ip.off + 4) 2)
  | none => k.bytes.length

/-- A segment at a unit (R185, R285, R290): the status, the packet's bytes, or nothing while the context is frozen. Operation 1 checks the
data digest, 2 generates it, 3 checks the header digest. -/
def ckvSegment (k : Pkt) (op cur : Nat) (key : Option Nat) (s : State) : Option (Nat × List Byte × State) :=
  let off := curOff k cur
  let level := ((k.parse.hdrs[cur]?).map (·.level)).getD k.parse.levels
  let tcp := hdrIn k.parse level [0x0C]
  let seq := (tcp.map (fun h => atBe k.bytes (h.off + 4) 4)).getD 0
  match key with
  | none => some (3, k.bytes, s)
  | some f =>
    match flowCkv f k.tenant seq s with
    | (none, s) => some (3, k.bytes, s)
    | (some i, s) =>
      let x := ckvOf s i
      if ckvFrozen x then none
      else if !ckvValid x then some (3, k.bytes, s)
      else if ckvResync x || seq ≠ ckvNext x then
        some (2, k.bytes, (s.setCkv i (setBits x 5 1 1)).bump .ckvOutOfSeq 0 0 1)
      else
        let body := (k.bytes.take (segEnd k level)).drop off
        let r := body.foldl (CkvRun.byte (op = 2)) (ckvLoad s i)
        let bad := (op = 1 && r.badData) || (op = 3 && r.badHdr)
        let s := ckvSave i ((seq + body.length) % 2 ^ 32) r s
        some (b2n bad, k.bytes.take off ++ r.out ++ k.bytes.drop (off + body.length), s)

end Sys2Proof.Machine
end

