-- ==== Sys2Proof/Machine/Backend.lean ====
section
/-! DEFINITION. The connections to the backends: the PDUs that the volume service sends, with their digests, in TCP segments through the
connection's home pipeline, and the contexts that check what comes back (R10, R16, R264, R277, R285, R287, R290). The forms of the PDUs, the
segments and the packets are those of NVMe over TCP, TCP and IP; what none of them fixes is free (log entry 53). -/

namespace Sys2Proof.Machine

def backOf (s : State) (b : Nat) : Backend := mgetD s.sto.backs b {}

/-- The backend is there and READY. -/
def backReady (s : State) (b : Nat) : Bool := match mget? s.sto.backs b with
  | some k => k.state = 1
  | none => false

def State.modBack (s : State) (b : Nat) (f : Backend → Backend) : State := s.modSto (fun t => { t with backs := mupd t.backs b {} f })

/-! ### PDUs (R264, R285) -/

/-- A backend command's submission queue entry: the opcode, its identifier, the namespace, the descriptor of its data, the range. -/
def backSqe (nsid tag op lba len bytes : Nat) : List Byte :=
  let inCapsule : Bool := op = 9
  leBytes 1 op ++ [0x40] ++ leBytes 2 (tag % 65536) ++ leBytes 4 nsid ++ List.replicate 16 0
    ++ leBytes 8 0 ++ leBytes 4 bytes ++ [0, 0, 0, if inCapsule then 0x01 else 0x5A]
    ++ (if op = 9 then leBytes 4 0 ++ leBytes 4 4 ++ List.replicate 16 0
        else leBytes 8 lba ++ leBytes 4 ((len - 1) % 65536) ++ List.replicate 12 0)

/-- A PDU with its header digest, and its data with the data digest. -/
def pduBytes (type flags : Nat) (specific data : List Byte) : List Byte :=
  let hlen := 8 + specific.length
  let has : Bool := !data.isEmpty
  let plen := hlen + 4 + if has then data.length + 4 else 0
  let hdr := leBytes 1 type ++ leBytes 1 (flags + 1 + 2 * b2n has) ++ leBytes 1 hlen ++ leBytes 1 (if has then hlen + 4 else 0)
    ++ leBytes 4 plen ++ specific
  hdr ++ leBytes 4 (crcOf 0 hdr) ++ if has then data ++ leBytes 4 (crcOf 0 data) else []

/-- The PDUs of a backend command: its capsule, which carries the range of a deallocation, and a write's data behind it, under the transfer tag
that the backend gives. -/
def backPdus (nsid tag op lba len ttag : Nat) (data : List Byte) : List Byte :=
  let range := if op = 9 then leBytes 4 0 ++ leBytes 4 len ++ leBytes 8 lba else []
  let n := if op = 1 then data.length else if op = 2 then 4112 * len else range.length
  pduBytes 4 0 (backSqe nsid tag op lba len n) range
    ++ if op = 1 then pduBytes 6 4 (leBytes 2 (tag % 65536) ++ leBytes 2 ttag ++ leBytes 4 0 ++ leBytes 4 data.length ++ leBytes 4 0) data
      else []

/-! ### Segments (R10, R264) -/

/-- Bytes of TCP payload of a full segment on the connection's port: its MTU less the headers and the FCS, as R290's example reckons. -/
def backMss (s : State) (k : Backend) : Nat :=
  max 1 (((mget? s.ports k.via).map (·.mtu)).getD 1518 - 14 - (if k.v6 then 40 else 20) - 20 - 4)

/-- A byte stream in pieces of `n`. -/
def segmentsOf (n : Nat) : Nat → List Byte → List (List Byte)
  | 0, _ => []
  | fuel + 1, bs => if bs.isEmpty then [] else bs.take n :: segmentsOf n fuel (bs.drop n)

/-- A segment's frame on a connection. The identification or flow label, the hop limit and the window are free. -/
def tcpFrame (k : Backend) (c : Conn) (ack : Nat) (payload : List Byte) (s : State) : List Byte × State :=
  let (ident, s) := s.drawBelow (2 ^ 16)
  let (ttl, s) := s.drawBelow (2 ^ 8)
  let (window, s) := s.drawBelow (2 ^ 16)
  let far := if k.v6 then leBytes 16 k.addr else (leBytes 16 k.addr).take 4
  let near := if k.v6 then leBytes 16 k.own else (leBytes 16 k.own).take 4
  let addrs := near ++ far
  let n := 20 + payload.length
  let head := beBytes 2 c.port ++ beBytes 2 k.port ++ beBytes 4 c.tx ++ beBytes 4 ack ++ [0x50, 0x18] ++ beBytes 2 window
  let sum := 65535 - ocSum (addrs ++ beBytes 2 6 ++ beBytes 2 n ++ head ++ [0, 0, 0, 0] ++ payload)
  let tcp := head ++ beBytes 2 sum ++ [0, 0] ++ payload
  let ip := if k.v6 then beBytes 4 (6 * 2 ^ 28 + ident) ++ beBytes 2 n ++ [6] ++ beBytes 1 ttl ++ addrs
    else
      let h := beBytes 2 0x4500 ++ beBytes 2 (20 + n) ++ beBytes 2 ident ++ beBytes 2 0 ++ beBytes 1 ttl ++ [6]
      h ++ beBytes 2 (65535 - ocSum (h ++ addrs)) ++ addrs
  (beBytes 12 k.macs ++ beBytes 2 (if k.v6 then 0x86DD else 0x0800) ++ ip ++ tcp, s)

/-- A connection of a backend. -/
def connOf (s : State) (b q : Nat) : Conn := (backOf s b).conns.getD q {}

def State.modConn (s : State) (b q : Nat) (f : Conn → Conn) : State :=
  s.modBack b (fun k => { k with conns := k.conns.set q (f (k.conns.getD q {})) })

/-- Bytes go out on a connection: each segment enters the ingress side of the home pipeline, tagged with the infrastructure tenant (R10,
R16). -/
def connSend (b q : Nat) (bs : List Byte) (s : State) : State :=
  (segmentsOf (backMss s (backOf s b)) bs.length bs).foldl (fun s p =>
    let k := backOf s b
    let c := connOf s b q
    let (frame, s) := tcpFrame k c ((c.ctx.map (fun i => ckvNext (ckvOf s i))).getD 0) p s
    let s := s.modConn b q (fun c => { c with tx := (c.tx + p.length) % 2 ^ 32 })
    toIngress { bytes := frame, src := .storage b, inPort := k.via, pipe := k.home, rxLen := frame.length } s) s

/-- Sends a command to a backend under a tag, on the connection that the tag falls to (R10, R264; log entry 53). -/
def backSend (b tag op lba len : Nat) (data : List Byte) (s : State) : State :=
  let (ttag, s) := s.drawBelow 65536
  let s := s.bump .backendCmd b 0 1
  let k := backOf s b
  connSend b (tag % max 1 k.conns.length) (backPdus k.nsid tag op lba len ttag data) s

/-! ### Connecting (R263, R264, R287) -/

/-- The host NQN (R264). -/
def hostNqn (uniqueId : Nat) : List Byte :=
  ascii "nqn.2024-06.com.etaraz:x144-" ++ hexText 16 uniqueId ++ ascii ":vs"

/-- Tries to connect to a backend. -/
def backConnect (b : Nat) (nqn : List Byte) (s : State) : State := s.emit (.connect b nqn (hostNqn s.nv.uniqueId))

/-- The contexts of a backend's connections are freed. -/
def connsFree (b : Nat) (s : State) : State :=
  (ckvDrop ((backOf s b).conns.filterMap (·.ctx)) s).modBack b ({ · with conns := [] })

/-- A backend's connections stand: each takes a context of the Owner's share, where one is free (R287). -/
def connsOpen (b : Nat) (l : Link) (s : State) : State :=
  let s := (connsFree b s).modBack b ({ · with via := l.port, macs := l.macs, own := l.addr })
  (List.range (backOf s b).queues).foldl (fun s q =>
    let c := l.conns.getD q {}
    let add (x : Option Nat) (s : State) : State :=
      s.modBack b (fun k => { k with conns := k.conns ++ [{ port := c.port, tx := c.tx % 2 ^ 32, ctx := x : Conn }] })
    match freeCkv s 0 with
    | some i => add (some i) (ckvBind i 0 0 (c.rx % 2 ^ 32) s)
    | none => add none (s.bump .ckvExhausted 0 0 1)) s

/-! ### PDUs received (R10, R285, R290) -/

/-- The little-endian number in `n` bytes from `i`. -/
def atLe (bs : List Byte) (i n : Nat) : Nat := ofLe ((bs.drop i).take n)

/-- The header digest of a PDU is good: its flag set, the CRC-32C of the HLEN bytes in the four that follow (NVMe over TCP). -/
def hdgstOk (pdu : List Byte) : Bool :=
  let hlen := at8 pdu 2
  bit (at8 pdu 1) 0 && hlen + 4 ≤ pdu.length && crcOf 0 (pdu.take hlen) = atLe pdu hlen 4

/-- The data digest of a PDU is good, or the PDU has none. -/
def ddgstOk (pdu : List Byte) : Bool :=
  let pdo := at8 pdu 3
  let plen := atLe pdu 4 4
  !bit (at8 pdu 1) 1 || (pdo + 4 ≤ plen && plen ≤ pdu.length && crcOf 0 ((pdu.drop pdo).take (plen - pdo - 4)) = atLe pdu (plen - 4) 4)

/-- The packets of a PDU as the pipeline of its port meters them: full segments on that port, in a class that is free (R16, R64). -/
def pduMeter (b : Nat) (p : PduIn) (s : State) : State :=
  let k := backOf s b
  let n := cdiv p.bytes.length (backMss s { k with via := p.port })
  let (cls, s) := s.drawBelow 16
  (s.meterAdd 0 cls n).meterAdd 0 (16 + cls) (p.bytes.length + n * (54 + if k.v6 then 20 else 0))

/-- What the unit of the connection's flow finds of a PDU, as the check-value status counts (R290). -/
inductive PduSeen
  /-- The context is FROZEN: the stream waits. -/
  | held
  /-- Out of sequence, or no context: the segments are punted. -/
  | punted
  /-- In sequence, under the context named. -/
  | taken (ctx : Nat)
  deriving DecidableEq, Repr

def pduSeen (s : State) (b : Nat) (p : PduIn) : PduSeen :=
  match (connOf s b p.queue).ctx with
  | none => .punted
  | some i =>
    let x := ckvOf s i
    if ckvFrozen x then .held
    else if !ckvValid x || ckvResync x || p.seq ≠ ckvNext x then .punted
    else .taken i

/-- The segments of a PDU received: of the backend, in full ones of the port that they came by. -/
def pduFrames (b : Nat) (p : PduIn) (s : State) : List (List Byte) × State :=
  let k := backOf s b
  let c := connOf s b p.queue
  let far : Backend := { k with addr := k.own, own := k.addr, port := c.port, macs := k.macs % 2 ^ 48 * 2 ^ 48 + k.macs / 2 ^ 48 }
  (segmentsOf (backMss s { k with via := p.port }) p.bytes.length p.bytes).foldl (fun (a : List (List Byte) × State × Nat) bs =>
    let (f, s) := tcpFrame far { port := k.port, tx := a.2.2 } c.tx bs a.2.1
    (a.1 ++ [f], s, (a.2.2 + bs.length) % 2 ^ 32)) ([], s, p.seq) |> fun a => (a.1, a.2.1)

/-- A PDU that the unit does not take goes to the slow path, RESYNC set and the segment counted where it is out of sequence (R290). -/
def pduPunt (b : Nat) (p : PduIn) (s : State) : State :=
  let s := match (connOf s b p.queue).ctx with
    | some i => if ckvValid (ckvOf s i) then (s.setCkv i (setBits (ckvOf s i) 5 1 1)).bump .ckvOutOfSeq 0 0 1 else s
    | none => s
  let (frames, s) := pduFrames b p s
  frames.foldl (fun s f => punt { bytes := f, src := .eth p.port, inPort := p.port, pipe := pipeOfPort s p.port, pad := s.pkt.leap.active
                                  rxLen := f.length } 0x00 false s) s

/-- The context after a PDU that it took: the next sequence number, at the start of a PDU again, and its mismatches. -/
def pduTaken (i : Nat) (p : PduIn) (errs : Nat) (s : State) : State :=
  ckvSave i ((p.seq + p.bytes.length) % 2 ^ 32) { ({} : CkvRun) with alg := ckvAlg (ckvOf s i), errs } s

end Sys2Proof.Machine
end

