-- ==== Sys2Proof/Machine/NvmeOps.lean ====
section
/-! DEFINITION. The storage domain's shared operations: commands in flight, range locks, completions, asynchronous events, volumes and
replicas, backend commands, controller resets and fences (R229 to R275). -/

namespace Sys2Proof.Machine

/-! ### Fields of a submission queue entry (NVM Express; R233, R234, R240) -/

def NvCmd.fld (c : NvCmd) (lo w : Nat) : Nat := bits c.sqe lo w
/-- Command dword `n`. -/
def NvCmd.cdw (c : NvCmd) (n : Nat) : Nat := c.fld (32 * n) 32
def NvCmd.opc (c : NvCmd) : Nat := c.fld 0 8
def NvCmd.nsid (c : NvCmd) : Nat := c.cdw 1
/-- Starting LBA. -/
def NvCmd.slba (c : NvCmd) : Nat := c.fld 320 64
/-- Blocks, the field being 0's based. -/
def NvCmd.nlb (c : NvCmd) : Nat := c.fld 384 16 + 1
/-- PRACT. -/
def NvCmd.pract (c : NvCmd) : Bool := bit (c.cdw 12) 29
/-- PRCHK: bit 2 guard, bit 1 application tag, bit 0 reference tag. -/
def NvCmd.prchk (c : NvCmd) : Nat := bits (c.cdw 12) 26 3
/-- ILBRT or EILBRT. -/
def NvCmd.ilbrt (c : NvCmd) : Nat := c.cdw 14 + 2 ^ 32 * bits (c.cdw 3) 0 16
/-- LBAT or ELBAT, and its mask. -/
def NvCmd.lbat (c : NvCmd) : Nat := bits (c.cdw 15) 0 16
def NvCmd.lbatm (c : NvCmd) : Nat := bits (c.cdw 15) 16 16
/-- AD of Dataset Management. -/
def NvCmd.ad (c : NvCmd) : Bool := bit (c.cdw 11) 2
/-- A command of an admin queue. -/
def NvCmd.admin (c : NvCmd) : Bool := c.sqid = 0
/-- Write, Write Zeroes or Dataset Management. -/
def NvCmd.writes (c : NvCmd) : Bool := !c.admin && (c.opc = 1 || c.opc = 8 || c.opc = 9)

/-! ### Controllers and commands in flight (R231, R232) -/

def ctrlOf (s : State) (fid : Nat) : Ctrl := mgetD s.sto.ctrls fid {}
def State.modCtrl (s : State) (fid : Nat) (f : Ctrl → Ctrl) : State := s.modSto (fun t => { t with ctrls := mupd t.ctrls fid {} f })
def sqOf (s : State) (fid q : Nat) : NvSq := mgetD (ctrlOf s fid).sqs q {}
def cqOf (s : State) (fid q : Nat) : NvCq := mgetD (ctrlOf s fid).cqs q {}
def State.modSq (s : State) (fid q : Nat) (f : NvSq → NvSq) : State := s.modCtrl fid (fun c => { c with sqs := mupd c.sqs q {} f })
def State.modCq (s : State) (fid q : Nat) (f : NvCq → NvCq) : State := s.modCtrl fid (fun c => { c with cqs := mupd c.cqs q {} f })

/-- The completion queue has a free slot. -/
def cqRoom (q : NvCq) : Bool := (q.tail + 1) % max 1 q.size ≠ q.head

/-- The command with a fetch sequence number. -/
def cmd? (s : State) (seq : Nat) : Option NvCmd := s.sto.cmds.find? (·.seq = seq)
/-- The state with a command changed. -/
def State.modCmd (s : State) (seq : Nat) (f : NvCmd → NvCmd) : State :=
  s.modSto (fun t => { t with cmds := t.cmds.map (fun c => if c.seq = seq then f c else c) })
/-- The oldest command of a queue and CID that passes. -/
def cmdIn (s : State) (fid qid cid : Nat) (p : NvCmd → Bool) : Option NvCmd :=
  s.sto.cmds.find? (fun c => c.fid = fid && c.sqid = qid && c.cid = cid && !c.orphan && p c)
/-- Commands in flight of a controller. -/
def inFlight (s : State) (fid : Nat) : List NvCmd := s.sto.cmds.filter (fun c => c.fid = fid && !c.orphan)

/-- A function's fetched work has ended: every transmitted packet has completed, no descriptor read is out, and of NVMe commands only
asynchronous event requests are left (R384, R408). -/
def fnDrained (s : State) (fid : Nat) : Bool :=
  let reading (r : Read) : Bool := r.fid = fid && !r.dead && match r.purpose with
    | .index _ | .mbxIndex => false
    | _ => true
  (fnD s fid).rings.all (fun e => e.2.tx.isEmpty) && !s.reads.any reading
    && (inFlight s fid).all (fun c => (ctrlOf s fid).aers.contains c.seq)

/-- A status field: SCT, SC and DNR (R242). -/
def nvStatus (sct sc dnr : Nat) : Nat := pack [(8, sc), (3, sct), (3, 0), (1, dnr)]

/-! ### Release (R247, R252, R257, R275, R287) -/

/-- Ends the waits for a detached namespace's commands. -/
def detachDone (s : State) : List (Nat × Nat) :=
  let all := (started s).filterMap fun w => match w with
    | .volDetach h f => some (h, f)
    | _ => none
  all.filter (fun e => !s.sto.cmds.any (fun c => c.vol = e.1 && c.fid = e.2 && !c.orphan))

/-- A shutdown is complete when every command has posted, asynchronous event requests aside (R257). -/
def shutdownCheck (fid : Nat) (s : State) : State :=
  let c := ctrlOf s fid
  if c.shst = 1 && (inFlight s fid).all (fun k => c.aers.contains k.seq) then s.modCtrl fid ({ · with shst := 2 }) else s

/-- The command's lock entry goes. -/
def lockRelease (seq : Nat) (s : State) : State := s.modSto (fun t => { t with locks := t.locks.filter (·.seq ≠ seq) })

/-- A command leaves: its lock entry, its data-mover context and its cipher request go with it. -/
def nvRelease (seq : Nat) (s : State) : State :=
  match cmd? s seq with
  | none => s
  | some c =>
    let s := lockRelease seq (s.modSto (fun t => { t with cmds := t.cmds.filter (·.seq ≠ seq) }))
    let s := ckvDrop ((s.cip.mover.filter (·.2 = seq)).map (262144 + ·.1)) s
    let s := s.modCip (fun k => { k with
      mover := k.mover.filter (·.2 ≠ seq)
      reqs := k.reqs.filter (·.dst ≠ .mover seq) })
    shutdownCheck c.fid s

/-- A command has its final status; with `dnr` absent the DNR bit is free (R242). One whose controller was reset leaves at once. -/
def nvDone (seq sct sc : Nat) (dnr : Option Bool) (s : State) : State :=
  let (d, s) := match dnr with
    | some b => (b2n b, s)
    | none => s.drawBelow 2
  match cmd? s seq with
  | some c =>
    if c.orphan then nvRelease seq s else s.modCmd seq ({ · with phase := .done, status := nvStatus sct sc d })
  | none => s

/-- Successful completion. -/
def nvOk (seq : Nat) (s : State) : State := nvDone seq 0 0 (some false) s

/-- The data mover's context of a command is FROZEN: its data waits (R289). -/
def moverHeld (s : State) (seq : Nat) : Bool := s.cip.mover.any (fun e => e.2 = seq && ckvFrozen (ckvOf s (262144 + e.1)))

/-! ### Asynchronous events and the Error Information log (R231, R233, R235, R236, R241) -/

/-- Adds an entry to the Error Information log. -/
def logError (fid sqid cid status lba nsid : Nat) (s : State) : State :=
  s.modCtrl fid (fun c =>
    { c with errCount := c.errCount + 1
             errs := ({ count := c.errCount + 1, sqid, cid, status, lba, nsid : ErrEntry } :: c.errs).take 64 })

/-- Reports an event through an outstanding request, or keeps it until one comes, its type is unmasked, or the Eft is back (R260). -/
def asyncPump (fid : Nat) (s : State) : State :=
  let c := ctrlOf s fid
  match (if s.eft.headless then [] else c.aers), c.events.find? (fun e => !c.masked.contains e.1) with
  | seq :: rest, some (t, i, l) =>
    let s := s.modCtrl fid (fun c => { c with
      aers := rest, masked := c.masked ++ [t], events := c.events.erase (t, i, l) })
    nvOk seq (s.modCmd seq ({ · with dw0 := t + 256 * i + 65536 * l }))
  | _, _ => s

/-- Raises an asynchronous event: type (0 error, 1 SMART, 2 notice), information, log page. A SMART event's warning is the one that feature
0Bh must enable: bit 0 for Available Spare (information 2), bit 1 for the temperature (information 1) (R235). -/
def asyncEvent (fid t i l : Nat) (s : State) : State :=
  let c := ctrlOf s fid
  let on : Bool := match t with
    | 0 => true
    | 1 => bit c.feats.async (if i = 2 then 0 else 1)
    | _ => bit c.feats.async 8
  if !c.rdy || !on || c.events.contains (t, i, l) then s
  else asyncPump fid (s.modCtrl fid (fun c => { c with events := c.events ++ [(t, i, l)] }))

/-! ### Volumes and replicas (R262, R266, R267, R270, R274) -/

def vol? (s : State) (h : Nat) : Option Volume := mget? s.sto.vols h
def State.putVol (s : State) (h : Nat) (v : Volume) : State := s.modSto (fun t => { t with vols := mput t.vols h v })
/-- The replicas in a state, by index. -/
def Volume.repsIn (v : Volume) (st : Nat) : List Nat :=
  (List.range v.reps.length).filter (fun i => (v.reps.getD i {}).state = st)
/-- The primary: the in-sync replica with the lowest index. -/
def Volume.primary (v : Volume) : Option Nat := (v.repsIn 0).head?
def Volume.rep (v : Volume) (i : Nat) : Replica := v.reps.getD i {}
def Volume.setRep (v : Volume) (i st : Nat) : Volume := { v with reps := v.reps.set i { v.rep i with state := st } }

/-- The volume's key: its slot opens and its check value is the volume's (R267). -/
def volKeyOk (s : State) (v : Volume) : Bool := slotOpens s v.slot && (keySlot s v.slot).kcv = v.kcv && !alarmLatched s

/-- Valid open records of a volume at its generation (R268, R272). -/
def volRecs (s : State) (h : Nat) (v : Volume) : List (Nat × Intent) :=
  s.sto.intents.filter (fun e => e.2.vol = h && e.2.gen = v.gen && e.2.good)

/-- Those that no command in flight holds. -/
def openRecs (s : State) (h : Nat) (v : Volume) : List (Nat × Intent) :=
  (volRecs s h v).filter (fun e => !s.sto.cmds.any (·.intent = some e.1))

/-- The state that a volume takes when nothing but its key, its replicas and its records decides. -/
def volRest (s : State) (h : Nat) (v : Volume) : Nat :=
  if v.primary.isNone then 5
  else if !volKeyOk s v then 4
  else if !v.zeroing.isEmpty then 0
  else if !(openRecs s h v).isEmpty then 1
  else if v.reps.all (·.state = 0) then 2 else 3

/-- The volume takes that state. -/
def volSettle (h : Nat) (s : State) : State :=
  match vol? s h with
  | some v => setVolState h (volRest s h v) s
  | none => s

/-- The volume is RECONCILING where a record is open at its generation, whether its key is there or not; else as its replicas and key say
(R272, R274). -/
def volOpen (h : Nat) (s : State) : State :=
  match vol? s h with
  | some v => if v.primary.isSome && !(openRecs s h v).isEmpty then setVolState h 1 s else volSettle h s
  | none => s

/-- A FAILED volume whose source replica's backend is READY takes that replica as primary and reconciles (R274). -/
def volRetry (h : Nat) (s : State) : State :=
  match vol? s h with
  | some v =>
    if v.state = 5 && backReady s (v.rep v.source).backend then volOpen h (s.putVol h { v.setRep v.source 0 with copied := 0 }) else s
  | none => s

/-- A slot has taken a key: its LOCKED volumes reopen where the check value matches, elsewhere they stay LOCKED, with an event (R276); any other
that now fails its check value is LOCKED (R267). -/
def volReopen (slot : Nat) (s : State) : State :=
  (s.sto.vols.filter (fun e => e.2.slot = slot)).foldl (fun s e =>
    if e.2.state = 4 then (if volKeyOk s e.2 then volRetry e.1 (volSettle e.1 s) else s.event 0x0903 (.dev e.1) (4 + 256 * 4))
    else if volKeyOk s e.2 then s else setVolState e.1 4 s) s

/-! ### Backend commands (R206, R264, R269) -/

/-- The storage owner of the packet buffer. -/
def storageOwner : Nat := ownerKey 2 0
/-- No new backend command goes out and nothing is fetched (R206). -/
def storageHeld (s : State) : Bool := bpOn s storageOwner

/-- Cells that a backend command's answer takes: a read's data, with its metadata (R199, R201; log entry 53). What it sends is charged as packets
of the storage owner are, when they are enqueued. -/
def BackCmd.need (b : BackCmd) : Nat := cellsOf (if b.op = 2 then 4112 * b.len else 0)

/-- Charges the storage owner with `n` cells (R201, R204). -/
def storageCharge (n : Nat) (s : State) : State :=
  bpSweep (noteAdmitted storageOwner (s.modOwner storageOwner (fun w => { w with use := w.use + n })))

/-- The storage owner admits `n` cells, and no back-pressure holds new backend commands (R203, R206). -/
def storageRoom (s : State) (n : Nat) : Bool := !storageHeld s && admits s storageOwner n

/-- A backend command that waits goes out, when the storage owner has room for it and none before it waits. -/
def backGo (b : BackCmd) (s : State) : State :=
  if !storageRoom s b.need || s.sto.bcmds.any (fun x => !x.out && x.tag < b.tag) then s
  else
    let s := storageCharge b.need s
    let s := s.modSto (fun t => { t with
      bcmds := t.bcmds.map (fun x => if x.tag = b.tag then { x with out := true, cells := b.need, at_ := s.tick, data := [] } else x) })
    backSend b.backend b.tag b.op b.lba b.len b.data s

/-- The waiting backend commands go out in their order, as far as there is room. -/
def backPump (s : State) : State := (s.sto.bcmds.filter (!·.out)).foldl (fun s b => backGo b s) s

/-- Takes the next tag. -/
def nextTag (s : State) : Nat × State := (s.sto.nextTag, s.modSto (fun t => { t with nextTag := t.nextTag + 1 }))

/-- Issues a backend command whose answer is awaited: at once, or, counted as refused, when the storage owner lets it (R203, R206). -/
def backIssue (backend rep op : Nat) (for_ : BackFor) (off len lba : Nat) (data : List Byte) (s : State) : State :=
  let (tag, s) := nextTag s
  let b : BackCmd := { tag, backend, rep, for_, off, len, op, lba, data }
  let s := backPump (s.modSto (fun t => { t with bcmds := t.bcmds ++ [b] }))
  if s.sto.bcmds.any (fun x => x.tag = tag && !x.out) then noteRefused storageOwner s else s

/-- Backend commands that pass leave; their cells are freed, and what waited may go out. -/
def backDrop (p : BackCmd → Bool) (s : State) : State :=
  let n := ((s.sto.bcmds.filter p).map (·.cells)).foldl (· + ·) 0
  let s := s.modSto (fun t => { t with bcmds := t.bcmds.filter (fun b => !p b) })
  backPump (if n = 0 then s else freeCells storageOwner n s)

/-- The parts of a range: one when it has 32 blocks or fewer, else split at 128 KiB boundaries (R269). -/
def splitAt32 : Nat → Nat → Nat → Nat → List (Nat × Nat)
  | 0, _, _, _ => []
  | fuel + 1, off, lba, n =>
    if n = 0 then []
    else
      let k := min n (32 - lba % 32)
      (off, k) :: splitAt32 fuel (off + k) (lba + k) (n - k)
def piecesOf (lba n : Nat) : List (Nat × Nat) := if n ≤ 32 then [(0, n)] else splitAt32 (n + 1) 0 lba n

/-- Blocks that one initial Write Zeroes or deallocation covers at most: what the command's block count can say. -/
def zeroStep : Nat := 65536

/-- The next initial Write Zeroes, or deallocation, of a replica, from a block of the volume on (R266, R275). -/
def zeroNext (h i off : Nat) (s : State) : State :=
  match vol? s h with
  | none => s
  | some v =>
    let b := (v.rep i).backend
    backIssue b i (if (backOf s b).info.dealloc then 9 else 8) (.init h) off (min zeroStep (v.size - off)) ((v.rep i).start + off) [] s

/-- The initial Write Zeroes, or deallocation, of every replica of a volume begins, each block becoming unwritten (R266, R275). -/
def volZero (h : Nat) (s : State) : State :=
  match vol? s h with
  | none => s
  | some v =>
    let s := s.putVol h { v with zeroing := List.range v.reps.length }
    (List.range v.reps.length).foldl (fun s i => zeroNext h i 0 s) s

/-- The backend commands of a command. -/
def cmdBacks (s : State) (seq : Nat) : List BackCmd := s.sto.bcmds.filter (·.for_ = .cmd seq)

/-- The volume that a backend command concerns. -/
def backVol (s : State) (b : BackCmd) : Nat := match b.for_ with
  | .cmd seq => ((cmd? s seq).map (·.vol)).getD 4096
  | .init h => h

/-! ### Reads (R271) -/

/-- Sends a part of a read to a replica. -/
def readPart (c : NvCmd) (v : Volume) (rep off len : Nat) (s : State) : State :=
  backIssue (v.rep rep).backend rep 2 (.cmd c.seq) off len ((v.rep rep).start + c.slba + off) [] s

/-- The other half of a fused pair ends Failed Fused Command (R246). -/
def failPair (c : NvCmd) (s : State) : State :=
  match c.pair with
  | some p => match cmd? s p with
    | some o => if o.phase = .done then s else nvDone p 0 9 none s
    | none => s
  | none => s

/-- A command fails, and the other half of its pair with it. -/
def nvFail (c : NvCmd) (sct sc : Nat) (dnr : Option Bool) (s : State) : State := failPair c (nvDone c.seq sct sc dnr s)

/-- A part of a read failed on a replica now degraded: the next in-sync replica after it, or Unrecovered Read Error. -/
def readAgain (c : NvCmd) (b : BackCmd) (s : State) : State :=
  match vol? s c.vol with
  | none => s
  | some v =>
    let l := v.repsIn 0
    match ((l.filter (b.rep < ·)).head?).or l.head? with
    | some i => readPart c v i b.off b.len s
    | none => nvFail c 2 0x81 (some false) (backDrop (·.for_ = .cmd c.seq) s)

/-! ### Writes (R269, R270) -/

/-- The record of a command is cleared. -/
def intentClear (c : NvCmd) (s : State) : State :=
  match c.intent with
  | some i => (s.modSto (fun t => { t with intents := mdel t.intents i })).modCmd c.seq ({ · with intent := none })
  | none => s

/-- No record of a RECONCILING volume remains: the generation increases and the volume opens (R272). -/
def reconciled (h : Nat) (s : State) : State :=
  match vol? s h with
  | some v =>
    if v.state = 1 && (volRecs s h v).isEmpty then volSettle h (s.putVol h { v with gen := (v.gen + 1) % 2 ^ 32, copied := 0 }) else s
  | none => s

/-- Every replica has answered or been marked degraded: success when an in-sync one acknowledged; otherwise Write Fault, and the record
stays open. -/
def writeCheck (seq : Nat) (s : State) : State :=
  match cmd? s seq with
  | none => s
  | some c =>
    if c.phase ≠ .backend || !c.writes || !(cmdBacks s seq).isEmpty then s
    else
      let good : Bool := match vol? s c.vol with
        | some v => c.acked.any (fun i => (v.rep i).state = 0)
        | none => false
      if good then reconciled c.vol (nvOk seq (intentClear c s))
      else nvDone seq 2 0x80 (some false) (setVolState c.vol 5 (s.modCmd seq ({ · with intent := none })))

/-- A backend command fails on a replica that is marked degraded. -/
def backFailed (b : BackCmd) (s : State) : State :=
  match b.for_ with
  | .cmd seq => match cmd? s seq with
    | some c =>
      if c.writes then writeCheck seq (s.modCmd seq (fun c => { c with acked := c.acked.filter (· ≠ b.rep) }))
      else readAgain c b s
    | none => s
  | .init h => match vol? s h with
    | some v => if v.state = 0 && v.zeroing.isEmpty then volSettle h s else s
    | none => s

/-- Marks a replica degraded: its event, the end of a rebuild that it or the volume's failure ends, and the volume's state (R270,
R273, R274). -/
def repMark (h i : Nat) (s : State) : State :=
  match vol? s h with
  | none => s
  | some v =>
    let left := (v.setRep i 1).primary.isSome
    let v1 := if left then v.setRep i 1 else { v with reps := v.reps.map (fun r => { r with state := 1 }), source := i }
    let goes := left && !(v1.repsIn 2).isEmpty
    let locks := v.chunks.map (·.2)
    let v2 := { v1 with
      zeroing := v1.zeroing.filter (· ≠ i)
      copied := if v.primary = some i then 0 else v1.copied
      chunks := if goes then v1.chunks else []
      cursor := if goes then v1.cursor else 0 }
    let s := s.putVol h v2
    let s := if goes then s else s.modSto (fun t => { t with locks := t.locks.filter (fun l => !locks.contains l.seq) })
    let s := s.event 0x0902 (.dev h) (i + 65536 * (v.rep i).backend)
    if !left then setVolState h 5 s else if v.state = 2 then setVolState h 3 s else s

/-- A replica is degraded: the commands that wait for it wait no longer (R269 step 5, R271). -/
def degradeRep (h i : Nat) (s : State) : State :=
  match vol? s h with
  | none => s
  | some v =>
    if v.reps.length ≤ i || (v.rep i).state = 1 then s
    else
      let mine (b : BackCmd) : Bool := b.rep = i && backVol s b = h
      let bs := s.sto.bcmds.filter mine
      bs.foldl (fun s b => backFailed b s) (backDrop (fun b => bs.any (·.tag = b.tag)) (repMark h i s))

/-- A backend takes a state, with its event. -/
def setBack (b st : Nat) (s : State) : State :=
  match mget? s.sto.backs b with
  | some k =>
    if k.state = st then s
    else (s.modSto (fun t => { t with backs := mput t.backs b { k with state := st } })).event 0x0901 (.dev b) st
  | none => s

/-- A backend is LOST: every replica it holds is degraded (R264, R270). -/
def backLost (b : Nat) (s : State) : State :=
  let held := s.sto.vols.flatMap (fun e => ((List.range e.2.reps.length).filter (fun i => (e.2.rep i).backend = b)).map (fun i => (e.1, i)))
  held.foldl (fun s e => degradeRep e.1 e.2 s) (connsFree b (setBack b 2 s))

/-! ### Rebuild (R273) -/

/-- Enters locks in the table; a table that becomes full is a counted pause (R248). -/
def lockAdd (l : List Lock) (s : State) : State :=
  let s := s.modSto (fun t => { t with locks := t.locks ++ l })
  s.bump .lockPause 0 0 (b2n (!l.isEmpty && s.sto.locks.length = 8192))

/-- µs that copying blocks takes within REBUILD_RATE (R273). -/
def copyTime (v : Volume) (n : Nat) : Nat := cdiv (4112 * n) (max 1 v.rate)

/-- Takes up chunks of 512 blocks, four at most in flight, each under a shared entry of the range-lock table. -/
def rebuildPump : Nat → Nat → State → State
  | 0, _, s => s
  | fuel + 1, h, s =>
    match vol? s h with
    | none => s
    | some v =>
      if (v.repsIn 2).isEmpty || 4 ≤ v.chunks.length || v.size ≤ v.cursor || 8192 ≤ s.sto.locks.length then s
      else
        let n := min 512 (v.size - v.cursor)
        let seq := s.sto.nextSeq
        let s := lockAdd [{ seq, vol := h, lo := v.cursor, hi := v.cursor + n, excl := false : Lock }] s
        let s := s.modSto (fun t => { t with
          nextSeq := seq + 1
          vols := mput t.vols h { v with cursor := v.cursor + n, chunks := v.chunks ++ [(v.cursor, seq)] } })
        rebuildPump fuel h s

/-- Degraded replicas enter REBUILDING and the cursor walks from LBA 0. -/
def rebuildStart (h : Nat) (reps : List Nat) (s : State) : State :=
  match vol? s h with
  | none => s
  | some v =>
    let locks := v.chunks.map (·.2)
    let v1 := reps.foldl (fun v i => v.setRep i 2) v
    let s := s.modSto (fun t => { t with
      locks := t.locks.filter (fun l => !locks.contains l.seq)
      vols := mput t.vols h { v1 with cursor := 0, chunks := [], pace := s.tick + copyTime v (min 512 v.size) } })
    rebuildPump 4 h s

/-- Replicas that a rebuild can take up: degraded, their backend READY. -/
def rebuildable (s : State) (v : Volume) : List Nat := (v.repsIn 1).filter (fun i => backReady s (v.rep i).backend)

/-- AUTO_REBUILD. -/
def autoRebuild (h : Nat) (s : State) : State :=
  match vol? s h with
  | some v => if v.auto && 2 ≤ v.state && v.state ≤ 4 && !(rebuildable s v).isEmpty then rebuildStart h (rebuildable s v) s else s
  | none => s

/-- What the storage domain takes up again at a tick: backend commands that waited for the storage owner, rebuilds that found the lock table full
(R248), and automatic ones that are due (R273). -/
def storageTick (s : State) : State := (s.sto.vols.map (·.1)).foldl (fun s h => autoRebuild h (rebuildPump 4 h s)) (backPump s)

/-! ### Controller resets and fences (R256 to R258, R89) -/

/-- A command of a controller that is turned off: a write whose backend command is out goes on and posts nothing; any other is
discarded (R256 steps 3 to 5). -/
def cmdOff (c : NvCmd) (s : State) : State :=
  if c.writes && c.sent && c.phase = .backend then s.modCmd c.seq ({ · with orphan := true })
  else nvRelease c.seq (backDrop (·.for_ = .cmd c.seq) s)

/-- `CC.EN` from 1 to 0 (R256). The admin queue registers stay (NVM Express). -/
def ctrlOff (fid : Nat) (s : State) : State :=
  let s := (inFlight s fid).foldl (fun s c => cmdOff c s) s
  let isNv (r : Read) : Bool := match r.purpose with
    | .nvme _ _ => r.fid = fid
    | _ => false
  let s := s.killReads isNv
  s.modCtrl fid (fun c => { aqa := c.aqa, asq := c.asq, acq := c.acq })

/-- A reset of the function (R84, R258). -/
def nvmeReset (fid : Nat) (s : State) : State :=
  if (mget? s.sto.ctrls fid).isNone then s
  else (ctrlOff fid s).modSto (fun t => { t with ctrls := mdel t.ctrls fid })

/-- Every queue of an enabled controller enters FENCED, and CFS reads 1 until `CC.EN` is cleared; a command that a host read serves
ends unreported, and started writes go on (R89, R258). -/
def nvmeFence (fid : Nat) (s : State) : State :=
  let c := ctrlOf s fid
  if !bit c.cc 0 || c.fenced then s
  else
    let reading (k : NvCmd) : Bool := (k :: (k.pair.bind (cmd? s)).toList).any (fun k =>
      liveRead s (fun r => r.fid = fid && r.purpose = .nvme k.sqid k.cid))
    let s := ((inFlight s fid).filter (fun k => reading k || (k.writes && k.sent))).foldl (fun s k => cmdOff k s) s
    s.modCtrl fid ({ · with fenced := true, cfs := true })

/-- A fatal fault of the host port: CFS (R424). -/
def nvmeFatal (fid : Nat) (s : State) : State :=
  if bit (ctrlOf s fid).cc 0 then s.modCtrl fid ({ · with cfs := true }) else s

/-- A queue of the controller is FENCED. -/
def nvmeFenced (s : State) (fid : Nat) : Bool := (ctrlOf s fid).fenced || (ctrlOf s fid).sqs.any (·.2.fenced)

/-- Two lock entries conflict (R247). -/
def lockClash (a b : Lock) : Bool := a.vol = b.vol && a.lo < b.hi && b.lo < a.hi && (a.excl || b.excl)

/-- A write that a Flush waits for: fetched earlier, to a namespace that the Flush names (R250). -/
def flushWaits (s : State) (f c : NvCmd) : Bool :=
  let vols := if f.nsid = 2 ^ 32 - 1 then (s.sto.nss.filter (fun e => e.1 / 65536 = f.fid)).map (·.2.vol) else [f.vol]
  c.writes && c.seq < f.seq && !(c.opc = 9 && !c.ad) && !c.ranges.isEmpty && vols.contains c.vol

/-- The lock entry of a command, or of the pair that it belongs to. -/
def heldLock (s : State) (c : NvCmd) : Option Lock := s.sto.locks.find? (fun l => l.seq = c.seq || c.pair = some l.seq)

/-- `O5`, `O6` or `O7` has command `c` complete after command `a`. -/
def mustFollow (s : State) (c a : NvCmd) : Bool :=
  a.seq < c.seq && c.pair ≠ some a.seq &&
    (a.fid = c.fid && a.sqid = c.sqid && (a.ord || c.ord)
      || (heldLock s a).any (fun x => (heldLock s c).any (lockClash x))
      || (!c.admin && c.opc = 0 && flushWaits s c a))

/-- The storage front end is contained: what is short of its posting point completes Internal Error, in an order that `O5` to `O7` permit,
and its successors never start (R45, R259). Open records stay open. -/
def storageContain (s : State) : State :=
  let s := backDrop (fun b => match b.for_ with
    | .cmd _ => true
    | .init _ => false) s
  let s := s.modCip (fun k => { k with reqs := k.reqs.filter (fun r => match r.dst with
    | .mover _ => false
    | _ => true) })
  let live := s.sto.cmds.filter (fun c => !(ctrlOf s c.fid).aers.contains c.seq)
  let behind (c : NvCmd) : List Nat := (s.sto.cmds.filter (mustFollow s c)).map (·.seq)
  live.foldl (fun s c => nvDone c.seq 0 6 (some false)
    (s.modCmd c.seq (fun k => { k with intent := none, after := k.after ++ behind c }))) s

/-- Nothing is in flight but asynchronous event requests (R261). -/
def storageDrained (s : State) : Bool := s.sto.cmds.all (fun c => (ctrlOf s c.fid).aers.contains c.seq)

/-- A host read of a command failed or timed out: Data Transfer Error (R82, R242). -/
def nvmeReadFailed (fid qid cid : Nat) (s : State) : State :=
  match cmdIn s fid qid cid (·.phase = .started) with
  | some c =>
    let mate := c.pair.bind (cmd? s)
    let theirs (r : Read) : Bool := (c :: mate.toList).any (fun k => r.fid = k.fid && r.purpose = .nvme k.sqid k.cid)
    let s := nvDone c.seq 0 4 none (s.killReads theirs)
    match c.pair with
    | some p => nvDone p 0 9 none s
    | none => s
  | none => s

/-! ### Registers and doorbells (R230, R231, R252, R257) -/

/-- `CC.EN` from 0 to 1 (R70, R230, R231). -/
def ccEnable (fid v : Nat) (s : State) : State :=
  let g := grantsOf s fid
  let f := fnD s fid
  if bits v 4 3 ≠ 0 || bits v 16 4 ≠ 6 || bits v 20 4 ≠ 4 then s.modCtrl fid ({ · with cc := v, cfs := true })
  else if g.nvmeQp = 0 || g.cmds = 0 || (isVf fid && !f.bound) then s.modCtrl fid ({ · with cc := v })
  else s.modCtrl fid (fun c => { c with
    cc := v
    rdy := true
    sqs := [(0, { base := c.asq, size := bits c.aqa 0 12 + 1, cq := 0 })]
    cqs := [(0, { base := c.acq, size := bits c.aqa 16 12 + 1, iv := 0 })] })

/-- A shutdown notification: fetch stops, and what is fetched posts (R257). -/
def ccShutdown (fid v : Nat) (s : State) : State :=
  if bits v 14 2 = 0 || (ctrlOf s fid).shst ≠ 0 then s
  else shutdownCheck fid (s.modCtrl fid (fun c => { c with cc := setBits c.cc 14 2 (bits v 14 2), shst := 1 }))

/-- A write of `CC`; its reserved bits stay 0 (R5). -/
def ccWrite (fid value : Nat) (s : State) : State :=
  let v := value &&& 0x00FFFFF1
  let on := bit (ctrlOf s fid).cc 0
  let s := if bit v 0 && !on then ccEnable fid v s
    else if !bit v 0 && on then (ctrlOff fid s).modCtrl fid ({ · with cc := v })
    else s.modCtrl fid ({ · with cc := v })
  ccShutdown fid v s

/-- A doorbell write that names no queue, or a value beyond it: ignored, with an Error event (R231). -/
def badDoorbell (fid info : Nat) (s : State) : State := asyncEvent fid 0 info 1 (logError fid 0xFFFF 0xFFFF 0 0 0 s)

/-- A doorbell has effect: the controller is ready, and neither fenced nor frozen for migration (R231, R384). -/
def bellOn (s : State) (fid : Nat) : Bool := (ctrlOf s fid).rdy && !(ctrlOf s fid).fenced && !(fnD s fid).frozen

def sqDoorbell (fid q v : Nat) (s : State) : State :=
  let c := ctrlOf s fid
  if !bellOn s fid then s
  else match mget? c.sqs q with
    | none => badDoorbell fid 0 s
    | some x => if x.deleting then badDoorbell fid 0 s
      else if x.size ≤ v then badDoorbell fid 1 s else s.modSq fid q ({ · with tail := v })

def cqDoorbell (fid q v : Nat) (s : State) : State :=
  let c := ctrlOf s fid
  if !bellOn s fid then s
  else match mget? c.cqs q with
    | none => badDoorbell fid 0 s
    | some x => if x.size ≤ v then badDoorbell fid 1 s else s.modCq fid q ({ · with head := v })

/-- A write to an NVMe register (R72, R230). The admin queue registers take writes while `CC.EN` is 0. -/
def nvmeRegWrite (fid off size v : Nat) (s : State) : State :=
  let w := v % 2 ^ (8 * size)
  let off0 := !bit (ctrlOf s fid).cc 0
  let set (f : Ctrl → Ctrl) : State := if off0 then s.modCtrl fid f else s
  if !(size = 4 && off % 4 = 0) && !(size = 8 && (off = 0x28 || off = 0x30)) then s
  else if off = 0x14 then ccWrite fid w s
  else if off = 0x24 then set ({ · with aqa := w &&& 0x0FFF0FFF })
  else if off = 0x28 then set (fun c => { c with asq := if size = 8 then w / 4096 * 4096 else setBits c.asq 0 32 (w / 4096 * 4096) })
  else if off = 0x2C then set (fun c => { c with asq := setBits c.asq 32 32 w })
  else if off = 0x30 then set (fun c => { c with acq := if size = 8 then w / 4096 * 4096 else setBits c.acq 0 32 (w / 4096 * 4096) })
  else if off = 0x34 then set (fun c => { c with acq := setBits c.acq 32 32 w })
  else if 0x1000 ≤ off && off < 0x1000 + 8 * 129 then
    let d := (off - 0x1000) / 4
    if d % 2 = 0 then sqDoorbell fid (d / 2) (w % 65536) s else cqDoorbell fid (d / 2) (w % 65536) s
  else s

/-- `CAP` (R230). -/
def nvmeCap : Nat :=
  pack [(16, 0xFFFF), (1, 1), (2, 0), (5, 0), (8, 4), (4, 0), (1, 0), (8, 1), (3, 0), (4, 0), (4, 4), (8, 0)]

/-- A read of an NVMe register (R230, R257). -/
def nvmeRegRead (s : State) (fid off : Nat) : Nat :=
  let c := ctrlOf s fid
  match off with
  | 0x00 => nvmeCap % 2 ^ 32
  | 0x04 => nvmeCap / 2 ^ 32
  | 0x08 => 0x00020100
  | 0x14 => c.cc
  | 0x1C => pack [(1, b2n c.rdy), (1, b2n c.cfs), (2, c.shst)]
  | 0x24 => c.aqa
  | 0x28 => c.asq % 2 ^ 32
  | 0x2C => c.asq / 2 ^ 32
  | 0x30 => c.acq % 2 ^ 32
  | 0x34 => c.acq / 2 ^ 32
  | _ => 0

/-! ### Boot (R262, R264, R268, R272) -/

/-- A volume at boot: RECONCILING where a valid record is open at its generation, else as its replicas and key say. -/
def volBoot (h : Nat) (s : State) : State :=
  match vol? s h with
  | none => s
  | some v =>
    let v := { v with chunks := [], cursor := 0, copied := 0, reps := v.reps.map (fun r => if r.state = 2 then { r with state := 1 } else r) }
    let s := s.putVol h v
    let s := s.modSto (fun t => { t with intents := t.intents.filter (fun e => !e.2.good || e.2.vol ≠ h || e.2.gen = v.gen) })
    let s := volOpen h s
    if v.primary.isSome && !(openRecs s h v).isEmpty || v.zeroing.isEmpty then s else volZero h s

/-- The volume service scans the intent log: a record whose CRC is bad is counted and ignored, and stale records are cleared. Backends connect
again. -/
def bootStorage (s : State) : State :=
  let s := s.bump .intentBad 0 0 (s.sto.intents.filter (!·.2.good)).length
  let s := s.modSto (fun t => { t with
    backs := mmap t.backs (fun _ b => if b.state = 3 then b else { b with state := 0, conns := [] })
    intents := t.intents.filter (fun e => !e.2.good || (mget? t.vols e.2.vol).isSome) })
  let s := (s.sto.vols.map (·.1)).foldl (fun s h => volBoot h s) s
  (s.sto.backs.filter (·.2.state = 0)).foldl (fun s e => backConnect e.1 e.2.nqn s) s

/-- A volume is being reconciled or rebuilt. -/
def reconciling (s : State) : Bool := s.sto.vols.any (fun e => e.2.state = 1 || !(e.2.repsIn 2).isEmpty)

end Sys2Proof.Machine
end

