-- ==== Sys2Proof/Machine/PartMem.lean ====
section
/-! DEFINITION. Partition regions as memory, and the layout of the requests that threads put to the cipher engine (R296, R314, R324). -/

namespace Sys2Proof.Machine

/-! ### Partition regions (R313, R314) -/

/-- Where a partition address lies among the device's regions. -/
def partKey (p a : Nat) : Nat := 3 * 2 ^ 48 + p * 2 ^ 37 + (a - 2 ^ 32)

/-- `n` bytes from `a` lie in the partition's region. -/
def Part.inRegion (q : Part) (a n : Nat) : Bool := 2 ^ 32 ≤ a && a + n ≤ 2 ^ 32 + q.regionMib * 2 ^ 20

/-- Partition memory read and written. -/
def partRd (s : State) (p a n : Nat) : List Byte := rdN s.region (partKey p a) n
def partWr (p a : Nat) (bs : List Byte) (s : State) : State := { s with region := wrN s.region (partKey p a) bs }
/-- A partition's whole region zeroed. -/
def partZero (p : Nat) (s : State) : State := { s with region := zeroN s.region (3 * 2 ^ 48 + p * 2 ^ 37) (2 ^ 37) }

/-! ### Request layout (R296) -/

def cqOp (b : Nat) : Nat := bits b 0 8
def cqTagLen (b : Nat) : Nat := bits b 8 8
def cqAadLen (b : Nat) : Nat := bits b 16 16
def cqSlot (b : Nat) : Nat := bits b 32 18
def cqSrc (b : Nat) : Nat := bits b 64 64
def cqDst (b : Nat) : Nat := bits b 128 64
def cqLen (b : Nat) : Nat := bits b 192 32
def cqCookie (b : Nat) : Nat := bits b 224 32
def cqTagAddr (b : Nat) : Nat := bits b 384 64
def cqChannel (b : Nat) : Nat := bits b 448 12

/-- The IV, tweak or nonce of a request. -/
def cqIv (b : Nat) : List Byte :=
  match cqOp b with
  | 1 | 2 => leBytes 12 (bits b 256 96)
  | 3 | 4 => leBytes 16 (bits b 256 128)
  | 10 | 11 => leBytes 12 (bits b 256 96)
  | _ => []

/-- Bytes that a request writes at DST. -/
def cqOut (b : Nat) : Nat :=
  let n := cqLen b
  match cqOp b with
  | 5 => 0
  | 6 => n + 8
  | 7 | 9 => n - 8
  | 8 => (n + 7) / 8 * 8 + 8
  | 12 | 13 | 14 => 16
  | _ => n

/-- Bytes that a request writes at TAG_ADDR, and bytes that it reads there. -/
def cqTagOut (b : Nat) : Nat := if [1, 5, 10].contains (cqOp b) then cqTagLen b else 0
def cqTagIn (b : Nat) : Nat := if [2, 11].contains (cqOp b) then cqTagLen b else 0

/-- The lengths that an operation takes. -/
def cqLenOk (b : Nat) : Bool :=
  let n := cqLen b
  let t := cqTagLen b
  n ≤ 16777216 &&
    match cqOp b with
    | 1 | 2 | 5 => t = 8 || t = 12 || t = 16
    | 10 | 11 => t = 16
    | 3 | 4 => 16 ≤ n
    | 6 => 16 ≤ n && n % 8 = 0
    | 7 => 24 ≤ n && n % 8 = 0
    | 8 => 1 ≤ n
    | 9 => 16 ≤ n && n % 8 = 0
    | 12 => true
    | 13 | 14 => n = 16
    | _ => false

/-- The request is one the engine takes from a thread of this partition: a known OP, its lengths, every address in the region (R296). -/
def cqOk (q : Part) (b : Nat) : Bool :=
  let tag := cqTagOut b + cqTagIn b
  cqLenOk b && q.inRegion (cqSrc b) (cqAadLen b + cqLen b) && (cqOut b = 0 || q.inRegion (cqDst b) (cqOut b))
    && (tag = 0 || q.inRegion (cqTagAddr b) tag)

/-- The request runs on an iterated unit (R292). -/
def cqIterated (b : Nat) : Bool := 4 < cqOp b

end Sys2Proof.Machine
end

