-- ==== Sys2Proof/Machine/SkinkOps.lean ====
section
/-! DEFINITION. Partitions started and stopped, and the vendor partitions' part in boot, containment and attestation (R313, R328, R342). -/

namespace Sys2Proof.Machine

/-- The thread IDs of a partition, rising. -/
def Part.threads (p : Part) : List Nat := p.cores.flatMap (fun c => (List.range 8).map (· + 8 * c))

/-- FROZEN of a check-value context (R289). -/
def ctxFreeze (i : Nat) (on : Bool) (s : State) : State :=
  s.modCip (fun c => { c with ckv := mupd c.ckv i 0 (fun x => setBits x 4 1 (b2n on)) })

/-- `MIG_FREEZE` of a function has completed (R384). -/
def freezeDone (s : State) (fid : Nat) : Bool := (fnD s fid).frozen && !(started s).contains (.freeze fid)

/-- A held context is released; one whose function is frozen for migration stays frozen. -/
def ctxRelease (i : Nat) (s : State) : State :=
  if freezeDone s (bits (mgetD s.cip.ckv i 0) 32 16) then s else ctxFreeze i false s

/-- A function's frozen contexts are released (R289, R389); one that a thread holds stays frozen. -/
def ctxThaw (fid : Nat) (s : State) : State :=
  let mine := s.cip.ckv.filter (fun e => bits e.2 32 16 = fid && !s.skk.threads.any (fun t => t.2.held.contains e.1))
  mine.foldl (fun s e => ctxFreeze e.1 false s) s

/-- A packet handle is released and its cells are freed (R325). -/
def handleFree (h : Nat) (s : State) : State :=
  match mget? s.skk.handles h with
  | some x => freeCells x.owner x.cells { s with skk := { s.skk with handles := mdel s.skk.handles h } }
  | none => s

/-! ### Stop (R342) -/

/-- Commits of other partitions' threads that wait on a stopped partition's channels return status 2, their staging kept. -/
def commitsFail (q : Part) (s : State) : State :=
  (s.skk.chans.filter (fun e => q.owns e.1)).foldl (fun s e => e.2.commits.foldl (fun s tid =>
    match (threadOf s tid).wait with
    | some (.commit _ _ rd) => endWait tid rd 2 s
    | _ => s) s) s

/-- A partition stops. -/
def partStop (p : Nat) (s : State) : State :=
  match part? s p with
  | none => s
  | some q =>
    let ts := q.threads
    let s := commitsFail q s
    let s := (ts.flatMap (fun t => (threadOf s t).held)).foldl (fun s i => ctxRelease i s) s
    let s := ts.foldl (fun s t => s.modThread t (fun x => { cause := x.cause })) s
    let chan (ch : Nat) (c : Channel) : Channel :=
      if q.owns ch then { c with msgs := [], armed := false, commits := [], reserved := 0 }
      else { c with commits := c.commits.filter (fun t => !ts.contains t) }
    let s := { s with skk := { s.skk with chans := mmap s.skk.chans chan } }
    let s := (s.skk.handles.filter (fun e => e.2.part = p)).foldl (fun s e => handleFree e.1 s) s
    let mine (d : CipherFor) : Bool := match d with
      | .thread t _ => ts.contains t
      | _ => false
    let s := s.modCip (fun c => { c with reqs := c.reqs.map (fun r => if mine r.dst then { r with dst := .thread 1024 0 } else r) })
    s.modPart p (fun q => { q with running := false, overflow := [], sentinel := false })

/-- Every partition is stopped (R408). -/
def stopAllPartitions (s : State) : State := (s.skk.parts.map (·.1)).foldl (fun s p => partStop p s) s

/-! ### Start (R316, R328) -/

/-- Two slots for each thread of a core, thread `s mod 8` in slot `s`. -/
def slotsReset : Nat := pack ((List.range 16).map (fun i => (4, 8 + i % 8)))

/-- A loaded partition starts at its image's ENTRY. -/
def partStart (p : Nat) (s : State) : State :=
  match part? s p with
  | none => s
  | some q =>
    let size := q.regionMib * 2 ^ 20
    let mode := if q.vendor then 3 else 1
    let first : Thread := { state := 2, mode, pc := (q.image.getD {}).entry, regs := [(2, 2 ^ 32 + size), (10, p), (11, size)] }
    let rest : Thread := { state := if q.cluster then 1 else 0, mode }
    let s := q.threads.foldl (fun s t => s.modThread t (fun _ => if t = supervisorOf q then first else rest)) s
    let s := { s with skk := { s.skk with slots := q.cores.foldl (fun m c => mdel m c) s.skk.slots } }
    s.modPart p (fun q => { q with running := true })

/-! ### Containment (R424) -/

/-- Every partition with a core in the cluster is stopped, with an event; no fault record gives its ARG. -/
def clusterContain (c : Nat) (s : State) : State :=
  (s.skk.parts.filter (fun e => e.2.running && e.2.cores.any (fun k => coreCluster k = c))).foldl (fun s e =>
    let (w, s) := s.drawBelow (2 ^ 64)
    (partStop e.1 s).event 0x0B01 (.dev e.1) w) s

/-- Stopped vendor partitions that pass are started by the Eft. -/
def startVendor (f : Part → Bool) (s : State) : State :=
  (s.skk.parts.filter (fun e => e.2.vendor && !e.2.running && e.2.image.isSome && f e.2)).foldl (fun s e => partStart e.1 s) s

/-- The Eft starts a cluster's vendor partitions again. -/
def restartVendor (c : Nat) (s : State) : State := startVendor (fun q => q.cores.any (fun k => coreCluster k = c)) s

/-- A core's threads move to a spare with everything they hold, under the same thread IDs (R339): nothing that the state names changes. -/
def coreRegrown (_old _new : Nat) (s : State) : State := s

/-! ### Boot, wake and attestation (R313, R328, R410, R413) -/

/-- A vendor partition of the default placement: a whole cluster (log entry 20). -/
def vendorPart (c : Nat) : Part :=
  { vendor := true, cores := (List.range 8).map (· + 8 * c), channels := 4096, handles := 4096, action := 1 }

/-- The fast path of a wake starts the vendor partitions; customer partitions stay stopped. -/
def wakeSkink (s : State) : State := startVendor (fun _ => true) s

/-- The measurements of the loaded images. -/
def skinkMeasures (s : State) : List (Nat × Nat × Nat × Nat × Nat) :=
  s.skk.parts.filterMap (fun e => e.2.image.map (fun i => (5, e.1, 0xFF, i.version, i.digest)))

/-! ### Notices to vendor partitions (R58, R322, R456) -/

/-- A control notice, kind 7, whose words are vendor firmware's: the management partition for `part` 0. -/
def controlMsg (part : Nat) (words : List Nat) (s : State) : State :=
  (hwDeliver s (if part = 0 then mgmtChan s else controlChan s part) { words := words.take 8, kind := 7 }).1

/-- The channel that MGMT0 frames go to: the management service's, or, in a partition that the store names, its control channel or the
channel after its fault channel (R58; log entry 89). -/
def mgmt0Chan (s : State) : Nat :=
  match part? s s.nv.mgmt0Part with
  | some q => if q.vendor then controlChan s s.nv.mgmt0Part else faultChan q + 1
  | none => mgmtChan s

/-- The device time of an IEEE 1588 event message that passes a MAC (R54). -/
def ptpStamp (frame : List Byte) (s : State) : Option Nat :=
  if isPtpEvent (parseFrame parseReset true frame) frame then some s.time else none

/-- A frame received on MGMT0 goes to its partition: the bytes stand at a free place of the partition's memory, and the message gives the
address, the length, the timestamp and the infrastructure tenant (R54, R58; log entry 89). -/
def mgmt0Deliver (frame : List Byte) (s : State) : State :=
  let ch := mgmt0Chan s
  let p := partOfChan s ch
  let span := ((part? s p).map (fun q => if q.regionMib = 0 then 2 ^ 37 else q.regionMib * 2 ^ 20)).getD 0
  let (a, s) := s.drawBelow (span + 1 - frame.length)
  let a := 2 ^ 32 + a
  match hwDeliver s ch { words := [a, frame.length, (ptpStamp frame s).getD 0, 0], kind := 7 } with
  | (s, true) => partWr p a frame s
  | (s, false) => s

/-- A frame of that partition leaves by MGMT0; the time of an event message is given back to it (R54, R58). -/
def mgmt0Send (frame : List Byte) (s : State) : State :=
  let s := if pinsIn s then s.emit (.mgmt0Tx frame) else s
  match ptpStamp frame s with
  | some t => (hwDeliver s (mgmt0Chan s) { words := [t, 0xFFFF], kind := 7 }).1
  | none => s

/-- The channel on which that partition sends: the one after (R58; log entry 89). -/
def mgmt0TxChan (s : State) : Nat := mgmt0Chan s + 1

/-- A message committed there names a frame in the partition's memory, address and length, and the frame leaves by MGMT0; one that names no frame of the
partition's sends nothing (R58; log entry 89). -/
def mgmt0Commit (p : Nat) (m : Msg) (s : State) : State :=
  let a := m.words.getD 0 0
  let n := m.words.getD 1 0
  let size := ((part? s p).map (fun q => if q.regionMib = 0 then 2 ^ 37 else q.regionMib * 2 ^ 20)).getD 0
  if 14 ≤ n && n ≤ 9600 && 2 ^ 32 ≤ a && a + n ≤ 2 ^ 32 + size then mgmt0Send (partRd s p a n) s else s

/-- The management service is the partition that MGMT0 frames come from (R58). -/
def mgmt0OfService (s : State) : Bool := partOfChan s (mgmt0Chan s) = partOfChan s (mgmtChan s)

/-- MiB of customer partitions' regions (R366). -/
def partRegionMib (s : State) : Nat := (s.skk.parts.filter (fun e => !e.2.vendor)).foldl (fun a e => a + e.2.regionMib) 0

end Sys2Proof.Machine
end

