-- ==== Sys2Proof/Machine/FaultOps.lean ====
section
/-! DEFINITION. The recovery machines of the fault domains, the safe state, the Eft's faults, and Regrowth (R421 to R438). -/

namespace Sys2Proof.Machine

/-! ### Units and domains (R426, R427, R434) -/

/-- DKIND of a unit's records: memory banks have their own (R427). -/
def dkindOfKind (kind : Nat) : Nat := [0, 1, 2, 3, 9, 9, 5].getD kind 9

/-- The domain of a unit that is a domain by itself. -/
def domOfUnit (kind phys : Nat) : Option Dom :=
  match kind with
  | 0 => some (.pipeline phys)
  | 2 => some (.aes phys)
  | 3 => some (.iru phys)
  | 6 => some (.hbmPc phys)
  | _ => none

/-- The KIND of Regrowth that a domain's spare is of (R426). -/
def kindOfDom : Dom → Option (Nat × Nat)
  | .pipeline p => some (0, p)
  | .aes u => some (2, u)
  | .iru u => some (3, u)
  | .hbmPc n => some (6, n)
  | _ => none

/-- Starts a Regrowth of a physical unit onto a spare: the domain of the unit enters REGROWING when it is FENCED, and a record of
ACTION 4 is written (R423, R436). -/
def regrowBegin (kind phys spare source : Nat) (s : State) : State :=
  let s := { s with wear := { s.wear with active := mput s.wear.active kind (phys * 65536 + spare) } }
  let st : DomState := match domOfUnit kind phys with
    | some d => (domOf s d).state
    | none => .running
  let s := match domOfUnit kind phys with
    | some d => if st = DomState.fenced then s.setDom d { domOf s d with state := .regrowing } else s
    | none => s
  (s.record (dkindOfKind kind) phys source 4 6 phys).updFaultN

/-- Begins a Regrowth on its own when AUTO_REGROW is set, a spare is free and none of the kind runs (R426, R435). -/
def autoRegrow (kind phys source : Nat) (s : State) : State :=
  if s.nv.autoRegrow && (mget? s.wear.active kind).isNone then
    match spareFor s kind phys with
    | some sp => regrowBegin kind phys sp source s
    | none => s
  else s

/-! ### Containment (R424) -/

/-- Fences every ring, queue and mailbox of a function; `cause` is the error bit of R100 and R345, if any. Their outstanding reads
are discarded (R116). Where Bus Master Enable is the cause, the moderation timers run on, since what they announce is then held (R93). -/
def fenceFn (cause : Option Nat) (fid : Nat) (s : State) : State :=
  let mark (e : Nat) : Nat := match cause with
    | some b => e ||| 2 ^ b
    | none => e
  let s := s.modFn fid (fun f => { f with rings := mmap f.rings (fun _ r =>
    if r.state = 1 || r.state = 2 then { r with state := 3, err := mark r.err, timerAt := if cause = some 3 then r.timerAt else none }
    else r) })
  let s := if hasMbx s fid && ((mbxOf s (.fn fid)).state = 1 || (mbxOf s (.fn fid)).state = 2) then
      s.modMbx (.fn fid) (fun m => { m with state := 3, err := mark m.err })
    else s
  nvmeFence fid (s.killFenced fid)

/-- Fences a mailbox for a cause (R117, R345). -/
def fenceMbx (fid cause : Nat) (s : State) : State :=
  let b := mbxOf s (.fn fid)
  if b.state = 1 || b.state = 2 then
    (s.modMbx (.fn fid) (fun b => { b with state := 3, err := b.err ||| 2 ^ cause })).killFenced fid
  else s

/-- The FIDs of a port's functions that the device presents. -/
def portFids (s : State) (n : Nat) : List Nat :=
  if hostPortExists s n then
    (if s.phase = .recovery then [3] else [0, 1, 2]).map (mkFid n) ++ (s.fns.map (·.1)).filter (fun f => fidPort f = n && 4 ≤ fidFn f)
  else []

/-- A fence of the host port or of the device: every function's rings, queues and mailbox, with the error in its AER (R101, R102, R424). -/
def fencePort (s : State) (n : Nat) : State :=
  (portFids s n).foldl (fun s fid => (fenceFn none fid s).modFn fid (fun f => { f with aer := f.aer ++ [22] })) s

/-! ### The safe state (R432) -/

/-- Entry to the safe state, which fences the device (R101): the last 16 records go to the store (R429), `FAULT_N` is asserted, and the
chain is told (R456). -/
def safeState (dkind unit : Nat) (s : State) : State :=
  if s.phase = .safe then s
  else
    let s := (List.range 32).foldl fencePort s
    let s := { s with
      phase := Phase.safe
      nv := { s.nv with priorFaults := s.flt.log.drop (s.flt.log.length - 16) } }
    (s.chainSend 7 0 true 0 (dkind * 2 ^ 24 + unit * 256 + 6)).updFaultN

/-- What a domain does on entering CONTAIN, up to the end of FENCE (R424). -/
def containDom (d : Dom) (s : State) : State :=
  match d with
  | .pipeline p => resumeHosts (unitOf s 0 p).logical s (pipelineContain (unitOf s 0 p).logical s)
  | .cluster c => clusterContain c s
  | .aes u => aesContain false u s
  | .iru u => aesContain true u s
  | .keyStore => keyStoreContain s
  | .hbmPc _ => s
  | .hostPort n =>
    (portFids s n).foldl (fun s fid => nvmeFatal fid s) (fencePort s n)
  | .storage => storageContain s
  | .eft | .device _ => s

/-- Enters FENCED: the outputs stay blocked, a pipeline's held queues drop at their heads, the chain and the subscribers are told,
and a free spare takes the domain's place when AUTO_REGROW is set (R424 to R426, R456). -/
def finalFence (d : Dom) (source action detail : Nat) (s : State) : State :=
  let (k, u) := domCode d
  let seq := s.flt.nextSeq
  let s := s.setDom d { domOf s d with state := .fenced, fencedBy := seq }
  let s := s.record k u source action 5 detail
  let s := s.event 0x0E02 (.dev (k + 256 * u)) seq
  let s := s.chainSend 7 0 true 0 (k * 2 ^ 24 + u * 256 + action)
  let s := match d with
    | .pipeline p => pipelineFencedDrop (unitOf s 0 p).logical s
    | _ => s
  let s := match kindOfDom d with
    | some (kind, phys) => autoRegrow kind phys source s
    | none => s
  s.updFaultN

/-! ### The end of a Regrowth, and faults that strike one (R437, R438) -/

/-- Percentage of Regrowth spares not yet in use, of 32 (R236). -/
def sparePct (s : State) : Nat := sparesFree s * 100 / 32

/-- Available Spare has fallen below its threshold of 10%: a SMART event of every controller (R235, R236). -/
def spareWarn (before : State) (s : State) : State :=
  if 10 ≤ sparePct before && sparePct s < 10 then (s.sto.ctrls.map (·.1)).foldl (fun s f => asyncEvent f 1 2 2 s) s else s

/-- Ends a Regrowth. When it succeeds, the spare takes the logical number, the old unit is retired, the map goes to the store, and
the record and event follow. When the spare has faulted, it is retired as failed, the original keeps its state, and another free spare may
take its place on its own, as after the first cause (R426, R435, R437, R438). -/
def regrowEnd (kind : Nat) (ok : Bool) (s : State) : State :=
  match mget? s.wear.active kind with
  | none => s
  | some v =>
    let old := v / 65536
    let new := v % 65536
    let l := (unitOf s kind old).logical
    let s := { s with wear := { s.wear with active := mdel s.wear.active kind } }
    if ok then
      let s := spareWarn s (s.modUnit kind new (fun u => { u with state := 0, logical := l }))
      let s := s.modUnit kind old (fun u => { u with state := 3, logical := 0xFFFF })
      let s := { s with nv := { s.nv with wearUnits := s.wear.units } }
      let s := match domOfUnit kind old with
        | some d => s.setDom d {}
        | none => s
      let s := match kind with
        | 0 => pipelineRegrown l s
        | 1 => coreRegrown old new s
        | _ => s
      let s := s.record (dkindOfKind kind) old 0 5 0 new
      (s.event 0x0E03 (.dev (kind + 256 * l)) (new + 65536 * old)).updFaultN
    else
      let s := spareWarn s (s.modUnit kind new (fun u => { u with state := 4 }))
      let s := match domOfUnit kind old with
        | some d => if (domOf s d).state = DomState.regrowing then s.setDom d { domOf s d with state := DomState.fenced } else s
        | none => s
      let fenced : Bool := match domOfUnit kind old with
        | some d => (domOf s d).state = DomState.fenced
        | none => false
      let s := if fenced || (unitOf s kind old).state = 2 then autoRegrow kind old 0 s else s
      s.updFaultN

/-- What a domain is in the Regrowth of its kind that is in progress. -/
inductive RegrowPart
  | original
  | spare
  deriving DecidableEq, Repr

/-- The domain's part in a Regrowth in progress, if any (R438). -/
def regrowPart (s : State) (d : Dom) : Option RegrowPart :=
  match kindOfDom d with
  | none => none
  | some (kind, phys) =>
    match mget? s.wear.active kind with
    | none => none
    | some v => if v / 65536 = phys then some .original else if v % 65536 = phys then some .spare else none

/-- A fault of the unit that a Regrowth moves: its domain escalates, and is REGROWING, since the copy goes on from what is readable
(R425, R438). -/
def originalFault (d : Dom) (source detail : Nat) (s : State) : State :=
  let (k, u) := domCode d
  if (domOf s d).state = .regrowing then s.record k u source 3 6 detail
  else
    let s := finalFence d source 3 detail (containDom d s)
    (s.setDom d { domOf s d with state := .regrowing }).updFaultN

/-- A fault of the spare that a Regrowth moves a unit to: it is logged, and the Regrowth is abandoned (R438). -/
def spareFault (d : Dom) (source detail : Nat) (s : State) : State :=
  let (k, u) := domCode d
  let s := s.record k u source 0 (domOf s d).state.num detail
  match kindOfDom d with
  | some (kind, _) => regrowEnd kind false s
  | none => s

/-! ### Faults (R423, R425, R430) -/

/-- A lockstep mismatch or a stall of the Eft: the first restarts it, headless; a second within 10 s is the safe state
(R430, R431). -/
def eftFault (source stage : Nat) (s : State) : State :=
  let again : Bool := match s.eft.faultAt with
    | some t => decide (s.tick < t + 10000000)
    | none => false
  if again then
    safeState 8 0 (s.record 8 0 source 6 5 stage)
  else
    let s := s.record 8 0 source 1 1 stage
    { s with eft := { s.eft with headless := true, faultAt := some s.tick } }

/-- A detected fault of a domain (R423, R425). A RUNNING domain goes through CONTAIN and FENCE and waits in CLEAR for its
self-test; one in recovery escalates to FENCED; a device-level unit puts the device in its safe state (R422); and a unit of a Regrowth in
progress goes the way of R438. -/
def domFault (d : Dom) (source detail : Nat) (s : State) : State :=
  let (k, u) := domCode d
  match d with
  | .device _ => safeState k u (s.record k u source 6 5 detail)
  | .eft => eftFault source detail s
  | _ =>
    match regrowPart s d with
    | some .original => originalFault d source detail s
    | some .spare => spareFault d source detail s
    | none =>
    match (domOf s d).state with
    | .running => (containDom d (s.record k u source 1 1 detail)).setDom d { state := .clear }
    | .fenced => s.record k u source 0 5 detail
    | .regrowing => s.record k u source 3 6 detail
    | _ => finalFence d source 3 detail (containDom d s)

/-- A stall or codeword event: in the key store, three within 10 ms are a stall storm and so a cipher alarm (R29). -/
def domEvent (d : Dom) (source detail : Nat) (s : State) : State :=
  let s := domFault d source detail s
  if d = .keyStore then
    let recent := (s.flt.keyStalls.filter (fun t => s.tick < t + 10000)) ++ [s.tick]
    let s := { s with flt := { s.flt with keyStalls := recent } }
    if 3 ≤ recent.length then cipherAlarm 2 s else s
  else s

/-- CLEAR run by command or by a port reset: the machine waits for its self-test again (R426). -/
def domClear (d : Dom) (s : State) : State :=
  if (domOf s d).state = .fenced then (s.setDom d { domOf s d with state := .clear }).updFaultN else s

/-! ### A pipeline in Regrowth (R45) -/

/-- A logical pipeline takes packets in: its physical pipeline serves and no Regrowth holds it (R45, R424). -/
def ingressOn (s : State) (k : Nat) : Bool :=
  let p := physOf s 0 k
  domServes s (.pipeline p) &&
    match mget? s.wear.active 0 with
    | some v => v / 65536 ≠ p
    | none => true

end Sys2Proof.Machine
end

