-- ==== Sys2Proof/Machine/XcsOps.lean ====
section
/-! DEFINITION. The mailbox engine: headers, permissions, payload layout, responses, and the one frame in which every command of the
Xanco Command Set runs (R344 to R361). -/

namespace Sys2Proof.Machine

/-! ### Status values (R354) -/

def stOk : Nat := 0
def stBusy : Nat := 1
def stDenied : Nat := 2
def stBadOpcode : Nat := 3
def stBadParam : Nat := 4
def stNoResource : Nat := 5
def stNotFound : Nat := 6
def stExists : Nat := 7
def stState : Nat := 8
def stSigFail : Nat := 9
def stRevoked : Nat := 10
def stKeysErased : Nat := 11
def stTimeout : Nat := 12
def stAborted : Nat := 13
def stPartial : Nat := 14
def stHeadless : Nat := 15
def stFenced : Nat := 16

/-! ### Payloads (R360) -/

/-- A field of a payload. -/
inductive Fld
  /-- A number of `size` bytes, at the next offset that is a multiple of its size. -/
  | num (size value : Nat)
  /-- A byte array, at the next multiple of 8. -/
  | arr (bytes : List Byte)
  deriving DecidableEq, Repr

def u8 (v : Nat) : Fld := .num 1 v
def u16 (v : Nat) : Fld := .num 2 v
def u32 (v : Nat) : Fld := .num 4 v
def u64 (v : Nat) : Fld := .num 8 v

/-- The bytes with a field appended at its alignment. -/
def putFld (bs : List Byte) : Fld → List Byte
  | .num n v => bs ++ List.replicate ((n - bs.length % n) % n) 0 ++ leBytes n v
  | .arr a => bs ++ List.replicate ((8 - bs.length % 8) % 8) 0 ++ a

/-- A payload laid out. -/
def layout (fs : List Fld) : List Byte := fs.foldl putFld []

/-! ### Request slots (R348) -/

/-- Bits of a request slot. -/
def Req.fld (r : Req) (lo w : Nat) : Nat := bits r.slot.toNat lo w
def Req.opcode (r : Req) : Nat := r.fld 0 16
def Req.tag (r : Req) : Nat := r.fld 16 16
def Req.flags (r : Req) : Nat := r.fld 32 16
def Req.plen (r : Req) : Nat := r.fld 64 32
def Req.rlen (r : Req) : Nat := r.fld 96 32
def Req.pptr (r : Req) : Nat := r.fld 128 64
def Req.rptr (r : Req) : Nat := r.fld 192 64

/-! ### Roles and the catalogue (R344, R352, R361) -/

/-- The role a mailbox stands for, as a bit: 1 Owner, 2 port manager, 4 tenant, 8 Board, 16 the recovery subset (R406, R407). -/
def roleOf (s : State) (m : MbxId) : Nat :=
  if s.phase = .recovery then 16
  else match m with
    | .board => 8
    | .fn fid => if fidFn fid = 0 then (if fidPort fid = s.eft.ownerPort then 1 else 2) else 4

/-- A row of the catalogue: opcode, role bits, flags it takes besides SGL and RSP_SGL (R353). -/
def catalogue : List (Nat × Nat × Nat) :=
  [(0x0101, 31, 0), (0x0102, 31, 0), (0x0103, 15, 0), (0x0104, 1, 0), (0x0105, 25, 0),
   (0x0201, 1, 0), (0x0202, 11, 0), (0x0203, 11, 0), (0x0204, 1, 0), (0x0205, 1, 0),
   (0x0301, 1, 0), (0x0302, 3, 0), (0x0303, 3, 0), (0x0304, 3, 0), (0x0305, 7, 0), (0x0306, 3, 0), (0x0308, 3, 0),
   (0x0309, 3, 0),
   (0x0401, 3, 0), (0x0402, 3, 0), (0x0403, 11, 0), (0x0404, 3, 0), (0x0405, 3, 0), (0x0406, 1, 0x400), (0x0407, 1, 0),
   (0x0408, 1, 0), (0x0409, 1, 0), (0x040A, 1, 0),
   (0x0501, 1, 0), (0x0502, 1, 0), (0x0503, 1, 0x100), (0x0504, 1, 0x100), (0x0505, 1, 0)]
  ++ [(0x0601, 1, 0), (0x0602, 1, 0), (0x0603, 9, 0), (0x0604, 1, 0),
   (0x0701, 1, 0), (0x0702, 1, 0x200), (0x0703, 9, 0), (0x0704, 1, 0),
   (0x0801, 1, 0), (0x0802, 1, 0), (0x0803, 3, 0), (0x0804, 3, 0), (0x0805, 3, 0), (0x0806, 3, 0), (0x0807, 11, 0),
   (0x0901, 1, 0), (0x0902, 1, 0), (0x0903, 1, 0), (0x0904, 1, 0), (0x0905, 1, 0), (0x0906, 9, 0x800), (0x0907, 9, 0),
   (0x0A01, 3, 0), (0x0A02, 3, 0x200), (0x0A03, 3, 0), (0x0A04, 3, 0x800), (0x0A05, 9, 0), (0x0A06, 1, 0),
   (0x0A07, 1, 0x400)]
  ++ [(0x0B01, 1, 0), (0x0B02, 1, 0), (0x0B03, 1, 0), (0x0B04, 1, 0), (0x0B05, 1, 0), (0x0B06, 1, 0),
   (0x0C01, 15, 0), (0x0C02, 1, 0), (0x0C03, 1, 0), (0x0C04, 15, 0),
   (0x0D01, 17, 0x1000), (0x0D02, 17, 0), (0x0D03, 25, 0), (0x0D04, 1, 0x200), (0x0D05, 31, 0), (0x0D06, 9, 0),
   (0x0E01, 25, 0), (0x0E02, 1, 0), (0x0E03, 9, 0), (0x0E04, 1, 0), (0x0E05, 9, 0),
   (0x0F01, 1, 0), (0x0F02, 9, 0), (0x0F03, 1, 0),
   (0x1001, 3, 0), (0x1002, 3, 0), (0x1003, 3, 0), (0x1004, 3, 0), (0x1005, 3, 0), (0x1006, 3, 0), (0x1007, 1, 0),
   (0x1101, 9, 0), (0x1102, 1, 0), (0x1201, 3, 0), (0x1202, 3, 0)]

/-- The catalogue's row of an opcode. -/
def opRow (op : Nat) : Option (Nat × Nat) := (catalogue.find? (·.1 = op)).map (·.2)

/-! ### Responses (R350) -/

/-- What a command answers. -/
inductive Reply
  /-- Completed: status, DETAIL, payload; `unit` is the record size of a payload filled to RLEN after a header of `hdr` bytes. -/
  | done (status detail : Nat) (payload : List Fld) (hdr unit : Nat)
  /-- Completed with FULL giving a size and no payload written. -/
  | sized (status full : Nat)
  /-- Started, and held until something outside the command ends it. -/
  | wait (w : Wait)
  /-- Not started: it stays the oldest of its mailbox until what its work needs is there. -/
  | hold
  deriving DecidableEq, Repr

/-- Completed with a payload. -/
def okWith (p : List Fld) : Reply := .done stOk 0 p 0 1
/-- Completed with no payload. -/
def ok : Reply := .done stOk 0 [] 0 1
/-- Completed with a status other than OK. -/
def fails (st : Nat) : Reply := .done st 0 [] 0 1
/-- Completed with a status and its DETAIL. -/
def failsWith (st detail : Nat) : Reply := .done st detail [] 0 1
/-- BAD_PARAM for the payload field at this offset. -/
def badParam (off : Nat) : Reply := .done stBadParam off [] 0 1
/-- A payload "to RLEN": never cut within a record. -/
def okRecords (p : List Fld) (hdr unit : Nat) : Reply := .done stOk 0 p hdr unit

/-- Bytes that a list names. -/
def listBytes (l : List (Nat × Nat)) : Nat := (l.map (·.2)).foldl (· + ·) 0

/-- Bytes that the response may place at RPTR (R349, R350, R365). -/
def roomOf (m : MbxId) (r : Req) (rspList : List (Nat × Nat)) : Nat :=
  if m = .board then min r.rlen 1024
  else if r.rptr = 0 then 0
  else if bit r.flags 1 then min r.rlen (listBytes rspList)
  else r.rlen

/-- Bytes of a payload of length `full` that are written, whole records only. -/
def cutTo (full room hdr unit : Nat) : Nat :=
  if full ≤ room then full
  else if unit ≤ 1 then room
  else if room < hdr then 0
  else hdr + (room - hdr) / unit * unit

/-- A response slot. -/
def rspSlot (r : Req) (status plen detail full : Nat) (inline : List Byte) : List Byte :=
  leBytes 6 r.slot.toNat ++ leBytes 2 status ++ leBytes 4 plen ++ leBytes 4 detail ++ leBytes 4 full
    ++ List.replicate 12 0 ++ inline ++ List.replicate (32 - inline.length) 0

/-- Scatters bytes over a response list. -/
def scatter (fid : Nat) : List (Nat × Nat) → List Byte → State → State
  | [], _, s => s
  | (a, n) :: l, bs, s => scatter fid l (bs.drop n) (s.hostWr fid a (bs.take n))

/-- Writes response number `done` of a mailbox: the payload at RPTR, then the slot, then the index word, then the MSI-X (O3, R346);
or gives it to the Board (R365). A FENCED mailbox writes nothing (R102, R117). -/
def putResponse (m : MbxId) (r : Req) (rspList : List (Nat × Nat)) (status detail full : Nat) (body : List Byte)
    (s : State) : State :=
  let slot := rspSlot r status body.length detail full (if full ≤ 32 then body else [])
  match m with
  | .board =>
    let item := BoardItem.response (slot ++ (if full ≤ 32 then [] else body))
    let s := { s with i3c := { s.i3c with ready := s.i3c.ready ++ [item] } }
    let s := s.modMbx .board (fun b => { b with done := add32 b.done 1 })
    if s.i3c.ibiEn && s.i3c.addr.isSome then s.emit (.i3cIbi 0xA1) else s
  | .fn fid =>
    let b := mbxOf s m
    if b.state ≠ 1 && b.state ≠ 2 then s
    else
    let s := if full ≤ 32 then s
      else if bit r.flags 1 then scatter fid rspList body s
      else s.hostWr fid r.rptr body
    let s := s.hostWr fid (b.rspBase + 64 * (b.done % 2 ^ b.log2)) slot
    let s := s.hostWr fid b.idxAddr (leBytes 8 (add32 b.done 1))
    let s := s.modMbx m (fun b => { b with done := add32 b.done 1 })
    if b.poll then s else s.sendMsix fid b.vector

/-- The response of a completed command, its payload truncated to what RPTR has room for (R350). -/
def respond (m : MbxId) (r : Req) (rspList : List (Nat × Nat)) (status detail : Nat) (payload : List Byte) (hdr unit : Nat)
    (s : State) : State :=
  let full := payload.length
  let n := if full ≤ 32 then full else cutTo full (roomOf m r rspList) hdr unit
  putResponse m r rspList status detail full (payload.take n) s

/-- Answers every request that has not started, in order (R347, R357). -/
def answerAll (m : MbxId) (status : Nat) (s : State) : State :=
  let q := (mbxOf s m).queue
  q.foldl (fun s r => respond m r [] status 0 [] 0 1 s) (s.modMbx m ({ · with queue := [] }))

/-- The end of a started command. A mailbox that is DRAINING then answers the rest ABORTED and becomes IDLE (R347). -/
def finishCur (m : MbxId) (status detail : Nat) (payload : List Fld) (s : State) : State :=
  match (mbxOf s m).cur with
  | none => s
  | some (r, _) =>
    let s := respond m r [] status detail (layout payload) 0 1 (s.modMbx m ({ · with cur := none }))
    if (mbxOf s m).state = 2 then (answerAll m stAborted s).modMbx m ({ · with state := 0, enable := false }) else s

/-- Every mailbox whose started command waits for `w`. -/
def waiters (s : State) (w : Wait → Bool) : List MbxId :=
  let is (b : Mailbox) : Bool := match b.cur with
    | some (_, x) => w x
    | none => false
  (s.mbxs.filter (fun e => is e.2)).map (fun e => MbxId.fn e.1)
    ++ (if is s.boardMbx then [MbxId.board] else [])

/-- Ends every started command that waits for `w`; one whose mailbox has been reset since answers nobody (R84, R87). -/
def finishWait (w : Wait → Bool) (status detail : Nat) (payload : List Fld) (s : State) : State :=
  let s := (waiters s w).foldl (fun s m => finishCur m status detail payload s) s
  { s with ghosts := s.ghosts.filter (fun g => !w g.2) }

/-- Ends every `VOL_DETACH` whose commands have posted (R275). -/
def detachPump (s : State) : State := (detachDone s).foldl (fun s e => finishWait (· = .volDetach e.1 e.2) stOk 0 [] s) s

/-! ### The frame of a command (R349 to R353) -/

/-- What a command's body knows of its call. -/
structure Call where
  /-- M R344: the mailbox. -/
  mbx : MbxId
  /-- M R344: role bit. -/
  role : Nat
  /-- M R344: FID of the mailbox's function (0 for the Board). -/
  fid : Nat
  /-- M R348: FLAGS. -/
  flags : Nat
  /-- M R348: PLEN. -/
  plen : Nat
  /-- M R350: bytes the response may place at RPTR. -/
  room : Nat
  deriving DecidableEq, Repr

/-- The Owner's role, in or out of recovery mode (R407). -/
def Call.owner (c : Call) : Bool := c.role = 1 || c.role = 16
/-- The host port a port manager's scope is (R344). -/
def Call.port (c : Call) : Nat := fidPort c.fid
/-- The object of this host port is in the caller's scope: any for the Owner and the Board, its own for a port manager (R344). -/
def Call.inPort (c : Call) (port : Nat) : Bool := c.role ≠ 2 || port = c.port

/-- Commands whose response carries no payload (R361). -/
def noPayload : List Nat :=
  [0x0105, 0x0201, 0x0205, 0x0301, 0x0304, 0x0306, 0x0309, 0x0401, 0x0402, 0x0407, 0x0408, 0x0409, 0x0501, 0x0502, 0x0503, 0x0504,
   0x0601, 0x0701, 0x0704, 0x0801, 0x0802, 0x0803, 0x0804, 0x0805, 0x0806, 0x0901, 0x0902, 0x0903, 0x0904, 0x0A02, 0x0A06]
  ++ [0x0B02, 0x0B03, 0x0B04, 0x0B05, 0x0B06, 0x0C02, 0x0C03, 0x0D02, 0x0D04, 0x0D06, 0x0E02, 0x0E04, 0x0F01, 0x0F03, 0x1001, 0x1002,
   0x1003, 0x1005, 0x1006, 0x1007, 0x1102, 0x1202]

/-- The fault of a request slot, if any: the status BAD_PARAM's DETAIL (R350). A payload of more than 32 bytes under SGL stands in a list,
which holds at least PLEN bytes; a side without a payload has no list read (R349, R353; log entry 73). -/
def headerFault (m : MbxId) (r : Req) (taken : Nat) (x : XCall) : Option Nat :=
  let badList (l : List (Nat × Nat)) : Bool := 4096 < l.length || l.any (·.2 = 0)
  if r.flags &&& (0xFFFF - (3 + taken)) ≠ 0 then some (2 ^ 31 + 4)
  else if r.fld 48 16 ≠ 0 then some (2 ^ 31 + 6)
  else if 16777216 < r.plen || (4096 < r.plen && !bit r.flags 0) then some (2 ^ 31 + 8)
  else if (r.plen ≤ 32 && r.pptr ≠ 0) || (m = .board && r.pptr ≠ 0) then some (2 ^ 31 + 0x10)
  else if 32 < r.plen && bit r.flags 0 && (badList x.reqList || listBytes x.reqList < r.plen) then some (2 ^ 31 + 0x10)
  else if (bit r.flags 1 && r.rptr ≠ 0 && r.rlen ≠ 0 && !noPayload.contains r.opcode && badList x.rspList) || (m = .board && r.rptr ≠ 0) then some (2 ^ 31 + 0x18)
  else none

/-- The mailbox may start its next request: it is in service, no command of it runs, the Eft is there, and its function is
neither frozen nor stopped (R351, R357, R359, R384). -/
def mbxReady (s : State) (m : MbxId) : Bool :=
  let b := mbxOf s m
  b.cur.isNone && !s.eft.headless && !s.eft.basking &&
    match m with
    | .board => s.phase = .running || s.phase = .recovery
    | .fn fid => (s.phase = .running || s.phase = .recovery) && b.state = 1 && (fn? s fid).isSome && !(fnD s fid).frozen

/-- The record of a request on which the mailbox engine and the firmware disagree (R352): its UNIT is the mailbox's host port, its DETAIL the
mailbox's FID, and no domain changes. -/
def roleFault (m : MbxId) (s : State) : State :=
  match m with
  | .fn fid => s.record 12 (fidPort fid) 8 0 0 fid
  | .board => s.record 12 0 8 0 0 0

/-- The requests of a mailbox's response: when the two compositions of one differ, none is issued and the mailbox is fenced (R80). -/
def answerWith (x : XCall) (write : State → State) (s : State) : State :=
  match x.mbx with
  | .fn fid => if x.composed then write s else (fenceMbx fid 2 s).composeFault fid
  | .board => write s

/-- Takes the oldest request of a mailbox, runs the checks of the mailbox engine and of the firmware, runs the command's body when
they pass, and answers (R349 to R353). A command whose opcode is not that of the oldest waiting request has no effect. -/
def xcs (x : XCall) (isOp : Nat → Bool) (body : Call → State → State × Reply) (s : State) : State :=
  let m := x.mbx
  match (mbxOf s m).queue with
  | [] => s
  | r :: rest =>
    if !mbxReady s m || !isOp r.opcode then s
    else
      let s := s.modMbx m ({ · with queue := rest })
      let answer (st detail : Nat) (s : State) : State := answerWith x (respond m r x.rspList st detail [] 0 1) s
      match opRow r.opcode with
      | none => answer stBadOpcode 0 s
      | some (roles, taken) =>
        if !x.agree then answer stDenied 0 (roleFault m s)
        else if roles &&& roleOf s m = 0 then answer stDenied 0 s
        else match headerFault m r taken x with
          | some d => answer stBadParam d s
          | none =>
            let fid := match m with
              | .fn f => f
              | _ => 0
            let c : Call := { mbx := m, role := roleOf s m, fid, flags := r.flags, plen := r.plen,
                              room := roomOf m r x.rspList }
            match body c s with
            | (s, .done st detail p hdr unit) => answerWith x (respond m r x.rspList st detail (layout p) hdr unit) s
            | (s, .sized st full) => answerWith x (putResponse m r x.rspList st 0 full []) s
            | (s, .wait w) => s.modMbx m ({ · with cur := some (r, w) })
            | (s, .hold) => s.modMbx m ({ · with queue := r :: rest })

/-- A command of one opcode. -/
def xop (x : XCall) (op : Nat) (body : Call → State → State × Reply) (s : State) : State := xcs x (· = op) body s

/-- A body that only answers. -/
def reads (f : Call → State → Reply) (c : Call) (s : State) : State × Reply := (s, f c s)

end Sys2Proof.Machine
end

