-- ==== Sys2Proof/Machine/TimeOps.lean ====
section
/-! DEFINITION. What device time sets off: minute boundaries of the meters, timer channels and timed Leaps, and the pending actions that a
change of device time passes (R18, R226, R323, R378, R379). -/

namespace Sys2Proof.Machine

/-! ### Minute boundaries (R18, R378, R379, R409) -/

/-- Nanoseconds of a minute. -/
def minuteNs : Nat := 60 * 10 ^ 9

/-- The minute of a device time. -/
def minuteOf (t : Nat) : Nat := t / minuteNs

/-- The cumulative values with an increment bank folded in. -/
def meterFold (cum bank : List (Nat × Nat)) : List (Nat × Nat) := bank.foldl (fun m e => mupd m e.1 0 (· + e.2)) cum

/-- The tenants that a bank has counted for, rising. -/
def bankTenants (bank : List (Nat × Nat)) : List Nat := (bank.foldl (fun m e => mput m (e.1 / 72) ()) ([] : List (Nat × Unit))).map (·.1)

/-- The snapshot of minute `m` has been taken (R18). -/
def snapTaken (s : State) (m : Nat) : Bool := s.meter.taken.any (fun e => e.1 ≤ m && m ≤ e.2)

/-- The intervals of minutes taken, with minute `m` added: an interval that ends just below grows. -/
def takeMinute (m : Nat) : List (Nat × Nat) → List (Nat × Nat)
  | [] => [(m, m)]
  | e :: t => if e.2 + 1 = m then (e.1, m) :: t else e :: takeMinute m t

/-- A minute boundary: the banks swap, the frozen bank is folded and zeroed, and the minute's snapshot is written unless it was taken
before. In Basking nothing is folded, and the entry is marked not valid and counted. -/
def minuteBoundary (s : State) : State :=
  let m := minuteOf s.time
  let t := s.meter
  if s.phase = .basking then
    if snapTaken s m || (mget? t.ring (m % 60)).any (·.minute = m) then s
    else
      ({ s with meter := { t with ring := mput t.ring (m % 60) { minute := m, time := s.time, valid := false } } }).bump
        .snapshotInvalid 0 0 1
  else
    let cum := meterFold t.cum t.active
    if snapTaken s m then { s with meter := { t with cum, active := [], bank := !t.bank } }
    else { s with meter := { t with
      cum
      active := []
      bank := !t.bank
      lastMinute := m
      due := true
      taken := takeMinute m t.taken
      changed := bankTenants t.active
      ring := mput t.ring (m % 60) { minute := m, time := s.time, recs := cum } } }

/-! ### Timer channels (R323) -/

/-- The channel's partition runs. -/
def chanRuns (s : State) (ch : Nat) : Bool := ((part? s (partOfChan s ch)).map (·.running)).getD false

/-- A timer channel whose time has come fires once. -/
def timerFire (ch : Nat) (s : State) : State :=
  let c := chanOf s ch
  if c.kind = 1 && c.armed && c.arg ≤ s.time && chanRuns s ch && chanRoom s ch then
    chPush ch { words := [c.arg, s.time], kind := 3 } (s.modChan ch ({ · with armed := false }))
  else s

/-! ### A change of device time (R18) -/

/-- A pending action at `t` was ahead of device time `old` and is not ahead of it now. -/
def passes (old now t : Nat) : Bool := old < t && t ≤ now

/-- Device time has been changed from `old`: each pending timed action that the change passes fires once, and a forward change into another
minute takes one snapshot, labelled with that minute. A backward change fires nothing. -/
def fireTimed (old : Nat) (s : State) : State :=
  let s := if minuteOf old < minuteOf s.time then minuteBoundary s else s
  let s := (s.skk.chans.filter (fun e => passes old s.time e.2.arg)).foldl (fun s e => timerFire e.1 s) s
  match s.pkt.leap.pending with
  | some t =>
    if passes old s.time t then
      let (spread, s) := s.drawBelow 2001
      leapTrigger spread s
    else s
  | none => s

end Sys2Proof.Machine
end

