-- ==== Sys2Proof/Machine/Power.lean ====
section
/-! DEFINITION. Time, the throughput governor, the current-budget arbiter and their commands (R18 to R38). -/

namespace Sys2Proof.Machine

/-! ### Device time (R18) -/

/-- Moves device time to `t`: every pending timed action that the change passes fires once, at the change (R18). -/
def moveTime (t : Nat) (s : State) : State :=
  let s := if t % 2 ^ 64 < s.time then s.modPkt (fun p => { p with stampHigh := max p.stampHigh (s.time / 2 ^ 20) }) else s
  fireTimed s.time { s with time := t % 2 ^ 64 }

/-- Adds a signed number of nanoseconds to device time, modulo 2⁶⁴. -/
def stepTime (t : Nat) (delta : Int) : Nat := ((t : Int) + delta).emod (2 ^ 64) |>.toNat

def execPtpStep (delta : Int) : State → Host.Outcome State Fault Refusal :=
  run (wfPtpStep delta) fun s =>
    if s.phase = .inReset then s
    else
      let s := moveTime (stepTime s.time delta) s
      s.event 0x0104 (.dev 1) s.time

/-- A rising edge of `PPS_IN` (R470). Whether the timebase counts as locked after it is not stated (log entry 3). -/
def execPpsInEdge : State → Host.Outcome State Fault Refusal :=
  run wfPpsInEdge fun s =>
    if s.phase = .inReset || !pinsIn s then s
    else
      let (v, s) := s.drawBelow 2
      { s with ppsLocked := v = 1 }

/-- `DEV_TIME_GET` and `DEV_TIME_SET` (R18, R361). -/
def execDevTimeGet (x : XCall) : State → Host.Outcome State Fault Refusal :=
  run (wfDevTimeGet x) (xop x 0x0103 (reads fun _ s => okWith [u64 s.time, u8 (b2n s.ptpLocked), u8 (b2n s.ppsLocked)]))

def execDevTimeSet (x : XCall) (mode value : Nat) : State → Host.Outcome State Fault Refusal :=
  run (wfDevTimeSet x mode value) (xop x 0x0104 fun _ s =>
    if 1 < mode then (s, badParam 0)
    else
      let before := s.time
      let s := moveTime (if mode = 0 then value else (before + value) % 2 ^ 64) s
      (s.event 0x0104 (.dev 0) s.time, okWith [u64 before, u64 s.time]))

/-! ### Required rates and budgets (R23, R31) -/

/-- Required rate of a logical pipeline, in units of 1/10,752 token per second (R23): an Ethernet port counts its line rate over 84
bytes, a host port its payload rate over 64 bytes. -/
def requiredRate (s : State) (k : Nat) : Nat :=
  let eth := (s.ports.filter (fun e => e.2.state = 2 && pipeOfOctet e.2.octet = k)).map
    (fun e => ethGbps e.2 * 1000000000 * 16)
  let host := (s.hps.filter (fun e => e.2.linkUp && pipeOfHost e.1 = k)).map (fun e => hostPayload e.2 * 21)
  (eth ++ host).foldl (· + ·) 0

/-- What the sensor of a physical pipeline reads (R21); before its first report, the slow-corner rate of R20 (log entry 87). -/
def pipeSensor (s : State) (phys : Nat) : Nat := mgetD s.pow.pipeRate phys 5600

/-- What the sensor of a cluster reads (R21; log entry 87). -/
def clusterSensor (s : State) (c : Nat) : Nat := mgetD s.pow.clusterRate c 2000

/-- The active logical pipelines with their sensor's rate, in the unit of the required rate (R21, R23). -/
def pipeRates (s : State) : List (Nat × Nat × Nat) :=
  (List.range 9).filterMap fun k =>
    let req := requiredRate s k
    if req = 0 then none else some (k, pipeSensor s (physOf s 0 k) * 1000000 * 10752, req)

/-- The least of the ratios rate ÷ required, with its pipeline. -/
def worstOf : List (Nat × Nat × Nat) → Option (Nat × Nat × Nat)
  | [] => none
  | e :: l =>
    match worstOf l with
    | none => some e
    | some b => if b.2.1 * e.2.2 < e.2.1 * b.2.2 then some b else some e

/-- Credits in a map of loans. -/
def creditSum (m : List (Nat × Nat)) : Nat := (m.map (·.2)).foldl (· + ·) 0

/-- The effective VDD_CORE budget in credits at a setpoint (R31): the lesser of the budget, loans included (R455), and what the
package power limit leaves. -/
def effectiveCore (p : Power) (vdd : Nat) : Nat :=
  let budget := p.core + creditSum p.borrowed - creditSum p.lent
  min budget ((p.packageW * 1000 - 228000 - p.sds * 225) * 40 / vdd)

/-! ### Floors (R33, R37) -/

/-- The lanes that an Ethernet port which is up uses. -/
def lanesUp (p : EthPort) : List Nat :=
  if p.state = 2 then (List.range p.curWidth).map (fun i => p.octet * 8 + p.curFirst + i) else []

/-- The lanes that a host port uses: sixteen from its octet pair's first, or eight or four of its octet (R12). -/
def hostLanes (s : State) (n w : Nat) : List Nat :=
  let first := match octetMode s (n / 2) with
    | 1 => n / 2 * 8 + n % 2 * 4
    | _ => n / 2 * 8
  (List.range w).map (first + ·)

/-- A consumer draws its floor: an active pipeline, a MACsec unit with an association of a port that is up, a lane that is up; clusters and burst
controllers always. -/
def drawsFloor (s : State) (c : Consumer) : Bool :=
  c.hasFloor && match c with
    | .pipeline p => (unitOf s 0 p).logical < 9 && requiredRate s (unitOf s 0 p).logical ≠ 0
    | .macsec o => s.cip.sas.any (fun e => 2 ≤ e.2.kind && e.2.octet = o) && s.ports.any (fun e => e.2.octet = o && e.2.state = 2)
    | .lane l => s.ports.any (fun e => (lanesUp e.2).contains l) || s.hps.any (fun e => e.2.linkUp && (hostLanes s e.1 e.2.width).contains l)
    | _ => true

/-- What a consumer's floor is for (R33): a pipeline's required rate, the line rate of a MACsec unit's ports, a lane's rate. -/
def floorNeed (s : State) (c : Consumer) : Nat :=
  match c with
  | .pipeline p => requiredRate s (unitOf s 0 p).logical
  | .macsec o => ((s.ports.filter (fun e => e.2.octet = o && e.2.state = 2)).map (fun e => ethGbps e.2)).foldl (· + ·) 0
  | .lane l =>
    match s.ports.find? (fun e => (lanesUp e.2).contains l) with
    | some e => [25, 50, 100, 200].getD e.2.rate 0
    | none => ((s.hps.find? (fun e => e.2.linkUp && (hostLanes s e.1 e.2.width).contains l)).map (fun e => e.2.gt)).getD 0
  | _ => 0

/-- Every consumer of a rail that can have a floor. -/
def floorConsumers (sds : Bool) : List Consumer :=
  if sds then (List.range 144).map .lane
  else (List.range 10).map .pipeline ++ (List.range 18).map .macsec ++ (List.range 16).map .cluster ++ (List.range 4).map .hbm


/-- A consumer's floor at a VDD_CORE and the present Tj (R33): a current that the spec does not give (log entry 102). -/
def floorAt (s : State) (vdd : Nat) (c : Consumer) : Nat :=
  if drawsFloor s c then Config.floorCredits c.key (floorNeed s c) (if c.onSds then 0 else vdd) (if c.onSds then 0 else hottest s) else 0

/-- The sum of a rail's floors at a VDD_CORE. -/
def floorSum (s : State) (vdd : Nat) (sds : Bool) : Nat := ((floorConsumers sds).map (floorAt s vdd)).foldl (· + ·) 0

/-! ### The governor (R22 to R26) -/

def clamp (x lo hi : Nat) : Nat := max lo (min x hi)

/-- An AVSBus voltage write (R26). -/
def avsWrite (v : Nat) (s : State) : State :=
  { s.emit (.avsWrite v) with pow := { s.pow with avsPending := some v } }

/-- A worn unit is regrown when AUTO_REGROW is set and a spare is free; otherwise a wear-threshold event is raised (R435). -/
def markWorn (kind phys : Nat) (s : State) : State :=
  let s := s.modUnit kind phys (fun u => { u with state := if u.state = 0 then 2 else u.state })
  if s.nv.autoRegrow && (mget? s.wear.active kind).isNone && (spareFor s kind phys).isSome then autoRegrow kind phys 4 s
  else s.event 0x0E04 (.dev (kind + 256 * phys)) 0

/-- One governor loop (R23, R24). The arbiter answers the floors at the voltage the loop would set; those floors are the grants' from the write's end,
since floors go by the present VDD_CORE (R37). With no port up there is no worst pipeline: an open ceiling episode and the count of
surplus periods then stay as they are, which the rules leave open (log entry 87). -/
def governorLoop (s : State) : State :=
  let p := s.pow
  match worstOf (pipeRates s) with
  | none => avsWrite p.vmin s
  | some (k, rate, req) =>
    let above (pct : Nat) : Bool := req * pct < rate * 100      -- worst > pct %
    let below (pct : Nat) : Bool := rate * 100 < req * pct      -- worst < pct %
    let target := 100 + p.margin
    let up := if below 102 then 200 else if below target then p.stepUp else 0
    let down := up = 0 && above (target + 4) && p.holdDown ≤ p.surplus + 1
    let surplus := if 0 < up then 0 else if above (target + 4) then (if down then 0 else p.surplus + 1) else 0
    let want := clamp (if down then p.vdd - p.stepDown else p.vdd + up) p.vmin p.vmax
    let refused := 0 < up && effectiveCore p want < floorSum s want false
    let newV := if refused then p.vdd else want
    let s := { s with pow := { p with surplus } }
    let stuck := below target && (refused || newV = p.vmax)
    let s := if stuck && !p.atCeiling then
        let rated := 6800 ≤ p.vdd && hottest s ≤ 105 + 273 && rate < 5600000000 * 10752
        let reason := if refused then 1 else 0
        let arg := p.vdd / 10 % 65536 + min (rate * 65536 / req) (2 ^ 32 - 1) * 65536 + reason * 2 ^ 62 + b2n rated * 2 ^ 63
        let s := { s with pow := { s.pow with atCeiling := true } }
        let s := s.event 0x0101 (.dev k) arg
        if rated then markWorn 0 (physOf s 0 k) s else s
      else if !below target && p.atCeiling then
        let s := { s with pow := { s.pow with atCeiling := false } }
        s.event 0x0102 (.dev 0) (p.vdd / 10)
      else s
    avsWrite newV s

/-- The loop of a period runs: the Eft is there, the last write is done, and the governor has not stopped on an AVS fault that the Owner has not
cleared (R26). -/
def governorRuns (s : State) : Bool := !s.eft.headless && s.pow.avsPending.isNone && (!s.pow.avsFault || s.pow.avsRetry)

/-- A governor period. A loop that does not run, or that the firmware did not come to within its period, is dropped and counted (R38). -/
def execGovernorPeriod (late : Bool) : State → Host.Outcome State Fault Refusal :=
  run (wfGovernorPeriod late) fun s =>
    if s.phase ≠ .running then s
    else if late || !governorRuns s then s.bump .govMissed 0 0 1
    else governorLoop s

/-- The end of an AVSBus write (R26). The floors are those of the new voltage from then on (R37). The governor does not run while the Eft
restarts: VDD_CORE stays, and the write's end is read when the Eft is back (log entry 87). -/
def execAvsWriteDone (ok : Bool) : State → Host.Outcome State Fault Refusal :=
  run (wfAvsWriteDone ok) fun s =>
    if s.eft.headless then s
    else match s.pow.avsPending with
    | none => s
    | some v =>
      if ok then
        { s with pow := { s.pow with
            vdd := v
            avsPending := none
            avsFails := 0
            avsFault := s.pow.avsFault && !s.pow.avsRetry
            avsRetry := false } }
      else if s.pow.avsFails + 1 < 3 then
        avsWrite v { s with pow := { s.pow with avsFails := s.pow.avsFails + 1 } }
      else
        let seq := s.flt.nextSeq
        let s := { s with pow := { s.pow with avsPending := none, avsFails := 0, avsFault := true, avsRetry := false, avsSeq := seq } }
        (s.record 11 0 11 0 0 0).event 0x0F02 (.dev 0) seq

/-- The key of a baseline: KIND 0 pipelines or 1 cores, sensor, VDD_CORE in 0.1 mV, Tj in kelvin. -/
def baseKey (cluster : Bool) (unit vdd tj : Nat) : Nat := ((b2n cluster * 256 + unit) * 65536 + vdd) * 1024 + tj % 1024

/-- A reading of the first 100 hours of operation is the unit's baseline at that VDD_CORE and Tj (R435; log entry 87). -/
def noteBaseline (cluster : Bool) (unit rate : Nat) (s : State) : State :=
  if s.wear.hours < 100 then
    { s with nv := { s.nv with baseline := mput s.nv.baseline (baseKey cluster unit s.pow.vdd (hottest s)) rate } }
  else s

/-- The baseline at the present VDD_CORE within 5 mV and Tj within 2 °C (R435). -/
def baselineOf (s : State) (cluster : Bool) (unit : Nat) : Option Nat :=
  let tj := hottest s
  (s.nv.baseline.find? (fun e =>
    let v := e.1 / 1024 % 65536
    e.1 / 2 ^ 26 = b2n cluster * 256 + unit && s.pow.vdd ≤ v + 50 && v ≤ s.pow.vdd + 50
      && tj ≤ e.1 % 1024 + 2 && e.1 % 1024 ≤ tj + 2)).map (·.2)

/-- The sensor that shows a unit's rate: a pipeline's own, or the sensor of the cluster in which the core serves (R435). -/
def sensorOf (s : State) (kind phys : Nat) : Option (Bool × Nat) :=
  match kind with
  | 0 => some (false, phys)
  | 1 => if (unitOf s 1 phys).logical < 128 then some (true, (unitOf s 1 phys).logical / 8) else none
  | _ => none

/-- A unit's token-rate decline from its baseline, in parts per million; as last evaluated where no baseline of this voltage and temperature
exists, and 0 where no sensor exists (R435, R439). -/
def declineOf (s : State) (kind phys : Nat) : Nat :=
  match sensorOf s kind phys with
  | none => 0
  | some (c, u) =>
    match baselineOf s c u with
    | none => (unitOf s kind phys).declinePpm
    | some b => (b - (if c then clusterSensor s u else pipeSensor s u)) * 1000000 / b

def execSensorWindow (cluster : Bool) (unit rate : Nat) : State → Host.Outcome State Fault Refusal :=
  run (wfSensorWindow cluster unit rate) fun s =>
    if s.phase = .inReset then s
    else
      let s := noteBaseline cluster unit rate s
      if cluster then { s with pow := { s.pow with clusterRate := mput s.pow.clusterRate unit rate } }
      else { s with pow := { s.pow with pipeRate := mput s.pow.pipeRate unit rate } }

/-! ### The arbiter (R30 to R38) -/

/-- What a consumer asks of the elastic credits: nothing where R33 gives it no elastic use. -/
def askedOf (r : EpochReq) : Nat := if r.consumer.hasElastic then r.elastic else 0

/-- Shares `left` credits among elastic requests in proportion to their weights, none above what it asked (R32). Requests that
their share covers are met first and the rest is shared again; log entry 10 states the rounding. -/
def shareOut : Nat → Nat → List EpochReq → List (Nat × Nat)
  | 0, _, rs => rs.map (fun r => (r.consumer.key, 0))
  | fuel + 1, left, rs =>
    let w (r : EpochReq) : Nat := Config.elasticWeight r.consumer.key
    let sum := (rs.map w).foldl (· + ·) 0
    let share (r : EpochReq) : Nat := if sum = 0 then left / rs.length else left * w r / sum
    let met := rs.filter (fun r => askedOf r ≤ share r)
    if met.isEmpty then rs.map (fun r => (r.consumer.key, share r))
    else
      met.map (fun r => (r.consumer.key, askedOf r))
        ++ shareOut fuel (left - (met.map askedOf).foldl (· + ·) 0) (rs.filter (fun r => share r < askedOf r))

/-- Elastic grants of an epoch out of what the floors leave: all that is asked when it fits, else shares; none after an AVS fault
(R26, R32). -/
def elasticGrants (floorsOnly : Bool) (left : Nat) (rs : List EpochReq) : List (Nat × Nat) :=
  let asked := (rs.map askedOf).foldl (· + ·) 0
  if floorsOnly then []
  else if asked ≤ left then rs.map (fun r => (r.consumer.key, askedOf r))
  else shareOut rs.length left rs

/-- The elastic grants of both rails. -/
def epochElastic (s : State) (reqs : List EpochReq) : List (Nat × Nat) :=
  let p := s.pow
  let rail (sds : Bool) (budget : Nat) : List (Nat × Nat) :=
    elasticGrants p.avsFault (budget - floorSum s p.vdd sds) (reqs.filter (fun r => r.consumer.onSds = sds))
  (rail false (effectiveCore p p.vdd) ++ rail true p.sds).foldl (fun m e => mput m e.1 e.2) []

/-- The grants of both rails: floors first, then the elastic share. -/
def epochGrants (s : State) (el : List (Nat × Nat)) : List (Nat × Nat) :=
  let floors := (floorConsumers false ++ floorConsumers true).foldl (fun m c =>
    if floorAt s s.pow.vdd c = 0 then m else mput m c.key (floorAt s s.pow.vdd c)) []
  el.foldl (fun m e => mupd m e.1 0 (· + e.2)) floors

/-- What a consumer's last grant leaves unused, and what it asks and is not granted, lapse and are counted (R32, R38). -/
def countLapse (old el : List (Nat × Nat)) (s : State) (r : EpochReq) : State :=
  s.bump .lapse r.consumer.key 0 (mgetD old r.consumer.key 0 - r.used + (askedOf r - mgetD el r.consumer.key 0))

/-- A consumer that reports no use of the ended epoch has used nothing of its grant. -/
def countIdle (reqs : List EpochReq) (s : State) (e : Nat × Nat) : State :=
  if reqs.any (fun r => r.consumer.key = e.1) then s else s.bump .lapse e.1 0 e.2

/-- The end of an epoch on both rails and the grants of the next, which is also the 1 µs tick of the timebase oscillator: device time advances by 1 µs
(log entry 11). A hold releases at the end of an epoch that began under it and in which the measured current stayed below 95% of the hard
limit (R35). -/
def execArbiterEpoch (core sds : List EpochReq) (coreNow sdsNow : Nat) : State → Host.Outcome State Fault Refusal :=
  run (wfArbiterEpoch core sds coreNow sdsNow) fun s =>
    if s.phase = .inReset then s
    else
      let reqs := core ++ sds
      let p := s.pow
      let el := epochElastic s reqs
      let grants := epochGrants s el
      let s := reqs.foldl (countLapse p.grants el) s
      let s := p.grants.foldl (countIdle reqs) s
      let held := p.coreHold && !(p.coreHoldFull && coreNow * 100 < p.coreHard * 95)
      let heldSds := p.sdsHold && !(p.sdsHoldFull && sdsNow * 100 < p.sdsHard * 95)
      let s := { s with
        tick := s.tick + 1
        pow := { s.pow with
          grants
          elastic := el
          coreHold := held
          sdsHold := heldSds
          coreHoldFull := held
          sdsHoldFull := heldSds
          coreNow := coreNow
          sdsNow := sdsNow } }
      let s := if s.time / 1000000000 < (s.time + 1000) / 1000000000 && s.phase ≠ .basking then s.emit .pps else s
      moveTime (s.time + 1000) (storageTick (pumpCipher s.cip.reqs.length s))

def execHardLimitCross (sdsRail : Bool) (now : Nat) : State → Host.Outcome State Fault Refusal :=
  run (wfHardLimitCross sdsRail now) fun s =>
    let held := if sdsRail then s.pow.sdsHold else s.pow.coreHold
    let limit := if sdsRail then s.pow.sdsHard else s.pow.coreHard
    if s.phase = .inReset || held || now ≤ limit then s
    else
      let s := { s with pow := if sdsRail then { s.pow with sdsHold := true, sdsHoldFull := false }
        else { s.pow with coreHold := true, coreHoldFull := false } }
      let s := s.bump .hold (b2n sdsRail) 0 1
      s.event 0x0F01 (.dev (b2n sdsRail)) (s.count .hold (b2n sdsRail) 0)

/-! ### Their commands (R22, R25, R30, R31, R35, R455) -/

/-- A lend or a return that goes with the Owner's `POWER_BUDGET_SET` (R36, R455): the unit lowers its budget first and then sends the frame. A lend is
whole credits, at most the budget less the present floors; a return is at most what was borrowed. No rule says how the command names it, or what
it answers when it cannot be made (log entry 78). -/
def lendOut (l : LendReq) (s : State) : State × Reply :=
  let p := s.pow
  let data := l.credits + (if l.giveBack then 2 ^ 31 else 0)
  if s.chain.state ≠ 2 then (s, fails stState)
  else if s.chain.units ≤ l.dest || l.dest = s.chain.addr then (s, badParam 0)
  else if l.giveBack then
    if mgetD p.borrowed l.dest 0 < l.credits then (s, fails stNoResource)
    else ({ s with pow := { p with borrowed := mupd p.borrowed l.dest 0 (· - l.credits) } }.chainSend 6 l.dest false 0 data, ok)
  else if p.core + creditSum p.borrowed - creditSum p.lent - floorSum s p.vdd false < l.credits then (s, fails stNoResource)
  else ({ s with pow := { p with lent := mupd p.lent l.dest 0 (· + l.credits) } }.chainSend 6 l.dest false 0 data, ok)

/-- `POWER_BUDGET_SET`. -/
def execPowerBudgetSet (x : XCall) (core coreHard sds sdsHard packageW : Nat) (note : BudgetNote) :
    State → Host.Outcome State Fault Refusal :=
  run (wfPowerBudgetSet x core coreHard sds sdsHard packageW note) (xop x 0x0F01 fun _ s =>
    let pw := if packageW = 0 then 1100 else packageW
    let p := { s.pow with core, coreHard, sds, sdsHard, packageW := pw }
    if 5400 < core then (s, badParam 0)
    else if coreHard < core || 5400 < coreHard then (s, badParam 4)
    else if 960 < sds then (s, badParam 8)
    else if sdsHard < sds || 960 < sdsHard then (s, badParam 12)
    else if pw < 500 || 1100 < pw then (s, badParam 16)
    else if effectiveCore p 6800 < note.floorsSlow then (s, badParam (if core < note.floorsSlow then 0 else 16))
    else match note.lend with
      | none => ({ s with pow := p }, ok)
      | some l => lendOut l { s with pow := p })

/-- `POWER_STATE`. No rule gives the codes of GOVERNOR: a free value (log entry 3). -/
def execPowerState (x : XCall) : State → Host.Outcome State Fault Refusal :=
  run (wfPowerState x) (xop x 0x0F02 fun _ s =>
    let (g, s) := s.drawBelow 256
    (s, okWith [u32 (s.pow.vdd / 10), u32 (s.pow.coreNow / 4), u32 (s.pow.sdsNow / 4),
      u64 (s.count .hold 0 0 + s.count .hold 1 0), u8 g]))

def execGovernorSet (x : XCall) (margin stepUpMv stepDownHalfMv vminMv vmaxMv periodUs holdDown : Nat) :
    State → Host.Outcome State Fault Refusal :=
  run (wfGovernorSet x margin stepUpMv stepDownHalfMv vminMv vmaxMv periodUs holdDown) (xop x 0x0F03 fun _ s =>
    if margin < 2 || 30 < margin then (s, badParam 0)
    else if stepUpMv ≠ 5 && stepUpMv ≠ 10 then (s, badParam 1)
    else if stepDownHalfMv ≠ 5 && stepDownHalfMv ≠ 10 then (s, badParam 2)
    else if vminMv < 600 || 680 < vminMv then (s, badParam 4)
    else if vmaxMv < 680 || 850 < vmaxMv then (s, badParam 6)
    else if periodUs < 20 || 500 < periodUs then (s, badParam 8)
    else if holdDown < 1 || 1000 < holdDown then (s, badParam 10)
    else ({ s with pow := { s.pow with
            margin
            stepUp := stepUpMv * 10
            stepDown := stepDownHalfMv * 5
            vmin := vminMv * 10
            vmax := vmaxMv * 10
            period := periodUs
            holdDown } }, ok))

end Sys2Proof.Machine
end

