-- ==== Sys2Proof/Machine/Ports.lean ====
section
/-! DEFINITION. Lanes, octets, Ethernet ports, pause, and MGMT0 (R11 to R13, R46 to R63). -/

namespace Sys2Proof.Machine

/-! ### Ports and lanes -/

/-- An Ethernet port's record. -/
def ethPort (s : State) (n : Nat) : EthPort := mgetD s.ports n {}

/-- The state with a formed Ethernet port changed. -/
def State.modPort (s : State) (n : Nat) (f : EthPort → EthPort) : State :=
  match mget? s.ports n with
  | some p => { s with ports := mput s.ports n (f p) }
  | none => s

/-- A lane. -/
def laneOf (s : State) (l : Nat) : Lane := mgetD s.lanes l {}

/-- The state with a lane changed. -/
def State.modLane (s : State) (l : Nat) (f : Lane → Lane) : State := { s with lanes := mupd s.lanes l {} f }

/-- The port is up. -/
def portUp (s : State) (n : Nat) : Bool := (mget? s.ports n).isSome && (ethPort s n).state = 2

/-- The lanes a port was configured with (R11, R48). -/
def portLanes (p : EthPort) : List Nat := (List.range p.width).map (fun i => p.octet * 8 + p.first + i)

/-- The lanes of a port that are in force: those it was configured with, or those it re-formed on (R61). -/
def liveLanes (p : EthPort) : List Nat := (List.range p.curWidth).map (fun i => p.octet * 8 + p.curFirst + i)

/-- The port that a lane serves (R48); a lane that a re-formed port freed is idle (R61). -/
def portOfLane (s : State) (l : Nat) : Option Nat := (s.ports.find? (fun e => (liveLanes e.2).contains l)).map (·.1)

/-- Failed lanes of an octet, as a mask. -/
def failedMask (s : State) (octet : Nat) : Nat :=
  pack ((List.range 8).map fun i => (1, b2n (laneOf s (octet * 8 + i)).failed))

/-- A combination of rate, width and FEC that R49 supports. -/
def portTypeOk (rate width fec : Nat) : Bool :=
  match rate with
  | 0 => (width = 1 && fec ≤ 1) || (width = 4 && fec = 1)
  | 1 | 2 | 3 => [1, 2, 4, 8].contains width && fec = 2
  | _ => false

/-- Takes an up port down: its queued packets drop at the heads and it leaves its groups before anything else (R62, R45). -/
def portDown (n cause newState : Nat) (s : State) : State :=
  let was := portUp s n
  let s := if was then dropPortQueues n s else s
  let s := s.modPort n (fun p => { p with state := newState, paused := [], storm := 0, xoffSent := 0 })
  let s := if was then regroup s else s
  if was then s.event 0x0202 (.dev n) cause else s

/-- The block a port re-forms at: the largest aligned width within its lanes that holds no failed lane, the lower first (R61). -/
def reformBlock (s : State) (p : EthPort) : Option (Nat × Nat) :=
  ([8, 4, 2, 1].filter (fun w => w < p.width && portTypeOk p.rate w p.fec)).findSome? fun w =>
    ((List.range (p.width / w)).map (fun i => p.first + i * w)).findSome? fun f =>
      if (List.range w).all (fun i => !(laneOf s (p.octet * 8 + f + i)).failed) then some (f, w) else none

/-- The port is FAILED, with its event (R61). -/
def portFail (n : Nat) (s : State) : State :=
  (portDown n 2 4 s).event 0x0206 (.dev n) (failedMask s (ethPort s n).octet)

/-- Declares a lane failed: recorded in the store until the Owner clears it; an up port goes down and re-forms, or fails (R60, R61); so does one that
is still training, which the rules leave open (log entry 13). A port without auto-negotiation counts as an AUI type (log entry 13). -/
def laneFail (l : Nat) (s : State) : State :=
  let s := s.modLane l ({ · with failed := true })
  let s := { s with nv := { s.nv with failedLanes := mput s.nv.failedLanes l () } }
  let n := portOfLane s l
  let s := s.event 0x0203 (.dev l) (n.getD 0)
  match n with
  | none => s
  | some n =>
    let p := ethPort s n
    if p.state ≠ 2 && p.state ≠ 1 && p.state ≠ 3 then s
    else match (if p.an then reformBlock s p else none) with
      | none => portFail n s
      | some (f, w) => (portDown n 2 3 s).modPort n (fun p => { p with curFirst := f, curWidth := w })

/-- The 10 s and 10 min averages of a lane's pre-FEC error rate, in units of 1e-12, against 1e-4 and 1e-6 (R60). -/
def execLaneBerWindow (lane ber10s ber10min : Nat) : State → Host.Outcome State Fault Refusal :=
  run (wfLaneBerWindow lane ber10s ber10min) fun s =>
    match portOfLane s lane with
    | none => s
    | some n =>
      if !portUp s n || (laneOf s lane).failed then s
      else
        let p := ethPort s n
        let s := s.modLane lane ({ · with ber := ber10s })
        -- the errors of 10 s at the lane's rate, a rate of 1e-12 being 0.01 errors for each Gb/s (R63; log entry 76)
        let errors := ber10s * [25, 50, 100, 200].getD p.rate 0 / 100
        let s := (s.bump .laneErrors lane 0 errors).bump .portLaneErrors n lane errors
        let s := if 1000000 < ber10min then s.event 0x0204 (.dev lane) n else s
        if 100000000 < ber10s then laneFail lane s else s

/-- The port comes up: its lanes have trained, its groups take it back, and the events say so (R50, R61, R62). -/
def portComesUp (n : Nat) (p : EthPort) (s : State) : State :=
  let s := (liveLanes p).foldl (fun s l => s.modLane l ({ · with trainFails := 0 })) s
  let s := s.modPort n ({ · with state := 2 })
  -- what back-pressure holds on its priorities is sent anew (R206)
  let s := (List.range 8).foldl (fun s i => pauseSync (ownerKey 0 (n * 8 + i)) s) s
  let s := if p.state = 3 then s.event 0x0205 (.dev n) (p.curWidth + 256 * p.curFirst) else s
  regroup (s.event 0x0201 (.dev n) (p.rate + 256 * p.curWidth))

/-- A training attempt in which some lanes failed: a lane that failed while all the port's others trained counts it; every other lane's run of
such attempts ends (R60). The third declares the lane failed. On a port of one lane there are no others that train, and no attempt counts (log
entry 104, DESIGN CHOICE). -/
def trainFailed (p : EthPort) (failed : Nat) (s : State) : State :=
  let bad := (liveLanes p).filter (fun l => bit failed (l % 8))
  let alone (l : Nat) : Bool := bad = [l] && p.curWidth ≠ 1
  let s := (liveLanes p).foldl (fun s l => s.modLane l (fun x => { x with trainFails := if alone l then x.trainFails + 1 else 0 })) s
  bad.foldl (fun s l => if 3 ≤ (laneOf s l).trainFails && !(laneOf s l).failed then laneFail l s else s) s

/-- Auto-negotiation and training end (R50); `failed` is a mask of lane positions. Training is elastic work on VDD_SDS_A, and goes on while it holds
credits under no hold (R33 to R35). A port without auto-negotiation does not train: it comes up when its link does, and an attempt that fails is none of
its (log entry 13). -/
def execLinkTrainingDone (port : Nat) (ok : Bool) (failed : Nat) : State → Host.Outcome State Fault Refusal :=
  run (wfLinkTrainingDone port ok failed) fun s =>
    let p := ethPort s port
    if (mget? s.ports port).isNone || (p.state ≠ 1 && p.state ≠ 3) || s.phase ≠ .running || !pinsIn s then s
    else if !p.an then (if ok then portComesUp port p s else s)
    else if !elasticOn s .training then s
    else if ok then portComesUp port p s
    else trainFailed p failed s

def execReformTimeout (port : Nat) : State → Host.Outcome State Fault Refusal :=
  run (wfReformTimeout port) fun s =>
    if (mget? s.ports port).isSome && (ethPort s port).state = 3 then portFail port s else s

/-- Loss of the link of an up port: it trains again (R62; log entry 13). -/
def execLinkLoss (port : Nat) : State → Host.Outcome State Fault Refusal :=
  run (wfLinkLoss port) fun s => if portUp s port then portDown port 1 1 s else s

/-! ### Pause (R52, R53) -/

/-- Priorities that a received pause frame stops or resumes, with their quanta. -/
def pauseSet (p : EthPort) (pfc : Bool) (mask : Nat) (quanta : List Nat) : List (Nat × Nat) :=
  if p.fc = 1 && !pfc then (List.range 8).map (fun i => (i, quanta.getD 0 0))
  else if p.fc = 2 && pfc then
    ((List.range 8).filter (fun i => bit mask i && bit p.pfcMask i)).map (fun i => (i, quanta.getD i 0))
  else []

/-- A pause or PFC frame: XOFF holds the priority's queues for its quanta, a quanta of 0 is XON. -/
def execPauseFrameReceive (port : Nat) (pfc : Bool) (mask : Nat) (quanta : List Nat) :
    State → Host.Outcome State Fault Refusal :=
  run (wfPauseFrameReceive port pfc mask quanta) fun s =>
    if !portUp s port then s
    else
      (pauseSet (ethPort s port) pfc mask quanta).foldl (fun s (i, q) =>
        (s.modPort port (fun p => { p with paused := if q = 0 then mdel p.paused i else mput p.paused i q })).bump
          .portPauseRx port i 1) s

def execPauseQuantaExpire (port prio : Nat) : State → Host.Outcome State Fault Refusal :=
  run (wfPauseQuantaExpire port prio) fun s => s.modPort port (fun p => { p with paused := mdel p.paused prio })

/-- A priority paused beyond the port's limit: its queues drop at their heads, counted, until the storm clears. -/
def execPauseStormLimit (port prio : Nat) : State → Host.Outcome State Fault Refusal :=
  run (wfPauseStormLimit port prio) fun s =>
    let p := ethPort s port
    if !portUp s port || (mget? p.paused prio).isNone || bit p.storm prio then s
    else
      let s := s.modPort port (fun p => { p with storm := p.storm + 2 ^ prio })
      stormDrop port prio (s.event 0x0207 (.dev port) prio)

def execPauseStormClear (port prio : Nat) : State → Host.Outcome State Fault Refusal :=
  run (wfPauseStormClear port prio) fun s =>
    s.modPort port (fun p => { p with storm := if bit p.storm prio then p.storm - 2 ^ prio else p.storm })

/-- A frame on MGMT0 goes to the partition that the Owner names, past every pipeline (R58). -/
def execMgmt0FrameReceive (frame : List Byte) (fcs : BitVec 32) : State → Host.Outcome State Fault Refusal :=
  run (wfMgmt0FrameReceive frame fcs) fun s => if s.phase = .running && pinsIn s && fcs.toNat = crcOf 1 frame then mgmt0Deliver frame s else s

/-! ### Commands -/

/-- The first field of a `PORT_CONFIG` that R48, R49, R51 to R53 refuse, as its payload offset. -/
def portCfgFault (s : State) (c : PortCfg) : Option Nat :=
  let overlaps := s.ports.any (fun e => e.1 ≠ c.port && e.2.octet = c.octet && c.first < e.2.curFirst + e.2.curWidth
    && e.2.curFirst < c.first + c.width)
  if 144 ≤ c.port then some 0
  else if 3 < c.admin then some 1
  else if 2 ≤ c.admin then none
  else if 18 ≤ c.octet || octetMode s c.octet ≠ 0 then some 2
  else if !([1, 2, 4, 8].contains c.width) then some 4
  else if c.first % c.width ≠ 0 || 8 < c.first + c.width then some 3
  else if overlaps then some 3
  else if 3 < c.rate then some 5
  else if !portTypeOk c.rate c.width 1 && !portTypeOk c.rate c.width 2 then some 4
  else if !portTypeOk c.rate c.width c.fec then some 6
  else if 1 < c.an then some 7
  else if 2 < c.fc then some 8
  else if c.mtu < 1518 || 9600 < c.mtu then some 10
  else if c.stormMs < 10 || 1000 < c.stormMs then some 12
  else if 7 < c.defPrio then some 14
  else none

/-- The port that a `PORT_CONFIG` forms. -/
def cfgPort (c : PortCfg) (old : EthPort) : EthPort :=
  { old with
    octet := c.octet, first := c.first, width := c.width, curFirst := c.first, curWidth := c.width, rate := c.rate
    fec := c.fec, an := c.an = 1, fc := c.fc, pfcMask := c.pfcMask, mtu := c.mtu, stormMs := c.stormMs
    defPrio := c.defPrio, admin := c.admin = 1 }

/-- Writes a port's record to the store as well (R404). -/
def State.setPort (s : State) (n : Nat) (p : EthPort) : State :=
  { s with
    ports := mput s.ports n p
    nv := { s.nv with portRec := mput s.nv.portRec n { p with state := 0, paused := [], storm := 0, xoffSent := 0 } } }

/-- Ports that have re-formed and whose freed lanes `c` takes are from then on ports of the lanes they kept (R61; log entry 13). -/
def yieldLanes (c : PortCfg) (s : State) : State :=
  (s.ports.filter (fun e => e.1 ≠ c.port && e.2.octet = c.octet && c.first < e.2.first + e.2.width && e.2.first < c.first + c.width)).foldl
    (fun s e => s.setPort e.1 { e.2 with first := e.2.curFirst, width := e.2.curWidth }) s

/-- `PORT_CONFIG` (R25, R48, R60). The port trains at its configured width, also where a lane of it stands recorded as failed: the rules do not say
what becomes of such a port (log entry 13). A number in use on another octet is EXISTS; on the same octet the port is re-formed. -/
def execPortConfig (x : XCall) (p : PortCfg) : State → Host.Outcome State Fault Refusal :=
  run (wfPortConfig x p) (xop x 0x0201 fun _ s =>
    match portCfgFault s p with
    | some off => (s, badParam off)
    | none =>
      let old := mget? s.ports p.port
      match p.admin, old with
      | 2, none => (s, fails stNotFound)
      | 3, none => (s, fails stNotFound)
      | 2, some _ =>
        let s := portDown p.port 0 0 s
        ({ s with ports := mdel s.ports p.port, nv := { s.nv with portRec := mdel s.nv.portRec p.port } }, ok)
      | 3, some o =>
        let s := (portLanes o).foldl (fun s l =>
          { s.modLane l (fun x => { x with failed := false, trainFails := 0 }) with
            nv := { s.nv with failedLanes := mdel s.nv.failedLanes l } }) s
        (s, ok)
      | _, _ =>
        if effectiveCore s.pow 6800 < p.floors then (s, fails stNoResource)
        else match old with
          | some o =>
            if o.octet ≠ p.octet then (s, fails stExists)
            else
              let s := yieldLanes p (portDown p.port 0 0 s)
              (s.setPort p.port { cfgPort p o with state := p.admin, paused := [], storm := 0, xoffSent := 0 }, ok)
          | none => ((yieldLanes p s).setPort p.port { cfgPort p {} with state := p.admin }, ok))

/-- STATE of a host port as `PORT_STATE` gives it: 0 absent, 1 training, 2 up, 3 disabled. -/
def hostPortState (s : State) (n : Nat) : Nat :=
  let h := hostPort s n
  if !h.enabled then 3 else if h.linkUp then 2 else if h.perst || !s.eft.portsUp then 0 else 1

def execPortState (x : XCall) (port : Nat) : State → Host.Outcome State Fault Refusal :=
  run (wfPortState x port) (xop x 0x0202 (reads fun c s =>
    if 176 ≤ port then badParam 0
    else if port < 144 then
      match mget? s.ports port with
      | none => fails stNotFound
      | some p =>
        if c.role = 2 then fails stNotFound
        else okWith [u8 p.state, u8 p.octet, u8 (pipeOfOctet p.octet), u8 p.curWidth, u8 p.rate, u8 (failedMask s p.octet)]
    else
      let n := port - 144
      if !hostPortExists s n || !c.inPort n then fails stNotFound
      else
        let h := hostPort s n
        okWith [u8 (hostPortState s n), u8 (n / 2), u8 (pipeOfHost n), u8 h.width, u8 h.gt, u8 (failedMask s (n / 2))]))

/-- The host port that uses a lane of an octet in a PCIe mode is present: neither host absent nor held in `HP_PERST_N` (R59). -/
def hostLaneBusy (s : State) (lane : Nat) : Bool :=
  let octet := lane / 8
  (List.range 32).any (fun n => hostPortExists s n && (hostPort s n).linkUp && !(hostPort s n).perst &&
    (n / 2 = octet || (octetMode s octet = 3 && n / 4 = octet / 2))
    && (octetMode s octet ≠ 1 || n % 2 = lane % 8 / 4))

/-- `LANE_DIAG` (R59) as it is carried out. `measured` is what the lane's counters or the scan give. PRBS and loopback want the port down: a port
that trains or re-forms is not, one that has FAILED is; a PRBS read without a PRBS running is refused (both the model's choice: log entry
76). -/
def laneDiag (lane func pattern : Nat) (measured : List Nat) (s : State) : State × Reply :=
  let octet := lane / 8
  let pcie := octetMode s octet ≠ 0
  let ethBusy := match portOfLane s lane with
    | some n => (ethPort s n).state = 1 || (ethPort s n).state = 2 || (ethPort s n).state = 3
    | none => false
  if 144 ≤ lane then (s, badParam 0)
  else if 6 < func then (s, badParam 1)
  else if func = 2 && 3 < pattern then (s, badParam 2)
  else if pcie && hostLaneBusy s lane then (s, fails stState)
  else if !pcie && ethBusy && (func = 2 || func = 3 || func = 4 || func = 5) then (s, fails stState)
  else if func = 3 && (laneOf s lane).diag ≠ 2 then (s, fails stState)
  else
    let s := match func with
      | 2 => s.modLane lane ({ · with diag := 2, pattern := pattern })
      | 4 => s.modLane lane ({ · with diag := 4 })
      | 5 => s.modLane lane ({ · with diag := 5 })
      | 6 => s.modLane lane ({ · with diag := 0 })
      | _ => s
    (s, if func = 0 || func = 1 || func = 3 then okRecords (measured.map u64) 0 8 else ok)

/-- `LANE_DIAG`. An eye scan is elastic work on VDD_SDS_A: without credits, or under a hold, it waits, and its command stays at the head of its
mailbox (R33 to R35, R59; log entry 76). -/
def execLaneDiag (x : XCall) (lane func pattern : Nat) (measured : List Nat) : State → Host.Outcome State Fault Refusal :=
  run (wfLaneDiag x lane func pattern measured) fun s =>
    if func = 1 && !elasticOn s .training then s else xop x 0x0204 (fun _ s => laneDiag lane func pattern measured s) s

/-- Octets whose mode a change of one octet sets with it (R47). -/
def octetsOf (s : State) (octet mode : Nat) : List Nat :=
  if mode = 3 || octetMode s octet = 3 then [octet / 2 * 2, octet / 2 * 2 + 1] else [octet]

/-- Some port that uses the octet is up (R13). An Ethernet port that trains or re-forms counts as down here, as R62 counts it gone down (log entry
104, DESIGN CHOICE: R50 keeps DOWN apart from both). -/
def octetBusy (s : State) (o : Nat) : Bool :=
  s.ports.any (fun e => e.2.octet = o && e.2.state = 2)
    || (List.range 32).any (fun n => hostPortExists s n && (hostPort s n).linkUp
      && (n / 2 = o || (octetMode s o = 3 && n / 4 = o / 2)))

/-- `OCTET_MODE` (R13, R25, R46, R47). -/
def execOctetMode (x : XCall) (octet mode : Nat) (floors : Nat) : State → Host.Outcome State Fault Refusal :=
  run (wfOctetMode x octet mode floors) (xop x 0x0205 fun _ s =>
    if 18 ≤ octet then (s, badParam 0)
    else if 3 < mode then (s, badParam 1)
    else if 16 ≤ octet && mode ≠ 0 then (s, badParam 1)
    else if mode = 3 && octet % 2 = 1 then (s, badParam 0)
    else
      let os := octetsOf s octet mode
      if os.any (octetBusy s) then (s, fails stState)
      else if effectiveCore s.pow 6800 < floors then (s, fails stNoResource)
      else
        let s := os.foldl (fun s o =>
          let s := { s with
            octMode := mput s.octMode o mode
            nv := { s.nv with octRec := mput s.nv.octRec o mode }
            ports := mmap s.ports (fun _ p => if p.octet ≠ o then p else if mode ≠ 0 then { p with state := 0 }
              else if p.admin && p.state = 0 then { p with state := 1 } else p) }
          if mode = 0 then s else macsecPowerDown o s) s
        (s, ok))

end Sys2Proof.Machine
end

