-- ==== Sys2Proof/Machine/RingOps.lean ====
section
/-! DEFINITION. The rings: fetch, fences and shutdown (R94 to R117). -/

namespace Sys2Proof.Machine

/-! ### Fences (R101, R102) -/

/-- Fences one ring for a cause of `RING_ERR` bits 3:0; a completion ring takes its sources with it. What they were reading is
discarded when it comes (R116). -/
def fenceRing (fid r cause : Nat) (s : State) : State :=
  let c := (ringOf s fid r).type = 2
  let s := s.modFn fid fun f => { f with rings := mmap f.rings fun n x =>
    if x.state = 1 || x.state = 2 then
      if n = r then { x with state := 3, err := x.err ||| 2 ^ cause, timerAt := none }
      else if c && x.type ≠ 2 && x.cplRing = r then { x with state := 3 }
      else x
    else x }
  s.killFenced fid

/-! ### Fetch (R97 to R99) -/

/-- Reads the index word of a ring, or owes one further read when one is outstanding (R98). A function that may issue no request reads
nothing (log entry 91). -/
def readIndex (fid r : Nat) (s : State) : State :=
  let x := ringOf s fid r
  if !canIssue s fid then s
  else if x.idxReading then s.modRing fid r ({ · with idxAgain := true })
  else (s.modRing fid r ({ · with idxReading := true })).hostRd fid x.idxAddr 8 (.index r)

/-- A doorbell makes the ring read its index word now (R98). -/
def indexDue (s : State) (fid r : Nat) : Bool :=
  let x := ringOf s fid r
  x.state = 1 && x.type ≠ 2 && !(fnD s fid).frozen && !x.idxReading && canIssue s fid

/-- A value read from an index word is valid (R97). -/
def idxValid (q p d log2 : Nat) : Bool := sub32 q p ≤ 2 ^ log2 && sub32 q d ≤ 2 ^ log2

/-! ### The mailbox's request ring (R117, R346) -/

/-- Reads the request index word of a mailbox, or owes one further read when one is outstanding (R98, R117). -/
def mbxReadIndex (fid : Nat) (s : State) : State :=
  let b := mbxOf s (.fn fid)
  if b.state ≠ 1 || !canIssue s fid then s
  else if b.idxReading then s.modMbx (.fn fid) ({ · with idxAgain := true })
  else (s.modMbx (.fn fid) ({ · with idxReading := true })).hostRd fid (b.idxAddr + 8) 8 .mbxIndex

/-- The mailbox engine takes doorbells of this function: its mailbox is ACTIVE, and neither freeze nor Bask stops it (R384, R408). -/
def mbxListens (s : State) (fid : Nat) : Bool :=
  hasMbx s fid && (mbxOf s (.fn fid)).state = 1 && canIssue s fid && !(fnD s fid).frozen && !s.eft.basking

/-- A doorbell of a mailbox (R98, R117, R345). -/
def mbxDoorbell (fid : Nat) (s : State) : State := if mbxListens s fid then mbxReadIndex fid s else s

/-- Request slots that one read takes: those published and not read, up to the ring's end, in one request of the function. -/
def slotCount (s : State) (fid : Nat) (b : Mailbox) : Nat :=
  let slot := b.fetched % 2 ^ b.log2
  min (min (sub32 b.lastRead b.fetched) (2 ^ b.log2 - slot)) ((mrrsOf s fid - 64 * slot % mrrsOf s fid) / 64)

/-- Reads the next published request slots, when there are any and none are being read (R98, R346). -/
def mbxKick (fid : Nat) (s : State) : State :=
  let b := mbxOf s (.fn fid)
  let n := slotCount s fid b
  if mbxListens s fid && b.fetched ≠ b.lastRead && !liveRead s (fun q => readsMbx fid q && q.purpose ≠ .mbxIndex) then
    s.hostRd fid (b.reqBase + 64 * (b.fetched % 2 ^ b.log2)) (64 * n) (.mbxSlots n)
  else s

/-- A mailbox's request index has been read: a valid one publishes requests, an invalid one fences it, and one that comes after the
mailbox has left ACTIVE is discarded (R97, R116, R117, R346). -/
def mbxIndexDone (fid q : Nat) (s : State) : State :=
  let b := mbxOf s (.fn fid)
  let s := s.modMbx (.fn fid) ({ · with idxReading := false, idxAgain := false })
  if b.state ≠ 1 then s
  else if !idxValid q b.lastRead b.done b.log2 then fenceMbx fid 0 s
  else
    let s := s.modMbx (.fn fid) ({ · with lastRead := q })
    mbxKick fid (if b.idxAgain then mbxReadIndex fid s else s)

/-- Request slots have been read: the requests wait in order (R346, R351). A mailbox that is shutting down takes no more (R347). -/
def mbxSlotsDone (fid n : Nat) (data : List Byte) (s : State) : State :=
  if (mbxOf s (.fn fid)).state ≠ 1 then s
  else
    let new := (List.range n).map fun i => ({ slot := BitVec.ofNat 512 (ofLe ((data.drop (64 * i)).take 64)) } : Req)
    mbxKick fid (s.modMbx (.fn fid) (fun b => { b with fetched := add32 b.fetched n, queue := b.queue ++ new }))

/-! ### Enable (R95, R96, R101) -/

/-- The source rings of a completion ring that are not IDLE. -/
def sourcesOf (f : Fn) (c : Nat) : List Nat :=
  (f.rings.filter (fun (_, x) => x.type ≠ 2 && x.state ≠ 0 && x.cplRing = c)).map (·.1)

/-- The configuration is valid (R101). -/
def ringCfgOk (s : State) (fid r : Nat) (x : Ring) : Bool :=
  let f := fnD s fid
  (!isVf fid || f.bound) && 6 ≤ x.log2 && x.log2 ≤ 16 && x.type ≠ 3 && r < (grantsOf s fid).rings &&
    if x.type = 2 then x.poll || x.vector < msixSize s fid
    else
      let c := ringOf s fid x.cplRing
      c.type = 2 && c.state = 1 && (sourcesOf f x.cplRing).length < 16

/-- Enables a ring, or refuses with `CFG`. -/
def ringEnable (fid r : Nat) (s : State) : State :=
  let x := ringOf s fid r
  if ringCfgOk s fid r x then
    let s := s.modRing fid r ({ · with
      state := 1, enable := true, ci := 0, lastRead := 0, done := 0, cplCi := 0, unann := 0, timerAt := none
      idxReading := false, idxAgain := false, partialDescs := [], bufs := [], short := [], tx := [], tail := false })
    if x.type = 2 then s.hostWr fid x.idxAddr (leBytes 8 0) else s
  else s.modRing fid r (fun x => { x with err := x.err ||| 16, enable := false })

/-! ### Shutdown (R114, R115) -/

/-- The completions that a shutdown owes beyond the packets already sent: the descriptors that form no whole packet, together, and
each owned entry after `RING_CI`, on its own, but for receive buffers that have completed FORMAT; a buffer in hand gives its cookie (R107,
R108, R114 step 4). The model forms one segment of
what TSO does not cut and none of what it would, and LEN counts no byte (log entry 92, DESIGN CHOICE). -/
def abortedTail (x : Ring) : List TxPkt :=
  let n := x.partialDescs.length
  let d := x.partialDescs.headD 0
  (if n = 0 then [] else
    [{ last := sub32 x.ci 1, ndesc := n, cookie := bits d 160 32, segs := b2n (!bit d 83), fixed := some 4 : TxPkt }])
  ++ (List.range (sub32 x.lastRead x.ci)).filterMap fun j =>
    let i := add32 x.ci j
    if x.short.contains i then none
    else some { last := i, cookie := bits (x.bufs.getD j 0) 96 32, segs := b2n (x.type = 0), fixed := some 4 : TxPkt }

/-- A read of the ring is outstanding. -/
def ringReading (s : State) (fid r : Nat) : Bool := liveRead s (readsRing fid r)

/-- The end of a shutdown: the completion ring's index word is written, if no entry just written has written it, its message goes, and the
ring is IDLE with the last-read index as its fetch index (R112, R114 step 5). -/
def drainEnd (fid r : Nat) (wrote : Bool) (s : State) : State :=
  let x := ringOf s fid r
  let c := ringOf s fid x.cplRing
  let s := s.modRing fid r ({ · with state := 0, enable := false, ci := x.lastRead, bufs := [], tail := false })
  if c.state = 1 then announce fid x.cplRing (if wrote then s else s.hostWr fid c.idxAddr (leBytes 8 c.ci)) else s

/-- Carries a DRAINING ring as far as its reads and its completion ring allow (R114 steps 3 to 5, R115). -/
def drainRing (fid r : Nat) (s : State) : State :=
  let x := ringOf s fid r
  if x.state = 2 && !ringReading s fid r then
    let s := if x.tail then s else s.modRing fid r ({ · with tx := x.tx ++ abortedTail x, partialDescs := [], tail := true })
    let before := (ringOf s fid x.cplRing).ci
    let s := txFlush fid r s
    if (ringOf s fid r).tx.isEmpty then drainEnd fid r ((ringOf s fid x.cplRing).ci ≠ before) s else s
  else s

/-- A packet all of whose copies were committed or dropped, one at least committed, before a shutdown keeps its status; any other
completes ABORTED (R114 step 4). -/
def TxPkt.shut (p : TxPkt) : TxPkt :=
  if p.open_ = 0 && 0 < p.committed && p.fixed.isNone then p else { p with fixed := some 4 }

/-- Starts the shutdown of an ACTIVE ring: a completion ring with active sources refuses it with `CFG`; a source ring marks its
uncommitted copies, which are then never sent (R101, R114). A completion ring without them has nothing to drain: the model announces
what is unannounced and makes it IDLE at once (log entry 92, DESIGN CHOICE: R114 speaks of `TX` and `RX` rings alone). -/
def ringDisable (fid r : Nat) (s : State) : State :=
  let x := ringOf s fid r
  if x.type = 2 then
    if (sourcesOf (fnD s fid) r).isEmpty then
      let s := if 0 < x.unann then announce fid r s else s
      s.modRing fid r ({ · with state := 0, enable := false })
    else s.modRing fid r (fun x => { x with err := x.err ||| 16 })
  else
    let s := markRingCopies fid r (s.modRing fid r ({ · with state := 2, enable := false }))
    let s := s.modRing fid r (fun x => { x with tx := x.tx.map TxPkt.shut })
    drainRing fid r s

/-- A write of `RING_CTL` (R100, R101). -/
def ringCtlWrite (fid r v : Nat) (s : State) : State :=
  let x := ringOf s fid r
  match x.state with
  | 0 =>
    let s := s.modRing fid r ({ · with cplRing := bits v 2 14, spread := bit v 16, vlanStrip := bit v 17 })
    if bit v 0 then ringEnable fid r s else s
  | 1 => if bit v 0 then s else ringDisable fid r s
  | 3 => if bit v 1 && (fnD s fid).bme then s.modRing fid r ({ · with state := 0, enable := false, tx := [], partialDescs := [], bufs := [], tail := false })
    else s
  | _ => s

/-- A ring's index word has been read: a valid one publishes entries, an invalid one fences the ring, and one that comes after the ring has
left ACTIVE is discarded (R97, R98, R116). -/
def ringIndexDone (fid ring q : Nat) (s : State) : State :=
  let x := ringOf s fid ring
  let s := s.modRing fid ring ({ · with idxReading := false, idxAgain := false })
  if x.state = 2 then drainRing fid ring s
  else if x.state ≠ 1 then s
  else if !idxValid q x.lastRead x.done x.log2 then fenceRing fid ring 0 s
  else
    let s := s.modRing fid ring ({ · with lastRead := q })
    kick fid ring (if x.idxAgain then readIndex fid ring s else s)

/-- The read that an index word serves. -/
def idxPurpose : IdxOf → ReadFor
  | .ring r => .index r
  | .mailbox => .mbxIndex

/-- An index word's read has completed; one whose completion is to be dropped has no effect but to free its tag. -/
def indexDone (fid : Nat) (of : IdxOf) (q : Nat) (s : State) : State :=
  match of with
  | .ring r => ringIndexDone fid r q s
  | .mailbox => mbxIndexDone fid q s

/-- Space has come back to a completion ring: its sources go on (R113, R115). -/
def cplResume (fid c : Nat) (s : State) : State :=
  (sourcesOf (fnD s fid) c).foldl (fun s r => kick fid r (drainRing fid r (txFlush fid r s))) s

/-- A write of `CPL_CI` (R100). -/
def cplCiWrite (fid r c : Nat) (s : State) : State :=
  let x := ringOf s fid r
  if x.type ≠ 2 then s
  else if sub32 x.ci x.cplCi < sub32 c x.cplCi then s.modRing fid r (fun x => { x with err := x.err ||| 32 })
  else cplResume fid r (s.modRing fid r ({ · with cplCi := c }))

end Sys2Proof.Machine
end

