-- ==== Sys2Proof/Machine/HostOps.lean ====
section
/-! DEFINITION. Function and port resets, Bus Master Enable, the register map of a function's BARs, and windows (R64 to R93, R345,
R373 to R375). -/

namespace Sys2Proof.Machine

/-! ### Resets (R83 to R90) -/

/-- A function's record after its reset (R84): registers at their reset values; provisioning, tenant, grants, seed and sticky AER
bits kept. -/
def Fn.afterReset (f : Fn) : Fn :=
  { pf := f.pf, vf := f.vf, tenant := f.tenant, bound := f.bound, grants := f.grants, seed := f.seed, aer := f.aer
    aerMask := f.aerMask, aerSev := f.aerSev }

/-- Resets one function (R84). Completions of its reads are dropped when they come (R90); a command already started keeps its effect
and answers nobody. -/
def resetFn (fid : Nat) (s : State) : State :=
  let s := nvmeReset fid s
  let s := if (fnD s fid).frozen then ctxThaw fid s else s
  let s := s.modFn fid Fn.afterReset
  let s := s.killReads (fun r => r.fid = fid)
  let s := if hasMbx s fid then (s.orphanCur (.fn fid)).modMbx (.fn fid) (fun b => { eventSeq := b.eventSeq }) else s
  detachPump s

/-- The provisioned VFs under a PF. -/
def vfsOf (s : State) (port pf : Nat) : List Nat :=
  (s.fns.filter (fun (i, f) => fidPort i = port && isVf i && f.pf = pf)).map (·.1)

/-- What SR-IOV's unprovisioned VFs of a PF hold is lost with a reset (R70). -/
def resetUnprov (port pf : Nat) (s : State) : State :=
  { s with unprov := s.unprov.filter (fun (k, _) => k / 2048 ≠ port * 2 + (pf - 1)) }

/-- Key of an unprovisioned VF. -/
def unprovKey (port pf vf : Nat) : Nat := port * 4096 + (pf - 1) * 2048 + vf

/-- Resets every VF of a PF, each as by its own FLR (R83). -/
def resetVfs (fid : Nat) (s : State) : State :=
  resetUnprov (fidPort fid) (fidFn fid) ((vfsOf s (fidPort fid) (fidFn fid)).foldl (fun s f => resetFn f s) s)

/-- What the configuration store holds for a host port is taken up (R65). -/
def HostPort.takeUp (h r : HostPort) : HostPort :=
  { h with enabled := r.enabled, maxGt := r.maxGt, maxWidth := r.maxWidth, sris := r.sris, subVendor := r.subVendor, subId := r.subId
           bar4Pf0 := r.bar4Pf0, bar4Pf1 := r.bar4Pf1, bar4Vf := r.bar4Vf }

/-- A port's link goes down: the port is host absent, every function of it is reset, and what the store holds for it is taken up (R65, R83,
R85). -/
def portReset (n : Nat) (s : State) : State :=
  let was := (hostPort s n).linkUp
  -- an ECMP member that leaves by the port goes down with it: its queued packets drop before its flows leave on another (O1, R45)
  let s := dropWhere (fun _ c => c.via.isSome && destType c.dest = 2 && fidPort (destArg c.dest) = n) 6 s
  let s := (portFids s n).foldl (fun s f => resetFn f s) s
  let s := resetUnprov n 1 (resetUnprov n 2 s)
  let s := { s with hps := mupd s.hps n {} fun h =>
    { h.takeUp (mgetD s.nv.hostRec n {}) with linkUp := false, ready := false, l1 := false, bus := 0 } }
  let s := regroup (domClear (.hostPort n) s)
  if was then s.event 0x0302 (.hostPort n) 0 else s

/-- Bus Master Enable cleared (R89). -/
def bmeClear (fid : Nat) (s : State) : State :=
  let s := fenceFn (some 3) fid s
  (s.modFn fid (fun f => { f with bme := false })).killReads (fun r => r.fid = fid)

/-- Returns every fenced ring and the mailbox of a function to IDLE (R74); ignored while Bus Master Enable is 0. -/
def unfence (fid : Nat) (s : State) : State :=
  if (fnD s fid).bme && !isNvme s fid then
    let s := s.modFn fid fun f => { f with rings := mmap f.rings fun _ x =>
      if x.state = 3 then { x with state := 0, enable := false, tx := [], partialDescs := [], bufs := [], tail := false } else x }
    if (mbxOf s (.fn fid)).state = 3 then
      (s.orphanCur (.fn fid)).modMbx (.fn fid) (fun b => { b with state := 0, enable := false, queue := [] })
    else s
  else s

/-! ### Identity registers (R74) -/

/-- FENCED of `FN_STATUS`. -/
def fnFenced (s : State) (fid : Nat) : Bool :=
  if isNvme s fid then nvmeFenced s fid
  else (fnD s fid).rings.any (·.2.state = 3) || (mbxOf s (.fn fid)).state = 3

def fnStatus (s : State) (fid : Nat) : Nat :=
  let f := fnD s fid
  pack [(1, b2n (!isVf fid || (mget? s.fns fid).isSome)), (1, b2n (!isVf fid || f.bound)), (1, b2n (!f.bme)), (1, b2n (fnFenced s fid)), (1, b2n s.eft.headless),
    (1, b2n f.frozen)]

/-- ROLE of `FN_CAPS`: 0 Owner, 1 port manager, 2 tenant. -/
def fnRole (s : State) (fid : Nat) : Nat :=
  if fidFn fid = 0 then (if fidPort fid = s.eft.ownerPort then 0 else 1) else 2

def fnCaps (s : State) (fid : Nat) : Nat :=
  pack [(14, (grantsOf s fid).rings), (2, fnRole s fid), (1, b2n (!isNvme s fid)),
    (1, b2n (isVf fid || fnRole s fid = 1))]

/-! ### Exchange (R373 to R375) -/

/-- Sets the receiving side's bit; a message goes only when the bit rises with MASK clear (R375). -/
def notifyVf (fid : Nat) (s : State) : State :=
  let f := fnD s fid
  let s := s.modFn fid ({ · with exchIn := true })
  if !f.exchIn && !f.exchMask then s.sendMsix fid f.exchVector else s

/-- A VF notifies its port manager: OUT is set, and, but for the owner port, the pending bit with its message (R374, R375). -/
def notifyPf (fid : Nat) (s : State) : State :=
  let s := s.modFn fid ({ · with exchOut := true })
  let pf := mkFid (fidPort fid) 0
  if fidPort fid = s.eft.ownerPort then s
  else
    let p := fnD s pf
    let s := s.modFn pf (fun p => { p with exchPend := mput p.exchPend (fidFn fid) () })
    if (mget? p.exchPend (fidFn fid)).isNone && !p.exchMask then s.sendMsix pf p.exchVector else s

/-- Clears pending bits of PF0: each VF's OUT clears with its bit (R373, R374). -/
def clearPend (pf i v : Nat) (s : State) : State :=
  ((setPositions 32 v).map (· + 32 * i)).foldl (fun s n =>
    if (mget? (fnD s pf).exchPend n).isSome then
      (s.modFn pf (fun p => { p with exchPend := mdel p.exchPend n })).modFn (mkFid (fidPort pf) n)
        ({ · with exchOut := false })
    else s) s

/-! ### Mailbox registers (R345, R347) -/

/-- Starts a mailbox, or refuses with `CFG`; the response index word is written 0 (R347), and a read of its last run that is still outstanding is
discarded (R116). -/
def mbxEnable (fid : Nat) (s : State) : State :=
  let b := mbxOf s (.fn fid)
  if b.log2 < 4 || 8 < b.log2 || (!b.poll && msixSize s fid ≤ b.vector) then
    s.modMbx (.fn fid) (fun b => { b with err := b.err ||| 16, enable := false })
  else
    let s := ((s.killReads (readsMbx fid)).orphanCur (.fn fid)).modMbx (.fn fid) ({ · with
      state := 1, enable := true, lastRead := 0, done := 0, fetched := 0, idxReading := false, idxAgain := false, queue := [] })
    s.hostWr fid b.idxAddr (leBytes 8 0)

/-- Starts the shutdown of a mailbox: unstarted requests are answered ABORTED, once the command being executed has ended (R347). -/
def mbxDisable (m : MbxId) (s : State) : State :=
  let b := mbxOf s m
  if b.cur.isSome then s.modMbx m ({ · with state := 2, enable := false })
  else (answerAll m stAborted s).modMbx m ({ · with state := 0, enable := false })

/-- A write of `MBX_CTL`. -/
def mbxCtlWrite (fid v : Nat) (s : State) : State :=
  match (mbxOf s (.fn fid)).state with
  | 0 =>
    let s := s.modMbx (.fn fid) ({ · with poll := bit v 1, vector := bits v 2 11 })
    if bit v 0 then mbxEnable fid s else s
  | 1 => if bit v 0 then s else mbxDisable (.fn fid) s
  | _ => s

/-- Clears W1C bits (R6). -/
def w1c (old v : Nat) : Nat := old - (old &&& v)

/-- A write of a mailbox register at its offset from 0x0100. -/
def mbxWrite (fid off v : Nat) (s : State) : State :=
  let m := MbxId.fn fid
  let idle := (mbxOf s m).state = 0
  match off with
  | 0x00 => if idle then s.modMbx m (fun b => { b with reqBase := setBits b.reqBase 12 20 (v / 4096) }) else s
  | 0x04 => if idle then s.modMbx m (fun b => { b with reqBase := setBits b.reqBase 32 32 v }) else s
  | 0x08 => if idle then s.modMbx m (fun b => { b with rspBase := setBits b.rspBase 12 20 (v / 4096) }) else s
  | 0x0C => if idle then s.modMbx m (fun b => { b with rspBase := setBits b.rspBase 32 32 v }) else s
  | 0x10 => if idle then s.modMbx m ({ · with log2 := v % 16 }) else s
  | 0x14 => if idle then s.modMbx m (fun b => { b with idxAddr := setBits b.idxAddr 4 28 (v / 16) }) else s
  | 0x18 => if idle then s.modMbx m (fun b => { b with idxAddr := setBits b.idxAddr 32 32 v }) else s
  | 0x20 => mbxCtlWrite fid v s
  | 0x24 => s.modMbx m (fun b => { b with err := w1c b.err (bits v 8 5) })
  | _ => s

/-! ### Ring registers (R100) -/

/-- A write of a ring register at its offset in the block. Where TYPE is not `CPL`, `CPL_MOD` and `CPL_VEC` read as 0 and ignore writes, as
the spec says of `CPL_CI` alone (log entry 92, DESIGN CHOICE). -/
def ringWrite (fid r off v : Nat) (s : State) : State :=
  let x := ringOf s fid r
  let idle := x.state = 0
  let set (f : Ring → Ring) : State := if idle then s.modRing fid r f else s
  match off with
  | 0x00 => set fun x => { x with base := setBits x.base 12 20 (v / 4096) }
  | 0x04 => set fun x => { x with base := setBits x.base 32 32 v }
  | 0x08 => set ({ · with log2 := v % 32 })
  | 0x0C => set ({ · with type := v % 4 })
  | 0x10 => set fun x => { x with idxAddr := setBits x.idxAddr 3 29 (v / 8) }
  | 0x14 => set fun x => { x with idxAddr := setBits x.idxAddr 32 32 v }
  | 0x1C => ringCtlWrite fid r v s
  | 0x24 => if x.state = 1 && x.type ≠ 2 && !(fnD s fid).frozen then readIndex fid r s else s
  | 0x28 => if x.type = 2 then moderate fid r (s.modRing fid r ({ · with modCount := bits v 0 16, modTimer := bits v 16 16 })) else s
  | 0x2C => if x.type = 2 && idle then s.modRing fid r ({ · with vector := bits v 0 11, poll := bit v 31 }) else s
  | 0x30 => cplCiWrite fid r v s
  | 0x34 => s.modRing fid r (fun x => { x with err := w1c x.err (bits v 0 8) })
  | _ => s

/-- A read of a ring register. -/
def ringRead (x : Ring) (off : Nat) : Nat :=
  match off with
  | 0x00 => x.base % 2 ^ 32
  | 0x04 => x.base / 2 ^ 32
  | 0x08 => x.log2
  | 0x0C => x.type
  | 0x10 => x.idxAddr % 2 ^ 32
  | 0x14 => x.idxAddr / 2 ^ 32
  | 0x18 => x.ci
  | 0x1C => pack [(1, b2n x.enable), (1, 0), (14, x.cplRing), (1, b2n x.spread), (1, b2n x.vlanStrip)]
  | 0x20 => x.state
  | 0x28 => if x.type = 2 then pack [(16, x.modCount), (16, x.modTimer)] else 0
  | 0x2C => if x.type = 2 then pack [(11, x.vector), (20, 0), (1, b2n x.poll)] else 0
  | 0x30 => if x.type = 2 then x.cplCi else 0
  | 0x34 => x.err
  | _ => 0

/-! ### The register map (R72, R73) -/

/-- Offset of the MSI-X table in BAR0, and of its PBA. -/
def msixAt (s : State) (fid : Nat) : Nat × Nat :=
  if fidFn fid = 3 then (0x8000, 0xC000) else if isNvme s fid then (0x2000, 0x3000) else if isVf fid then (0xC000, 0xE000) else (0x03F00000, 0x03F80000)

/-- A write of a word of the MSI-X table: unmasking a vector sends its held message once (R93). -/
def msixWrite (fid word v : Nat) (s : State) : State :=
  if word % 4 = 3 then
    if bit v 0 then s.modFn fid (fun f => { f with unmasked := mdel f.unmasked (word / 4) })
    else (s.modFn fid (fun f => { f with unmasked := mput f.unmasked (word / 4) () })).flushMsix fid
  else s.modFn fid (fun f => { f with msixTbl := mput f.msixTbl word v })

/-- A 32-bit write to a function with a mailbox, at its BAR0. -/
def fnRegWrite (fid off v : Nat) (s : State) : State :=
  let (tbl, _) := msixAt s fid
  let rings := (grantsOf s fid).rings
  if fidFn fid = 3 && off = 0x04 then
    { s with nv := { s.nv with ownerRec := if bit v 8 then some (bits v 0 5) else none } }
  else if off = 0x0C && fidFn fid ≠ 3 then
    let s := s.modFn fid ({ · with drvReady := bit v 0 })
    if bit v 1 then unfence fid s else s
  else if 0x100 ≤ off && off < 0x128 then
    if off = 0x11C then mbxDoorbell fid s else mbxWrite fid (off - 0x100) v s
  else if off = 0x200 then
    if isVf fid then (if bit v 0 then notifyPf fid s else s)
    else if fnRole s fid = 1 && (mget? s.fns (mkFid (fidPort fid) (bits v 0 11))).isSome && 4 ≤ bits v 0 11 then
      notifyVf (mkFid (fidPort fid) (bits v 0 11)) s
    else s
  else if off = 0x204 then
    if isVf fid then s.modFn fid (fun f => { f with exchIn := f.exchIn && !bit v 0, exchVector := bits v 16 11, exchMask := bit v 31 })
    else if fnRole s fid = 1 then s.modFn fid ({ · with exchVector := bits v 16 11, exchMask := bit v 31 })
    else s
  else if 0x210 ≤ off && off < 0x310 then
    if fnRole s fid = 1 then clearPend fid ((off - 0x210) / 4) v s else s
  else if 0x1000 ≤ off && off < 0x1000 + 64 * rings then ringWrite fid ((off - 0x1000) / 64) ((off - 0x1000) % 64) v s
  else if tbl ≤ off && off < tbl + 16 * msixSize s fid then msixWrite fid ((off - tbl) / 4) v s
  else s

/-- A write to BAR2: exchange pages take any size (R372); the registers at 0x1000 of a VF follow R373. -/
def bar2Write (fid off size v : Nat) (s : State) : State :=
  let page (f o : Nat) : State := { s with exch := wrN s.exch (f * 4096 + o) (leBytes size v) }
  if isVf fid then
    if off + size ≤ 0x1000 then page fid off
    else if size = 4 && off = 0x1000 then (if bit v 0 then notifyPf fid s else s)
    else if size = 4 && off = 0x1004 then
      s.modFn fid (fun f => { f with exchIn := f.exchIn && !bit v 0, exchVector := bits v 16 11, exchMask := bit v 31 })
    else s
  else if fidFn fid = 0 && off < 2048 * 4096 && off % 4096 + size ≤ 4096 then
    let f := mkFid (fidPort fid) (off / 4096)
    if isVf f && (mget? s.fns f).isSome then page f (off % 4096) else s
  else s

/-- A memory write to a BAR of a function (R4, R5, R72, R73). -/
def barWrite (fid bar off size v : Nat) (s : State) : State :=
  if !barOn s fid then s
  else match bar with
    | 2 => if [1, 2, 4, 8].contains size then bar2Write fid off size v s else s
    | 0 =>
      if isNvme s fid then
        if size = 4 && off = 0x380C then s.modFn fid ({ · with drvReady := bit v 0 })
        else if 0x2000 ≤ off && off < 0x2000 + 16 * 129 then
          (if size = 4 && off % 4 = 0 then msixWrite fid ((off - 0x2000) / 4) v s else s)
        else nvmeRegWrite fid off size v s
      else if size = 4 && off % 4 = 0 then fnRegWrite fid off (v % 2 ^ 32) s
      else s
    | _ => s

/-- The 32 bytes of a window entry (R75). -/
def Win.word (w : Win) : Nat :=
  pack [(1, b2n (w.state ≠ 0)), (2, w.state), (1, b2n w.rdEn), (1, b2n w.wrEn), (6, w.sizeLog2), (5, 0), (11, w.fn), (5, 0),
    (16, w.tenant), (3, w.tgtType), (5, 0), (8, w.version), (36, w.barOff), (28, 0), (48, w.tgtAddr), (16, 0),
    (32, w.inflight), (32, 0)]

/-- EXCH_STATUS of a VF (R373). -/
def vfExchStatus (f : Fn) : Nat :=
  pack [(1, b2n f.exchIn), (1, b2n f.exchOut), (14, 0), (11, f.exchVector), (4, 0), (1, b2n f.exchMask)]

/-- The blocks of BAR0 of a kind of function that hold registers: first offset and the one past them. -/
def barBlocks (nvme : Bool) (tbl pba vectors rings : Nat) (windows : Bool) : List (Nat × Nat) :=
  (if nvme then [(0, 0x1000 + 8 * 129), (0x3800, 0x3810)] else [(0, 0x1000), (0x1000, 0x1000 + 64 * rings)])
    ++ [(tbl, tbl + 16 * vectors), (pba, pba + 256)] ++ if windows then [(0x100000, 0x102000)] else []

/-- The register blocks in BAR0 of a function (R72). -/
def regBlocks (s : State) (fid : Nat) : List (Nat × Nat) :=
  let (tbl, pba) := msixAt s fid
  barBlocks (isNvme s fid) tbl pba (msixSize s fid) (grantsOf s fid).rings (fidFn fid = 0)

/-- What a read of a size or alignment other than 32 bits returns: all ones where it meets a register, zero at an address that no register has
(R4, R73). R4 prints the 32-bit value; the model gives as many ones as the read is wide (log entry 90, DESIGN CHOICE). -/
def oddRead (blocks : List (Nat × Nat)) (off size : Nat) : Nat :=
  if blocks.any (fun b => off < b.2 && b.1 < off + size) then 2 ^ (8 * size) - 1 else 0

/-- What a 32-bit read of BAR0 returns (R4 to R6, R72 to R75). A read of another size or alignment returns all ones. -/
def regRead (s : State) (fid off size : Nat) : Nat :=
  let f := fnD s fid
  let base := if isNvme s fid then 0x3800 else 0
  let b := mbxOf s (.fn fid)
  let (tbl, pba) := msixAt s fid
  let rings := (grantsOf s fid).rings
  if size ≠ 4 || off % 4 ≠ 0 then 0xFFFFFFFF
  else if fidFn fid = 3 && off < 0x10 then
    if off = 0 then pack [(8, s.eft.rcvCause), (8, s.nv.slotA.state), (8, s.nv.slotB.state)]
    else if off = 4 then (match s.nv.ownerRec with
      | some n => n % 32 + 256
      | none => 0)
    else 0
  else if off = base then pack [(16, fid), (16, tenantOf s fid)]
  else if off = base + 4 then fnCaps s fid
  else if off = base + 8 then fnStatus s fid
  else if off = base + 12 then b2n f.drvReady
  else if tbl ≤ off && off < tbl + 16 * msixSize s fid then
    let w := (off - tbl) / 4
    if w % 4 = 3 then b2n (mget? f.unmasked (w / 4)).isNone else mgetD f.msixTbl w 0
  else if pba ≤ off && off < pba + 256 then
    pack ((List.range 32).map fun i => (1, b2n (mget? f.vecPending ((off - pba) * 8 + i)).isSome))
  else if isNvme s fid then nvmeRegRead s fid off
  else if off = 0x100 then b.reqBase % 2 ^ 32
  else if off = 0x104 then b.reqBase / 2 ^ 32
  else if off = 0x108 then b.rspBase % 2 ^ 32
  else if off = 0x10C then b.rspBase / 2 ^ 32
  else if off = 0x110 then b.log2
  else if off = 0x114 then b.idxAddr % 2 ^ 32
  else if off = 0x118 then b.idxAddr / 2 ^ 32
  else if off = 0x120 then pack [(1, b2n b.enable), (1, b2n b.poll), (11, b.vector)]
  else if off = 0x124 then
    pack [(2, b.state), (1, b2n s.eft.headless), (5, 0), (5, b.err), (3, 0), (9, b.queue.length + b2n b.cur.isSome)]
  else if off = 0x204 then
    if isVf fid then vfExchStatus f
    else if fnRole s fid = 1 then
      pack [(1, b2n (!f.exchPend.isEmpty)), (15, 0), (11, f.exchVector), (4, 0), (1, b2n f.exchMask)]
    else 0
  else if 0x210 ≤ off && off < 0x310 then
    if fnRole s fid = 1 then pack ((List.range 32).map fun j => (1, b2n (mget? f.exchPend ((off - 0x210) * 8 + j)).isSome))
    else 0
  else if 0x1000 ≤ off && off < 0x1000 + 64 * rings then ringRead (ringOf s fid ((off - 0x1000) / 64)) ((off - 0x1000) % 64)
  else if fidFn fid = 0 && 0x100000 ≤ off && off < 0x102000 then
    bits (mgetD s.wins (fidPort fid * 256 + (off - 0x100000) / 32) {}).word (off % 32 * 8) 32
  else 0

/-- What a read of BAR2 returns: an exchange page's bytes at any size (R372), and at 0x1000 of a VF `EXCH_NOTIFY`, which is write-only,
and `EXCH_STATUS` (R72, R373); an unassigned address reads as zero (R73). -/
def bar2Read (s : State) (fid off size : Nat) : Nat :=
  let page (f o : Nat) : Nat := ofLe (rdN s.exch (f * 4096 + o) size)
  if isVf fid then
    if off + size ≤ 0x1000 then page fid off
    else if size ≠ 4 || off % 4 ≠ 0 then oddRead [(0x1000, 0x1008)] off size
    else if off = 0x1004 then vfExchStatus (fnD s fid)
    else 0
  else if fidFn fid = 0 && off < 2048 * 4096 && off % 4096 + size ≤ 4096 then
    let f := mkFid (fidPort fid) (off / 4096)
    if isVf f && (mget? s.fns f).isSome then page f (off % 4096) else 0
  else 0

/-- Vectors of an unprovisioned VF's MSI-X table, by its PF (R71). -/
def unprovVectors (pf : Nat) : Nat := if pf = 2 then 129 else 256

/-- What a 32-bit read of an unprovisioned VF's BAR0 returns: its identity registers, with PROVISIONED and RINGS 0 (R70, R74), and its
MSI-X table. It has no FID, and FN_ID reads 0. Of a storage VF's controller registers, of which R70 names `CC.EN` and `CSTS.RDY` alone, every
other reads 0, `CAP` and `VS` among them (log entry 90, DESIGN CHOICE). -/
def unprovRead (s : State) (pf : Nat) (u : Unprov) (off size : Nat) : Nat :=
  let base := if pf = 2 then 0x3800 else 0
  let (tbl, pba) := if pf = 2 then (0x2000, 0x3000) else (0xC000, 0xE000)
  if pf = 2 && off < 0x1000 && (size = 4 || size = 8) && off % size = 0 then (if off = 0x14 then b2n u.ccEn else 0)
  else if size ≠ 4 || off % 4 ≠ 0 then oddRead (barBlocks (pf = 2) tbl pba (unprovVectors pf) 0 false) off size
  else if off = base + 4 then pack [(14, 0), (2, 2), (1, b2n (pf = 1)), (1, 1)]
  else if off = base + 8 then pack [(2, 0), (1, b2n (!u.fn.bme)), (1, 0), (1, b2n s.eft.headless)]
  else if off = base + 12 then b2n u.fn.drvReady
  else if tbl ≤ off && off < tbl + 16 * unprovVectors pf then
    let w := (off - tbl) / 4
    if w % 4 = 3 then b2n (mget? u.fn.unmasked (w / 4)).isNone else mgetD u.fn.msixTbl w 0
  else if pba ≤ off && off < pba + 256 then
    pack ((List.range 32).map fun i => (1, b2n (mget? u.fn.vecPending ((off - pba) * 8 + i)).isSome))
  else 0

/-- An unprovisioned VF that SR-IOV enables (R70). -/
def unprovThere (s : State) (port pf vf : Nat) : Bool :=
  let x := fnD s (mkFid port pf)
  hostPortExists s port && x.vfEnable && vf ≤ x.numVfs
    && !s.fns.any (fun (i, f) => fidPort i = port && isVf i && f.pf = pf && f.vf = vf)

/-- The record of an unprovisioned VF. -/
def unprovOf (s : State) (port pf vf : Nat) : Unprov :=
  mgetD s.unprov (unprovKey port pf vf) { fn := { pf, vf, ready := true } }

/-- The state with an unprovisioned VF's record changed. -/
def State.modUnprov (s : State) (port pf vf : Nat) (f : Unprov → Unprov) : State :=
  { s with unprov := mput s.unprov (unprovKey port pf vf) (f (unprovOf s port pf vf)) }

/-- A memory read of `size` bytes of a function's BAR0 or BAR2: none where it completes with Unsupported Request (R77, R88, R89), all ones in
the safe state (R432) and where the size or the alignment is not the register's (R4). -/
def barRead (s : State) (fn : FnRef) (bar off size : Nat) : Option Nat :=
  let port := match fn with
    | .fid f => fidPort f
    | .unprov p _ _ => p
  if s.phase = .safe then some (2 ^ (8 * size) - 1)
  else if !(hostPort s port).linkUp || (s.phase ≠ .running && s.phase ≠ .recovery) then none
  else match fn with
    | .fid f =>
      if !barOn s f then none
      else if bar = 0 then
        if isNvme s f && size = 8 && (off = 0 || off = 0x28 || off = 0x30) then
          some (nvmeRegRead s f off + 2 ^ 32 * nvmeRegRead s f (off + 4))
        else some (if size = 4 && off % 4 = 0 then regRead s f off 4 else oddRead (regBlocks s f) off size)
      else if bar = 2 then some (if [1, 2, 4, 8].contains size then bar2Read s f off size else oddRead [(0x1000, 0x1008)] off size)
      else none
    | .unprov p pf vf =>
      let u := unprovOf s p pf vf
      if !unprovThere s p pf vf || !u.fn.mse then none
      else if bar = 0 then some (unprovRead s pf u off size)
      else if bar = 2 then some 0
      else none

/-! ### Windows (R75 to R79) -/

/-- A window entry. -/
def winOf (s : State) (port i : Nat) : Win := mgetD s.wins (port * 256 + i) {}

/-- The state with a window entry changed. -/
def State.modWin (s : State) (port i : Nat) (f : Win → Win) : State := { s with wins := mupd s.wins (port * 256 + i) {} f }

/-- The ACTIVE entry that covers an access to a function's BAR4, with its index (R77). -/
def winFor (s : State) (fid off len : Nat) : Option (Nat × Win) :=
  (List.range 256).findSome? fun i =>
    let w := winOf s (fidPort fid) i
    if w.state = 1 && w.fn = fidFn fid && w.barOff ≤ off && off + len ≤ w.barOff + 2 ^ w.sizeLog2 then some (i, w) else none

/-- BAR4 size of a function, 0 when it has none (R67). -/
def bar4Size (s : State) (fid : Nat) : Nat :=
  let h := hostPort s (fidPort fid)
  let l := match fidFn fid with
    | 0 => h.bar4Pf0
    | 1 => h.bar4Pf1
    | 2 => 0
    | _ => if isNvme s fid then 0 else h.bar4Vf
  if l = 0 then 0 else 2 ^ l

/-- A TLP latched to a window entry: a write changes its target's bytes, a read returns them (R77). A register-block target has no
behaviour the spec gives: a read returns free bytes and a write changes nothing (log entry 14). -/
def winAccess (fid off len : Nat) (write : Bool) (data : List Byte) (i : Nat) (w : Win) (stalled : Bool) (s : State) : State :=
  let a := w.tgtType * 2 ^ 48 + w.tgtAddr + (off - w.barOff)
  let s := if stalled then s.modWin (fidPort fid) i (fun w => { w with inflight := w.inflight + 1 }) else s
  if w.tgtType = 2 then
    if write then s
    else
      let (v, s) := s.draw
      s.emit (.barData fid (leBytes len v))
  else if write then { s with region := wrN s.region a data }
  else s.emit (.barData fid (rdN s.region a len))

end Sys2Proof.Machine
end

