-- ==== Sys2Proof/Machine/Flags.lean ====
section
/-! DEFINITION. The two ALUs of an action engine: results and flags (R176, R180). -/

namespace Sys2Proof.Machine

/-- The low 32 bits. -/
def w32 (n : Nat) : Nat := n % 2 ^ 32

/-- `a` rotated left by `k` of 32 places. -/
def rol32 (a k : Nat) : Nat := w32 (a * 2 ^ k) ||| a / 2 ^ (32 - k)

/-- `a` shifted right arithmetically by `k` places. -/
def sar32 (a k : Nat) : Nat := if bit a 31 then 2 ^ 32 - 1 - (2 ^ 32 - 1 - a) / 2 ^ k else a / 2 ^ k

/-- Leading zeros of a 32-bit number. -/
def clz32 (a : Nat) : Nat := ((List.range 32).find? (fun i => bit a (31 - i))).getD 32

/-- The result of an ALU operation on two 32-bit numbers, and its carry: the carry out of a sum, the borrow of a difference, and 0 for
an operation that has neither (R176, R180; log entry 25). A reserved operation gives 0; no loaded word holds one (R197). -/
def aluOp (op a b : Nat) : Nat × Bool :=
  let k := b % 32
  match op with
  | 0x01 => (w32 (a + b), 2 ^ 32 ≤ a + b)
  | 0x02 => (w32 (a + 2 ^ 32 - b), a < b)
  | 0x03 => (a &&& b, false)
  | 0x04 => (a ||| b, false)
  | 0x05 => (a ^^^ b, false)
  | 0x06 => (a &&& (2 ^ 32 - 1 - b), false)
  | 0x07 => (w32 (a * 2 ^ k), false)
  | 0x08 => (a / 2 ^ k, false)
  | 0x09 => (sar32 a k, false)
  | 0x0A => (rol32 a k, false)
  | 0x0B => (a, false)
  | 0x0C => (min a b, false)
  | 0x0D => (max a b, false)
  | 0x0E => (ofLe (beBytes 4 a), false)
  | 0x0F => (min (2 ^ 32 - 1) (a + b), 2 ^ 32 ≤ a + b)
  | 0x10 => (a - b, a < b)
  | 0x11 => (bits (a / 2 ^ k) 0 (b / 32 % 32 + 1), false)
  | 0x12 => (popcount 32 a, false)
  | 0x13 => (clz32 a, false)
  | _ => (0, false)

/-- The flags that a result leaves (R176). -/
def aluFlags (r : Nat × Bool) : AluFlags := { z := r.1 = 0, n := bit r.1 31, c := r.2 }

end Sys2Proof.Machine
end

