-- ==== Sys2Proof/Machine/Operands.lean ====
section
/-! DEFINITION. The microword: its fields, its operands and conditions, and what a word must wait for (R175 to R182, R189 to R193). -/

namespace Sys2Proof.Machine

/-! ### Fields (R175) -/

def uSeq (w : Nat) : Nat := bits w 188 4
def uCond (w : Nat) : Nat := bits w 182 6
def uTgt (w : Nat) : Nat := bits w 167 15
def uAOp (w : Nat) : Nat := bits w 162 5
def uASrcA (w : Nat) : Nat := bits w 156 6
def uASrcB (w : Nat) : Nat := bits w 150 6
def uADst (w : Nat) : Nat := bits w 145 5
def uBOp (w : Nat) : Nat := bits w 140 5
def uBSrcA (w : Nat) : Nat := bits w 134 6
def uBSrcB (w : Nat) : Nat := bits w 128 6
def uBDst (w : Nat) : Nat := bits w 123 5
def uImm (w : Nat) : Nat := bits w 107 16
def uXOff (w : Nat) : Nat := bits w 98 9
def uXWid (w : Nat) : Nat := bits w 92 6
def uXDst (w : Nat) : Nat := bits w 87 5
def uLTbl (w : Nat) : Nat := bits w 82 5
def uLKey (w : Nat) : Nat := bits w 78 4
def uLGo (w : Nat) : Bool := bit w 77
def uMdSel (w : Nat) : Nat := bits w 71 6
def uMdSrc (w : Nat) : Nat := bits w 68 3
def uRwOp (w : Nat) : Nat := bits w 64 4
def uRwArg (w : Nat) : Nat := bits w 56 8
def uCntOp (w : Nat) : Nat := bits w 53 3
def uCntIdx (w : Nat) : Nat := bits w 50 3
def uPolGo (w : Nat) : Bool := bit w 49
def uPolIdx (w : Nat) : Nat := bits w 46 3
def uQsel (w : Nat) : Nat := bits w 43 3
def uCsum (w : Nat) : Nat := bits w 40 3
def uCkv (w : Nat) : Nat := bits w 37 3
def uCry (w : Nat) : Nat := bits w 34 3
def uPunt (w : Nat) : Nat := bits w 32 2
def uMemOp (w : Nat) : Nat := bits w 29 3
def uMemAddr (w : Nat) : Nat := bits w 26 3
def uHashSel (w : Nat) : Nat := bits w 23 3
def uHashSeed (w : Nat) : Nat := bits w 21 2
def uTs (w : Nat) : Nat := bits w 19 2
def uMirror (w : Nat) : Nat := bits w 16 3
def uLb (w : Nat) : Nat := bits w 13 3
def uDrop (w : Nat) : Bool := bit w 12

/-! ### Operands (R179) -/

/-- A general register. -/
def gReg (c : Ctx) (r : Nat) : Nat := mgetD c.g r 0

/-- An ALU source operand. -/
def srcValue (c : Ctx) (w code : Nat) : Nat :=
  let k := c.pkt
  if code < 0x1C then gReg c code
  else match code with
    | 0x1C => c.cur
    | 0x1E => uImm w
    | 0x1F => uImm w * 65536
    | 0x20 => 2 ^ 32 - 1
    | 0x21 => curCode k c.cur
    | 0x22 => curOff k c.cur
    | 0x23 => k.parse.hdrs.length
    | 0x24 => b2n c.hit
    | 0x25 => c.lkDest
    | 0x26 => c.lkArg
    | 0x27 => c.lkState
    | 0x28 => k.vn
    | 0x29 => k.tenant
    | 0x2A => k.fid
    | 0x2B => k.inPort
    | 0x2C => k.arg
    | 0x2D => k.rxLen
    | 0x2E => k.cls
    | 0x2F => k.colour
    | 0x30 => c.dest
    | 0x31 => c.pol.getD 0
    | 0x32 => c.hash
    | 0x33 => c.mem
    | 0x34 => c.cry.getD 0
    | 0x35 => c.ckv.getD 0
    | 0x36 => k.pad
    | _ => 0

/-- A write of a destination: G0–G27 and CUR; NULL discards (R179). -/
def writeDst (c : Ctx) (dst v : Nat) : Ctx :=
  if dst < 0x1C then { c with g := mput c.g dst (w32 v) }
  else if dst = 0x1C then { c with cur := min v 64 }
  else c

/-- A condition (R178). The result of an asynchronous operation that was never issued reads zero (R176), which is green, succeeded and passed;
a checksum that was not verified is neither good nor bad. -/
def condHolds (c : Ctx) (cond : Nat) : Bool :=
  let k := c.pkt
  let field := levelField k.parse k.bytes k.parse.levels
  if 0x20 ≤ cond then bit (gReg c 0) (cond - 0x20)
  else match cond with
    | 0x00 => true
    | 0x01 => c.fa.z
    | 0x02 => !c.fa.z
    | 0x03 => c.fa.n
    | 0x04 => c.fa.c
    | 0x05 => c.fb.z
    | 0x06 => !c.fb.z
    | 0x07 => c.fb.n
    | 0x08 => c.fb.c
    | 0x09 => c.hit
    | 0x0A => !c.hit
    | 0x0B => c.pol.getD 0 = 0
    | 0x0C => c.pol = some 1
    | 0x0D => c.pol = some 2
    | 0x0E => k.parse.hdrs.length ≤ c.cur
    | 0x0F => k.parse.depth ≠ 0
    | 0x10 => match k.src with
      | .host .. => true
      | _ => false
    | 0x11 => match k.src with
      | .inject _ => true
      | _ => false
    | 0x12 => 0 < k.parse.levels
    | 0x13 => bit (field 0x0B) 40
    | 0x14 => field 0x14 = 1
    | 0x15 => field 0x14 = 2
    | 0x16 => c.cry.getD 0 = 0
    | 0x17 => c.cry.getD 0 ≠ 0
    | 0x18 => c.ckv.getD 0 = 0
    | 0x19 => c.ckv.getD 0 ≠ 0
    | 0x1A => c.swapped
    | 0x1B => c.csum = some true
    | 0x1C => c.csum = some false
    | _ => false

/-! ### What a word waits for (R176) -/

/-- The kind of operation whose result a source operand is (0 lookup, 1 policer, 2 hash, 3 cipher, 4 check value, 5 memory). -/
def srcKind (code : Nat) : Option Nat :=
  match code with
  | 0x24 | 0x25 | 0x26 | 0x27 => some 0
  | 0x2F | 0x31 => some 1
  | 0x32 => some 2
  | 0x33 => some 5
  | 0x34 => some 3
  | 0x35 => some 4
  | _ => none

/-- The kind of operation whose result a condition tests. -/
def condKind (cond : Nat) : Option Nat :=
  match cond with
  | 0x09 | 0x0A => some 0
  | 0x0B | 0x0C | 0x0D => some 1
  | 0x16 | 0x17 => some 3
  | 0x18 | 0x19 => some 4
  | 0x1A => some 5
  | _ => none

/-- The source operands that a word's fields read. -/
def srcsRead (w : Nat) : List Nat :=
  (if uAOp w = 0 then [] else [uASrcA w, uASrcB w]) ++ (if uBOp w = 0 then [] else [uBSrcA w, uBSrcB w])
  ++ (if uMdSrc w = 2 then [uASrcA w] else if uMdSrc w = 3 then [uBSrcA w] else [])
  ++ (if [1, 2, 3, 8, 0xA].contains (uRwOp w) then [uASrcB w] else [])
  ++ (if uCntOp w = 3 then [uBSrcB w] else [])
  ++ (if uQsel w = 2 then [uASrcB w] else if uQsel w = 3 then [0x26] else [])
  ++ (if [2, 3, 5, 6].contains (uMemOp w) then [uBSrcB w] else [])

/-- The kinds that a word issues. -/
def kindsIssued (w : Nat) : List Nat :=
  (if uLGo w then [0] else []) ++ (if uPolGo w then [1] else []) ++ (if uHashSel w = 0 then [] else [2])
  ++ (if uCry w = 0 then [] else [3]) ++ (if uCkv w = 0 then [] else [4]) ++ (if uMemOp w = 0 then [] else [5])

/-- The packet ends at this word (R177, R185). -/
def wordEnds (w : Nat) : Bool := uSeq w = 6 || uSeq w = 7 || uDrop w

/-- The kinds that must not be outstanding when the word runs. A flow-state operation waits for the lookup it acts on, and the end of a
packet for everything; a read of COLOUR waits for the policer whose result replaces it (R211). -/
def waitsFor (w : Nat) : List Nat :=
  if wordEnds w then [0, 1, 2, 3, 4, 5]
  else (srcsRead w).filterMap srcKind ++ kindsIssued w ++ (if uSeq w = 2 then (condKind (uCond w)).toList else [])
    ++ (if 4 ≤ uMemOp w then [0] else []) ++ (if 4 ≤ uMdSrc w && uMdSel w = 0x32 then [1] else [])

/-- A context is stalled by a word. -/
def stalled (c : Ctx) (w : Nat) : Bool := c.ops.any (fun o => (waitsFor w).contains o.kind)

/-! ### Fetch (R189 to R191) -/

/-- The address fetched for a PC: a match register of the packet's Pad redirects a ROM address (R190). -/
def fetchAddr (s : State) (k : Pkt) (pc : Nat) : Nat :=
  if pc < 0x4000 then
    let p := padOf s k.pad
    match ((List.range 32).map (fun i => mgetD p.matchRegs (k.pipe * 32 + i) 0)).find? (fun r => bit r 15 && bits r 0 15 = pc) with
    | some r => bits r 16 15
    | none => pc
  else pc

/-- The word at a fetched address; none where nothing is mapped or loaded (R187 code 4). A ROM word is not printed by the spec. -/
def fetchWord (s : State) (k : Pkt) (a : Nat) : Option Nat :=
  let p := padOf s k.pad
  if a < 0x4000 then some (Config.romWord a).toNat
  else if a < 0x4200 then some (mgetD p.patch (k.pipe * 512 + (a - 0x4000)) 0)
  else if 0x6000 ≤ a && a < 0x7000 then mget? p.cust (k.pipe * 4096 + (a - 0x6000))
  else none

/-- An address of the export table that no match register redirects: its routine runs as a whole (R194; log entry 26). -/
def isExport (a : Nat) : Bool := a < 0x40

/-- Customer code (R192). -/
def isCustomer (a : Nat) : Bool := 0x6000 ≤ a

/-! ### Customer windows (R193) -/

def custWin (s : State) (k : Pkt) : CustWin := mgetD (padOf s k.pad).wins k.pipe {}

/-- The counter pair an index names; none outside the window. -/
def cntIndex (s : State) (k : Pkt) (cust : Bool) (i : Nat) : Option Nat :=
  let w := custWin s k
  if cust then (if i < w.cntCount then some (16384 + w.cntBase + i) else none) else some (i % 32768)

/-- The policer an index names. -/
def polIndex (s : State) (k : Pkt) (cust : Bool) (i : Nat) : Option Nat :=
  let w := custWin s k
  if cust then (if i < w.polCount then some (w.polBase + i) else none) else some (i % 524288)

/-- The queue an index names. -/
def queIndex (s : State) (k : Pkt) (cust : Bool) (i : Nat) : Option Nat :=
  let w := custWin s k
  let i := i % 131072
  if cust then (if i < w.queCount then some (w.queBase + i) else none) else some i

/-- The scratch word an address names: 4-byte-aligned (R185; log entry 27). -/
def scrIndex (s : State) (k : Pkt) (cust : Bool) (i : Nat) : Option Nat :=
  let w := custWin s k
  if cust then (if i + 4 ≤ w.scrSize then some ((0x8000 + w.scrBase + i) / 4 * 4) else none) else some (i % 65536 / 4 * 4)

end Sys2Proof.Machine
end

