-- ==== Sys2Proof/Machine/Images.lean ====
section
/-! DEFINITION. Images: firmware slots and their components, and microcode images, with their checks and signatures (R192, R195 to R197,
R392, R393, R400). -/

namespace Sys2Proof.Machine

/-! ### Slot images (R392, R393) -/

def sliceB (bs : List Byte) (off n : Nat) : List Byte := (bs.drop off).take n

/-- A slot's image header is in order: MAGIC, FORMAT, KIND and IMAGE_LEN (R393 step 1). -/
def imageOk (img : List Byte) : Bool :=
  let len := ofLe (sliceB img 0x18 4)
  ofLe (sliceB img 0 4) = 0x57465A45 && ofLe (sliceB img 4 2) = 1 && ofLe (sliceB img 6 1) = 1
    && len % 16 = 0 && len ≤ 5242880 && len ≤ img.length && 0x400 + 144 ≤ len

/-- The bytes the digest covers, the slot word taken as zero. -/
def signedPart (img : List Byte) : List Byte :=
  let len := ofLe (sliceB img 0x18 4)
  img.take 0x10 ++ List.replicate 8 0 ++ sliceB img 0x18 (len - 144 - 0x18)

/-- The root key that a staged image verifies under, revocation left aside (R393 steps 2 to 4). -/
def imageKey (img : List Byte) : Option Nat :=
  if !imageOk img then none
  else
    let len := ofLe (sliceB img 0x18 4)
    let hash := BitVec.ofNat 384 (ofBe (sliceB img (len - 144) 48))
    let key? := ((List.range 4).map (fun i => sliceB img (0x240 + 96 * i) 96)).find? (fun k => sha384 k = hash)
    match key? with
    | none => none
    | some k =>
      if ecdsaVerify k (sha384 (signedPart img)) (sliceB img (len - 96) 96) then
        (List.range 4).find? (fun i => Config.rootHash i = hash)
      else none

/-- The root key of a slot's image, revocation left aside. -/
def Slot.rawKey (sl : Slot) : Option Nat := match sl.factory with
  | some f => some f.key
  | none => imageKey sl.img

/-- The root key under which a slot verifies, given the revocation fuses. -/
def Slot.key (sl : Slot) (revoke : Nat) : Option Nat := match sl.rawKey with
  | some k => if bit revoke k then none else some k
  | none => none

def Slot.version (sl : Slot) : Nat := match sl.factory with
  | some f => f.version
  | none => ofLe (sliceB sl.img 8 8)

def Slot.stateFmt (sl : Slot) : Nat := match sl.factory with
  | some f => f.stateFmt
  | none => ofLe (sliceB sl.img 0x2C 4)

def Slot.digest (sl : Slot) : Nat := match sl.factory with
  | some _ => Config.factoryDigest.toNat
  | none => (sha384 (signedPart sl.img)).toNat

/-- The public keys of a slot's key table; the delivered image's holds the root keys (R392; log entry 5). -/
def Slot.keyTable (sl : Slot) : List (List Byte) := match sl.factory with
  | some _ => (List.range 4).map Config.rootPub
  | none => (List.range 4).map (fun i => sliceB sl.img (0x240 + 96 * i) 96)

def slotOf (s : State) (i : Nat) : Slot := if i = 0 then s.nv.slotA else s.nv.slotB

/-- The pipelines of a mask. -/
def pipesOf (pipes : Nat) : List Nat := setPositions 9 pipes

/-- A record of a map, absent when it is as at reset. -/
def putRec (m : List (Nat × Nat)) (k v reset : Nat) : List (Nat × Nat) := if v = reset then mdel m k else mput m k v

/-! ### Microcode images (R195 to R197) -/

def imgKind (b : List Byte) : Nat := at8 b 6
def imgWords (b : List Byte) : Nat := ofLe (sliceB b 0x0C 2)
def imgMatches (b : List Byte) : Nat := ofLe (sliceB b 0x0E 2)
def imgVersion (b : List Byte) : Nat := ofLe (sliceB b 0x10 8)
def imgWord (b : List Byte) (i : Nat) : Nat := ofLe (sliceB b (0xC0 + 32 * i) 24)
def imgMatch (b : List Byte) (i : Nat) : Nat := ofLe (sliceB b (0x40 + 4 * i) 4)
/-- The bytes that the signature covers. -/
def imgSigned (b : List Byte) : List Byte := b.take (b.length - 144)

/-- The 144-byte trailer of an image verifies under an unrevoked root key, or under an enrolled customer key (R195, R196, R341). -/
def trailerOk (s : State) (root : Bool) (b : List Byte) : Bool :=
  let hash := BitVec.ofNat 384 (ofBe (sliceB b (b.length - 144) 48))
  let sig := sliceB b (b.length - 96) 96
  let good (key : List Byte) : Bool := sha384 key = hash && ecdsaVerify key (sha384 (imgSigned b)) sig
  144 ≤ b.length &&
    if root then (List.range 4).any (fun i => !bit s.nv.revoke i && Config.rootHash i = hash && good (Config.rootPub i))
    else s.nv.custKeys.any (fun e => good e.2.key)

/-- A microcode image's signature: a patch set's under a root key, a customer image's under an enrolled key (R196). -/
def imgSigOk (s : State) (b : List Byte) : Bool := trailerOk s (imgKind b = 2) b

/-- The image's header, sizes and reserved bytes are in order; else the offset at fault in it. -/
def imgHeaderBad (b : List Byte) : Option Nat :=
  let n := imgWords b
  if ofLe (sliceB b 0 4) ≠ 0x55435A45 then some 0
  else if ofLe (sliceB b 4 2) ≠ 1 then some 4
  else if imgKind b ≠ 1 && imgKind b ≠ 2 then some 6
  else if at8 b 7 ≠ 0 then some 7
  else if ofLe (sliceB b 8 4) ≠ Config.romId.toNat then some 8
  else if (if imgKind b = 1 then 4096 else 512) < n || b.length ≠ 0xC0 + 32 * n + 144 then some 0x0C
  else if 32 < imgMatches b || (imgKind b = 1 && imgMatches b ≠ 0) then some 0x0E
  else if ofLe (sliceB b 0x18 40) ≠ 0 then some 0x18
  else none

/-- ALU operands and operations of a word that are reserved (R179, R180). -/
def wordAluBad (w : Nat) : Bool :=
  0x14 ≤ uAOp w || 0x14 ≤ uBOp w || [uASrcA w, uASrcB w, uBSrcA w, uBSrcB w].any (0x37 ≤ ·)
    || 0x1E ≤ uADst w || 0x1E ≤ uBDst w

/-- The metadata fields that a word may read (R126, R179). -/
def mdReadable (sel : Nat) : Bool := sel ≤ 0x23 || (0x28 ≤ sel && sel ≤ 0x2D) || (0x30 ≤ sel && sel ≤ 0x34) || sel = 0x38

/-- The remaining reserved values of a word (R175, R177, R178, R181 to R186). -/
def wordFieldBad (w : Nat) : Bool :=
  8 ≤ uSeq w || (0x1D ≤ uCond w && uCond w < 0x20) || 33 ≤ uXWid w || 9 ≤ uLTbl w || 3 ≤ uLKey w
    || ((1 ≤ uMdSrc w && uMdSrc w ≤ 3) && uMdSel w ≠ 0x31 && uMdSel w ≠ 0x32 && uMdSel w ≠ 0x38)
    || (4 ≤ uMdSrc w && (uXWid w ≠ 0 || !mdReadable (uMdSel w)))
    || ((uXWid w ≠ 0 || 4 ≤ uMdSrc w) && 0x1C ≤ uXDst w)
    || uRwOp w = 0xF || 4 ≤ uCntOp w || 4 ≤ uQsel w || 5 ≤ uCsum w || 4 ≤ uCkv w || 3 ≤ uCry w || uPunt w = 3
    || (uPunt w = 2 && 0xF0 ≤ uImm w % 256) || uMemOp w = 7 || 5 ≤ uHashSel w || 2 ≤ uHashSeed w || uTs w = 3 || 2 ≤ uLb w
    || bits w 0 12 ≠ 0

/-- The registers that a word writes (R176, R179, R181, R185). -/
def wordWrites (w : Nat) : List Nat :=
  (if uAOp w ≠ 0 && uADst w ≠ 0x1D then [uADst w] else []) ++ (if uBOp w ≠ 0 && uBDst w ≠ 0x1D then [uBDst w] else [])
    ++ (if uXWid w ≠ 0 || 4 ≤ uMdSrc w then [uXDst w] else []) ++ (if uTs w = 2 then [26, 27] else [])

/-- An address of the region that a word's own transfers must stay in: the customer store, or the vendor's ROM and patch RAM
(R189, R192, R197; log entry 32). -/
def inRegion (customer : Bool) (a : Nat) : Bool :=
  if customer then 0x6000 ≤ a && a ≤ 0x6FFF else a ≤ 0x41FF

/-- The word transfers control where its region, or R192, does not allow. -/
def wordTargetBad (customer : Bool) (a w : Nat) : Bool :=
  let t := uTgt w
  match uSeq w with
  | 0 => !inRegion customer (a + 1)
  | 1 => !inRegion customer t
  | 2 => !inRegion customer t || !inRegion customer (a + 1)
  | 3 => !(inRegion customer t || (customer && t < 0x40))
  | 5 => !inRegion customer t || !inRegion customer (t + 103)
  | _ => false

/-- Customer code uses what R192 keeps from it. -/
def wordPrivBad (customer : Bool) (w : Nat) : Bool := customer && uLGo w && (uLTbl w = 7 || uLTbl w = 8)

/-- A word that `UCODE_LOAD` refuses (R197). -/
def wordBad (customer : Bool) (a w : Nat) : Bool :=
  wordAluBad w || wordFieldBad w || !(wordWrites w).Nodup || wordTargetBad customer a w || wordPrivBad customer w

/-- A patch set's match entries: reserved bits, ranges, and no two on one ROM address (R190, R197). -/
def matchesBad (b : List Byte) : Bool :=
  let l := (List.range 32).map (imgMatch b)
  let on := l.filter (bit · 15)
  l.any (bit · 31) || !(on.map (bits · 0 15)).Nodup
    || on.any (fun m => 0x4000 ≤ bits m 0 15 || bits m 16 15 < 0x4000 || 0x41FF < bits m 16 15) || on.length ≠ imgMatches b

/-- The words and entries of a signed image: the DETAIL of the fault that stops its load, for BAD_PARAM (R197). -/
def imageFault (b : List Byte) : Option Nat :=
  let customer := imgKind b = 1
  match imgHeaderBad b with
  | some o => some (32 + o)
  | none =>
    let base := if customer then 0x6000 else 0x4000
    match (List.range (imgWords b)).find? (fun i =>
        ofLe (sliceB b (0xC0 + 32 * i + 24) 8) ≠ 0 || wordBad customer (base + i) (imgWord b i)) with
    | some i => some i
    | none => if !customer && matchesBad b then some (32 + 0x40) else none

/-- The Pad with an image loaded on a pipeline (R197 steps 3 and 4). -/
def loadImage (u : UcodeReq) (pipe : Nat) (p : Pad) : Pad :=
  let b := u.image
  let id : UcodeId := { version := imgVersion b, digest := (sha384 (imgSigned b)).toNat }
  let words := (List.range (imgWords b)).map (imgWord b)
  let load (m : List (Nat × Nat)) (size : Nat) (keep0 : Bool) : List (Nat × Nat) :=
    let rest := m.filter (fun e => e.1 / size ≠ pipe)
    words.zipIdx.foldl (fun m e => if keep0 || e.1 ≠ 0 then mput m (pipe * size + e.2) e.1 else m) rest
  if imgKind b = 1 then
    { p with
      cust := load p.cust 4096 true
      wins := mput p.wins pipe { cntBase := u.cntBase, cntCount := u.cntCount, polBase := u.polBase, polCount := u.polCount
                                 queBase := u.queBase, queCount := u.queCount, scrBase := u.scrBase, scrSize := u.scrSize }
      custId := mput p.custId pipe id }
  else
    { p with
      patch := load p.patch 512 false
      matchRegs := (List.range 32).foldl (fun m i => putRec m (pipe * 32 + i) (imgMatch b i) 0) p.matchRegs
      patchId := mput p.patchId pipe id }

/-! ### Service images (R340, R341) -/

/-- A segment: image offset, load address, file size, memory size. -/
structure Segment where
  /-- M R340: image offset. -/
  off : Nat
  /-- M R340: load address. -/
  load : Nat
  /-- M R340: file size. -/
  file : Nat
  /-- M R340: memory size. -/
  mem : Nat

def imgSeg (b : List Byte) (i : Nat) : Segment :=
  let f (k : Nat) : Nat := ofLe (sliceB b (0x40 + 32 * i + 8 * k) 8)
  { off := f 0, load := f 1, file := f 2, mem := f 3 }

def imgSegs (b : List Byte) : List Segment := (List.range (ofLe (sliceB b 0x18 4))).map (imgSeg b)
def imgEntry (b : List Byte) : Nat := ofLe (sliceB b 0x10 8)

/-- The header is a service image's. -/
def svcHeader (b : List Byte) : Bool :=
  ofLe (sliceB b 0 4) = 0x4B535A45 && ofLe (sliceB b 4 2) = 1 && 1 ≤ ofLe (sliceB b 0x18 4) && ofLe (sliceB b 0x18 4) ≤ 16
    && 0x40 + 32 * ofLe (sliceB b 0x18 4) + 144 ≤ b.length

/-- Two segments overlap in memory. -/
def segsMeet (a b : Segment) : Bool := a.load < b.load + b.mem && b.load < a.load + a.mem

/-- The segments lie in the region and in the image, apart from one another, and ENTRY in one of them. -/
def svcFits (q : Part) (b : List Byte) : Bool :=
  let ss := imgSegs b
  ss.all (fun g => q.inRegion g.load g.mem && g.file ≤ g.mem && g.off + g.file + 144 ≤ b.length)
    && (List.range ss.length).all (fun i => (List.range i).all (fun j => !segsMeet (imgSeg b i) (imgSeg b j)))
    && ss.any (fun g => g.load ≤ imgEntry b && imgEntry b < g.load + g.mem)
    && ofLe (sliceB b 0x20 8) ≤ q.regionMib * 2 ^ 20

/-- A service image put into a partition: the region zeroed, the segments copied, VERSION and the digest recorded (R341). -/
def loadSvc (part : Nat) (b : List Byte) (s : State) : State :=
  let s := (imgSegs b).foldl (fun s g => partWr part g.load (sliceB b g.off g.file) s) (partZero part s)
  let v : ServiceImage := { version := ofLe (sliceB b 8 8), digest := (sha384 b).toNat, entry := imgEntry b }
  s.modPart part ({ · with image := some v })

/-! ### Patch sets of a slot image (R392, R393, R400, R403) -/

/-- The components of a TYPE in a staged image: each with its TARGET. -/
def imgComps (img : List Byte) (type : Nat) : List (Nat × List Byte) :=
  ((List.range (min 32 (ofLe (sliceB img 0x28 4)))).map (fun i => sliceB img (0x40 + 16 * i) 16)).filterMap fun e =>
    if ofLe (sliceB e 0 2) = type then some (ofLe (sliceB e 2 2), sliceB img (ofLe (sliceB e 4 4)) (ofLe (sliceB e 8 4))) else none

/-- The patch sets of a slot's image: each with the pipelines of its TARGET. -/
def Slot.patchSets (sl : Slot) : List (Nat × List Byte) := match sl.factory with
  | some f => f.patches
  | none => imgComps sl.img 2

/-- A component's own trailer verifies: it names a key of the slot's table whose root key is unrevoked (R393). -/
def compSigned (s : State) (sl : Slot) (b : List Byte) : Bool :=
  let hash := BitVec.ofNat 384 (ofBe (sliceB b (b.length - 144) 48))
  sl.keyTable.any (fun k => sha384 k = hash) && trailerOk s true b

/-- A component that does not verify is not loaded and leaves a fault record, whose DETAIL is a free value: the spec does not say what it
holds for this SOURCE (R393, R427; log entry 22). -/
def compFault (s : State) : State :=
  let (d, s) := s.draw
  s.record 8 0 10 0 (domOf s .eft).state.num d

/-- A patch set verifies, and the image is in order (R197, R393). -/
def patchSetOk (s : State) (sl : Slot) (b : List Byte) : Bool :=
  compSigned s sl b && imgKind b = 2 && (imageFault b).isNone

/-- The patch sets of a slot's image are written into Pads; one that does not verify is not loaded (R393). -/
def installPatches (sl : Slot) (pads : List Nat) (s : State) : State :=
  sl.patchSets.foldl (fun s e =>
    if patchSetOk s sl e.2 then
      pads.foldl (fun s b => s.modPad b (fun p => (pipesOf e.1).foldl (fun p k => loadImage { image := e.2 } k p) p)) s
    else compFault s) s

/-- A vendor partition is loaded from the running slot's image: from the component that names it, TARGET 0 for the first; with none, or one
that does not verify, it holds no image (R393, R400, R403; log entry 20). The images that the delivered slot carries are free (log entry 63). -/
def loadVendor (sl : Slot) (p : Nat) (s : State) : State :=
  match sl.factory, part? s p with
  | some _, _ =>
    let (v, s) := s.drawBelow (2 ^ 64)
    let (d, s) := s.drawBelow (2 ^ 384)
    let (a, s) := s.drawBelow (2 ^ 64)
    s.modPart p ({ · with image := some { version := v, digest := d, entry := a } })
  | none, some q =>
    match (imgComps sl.img 1).find? (fun e => e.1 + 1 = p) with
    | some (_, b) =>
      if compSigned s sl b && svcHeader b && at8 b 6 = 1 && svcFits q b then loadSvc p b s
      else compFault (s.modPart p ({ · with image := none }))
    | none => s.modPart p ({ · with image := none })
  | none, none => s

/-- A FULL firmware activation installs its patch sets through the shadow Pad, a copy of the active one, and leaps (R226, R400). -/
def fwLeap (slot : Nat) (s : State) : State :=
  let (spread, s) := s.drawBelow 2001
  let s := s.modPad (shadowBit s) (fun _ => padOf s s.pkt.leap.active)
  leapTrigger spread (installPatches (slotOf s slot) [shadowBit s] s)

end Sys2Proof.Machine
end

