-- ==== Sys2Proof/Machine/Boot.lean ====
section
/-! DEFINITION. Reset, boot, firmware slots, trust, Basking and the supplies (R390 to R413, R465 to R474). -/

namespace Sys2Proof.Machine

/-! ### Slots (R394, R395) -/

/-- The state with a slot changed; a slot word is written in one atomic write (R392). -/
def State.modSlot (s : State) (i : Nat) (f : Slot → Slot) : State :=
  if i = 0 then { s with nv := { s.nv with slotA := f s.nv.slotA } } else { s with nv := { s.nv with slotB := f s.nv.slotB } }

/-- Slot `i` is preferred to the other by step 2 of R395, with the reason: higher VERSION, then higher INSTALL_SEQ, then slot A. -/
def prefers (s : State) (i : Nat) : Bool × Nat :=
  let a := slotOf s i
  let b := slotOf s (1 - i)
  if a.version ≠ b.version then (b.version < a.version, 2)
  else if a.seq ≠ b.seq then (b.seq < a.seq, 3)
  else (i = 0, 4)

/-- Slots that verify and are in a given state. -/
def candidates (s : State) (states : List Nat) : List Nat :=
  [0, 1].filter fun i => ((slotOf s i).key s.nv.revoke).isSome && states.contains (slotOf s i).state

/-- The slot a full boot chooses, with REASON (R395; log entry 5 for 0 among CONFIRMED slots); none is recovery mode. -/
def selectSlot (s : State) : Option (Nat × Nat) :=
  let best (l : List Nat) : Option (Nat × Nat) := match l with
    | [] => none
    | [i] => some (i, 0)
    | _ => if (prefers s 0).1 then some (0, (prefers s 0).2) else some (1, (prefers s 0).2)
  match candidates s [3] with
  | i :: _ => some (i, 1)
  | [] =>
    match best (candidates s [6]) with
    | some c => some c
    | none => (best (candidates s [5])).map (fun c => (c.1, 5))

/-- Runs a slot: a TRIAL image is marked TRIAL_RUN just before its release, and its timer starts (R394, R396). -/
def releaseSlot (i reason : Nat) (s : State) : State :=
  let trial := (slotOf s i).state = 3
  let s := if trial then s.modSlot i ({ · with state := 4 }) else s
  { s with eft := { s.eft with running := i, reason := reason, trialLocked := false } }

/-! ### Cold boot (R403 to R406) -/

/-- What `SYS_RST_N` leaves: eMRAM and OTP, the supplies and straps as they are, and the latch of `THERMTRIP_N` while a sensor
stands at 105 °C or above (R83, R474). The log of outputs, the queue and the free-value counter are the model's. -/
def loseAll (s : State) : State :=
  { pending := s.pending, out := s.out, free := s.free, nv := s.nv, sto := s.sto.persist
    pins := { s.pins with
      sysRstN := false, faultN := false, baskReq := false
      thermtrip := s.pins.thermtrip && s.pins.tj.any (fun e => 105 + 273 ≤ e.2) } }

/-- The mode of an octet record, `ETH` when the record holds no valid mode (R46, R47). -/
def validMode (recs : List (Nat × Nat)) (o : Nat) : Option Nat :=
  match mget? recs o with
  | none => some 0
  | some m =>
    if m = 0 then some 0
    else if 16 ≤ o || 3 < m then none
    else if m = 3 && mgetD recs (if o % 2 = 0 then o + 1 else o - 1) 0 ≠ 3 then none
    else some m

/-- Octets whose record holds no valid mode. -/
def badOctets (recs : List (Nat × Nat)) : List Nat := (List.range 18).filter (fun o => (validMode recs o).isNone)

/-- The owner port (R405): the record, then the strap, then the lowest host port. -/
def chooseOwner (s : State) : Nat :=
  let exist (n : Nat) : Bool := hostPortExists s n
  match s.nv.ownerRec with
  | some n => if exist n then n else if exist s.pins.ownerStrap then s.pins.ownerStrap else (leastBelow 32 exist).getD 0
  | none => if exist s.pins.ownerStrap then s.pins.ownerStrap else (leastBelow 32 exist).getD 0

/-- Octet modes and the owner port from the store; with no host port, OCT0 takes `PCIE_2X4` for this boot (R404, R405). -/
def bootOctets (s : State) : State :=
  let modes := (List.range 18).filterMap fun o =>
    match (validMode s.nv.octRec o).getD 0 with
    | 0 => none
    | m => some (o, m)
  let s := { s with octMode := modes }
  let s := (badOctets s.nv.octRec).foldl (fun s o => s.event 0x0103 (.dev 1) o) s
  if (List.range 32).any (hostPortExists s) then { s with eft := { s.eft with ownerPort := chooseOwner s } }
  else ({ s with octMode := mput s.octMode 0 1, eft := { s.eft with ownerPort := 0 } }).event 0x0103 (.dev 2) 0

/-- The records of the run before the safe state, at the head of the new log (R429; log entry 16). -/
def bootLog (s : State) : State :=
  let old := s.nv.priorFaults
  let recs := (old.zipIdx).map fun (r, i) => { r with seq := i, source := 16, detail := r.seq }
  { s with
    flt := { s.flt with log := recs, nextSeq := recs.length }
    nv := { s.nv with priorFaults := [] } }

/-- Each vendor partition is stopped, loaded from the slot that runs, and started when it holds an image (R400, R403). -/
def reloadVendor (slot : Nat) (s : State) : State :=
  (s.skk.parts.filter (·.2.vendor)).foldl (fun s e =>
    let s := loadVendor (slotOf s slot) e.1 (partStop e.1 s)
    if ((part? s e.1).bind (·.image)).isSome then partStart e.1 s else s) s

/-- The vendor partitions are created, loaded and started; their service channels are external. -/
def bootSkink (slot : Nat) (s : State) : State :=
  let s := { s with skk := { s.skk with
    parts := [(1, vendorPart (vendorCluster s 1)), (2, vendorPart (vendorCluster s 2))]
    chans := [slowPathChan s, learnChan s, controlChan s 1, controlChan s 2, mgmtChan s].foldl (fun m c => mput m c { ext := true }) [] } }
  reloadVendor slot s

/-- The boot that follows a reset, all its steps at once (R403; log entry 4 for the strap's meaning at reset). -/
def boot (s : State) : State :=
  let s := { s with pins := { s.pins with sysRstN := true }, eft := { s.eft with bootDigest := Config.bootBlockDigest.toNat } }
  -- slots: a TRIAL_RUN found at a boot has failed (R395)
  let s := [0, 1].foldl (fun s i => if (slotOf s i).state = 4 then s.modSlot i ({ · with state := 5 }) else s) s
  let s := { s with chain := { s.chain with
    head := s.pins.chnHead
    state := if s.pins.chnHead then 1 else 0 } }
  let s := if s.pins.chnHead then s.chainSend 1 0 true 0 1 else s
  let s := { bootLog s with wear := { units := s.nv.wearUnits, ageMicro := s.nv.ageMicro, hours := s.nv.hours } }
  match (if s.pins.bootRecoveryN then selectSlot s else none) with
  | none =>
    let s := { s with
      phase := Phase.recovery
      eft := { s.eft with
        running := 0xFF, reason := 0xFF, portsUp := true
        rcvCause := if s.pins.bootRecoveryN then 1 else 2 } }
    let s := bootOctets s
    alarmLevels { s with hps := s.nv.hostRec }
  | some (i, reason) =>
    let s := releaseSlot i reason s
    let s := { s with phase := Phase.running }
    let s := bootCipher s
    let s := bootOctets s
    let s := { s with
      lanes := s.nv.failedLanes.map (fun e => (e.1, ({ failed := true } : Lane)))
      ports := mmap s.nv.portRec (fun _ p =>
        { p with state := if p.admin && octetMode s p.octet = 0 then 1 else 0 })
      hps := s.nv.hostRec }
    -- the running slot's patch sets go into both Pads
    let s := installPatches (slotOf s i) [0, 1] (bootPacket s)
    let s := bootSkink i (bootStorage s)
    alarmLevels { s with eft := { s.eft with portsUp := true } }

/-- A reset from within: the straps keep the values last sampled (R469). -/
def internalReset (s : State) : State := boot (loseAll s)

def execSysRstNAssert : State → Host.Outcome State Fault Refusal := run wfSysRstNAssert loseAll

/-- The rising edge of `SYS_RST_N` samples the straps and starts the cold boot, once the rails are up and `THERMTRIP_N` has cleared
(R403, R469, R474). -/
def execSysRstNRelease (chnHead bootRecoveryN : Bool) (ownerStrap : Nat) : State → Host.Outcome State Fault Refusal :=
  run (wfSysRstNRelease chnHead bootRecoveryN ownerStrap) fun s =>
    if s.pins.sysRstN || !s.pins.pwrOk || !s.pins.vddRet || s.pins.thermtrip then s
    else boot { loseAll s with pins := { (loseAll s).pins with chnHead, bootRecoveryN, ownerStrap } }

/-! ### Supplies and clocks (R465 to R474) -/

/-- The end of a wake (R410): the fast path when retention was kept and no alarm was latched, else a full boot. -/
def finishWake (s : State) : State :=
  if s.eft.retention && !alarmLatched s then
    let s := { s with
      phase := Phase.running
      eft := { s.eft with waking := false, basking := false, wakeLatched := false }
      ports := mmap s.ports (fun _ p => { p with state := if p.admin && octetMode s p.octet = 0 then 1 else 0 }) }
    wakeSkink s
  else internalReset s

/-- A wake source (R408, R410): one that asserts during entry is latched; a Basking device releases `BASK_REQ_N` and wakes when its
rails are back, at once when the board kept them up (R468). -/
def wakeSource (s : State) : State :=
  if s.phase = .basking then
    if s.eft.waking then s
    else
      let s := { s with pins := { s.pins with baskReq := false }, eft := { s.eft with waking := true } }
      if s.pins.pwrOk then finishWake s else s
  else if s.eft.basking then { s with eft := { s.eft with wakeLatched := true } }
  else s

def execPwrOkRise : State → Host.Outcome State Fault Refusal :=
  run wfPwrOkRise fun s =>
    let s := { s with pins := { s.pins with pwrOk := true, pwrSeen := true } }
    if s.phase = .basking && s.eft.waking then finishWake s else s

/-- `PWR_OK` falling acts as `SYS_RST_N` asserted, unless `BASK_REQ_N` is asserted (R467, R468). An eMRAM write is one step of the
model, so a write begun is finished. -/
def execPwrOkFall : State → Host.Outcome State Fault Refusal :=
  run wfPwrOkFall fun s =>
    let keep := s.pins.baskReq || (s.phase = .basking && s.eft.waking)
    let s := if keep then s else loseAll s
    { s with pins := { s.pins with pwrOk := false } }

def execWakeNAssert (ns : Nat) : State → Host.Outcome State Fault Refusal :=
  run (wfWakeNAssert ns) fun s => if ns < 1000 || !pinsIn s then s else wakeSource s

/-- VDD_RET comes within tolerance: the always-on logic is in its state before `PWR_OK`, I3C pins high impedance (R444, R465). -/
def execVddRetUp : State → Host.Outcome State Fault Refusal :=
  run wfVddRetUp fun s =>
    if s.pins.vddRet then s
    else
      let s := loseAll s
      { s with pins := { s.pins with vddRet := true, pwrOk := false, pwrSeen := false, thermtrip := false } }

/-- VDD_RET is removed: the `THERMTRIP_N` latch, the retained I3C state and retention are lost (R409, R474). -/
def execVddRetRemove : State → Host.Outcome State Fault Refusal :=
  run wfVddRetRemove fun s =>
    if s.phase = .basking then
      { s with
        pins := { s.pins with vddRet := false, thermtrip := false }
        i3c := {}
        eft := { s.eft with retention := false } }
    else
      let s := loseAll s
      { s with pins := { s.pins with vddRet := false, thermtrip := false, pwrOk := false } }

/-- The octets of a quadrant (R470). -/
def quadrantOctets (q : Nat) : List Nat :=
  [[0, 1, 2, 16, 17], [3, 4, 5, 6], [7, 8, 9, 10, 11], [12, 13, 14, 15]].getD q []

/-- A reference clock stops: the ports it serves go down; `REF156_P/N[0]` in Basking is a loss of retention (R409, R470). -/
def execReferenceClockStop (pcie : Bool) (index : Nat) : State → Host.Outcome State Fault Refusal :=
  run (wfReferenceClockStop pcie index) fun s =>
    let b := if pcie then 4 + index else index
    let s := if bit s.pins.clkStopped b then s
      else { s with pins := { s.pins with clkStopped := s.pins.clkStopped + 2 ^ b } }
    if s.phase = .basking then
      if !pcie && index = 0 then { s with eft := { s.eft with retention := false } } else s
    else if pcie then
      (List.range 4).foldl (fun s i =>
        let n := 4 * index + i
        if hostPortExists s n && (hostPort s n).linkUp && !(hostPort s n).sris then portReset n s else s) s
    else
      (s.ports.filter (fun e => (quadrantOctets index).contains e.2.octet && e.2.state = 2)).foldl
        (fun s e => portDown e.1 1 1 s) s

/-! ### Discovery and device reset (R355, R361) -/

/-- ROLE of `DEV_INFO`: as `FN_CAPS.ROLE`, and 3 for the Board (log entry 17). -/
def roleCode (c : Call) : Nat := match c.role with
  | 1 => 0
  | 2 => 1
  | 4 => 2
  | 16 => if c.mbx = .board then 3 else 0
  | _ => 3

def execDevInfo (x : XCall) : State → Host.Outcome State Fault Refusal :=
  run (wfDevInfo x) (xop x 0x0101 (reads fun c s =>
    let fid := c.fid
    okWith [u8 s.nv.grade, u8 0xA1, u8 (fidPort fid), u8 (roleCode c), u16 fid,
      u16 (if c.mbx = .board then 0 else tenantOf s fid), u32 Config.romId.toNat, u64 s.nv.uniqueId,
      u64 (if s.eft.running ≤ 1 then (slotOf s s.eft.running).version else 0)]))

def execDevCaps (x : XCall) : State → Host.Outcome State Fault Refusal :=
  run (wfDevCaps x) (xop x 0x0102 (reads fun _ _ =>
    okWith [u16 1, u16 0, u16 256, u32 16777216, .arr (leBytes 32 0xFF)]))

/-- The resets that follow a response (R361, R406). -/
def afterResponse (s : State) : State :=
  if s.eft.resetAfter then internalReset s
  else match s.eft.resetPort with
    | some n => portReset n { s with eft := { s.eft with resetPort := none } }
    | none => s

def execDevReset (x : XCall) (kind port : Nat) : State → Host.Outcome State Fault Refusal :=
  run (wfDevReset x kind port) fun s => afterResponse (xop x 0x0105 (fun c s =>
    if 1 < kind then (s, badParam 0)
    else if kind = 0 then ({ s with eft := { s.eft with resetAfter := true } }, ok)
    else if !c.owner || c.mbx = .board then (s, fails stDenied)
    else if !hostPortExists s port then (s, badParam 1)
    else ({ s with eft := { s.eft with resetPort := some port } }, ok)) s)

/-! ### Staging and activation (R394 to R400) -/

/-- The running slot is on trial. -/
def onTrial (s : State) : Bool := s.eft.running ≤ 1 && (slotOf s s.eft.running).state = 4

def execFwStage (x : XCall) (slot offset total : Nat) (data : List Byte) : State → Host.Outcome State Fault Refusal :=
  run (wfFwStage x slot offset total data) (xop x 0x0D01 fun c s =>
    let sl := slotOf s slot
    if 1 < slot then (s, badParam 0)
    else if slot = s.eft.running || onTrial s then (s, fails stState)
    else if total = 0 then (s.modSlot slot (fun _ => {}), ok)
    else if 5242880 < total then (s, badParam 8)
    else if offset ≠ 0 && (sl.state ≠ 1 || offset ≠ sl.img.length) then (s, badParam 4)
    else if offset ≠ 0 && total ≠ sl.total then (s, badParam 8)
    else if total < offset + data.length then (s, badParam 4)
    else
      let img := if offset = 0 then data else sl.img ++ data
      let s := s.modSlot slot (fun o => { state := 1, seq := o.seq, img, total })
      if !bit c.flags 12 then (s, ok)
      else
        let sl := slotOf s slot
        match sl.key s.nv.revoke with
        | some k =>
          let seq := max s.nv.slotA.seq s.nv.slotB.seq + 1
          (s.modSlot slot ({ · with state := 2, seq := seq }), okWith [u8 k])
        | none => (s, fails (if sl.rawKey.isSome then stRevoked else stSigFail)))

/-- A slot is made CONFIRMED, and the other slot is demoted when step 2 of R395 would prefer it; the confirmed slot's word is written
first (R394). -/
def confirmSlot (i : Nat) (s : State) : State :=
  let s := s.modSlot i ({ · with state := 6 })
  if (slotOf s (1 - i)).state = 6 && (prefers s (1 - i)).1 then s.modSlot (1 - i) ({ · with state := 2 }) else s

/-- The slot words that an activation writes (R394, R398). -/
def activateWords (i : Nat) (trial : Bool) (s : State) : State :=
  let s := if (slotOf s (1 - i)).state = 3 then s.modSlot (1 - i) ({ · with state := 2 }) else s
  if trial then s.modSlot i ({ · with state := 3 }) else confirmSlot i s

/-- Restarts the Eft into the slot that selection gives; the restart is headless (R357, R399). -/
def restartEft (s : State) : State :=
  match selectSlot s with
  | some (i, reason) => { releaseSlot i reason s with eft := { (releaseSlot i reason s).eft with headless := true } }
  | none => { s with eft := { s.eft with headless := true } }

def execFwActivate (x : XCall) (type slot trial : Nat) : State → Host.Outcome State Fault Refusal :=
  run (wfFwActivate x type slot trial) fun s =>
    let s := { s with eft := { s.eft with resetPort := none } }
    let go := xop x 0x0D02 (fun c s =>
      let sl := slotOf s slot
      if 1 < type then (s, badParam 0)
      else if 1 < slot then (s, badParam 1)
      else if 1 < trial then (s, badParam 2)
      else if !([2, 5, 6].contains sl.state) then (s, fails stState)
      else if c.role = 16 then
        if (sl.key s.nv.revoke).isNone then (s, fails (if sl.rawKey.isSome then stRevoked else stSigFail))
        else
          let s := activateWords slot (trial = 1) s
          ({ s with eft := { s.eft with resetAfter := true } }, ok)
      else if s.eft.running ≤ 1 && sl.stateFmt ≠ (slotOf s s.eft.running).stateFmt then
        (activateWords slot (trial = 1) s, ok)
      else if type = 0 then
        -- the restart follows the response: the slot is remembered and taken up below
        ({ s with eft := { s.eft with resetPort := some (32 + slot + 2 * trial) } }, ok)
      else if leapPending s || padEdited s then (s, fails stState)
      else ({ s with eft := { s.eft with activating := true } }, .wait (.fwDrain slot (trial = 1)))) s
    match go.eft.resetPort with
    | some n =>
      if 32 ≤ n then
        restartEft (activateWords (n % 2) (34 ≤ n) { go with eft := { go.eft with resetPort := none } })
      else afterResponse go
    | none => afterResponse go

/-- The slot that a draining activation will run. -/
def drainingSlot (s : State) : Option (Nat × Bool) :=
  (started s).findSome? fun w => match w with
    | .fwDrain i t => some (i, t)
    | _ => none

/-- Packets of the vacated Pad are left, which the activation's copy would change (R198, R223). -/
def padsHold (s : State) : Bool := padInEngines s (shadowBit s) || padQueued s (shadowBit s)

/-- The activation that drains ends with a status, and nothing else changes (R261, R400). -/
def abandonFull (i : Nat) (trial : Bool) (st : Nat) (s : State) : State :=
  finishWait (· = .fwDrain i trial) st 0 [] { s with eft := { s.eft with activating := false } }

/-- In-flight storage commands have drained, and no packet of the vacated Pad is left: Pads copied, patch sets written, Leap, response, slot
word, restart (R400). A chain-wide Leap armed during the drain is never overwritten: the activation is refused with STATE then, as it is
refused at its start (R226, R400 step 1). -/
def execFwActivateDrainDone : State → Host.Outcome State Fault Refusal :=
  run wfFwActivateDrainDone fun s =>
    match drainingSlot s with
    | none => s
    | some (i, trial) =>
      if leapPending s || padEdited s then abandonFull i trial stState s
      else if !storageDrained s || padsHold s then s
      else
      let s := fwLeap i s
      let s := { s with eft := { s.eft with activating := false } }
      let s := finishWait (· = .fwDrain i trial) stOk 0 [] s
      let s := restartEft (activateWords i trial s)
      reloadVendor s.eft.running s

/-- The wait ends: an overrun of the drain's 200 ms abandons the activation with STATE (R261, R400); where storage has drained and packets of
the vacated Pad alone hold its writes for 10 ms, it ends BUSY (R223). -/
def execFwActivateDrainTimeout : State → Host.Outcome State Fault Refusal :=
  run wfFwActivateDrainTimeout fun s =>
    match drainingSlot s with
    | none => s
    | some (i, trial) =>
      abandonFull i trial (if storageDrained s && padsHold s then stBusy else stState) s

def execFwState (x : XCall) : State → Host.Outcome State Fault Refusal :=
  run (wfFwState x) (xop x 0x0D03 (reads fun _ s =>
    let one (i : Nat) : List Fld :=
      let sl := slotOf s i
      [u8 sl.state, u8 ((sl.key s.nv.revoke).getD 0xFF), u32 sl.seq, u64 sl.version]
    okWith ([u8 s.eft.running, u8 s.eft.reason] ++ one 0 ++ one 1)))

/-- The trial firmware confirms itself, unless the slot word is locked (R396). -/
def execTrialConfirm : State → Host.Outcome State Fault Refusal :=
  run wfTrialConfirm fun s =>
    if s.phase = .running && onTrial s && !s.eft.trialLocked && !s.eft.headless then confirmSlot s.eft.running s else s

def execTrialTimerExpire : State → Host.Outcome State Fault Refusal :=
  run wfTrialTimerExpire fun s =>
    if onTrial s && !s.eft.trialLocked then
      let s := { s with eft := { s.eft with trialLocked := true } }
      s.event 0x0D01 (.dev s.eft.running) 0
    else s

/-- `KEY_REVOKE` (R401). -/
def execKeyRevoke (x : XCall) (index : Nat) : State → Host.Outcome State Fault Refusal :=
  run (wfKeyRevoke x index) (xop x 0x0D04 fun c s =>
    let after := s.nv.revoke ||| 2 ^ index
    let left := [0, 1].any fun i => [2, 3, 4, 5, 6].contains (slotOf s i).state && ((slotOf s i).key after).isSome
    if 3 < index then (s, badParam 0)
    else if after % 16 = 15 then (s, fails stState)
    else if !left && !bit c.flags 9 then (s, fails stState)
    else ({ s with nv := { s.nv with revoke := after } }, ok))

/-! ### Attestation (R412, R413) -/

/-- A measurement's 64 bytes: KIND, INDEX, PAD, VERSION, DIGEST. -/
def measureBytes (m : Nat × Nat × Nat × Nat × Nat) : List Byte :=
  leBytes 1 m.1 ++ leBytes 1 m.2.1 ++ leBytes 1 m.2.2.1 ++ List.replicate 5 0 ++ leBytes 8 m.2.2.2.1 ++ beBytes 48 m.2.2.2.2

/-- The measurements, in order of KIND, INDEX and PAD. -/
def measurements (s : State) : List (Nat × Nat × Nat × Nat × Nat) :=
  [(1, 0, 0xFF, 0, s.eft.bootDigest)]
    ++ (if s.eft.running ≤ 1 then
        [(2, s.eft.running, 0xFF, (slotOf s s.eft.running).version, (slotOf s s.eft.running).digest)] else [])
    ++ packetMeasures s ++ skinkMeasures s

/-- The signed part of a quote. -/
def quoteBody (s : State) (leapGen : Nat) (nonce : List Byte) : List Byte :=
  let ms := measurements s
  let flags := b2n s.nv.bbLock + 2 * b2n s.dbg.everUnlocked + 4 * b2n (s.phase = .recovery) + 8 * b2n (onTrial s)
    + 16 * (s.nv.revoke % 16)
  leBytes 2 1 ++ leBytes 2 ms.length ++ leBytes 4 flags ++ leBytes 8 s.nv.uniqueId ++ leBytes 8 s.time
    ++ leBytes 2 leapGen ++ List.replicate 6 0 ++ nonce ++ ms.flatMap measureBytes

/-- `ATTEST_QUOTE` (R413): with RLEN below the quote's size nothing is signed and FULL gives the size. -/
def execAttestQuote (x : XCall) (nonce : List Byte) : State → Host.Outcome State Fault Refusal :=
  run (wfAttestQuote x nonce) (xop x 0x0D05 (reads fun c s =>
    let body := quoteBody s (leapGen s) nonce
    let size := body.length + 96 + 8 + s.nv.certChain.length
    if c.room < size then .sized stNoResource size
    else
      let sig := identitySign (sha384 body)
      okWith [.arr (body ++ sig ++ leBytes 4 s.nv.certChain.length ++ leBytes 4 0 ++ s.nv.certChain)]))

/-- The recovery function's `RCV_OWNER` (R407): each write goes to the store at once. -/
def execRcvOwnerWrite (value : Nat) : State → Host.Outcome State Fault Refusal :=
  run (wfRcvOwnerWrite value) fun s =>
    if s.phase = .recovery then
      { s with nv := { s.nv with ownerRec := if bit value 8 then some (bits value 0 5) else none } }
    else s

/-! ### Basking (R408, R409) -/

/-- Something that keeps Basking from being entered. -/
def baskBlocked (s : State) : Bool :=
  leapPending s || s.nv.slotA.state = 4 || s.nv.slotB.state = 4 || s.eft.activating || reconciling s || rehashing s || rotating s || !s.wear.active.isEmpty

/-- A mailbox command other than `BASK_ENTER` itself runs. -/
def mbxBusy (s : State) : Bool := waiting s (· ≠ .bask)

def execBaskEnter (x : XCall) : State → Host.Outcome State Fault Refusal :=
  run (wfBaskEnter x) (xop x 0x0D06 fun _ s =>
    if baskBlocked s then (s, fails stState)
    else ({ s with eft := { s.eft with basking := true } }, .wait .bask))

/-- The drain ends: the response, then the links, the partitions and the rails (R408 steps 2 to 6). A wake source latched during entry
wakes the device at once. -/
def execBaskDrainDone : State → Host.Outcome State Fault Refusal :=
  run wfBaskDrainDone fun s =>
    if !s.eft.basking || s.phase ≠ .running || !s.fns.all (fun e => fnDrained s e.1) || mbxBusy s then s
    else
      let s := finishWait (· = .bask) stOk 0 [] s
      let s := s.ports.foldl (fun s e => if e.2.state = 0 then s else portDown e.1 0 0 s) s
      let s := (List.range 32).foldl (fun s n => if (hostPort s n).linkUp then portReset n s else s) s
      let s := stopAllPartitions s
      let wake := s.eft.wakeLatched
      let s := { s with
        phase := Phase.basking
        pins := { s.pins with baskReq := true }
        eft := { s.eft with basking := false, retention := true, wakeLatched := false, waking := false } }
      if wake then wakeSource s else s

/-- The drain overruns 100 ms: fetch resumes, the command completes TIMEOUT and the event is raised (R408). -/
def execBaskDrainTimeout (us : Nat) : State → Host.Outcome State Fault Refusal :=
  run (wfBaskDrainTimeout us) fun s =>
    if !s.eft.basking || s.phase ≠ .running then s
    else
      let s := { s with eft := { s.eft with basking := false, wakeLatched := false } }
      let s := finishWait (· = .bask) stTimeout 0 [] s
      let s := s.event 0x0D02 (.dev 0) us
      s.fns.foldl (fun s e => kickAll e.1 s) s

end Sys2Proof.Machine
end

