-- ==== Sys2Proof/Machine/Tenancy.lean ====
section
/-! DEFINITION. Pools, allotments, functions and tenants (R366 to R371). -/

namespace Sys2Proof.Machine

/-- The device pools in `ALLOT_SET` order (R366); L2 is per logical pipeline and WINDOWS per port. -/
def pools : List Nat :=
  [8192, 196608, 16384, 65536, 262144, 16777216, 1048576, 524279, 131072, 262144, 262144, 131072, 256, 134656]

/-- Pools allotted as contiguous index ranges: POLICERS, NODES, KEY_SLOTS, CKV_CTX, SA. -/
def ranged : List Nat := [7, 8, 9, 10, 11]

/-- A grant in `FN_CREATE` order (RINGS … SA). -/
def Grants.list (g : Grants) : List Nat :=
  [g.rings, g.nvmeQp, g.cmds, g.l2, g.flow, g.cells, g.policers, g.nodes, g.keySlots, g.ckvCtx, g.sa]

/-- First indices of a grant (POLICER … SA). -/
def Grants.firsts (g : Grants) : List Nat := [g.polFirst, g.nodeFirst, g.keyFirst, g.ckvFirst, g.saFirst]

/-- The provisioned VFs of a port. -/
def portVfs (s : State) (n : Nat) : List (Nat × Fn) := s.fns.filter (fun (i, _) => fidPort i = n && isVf i)

/-- What a port's VFs use of allotment field `i` (VFS … REGION_MIB). -/
def vfUse (s : State) (n i : Nat) : Nat :=
  if i = 0 then (portVfs s n).length
  else if i ≤ 11 then ((portVfs s n).map (fun e => e.2.grants.list.getD (i - 1) 0)).foldl (· + ·) 0
  else if i = 12 then ((List.range 256).filter (fun w => (winOf s n w).state ≠ 0)).length
  else (((portVfs s n).map (fun e => match e.2.dirty with
    | some d => d.len
    | none => 0)).foldl (· + ·) 0 + 2 ^ 20 - 1) / 2 ^ 20

/-- The fixed share of the port's PFs in field `i` when the field holds `c` (R368); a port that does not exist takes none. One that `OCTET_MODE`
brings back takes the full share again, though its allotment was cut to what its VFs hold while it was gone (log entry 105, DESIGN CHOICE). -/
def pfShare (s : State) (n i c : Nat) : Nat :=
  if !hostPortExists s n then 0
  else match i with
    | 1 => min c 1024
    | 2 => min c 128
    | 3 => min c 1024
    | 4 => min c 1024
    | 6 => min c 4096
    | _ => 0

/-- What the Owner has granted outside allotments, in field `i`: the owner port's VFs, their shadows, and customer partitions' regions (R366, R367). -/
def ownerUse (s : State) (i : Nat) : Nat :=
  (if i = 12 then 0 else vfUse s s.eft.ownerPort i) + (if i = 13 then partRegionMib s else 0)

/-- What of that counts in the pool that port `n` draws on: L2 is a pool of each pipeline. -/
def ownerUseAt (s : State) (n i : Nat) : Nat := if i = 4 && pipeOfHost s.eft.ownerPort ≠ pipeOfHost n then 0 else ownerUse s i

/-- Sum of the ports' allotments of field `i`, port `n` counted as `c`; L2 counts the ports of one pipeline, WINDOWS one port. -/
def allotSum (s : State) (n i c : Nat) : Nat :=
  if i = 12 then c
  else
    ((List.range 32).map fun p =>
      if p = n then c
      else if i = 4 && pipeOfHost p ≠ pipeOfHost n then 0
      else (allotOf s p).counts.getD i 0).foldl (· + ·) 0

/-- Whether `[a, a + n)` misses every range of a list. -/
def misses (a n : Nat) (rs : List (Nat × Nat)) : Bool := rs.all (fun (b, m) => m = 0 || a + n ≤ b || b + m ≤ a)

/-- The lowest base at which `n` indices fit in `[lo, hi)` clear of the ranges taken. -/
def lowestFit (lo hi n : Nat) (rs : List (Nat × Nat)) : Option Nat :=
  if n = 0 then some lo
  else
    let cands := lo :: (rs.map (fun (b, m) => b + m)).filter (fun x => lo ≤ x)
    (cands.filter (fun a => a + n ≤ hi && misses a n rs)).min?

/-- Index ranges of field `i` that other ports hold and, on the owner port's side, that its VFs hold. -/
def takenRanges (s : State) (n i : Nat) : List (Nat × Nat) :=
  ((List.range 32).filter (· ≠ n)).map (fun p => ((allotOf s p).firsts.getD (i - 7) 0, (allotOf s p).counts.getD i 0))
    ++ (if n = s.eft.ownerPort then [] else
      (portVfs s s.eft.ownerPort).map (fun e => (e.2.grants.firsts.getD (i - 7) 0, e.2.grants.list.getD (i - 1) 0)))

/-- Where field `i`'s range of a port goes: in place when it can, else placed anew when nothing of it is granted (R367). -/
def placeRange (s : State) (n i c : Nat) : Option Nat :=
  let a := allotOf s n
  let old := a.firsts.getD (i - 7) 0
  let taken := takenRanges s n i
  let pool := pools.getD i 0
  if 0 < a.counts.getD i 0 && old + c ≤ pool && misses old c taken then some old
  else if vfUse s n i = 0 || n = s.eft.ownerPort then lowestFit 0 pool c taken
  else none

/-- Some index granted to the port's VFs in field `i` would fall outside `[a, a + c)`. -/
def leavesOut (s : State) (n i a c : Nat) : Bool :=
  n ≠ s.eft.ownerPort && (portVfs s n).any fun e =>
    let b := e.2.grants.firsts.getD (i - 7) 0
    let m := e.2.grants.list.getD (i - 1) 0
    0 < m && (b < a || a + c < b + m)

/-- A port may hold a count of field `i`: its VFs' use and its PFs' share fit. -/
def coversUse (s : State) (n i c : Nat) : Bool :=
  n = s.eft.ownerPort || vfUse s n i + pfShare s n i c ≤ c

/-- `ALLOT_SET` (R361, R367, R368). -/
def execAllotSet (x : XCall) (port tenant tenBase tenCount : Nat) (counts : List Nat) :
    State → Host.Outcome State Fault Refusal :=
  run (wfAllotSet x port tenant tenBase tenCount counts) (xop x 0x0301 fun _ s =>
    let is := List.range 14
    let others := (List.range 32).filter (· ≠ port)
    let owner := port = s.eft.ownerPort
    if 32 ≤ port then (s, badParam 0)
    else if owner ≠ (tenant = 0 : Bool) then (s, badParam 2)
    else if 0 < tenCount && (tenBase = 0 || others.any (fun p =>
        let a := allotOf s p
        0 < a.tenCount && a.tenBase < tenBase + tenCount && tenBase < a.tenBase + a.tenCount)) then (s, badParam 4)
    else if 65536 < tenBase + tenCount then (s, badParam 6)
    else match is.find? (fun i => !coversUse s port i (counts.getD i 0)) with
      | some _ => (s, fails stState)
      | none =>
        let places := ranged.map (fun i => placeRange s port i (counts.getD i 0))
        let a : Allot := { tenant, tenBase, tenCount, counts, firsts := places.map (·.getD 0), set := true }
        let s' := { s with allots := mput s.allots port a }
        match is.find? (fun i => pools.getD i 0 < allotSum s port i (counts.getD i 0) + ownerUseAt s port i
            || (i = 0 && 2044 < counts.getD 0 0) || (i = 6 && !cellsFit s')
            || (7 ≤ i && i ≤ 11 && (places.getD (i - 7) none).isNone)) with
        | some i =>
          if 7 ≤ i && i ≤ 11 && leavesOut s port i ((allotOf s port).firsts.getD (i - 7) 0) (counts.getD i 0) then
            (s, fails stState)
          else (s, failsWith stNoResource (8 + 4 * i))
        | none =>
          if ranged.any (fun i => leavesOut s port i ((places.getD (i - 7) none).getD 0) (counts.getD i 0)) then
            (s, fails stState)
          else (s', ok))

/-- `ALLOT_GET` (R361): the allotment, then the counts in use, the PFs' shares included (R368). -/
def execAllotGet (x : XCall) (port : Nat) : State → Host.Outcome State Fault Refusal :=
  run (wfAllotGet x port) (xop x 0x0302 (reads fun c s =>
    if 32 ≤ port then badParam 0
    else if !c.inPort port then fails stNotFound
    else
      let a := allotOf s port
      okWith ([u8 port, u16 a.tenant, u16 a.tenBase, u16 a.tenCount] ++ a.counts.map u32
        ++ (List.range 14).map (fun i => u32 (vfUse s port i + pfShare s port i (a.counts.getD i 0))))))

/-- The lowest free function number of a port: not bound, and with no tag of a destroyed function outstanding (R15, R90). -/
def freeFn (s : State) (port : Nat) : Option Nat :=
  (leastBelow 2044 fun i =>
    let f := mkFid port (i + 4)
    (mget? s.fns f).isNone && !s.reads.any (fun r => r.fid = f)).map (· + 4)

/-- A count of field `i` fits what the port has left for VFs (R367 to R369). -/
def fitsPort (s : State) (port i c : Nat) : Bool :=
  if port = s.eft.ownerPort then
    allotSum s port i 0 + pfShare s port i ((allotOf s port).counts.getD i 0) + ownerUse s i + c ≤ pools.getD i 0
  else
    let a := (allotOf s port).counts.getD i 0
    vfUse s port i + pfShare s port i a + c ≤ a

/-- The lowest free contiguous range of field `i` for a VF of a port (R369). -/
def grantRange (s : State) (port i c : Nat) : Option Nat :=
  let mine := (portVfs s port).map (fun e => (e.2.grants.firsts.getD (i - 7) 0, e.2.grants.list.getD (i - 1) 0))
  if port = s.eft.ownerPort then lowestFit 0 (pools.getD i 0) c (mine ++ takenRanges s port i)
  else
    let a := allotOf s port
    lowestFit (a.firsts.getD (i - 7) 0) (a.firsts.getD (i - 7) 0 + a.counts.getD i 0) c mine

/-- The first count that the VF's kind does not allow (R369), as an index in `FN_CREATE` order. -/
def createFault (pf : Nat) (counts : List Nat) : Option Nat :=
  if pf = 2 then
    [0, 1, 2, 3, 4, 6, 7, 10].find? fun i =>
      let c := counts.getD i 0
      if i = 1 then c < 1 || 128 < c else if i = 2 then c < 1 else c ≠ 0
  else [1, 2].find? (fun i => counts.getD i 0 ≠ 0)

/-- `FN_CREATE` (R15, R69, R369). -/
def execFnCreate (x : XCall) (port pf vf : Nat) (counts : List Nat) : State → Host.Outcome State Fault Refusal :=
  run (wfFnCreate x port pf vf counts) (xop x 0x0303 fun c s =>
    if !c.inPort port then (s, fails stDenied)
    else if 32 ≤ port then (s, badParam 0)
    else if !hostPortExists s port then (s, fails stNotFound)
    else if pf ≠ 1 && pf ≠ 2 then (s, badParam 1)
    else if vf < 1 || 1024 < vf then (s, badParam 2)
    else if (portVfs s port).any (fun e => e.2.pf = pf && e.2.vf = vf) then (s, fails stExists)
    else match createFault pf counts with
      | some i => (s, badParam (4 + 4 * i))
      | none =>
        match freeFn s port with
        | none => (s, fails stNoResource)
        | some fn =>
          if !fitsPort s port 0 1 then (s, fails stNoResource)
          else
            let firsts := ranged.map (fun i => grantRange s port i (counts.getD (i - 1) 0))
            let g (i : Nat) : Nat := counts.getD i 0
            let f (i : Nat) : Nat := (firsts.getD i none).getD 0
            let (seed, s1) := s.draw
            let fid := mkFid port fn
            let grants : Grants :=
              { rings := g 0, nvmeQp := g 1, cmds := g 2, l2 := g 3, flow := g 4, cells := g 5, policers := g 6, nodes := g 7
                keySlots := g 8, ckvCtx := g 9, sa := g 10, polFirst := f 0, nodeFirst := f 1, keyFirst := f 2
                ckvFirst := f 3, saFirst := f 4 }
            let rec_ : Fn := { (unprovOf s port pf vf).fn with pf, vf, ready := true, seed := seed % 2 ^ 128, grants }
            let s' := { s1 with
              fns := mput s1.fns fid rec_
              unprov := mdel s1.unprov (unprovKey port pf vf) }
            match (List.range 11).find? (fun i => !fitsPort s port (i + 1) (counts.getD i 0)
                || (i = 5 && !cellsFit s') || (6 ≤ i && (firsts.getD (i - 6) none).isNone)) with
            | some i => (s, failsWith stNoResource (4 + 4 * i))
            | none => (s', okWith (u16 fid :: (List.range 5).map (fun i => u32 (f i)))))

/-- `FN_DESTROY` (R70, R370). -/
def execFnDestroy (x : XCall) (fid : Nat) : State → Host.Outcome State Fault Refusal :=
  run (wfFnDestroy x fid) (xop x 0x0304 fun c s =>
    if !c.inPort (fidPort fid) then (s, fails stDenied)
    else if !isVf fid then (s, badParam 0)
    else if (mget? s.fns fid).isNone then (s, fails stNotFound)
    else if (List.range 256).any (fun i => (winOf s (fidPort fid) i).state ≠ 0 && (winOf s (fidPort fid) i).fn = fidFn fid) then
      (s, fails stState)
    else
      let s := ownerGone (ownerKey 1 fid) (fnKeysDestroy fid (fnTablesDestroy fid (resetFn fid s)))
      ({ s with
          fns := mdel s.fns fid
          mbxs := mdel s.mbxs fid
          exch := zeroN s.exch (fid * 4096) 4096 }, ok))

/-- `FN_QUERY` (R361, R69). -/
def execFnQuery (x : XCall) (fid : Nat) : State → Host.Outcome State Fault Refusal :=
  run (wfFnQuery x fid) (xop x 0x0305 (reads fun c s =>
    let fid := if c.role = 4 then c.fid else fid
    if (fn? s fid).isNone || (c.role = 2 && !c.inPort (fidPort fid)) then fails stNotFound
    else
      let f := fnD s fid
      let g := grantsOf s fid
      okWith ([u8 f.pf, u16 f.vf, u16 (fidFn fid), u16 (tenantOf s fid), u32 (fnStatus s fid), u32 (b2n f.drvReady)]
        ++ g.list.map u32 ++ g.firsts.map u32)))

/-- `TENANT_BIND` (R16, R371). -/
def execTenantBind (x : XCall) (fid tenant : Nat) : State → Host.Outcome State Fault Refusal :=
  run (wfTenantBind x fid tenant) (xop x 0x0306 fun c s =>
    let a := allotOf s (fidPort fid)
    if !c.inPort (fidPort fid) || (c.role = 2 && (tenant < a.tenBase || a.tenBase + a.tenCount ≤ tenant)) then (s, fails stDenied)
    else if !isVf fid then (s, badParam 0)
    else if (mget? s.fns fid).isNone then (s, fails stNotFound)
    else if tenant = 0 then (s, badParam 2)
    else if (fnD s fid).bound then (s, fails stState)
    else (s.modFn fid ({ · with bound := true, tenant := tenant }), ok))

end Sys2Proof.Machine
end

