-- ==== Sys2Proof/Machine/PadCmds.lean ====
section
/-! DEFINITION. The commands of the Lily Pads: parse records, rules, bindings, microcode, policers, the queue map, groups, copying and
leaping (R121, R127 to R135, R159, R189 to R198, R209 to R228). -/

namespace Sys2Proof.Machine

/-! ### Writing the shadow Pad (R132, R220 to R223) -/

/-- The command waits for queued packets as well as for those in action engines (R223). -/
def PadOp.structural : PadOp → Bool
  | .copy | .discard | .node .. | .rates .. | .mirror .. => true
  | _ => false

/-- Packets of the vacated Pad hold the write up (R198, R223). -/
def padBlocked (s : State) (op : PadOp) : Bool :=
  padInEngines s (shadowBit s) || (op.structural && padQueued s (shadowBit s))

/-- The numbers of the Pad-scoped commands that wait. -/
def padWaits (s : State) : List Nat := (started s).filterMap fun w => match w with
  | .padWrite n _ => some n
  | _ => none

/-- A started command holds the Pads: the Eft carries Pad-scoped commands out one at a time, in the order it takes them (R132). -/
def padHeld (s : State) : Bool := !(padWaits s).isEmpty

/-- A rule or binding slot's contents. -/
def slotRec (p : Pad) (kind pipe slot : Nat) : Nat := if kind = 0 then ruleRec p pipe slot else bindRec p pipe slot

/-- The slot is in use. -/
def slotUsed (p : Pad) (kind pipe slot : Nat) : Bool :=
  if kind = 0 then bit (slotRec p kind pipe slot) 1504 else bit (slotRec p kind pipe slot) 15

/-- The Pad with a slot written on a pipeline. -/
def putSlot (kind pipe slot v : Nat) (p : Pad) : Pad :=
  if kind = 0 then { p with rules := putRec p.rules (pipe * 32768 + slot) v 0 }
  else { p with binds := putRec p.binds (pipe * 256 + slot) v 0 }

/-- The Pad with a node's fields replaced. -/
def putNode (level i : Nat) (f : Nat → Nat) (p : Pad) : Pad :=
  { p with nodes := putRec p.nodes (nodeKey level i) (f (nodeRec p level i)) (nodeReset level i) }

/-! ### Loading microcode (R197) -/

/-- The customer windows lie where R193 allows; else the payload offset at fault. -/
def windowsBad (s : State) (u : UcodeReq) : Option Nat :=
  let granted := s.fns.filter (fun e => 0 < e.2.grants.policers)
  if 16384 < u.cntBase + u.cntCount then some 2
  else if 0x8000 < u.scrBase + u.scrSize then some 6
  else if 524288 < u.polBase + u.polCount || (0 < u.polCount && granted.any (fun e =>
      u.polBase < e.2.grants.polFirst + e.2.grants.policers && e.2.grants.polFirst < u.polBase + u.polCount)) then some 12
  else if 131072 < u.queBase + u.queCount then some 20
  else none

/-- The fault that stops a load: a status and its DETAIL (R197). -/
def ucodeFault (s : State) (u : UcodeReq) : Option (Nat × Nat) :=
  let b := u.image
  if 512 ≤ u.pipes then some (stBadParam, 0)
  else if !imgSigOk s b then some (stSigFail, 0)
  else match (imageFault b).or (if imgKind b = 1 then windowsBad s u else none) with
    | some o => some (stBadParam, o)
    | none => none

/-! ### Carrying a write out -/

/-- Writes the shadow Pad, which is then EDITED (R221). -/
def shadowWrite (f : Pad → Pad) (s : State) : State :=
  (s.modPad (shadowBit s) f).modPkt (fun p => { p with leap := { p.leap with shadow := 3 } })

/-- A group that would be the 129th in spray mode (R164). A write that packets hold back is tested again when it is carried out. -/
def sprayFull (s : State) (g record : Nat) : Bool :=
  grpMode record = 2 && !s.pkt.spraySlot.any (·.2 = g) && 128 ≤ s.pkt.spraySlot.length

/-- A group enters or leaves spray mode in a Pad: it keeps a slot while either Pad holds it so (R164; log entry 33). -/
def spraySlots (g : Nat) (s : State) : State :=
  let spray := [0, 1].any (fun b => grpMode (grpOf s b g).record = 2)
  let held := (s.pkt.spraySlot.find? (·.2 = g)).isSome
  if spray && !held then
    match leastBelow 128 (fun i => (mget? s.pkt.spraySlot i).isNone) with
    | some i => s.modPkt (fun p => { p with spraySlot := mput p.spraySlot i g })
    | none => s
  else if !spray && held then s.modPkt (fun p => { p with spraySlot := p.spraySlot.filter (fun e => e.2 ≠ g) })
  else s

/-- Spray slots that neither Pad holds any longer are free. -/
def trimSpray (s : State) : State :=
  s.modPkt (fun p => { p with spraySlot := p.spraySlot.filter (fun e => [0, 1].any (fun b => grpMode (grpOf s b e.2).record = 2)) })

/-- A LIVE write: first the active Pad, then the shadow (R133). -/
def liveWrite (pipes slot e : Nat) (s : State) : State × Reply :=
  let used : Bool := (pipesOf pipes).any (fun k => [0, 1].any (fun b => slotUsed (padOf s b) 0 k slot))
  let b := bits (ruleWord e 42) 0 8
  let bound : Bool := b = 0 || (pipesOf pipes).all (fun k => [0, 1].all (fun d => slotUsed (padOf s d) 1 k b))
  if used then (s, fails stExists)
  else if !bound then (s, fails stNotFound)
  else
    let f (p : Pad) : Pad := (pipesOf pipes).foldl (fun p k => putSlot 0 k slot e p) p
    ((s.modPad 0 f).modPad 1 f, ok)

/-- A LIVE clear: the active Pad, and the shadow where it holds an identical entry (R133). -/
def liveClear (pipes slot : Nat) (s : State) : State × Reply :=
  let a := s.pkt.leap.active
  ((pipesOf pipes).foldl (fun s k =>
    let same := ruleRec (padOf s 0) k slot = ruleRec (padOf s 1) k slot
    let s := if same then s.modPad (1 - a) (putSlot 0 k slot 0) else s
    s.modPad a (putSlot 0 k slot 0)) s, ok)

/-- A Leap of modes 0 to 2 is refused (R224). -/
def leapRefused (force : Bool) (s : State) (expect : Nat) : Bool :=
  expect ≠ leapGen s || (s.pkt.leap.shadow = 0 && !force) || leapPending s

/-- Sends the arm frames of a chain-wide Leap (R227, R454). -/
def armChain (time : Nat) (s : State) : State :=
  (s.chainSend 4 0 true 1 (time / 2 ^ 32)).chainSend 4 0 true 0 (time % 2 ^ 32)

/-- `PAD_LEAP` carried out (R224 to R227). -/
def padLeap (mode expect time : Nat) (force : Bool) (s : State) : State × Reply :=
  let next := (leapGen s + 1) % 65536
  let arm (chain : Bool) : State :=
    s.modPkt (fun p => { p with leap := { p.leap with pending := some time, chain } })
  if 4 ≤ mode then (s, badParam 0)
  else if mode = 3 then
    if leapPending s then
      let s := if s.pkt.leap.chain then s.chainSend 5 0 true 0 0 else s
      (s.modPkt (fun p => { p with leap := { p.leap with pending := none, chain := false } }), okWith [u16 (leapGen s)])
    else (s, .done stNotFound 0 [u16 (leapGen s)] 0 1)
  else if leapRefused force s expect then (s, if mode = 2 then failsWith stState s.chain.addr else fails stState)
  else if mode = 0 then
    let (spread, s) := s.drawBelow 2001
    (leapTrigger spread s, okWith [u16 next])
  else if time < s.time + (if mode = 1 then 10000 else 1000000) || s.time + 3600 * 10 ^ 9 < time then (s, badParam 8)
  else if mode = 1 then (arm false, okWith [u16 next])
  else if s.chain.state ≠ 2 then (s, failsWith stState s.chain.addr)
  else (armChain time (arm true), .wait .chainLeap)

/-- Carries a Pad-scoped command out. -/
def padApply (op : PadOp) (s : State) : State × Reply :=
  let mark (n : Nat) (s : State) : State := s.modPkt (fun p => { p with leap := { p.leap with shadow := n } })
  match op with
  | .copy => (trimSpray (mark 2 (s.modPad (shadowBit s) (fun _ => padOf s s.pkt.leap.active))), ok)
  | .discard => (trimSpray (mark 0 (s.modPad (shadowBit s) (fun _ => {}))), ok)
  | .parse port v => (shadowWrite (fun p => { p with parse := putRec p.parse port v parseReset }) s, ok)
  | .default_ port v => (shadowWrite (fun p => { p with defaults := putRec p.defaults port v 0 }) s, ok)
  | .write kind pipes slot v =>
    if (pipesOf pipes).any (fun k => slotUsed (padOf s (shadowBit s)) kind k slot) then (s, fails stExists)
    else (shadowWrite (fun p => (pipesOf pipes).foldl (fun p k => putSlot kind k slot v p) p) s, ok)
  | .clear kind pipes slot => (shadowWrite (fun p => (pipesOf pipes).foldl (fun p k => putSlot kind k slot 0 p) p) s, ok)
  | .ucode u => (shadowWrite (fun p => (pipesOf u.pipes).foldl (fun p k => loadImage u k p) p) s, ok)
  | .policer i v => (shadowWrite (fun p => { p with policers := putRec p.policers i v (policerReset i) }) s, ok)
  | .node level i v =>
    (shadowWrite (putNode level i (fun r => r / 2 ^ 64 * 2 ^ 64 + bits r 32 1 * 2 ^ 32 + setBits v 32 1 0)) s, ok)
  | .rates level i resetTo v => (shadowWrite (putNode level i (fun r => v * 2 ^ 64 + setBits (bits r 0 64) 32 1 resetTo)) s, ok)
  | .qbase dest v => (shadowWrite (fun p => { p with qbases := mput p.qbases dest v }) s, ok)
  | .mirror i trunc sample queue =>
    (shadowWrite (fun p => { p with mirrors := mput p.mirrors i { queue, trunc, sample } }) s, ok)
  | .group g record members =>
    if sprayFull s g record then (s, fails stNoResource)
    else (spraySlots g (shadowWrite (fun p => { p with groups := mput p.groups g { record, members } }) s), ok)
  | .liveWrite pipes slot v => liveWrite pipes slot v s
  | .liveClear pipes slot => liveClear pipes slot s
  | .leap mode expect time force => padLeap mode expect time force s

/-- The command writes the shadow Pad, and so is BUSY while a Leap is armed and held by vacated-Pad packets (R223, R226). -/
def PadOp.shadowOnly : PadOp → Bool
  | .liveWrite .. | .liveClear .. | .leap .. => false
  | _ => true

/-- A Pad-scoped command whose turn has come: carried out, or answered, or still held (R223, R226). -/
def padTurn (op : PadOp) (s : State) : Option (State × Reply) :=
  if op.shadowOnly && leapPending s then some (s, fails stBusy)
  else if op.shadowOnly && padBlocked s op then none
  else some (padApply op s)

/-- A Pad-scoped command whose request is in order: it waits behind those taken before it, and while packets of the vacated Pad remain
(R132, R223). -/
def padCmd (op : PadOp) (s : State) : State × Reply :=
  let n := s.pkt.leap.waitSeq
  let wait : State × Reply :=
    (s.modPkt (fun p => { p with leap := { p.leap with waitSeq := n + 1 } }), .wait (.padWrite n op))
  if padHeld s then wait else (padTurn op s).getD wait

/-- The oldest Pad-scoped command that a mailbox waits with, or waited with when it was reset. -/
def padWaiting (s : State) (m : MbxId) : Option (Nat × PadOp) :=
  let waits := ((mbxOf s m).cur.map (·.2)).toList ++ (s.ghosts.filter (·.1 = m)).map (·.2)
  (waits.filterMap fun w => match w with
    | .padWrite n op => some (n, op)
    | _ => none).foldl (fun b x => match b with
      | some y => some (if x.1 < y.1 then x else y)
      | none => some x) none

/-- A waiting command's wait becomes another. -/
def rewait (w w' : Wait) (s : State) : State :=
  let s := (waiters s (· = w)).foldl (fun s m => s.modMbx m (fun b => { b with cur := b.cur.map (fun c => (c.1, w')) })) s
  { s with ghosts := s.ghosts.map (fun g => if g.2 = w then (g.1, w') else g) }

/-- The oldest Pad-scoped command that waits goes on, or ends with BUSY after 10 ms (R132, R223). -/
def padResume (m : MbxId) (timedOut : Bool) (s : State) : State :=
  match padWaiting s m with
  | none => s
  | some (n, op) =>
    let me : Wait := .padWrite n op
    if (padWaits s).any (· < n) then s
    else match padTurn op s with
      | some (s, .done st d p _ _) => finishWait (· = me) st d p s
      | some (s, .wait w) => rewait me w s
      | some (s, .sized st _) => finishWait (· = me) st 0 [] s
      | some (s, .hold) => s
      | none => if timedOut then finishWait (· = me) stBusy 0 [] s else s

def execPadWriteResume (mbx : MbxId) (timedOut : Bool) : State → Host.Outcome State Fault Refusal :=
  run (wfPadWriteResume mbx timedOut) (padResume mbx timedOut)

/-! ### Parse records and default actions (R121, R131) -/

def execParseDepthSet (x : XCall) (port : Nat) (record : BitVec 128) : State → Host.Outcome State Fault Refusal :=
  run (wfParseDepthSet x port record) (xop x 0x0501 fun _ s =>
    if 176 ≤ port then (s, badParam 0)
    else if !parseRecOk record.toNat then (s, badParam 8)
    else padCmd (.parse port (clearBits record.toNat [(25, 7), (112, 16)])) s)

def execPortDefaultSet (x : XCall) (port : Nat) (action : BitVec 64) : State → Host.Outcome State Fault Refusal :=
  run (wfPortDefaultSet x port action) (xop x 0x0502 fun _ s =>
    let a := clearBits action.toNat [(25, 7), (52, 12)]
    if 176 ≤ port then (s, badParam 0)
    else if bits a 6 2 = 3 then (s, badParam 8)
    else padCmd (.default_ port a) s)

/-! ### Rules and bindings (R127 to R134) -/

/-- A rule entry that `RULE_WRITE` refuses (R127). -/
def ruleBad (e : Nat) : Bool :=
  let key := bits e 0 640
  let mask := bits e 640 640
  (key &&& (2 ^ 640 - 1 - mask)) ≠ 0 || ((key ||| mask) &&& keyReserved) ≠ 0
    || bits (ruleWord e 40) 5 2 = 3 || bits (ruleWord e 40) 9 2 = 3
    || bits (ruleWord e 40) 11 21 ≠ 0 || bits (ruleWord e 41) 17 15 ≠ 0 || bits (ruleWord e 42) 8 24 ≠ 0
    || bits e 1376 128 ≠ 0 || bits (ruleWord e 47) 2 30 ≠ 0

/-- A binding entry that `RULE_WRITE` refuses (R130). -/
def bindBad (e : Nat) : Bool := !((0x6000 ≤ bits e 0 15 && bits e 0 15 ≤ 0x6FFF) || bits e 0 15 < 0x40)

/-- The slot names of a rule command; else the payload offset at fault. -/
def slotFault (pipes kind slot : Nat) : Option Nat :=
  if 512 ≤ pipes then some 0
  else if 2 ≤ kind then some 2
  else if (kind = 0 && 32768 ≤ slot) || (kind = 1 && (slot = 0 || 256 ≤ slot)) then some 4
  else none

/-- The LIVE flag of a request (R353). -/
def isLive (c : Call) : Bool := bit c.flags 8

def execRuleWrite (x : XCall) (pipes kind slot : Nat) (entry : BitVec 1536) : State → Host.Outcome State Fault Refusal :=
  run (wfRuleWrite x pipes kind slot entry) (xop x 0x0503 fun c s =>
    let e := if kind = 0 then entry.toNat else entry.toNat % 2 ^ 32
    match slotFault pipes kind slot with
    | some o => (s, badParam o)
    | none =>
      if isLive c && kind = 1 then (s, badParam (2 ^ 31 + 4))
      else if (if kind = 0 then ruleBad e else bindBad e) then (s, badParam 8)
      else if isLive c then padCmd (.liveWrite pipes slot e) s
      else padCmd (.write kind pipes slot e) s)

def execRuleClear (x : XCall) (pipes kind slot : Nat) : State → Host.Outcome State Fault Refusal :=
  run (wfRuleClear x pipes kind slot) (xop x 0x0504 fun c s =>
    match slotFault pipes kind slot with
    | some o => (s, badParam o)
    | none =>
      if isLive c && kind = 1 then (s, badParam (2 ^ 31 + 4))
      else if isLive c then padCmd (.liveClear pipes slot) s
      else padCmd (.clear kind pipes slot) s)

/-- What a lost slot reads as is not stated: a free value with VALID set. -/
def execRuleRead (x : XCall) (pipe pad kind slot : Nat) : State → Host.Outcome State Fault Refusal :=
  run (wfRuleRead x pipe pad kind slot) (xop x 0x0505 fun _ s =>
    if 9 ≤ pipe then (s, badParam 0)
    else if 2 ≤ pad then (s, badParam 1)
    else if 2 ≤ kind then (s, badParam 2)
    else if (if kind = 0 then 32768 else 256) ≤ slot then (s, badParam 4)
    else
      let e := slotRec (padOf s pad) kind pipe slot
      if kind = 0 then
        let (e, s) := if ruleLost e then
            let (v, s) := s.draw
            (setBits v 1504 1 1, s)
          else (e, s)
        (s, okWith [.arr (leBytes 192 e), u64 (s.count .ruleHit (pipe * 32768 + slot) pad)])
      else (s, okWith [u64 e, u64 0]))

/-! ### Microcode (R190, R194 to R198) -/

def execUcodeLoad (x : XCall) (u : UcodeReq) : State → Host.Outcome State Fault Refusal :=
  run (wfUcodeLoad x u) (xop x 0x0601 fun _ s =>
    match ucodeFault s u with
    | some (st, d) => (s, failsWith st d)
    | none => padCmd (.ucode u) s)

def execUcodeKeyEnrol (x : XCall) (index op : Nat) (key : List Byte) : State → Host.Outcome State Fault Refusal :=
  run (wfUcodeKeyEnrol x index op key) (xop x 0x0602 fun _ s =>
    if 4 ≤ index then (s, badParam 0)
    else if 2 ≤ op then (s, badParam 1)
    else
      let named := if op = 0 then key else (mgetD s.nv.custKeys index {}).key
      let keys := if op = 0 then mput s.nv.custKeys index { key } else mdel s.nv.custKeys index
      ({ s with nv := { s.nv with custKeys := keys } }, okWith [.arr (beBytes 48 (sha384 named).toNat)]))

/-- Words of the export routines, RET included (R194). -/
def routineWords : List Nat :=
  [15, 12] ++ List.replicate 5 4 ++ [4, 5, 5, 2] ++ List.replicate 5 3 ++ List.replicate 11 3 ++ List.replicate 5 6 ++ [3, 6]
    ++ List.replicate 4 4 ++ List.replicate 3 6 ++ [5, 5, 4] ++ List.replicate 4 8 ++ List.replicate 8 4 ++ List.replicate 8 3

def execUcodeInfo (x : XCall) (pipe pad : Nat) : State → Host.Outcome State Fault Refusal :=
  run (wfUcodeInfo x pipe pad) (xop x 0x0603 (reads fun _ s =>
    if 9 ≤ pipe then badParam 0
    else if 2 ≤ pad then badParam 1
    else
      let p := padOf s pad
      let one (m : List (Nat × UcodeId)) : List Fld :=
        let u := mgetD m pipe {}
        [u64 u.version, .arr (beBytes 48 u.digest)]
      let table := routineWords.zipIdx.flatMap (fun e => leBytes 1 e.1 ++ leBytes 1 (Config.routineStack e.2 % 2))
      okWith ([u32 Config.romId.toNat] ++ one p.custId ++ one p.patchId ++ [.arr table])))

def execUcodePatchState (x : XCall) (pipe pad : Nat) : State → Host.Outcome State Fault Refusal :=
  run (wfUcodePatchState x pipe pad) (xop x 0x0604 (reads fun _ s =>
    if 9 ≤ pipe then badParam 0
    else if 2 ≤ pad then badParam 1
    else okWith ((List.range 32).map (fun i => u32 (mgetD (padOf s pad).matchRegs (pipe * 32 + i) 0)))))

/-! ### Policers, nodes, queue bases and mirror sessions (R209 to R213) -/

/-- A policer is granted to a function of a port. -/
def portPolicer (s : State) (port i : Nat) : Bool :=
  (portVfs s port).any (fun e => e.2.grants.polFirst ≤ i && i < e.2.grants.polFirst + e.2.grants.policers)

def execPolicerSet (x : XCall) (index : Nat) (record : BitVec 256) : State → Host.Outcome State Fault Refusal :=
  run (wfPolicerSet x index record) (xop x 0x0803 fun c s =>
    let r := clearBits record.toNat [(5, 27), (160, 96)]
    if c.role = 2 && !portPolicer s c.port index then (s, fails stDenied)
    else if 524288 ≤ index then (s, badParam 0)
    else if polMode r = 3 || (polMode r = 1 && polPir r < polCir r) then (s, badParam 8)
    else padCmd (.policer index r) s)

/-- Nodes of a level (R212). -/
def levelSize (level : Nat) : Nat := [176, 4096, 32768, 131072].getD level 0

/-- The L0 ancestor of a node of a level, in a Pad. -/
def rootOf (p : Pad) (level i : Nat) : Option Nat :=
  let up (l i : Nat) : Nat := nodeParent (nodeRec p l i)
  let l0 := match level with
    | 0 => i
    | 1 => up 1 i
    | 2 => if up 2 i < 4096 then up 1 (up 2 i) else 0x1FFFF
    | _ => if up 3 i < 32768 && up 2 (up 3 i) < 4096 then up 1 (up 2 (up 3 i)) else 0x1FFFF
  if l0 < 176 then some l0 else none

/-- A port manager may write the node: it lies beneath the L0 node of its port in the shadow Pad (R212). A LEVEL or a number that names no node
names none of its own (log entry 101). -/
def nodeMine (c : Call) (s : State) (level i : Nat) : Bool :=
  c.role ≠ 2 || (0 < level && level < 4 && i < levelSize level && rootOf (padOf s (shadowBit s)) level i = some (144 + c.port))

def execShaperSet (x : XCall) (level resetTo node cir cbs pir pbs : Nat) : State → Host.Outcome State Fault Refusal :=
  run (wfShaperSet x level resetTo node cir cbs pir pbs) (xop x 0x0804 fun c s =>
    if !nodeMine c s level node then (s, fails stDenied)
    else if 4 ≤ level then (s, badParam 0)
    else if 2 ≤ resetTo then (s, badParam 1)
    else if levelSize level ≤ node then (s, badParam 4)
    else padCmd (.rates level node resetTo (pack [(32, cir), (32, cbs), (32, pir), (32, pbs)])) s)

/-- The node form of `QUEUE_MAP`: the payload offset at fault. -/
def nodeFault (level prio pfc overhead weight deadline node parent : Nat) : Option Nat :=
  if 4 ≤ level then some 1
  else if 8 ≤ prio then some 2
  else if 8 ≤ pfc then some 3
  else if 64 ≤ overhead then some 4
  else if weight < 1 || 4095 < weight then some 6
  else if deadline = 1 || 1000 < deadline then some 8
  else if levelSize level ≤ node then some 12
  else if level ≠ 0 && parent ≠ 0x1FFFF && levelSize (level - 1) ≤ parent then some 16
  else none

/-- A port manager may hang a node of its own beneath one of its own nodes or its port's L0 node, or beneath none (R212; log entry 101). -/
def parentMine (c : Call) (s : State) (level parent : Nat) : Bool :=
  c.role ≠ 2 || parent = 0x1FFFF || rootOf (padOf s (shadowBit s)) (level - 1) parent = some (144 + c.port)

/-- A port manager's queue base: for a function of its port, and over queues beneath its port (R212). -/
def baseMine (c : Call) (s : State) (dest base count : Nat) : Bool :=
  c.role ≠ 2 || (destType dest = 2 && fidPort (destArg dest) = c.port && (fn? s (destArg dest)).isSome && count ≤ 16 &&
    (List.range count).all (fun i => rootOf (padOf s (shadowBit s)) 3 (base + i) = some (144 + c.port)))

def queueMap (q : QMap) (c : Call) (s : State) : State × Reply :=
  match q with
  | .node level prio pfc overhead weight deadline node parent =>
    if !nodeMine c s level node || !parentMine c s level parent then (s, fails stDenied)
    else match nodeFault level prio pfc overhead weight deadline node parent with
      | some o => (s, badParam o)
      | none => padCmd (.node level node
          (pack [(17, parent), (3, prio), (12, weight), (1, 0), (3, pfc), (10, deadline), (6, overhead)])) s
  | .base count dest base =>
    if !baseMine c s dest base count then (s, fails stDenied)
    else if !([1, 2, 4, 8, 16].contains count) then (s, badParam 1)
    else if !((destType dest = 1 && destArg dest < 144) || (destType dest = 2 && destArg dest < 65536)) || 2 ^ 24 ≤ dest then
      (s, badParam 4)
    else if 131072 < base + count then (s, badParam 8)
    else padCmd (.qbase dest (base * 32 + count)) s
  | .session n trunc sample queue =>
    if c.role = 2 then (s, fails stDenied)
    else if n < 1 || 7 < n then (s, badParam 1)
    else if trunc ≠ 0 && (trunc < 64 || 9600 < trunc) then (s, badParam 2)
    else if sample = 0 then (s, badParam 4)
    else padCmd (.mirror n trunc sample (if queue < 131072 then some queue else none)) s
  | .other _ => (s, badParam 0)

def execQueueMap (x : XCall) (q : QMap) : State → Host.Outcome State Fault Refusal :=
  run (wfQueueMap x q) (xop x 0x0805 (queueMap q))

/-! ### Groups (R159, R160, R164) -/

/-- The payload offset of a group record or member at fault. -/
def groupFault (group record : Nat) (members : List Nat) : Option Nat :=
  if 16384 ≤ group then some 0
  else if 2 ≤ grpKind record || grpMode record = 3 || grpCount record < 1 || 512 < grpCount record || grpGap record < 1
      || 1000 < grpGap record || grpCount record ≠ members.length then some 4
  else (members.findIdx? (fun m => memberWeight m < 1 || (grpKind record = 1 && 144 ≤ memberId m))).map (8 + 4 * ·)

def execLbGroupSet (x : XCall) (group record : Nat) (members : List Nat) : State → Host.Outcome State Fault Refusal :=
  run (wfLbGroupSet x group record members) (xop x 0x0409 fun _ s =>
    match groupFault group record members with
    | some o => (s, badParam o)
    | none =>
      if sprayFull s group record then (s, fails stNoResource)
      else padCmd (.group group (clearBits record [(26, 6)]) (members.map (clearBits · [(26, 6)]))) s)

/-! ### Copy, Leap, state, discard (R221 to R228) -/

def execPadCopy (x : XCall) : State → Host.Outcome State Fault Refusal :=
  run (wfPadCopy x) (xop x 0x0701 fun _ s => padCmd .copy s)

def execPadDiscard (x : XCall) : State → Host.Outcome State Fault Refusal :=
  run (wfPadDiscard x) (xop x 0x0704 fun _ s => padCmd .discard s)

def execPadState (x : XCall) : State → Host.Outcome State Fault Refusal :=
  run (wfPadState x) (xop x 0x0703 (reads fun _ s =>
    let l := s.pkt.leap
    okWith [u8 l.active, u8 l.shadow, u16 l.gen, u8 (b2n l.pending.isSome), u32 l.spread, u64 (l.pending.getD 0), u64 l.last,
      u32 (vacatedCells s (shadowBit s))]))

def execPadLeap (x : XCall) (mode expect time : Nat) : State → Host.Outcome State Fault Refusal :=
  run (wfPadLeap x mode expect time) (xop x 0x0702 fun c s => padCmd (.leap mode expect time (bit c.flags 9)) s)

/-- An armed Leap whose TIME device time has reached triggers (R226). -/
def execTimedLeapTrigger (spread : Nat) : State → Host.Outcome State Fault Refusal :=
  run (wfTimedLeapTrigger spread) fun s => match s.pkt.leap.pending with
    | some t => if t ≤ s.time then leapTrigger spread s else s
    | none => s

end Sys2Proof.Machine
end

