-- ==== Sys2Proof/Machine/BufferCmds.lean ====
section
/-! DEFINITION. The commands of pools, reserves, queue telemetry and queue counters (R200 to R202, R217, R219). -/

namespace Sys2Proof.Machine

/-! ### Pools and reserves (R200 to R202) -/

/-- The functions the device presents: owners of the packets fetched from their transmit rings. -/
def allFids (s : State) : List Nat := (List.range 32).flatMap (portFids s)

/-- An owner is placed in the pool: by `RESERVE_SET`, or by default in pool 0 or pool 63 (R200). -/
def poolHolds (s : State) (p : Nat) : Bool :=
  let here (o : Nat) : Bool := poolOfOwner s o = p
  let queuesMoved := (s.pkt.owners.filter (fun e => ownerKind e.1 = 6 && e.2.pool.isSome)).length
  s.pkt.owners.any (fun e => e.2.pool = some p)
    || (p = 63 && queuesMoved < 131072)
    || (p = 0 && ((List.range 1152).any (fun i => here (ownerKey 0 i)) || (allFids s).any (fun f => here (ownerKey 1 f))
      || [2, 3, 5].any (fun k => here (ownerKey k 0))))

/-- A pool record within its fields' ranges (R200). -/
def poolOk (r : Nat) : Bool :=
  poolSize r ≤ 1048576 && 1 ≤ poolWarn1 r && poolWarn1 r < poolWarn2 r

def execPoolConfig (x : XCall) (pool : Nat) (record : BitVec 64) : State → Host.Outcome State Fault Refusal :=
  run (wfPoolConfig x pool record) (xop x 0x0801 fun _ s =>
    let r := clearBits record.toNat [(36, 28)]
    if 64 ≤ pool then (s, badParam 0)
    else if !poolOk r then (s, badParam 8)
    else if poolType r ≠ poolType (poolRec s pool) && poolHolds s pool then (s, fails stState)
    else
      let s' := s.modPkt (fun p => { p with pools := mput p.pools pool r })
      if cellsFit s' then (s', ok) else (s, fails stNoResource))

/-- The ID names an owner of the kind (R201). Kinds without an ID ignore it. -/
def ownerFound (s : State) (okind id : Nat) : Bool :=
  match okind with
  | 0 => id < 1152
  | 1 => (fn? s id).isSome
  | 6 => id < 131072
  | _ => true

def execReserveSet (x : XCall) (okind pool lossless id min headroom : Nat) : State → Host.Outcome State Fault Refusal :=
  run (wfReserveSet x okind pool lossless id min headroom) (xop x 0x0802 fun _ s =>
    if 7 ≤ okind || okind = 4 then (s, badParam 0)
    else if 64 ≤ pool || poolType (poolRec s pool) ≠ b2n (okind = 6) then (s, badParam 1)
    else if 2 ≤ lossless then (s, badParam 2)
    else if !ownerFound s okind id then (if okind = 1 then (s, fails stNotFound) else (s, badParam 4))
    else if okind ≠ 1 && 1048576 < min then (s, badParam 8)
    else if okind = 0 && 1048576 < headroom then (s, badParam 12)
    else
      let o := ownerKey okind (if okind = 0 || okind = 1 || okind = 6 then id else 0)
      let place (w : Owner) : Owner :=
        let w := { w with pool := some pool }
        let w := if okind = 1 then w else { w with min := some min }
        if okind = 0 then { w with lossless := lossless = 1, headroom := headroom } else w
      let s' := s.modOwner o place
      if cellsFit s' then (if okind = 0 then pauseSync o s' else s', ok) else (s, fails stNoResource))

/-! ### Telemetry rings (R217) -/

/-- A queue lies beneath a host port in the active Pad. -/
def queueBeneath (s : State) (port q : Nat) : Bool := q < 131072 && rootOf (padOf s s.pkt.leap.active) 3 q = some (144 + port)

/-- The records per µs of the rings, as a fraction. -/
def sampleLoad (m : List (Nat × QSample)) : Nat × Nat :=
  m.foldl (fun a e => (a.1 * e.2.interval + e.2.queues.length * a.2, a.2 * e.2.interval)) (0, 1)

def execQueueSampleConfig (x : XCall) (ring log2 interval count ringAddr indexAddr : Nat) (queues : List Nat) :
    State → Host.Outcome State Fault Refusal :=
  run (wfQueueSampleConfig x ring log2 interval count ringAddr indexAddr queues) (xop x 0x0806 fun c s =>
    if c.role = 2 && !queues.all (queueBeneath s c.port) then (s, fails stDenied)
    else if 16 ≤ ring then (s, badParam 0)
    else if count = 0 then (s.modPkt (fun p => { p with telem := mdel p.telem ring }), ok)
    else if log2 < 12 || 20 < log2 then (s, badParam 1)
    else if interval < 1 || 1000 < interval then (s, badParam 2)
    else if 8192 < count then (s, badParam 4)
    else match queues.findIdx? (131072 ≤ ·) with
      | some i => (s, badParam (24 + 4 * i))
      | none =>
        let new : QSample := { log2, interval, ringAddr, indexAddr, fid := c.fid, queues }
        let m := mput s.pkt.telem ring new
        let l := sampleLoad m
        if 256 * l.2 < l.1 then (s, fails stNoResource)
        else (s.modPkt (fun p => { p with telem := m }), ok))

/-! ### Queue counters (R219) -/

/-- ns since the head of a queue was enqueued. -/
def headDelay (s : State) (q : Nat) : Nat :=
  match (mgetD s.pkt.queues q []).head? with
  | some c => min (2 ^ 32 - 1) ((s.tick - c.at_) * 1000)
  | none => 0

/-- The counters of a queue: packets and bytes in, packets and bytes out, drops by reason (3, 4, port down 6, pause storm 10, marked
copies, MTU 5, Path Check Word 7), ECN marks. -/
def queueCounters (s : State) (q : Nat) : List Nat :=
  [s.count .queueIn q 0, s.count .queueInBytes q 0, s.count .queueOut q 0, s.count .queueOutBytes q 0]
    ++ [3, 4, 6, 10, 16, 5, 7].map (s.count .queueDrop q) ++ [s.count .ecnMark (ownerKey 6 q) 0]

def execQueueStats (x : XCall) (queue : Nat) : State → Host.Outcome State Fault Refusal :=
  run (wfQueueStats x queue) (xop x 0x0807 fun c s =>
    if c.role = 2 && !queueBeneath s c.port queue then (s, fails stNotFound)
    else if 131072 ≤ queue then (s, badParam 0)
    else
      let depth := (ownerOf s (ownerKey 6 queue)).use
      let delay := headDelay s queue
      let reply := okWith ([u32 (max depth (mgetD s.pkt.maxDepth queue 0)), u32 (max delay (mgetD s.pkt.maxDelay queue 0))]
        ++ (queueCounters s queue).map u64)
      (s.modPkt (fun p => { p with maxDepth := mput p.maxDepth queue depth, maxDelay := mput p.maxDelay queue delay }), reply))

end Sys2Proof.Machine
end

