-- ==== Sys2Proof/Machine/Microcode.lean ====
section
/-! DEFINITION. The action engines: one microword, the asynchronous operations it issues and their completion, the export routines, and
the end of a packet (R176 to R188, R192 to R194). -/

namespace Sys2Proof.Machine

/-! ### Contexts -/

/-- The contexts of a pipeline, oldest first. -/
def ctxsOf (s : State) (pipe : Nat) : List Ctx := mgetD s.pkt.ctxs pipe []

/-- The state with a context replaced. -/
def putCtx (pipe : Nat) (c : Ctx) (s : State) : State :=
  s.modPkt (fun p => { p with ctxs := mupd p.ctxs pipe [] (fun l => l.map (fun x => if x.id = c.id then c else x)) })

/-- A context becomes free. -/
def endCtx (pipe id : Nat) (s : State) : State :=
  s.modPkt (fun p => { p with ctxs := mupd p.ctxs pipe [] (fun l => l.filter (fun x => x.id ≠ id)) })

/-- The end of a packet at END or ENDP (R184, R377). -/
def finishPkt (c : Ctx) (punt : Bool) (s : State) : State :=
  let k := c.pkt
  let s := meterIn k.tenant k.cls k.rxLen s
  if c.drop then dropPkt k c.dropReason s
  else if c.red then dropPkt k 2 s
  else endPkt k { edits := c.edits, outer := c.outer, mirrors := c.mirrors, tsOut := c.tsOut, dest := c.dest, reason := c.reason
                  punt } s

/-- The first context that ends: its last word has run, its operations have completed, and no context before it holds a packet of its
flow, whose packets leave in the order in which they came (O1). -/
def firstEnded : List Ctx → List Ctx → Option (Ctx × Bool)
  | _, [] => none
  | before, c :: r =>
    match if c.ops.isEmpty && !before.any (fun b => sameFlow b.pkt c.pkt) then c.ending else none with
    | some p => some (c, p)
    | none => firstEnded (before ++ [c]) r

/-- Every packet of a pipeline that can end does, in order. -/
def settlePipe (pipe : Nat) : Nat → State → State
  | 0, s => s
  | fuel + 1, s => match firstEnded [] (ctxsOf s pipe) with
    | some (c, p) => settlePipe pipe fuel (finishPkt c p (endCtx pipe c.id s))
    | none => s

/-- A turn of a pipeline's action engines: what happens in it, the packets that end by it, the Path Check Word of what it punts (R283, R284),
and the sources that contexts free of a packet let go on (R173). -/
def engineTurn (turn : PipeTurn) (f : State → State) (s : State) : State :=
  let pipe := turn.pipe
  let t := f (s.modPkt (fun p => { p with puntCheck := b2n (!turn.puntOk) }))
  let t := settlePipe pipe (ctxsOf t pipe).length t
  let bad := t.pkt.puntCheck - 1
  let t := t.modPkt (fun p => { p with puntCheck := 0 })
  let t := (List.range bad).foldl (fun t _ => domFault (.pipeline (physOf t 0 pipe)) 6 2 (t.bump .pcwBad 2 pipe 1)) t
  resumeHosts pipe s t

/-! ### Lookups (R182) -/

/-- G8 upward, packed from bit 0 of G8. -/
def gPacked (c : Ctx) : Nat := pack ((List.range 20).map (fun i => (32, gReg c (8 + i))))

/-- The key of a lookup; of the attachment map, the first that hits of those R139 gives the packet; customer code looks up in the packet's VN alone (R182, R192; log entry 27). -/
def lookupKey (s : State) (c : Ctx) (cust : Bool) (tbl kk : Nat) : Nat :=
  let k := c.pkt
  let view := if kk = 1 then 1 else 0
  let f := dictField k view
  let p := gPacked c
  let raw : Bool := kk = 2
  let vn := if raw && !cust then p % 2 ^ 20 else k.vn
  let vrf := if raw && !cust then p % 4096 else vnVrf (mgetD s.pkt.vns k.vn 0)
  match tbl with
  | 1 => vn
  | 2 => l2Key (if raw then bits p 20 48 else f 0x0B) vn
  | 3 => l2Key (if raw then bits p 20 48 else f 0x0C) vn
  | 4 => if raw then (if cust then setBits (bits p 0 318) 296 20 k.vn else bits p 0 318) else flowKeyOf k view
  | 5 => vrf + 4096 * (if raw then bits p 12 32 else f 0x1B)
  | 6 => vrf + 4096 * (if raw then bits p 12 128 else f 0x1B)
  | 7 => gReg c 8 % 262144
  | _ =>
    let tries := (attTries k).map (fun t => attKey t.1 t.2)
    if raw then bits p 0 34 else (tries.find? (fun key => ((tblOf s 0 k.pipe).find attKind key).isSome)).getD (tries.headD 0)

/-- A lookup completes: hit, destination and argument, what the table does not give being free (R179; log entry 27). A flow hit refreshes
its entry and names it for the flow-state operations. -/
def lookupDone (c : Ctx) (tbl key : Nat) (s : State) : Ctx × State :=
  let pipe := c.pkt.pipe
  let (fd, s) := s.drawBelow (2 ^ 24)
  let (fa, s) := s.drawBelow (2 ^ 32)
  let put (hit : Bool) (d a : Nat) : Ctx := { c with hit, lkDest := d, lkArg := a }
  let opt (r : Option Nat) : Ctx := match r with
    | some d => put true d fa
    | none => put false fd fa
  match tbl with
  | 1 => (put (vnValid (mgetD s.pkt.vns key 0)) fd fa, s)
  | 2 | 3 => (opt (((tblOf s 2 pipe).find l2Kind key).map l2Dest), s)
  | 4 => match flowLook key s with
    | (some e, s) => ({ put true (flowDest e) (flowArg e) with lkState := flowState e, flowKey := some key }, s)
    | (none, s) => ({ put false fd fa with flowKey := none }, s)
  | 5 => (opt (lpm 32 s.pkt.v4 (key % 4096) (key / 4096)), s)
  | 6 => (opt (lpm 128 s.pkt.v6 (key % 4096) (key / 4096)), s)
  | 7 => (put true fd (nhOut (mgetD s.pkt.nhs key 0)), s)
  | _ => (put ((tblOf s 0 pipe).find attKind key).isSome fd fa, s)

/-! ### Policing, hashing, memory (R185) -/

/-- A policer's result replaces COLOUR; red drops at the end (R211). -/
def policeDone (c : Ctx) (i colour : Nat) (s : State) : Ctx × State :=
  let (r, s) := police c.pkt.pad i c.pkt.rxLen colour s
  ({ c with pol := some r, red := c.red || r = 2, pkt := { c.pkt with colour := r } }, s)

/-- The fields that a hash covers. -/
def hashFields (c : Ctx) (sel : Nat) : List Nat :=
  let f := dictField c.pkt (if sel = 2 then 1 else 0)
  match sel with
  | 3 => [c.pkt.vn, f 0x0B, f 0x0C]
  | 4 => [gReg c 8, gReg c 9, gReg c 10, gReg c 11]
  | _ => [f 0x1A, f 0x1B, f 0x1C, f 0x21, f 0x22]

/-- HASH: bits 31:0 of the keyed hash under a microcode seed. -/
def hashDone (c : Ctx) (seed : Nat) (fields : List Nat) (s : State) : Ctx :=
  { c with hash := keyedHash (mgetD s.pkt.hashSeed (c.pkt.pipe * 2 + seed) 0) fields % 2 ^ 32 }

/-- The flow entry that a flow-state operation acts on: that of the last flow lookup's hit when the operation was issued. -/
def stateEntry (s : State) (key : Option Nat) : Option Nat := key.bind (s.pkt.flow.find flowKind)

/-- The flow entry's STATE written. -/
def writeState (e v : Nat) (s : State) : State :=
  s.modPkt (fun p => { p with flow := p.flow.rewrite flowKind (setBits e 416 32 v) })

/-- A scratch word. -/
def scratchAt (s : State) (pipe a : Nat) : Nat := ofLe (rdN s.pkt.scratch (pipe * 65536 + a) 4)
def scratchPut (pipe a v : Nat) (s : State) : State :=
  s.modPkt (fun p => { p with scratch := wrN p.scratch (pipe * 65536 + a) (leBytes 4 v) })

/-- A memory operation completes (R185). -/
def memDone (c : Ctx) (op a v : Nat) (key : Option Nat) (s : State) : Ctx × State :=
  let pipe := c.pkt.pipe
  match op with
  | 1 => ({ c with mem := scratchAt s pipe a }, s)
  | 2 => (c, scratchPut pipe a v s)
  | 3 => ({ c with mem := scratchAt s pipe a }, scratchPut pipe a (w32 (scratchAt s pipe a + v)) s)
  | 4 => ({ c with mem := ((stateEntry s key).map flowState).getD 0 }, s)
  | 5 => match stateEntry s key with
    | some e => (c, writeState e v s)
    | none => (c, s)
  | _ => match stateEntry s key with
    | some e =>
      if flowState e = a then ({ c with mem := flowState e, swapped := true }, writeState e v s)
      else ({ c with mem := flowState e, swapped := false }, s)
    | none => ({ c with mem := 0, swapped := false }, s)

/-! ### Cipher requests (R185, R303, R304) -/

/-- What ends a pipeline request besides the checks of every request: the wrong pipeline, an exhausted SA, an SA of another kind
(R297, R303; log entry 30). -/
def espCheck (a : Sa) (op pipe : Nat) : Option Nat :=
  if (op = 2 && a.kind ≠ 0) || (op = 1 && a.kind ≠ 1) then some 2
  else if op = 2 && a.home ≠ pipe then some 9
  else if a.state = 2 then some 5
  else none

/-- Issues a pipeline's request on the SA in G5: 1 decrypt, 2 encrypt. A number is taken at issue, and the packets of a pipeline issue in
the order in which they entered it (R303). -/
def cryIssue (op : Nat) (routine : Bool) (c : Ctx) (s : State) : Ctx × State :=
  let n := gReg c 5
  let a := saOf s n
  let k := c.pkt
  let r : CipherReq := { cls := 0, tenant := k.tenant, fid := k.fid, slot := a.slot, sa := some n, op, cur := c.cur
                         len := k.bytes.length - curOff k c.cur, dst := .pipeline k.pipe c.id }
  let st := match reqCheck s r with
    | some x => some x
    | none => espCheck a op k.pipe
  let (seq, s) := if st.isNone && op = 2 then saTake n s else (0, s)
  let id := s.cip.nextReq
  ({ c with ops := c.ops ++ [.cipher id], espRoutine := routine }, cipherSubmit { r with status := st, seq } s)

/-! ### The synchronous units (R178, R185) -/

/-- Checksum verification of the header at CUR: 1 IPv4 header, 2 L4. On a header of another type the result is free. -/
def csumVerify (c : Ctx) (kind : Nat) (s : State) : Option Bool × State :=
  let k := c.pkt
  let free (s : State) : Option Bool × State :=
    let (b, s) := s.drawBelow 2
    (some (b = 1), s)
  match k.parse.hdrs[c.cur]? with
  | none => free s
  | some h =>
    if kind = 1 then
      if h.code = 5 then (some (ocSum ((k.bytes.drop h.off).take h.len) = 65535), s) else free s
    else match hdrIn k.parse h.level [5, 6] with
      | none => free s
      | some ip =>
        if h.code ≠ 0x0B && h.code ≠ 0x0C then free s
        else
          let seg := (k.bytes.take (segEnd k h.level)).drop h.off
          let addrs := if ip.code = 5 then (k.bytes.drop (ip.off + 12)).take 8 else (k.bytes.drop (ip.off + 8)).take 32
          let ps := addrs ++ beBytes 2 (if h.code = 0x0B then 17 else 6) ++ beBytes 2 seg.length
          (some ((h.code = 0x0B && ip.code = 5 && atBe k.bytes (h.off + 6) 2 = 0)
            || oc16 (ocSum ps) (ocSum seg) = 65535), s)

/-- Group resolution of DEST: the lookup destination is the chosen member's egress, and the packet keeps the choice until it ends. -/
def lbResolve (c : Ctx) (s : State) : Ctx × State :=
  if destType c.dest = 4 then
    match chooseMember c.pkt (destArg c.dest) s with
    | (some v, s) => ({ c with lkDest := codeDest s v.code, pkt := { c.pkt with lb := some v } }, s)
    | (none, s) => ({ c with lkDest := 0 }, s)
  else if destType c.dest = 3 then ({ c with lkDest := nhOut (mgetD s.pkt.nhs (destArg c.dest) 0) }, s)
  else ({ c with lkDest := c.dest }, s)

/-- Counts on a counter pair (R185). -/
def cntAdd (pipe idx bytes : Nat) (s : State) : State :=
  (s.bump .counterPkts (pipe * 32768 + idx) 0 1).bump .counterBytes (pipe * 32768 + idx) 0 bytes

/-- The extractor's bits (R181). -/
def extract (s : State) (c : Ctx) (off wid : Nat) : Nat :=
  let k := c.pkt
  let seen := min k.bytes.length (recBytes (parseRec (padOf s k.pad) k.inPort))
  atBe (k.bytes.take seen) (curOff k c.cur + off) 5 / 2 ^ (40 - wid)

/-! ### Next address (R177, R192) -/

/-- The next PC and micro-stack, or the code of a fault. -/
def nextPc (c : Ctx) (addr w : Nat) : Except Nat (Nat × List Nat) :=
  let inCust (t : Nat) : Bool := 0x6000 ≤ t && t < 0x7000
  let go (t : Nat) : Except Nat (Nat × List Nat) :=
    if isCustomer addr && !inCust t then .error 5 else .ok (t % 2 ^ 15, c.stack)
  match uSeq w with
  | 1 => go (uTgt w)
  | 2 => go (if condHolds c (uCond w) then uTgt w else addr + 1)
  | 3 =>
    if isCustomer addr && !inCust (uTgt w) && 0x40 ≤ uTgt w then .error 5
    else if 4 ≤ c.stack.length then .error 1
    else .ok (uTgt w, (addr + 1) % 2 ^ 15 :: c.stack)
  | 4 => match c.stack with
    | t :: r => .ok (t, r)
    | [] => .error 2
  | 5 => go (uTgt w + 4 * curCode c.pkt c.cur)
  | _ => go (addr + 1)

/-! ### Edits, windows -/

/-- The edit that a word appends. -/
def wordEdit (c : Ctx) (w : Nat) : Option Edit :=
  let arg := uRwArg w
  let v := match uRwOp w with
    | 1 | 2 | 3 | 8 | 0xA => srcValue c w (uASrcB w)
    | 0xC => gReg c (arg % 32) % 262144
    | 0xE => gReg c (arg % 32) % 65536 * 2 ^ 32 + gReg c (arg % 32 + 1)
    | _ => 0
  if uRwOp w = 0 then none else some { op := uRwOp w, arg, value := v, cur := c.cur }

/-- A customer index of the word lies outside its window (R187 code 7). -/
def custWinFault (s : State) (c : Ctx) (cust : Bool) (w : Nat) : Bool :=
  let k := c.pkt
  (uCntOp w ≠ 0 && (cntIndex s k cust (gReg c (uCntIdx w))).isNone)
    || (uPolGo w && (polIndex s k cust (gReg c (uPolIdx w))).isNone)
    || (uQsel w = 2 && (queIndex s k cust (srcValue c w (uASrcB w))).isNone)
    || (uQsel w = 3 && (queIndex s k cust c.lkArg).isNone)
    || ((uMemOp w = 1 || uMemOp w = 2 || uMemOp w = 3) && (scrIndex s k cust (gReg c (uMemAddr w))).isNone)

/-- The fault that a word is, before any of it takes effect (R187). -/
def wordFault (s : State) (c : Ctx) (addr w : Nat) : Option Nat :=
  let bad := match wordEdit c w with
    | some e => editFault s c.pkt c.edits e
    | none => false
  match if wordEnds w then .ok (0, []) else nextPc c addr w with
  | .error x => some x
  | .ok _ => if bad then some 6 else if custWinFault s c (isCustomer addr) w then some 7 else none

/-! ### One word (R176) -/

/-- The registers and flags that a word writes. -/
def wordRegs (s : State) (c : Ctx) (w : Nat) : Ctx :=
  let v := srcValue c w
  let c' := c
  let c' := if uAOp w = 0 then c' else
    let r := aluOp (uAOp w) (v (uASrcA w)) (v (uASrcB w))
    { writeDst c' (uADst w) r.1 with fa := aluFlags r }
  let c' := if uBOp w = 0 then c' else
    let r := aluOp (uBOp w) (v (uBSrcA w)) (v (uBSrcB w))
    { writeDst c' (uBDst w) r.1 with fb := aluFlags r }
  let c' := if uXWid w = 0 || 32 < uXWid w then c' else writeDst c' (uXDst w) (extract s c (uXOff w) (uXWid w))
  let c' := if uMdSrc w < 4 then c' else
    let x := if uMdSel w = 0x38 then c.dest else dictField c.pkt 0 (uMdSel w)
    writeDst c' (uXDst w) (bits x (32 * (uMdSrc w - 4)) 32)
  if uTs w = 2 then { c' with g := mput (mput c'.g 26 (bits s.time 0 32)) 27 (bits s.time 32 32) } else c'

/-- The metadata, queue and marks that a word writes (R181, R185). -/
def wordMeta (s : State) (c : Ctx) (cust : Bool) (w : Nat) (c' : Ctx) : Ctx :=
  let v := srcValue c w
  let k := c.pkt
  let md := match uMdSrc w with
    | 1 => some (uImm w)
    | 2 => some (v (uASrcA w))
    | 3 => some (v (uBSrcA w))
    | _ => none
  let c' := match md with
    | some x => match uMdSel w with
      | 0x31 => { c' with pkt := { c'.pkt with cls := x % 16 } }
      | 0x32 => { c' with pkt := { c'.pkt with colour := x % 4 } }
      | 0x38 => { c' with dest := x % 2 ^ 24, hasDest := true }
      | _ => c'
    | none => c'
  let c' := match uQsel w with
    | 1 => { c' with pkt := { c'.pkt with queue := none } }
    | 2 => { c' with pkt := { c'.pkt with queue := queIndex s k cust (v (uASrcB w)) } }
    | 3 => { c' with pkt := { c'.pkt with queue := queIndex s k cust c.lkArg } }
    | _ => c'
  let c' := if uCsum w = 3 || uCsum w = 4 then { c' with outer := uCsum w } else c'
  let c' := if uPunt w = 2 then { c' with reason := uImm w % 256 } else c'
  let c' := if uTs w = 1 then { c' with tsOut := true } else c'
  let c' := if uMirror w = 0 then c' else { c' with mirrors := c'.mirrors ++ [uMirror w] }
  let c' := if uDrop w then { c' with drop := true } else c'
  { c' with edits := c'.edits ++ (wordEdit c w).toList }

/-- The operations that a word issues, with the operands of its start (R176). -/
def wordIssue (s : State) (c : Ctx) (cust : Bool) (w : Nat) : List MOp :=
  let v := srcValue c w
  let k := c.pkt
  (if uLGo w && uLTbl w ≠ 0 then [MOp.lookup (uLTbl w) (lookupKey s c cust (uLTbl w) (uLKey w))] else [])
  ++ (if uPolGo w then [MOp.police ((polIndex s k cust (gReg c (uPolIdx w))).getD 0) k.colour] else [])
  ++ (if uHashSel w = 0 then [] else [MOp.hash (uHashSeed w % 2) (hashFields c (uHashSel w))])
  ++ (if uCkv w = 0 then [] else [MOp.ckv (uCkv w) c.cur c.flowKey])
  ++ (match uMemOp w with
    | 0 => []
    | 1 | 2 | 3 => [MOp.mem (uMemOp w) ((scrIndex s k cust (gReg c (uMemAddr w))).getD 0) (v (uBSrcB w)) none]
    | m => [MOp.mem m (gReg c (uMemAddr w)) (v (uBSrcB w)) c.flowKey])

/-- What an operation that has been issued does beyond its packet: it completes though the packet has ended by a fault (R176). -/
def opEffect (c : Ctx) (o : MOp) (s : State) : State :=
  match o with
  | .lookup t key => (lookupDone c t key s).2
  | .police i colour => (policeDone c i colour s).2
  | .mem op a v key => (memDone c op a v key s).2
  | .ckv op cur key => match ckvSegment c.pkt op cur key s with
    | some (_, _, s) => s
    | none => s
  | .hash .. | .cipher _ => s

/-- The operations that an ended packet leaves outstanding complete, in the order of issue. -/
def flushOps (c : Ctx) (s : State) : State := c.ops.foldl (fun s o => opEffect c o s) s

/-- A microcode fault ends a context (R187). -/
def faultEnd (c : Ctx) (code addr : Nat) (s : State) : State :=
  mfaultEnd c.pkt code addr (endCtx c.pkt.pipe c.id (flushOps c s))

/-- A word of a context runs (R176 to R185). The packet of a last word ends when the operations that the word issues have completed. -/
def runWord (c : Ctx) (addr w : Nat) (s : State) : State :=
  let k := c.pkt
  let pipe := k.pipe
  let cust := isCustomer addr
  match wordFault s c addr w with
  | some code => faultEnd c code addr s
  | none =>
    let c' := wordMeta s c cust w (wordRegs s c w)
    let c' := { c' with ops := c'.ops ++ wordIssue s c cust w, steps := c.steps + 1 }
    let s := if uCntOp w = 0 then s else
      cntAdd pipe ((cntIndex s k cust (gReg c (uCntIdx w))).getD 0)
        (if uCntOp w = 2 then k.rxLen else if uCntOp w = 3 then srcValue c w (uBSrcB w) else 0) s
    let (c', s) := if uCsum w = 1 || uCsum w = 2 then
        let (b, s) := csumVerify c (uCsum w) s
        ({ c' with csum := b }, s)
      else (c', s)
    let (c', s) := if uLb w = 1 then
        let (x, s) := lbResolve c s
        ({ c' with lkDest := x.lkDest, pkt := { c'.pkt with lb := x.pkt.lb } }, s)
      else (c', s)
    let s := if uPunt w = 1 then punt (withBytes s k (unshim k)) c.reason true s else s
    let (c', s) := if uCry w = 1 || uCry w = 2 then
        let (x, s) := cryIssue (uCry w) false c s
        ({ c' with ops := c'.ops ++ x.ops.drop c.ops.length }, s)
      else (c', s)
    if wordEnds w then putCtx pipe { c' with ending := some (uSeq w = 7 && !uDrop w) } s
    else match nextPc c addr w with
      | .ok (pc, st) => putCtx pipe { c' with pc, stack := st } s
      | .error _ => s

/-! ### The export routines (R194; log entry 26) -/

/-- The greatest number of words of a routine, RET included. -/
def exportWords (i : Nat) : Nat :=
  if i = 0 then 15 else if i = 1 then 12 else if i < 8 then 4 else if i < 0x0A then 5 else if i = 0x0A then 2
  else if i < 0x1B then 3 else if i < 0x20 then 6 else if i = 0x20 then 3 else if i = 0x21 then 6 else if i < 0x26 then 4
  else if i < 0x29 then 6 else if i < 0x2B then 5 else if i = 0x2B then 4 else if i < 0x30 then 8 else if i < 0x38 then 4 else 3

/-- Appends an edit of a routine, unless it is a fault. -/
def tryEdit (e : Edit) (x : Ctx × State × Option Nat) : Ctx × State × Option Nat :=
  let (c, s, f) := x
  let e := { e with cur := c.cur }
  match f with
  | some _ => x
  | none => if editFault s c.pkt c.edits e then (c, s, some 6) else ({ c with edits := c.edits ++ [e] }, s, none)

/-- G1 of a context set. -/
def setG1 (c : Ctx) (v : Nat) : Ctx := { c with g := mput c.g 1 (w32 v) }

/-- CUR at the first header of the level below the one at CUR, with everything before it stripped. -/
def decap (c : Ctx) (s : State) : Ctx × State × Option Nat :=
  let level := ((c.pkt.parse.hdrs[c.cur]?).map (·.level)).getD 0
  match c.pkt.parse.hdrs.findIdx? (fun h => h.level = level + 1) with
  | some i => tryEdit { op := 7, arg := 0, value := 0, cur := i } ({ c with cur := i }, s, none)
  | none => (c, s, some 6)

/-- What a routine that returns does, G1 to G4 being its arguments: the context, the state, and the code of a fault. -/
def exportRun (i : Nat) (c : Ctx) (s : State) : Ctx × State × Option Nat :=
  let k := c.pkt
  let g := gReg c
  let ed (op arg value : Nat) (x : Ctx × State × Option Nat) : Ctx × State × Option Nat := tryEdit { op, arg, value, cur := c.cur } x
  let just (c : Ctx) : Ctx × State × Option Nat := (c, s, none)
  let both (x : Ctx × State) : Ctx × State × Option Nat := (x.1, x.2, none)
  let look (t : Nat) : Ctx × State × Option Nat := both (lookupDone c t (lookupKey s c false t 0) s)
  match i with
  | 0x02 => look 1
  | 0x03 =>
    if k.hasVn then
      let (s, l) := learn k s
      (if l = .drop then { c with drop := true, dropReason := 1 } else c, s, none)
    else just c
  | 0x04 => look 4
  | 0x05 => look 5
  | 0x06 => look 6
  | 0x07 => look 2
  | 0x08 | 0x26 | 0x27 => ed 0xC 0 (g 1 % 262144) (just c)
  | 0x09 => both (lbResolve c s)
  | 0x0A => just { c with dest := mkDest 5 k.vn, hasDest := true }
  | 0x0B => just { c with dest := mkDest 2 (g 1 % 65536), hasDest := true }
  | 0x0C => just { c with dest := mkDest 1 (g 1 % 2 ^ 21), hasDest := true }
  | 0x0D =>
    -- 0xF0 and above are hardware's alone (R186): what a call with one of them sets is not stated (log entry 26)
    let (r, s) := s.drawBelow 0xF0
    ({ c with reason := if g 1 % 256 < 0xF0 then g 1 % 256 else r }, s, none)
  | 0x0E => ({ c with drop := true }, cntAdd k.pipe (g 1 % 32768) k.rxLen s, none)
  | 0x0F => just { c with pkt := { k with queue := none } }
  | 0x10 => ed 4 0 0 (just c)
  | 0x11 => ed 5 (g 1 % 64) 0 (just c)
  | 0x12 => ed 6 0 0 (just c)
  | 0x13 => ed 8 (g 2 % 2) (g 1) (just c)
  | 0x14 => ed 9 0 0 (just c)
  | 0x15 => ed 2 0 (g 1 % 65536) (just c)
  | 0x16 => ed 0xA (g 2 % 8) (g 1 % 2 ^ 20) (just c)
  | 0x17 => ed 0xB 0 0 (just c)
  | 0x18 => ed 3 0 (g 1 % 2 ^ 20 * 4096 + atBe k.bytes (curOff k c.cur) 4 % 4096) (just c)
  | 0x19 => ed 0xD (g 1 % 16) 0 (just c)
  | 0x1A => ed 0xE 0 (g 1 % 65536 * 2 ^ 32 + g 2) (just c)
  | 0x1B => ed 3 12 (g 1) (just c)
  | 0x1C => ed 3 16 (g 1) (just c)
  | 0x1D => ed 3 20 (g 4) (ed 3 16 (g 3) (ed 3 12 (g 2) (ed 3 8 (g 1) (just c))))
  | 0x1E => ed 3 36 (g 4) (ed 3 32 (g 3) (ed 3 28 (g 2) (ed 3 24 (g 1) (just c))))
  | 0x1F => ed 2 2 (g 2 % 65536) (ed 2 0 (g 1 % 65536) (just c))
  | 0x20 => just { c with cur := (k.parse.hdrs.findIdx? (fun h => h.level = k.parse.levels)).getD 64 }
  | 0x21 =>
    let next := (k.parse.hdrs.zipIdx.find? (fun (h, j) => c.cur < j && h.code = g 1 % 64)).map (·.2)
    just { c with cur := next.getD k.parse.hdrs.length }
  | 0x22 | 0x23 | 0x24 | 0x25 | 0x2B => decap c s
  | 0x29 => both (cryIssue 1 true c s)
  | 0x2A => both (cryIssue 2 true c s)
  | 0x2C => just { c with ops := c.ops ++ [.ckv 1 c.cur c.flowKey], digestRoutine := true }
  | 0x2E => just { c with tsOut := true }
  | 0x31 => (c, cntAdd k.pipe (g 1 % 32768) 0 s, none)
  | 0x32 => (c, cntAdd k.pipe (g 1 % 32768) k.rxLen s, none)
  | 0x33 => both (policeDone c (g 1 % 524288) k.colour s)
  | 0x34 =>
    let (c, s) := policeDone c (g 1 % 524288) k.colour s
    both (policeDone c (g 2 % 524288) c.pkt.colour s)
  | 0x35 => just { c with mirrors := c.mirrors ++ (if g 1 % 8 = 0 then [] else [g 1 % 8]) }
  | 0x36 => both (memDone c 6 (g 1) (g 2) c.flowKey s)
  | 0x37 =>
    let (c, s) := memDone c 4 0 0 c.flowKey s
    both (memDone c 5 0 (w32 (c.mem + g 1)) c.flowKey s)
  | 0x38 => just (hashDone c 0 (hashFields c 1) s)
  | 0x39 => both (memDone c 1 (g 1 % 65536 / 4 * 4) 0 none s)
  | 0x3A => both (memDone c 2 (g 1 % 65536 / 4 * 4) (g 2) none s)
  | 0x3B =>
    let (b, s) := csumVerify c (if curCode k c.cur = 5 then 1 else 2) s
    ({ c with csum := b }, s, none)
  | 0x3E =>
    let (x, s) := s.drawBelow 16
    ({ c with pkt := { k with cls := x } }, s, none)
  | _ => just c

/-- G1 of the routines whose result is plain; for the others it is free. -/
def exportResult (i : Nat) (s : State) (c : Ctx) : Option Nat :=
  match i with
  | 0x36 | 0x37 | 0x39 => some c.mem
  | 0x38 => some c.hash
  | 0x3C => some (bits s.time 0 32)
  | 0x3D => some (ofLe (beBytes 4 (gReg c 1)))
  | 0x3F => some (gReg c 1)
  | _ => none

/-- G1, G20 to G27 and the flags after a routine: free, but for a plain result (R194). -/
def clobber (i : Nat) (c : Ctx) (s : State) : Ctx × State :=
  if i = 0x3F then (c, s)
  else
    let (v, s) := s.drawBelow (2 ^ 32)
    let c' := setG1 c ((exportResult i s c).getD v)
    let (c', s) := (List.range 8).foldl (fun (x : Ctx × State) j =>
      let (v, s) := x.2.drawBelow (2 ^ 32)
      ({ x.1 with g := mput x.1.g (20 + j) v }, s)) (c', s)
    let (f, s) := s.drawBelow 64
    ({ c' with fa := { z := bit f 0, n := bit f 1, c := bit f 2 }, fb := { z := bit f 3, n := bit f 4, c := bit f 5 } }, s)

/-- The first ROM address on a routine's way that a match register redirects: words run before it, and the patch address (R190). -/
def routinePatch (s : State) (k : Pkt) (i : Nat) : Option (Nat × Nat) :=
  ((Config.routinePath i).zipIdx.find? (fun e => 0x40 ≤ e.1 && fetchAddr s k e.1 ≠ e.1)).map (fun e => (e.2 + 1, fetchAddr s k e.1))

/-- FWD and FWD_NOFLOW: steps 2 to 4 of R142, after which the packet ends. A set QUEUE overrides what they find (R128). -/
def runFwd (c : Ctx) (flow : Bool) (s : State) : State :=
  let pipe := c.pkt.pipe
  let k := c.pkt
  if c.drop || c.red then putCtx pipe { c with ending := some false } s
  else
    let (r, s) := if k.hasVn || k.queue.isNone then findDest k flow s else (.drop, s)
    let lost : Ctx := { c with drop := true, dropReason := 1, ending := some false }
    match r with
    | .dest d => putCtx pipe { c with dest := d, hasDest := true, ending := some false } s
    | .refused => putCtx pipe lost s
    | .drop => putCtx pipe (if k.queue.isSome then { c with ending := some false } else lost) s
    | .punt reason =>
      if k.queue.isSome then putCtx pipe { c with ending := some false } s
      else
        let s := endCtx pipe c.id (flushOps c s)
        punt (withBytes s k (unshim k)) reason false (meterIn k.tenant k.cls k.rxLen s)

/-- A routine of the export table runs as a whole, up to its RET (R194), or up to the word that a patch takes the place of (R190): what the words
before it have left in the routines' registers is free. -/
def runExport (c : Ctx) (i : Nat) (s : State) : State :=
  let pipe := c.pkt.pipe
  let (n, s) := s.drawBelow (exportWords i)
  let n := match routinePatch s c.pkt i with
    | some (m, _) => m
    | none => n + 1
  let steps := c.steps + n
  if 4 < c.stack.length + Config.routineStack i % 2 then faultEnd c 1 i s
  else if 256 < steps then faultEnd c 3 i s
  else match routinePatch s c.pkt i with
    | some (_, a) =>
      let (c', s) := clobber 0 c s
      putCtx pipe { c' with pc := a, steps } s
    | none =>
      if i < 2 then runFwd { c with steps } (i = 0) s
      else match exportRun i c s with
        | (c', s, some code) => faultEnd c' code i s
        | (c', s, none) => match c.stack with
          | [] => faultEnd c' 2 i s
          | t :: r =>
            let (c', s) := clobber i c' s
            putCtx pipe { c' with pc := t, stack := r, steps } s

/-! ### Issue (R171, R173) -/

/-- The context's next word can be issued; `behind` is whether an older context of the pipeline has yet to run its last word, until which a younger
packet takes no number of an SA (R303; log entry 30). -/
def canIssueWord (s : State) (behind : Bool) (c : Ctx) : Bool :=
  let a := fetchAddr s c.pkt c.pc
  if c.ending.isSome then false
  else if isExport a then c.ops.isEmpty && !(a = 0x2A && behind)
  else match fetchWord s c.pkt a with
    | none => true
    | some w => !stalled c w && !(uCry w = 2 && behind)

/-- The oldest context of an engine that is ready. -/
def pickCtx (s : State) (engine : Nat) : Bool → List Ctx → Option Ctx
  | _, [] => none
  | behind, c :: r => if c.engine = engine && canIssueWord s behind c then some c else pickCtx s engine (behind || c.ending.isNone) r

/-- An engine executes one word for its oldest ready context (R171, R176, R187, R188). -/
def stepEngine (pipe engine : Nat) (ecc : WordEcc) (s : State) : State :=
  match pickCtx s engine false (ctxsOf s pipe) with
  | none => s
  | some c =>
    let a := fetchAddr s c.pkt c.pc
    match ecc with
    | .uncorrectable =>
      domFault (.pipeline (physOf s 0 pipe)) 3 a
        (dropPkt c.pkt 9 (meterIn c.pkt.tenant c.pkt.cls c.pkt.rxLen (endCtx pipe c.id (flushOps c s))))
    | _ =>
      let s := if ecc = .corrected then (s.bump .ucodeCorrected pipe 0 1).unitCorrected 0 (physOf s 0 pipe) else s
      if 256 ≤ c.steps then faultEnd c 3 a s
      else if isExport a then runExport c a s
      else match fetchWord s c.pkt a with
        | none => faultEnd c 4 a s
        | some w => runWord c a w s

/-! ### Completions (R176) -/

/-- A context whose operation of a kind is outstanding, with the operation. -/
def ctxOp (s : State) (pipe id kind : Nat) : Option (Ctx × MOp) :=
  match (ctxsOf s pipe).find? (·.id = id) with
  | some c => (c.ops.find? (·.kind = kind)).map (fun o => (c, o))
  | none => none

/-- A check-value operation completes; the vendor's digest routine punts a segment out of sequence (R290). -/
def ckvDone (c : Ctx) (op cur : Nat) (key : Option Nat) (s : State) : State :=
  let pipe := c.pkt.pipe
  match ckvSegment c.pkt op cur key s with
  | none => s
  | some (st, bs, s) =>
    let c := { c with ops := c.ops.filter (·.kind ≠ 4), ckv := some st, pkt := { c.pkt with bytes := bs } }
    if c.digestRoutine && st = 2 then
      let (r, s) := s.drawBelow 0x7B
      let s := meterIn c.pkt.tenant c.pkt.cls c.pkt.rxLen (endCtx pipe c.id (flushOps c s))
      punt (withBytes s c.pkt (unshim c.pkt)) (5 + r) false s
    else putCtx pipe c s

/-- An asynchronous operation completes and its result becomes readable. A cipher operation completes with its request. -/
def opComplete (pipe id kind : Nat) (s : State) : State :=
  match ctxOp s pipe id kind with
  | none => s
  | some (c, o) =>
    let c' := { c with ops := c.ops.filter (·.kind ≠ kind) }
    match o with
    | .lookup t key => let (c, s) := lookupDone c' t key s; putCtx pipe c s
    | .police i colour => let (c, s) := policeDone c' i colour s; putCtx pipe c s
    | .hash seed f => putCtx pipe (hashDone c' seed f s) s
    | .mem op a v key => let (c, s) := memDone c' op a v key s; putCtx pipe c s
    | .ckv op cur key => ckvDone c op cur key s
    | .cipher _ => s

/-! ### Commands -/

def execPipelineHeaderAccept (turn : PipeTurn) : State → Host.Outcome State Fault Refusal :=
  run (wfPipelineHeaderAccept turn) (engineTurn turn (takeHeader turn.pipe))

def execMicroword (turn : PipeTurn) (engine : Nat) (ecc : WordEcc) : State → Host.Outcome State Fault Refusal :=
  run (wfMicroword turn engine ecc) (engineTurn turn (stepEngine turn.pipe engine ecc))

def execMicrocodeOpComplete (turn : PipeTurn) (ctx kind : Nat) : State → Host.Outcome State Fault Refusal :=
  run (wfMicrocodeOpComplete turn ctx kind) (engineTurn turn (opComplete turn.pipe ctx kind))

end Sys2Proof.Machine
end

