-- ==== Sys2Proof/Machine/Faults.lean ====
section
/-! DEFINITION. Fault detection, the recovery machines, the fault log and Regrowth as commands (R27 to R29, R415 to R440). -/

namespace Sys2Proof.Machine

/-- The collector and the recovery machines are in hardware: they work in every phase but reset and Basking (R430). -/
def alive (s : State) : Bool := s.phase ≠ .inReset && s.phase ≠ .basking

/-- The stall timeout of a handshake domain in µs: 100, or what the configuration store sets, from 10 µs to 10 ms (R27). -/
def watchdogUs (s : State) (d : HsDom) : Nat :=
  match s.nv.watchdogUs.find? (·.1 = d) with
  | some e => max 10 (min 10000 e.2)
  | none => 100

/-- The wait is back-pressure from outside the domain, which no watchdog counts (R28): a priority under XOFF, a full completion ring or queue, a
buffer threshold, a hold or missing credits, a halted thread, an absent host, a pseudo-channel that is contained (R424). -/
def excused (s : State) : WaitOn → Bool
  | .inside => false
  | .pause port prio => (mget? (mgetD s.ports port {}).paused prio).isSome
  | .ring fid r => cplFull s fid r
  | .cq fid qid => !cqRoom (cqOf s fid qid)
  | .threshold o => bpOn s o
  | .credits sds key => mgetD s.pow.elastic key 0 = 0 || (if sds then s.pow.sdsHold else s.pow.coreHold)
  | .thread tid => (threadOf s tid).state = 4
  | .hostPort n => !(hostPort s n).linkUp
  | .hbmPc n => !domServes s (.hbmPc n)

/-- DETAIL of a record: the stage, with the handshake domain of its fault domain above it (R27, R427; log entry 88). -/
def stageOf (d : HsDom) (stage : Nat) : Nat := stage + 2 ^ 32 * d.part

/-- A stall watchdog whose count has reached the stall's microseconds (R27, R28). -/
def execStallWatchdogFire (dom : HsDom) (stall : Stall) : State → Host.Outcome State Fault Refusal :=
  run (wfStallWatchdogFire dom stall) fun s =>
    if alive s && watchdogUs s dom < stall.us && !excused s stall.on then domEvent dom.dom 2 (stageOf dom stall.stage) s else s

def execInvalidCodeword (dom : HsDom) (stage : Nat) : State → Host.Outcome State Fault Refusal :=
  run (wfInvalidCodeword dom stage) fun s => if alive s then domEvent dom.dom 1 (stageOf dom stage) s else s

/-- What a domain does on resume (R424). -/
def resumeDom (d : Dom) (s : State) : State :=
  match d with
  | .cluster c => restartVendor c s
  | _ => s

/-- The end of CLEAR (R423): PROBATION when the self-test passes, FENCED when it fails. -/
def execClearSelftestDone (dom : Dom) (pass : Bool) : State → Host.Outcome State Fault Refusal :=
  run (wfClearSelftestDone dom pass) fun s =>
    if !alive s || (domOf s dom).state ≠ .clear then s
    else if pass then resumeDom dom ((s.setDom dom { domOf s dom with state := .probation, since := s.tick }).updFaultN)
    else finalFence dom 12 2 0 s

/-- The end of the second of PROBATION: the timer itself is the sender's (log entry 11). -/
def execProbationEnd (dom : Dom) : State → Host.Outcome State Fault Refusal :=
  run (wfProbationEnd dom) fun s => if (domOf s dom).state = .probation then s.setDom dom {} else s

/-- A checker that does not flag the wrong input it was given raises a record naming it, and its domain enters CONTAIN (R418). -/
def execCheckerSelftest (dom : Dom) (checker : Nat) (flagged : Bool) : State → Host.Outcome State Fault Refusal :=
  run (wfCheckerSelftest dom checker flagged) fun s => if !alive s || flagged then s else domFault dom 12 checker s

def execEftLockstepMismatch (stage : Nat) : State → Host.Outcome State Fault Refusal :=
  run (wfEftLockstepMismatch stage) fun s => if alive s && s.phase ≠ .safe then eftFault 7 stage s else s

/-- The Eft is back: HEADLESS clears, and the events raised meanwhile are delivered in order (R357, R438). -/
def execEftRestartDone : State → Host.Outcome State Fault Refusal :=
  run wfEftRestartDone fun s =>
    if !s.eft.headless || s.phase = .safe then s
    else
      let d := s.eft.deferred
      let s := { s with eft := { s.eft with headless := false, deferred := [] } }
      let s := d.foldl (fun s (t, c, sub, a) => s.deliver t c sub a) s
      (s.sto.ctrls.map (·.1)).foldl (fun s f => asyncPump f s) s

/-! ### The fault log (R427, R428) -/

/-- The 32 bytes of a record. -/
def FaultRec.bytes (r : FaultRec) : List Byte :=
  leBytes 32 (pack [(64, r.seq), (64, r.time), (8, r.dkind), (16, r.unit), (8, r.source), (8, r.action), (8, r.state),
    (16, 0), (64, r.detail)])

def execFaultLogRead (x : XCall) (seqFrom : Nat) : State → Host.Outcome State Fault Refusal :=
  run (wfFaultLogRead x seqFrom) (xop x 0x0E01 (reads fun _ s =>
    okRecords (u64 (s.count .faultOverflow 0 0) ::
      (s.flt.log.filter (fun r => seqFrom ≤ r.seq)).map (fun r => Fld.arr r.bytes)) 8 32))

/-- `FAULT_CLEAR` (R26, R426, R428): removes every pending record up to SEQ, and for each of them that fenced a domain, or that is
the AVS fault's, also acts. -/
def execFaultClear (x : XCall) (seq : Nat) : State → Host.Outcome State Fault Refusal :=
  run (wfFaultClear x seq) (xop x 0x0E02 fun _ s =>
    let s := { s with flt := { s.flt with log := s.flt.log.filter (fun r => seq < r.seq) } }
    let s := (s.flt.doms.filter (fun e => e.2.state = .fenced && e.2.fencedBy ≤ seq)).foldl (fun s e => domClear e.1 s) s
    let s := if s.pow.avsFault && s.pow.avsSeq ≤ seq then { s with pow := { s.pow with avsRetry := true } } else s
    (s, ok))

/-! ### Regrowth (R434 to R438) -/

/-- The physical unit that `REGROW_START` names: for KIND 0 to 3 by logical number, for KIND 4 to 6 by index (R436). -/
def regrowTarget (s : State) (kind unit : Nat) : Nat := if kind ≤ 3 then physOf s kind unit else unit

def execRegrowStart (x : XCall) (kind unit : Nat) : State → Host.Outcome State Fault Refusal :=
  run (wfRegrowStart x kind unit) (xop x 0x0E04 fun _ s =>
    if 6 < kind then (s, badParam 0)
    else if (if kind ≤ 3 then workingOf kind else physicalOf kind) ≤ unit then (s, badParam 2)
    else
      let phys := regrowTarget s kind unit
      let u := unitOf s kind phys
      if u.state = 1 || u.state = 3 || u.state = 4 then (s, fails stState)
      else if (mget? s.wear.active kind).isSome then (s, fails stBusy)
      else match spareFor s kind phys with
        | none => (s, fails stNoResource)
        | some sp => (regrowBegin kind phys sp 0 s, ok))

/-- The copying of a Regrowth goes on: kinds 2 and 3 copy nothing; the others' copy engine is elastic work with a floor of zero (R33, R436,
R437). -/
def copyRuns (s : State) (kind : Nat) : Bool := kind = 2 || kind = 3 || elasticOn s .regrow

/-- The end of a Regrowth. One that still copies pauses while the copy engine holds no credits or is held. -/
def execRegrowthDone (kind : Nat) (ok : Bool) : State → Host.Outcome State Fault Refusal :=
  run (wfRegrowthDone kind ok) fun s => if alive s && (!ok || copyRuns s kind) then regrowEnd kind ok s else s

/-- `REGROW_STATE`: the map and the spares. No rule gives its layout; the model gives each unit the first eight bytes of its
R439 record (log entry 12). -/
def execRegrowState (x : XCall) : State → Host.Outcome State Fault Refusal :=
  run (wfRegrowState x) (xop x 0x0E03 (reads fun _ s =>
    okRecords (allUnits.map fun (k, p) =>
      let u := unitOf s k p
      Fld.arr (leBytes 8 (pack [(8, k), (8, u.state), (16, p), (16, u.logical), (16, 0)]))) 0 8))

/-! ### Wear (R435, R439, R440) -/

/-- The wear signals of a unit against their levels (R435). -/
def isWorn (kind decline corr word row stall : Nat) (held24 : Bool) : Bool :=
  (kind ≤ 1 && held24 && 50000 ≤ decline) || 1000 ≤ corr || 10 ≤ word || 10 ≤ row || 3 ≤ stall

/-- The wear signals of a physical unit are evaluated: its decline from the sensors and the baseline, and the counts of the last 24 h:
its correctable errors, the most of them in one word and in one row, and its stalls and invalid codewords. -/
def execWearEvaluation (kind unit corr word row stall : Nat) (held24 : Bool) :
    State → Host.Outcome State Fault Refusal :=
  run (wfWearEvaluation kind unit corr word row stall held24) fun s =>
    if s.phase ≠ .running || physicalOf kind ≤ unit then s
    else
      let decline := declineOf s kind unit
      let s := s.modUnit kind unit (fun u => { u with declinePpm := decline, corr24 := corr, stall24 := stall })
      if (unitOf s kind unit).state = 0 && isWorn kind decline corr word row stall held24 then markWorn kind unit s else s

/-- An hour of operation adds its equivalent age; an hour at 95 °C counts as one hour, and Basking hours do not count (R440). -/
def execAgeHour (tjMax : Int) : State → Host.Outcome State Fault Refusal :=
  run (wfAgeHour tjMax) fun s =>
    if s.phase = .inReset || s.phase = .basking then s
    else
      let age := s.wear.ageMicro + (if tjMax = 95 then 1000000 else Config.arrhenius tjMax)
      { s with
        wear := { s.wear with ageMicro := age, hours := s.wear.hours + 1 }
        nv := { s.nv with ageMicro := age, hours := s.wear.hours + 1 } }

/-- EQUIV_AGE_H ÷ 87,600 × 100, capped at 255 (R440). -/
def pctUsed (s : State) : Nat := min 255 (s.wear.ageMicro / 1000000 * 100 / 87600)

/-- A unit's record (R439). -/
def wearRecord (s : State) (k p : Nat) : List Byte :=
  let u := unitOf s k p
  leBytes 32 (pack [(8, k), (8, u.state), (16, p), (16, u.logical), (16, 0), (32, u.declinePpm), (32, u.corr24),
    (16, u.stall24), (16, 0), (32, Config.trendDays u.declinePpm u.corr24), (64, u.corrTotal)])

def execWearReport (x : XCall) : State → Host.Outcome State Fault Refusal :=
  run (wfWearReport x) (xop x 0x0E05 (reads fun _ s =>
    okRecords ([u64 (s.wear.ageMicro / 1000000), u8 (pctUsed s), u8 (sparesFree s), u8 32,
        .arr (leBytes 4 (Config.trendDays s.wear.ageMicro s.wear.hours) ++ List.replicate 12 0)]
      ++ allUnits.map fun (k, p) => Fld.arr (wearRecord s k p)) 32 32))

end Sys2Proof.Machine
end

