-- ==== Sys2Proof/Machine/DataMover.lean ====
section
/-! DEFINITION. The storage data mover: protection information, encryption of blocks, host data in both directions, and the commands'
passage through the cipher engine (R240, R241, R265, R266, R269, R271, R276, R283, R284, R297). -/

namespace Sys2Proof.Machine

/-! ### Protection information (R240, R280) -/

/-- Bytes of metadata of a block of a namespace's format (R239). -/
def piSize (n : Ns) : Nat := if n.fmt = 1 then 8 else if n.fmt = 2 then 16 else 0
def refBits (fmt : Nat) : Nat := if fmt = 1 then 32 else 48

/-- The host transfers metadata. -/
def hostMd (c : NvCmd) : Bool := piSize c.ns ≠ 0 && !(c.ns.pt ≠ 0 && c.pract)

def piGuard (fmt : Nat) (pi : List Byte) : Nat := if fmt = 1 then atBe pi 0 2 else atBe pi 0 8
def piApp (fmt : Nat) (pi : List Byte) : Nat := if fmt = 1 then atBe pi 2 2 else atBe pi 8 2
def piRef (fmt : Nat) (pi : List Byte) : Nat := if fmt = 1 then atBe pi 4 4 else atBe pi 10 6
def guardOf (fmt : Nat) (data : List Byte) : Nat := if fmt = 1 then crcOf 2 data else crcOf 3 data
def piBytes (fmt guard app ref : Nat) : List Byte :=
  if fmt = 1 then beBytes 2 guard ++ beBytes 2 app ++ beBytes 4 ref else beBytes 8 guard ++ beBytes 2 app ++ beBytes 6 ref

/-- The reference tag of a command's block `i`: its LBA for type 1; the initial tag, counting for type 2. -/
def wantRef (c : NvCmd) (i : Nat) : Nat :=
  (if c.ns.pt = 1 then c.slba + i else if c.ns.pt = 2 then c.ilbrt + i else c.ilbrt) % 2 ^ refBits c.ns.fmt

/-- The first check that a block fails, as its status code; the escape values disable checking. -/
def piCheck (c : NvCmd) (i : Nat) (data pi : List Byte) : Option Nat :=
  let f := c.ns.fmt
  if c.ns.pt = 0 || f = 0 then none
  else if piApp f pi = 0xFFFF && (c.ns.pt ≠ 3 || piRef f pi = 2 ^ refBits f - 1) then none
  else if bit c.prchk 2 && piGuard f pi ≠ guardOf f data then some 0x82
  else if bit c.prchk 1 && piApp f pi &&& c.lbatm ≠ c.lbat &&& c.lbatm then some 0x83
  else if bit c.prchk 0 && c.ns.pt ≠ 3 && piRef f pi ≠ wantRef c i then some 0x84
  else none

/-- The `i`-th piece of `n` bytes. -/
def chunkAt (n i : Nat) (bs : List Byte) : List Byte := (bs.drop (n * i)).take n

/-- Metadata of block `i` of a write as the cipher engine takes it: the protection information, then zeros (R265). -/
def blockMd (c : NvCmd) (i : Nat) (data md : List Byte) : List Byte :=
  if piSize c.ns = 0 then List.replicate 16 0
  else if hostMd c then fit 16 (chunkAt (piSize c.ns) i md)
  else fit 16 (piBytes c.ns.fmt (guardOf c.ns.fmt (chunkAt 4096 i data)) c.lbat (wantRef c i))

/-- The first failing block of host data, with its status code, when the host transfers the information. -/
def writeBad (c : NvCmd) (data md : List Byte) : Option (Nat × Nat) :=
  if !hostMd c then none
  else (List.range c.nlb).findSome? fun i =>
    (piCheck c i (chunkAt 4096 i data) (chunkAt (piSize c.ns) i md)).map (fun e => (i, e))

/-- The host data of a command has the lengths of its blocks. -/
def dataOk (c : NvCmd) (data md : List Byte) : Bool :=
  data.length = 4096 * c.nlb && md.length = if hostMd c then piSize c.ns * c.nlb else 0

/-! ### Failures -/

/-- A protection-information failure at a block: the status, the Error Information log, the counter (R241, R291). -/
def piFail (c : NvCmd) (i e : Nat) (s : State) : State :=
  let mine := (s.cip.mover.find? (·.2 = c.seq)).map (262144 + ·.1)
  let s := match mine with
    | some i => s.modCip (fun k => { k with ckv := mupd k.ckv i 0 (fun x => setBits x 224 32 (bits x 224 32 + 1)) })
    | none => s
  let s := nvFail c 2 e none (s.bump .piErr c.fid e 1)
  logError c.fid c.sqid c.cid (((cmd? s c.seq).map (·.status)).getD 0) (c.slba + i) c.nsid s

/-- A Path Check Word mismatch on a storage path: the fault record, and Internal Error (R284). -/
def stoPcwBad (c : NvCmd) (path : Nat) (s : State) : State :=
  domFault .storage 6 path (nvFail c 0 6 (some false) (s.bump .pcwBad path 9 1))

/-! ### Blocks (R265, R266) -/

/-- A block and its metadata through AES-XTS, each with its tweak: OP 3 encrypts, 4 decrypts (R296). -/
def xtsBlock (op : Nat) (key : List Byte) (lba : Nat) (d m : List Byte) : List Byte × List Byte :=
  (fit 4096 (cipherRun op key (leBytes 16 lba) [] d), fit 16 (cipherRun op key (leBytes 16 (lba + 2 ^ 63)) [] m))

/-- Block `i` of what a replica answered. -/
def partBlock (c : NvCmd) (i : Nat) : List Byte × List Byte :=
  match c.parts.find? (fun e => e.1 ≤ i && i < e.1 + e.2.length / 4112) with
  | some (o, bs) => ((chunkAt 4112 (i - o) bs).take 4096, (chunkAt 4112 (i - o) bs).drop 4096)
  | none => (List.replicate 4096 0, List.replicate 16 0)

/-- The block is unwritten: its backend metadata bytes are all zero. -/
def unwritten (md : List Byte) : Bool := md.all (· = 0)

/-- Block `i` as the host reads it, with its protection information. -/
def openBlock (c : NvCmd) (key : List Byte) (i : Nat) : List Byte × List Byte :=
  let (d, m) := partBlock c i
  if unwritten m then (List.replicate 4096 0, List.replicate (piSize c.ns) 0xFF)
  else
    let (d, m) := xtsBlock 4 key (c.slba + i) d m
    (d, m.take (piSize c.ns))

/-- Every block of a write as the replicas hold it. -/
def sealBlocks (c : NvCmd) (key : List Byte) : List Byte :=
  (List.range c.nlb).flatMap fun i =>
    let (d, m) := xtsBlock 3 key (c.slba + i) (chunkAt 4096 i c.data) (chunkAt 16 i c.md)
    d ++ m

/-! ### Host memory (R239, R240) -/

/-- Bytes written over a list of host memory segments. -/
def nvScatter (fid : Nat) : List (Nat × Nat) → List Byte → State → State
  | [], _, s => s
  | (a, n) :: l, bs, s => nvScatter fid l (bs.drop n) (s.hostWr fid a (bs.take n))

/-- The blocks of a read written to the host: metadata at the end of each block's data, or apart. -/
def hostBlocks (c : NvCmd) (bs : List (List Byte × List Byte)) (s : State) : State :=
  if !hostMd c then nvScatter c.fid c.segs (bs.flatMap (·.1)) s
  else if c.ns.ext then nvScatter c.fid c.segs (bs.flatMap (fun b => b.1 ++ b.2)) s
  else nvScatter c.fid c.msegs (bs.flatMap (·.2)) (nvScatter c.fid c.segs (bs.flatMap (·.1)) s)

/-! ### Through the cipher engine -/

/-- The command's request to the engine (R265, R294); Namespace Not Ready where the volume's slot does not hold the volume's key (R276). -/
def moverSubmit (c : NvCmd) (op : Nat) (s : State) : State :=
  if !(vol? s c.vol).any (volKeyOk s) then nvFail c 0 0x82 (some false) s
  else
  let slot := ((vol? s c.vol).map (·.slot)).getD 0
  let r : CipherReq := { cls := 1, tenant := tenantOf s c.fid, fid := c.fid, slot, op, len := 4096 * c.nlb, dst := .mover c.seq }
  cipherSubmit r (s.modCmd c.seq ({ · with phase := .cipher }))

/-! ### Path Check Words (R281 to R284) -/

/-- The word of block `i` of a command: PSEQ is the fetch sequence number plus the block's index. -/
def blockPcw (c : NvCmd) (tenant dest i : Nat) (data : List Byte) : Nat := pcw tenant ((c.seq + i) % 65536) dest data

/-- The words of a write's blocks as the host data is fetched: under the controller's tenant, for the volume. -/
def writePcws (s : State) (c : NvCmd) (data : List Byte) : List Nat :=
  (List.range c.nlb).map (fun i => blockPcw c (tenantOf s c.fid) (mkDest 7 c.vol) i (chunkAt 4096 i data))

/-- The first block of a write whose word does not match at the engine's input, or the one named, whose data has changed since. -/
def writePcwBad (s : State) (c : NvCmd) (bad : Option Nat) : Option Nat :=
  (List.range c.nlb).find? (fun i => bad = some i
    || c.pcws.getD i 0 ≠ blockPcw c (tenantOf s c.fid) (mkDest 7 c.vol) i (chunkAt 4096 i c.data))

/-- The first block of a read whose word, made under the volume's tenant, does not match what the host DMA engine supplies, or the one named. -/
def readPcwBad (s : State) (c : NvCmd) (blocks : List (List Byte)) (bad : Option Nat) : Option Nat :=
  let made := ((vol? s c.vol).map (·.tenant)).getD 0
  let word (tenant i : Nat) : Nat := blockPcw c tenant (mkDest 2 c.fid) i (blocks.getD i [])
  (List.range c.nlb).find? (fun i => bad = some i || word made i ≠ word (tenantOf s c.fid) i)

/-- The host data of a write, fetched: every block checked, then the whole to the cipher engine (R241). -/
def writeData (c : NvCmd) (data md : List Byte) (s : State) : State :=
  match writeBad c data md with
  | some (i, e) => piFail c i e s
  | none =>
    let md16 := (List.range c.nlb).flatMap (fun i => blockMd c i data md)
    let c := { c with data, md := md16, pcws := writePcws s c data }
    moverSubmit c 3 (s.modCmd c.seq (fun k => { k with data, md := md16, pcws := c.pcws }))

/-- The blocks of a read are there: checked, written to the host up to the first that fails (R241, R284). -/
def readFinish (c : NvCmd) (key : List Byte) (bad : Option Nat) (s : State) : State :=
  let bs := (List.range c.nlb).map (openBlock c key)
  let pi := (List.range c.nlb).findSome? (fun i =>
    let b := bs.getD i ([], [])
    (piCheck c i b.1 b.2).map (fun e => (i, e)))
  match pi, readPcwBad s c (bs.map (·.1)) bad with
  | some (i, e), some j => if i ≤ j then piFail c i e (hostBlocks c (bs.take i) s) else stoPcwBad c 4 (hostBlocks c (bs.take j) s)
  | some (i, e), none => piFail c i e (hostBlocks c (bs.take i) s)
  | none, some j => stoPcwBad c 4 (hostBlocks c (bs.take j) s)
  | none, none => nvOk c.seq (hostBlocks c bs s)

/-- The blocks of a compare are there (R234, R246). -/
def compareFinish (c : NvCmd) (key : List Byte) (s : State) : State :=
  let bs := (List.range c.nlb).map (openBlock c key)
  let pi := (List.range c.nlb).findSome? (fun i =>
    let b := bs.getD i ([], [])
    (piCheck c i b.1 b.2).map (fun e => (i, e)))
  match pi with
  | some (i, e) => piFail c i e s
  | none =>
    if bs.flatMap (·.1) = c.data && (!hostMd c || bs.flatMap (·.2) = c.md) then
      let s := nvOk c.seq s
      match c.pair with
      | some p => match cmd? s p with
        | some w => moverSubmit w 3 (s.modCmd p ({ · with after := [c.seq] }))
        | none => s
      | none => s
    else nvFail c 2 0x85 none s

/-- A read or compare has every block: through the cipher engine, unless every block is unwritten. -/
def readReady (c : NvCmd) (s : State) : State :=
  if (List.range c.nlb).all (fun i => unwritten (partBlock c i).2) then
    if c.opc = 2 then readFinish c [] none s else compareFinish c [] s
  else moverSubmit c 4 s

/-- The engine answers for a command (R276, R284, R297). -/
def moverDone (r : CipherReq) (seq st : Nat) (bad : Option Nat) (s : State) : State :=
  match cmd? s seq with
  | none => s
  | some c =>
    let key := r.key
    match st with
    | 0 =>
      let s := s.meterAdd r.tenant 68 r.len
      if c.opc = 2 then readFinish c key bad s
      else if c.opc = 5 then compareFinish c key s
      else match writePcwBad s c bad with
        | some _ => stoPcwBad c 3 s
        | none => s.modCmd seq (fun k => { k with data := sealBlocks c key, phase := .intent })
    | 8 =>
      if c.retried then nvFail c 0 6 (some false) s
      else moverSubmit c r.op (s.modCmd seq ({ · with retried := true }))
    | 3 | 4 => nvFail c 0 0x82 (some false) s
    | _ => nvFail c 0 6 (some false) s

end Sys2Proof.Machine
end

