-- ==== Sys2Proof/Machine/NvmePtrs.lean ====
section
/-! DEFINITION. Where an NVMe command's host data lies: the PRPs and SGLs of its entry (R229, R230, R238, R239). The layouts and the statuses of a
list that breaks them are NVM Express's, with which R229 has the controller comply (log entry 111). -/

namespace Sys2Proof.Machine

/-- What a command's data pointer comes to. -/
structure PtrWalk where
  /-- M R229: host memory of the data, in order. -/
  segs : List (Nat × Nat) := []
  /-- M R229: the lists and segments that are read on the way. -/
  reads : List (Nat × Nat) := []
  /-- M R229: the generic status code of a pointer that breaks its form. -/
  bad : Option Nat := none
  deriving DecidableEq, Repr

/-- The first `n` bytes of a list of segments. -/
def segsTake : Nat → List (Nat × Nat) → List (Nat × Nat)
  | _, [] => []
  | n, (a, k) :: l => if n = 0 then [] else if n ≤ k then [(a, n)] else (a, k) :: segsTake (n - k) l

/-- Bytes of a list of segments. -/
def segsLen (l : List (Nat × Nat)) : Nat := (l.map (·.2)).foldl (· + ·) 0

/-! ### PRPs -/

/-- A PRP list at `ptr` for the `left` bytes after the first page; where it does not fit its page, its last entry points to the next list. -/
def prpList (page : Nat) : Nat → Nat → Nat → List (List Byte) → PtrWalk
  | 0, _, _, _ => {}
  | fuel + 1, ptr, left, lists =>
    let room := (page - ptr % page) / 8
    let need := cdiv left page
    let n := min need room
    let bs := fit (8 * n) (lists.headD [])
    let ents := (List.range n).map (fun i => ofLe ((bs.drop (8 * i)).take 8))
    let here := if need ≤ room then ents else ents.dropLast
    let w := if need ≤ room then {} else prpList page fuel (ents.getLastD 0) (left - page * here.length) lists.tail
    { segs := here.zipIdx.map (fun e => (e.1, min page (left - page * e.2))) ++ w.segs
      reads := (ptr, 8 * n) :: w.reads
      bad := (if ptr % 8 ≠ 0 || here.any (· % page ≠ 0) then some 0x13 else none).or w.bad }

/-- PRP entry 1, and PRP entry 2 or the list that it points to. -/
def prpWalk (page p1 p2 len : Nat) (lists : List (List Byte)) : PtrWalk :=
  let n := min len (page - p1 % page)
  let left := len - n
  if left = 0 then { segs := [(p1, n)] }
  else if left ≤ page then { segs := [(p1, n), (p2, left)], bad := if p2 % page ≠ 0 then some 0x13 else none }
  else
    let w := prpList page (cdiv left page + 1) p2 left lists
    { w with segs := (p1, n) :: w.segs }

/-! ### SGLs -/

/-- Descriptor `i` of a segment: its type, its address, its length. -/
def sglDesc (bs : List Byte) (i : Nat) : Nat × Nat × Nat :=
  (at8 bs (16 * i + 15) / 16, ofLe ((bs.drop (16 * i)).take 8), ofLe ((bs.drop (16 * i + 8)).take 4))

/-- The descriptors of a segment: data blocks, the last of a segment that is not itself the last naming the next (R238). -/
def sglWalk : Nat → List (Nat × Nat × Nat) → List (List Byte) → PtrWalk
  | 0, _, _ => { bad := some 0x0D }
  | fuel + 1, ds, lists =>
    match ds.getLast? with
    | none => {}
    | some (t, a, n) =>
      let next : Bool := t = 2 || t = 3
      let data := if next then ds.dropLast else ds
      let w : PtrWalk :=
        if !next then {}
        else if n = 0 || n % 16 ≠ 0 then { bad := some 0x0D }
        else
          let bs := (lists.headD []).take n
          let inner := (List.range (bs.length / 16)).map (sglDesc bs)
          let ends : Bool := (inner.getLast?.map (fun d => d.1 = 2 || d.1 = 3)).getD false
          if ends ≠ decide (t = 2) then { reads := [(a, n)], bad := some 0x0D }
          else
            let w := sglWalk fuel inner lists.tail
            { w with reads := (a, n) :: w.reads }
      { segs := data.map (·.2) ++ w.segs
        reads := w.reads
        bad := (if data.any (fun d => d.1 = 2 || d.1 = 3) then some 0x0D else if data.any (·.1 ≠ 0) then some 0x11 else none).or w.bad }

/-! ### A command's pointers -/

/-- Bytes that a command moves between the host's data memory and the controller. -/
def hostLen (c : NvCmd) : Nat :=
  if c.admin then (if c.opc = 6 then 4096 else if c.opc = 2 then 4 * (bits (c.cdw 10) 16 16 + 65536 * bits (c.cdw 11) 0 16 + 1) else 0)
  else if c.opc = 9 then (if c.ad then 16 * (bits (c.cdw 10) 0 8 + 1) else 0)
  else if c.opc = 1 || c.opc = 2 || c.opc = 5 then c.nlb * (4096 + if hostMd c && c.ns.ext then piSize c.ns else 0)
  else 0

/-- Bytes of separate metadata. -/
def hostMdLen (c : NvCmd) : Nat :=
  if !c.admin && (c.opc = 1 || c.opc = 2 || c.opc = 5) && hostMd c && !c.ns.ext then c.nlb * piSize c.ns else 0

/-- The data pointer of an entry: PRPs for PSDT 0, else an SGL, which an admin command never has. The lists that it points to hold `lists`. -/
def dataPtr (c : NvCmd) (page : Nat) (lists : List (List Byte)) : PtrWalk :=
  let len := hostLen c
  let psdt := c.fld 14 2
  if len = 0 then {}
  else if psdt = 0 then prpWalk page (c.fld 192 64) (c.fld 256 64) len lists
  else if psdt = 3 || c.admin then { bad := some 2 }
  else
    let w := sglWalk (lists.length + 2) [sglDesc (leBytes 16 (c.fld 192 128)) 0] lists
    { w with segs := segsTake len w.segs, bad := w.bad.or (if segsLen w.segs < len then some 0x0F else none) }

/-- The metadata pointer of an entry: a buffer, or for PSDT 2 a segment of one descriptor, whose bytes are `seg`. -/
def mdPtr (c : NvCmd) (seg : List Byte) : PtrWalk :=
  let len := hostMdLen c
  let at_ := c.fld 128 64
  if len = 0 then {}
  else if c.fld 14 2 ≠ 2 then { segs := [(at_, len)] }
  else
    let (t, a, n) := sglDesc seg 0
    { segs := [(a, len)], reads := [(at_, 16)], bad := if t ≠ 0 then some 0x11 else if n < len then some 0x10 else none }

end Sys2Proof.Machine
end

