-- ==== Sys2Proof/Machine/Nvme.lean ====
section
/-! DEFINITION. The NVMe front end's commands: controller enable and shutdown, doorbells, fetch, start, the posting point, the admin
commands and the I/O commands (R229 to R261). -/

namespace Sys2Proof.Machine

/-! ### `CC` and doorbells (R70, R230, R231, R256, R257) -/

/-- A write of `CC` of a controller, or of an unprovisioned storage VF, which keeps `CC.EN` and never becomes ready (R70). -/
def ccOf (fn : FnRef) (v : Nat) (s : State) : State :=
  match fn with
  | .fid f => if isNvme s f && barOn s f then detachPump (ccWrite f v s) else s
  | .unprov port pf vf =>
    if pf = 2 && (hostPort s port).linkUp && s.phase = .running && unprovThere s port pf vf && (unprovOf s port pf vf).fn.mse then
      s.modUnprov port pf vf ({ · with ccEn := bit v 0 })
    else s

def execNvmeCcEnable (fn : FnRef) (value : Nat) : State → Host.Outcome State Fault Refusal :=
  run (wfNvmeCcEnable fn value) fun s => if bit value 0 then ccOf fn value s else s

def execNvmeCcDisable (fn : FnRef) (value : Nat) : State → Host.Outcome State Fault Refusal :=
  run (wfNvmeCcDisable fn value) fun s => if bit value 0 then s else ccOf fn value s

def execNvmeCcShutdown (fn : FnRef) (value : Nat) : State → Host.Outcome State Fault Refusal :=
  run (wfNvmeCcShutdown fn value) fun s => if bits value 14 2 = 0 then s else ccOf fn value s

def execNvmeSqDoorbell (fid qid value : Nat) : State → Host.Outcome State Fault Refusal :=
  run (wfNvmeSqDoorbell fid qid value) fun s => if isNvme s fid && barOn s fid then sqDoorbell fid qid (value % 65536) s else s

def execNvmeCqDoorbell (fid qid value : Nat) : State → Host.Outcome State Fault Refusal :=
  run (wfNvmeCqDoorbell fid qid value) fun s => if isNvme s fid && barOn s fid then cqDoorbell fid qid (value % 65536) s else s

/-! ### Fetch (R232, R234, R244 to R248, R259) -/

/-- Entries that a queue has to fetch. -/
def sqHas (q : NvSq) : Bool := q.head ≠ q.tail && !q.deleting && q.size ≠ 0

/-- A first half of a fused pair that waits for the entry after it. -/
def isHalf (c : NvCmd) : Bool := c.fuse = 1 && c.pair.isNone && c.phase = .fetched && !c.orphan

/-- The first half that waits in a queue. -/
def halfOf (s : State) (fid qid : Nat) : Option NvCmd := s.sto.cmds.find? (fun c => isHalf c && c.fid = fid && c.sqid = qid)

/-- First halves that wait: each keeps its place in the range-lock table. -/
def halves (s : State) : Nat := (s.sto.cmds.filter isHalf).length

/-- The fetched commands of a queue that have not started, when ordered marks hold any (R245). -/
def queueHeld (s : State) (fid qid : Nat) : Nat :=
  let l := (inFlight s fid).filter (fun c => c.sqid = qid)
  if l.any (·.ord) then (l.filter (·.phase = .fetched)).length else 0

/-- The next entry of a queue can be read at all: the controller and the queue take part, the storage domain serves, a tag is free, and the
controller's grant and the device have room for a command in flight (R80, R81, R232). -/
def readable (s : State) (fid qid : Nat) : Bool :=
  let c := ctrlOf s fid
  s.phase = .running && c.rdy && !c.fenced && !c.cfs && canIssue s fid && tagRoom s fid && domServes s .storage
    && (inFlight s fid).length < (grantsOf s fid).cmds && s.sto.cmds.length < 65536
    && (mget? c.sqs qid).isSome && sqHas (sqOf s fid qid) && !(sqOf s fid qid).fenced

/-- Nothing stops the fetch of a command, a fused pair being one command (R232, R245, R248, R259, R261). -/
def fetchOpen (s : State) (fid qid : Nat) : Bool :=
  (ctrlOf s fid).shst = 0 && !(fnD s fid).d3 && !(fnD s fid).frozen && !s.eft.activating && !s.eft.basking && !storageHeld s
    && s.sto.locks.length + halves s < 8192 && (qid = 0 || !sqHas (sqOf s fid 0)) && queueHeld s fid qid < 256

/-- There is an entry to fetch from a queue, and nothing holds it: behind a first half of a fused pair the next entry comes whatever has
stopped the fetch of commands meanwhile (R232, R246; log entry 112). -/
def fetchable (s : State) (fid qid : Nat) : Bool := readable s fid qid && ((halfOf s fid qid).isSome || fetchOpen s fid qid)

/-- The next in turn after `last`: the least above it, else the least. -/
def inTurn (last : Nat) (l : List Nat) : Option Nat := ((l.filter (last < ·)).min?).or l.min?

/-- The queues of a controller that can be fetched from. -/
def readySqs (s : State) (fid : Nat) : List Nat := ((ctrlOf s fid).sqs.map (·.1)).filter (fetchable s fid)

/-- Commands that a queue may give in one turn: the Arbitration Burst, 7 meaning no limit (R232, R235). -/
def burstOf (s : State) (fid : Nat) : Option Nat :=
  let ab := bits (ctrlOf s fid).feats.arb 0 3
  if ab = 7 then none else some (2 ^ ab)

/-- It is the queue's turn: its burst goes on, or its controller is next in the round and it next in its controller's, the admin queue first
(R232; log entry 97). -/
def fetchTurn (s : State) (fid qid : Nat) : Bool :=
  (s.sto.turn = (fid, qid) && (burstOf s fid).all (s.sto.burst < ·))
    || (inTurn s.sto.turn.1 ((s.sto.ctrls.map (·.1)).filter (fun f => !(readySqs s f).isEmpty)) = some fid
      && (if (readySqs s fid).contains 0 then some 0 else inTurn (ctrlOf s fid).lastSq (readySqs s fid)) = some qid)

/-- The front end fetches from the queue next. -/
def canFetch (s : State) (fid qid : Nat) : Bool := fetchable s fid qid && fetchTurn s fid qid

/-- The turn is the queue's. -/
def takeTurn (fid qid : Nat) (s : State) : State :=
  let n := if s.sto.turn = (fid, qid) && (burstOf s fid).all (s.sto.burst < ·) then s.sto.burst + 1 else 1
  let s := s.modSto ({ · with turn := (fid, qid), burst := n })
  if qid = 0 then s else s.modCtrl fid ({ · with lastSq := qid })

/-- The namespace that a command names. -/
def nsOf (s : State) (c : NvCmd) : Option Ns := mget? s.sto.nss (c.fid * 65536 + c.nsid)

/-- The LBA ranges of a command (R234). -/
def cmdRanges (c : NvCmd) (dsm : List (Nat × Nat)) : List (Nat × Nat) :=
  match c.opc with
  | 1 | 2 | 5 | 8 => [(c.slba, c.nlb)]
  | 9 => if c.ad then (dsm.take (bits (c.cdw 10) 0 8 + 1)).filter (fun r => r.2 ≠ 0) else []
  | _ => []

/-- An I/O command of R234. -/
def ioKnown (opc : Nat) : Bool := [0, 1, 2, 5, 8, 9].contains opc

/-- What completes a command at its fetch, if anything does: SCT, SC. -/
def fetchError (s : State) (c : NvCmd) : Option (Nat × Nat) :=
  let dup := (inFlight s c.fid).any (fun k => k.sqid = c.sqid && k.cid = c.cid)
  let v := (vol? s c.vol).getD {}
  if dup then some (0, 3)
  else if c.fld 10 1 = 1 && (c.admin || !(ctrlOf s c.fid).feats.orden) then some (0, 2)
  else if c.admin then c.bad.map (fun e => (0, e))
  else if !ioKnown c.opc then none
  else if c.opc = 0 && c.nsid = 2 ^ 32 - 1 then none
  else if (nsOf s c).isNone then some (0, 0xB)
  else if (c.opc = 1 || c.opc = 2 || c.opc = 5) && 512 < c.nlb then some (0, 2)
  else if c.ranges.any (fun r => v.size < r.1 + r.2) then some (0, 0x80)
  else c.bad.map (fun e => (0, e))

/-- The lock entry of a command, from the lowest to the highest LBA of its ranges (R234, R247). -/
def lockOf (c : NvCmd) (excl : Bool) : List Lock :=
  if c.ranges.isEmpty then []
  else
    let lo := c.ranges.foldl (fun a r => min a r.1) (c.ranges.headD (0, 0)).1
    let hi := c.ranges.foldl (fun a r => max a (r.1 + r.2)) 0
    [{ seq := c.seq, vol := c.vol, lo, hi, excl : Lock }]

/-- The ranges and marks of two halves agree (R246). -/
def pairOk (a b : NvCmd) : Bool :=
  a.opc = 5 && b.opc = 1 && a.nsid = b.nsid && a.slba = b.slba && a.nlb = b.nlb && a.nlb ≤ 32 && a.ord = b.ord

/-- A command enters flight, with its fetch error if it has one, else its lock. -/
def enterCmd (c : NvCmd) (err : Option (Nat × Nat)) (s : State) : State :=
  let s := s.modSto (fun t => { t with cmds := t.cmds ++ [c], nextSeq := t.nextSeq + 1 })
  match err with
  | some (t, e) => nvDone c.seq t e (if e = 0x80 || e = 0xB then some true else none) s
  | none => if c.admin || !ioKnown c.opc then s else lockAdd (lockOf c (c.opc ≠ 2 && c.opc ≠ 5)) s

/-- A second half is fetched behind its first (R246). -/
def enterSecond (a c : NvCmd) (s : State) : State :=
  let both (t e : Nat) (s : State) : State := nvDone c.seq t e none (nvDone a.seq t e none s)
  let ea := fetchError (s.modSto (fun t => { t with cmds := t.cmds.filter (·.seq ≠ a.seq) })) a
  let ec := fetchError s c
  let s := s.modSto (fun t => { t with cmds := t.cmds ++ [c], nextSeq := t.nextSeq + 1 })
  if !pairOk a c then both 0 2 s
  else match ea, ec with
    | some (t, e), _ => nvDone c.seq 0 9 none (nvDone a.seq t e none s)
    | none, some (t, e) => nvDone c.seq t e none (nvDone a.seq 0 9 none s)
    | none, none =>
      let s := (s.modCmd a.seq ({ · with pair := some c.seq })).modCmd c.seq ({ · with pair := some a.seq })
      lockAdd (lockOf c true) s

/-- The page size of a controller: `CC.MPS` (R230). -/
def pageSize (s : State) (fid : Nat) : Nat := 2 ^ (12 + bits (ctrlOf s fid).cc 7 4)

/-- A command with the host memory that its pointers come to, the lists on the way read; one that moves more than its limit has none. -/
def withPtrs (c : NvCmd) (lists : List (List Byte)) (mdList : List Byte) (s : State) : NvCmd × State :=
  if hostLen c = 0 || 512 < c.nlb && !c.admin && c.opc ≠ 9 then (c, s)
  else
    let d := dataPtr c (pageSize s c.fid) lists
    let m := mdPtr c mdList
    ({ c with segs := d.segs, msegs := m.segs, bad := d.bad.or m.bad },
      (d.reads ++ m.reads).foldl (fun s e => s.hostRdNow c.fid e.1 e.2) s)

/-- The next entry of a queue is fetched (R232), or its read is not issued and the queue is fenced (R80). A first half of a fused pair waits
for the entry after it while the queue has one and the grant lets it come (R246). -/
def fetchCmd (fid qid sqe : Nat) (lists : List (List Byte)) (mdList : List Byte) (dsm : List (Nat × Nat)) (composed : Bool) (s : State) :
    State :=
  if !canFetch s fid qid then s
  else if !composed then (s.modSq fid qid ({ · with fenced := true })).composeFault fid
  else
    let q := sqOf s fid qid
    let half := halfOf s fid qid
    let s := takeTurn fid qid (s.hostRdNow fid (q.base + 64 * q.head) 64)
    let s := s.modSq fid qid (fun q => { q with head := (q.head + 1) % q.size })
    let c : NvCmd := { seq := s.sto.nextSeq, fid, sqid := qid, sqe, cid := bits sqe 16 16 }
    let ns : Option Ns := if qid = 0 then none else nsOf s c
    let c := { c with
      ord := qid ≠ 0 && c.fld 10 1 = 1
      fuse := if qid = 0 then 0 else c.fld 8 2
      ns := ns.getD {}
      vol := (ns.map (fun (n : Ns) => n.vol)).getD 4096 }
    let c := { c with ranges := if qid = 0 then [] else cmdRanges c dsm }
    let (c, s) := withPtrs c lists mdList s
    -- the range list of a Dataset Management is read for its lock
    let s := if qid ≠ 0 && c.opc = 9 && c.ad then c.segs.foldl (fun s e => s.hostRdNow fid e.1 e.2) s else s
    let more := (q.head + 1) % q.size ≠ q.tail && 1 < (grantsOf s fid).cmds
    let s := match half with
      | some h => if c.fuse = 2 then s else nvDone h.seq 0 0xA none s
      | none => s
    if c.fuse = 3 then enterCmd c (some (0, 2)) s
    else if c.fuse = 2 then
      match half with
      | some h => enterSecond h c s
      | none => enterCmd c (some (0, 0xA)) s
    else if c.fuse = 1 then
      let s := s.modSto (fun t => { t with cmds := t.cmds ++ [c], nextSeq := t.nextSeq + 1 })
      if more then s else nvDone c.seq 0 0xA none s
    else if c.admin && c.opc = 8 && 8 ≤ ((inFlight s fid).filter (fun k => k.admin && k.opc = 8)).length then
      enterCmd c (some (1, 3)) s
    else enterCmd c (fetchError s c) s

def execNvmeCommandFetch (fid qid : Nat) (sqe : BitVec 512) (lists : List (List Byte)) (mdList : List Byte) (ranges : List (Nat × Nat))
    (composed : Bool) : State → Host.Outcome State Fault Refusal :=
  run (wfNvmeCommandFetch fid qid sqe lists mdList ranges composed) (fetchCmd fid qid sqe.toNat lists mdList ranges composed)

/-! ### Start (R245 to R247, R274, R287) -/

/-- No earlier-fetched entry conflicts with a command's own. -/
def lockFree (s : State) (seq : Nat) : Bool :=
  match s.sto.locks.find? (·.seq = seq) with
  | some l => !s.sto.locks.any (fun o => o.seq < seq && lockClash l o)
  | none => true

/-- The ordered marks of its queue let a command start (R245). -/
def ordOk (s : State) (c : NvCmd) : Bool :=
  let before := (inFlight s c.fid).filter (fun k => k.sqid = c.sqid && k.seq < c.seq && k.pair ≠ some c.seq)
  (!c.ord || before.isEmpty) && !before.any (·.ord)

/-- What a volume's state answers (R274). -/
def volAnswer (s : State) (c : NvCmd) : Option (Nat × Nat) :=
  match (vol? s c.vol).map (·.state) with
  | some 2 | some 3 => none
  | some 5 => some (2, if c.opc = 1 || c.opc = 8 || c.opc = 9 then 0x80 else 0x81)
  | _ => some (0, 0x82)

/-- A data-mover context is free: no command has it, and none holds it frozen (R287, R289). -/
def moverFree (s : State) (i : Nat) : Bool := (mget? s.cip.mover i).isNone && !ckvFrozen (ckvOf s (262144 + i))
def freeMover (s : State) : Option Nat := leastBelow 2048 (moverFree s)

/-- A command takes a data-mover context, which stands before the data of a block (R286, R287; log entry 99). -/
def moverTake (i seq : Nat) (s : State) : State :=
  match cmd? s seq with
  | none => s
  | some c =>
    let alg := if c.ns.fmt = 1 then 2 else if c.ns.fmt = 2 then 3 else 0
    let x := pack [(3, alg), (1, 1), (1, 0), (3, 0), (4, 4), (4, 0), (16, tenantOf s c.fid), (16, c.fid), (16, 0), (64, crcInit alg),
      (32, 4096), (32, 0), (32, 4096), (32, ckvErrors (ckvOf s (262144 + i)))]
    (s.setCkv (262144 + i) x).modCip (fun k => { k with mover := mput k.mover i seq })

/-- Free data-mover contexts for the two halves of a pair, or for one command. -/
def freeMovers (s : State) (c : NvCmd) : Option (List (Nat × Nat)) :=
  match freeMover s, c.pair with
  | some i, none => some [(i, c.seq)]
  | some i, some p => (leastBelow 2048 (fun j => j ≠ i && moverFree s j)).map (fun j => [(i, c.seq), (j, p)])
  | none, _ => none

/-- The host data of a command is read: its data, and separate metadata. -/
def readHost (c : NvCmd) (s : State) : State :=
  if c.opc = 2 then s else (c.segs ++ c.msegs).foldl (fun s e => s.hostRd c.fid e.1 e.2 (.nvme c.sqid c.cid)) s

/-- Starts a command: its volume's state first, then its data-mover context and the fetch of its host data; both halves of a pair. -/
def startCmd (c : NvCmd) (s : State) : State :=
  match volAnswer s c with
  | some (t, e) =>
    let s := nvDone c.seq t e (some false) s
    match c.pair with
    | some p => nvDone p t (if e = 0x81 then 0x80 else e) (some false) s
    | none => s
  | none =>
    let go (s : State) : State :=
      let s := s.modCmd c.seq ({ · with phase := .started })
      match c.pair with
      | some p => s.modCmd p ({ · with phase := .started })
      | none => s
    if c.opc = 8 || c.opc = 9 then go s
    else match freeMovers s c with
      | none => s.bump .ckvExhausted 1 0 1
      | some l =>
        let s := go (l.foldl (fun s e => moverTake e.1 e.2 s) s)
        (c :: (c.pair.bind (cmd? s)).toList).foldl (fun s k => readHost k s) s

/-- A command of its phase may start: its queue's marks, its lock, its controller and its domain let it (R245, R247, R258). -/
def mayStart (s : State) (c : NvCmd) : Bool :=
  ordOk s c && lockFree s (c.pair.getD c.seq) && !(ctrlOf s c.fid).fenced && domServes s .storage

/-- A start of which a data request's two compositions differ fences the queue, and the command stays as it was (R80). -/
def execNvmeCommandStart (fid qid : Nat) (cmd : Posting) : State → Host.Outcome State Fault Refusal :=
  run (wfNvmeCommandStart fid qid cmd) fun s =>
    match cmdIn s fid qid cmd.cid (fun c => c.phase = .fetched && !c.admin && [1, 2, 5, 8, 9].contains c.opc) with
    | none => s
    | some c =>
      if c.fuse = 2 || isHalf c || (c.opc = 9 && !c.ad) || !mayStart s c then s
      else if !cmd.composed then (s.modSq fid qid ({ · with fenced := true })).composeFault fid
      else startCmd c s

/-! ### The posting point (R235, R252) -/

/-- The interrupt of an entry: at once, or held for the aggregation threshold or time (R235). -/
def cqNotify (fid q : Nat) (s : State) : State :=
  let x := cqOf s fid q
  let f := (ctrlOf s fid).feats
  if !x.ien then s
  else if q = 0 || f.time = 0 || (mget? f.cd x.iv).isSome then s.sendMsix fid x.iv
  else if f.thr + 1 ≤ x.held + 1 then (s.modCq fid q ({ · with held := 0 })).sendMsix fid x.iv
  else s.modCq fid q (fun x => { x with held := x.held + 1 })

/-- The storage counters of a command that posts with success (R236, R377). -/
def storageMeter (c : NvCmd) (s : State) : State :=
  if c.admin || c.status ≠ 0 then s
  else
    let t := tenantOf s c.fid
    let n := c.nlb
    if c.opc = 2 || c.opc = 5 then
      (((s.meterAdd t 64 1).meterAdd t 65 (4096 * n)).bump .nvReadCmds c.fid 0 1).bump .nvReadBlocks c.fid 0 n
    else if c.opc = 1 || c.opc = 8 then
      let s := (s.meterAdd t 66 1).meterAdd t 67 (4096 * n)
      if c.opc = 1 then (s.bump .nvWriteCmds c.fid 0 1).bump .nvWriteBlocks c.fid 0 n else s
    else s

/-- The completion entry of a command. -/
def cqEntry (s : State) (c : NvCmd) (phase : Bool) : List Byte :=
  leBytes 16 (pack [(32, c.dw0), (32, 0), (16, (sqOf s c.fid c.sqid).head), (16, c.sqid), (16, c.cid), (1, b2n phase), (15, c.status)])

/-- A Set Features of Ordered Mark Enable has been posted: ORDEN holds for what is fetched from then on (R244). -/
def ordPosted (c : NvCmd) (s : State) : State :=
  if c.admin && c.opc = 9 && c.status = 0 && bits (c.cdw 10) 0 8 = 0xC1 then
    s.modCtrl c.fid (fun k => { k with feats := { k.feats with orden := bit (c.cdw 11) 0 } })
  else s

/-- A command reaches its posting point. -/
def postCmd (c : NvCmd) (s : State) : State :=
  let q := (sqOf s c.fid c.sqid).cq
  let x := cqOf s c.fid q
  let s := s.hostWr c.fid (x.base + 16 * x.tail) (cqEntry s c x.phase)
  let last := x.tail + 1 = x.size
  let s := s.modCq c.fid q (fun x => { x with tail := if last then 0 else x.tail + 1, phase := if last then !x.phase else x.phase })
  let s := cqNotify c.fid q (storageMeter c s)
  let s := nvRelease c.seq (ordPosted c s)
  let s := if c.admin && c.opc = 0 && c.status = 0 then
      s.modCtrl c.fid (fun k => { k with sqs := mdel k.sqs (bits (c.cdw 10) 0 16) })
    else s
  detachPump s

/-- A completed command posts its entry; a write whose two compositions differ is not issued, and fences the command's submission queue, whose
command stays as it is (R80, R252). -/
def execNvmePostingPoint (fid qid : Nat) (entry : Posting) : State → Host.Outcome State Fault Refusal :=
  run (wfNvmePostingPoint fid qid entry) fun s =>
    match cmdIn s fid qid entry.cid (fun c => c.phase = .done && c.after.all (fun a => (cmd? s a).isNone)) with
    | none => s
    | some c =>
      if (ctrlOf s fid).fenced || !(ctrlOf s fid).rdy || !canIssue s fid
        || !cqRoom (cqOf s fid (sqOf s fid qid).cq) || (sqOf s fid qid).fenced then s
      else if !entry.composed then (s.modSq fid qid ({ · with fenced := true })).composeFault fid
      else postCmd c s

/-- The aggregation time ends: the held interrupt is sent. -/
def execNvmeCoalescingTimeExpire (fid cq : Nat) : State → Host.Outcome State Fault Refusal :=
  run (wfNvmeCoalescingTimeExpire fid cq) fun s =>
    let x := cqOf s fid cq
    if x.held = 0 then s else (s.modCq fid cq ({ · with held := 0 })).sendMsix fid x.iv

/-! ### Admin commands (R233, R260) -/

/-- An admin command whose turn it is, run by the firmware in fetch order; asynchronous event requests stay out of the order. -/
def adminTurn (s : State) (fid cid : Nat) (is : Nat → Bool) : Option NvCmd :=
  let aers := (ctrlOf s fid).aers
  match (inFlight s fid).find? (fun c => c.admin && c.phase = .fetched && c.opc ≠ 8 && !aers.contains c.seq) with
  | some c => if c.cid = cid && is c.opc && !s.eft.headless && ctrlServes s fid then some c else none
  | none => none
where
  ctrlServes (s : State) (fid : Nat) : Bool := (ctrlOf s fid).rdy && !(ctrlOf s fid).fenced

/-- Runs an admin command of one opcode. -/
def admin (fid cid opc : Nat) (f : NvCmd → State → State) (s : State) : State :=
  match adminTurn s fid cid (· = opc) with
  | some c => f c s
  | none => s

/-- The command would be aborted at this instant (R253). -/
def abortable (c : NvCmd) : Bool :=
  !c.admin && if c.writes || c.pair.isSome then !c.sent else true

/-- Aborts a command: its status, its lock, and whatever it had outstanding. -/
def abortCmd (sc : Nat) (c : NvCmd) (s : State) : State :=
  let s := backDrop (·.for_ = .cmd c.seq) s
  let s := s.modCip (fun k => { k with reqs := k.reqs.filter (·.dst ≠ .mover c.seq) })
  let isIt (r : Read) : Bool := r.fid = c.fid && r.purpose = .nvme c.sqid c.cid
  lockRelease c.seq (nvDone c.seq 0 sc none (s.killReads isIt))

/-- A command and the other half of its pair. -/
def withPair (s : State) (c : NvCmd) : List NvCmd := c :: (c.pair.bind (cmd? s)).toList

/-- A write, or either half of a fused pair, is past its first backend command. -/
def pairSent (s : State) (c : NvCmd) : Bool := (withPair s c).any (fun k => (k.writes || k.pair.isSome) && k.sent)

def execNvmeAbort (fid cid : Nat) : State → Host.Outcome State Fault Refusal :=
  run (wfNvmeAbort fid cid) fun s =>
    match cmdIn s fid 0 cid (fun c => c.opc = 8 && c.phase = .fetched) with
    | none => s
    | some a =>
      if !(ctrlOf s fid).rdy || (ctrlOf s fid).fenced then s
      else
        let sq := bits (a.cdw 10) 0 16
        let no (s : State) : State := nvOk a.seq (s.modCmd a.seq ({ · with dw0 := 1 }))
        match cmdIn s fid sq (bits (a.cdw 10) 16 16) (·.seq ≠ a.seq) with
        | none => no s
        | some c =>
          if !abortable c || pairSent s c then no s
          else
            let l := withPair s c
            let s := l.foldl (fun s k => abortCmd 7 k s) s
            nvOk a.seq (s.modCmd a.seq ({ · with after := l.map (·.seq) }))

def execNvmeDeleteIoSq (fid cid : Nat) : State → Host.Outcome State Fault Refusal :=
  run (wfNvmeDeleteIoSq fid cid) (admin fid cid 0 fun c s =>
    let q := bits (c.cdw 10) 0 16
    if q = 0 || (mget? (ctrlOf s fid).sqs q).isNone || (sqOf s fid q).deleting then nvDone c.seq 1 1 none s
    else
      let l := (inFlight s fid).filter (·.sqid = q)
      let s := s.modSq fid q ({ · with deleting := true })
      let s := (l.filter (fun k => abortable k && !pairSent s k)).foldl (fun s k => abortCmd 8 k s) s
      nvOk c.seq (s.modCmd c.seq ({ · with after := l.map (·.seq) })))

def execNvmeCreateIoSq (fid cid : Nat) : State → Host.Outcome State Fault Refusal :=
  run (wfNvmeCreateIoSq fid cid) (admin fid cid 1 fun c s =>
    let k := ctrlOf s fid
    let q := bits (c.cdw 10) 0 16
    let size := bits (c.cdw 10) 16 16 + 1
    let cq := bits (c.cdw 11) 16 16
    if q = 0 || (grantsOf s fid).nvmeQp < q || (mget? k.sqs q).isSome then nvDone c.seq 1 1 none s
    else if size < 2 then nvDone c.seq 1 2 none s
    else if cq = 0 || (mget? k.cqs cq).isNone then nvDone c.seq 1 0 none s
    else if !bit (c.cdw 11) 0 then nvDone c.seq 0 2 none s
    else nvOk c.seq (s.modCtrl fid (fun k => { k with sqs := mput k.sqs q { base := c.fld 192 64, size := size, cq := cq } })))

def execNvmeDeleteIoCq (fid cid : Nat) : State → Host.Outcome State Fault Refusal :=
  run (wfNvmeDeleteIoCq fid cid) (admin fid cid 4 fun c s =>
    let k := ctrlOf s fid
    let q := bits (c.cdw 10) 0 16
    if q = 0 || (mget? k.cqs q).isNone then nvDone c.seq 1 1 none s
    else if k.sqs.any (·.2.cq = q) then nvDone c.seq 1 0xC none s
    else nvOk c.seq (s.modCtrl fid (fun k => { k with cqs := mdel k.cqs q })))

def execNvmeCreateIoCq (fid cid : Nat) : State → Host.Outcome State Fault Refusal :=
  run (wfNvmeCreateIoCq fid cid) (admin fid cid 5 fun c s =>
    let k := ctrlOf s fid
    let q := bits (c.cdw 10) 0 16
    let size := bits (c.cdw 10) 16 16 + 1
    let iv := bits (c.cdw 11) 16 16
    if q = 0 || (grantsOf s fid).nvmeQp < q || (mget? k.cqs q).isSome then nvDone c.seq 1 1 none s
    else if !bit (c.cdw 11) 0 then nvDone c.seq 0 2 none s
    else if size < 2 then nvDone c.seq 1 2 none s
    else if 128 < iv then nvDone c.seq 1 8 none s
    else nvOk c.seq (s.modCtrl fid (fun k => { k with
      cqs := mput k.cqs q { base := c.fld 192 64, size := size, iv := iv, ien := bit (c.cdw 11) 1 } })))

def execNvmeAsyncEventRequest (fid cid : Nat) : State → Host.Outcome State Fault Refusal :=
  run (wfNvmeAsyncEventRequest fid cid) (admin fid cid 0xC fun c s =>
    if 4 ≤ (ctrlOf s fid).aers.length then nvDone c.seq 1 5 none s
    else asyncPump fid (s.modCtrl fid (fun k => { k with aers := k.aers ++ [c.seq] })))

/-- The admin opcodes of R233. -/
def adminKnown (opc : Nat) : Bool := [0, 1, 2, 4, 5, 6, 8, 9, 0xA, 0xC].contains opc

def execNvmeAdminUnsupported (fid cid : Nat) : State → Host.Outcome State Fault Refusal :=
  run (wfNvmeAdminUnsupported fid cid) fun s =>
    match adminTurn s fid cid (fun o => !adminKnown o) with
    | some c => nvDone c.seq 0 1 (some true) s
    | none => s

/-! ### Features (R231, R235, R244) -/

/-- The value of a feature, as Get Features returns it in dword 0. -/
def featGet (s : State) (fid id d11 : Nat) : Option Nat :=
  let f := (ctrlOf s fid).feats
  let g := (grantsOf s fid).nvmeQp - 1
  match id with
  | 1 => some f.arb
  | 2 => some 0
  | 4 => some (if bits d11 20 2 = 0 then f.tempOver else f.tempUnder)
  | 5 => some f.errRec
  | 6 => some 0
  | 7 => some (g + 65536 * g)
  | 8 => some (f.thr + 256 * f.time)
  | 9 => some (bits d11 0 16 + 65536 * b2n (mget? f.cd (bits d11 0 16)).isSome)
  | 0xA => some f.wan
  | 0xB => some f.async
  | 0xC1 => some (b2n f.orden)
  | _ => none

/-- Sets a feature: dword 0 of the completion, or SCT and SC of the failure. Ordered Mark Enable takes effect where the completion is posted
(R244). -/
def featSet (s : State) (fid id d11 : Nat) : Except (Nat × Nat) (Nat × (Feats → Feats)) :=
  let k := ctrlOf s fid
  let g := (grantsOf s fid).nvmeQp - 1
  match id with
  | 1 => .ok (0, fun f => { f with arb := d11 })
  | 2 => if bits d11 0 5 = 0 then .ok (0, fun f => f) else .error (0, 2)
  | 4 =>
    if bits d11 16 4 ≠ 0 && bits d11 16 4 ≠ 0xF then .error (0, 2)
    else if bits d11 20 2 = 0 then .ok (0, fun f => { f with tempOver := bits d11 0 16 })
    else if bits d11 20 2 = 1 then .ok (0, fun f => { f with tempUnder := bits d11 0 16 })
    else .error (0, 2)
  | 5 => .ok (0, fun f => { f with errRec := bits d11 0 16 })
  | 7 => if k.sqs.any (·.1 ≠ 0) || k.cqs.any (·.1 ≠ 0) then .error (0, 0xC) else .ok (g + 65536 * g, fun f => f)
  | 8 => .ok (0, fun f => { f with thr := bits d11 0 8, time := bits d11 8 8 })
  | 9 =>
    let iv := bits d11 0 16
    if 128 < iv then .error (0, 2)
    else .ok (0, fun f => { f with cd := if bit d11 16 then mput f.cd iv () else mdel f.cd iv })
  | 0xA => .ok (0, fun f => { f with wan := d11 })
  | 0xB => .ok (0, fun f => { f with async := d11 })
  | 0xC1 => .ok (0, fun f => f)
  | _ => .error (0, 2)

def execNvmeSetFeatures (fid cid : Nat) : State → Host.Outcome State Fault Refusal :=
  run (wfNvmeSetFeatures fid cid) (admin fid cid 9 fun c s =>
    if bit (c.cdw 10) 31 then nvDone c.seq 1 0xD none s
    else match featSet s fid (bits (c.cdw 10) 0 8) (c.cdw 11) with
      | .error (t, e) => nvDone c.seq t e none s
      | .ok (d, f) =>
        let s := s.modCtrl fid (fun k => { k with feats := f k.feats })
        nvOk c.seq (s.modCmd c.seq ({ · with dw0 := d })))

def execNvmeGetFeatures (fid cid : Nat) : State → Host.Outcome State Fault Refusal :=
  run (wfNvmeGetFeatures fid cid) (admin fid cid 0xA fun c s =>
    if bits (c.cdw 10) 8 3 ≠ 0 then nvDone c.seq 0 2 none s
    else match featGet s fid (bits (c.cdw 10) 0 8) (c.cdw 11) with
      | none => nvDone c.seq 0 2 none s
      | some d => nvOk c.seq (s.modCmd c.seq ({ · with dw0 := d })))

/-! ### Identify (R229, R237 to R239) -/

/-- A structure of `n` bytes with fields at offsets, zero elsewhere. -/
def pageOf (n : Nat) (l : List (Nat × List Byte)) : List Byte := l.foldl (fun bs e => putAt bs e.1 e.2) (List.replicate n 0)

/-- ASCII text padded with spaces to `n` bytes. -/
def asciiPad (n : Nat) (t : List Byte) : List Byte := (t ++ List.replicate n 0x20).take n

/-- CNTLID (R229). -/
def cntlId (s : State) (fid : Nat) : Nat := 1 + 1025 * fidPort fid + (if isVf fid then (fnD s fid).vf else 0)
/-- SUBNQN (R229). -/
def subNqn (s : State) : List Byte := ascii "nqn.2024-06.com.etaraz:x144-" ++ hexText 16 s.nv.uniqueId
/-- The running firmware version as eight characters (R236, R238): the version's text form is not given, so it is free. -/
def fwText (s : State) : List Byte := fit 8 (Config.firmwareText (if s.eft.running ≤ 1 then (slotOf s s.eft.running).version else 0))

/-- Identify Controller (R238). -/
def idController (s : State) (fid : Nat) : List Byte :=
  let sn := hexText 16 s.nv.uniqueId ++ hexText 4 (cntlId s fid)
  pageOf 4096 [(0, leBytes 2 0x22F4), (2, leBytes 2 (hostPort s (fidPort fid)).subVendor), (4, asciiPad 20 sn),
    (24, asciiPad 40 (ascii "Etaraz Tirzu X144")), (64, fwText s), (76, [BitVec.ofNat 8 (2 + 4 * b2n (isVf fid))]), (77, [9]),
    (78, leBytes 2 (cntlId s fid)), (80, leBytes 4 0x00020100), (84, leBytes 4 100000), (88, leBytes 4 500000),
    (92, leBytes 4 256), (111, [1]), (258, [7]), (259, [3]), (260, [3]), (261, [6]), (262, [63]), (266, leBytes 2 378),
    (268, leBytes 2 398)]
  |> fun p => ([(512, [0x66]), (513, [0x44]), (516, leBytes 4 4096), (520, leBytes 2 0x0D), (522, leBytes 2 1), (525, [6]),
    (526, leBytes 2 31), (528, leBytes 2 31), (532, leBytes 2 31), (536, leBytes 4 1), (768, subNqn s)] : List (Nat × List Byte)).foldl
      (fun bs e => putAt bs e.1 e.2) p

/-- The NGUID of a volume: not given by the spec, so free, the same at every read. -/
def volGuid (s : State) (h : Nat) : List Byte := fit 16 (Config.nguid s.nv.uniqueId h)

/-- Identify Namespace (R239). -/
def idNamespace (s : State) (n : Ns) : List Byte :=
  let size := ((vol? s n.vol).map (·.size)).getD 0
  pageOf 4096 [(0, leBytes 8 size), (8, leBytes 8 size), (16, leBytes 8 size), (25, [2]),
    (26, [BitVec.ofNat 8 (n.fmt + 16 * b2n n.ext)]), (27, [3]), (28, [0x1F]), (29, [BitVec.ofNat 8 n.pt]), (30, [1]), (33, [9]),
    (104, volGuid s n.vol), (128, leBytes 4 (12 * 65536)), (132, leBytes 4 (12 * 65536 + 8)), (136, leBytes 4 (12 * 65536 + 16))]

/-- The namespace IDs attached to a controller, rising. -/
def nsids (s : State) (fid : Nat) : List Nat :=
  (s.sto.nss.filter (fun e => e.1 / 65536 = fid)).map (fun e => e.1 % 65536)

/-- The structure that an Identify returns, or SCT and SC. -/
def identify (s : State) (fid cns nsid csi : Nat) : Except (Nat × Nat) (List Byte) :=
  let ns := mget? s.sto.nss (fid * 65536 + nsid)
  match cns with
  | 0 => match ns with
    | some n => .ok (idNamespace s n)
    | none => if 1 ≤ nsid && nsid ≤ 4096 then .ok (List.replicate 4096 0) else .error (0, 0xB)
  | 1 => .ok (idController s fid)
  | 2 => if 2 ^ 32 - 2 ≤ nsid then .error (0, 0xB)
    else .ok (pageOf 4096 (((nsids s fid).filter (nsid < ·)).zipIdx.map (fun e => (4 * e.2, leBytes 4 e.1))))
  | 3 => match ns with
    | some n => .ok (pageOf 4096 [(0, [2, 16, 0, 0]), (4, volGuid s n.vol), (20, [4, 1, 0, 0, 0])])
    | none => .error (0, 0xB)
  | 5 => if csi ≠ 0 then .error (0, 2)
    else match ns with
      | some _ => .ok (pageOf 4096 [(20, leBytes 4 (2 * 2 ^ 7))])
      | none => if 1 ≤ nsid && nsid ≤ 4096 then .ok (List.replicate 4096 0) else .error (0, 0xB)
  | 6 => if csi ≠ 0 then .error (0, 2) else .ok (List.replicate 4096 0)
  | _ => .error (0, 2)

def execNvmeIdentify (fid cid : Nat) : State → Host.Outcome State Fault Refusal :=
  run (wfNvmeIdentify fid cid) (admin fid cid 6 fun c s =>
    match identify s fid (bits (c.cdw 10) 0 8) c.nsid (bits (c.cdw 11) 24 8) with
    | .error (t, e) => nvDone c.seq t e none s
    | .ok p => nvOk c.seq (nvScatter fid c.segs p s))

/-! ### Log pages (R236) -/

/-- An entry of the Error Information log. -/
def errBytes (e : ErrEntry) : List Byte :=
  pageOf 64 [(0, leBytes 8 e.count), (8, leBytes 2 e.sqid), (10, leBytes 2 e.cid), (12, leBytes 2 (2 * e.status)), (16, leBytes 8 e.lba),
    (24, leBytes 4 e.nsid)]

/-- SMART / Health Information; the fields that the spec does not define are free. -/
def smartPage (s : State) (fid : Nat) : List Byte × State :=
  let f := (ctrlOf s fid).feats
  let hot : Bool := f.tempOver ≤ hottest s || hottest s ≤ f.tempUnder
  let warn := b2n (sparePct s < 10) + 2 * b2n hot
  let units (n : Nat) : Nat := cdiv (8 * n) 1000
  let (free, s) := (List.range 6).foldl (fun (x : List Nat × State) _ =>
    let (v, s) := x.2.drawBelow (2 ^ 64)
    (x.1 ++ [v], s)) ([], s)
  (pageOf 512 ([(0, [BitVec.ofNat 8 warn]), (1, leBytes 2 (hottest s)), (3, [BitVec.ofNat 8 (sparePct s)]), (4, [10]),
      (5, [BitVec.ofNat 8 (pctUsed s)]), (32, leBytes 16 (units (s.count .nvReadBlocks fid 0))),
      (48, leBytes 16 (units (s.count .nvWriteBlocks fid 0))), (64, leBytes 16 (s.count .nvReadCmds fid 0)),
      (80, leBytes 16 (s.count .nvWriteCmds fid 0)), (176, leBytes 16 (ctrlOf s fid).errCount)]
    ++ free.zipIdx.map (fun e => (if e.2 < 5 then 96 + 16 * e.2 else 192, leBytes (if e.2 < 5 then 16 else 8) e.1))), s)

/-- Commands Supported and Effects: CSUPP, with LBCC for the commands that change blocks. -/
def effectsPage : List Byte :=
  pageOf 4096 ([0, 1, 2, 4, 5, 6, 8, 9, 0xA, 0xC].map (fun o => (4 * o, leBytes 4 1))
    ++ [0, 1, 2, 5, 8, 9].map (fun o => (1024 + 4 * o, leBytes 4 (if o = 1 || o = 8 || o = 9 then 3 else 1))))

/-- A log page, if supported. -/
def logPage (s : State) (fid lid : Nat) : Option (List Byte × State) :=
  let k := ctrlOf s fid
  match lid with
  | 1 => some (((k.errs.map errBytes).flatten ++ List.replicate 4096 0).take 4096, s)
  | 2 => some (smartPage s fid)
  | 3 => some (pageOf 512 [(0, [1]), (8, fwText s)], s)
  | 4 => some (pageOf 4096 (if 1024 < k.changed.length then [(0, leBytes 4 (2 ^ 32 - 1))]
      else k.changed.zipIdx.map (fun e => (4 * e.2, leBytes 4 e.1))), s)
  | 5 => some (effectsPage, s)
  | _ => none

/-- The asynchronous event type whose information a log page holds. -/
def lidType (lid : Nat) : Option Nat := if lid = 1 then some 0 else if lid = 2 then some 1 else if lid = 4 then some 2 else none

/-- Reading a page without RAE unmasks its events, and clears the Changed Namespace List. -/
def logRead (fid lid : Nat) (s : State) : State :=
  let s := if lid = 4 then s.modCtrl fid ({ · with changed := [] }) else s
  match lidType lid with
  | some t => asyncPump fid (s.modCtrl fid (fun k => { k with masked := k.masked.filter (· ≠ t) }))
  | none => s

def execNvmeGetLogPage (fid cid : Nat) : State → Host.Outcome State Fault Refusal :=
  run (wfNvmeGetLogPage fid cid) (admin fid cid 2 fun c s =>
    let lid := bits (c.cdw 10) 0 8
    let n := 4 * (bits (c.cdw 10) 16 16 + 65536 * bits (c.cdw 11) 0 16 + 1)
    let off := c.cdw 12 + 2 ^ 32 * c.cdw 13
    match logPage s fid lid with
    | none => nvDone c.seq 1 9 none s
    | some (p, s) =>
      if p.length < off then nvDone c.seq 0 2 none s
      else
        let s := nvOk c.seq (nvScatter fid c.segs ((p.drop off).take n) s)
        if bit (c.cdw 10) 15 then s else logRead fid lid s)

/-! ### I/O commands (R234, R240, R246, R250, R266, R269, R271) -/

/-- An I/O command of an opcode in a phase. -/
def ioCmd (s : State) (fid qid cid opc : Nat) (p : NvPhase) : Option NvCmd :=
  if qid = 0 then none else cmdIn s fid qid cid (fun c => c.opc = opc && c.phase = p)

/-- A read brings the command's host data. -/
def readsCmd (c : NvCmd) (r : Read) : Bool := r.fid = c.fid && r.purpose = .nvme c.sqid c.cid

/-- The host data of a started command, unless its read was dropped, or its context holds the stream. -/
def dataDue (s : State) (c : NvCmd) : Bool := liveRead s (readsCmd c) && readsOut s (readsCmd c) && !moverHeld s c.seq

/-- The read of a command's host data ends. -/
def readEnd (c : NvCmd) (s : State) : State := s.endReads (readsCmd c)

def execNvmeFlush (fid qid cid : Nat) : State → Host.Outcome State Fault Refusal :=
  run (wfNvmeFlush fid qid cid) fun s =>
    match ioCmd s fid qid cid 0 .fetched with
    | none => s
    | some f =>
      if f.fuse ≠ 0 || !ordOk s f || s.sto.cmds.any (flushWaits s f) then s else nvOk f.seq s

def execNvmeWrite (fid qid cid : Nat) (data md : List Byte) : State → Host.Outcome State Fault Refusal :=
  run (wfNvmeWrite fid qid cid data md) fun s =>
    match ioCmd s fid qid cid 1 .started with
    | some c => if c.fuse = 0 && dataDue s c && dataOk c data md then writeData c data md (readEnd c s) else s
    | none => s

/-- The replica that a read goes to: the primary, or the next in-sync one in turn (R271). -/
def readRep (h : Nat) (s : State) : Option Nat × State :=
  match vol? s h with
  | none => (none, s)
  | some v =>
    let l := v.repsIn 0
    if v.spread then
      let next := ((l.filter (v.rr ≤ ·)).head?).or l.head?
      (next, s.putVol h { v with rr := (next.getD 0) + 1 })
    else (l.head?, s)

/-- Issues the backend reads of a command, all to one replica. -/
def readIssue (c : NvCmd) (s : State) : State :=
  if storageHeld s then s
  else match readRep c.vol s with
    | (none, s) => nvFail c 2 0x81 (some false) s
    | (some i, s') => match vol? s' c.vol with
      | none => s
      | some v =>
        if !backReady s (v.rep i).backend then s
        else
          let s := s'.modCmd c.seq ({ · with phase := .backend, sent := true })
          (piecesOf c.slba c.nlb).foldl (fun s e => readPart c v i e.1 e.2 s) s

def execNvmeRead (fid qid cid : Nat) : State → Host.Outcome State Fault Refusal :=
  run (wfNvmeRead fid qid cid) fun s =>
    match ioCmd s fid qid cid 2 .started with
    | some c => readIssue c s
    | none => s

def execNvmeCompare (fid qid cid : Nat) (data md : List Byte) : State → Host.Outcome State Fault Refusal :=
  run (wfNvmeCompare fid qid cid data md) fun s =>
    match ioCmd s fid qid cid 5 .started with
    | some c =>
      if c.fuse = 0 && dataDue s c && dataOk c data md then
        let s' := readIssue c ((readEnd c s).modCmd c.seq (fun k => { k with data, md }))
        if ((cmd? s' c.seq).map (·.phase)) = some .started then s else s'
      else s
    | none => s

def execNvmeWriteZeroes (fid qid cid : Nat) : State → Host.Outcome State Fault Refusal :=
  run (wfNvmeWriteZeroes fid qid cid) fun s =>
    match ioCmd s fid qid cid 8 .started with
    | some c => s.modCmd c.seq ({ · with phase := .intent })
    | none => s

/-- With AD, a started command goes to its record; without, or with nothing to deallocate, it completes at once. -/
def execNvmeDatasetManagement (fid qid cid : Nat) : State → Host.Outcome State Fault Refusal :=
  run (wfNvmeDatasetManagement fid qid cid) fun s =>
    match ioCmd s fid qid cid 9 .started with
    | some c => if c.ranges.isEmpty then nvOk c.seq s else s.modCmd c.seq ({ · with phase := .intent })
    | none => match ioCmd s fid qid cid 9 .fetched with
      | some c =>
        if c.ad || c.fuse ≠ 0 || !ordOk s c then s
        else match volAnswer s c with
          | some (t, e) => nvDone c.seq t e (some false) s
          | none => nvOk c.seq s
      | none => s

/-- The host data of both halves is there: the write's is checked, then one replica is read and compared. -/
def execNvmeFusedCompareWrite (fid qid cid : Nat) (data md wdata wmd : List Byte) : State → Host.Outcome State Fault Refusal :=
  run (wfNvmeFusedCompareWrite fid qid cid data md wdata wmd) fun s =>
    match ioCmd s fid qid cid 5 .started with
    | some c => match c.pair.bind (cmd? s) with
      | some w =>
        if c.fuse = 1 && dataDue s c && dataDue s w && dataOk c data md && dataOk w wdata wmd then
          match writeBad w wdata wmd with
          | some (i, e) => piFail w i e (readEnd w (readEnd c s))
          | none =>
            let md16 := (List.range w.nlb).flatMap (fun i => blockMd w i wdata wmd)
            let pcws := writePcws s w wdata
            let s1 := (readEnd w (readEnd c s)).modCmd c.seq (fun k => { k with data, md })
            let s2 := readIssue c (s1.modCmd w.seq (fun k => { k with data := wdata, md := md16, pcws }))
            if ((cmd? s2 c.seq).map (·.phase)) = some .started then s else s2
        else s
      | none => s
    | none => s

def execNvmeIoUnsupported (fid qid cid : Nat) : State → Host.Outcome State Fault Refusal :=
  run (wfNvmeIoUnsupported fid qid cid) fun s =>
    if qid = 0 then s
    else match cmdIn s fid qid cid (fun c => c.phase = .fetched && c.fuse = 0 && !ioKnown c.opc) with
      | some c => nvDone c.seq 0 1 none s
      | none => s

end Sys2Proof.Machine
end

