-- ==== Sys2Proof/Machine/Volume.lean ====
section
/-! DEFINITION. The volume service's commands: intent records, backends and what they answer, reconciliation, rebuild, and the mailbox
commands over volumes and backends (R262 to R276, R285). -/

namespace Sys2Proof.Machine

/-! ### Issuing a write (R266, R268, R269) -/

/-- The blocks that a write-type command covers, from its first to past its last. -/
def cmdHull (c : NvCmd) : Nat × Nat :=
  (c.ranges.foldl (fun a r => min a r.1) (c.ranges.headD (0, 0)).1, c.ranges.foldl (fun a r => max a (r.1 + r.2)) 0)

/-- The backend commands of one range of a write-type command for one replica: a write carries its slice of the sealed data; zeroes and
deallocations carry none (R266, R269). -/
def writeRange (c : NvCmd) (v : Volume) (i : Nat) (r : Nat × Nat) (s : State) : State :=
  let rep := v.rep i
  let lba := rep.start + r.1
  let op := if c.opc = 1 then 1 else if (backOf s rep.backend).info.dealloc then 9 else 8
  (piecesOf r.1 r.2).foldl (fun s p =>
    backIssue rep.backend i op (.cmd c.seq) p.1 p.2 (lba + p.1)
      (if c.opc = 1 then (c.data.drop (4112 * p.1)).take (4112 * p.2) else []) s) s

/-- The record that a write opens (R268, R269 step 3). -/
def intentFor (s : State) (c : NvCmd) (v : Volume) (reps : List Nat) : Intent :=
  let (lo, hi) := cmdHull c
  let r : Intent := { rmask := reps.foldl (fun m i => m ||| 2 ^ i) 0, zero := c.opc ≠ 1, vol := c.vol, gen := v.gen, slba := lo, nlb := hi - lo
                      time := s.time }
  { r with crc := r.sum }

/-- A write takes a FREE record, opens it, and issues its backend commands to every in-sync and rebuilding replica (R269 steps 2 to 4). -/
def intentTake (c : NvCmd) (s : State) : State :=
  match vol? s c.vol with
  | none => s
  | some v =>
    let reps := (List.range v.reps.length).filter (fun i => (v.rep i).state ≠ 1)
    if v.primary.isNone then nvFail c 2 0x80 (some false) s
    else if storageHeld s || !reps.all (fun i => backReady s (v.rep i).backend) then s
    else match leastBelow 65536 (fun i => (mget? s.sto.intents i).isNone) with
      | none => s.bump .intentWait 0 0 1
      | some n =>
        let r := intentFor s c v reps
        let s := s.modSto (fun t => { t with intents := mput t.intents n r })
        let s := s.modCmd c.seq ({ · with phase := .backend, sent := true, acked := reps, intent := some n })
        reps.foldl (fun s i => c.ranges.foldl (fun s x => writeRange c v i x s) s) s

def execIntentRecordTake (fid qid cid : Nat) : State → Host.Outcome State Fault Refusal :=
  run (wfIntentRecordTake fid qid cid) fun s =>
    match cmdIn s fid qid cid (·.phase = .intent) with
    | some c => if domServes s .storage then intentTake c s else s
    | none => s

/-! ### What a backend answers (R269 to R271, R285) -/

/-- A backend command succeeds. -/
def backGood (b : BackCmd) (data : List Byte) (s : State) : State :=
  match b.for_ with
  | .init h => match vol? s h with
    | some v =>
      if b.off + b.len < v.size then zeroNext h b.rep (b.off + b.len) s
      else
      let v := { v with zeroing := v.zeroing.filter (· ≠ b.rep) }
      let s := s.putVol h v
      if v.state = 0 && v.zeroing.isEmpty then autoRebuild h (volSettle h s) else s
    | none => s
  | .cmd seq => match cmd? s seq with
    | some c =>
      if c.writes then writeCheck seq s
      else
        let s := s.modCmd seq (fun c => { c with parts := c.parts ++ [(b.off, data)] })
        if (cmdBacks s seq).isEmpty then
          match cmd? s seq with
          | some c => readReady c s
          | none => s
        else s
    | none => s

/-- A backend command fails on its replica: the replica is marked degraded before anything the command does next (R270, R271). -/
def backBad (b : BackCmd) (s : State) : State :=
  let h := backVol s b
  autoRebuild h (backFailed b (degradeRep h b.rep (s.bump .backendErr b.backend 0 1)))

/-- The blocks that a good answer brings: those of a read, none otherwise. -/
def answerLen (s : State) (b : BackCmd) : Nat :=
  match b.for_ with
  | .cmd seq => match cmd? s seq with
    | some c => if c.writes then 0 else 4112 * b.len
    | none => 0
  | .init _ => 0

/-- An answer to an outstanding backend command; data waits while the command's context is frozen (R289). -/
def backAnswer (b : BackCmd) (good : Bool) (data : List Byte) (s : State) : State :=
  let held : Bool := match b.for_ with
    | .cmd seq => data.length ≠ 0 && moverHeld s seq
    | .init _ => false
  if good then (if data.length = answerLen s b && !held then backGood b data (backDrop (·.tag = b.tag) s) else s)
  else backBad b (backDrop (·.tag = b.tag) s)

def execBackendResponse (tag : Nat) (good : Bool) (data : List Byte) : State → Host.Outcome State Fault Refusal :=
  run (wfBackendResponse tag good data) fun s =>
    match s.sto.bcmds.find? (fun b => b.tag = tag && b.out) with
    | some b => backAnswer b good data s
    | none => s

/-- The read of a replica that a C2HData PDU carries data for: its CCCID is the low 16 bits of the tag. -/
def pduRead (s : State) (backend : Nat) (pdu : List Byte) : Option BackCmd :=
  s.sto.bcmds.find? (fun b => b.backend = backend && b.out && b.tag % 65536 = atLe pdu 8 2 && answerLen s b ≠ 0)

/-- A header digest error resets the connection; a data digest error fails the read of a C2HData PDU and resets the connection of any
other (R285). A PDU whose digests hold is data or an answer in progress. -/
def pduCheck (backend i : Nat) (p : PduIn) (s : State) : State :=
  if !hdgstOk p.bytes then backLost backend (s.bump .digestErr backend 0 1)
  else if ddgstOk p.bytes then pduTaken i p 0 s
  else
    let s := (pduTaken i p 1 s).bump .digestErr backend 1 1
    if at8 p.bytes 0 = 7 then
      match pduRead s backend p.bytes with
      | some b => backAnswer b false [] s
      | none => s
    else backLost backend s

/-- A PDU comes in by the pipeline of its port (R10), is metered for tenant 0, and meets the context of its connection (R285, R289, R290). -/
def execBackendPduReceive (backend : Nat) (p : PduIn) : State → Host.Outcome State Fault Refusal :=
  run (wfBackendPduReceive backend p) fun s =>
    if !backReady s backend || !pipeServes s (pipeOfPort s p.port) then s
    else match pduSeen s backend p with
      | .held => s
      | .punted => pduPunt backend p (pduMeter backend p s)
      | .taken i => pduCheck backend i p (pduMeter backend p s)

/-! ### Connections (R264, R272, R274) -/

/-- A command has outlived BACKEND_TIMEOUT. -/
def outlived (s : State) (backend : Nat) : Bool :=
  s.sto.bcmds.any (fun b => b.backend = backend && b.out && s.sto.timeout * 1000000 < s.tick - b.at_)

def execBackendTimeout (backend : Nat) : State → Host.Outcome State Fault Refusal :=
  run (wfBackendTimeout backend) fun s => if backReady s backend && outlived s backend then backLost backend s else s

def execBackendConnectionLost (backend : Nat) : State → Host.Outcome State Fault Refusal :=
  run (wfBackendConnectionLost backend) fun s => if backReady s backend then backLost backend s else s

def execBackendReconnect (backend : Nat) (link : Option Link) : State → Host.Outcome State Fault Refusal :=
  run (wfBackendReconnect backend link) fun s =>
    let k := backOf s backend
    if (mget? s.sto.backs backend).isNone || (k.state ≠ 0 && k.state ≠ 2) then s
    else
      let s := if k.state = 2 then backConnect backend k.nqn s else s
      match link with
      | none => if k.state = 0 then backLost backend s else s
      | some l =>
        let s := setBack backend 1 (connsOpen backend l s)
        (s.sto.vols.map (·.1)).foldl (fun s h => autoRebuild h (volRetry h s)) s

/-! ### Reconciliation (R272) -/

/-- A record of a volume is done: it is cleared, and when none remains the generation increases and the volume opens. -/
def recordDone (h n : Nat) (s : State) : State :=
  let s := s.modSto (fun t => { t with intents := mdel t.intents n })
  match vol? s h with
  | none => s
  | some v => autoRebuild h (reconciled h (s.putVol h { v with copied := 0 }))

/-- The copy commands of a chunk: a read of the source, and the same bytes written to each target. The chunk's cells are the storage owner's while
it is copied (R201). -/
def copyOut (v : Volume) (src lba n : Nat) (dsts : List Nat) (data : List Byte) (s : State) : State :=
  let send (op i : Nat) (data : List Byte) (s : State) : State :=
    let (tag, s) := nextTag s
    backSend (v.rep i).backend tag op ((v.rep i).start + lba) n data s
  let cells := cellsOf (4112 * n)
  freeCells storageOwner cells (dsts.foldl (fun s i => send 1 i data s) (send 2 src [] (storageCharge cells s)))

/-- The storage owner has room for a chunk of `n` blocks, and the backends of the source and of its targets are READY. -/
def copyRoom (s : State) (v : Volume) (reps : List Nat) (n : Nat) : Bool :=
  storageRoom s (cellsOf (4112 * n)) && reps.all (fun i => backReady s (v.rep i).backend)

/-- The targets of a copy that failed are marked degraded. -/
def failMask (h failed : Nat) (reps : List Nat) (s : State) : State :=
  (reps.filter (fun i => bit failed i)).foldl (fun s i => degradeRep h i s) s

/-- The next chunk of the volume's first open record is copied, or the record has nothing to copy to. -/
def reconcileChunk (h failed : Nat) (data : List Byte) (s : State) : State :=
  match vol? s h with
  | none => s
  | some v => match v.primary, (openRecs s h v).head? with
    | some p, some (n, r) =>
      let others := (v.repsIn 0).filter (· ≠ p)
      let k := min 512 (r.nlb - v.copied)
      if v.state ≠ 1 || !copyRoom s v (p :: others) k then s
      else if others.isEmpty then recordDone h n s
      else if bit failed p then failMask h failed (v.repsIn 0) s
      else if data.length ≠ 4112 * k then s
      else
        let s := failMask h failed others (copyOut v p (r.slba + v.copied) k others data s)
        if r.nlb ≤ v.copied + k then recordDone h n s
        else match vol? s h with
          | some w => s.putVol h { w with copied := v.copied + k }
          | none => s
    | _, _ => s

def execReconcileChunkDone (vol failed : Nat) (data : List Byte) : State → Host.Outcome State Fault Refusal :=
  run (wfReconcileChunkDone vol failed data) (reconcileChunk vol failed data)

/-! ### Rebuild (R273) -/

/-- Nothing fetched before the chunk's lock conflicts with it. -/
def chunkFree (s : State) (vol lba n seq : Nat) : Bool :=
  !s.sto.locks.any (fun l => l.vol = vol && l.seq < seq && l.excl && l.lo < lba + n && lba < l.hi)

/-- The cursor has passed the end and every chunk is copied: the rebuilding replicas are in sync. -/
def rebuildEnd (h : Nat) (s : State) : State :=
  match vol? s h with
  | none => s
  | some v =>
    if v.cursor < v.size || !v.chunks.isEmpty || (v.repsIn 2).isEmpty then rebuildPump 4 h s
    else
      let done := v.repsIn 2
      let s := s.putVol h { done.foldl (fun v i => v.setRep i 0) v with cursor := 0 }
      volSettle h (done.foldl (fun s i => s.event 0x0904 (.dev h) i) s)

/-- A chunk of a rebuild has been copied from the primary, within REBUILD_RATE. -/
def rebuildChunk (h lba failed : Nat) (data : List Byte) (s : State) : State :=
  match vol? s h with
  | none => s
  | some v => match v.chunks.find? (·.1 = lba), v.primary with
    | some (_, seq), some p =>
      let n := min 512 (v.size - lba)
      if s.tick < v.pace || !chunkFree s h lba n seq || !copyRoom s v (p :: v.repsIn 2) n then s
      else if bit failed p then autoRebuild h (degradeRep h p s)
      else if data.length ≠ 4112 * n then s
      else
        let s := failMask h failed (v.repsIn 2) (copyOut v p lba n (v.repsIn 2) data s)
        let s := lockRelease seq s
        match vol? s h with
        | some w => autoRebuild h (rebuildEnd h (s.putVol h { w with chunks := w.chunks.filter (·.1 ≠ lba), pace := s.tick + copyTime v n }))
        | none => s
    | _, _ => s

def execRebuildChunkDone (vol lba failed : Nat) (data : List Byte) : State → Host.Outcome State Fault Refusal :=
  run (wfRebuildChunkDone vol lba failed data) (rebuildChunk vol lba failed data)

/-! ### The volume commands (R267, R274, R275) -/

/-- Payload offsets of replica `i`'s BACKEND and START in `VOL_CREATE` (R360). -/
def repOff (i : Nat) : Nat × Nat := (if i = 0 then 18 else 16 + 16 * i, 24 + 16 * i)

/-- Two extents of one backend overlap. -/
def extentsMeet (a b : Nat × Nat) (na nb : Nat) : Bool := a.1 = b.1 && a.2 < b.2 + nb && b.2 < a.2 + na

/-- The first field of `VOL_CREATE` out of its range. -/
def volBad (handle slot size opts : Nat) (reps : List (Nat × Nat)) : Option Nat :=
  if 4096 ≤ handle then some 0
  else if 262144 ≤ slot then some 4
  else if size = 0 || 2 ^ 34 < size then some 8
  else if 4 ≤ opts then some 16
  else if reps.isEmpty || 3 < reps.length then some 17
  else ((List.range reps.length).find? (fun i => ((reps.take i).map (·.1)).contains (reps.getD i (0, 0)).1)).map (fun i => (repOff i).1)

/-- Replica `i` of a new volume meets an extent of another. -/
def extentTaken (s : State) (size : Nat) (r : Nat × Nat) : Bool :=
  s.sto.vols.any (fun e => e.2.reps.any (fun x => extentsMeet r (x.backend, x.start) size e.2.size))

/-- A replica names a backend that does not exist. -/
def backAbsent (s : State) (reps : List (Nat × Nat)) : Option Nat :=
  ((List.range reps.length).find? (fun i => (mget? s.sto.backs (reps.getD i (0, 0)).1).isNone)).map (fun i => (repOff i).1)

def execVolCreate (x : XCall) (handle tenant slot size opts : Nat) (reps : List (Nat × Nat)) :
    State → Host.Outcome State Fault Refusal :=
  run (wfVolCreate x handle tenant slot size opts reps) (xop x 0x0901 fun _ s =>
    let k := keySlot s slot
    match (volBad handle slot size opts reps).or (backAbsent s reps) with
    | some o => (s, badParam o)
    | none =>
      if (vol? s handle).isSome || reps.any (extentTaken s size) then (s, fails stExists)
      else if !reps.all (fun r => backReady s r.1) then (s, fails stState)
      else if k.type = 0 || k.tenant ≠ tenant then (s, fails stDenied)
      else match (List.range reps.length).find? (fun i =>
          (backOf s (reps.getD i (0, 0)).1).info.blocks < (reps.getD i (0, 0)).2 + size) with
        | some i => (s, badParam (repOff i).2)
        | none =>
          let v : Volume := { size, tenant, slot, kcv := k.kcv, spread := bit opts 0, auto := bit opts 1,
                              reps := reps.map (fun r => { backend := r.1, start := r.2 }) }
          (volZero handle (s.putVol handle v), ok))

/-- A controller has the volume attached. -/
def volAttached (s : State) (h : Nat) : Bool := s.sto.nss.any (·.2.vol = h)

def execVolDestroy (x : XCall) (handle : Nat) : State → Host.Outcome State Fault Refusal :=
  run (wfVolDestroy x handle) (xop x 0x0902 fun _ s =>
    if (vol? s handle).isNone then (s, badParam 0)
    else if volAttached s handle then (s, fails stState)
    else if s.sto.intents.any (fun e => e.2.vol = handle && e.2.good) then (s, fails stBusy)
    else
      let s := backDrop (·.for_ = .init handle) s
      (s.modSto (fun t => { t with vols := mdel t.vols handle, locks := t.locks.filter (·.vol ≠ handle) }), ok))

/-- A namespace of a controller came or went (R236, R275). -/
def nsChanged (fid nsid : Nat) (s : State) : State :=
  asyncEvent fid 2 0 4 (s.modCtrl fid (fun c => { c with changed := if c.changed.contains nsid then c.changed else c.changed ++ [nsid] }))

/-- The rebuild form of `VOL_ATTACH` (R273). -/
def volRebuild (handle mask : Nat) (s : State) : State × Reply :=
  match vol? s handle with
  | none => (s, badParam 0)
  | some v =>
    let reps := (List.range 8).filter (fun i => bit mask i)
    if reps.any (v.reps.length ≤ ·) then (s, badParam 8)
    else if v.primary.isNone || !reps.all (fun i => (rebuildable s v).contains i) then (s, fails stState)
    else (rebuildStart handle reps s, ok)

def execVolAttach (x : XCall) (handle fid nsid format pitype rebuild : Nat) : State → Host.Outcome State Fault Refusal :=
  run (wfVolAttach x handle fid nsid format pitype rebuild) (xop x 0x0903 fun _ s =>
    if rebuild ≠ 0 then volRebuild handle rebuild s
    else match vol? s handle with
      | none => (s, badParam 0)
      | some v =>
        if (fn? s fid).isNone || !isNvme s fid then (s, badParam 2)
        else if nsid = 0 || 4096 < nsid then (s, badParam 4)
        else if 2 < format % 16 || 32 ≤ format then (s, badParam 6)
        else if 3 < pitype || (pitype ≠ 0 && format % 16 = 0) then (s, badParam 7)
        else if tenantOf s fid ≠ v.tenant then (s, fails stDenied)
        else if (mget? s.sto.nss (fid * 65536 + nsid)).isSome then (s, fails stExists)
        else
          let ns : Ns := { vol := handle, fmt := format % 16, ext := bit format 4, pt := pitype }
          (nsChanged fid nsid (s.modSto (fun t => { t with nss := mput t.nss (fid * 65536 + nsid) ns })), ok))

def execVolDetach (x : XCall) (handle fid : Nat) : State → Host.Outcome State Fault Refusal :=
  run (wfVolDetach x handle fid) (xop x 0x0904 fun _ s =>
    let mine (e : Nat × Ns) : Bool := e.1 / 65536 = fid && e.2.vol = handle
    let gone := s.sto.nss.filter mine
    if gone.isEmpty then (s, fails stNotFound)
    else
      let s := s.modSto (fun t => { t with nss := t.nss.filter (fun e => !mine e) })
      let s := gone.foldl (fun s e => nsChanged fid (e.1 % 65536) s) s
      (s, if s.sto.cmds.any (fun c => c.vol = handle && c.fid = fid && !c.orphan) then .wait (.volDetach handle fid) else ok))

/-! ### The backend commands (R263, R264, R275) -/

/-- A field of `BACKEND_ADD` is out of its range. -/
def backBadField (c : BackCfg) : Bool :=
  c.port = 0 || (c.l3 ≠ 1 && c.l3 ≠ 2) || c.queues = 0 || 16 < c.queues || (9 ≤ c.home && c.home ≠ 0xFF)

/-- The LBA format in use: the one that FLBAS bits 6:5 and 3:0 index (NVM Express). -/
def foundFormat (f : BackFound) : Nat × Nat := f.lbafs.getD (bits f.flbas 0 4 + 16 * bits f.flbas 5 2) (0, 0)

/-- The first condition of admission that fails (R263); LBADS is a power of two, MDTS counts pages of CAP.MPSMIN and reads 0 for no limit, DPS
bits 2:0 give the protection type (NVM Express). -/
def backReason (f : BackFound) : Option Nat :=
  if (if bit f.nsfeat 1 then f.nawupf else f.awupf) < 31 then some 1
  else if foundFormat f ≠ (12, 16) || bits f.dps 0 3 ≠ 0 then some 2
  else if f.mdts ≠ 0 && 2 ^ f.mdts * 2 ^ (12 + f.mpsMin) < 131072 then some 3
  else if !bit f.oncs 3 then some 4
  else if !f.hdgst || !f.ddgst then some 5
  else if f.nsze * 4096 < 2 ^ 30 then some 6
  else none

/-- The number a new backend takes: the least that none holds, a REMOVED one not counting. -/
def backFree (s : State) : Option Nat :=
  leastBelow 256 (fun b => (mget? s.sto.backs b).isNone || (backOf s b).state = 3)

/-- The home pipeline of a backend that names none: the active logical pipeline with the fewest home connections, the lower on a tie
(R10); of all nine where none is active (log entry 53). -/
def homeFor (s : State) : Nat :=
  let load (p : Nat) : Nat := (s.sto.backs.filter (fun e => e.2.state ≠ 3 && e.2.home = p)).foldl (fun a e => a + e.2.queues) 0
  let active := (List.range 9).filter (pipeActive s)
  let l := if active.isEmpty then List.range 9 else active
  l.foldl (fun b p => if load p < load b then p else b) (l.headD 0)

/-- A backend with its connections (R263, R264). -/
def backNew (c : BackCfg) (f : BackFound) (home : Nat) : Backend :=
  { addr := c.addr, v6 := c.l3 = 2, port := c.port, nqn := c.nqn, nsid := c.nsid, queues := c.queues, home
    info := { blocks := f.nsze, dealloc := bits f.dlfeat 0 3 = 1 } }

/-- `BACKEND_ADD`. A BAD_PARAM that none of R263's conditions causes has DETAIL 0, R361 giving it their reasons (log entry 51). -/
def execBackendAdd (x : XCall) (c : BackCfg) (found : BackFound) : State → Host.Outcome State Fault Refusal :=
  run (wfBackendAdd x c found) (xop x 0x0905 fun _ s =>
    match (if backBadField c then none else backFree s) with
    | none => (s, badParam 0)
    | some b =>
      let s := backConnect b c.nqn s
      match found.link with
      | none => (s, fails stTimeout)
      | some l => match backReason found with
        | some r => (s.emit (.disconnect b), failsWith stBadParam r)
        | none =>
          let k := backNew c found (if c.home = 0xFF then homeFor s else c.home)
          (setBack b 1 (connsOpen b l (s.modSto (fun t => { t with backs := mput t.backs b k }))), okWith [u16 b]))

/-- Replicas that a backend holds: the volume and the replica's index. -/
def backHeld (s : State) (b : Nat) : List (Nat × Nat) :=
  s.sto.vols.flatMap (fun e => ((List.range e.2.reps.length).filter (fun i => (e.2.rep i).backend = b)).map (fun i => (e.1, i)))

/-- A backend's state, then its counters: commands, errors, header and data digest errors (R264, R275); the storage paths' mismatches, segments out
of sequence, and exhaustion of the pipelines' and the data mover's contexts (R291); then the replicas that it holds, with the volume in
bits 15:0 (log entry 51). -/
def backReport (s : State) (b : Nat) : List Fld :=
  let counts : List Nat := [s.count .backendCmd b 0, s.count .backendErr b 0, s.count .digestErr b 0, s.count .digestErr b 1,
    s.count .pcwBad 3 9, s.count .pcwBad 4 9, s.count .ckvOutOfSeq 0 0, s.count .ckvExhausted 0 0, s.count .ckvExhausted 1 0]
  u8 (backOf s b).state :: (counts ++ (backHeld s b).map (fun (e : Nat × Nat) => e.1 + 65536 * e.2)).map u64

def execBackendState (x : XCall) (backend : Nat) : State → Host.Outcome State Fault Refusal :=
  run (wfBackendState x backend) (xop x 0x0906 fun c s =>
    let remove := bit c.flags 11
    if remove && c.role ≠ 1 then (s, fails stDenied)
    else if (mget? s.sto.backs backend).isNone then (s, badParam 0)
    else if !remove then (s, okWith (backReport s backend))
    else if !(backHeld s backend).isEmpty then (s, fails stState)
    else if (backOf s backend).state = 3 then (s, okWith (backReport s backend))
    else
      let s := (setBack backend 3 (connsFree backend s)).emit (.disconnect backend)
      (s, okWith (backReport s backend)))

def execVolReconcileState (x : XCall) (handle : Nat) : State → Host.Outcome State Fault Refusal :=
  run (wfVolReconcileState x handle) (xop x 0x0907 (reads fun _ s =>
    match vol? s handle with
    | none => fails stNotFound
    | some v => okWith [u8 v.state, u32 (s.sto.intents.filter (fun e => e.2.vol = handle && e.2.good)).length, u64 v.copied]))

end Sys2Proof.Machine
end

