-- ==== Sys2Proof/Machine/Cipher.lean ====
section
/-! DEFINITION. The cipher engine's completions, the key store's and the security associations' commands, the cipher alarm's sources, and
the commands over check-value contexts (R286 to R309). -/

namespace Sys2Proof.Machine

/-! ### ESP (R292, R297, R303; RFC 4303, 4106, 4543) -/

/-- The IP header that an ESP header at CUR stands in. -/
def espIp (k : Pkt) (cur : Nat) : Option Hdr := ((k.parse.hdrs.take cur).reverse).find? (fun h => h.code = 5 || h.code = 6)

/-- Where the header before CUR names what follows it. -/
def espNextAt (k : Pkt) (cur : Nat) : Option Nat :=
  match (k.parse.hdrs.take cur).getLast? with
  | some h => if h.code = 5 then some (h.off + 9) else if h.code = 6 then some (h.off + 6) else some h.off
  | none => none

/-- The IP header's length and checksum brought up to date after the packet's length changed. -/
def ipRefresh (h : Hdr) (bs : List Byte) : List Byte :=
  let n := bs.length - h.off
  if h.code = 6 then putAt bs (h.off + 4) (beBytes 2 (n - 40))
  else
    let bs := putAt (putAt bs (h.off + 2) (beBytes 2 n)) (h.off + 10) (beBytes 2 0)
    putAt bs (h.off + 10) (beBytes 2 (65535 - ocSum ((bs.drop h.off).take (at8 bs h.off % 16 * 4))))

/-- The packet with what stands from CUR replaced, and the protocol before it named anew. -/
def espRebuild (k : Pkt) (cur : Nat) (tail : List Byte) (proto : Nat) : List Byte :=
  let bs := k.bytes.take (curOff k cur) ++ tail
  let bs := match espNextAt k cur, espIp k cur with
    | some i, some _ => putAt bs i (beBytes 1 proto)
    | _, _ => bs
  match espIp k cur with
  | some h => ipRefresh h bs
  | none => bs

/-- The SA gives integrity alone (NULL encryption with GMAC). -/
def espGmac (a : Sa) : Bool := 2 ≤ a.suite

/-- What the integrity covers ahead of the payload. -/
def espAad (a : Sa) (spi q : Nat) : List Byte := beBytes 4 spi ++ (if a.long then beBytes 8 q else beBytes 4 q)

/-- The ESP header, IV, protected payload and ICV of a payload. -/
def espSeal (a : Sa) (key : List Byte) (q : Nat) (iv pay : List Byte) (proto : Nat) : List Byte :=
  let pad := (4 - (pay.length + 2) % 4) % 4
  let pt := pay ++ (List.range pad).map (fun i => BitVec.ofNat 8 (i + 1)) ++ beBytes 1 pad ++ beBytes 1 proto
  let nonce := beBytes 4 a.salt ++ iv
  let aad := espAad a a.spi q
  beBytes 4 a.spi ++ beBytes 4 (q % 2 ^ 32) ++ iv ++
    (if espGmac a then pt ++ fit 16 (cipherRun 1 key nonce (aad ++ iv ++ pt) [])
     else fit (pt.length + 16) (cipherRun 1 key nonce aad pt))

/-- The payload of an ESP packet and the protocol of what it holds, when its integrity holds. -/
def espOpen (a : Sa) (key : List Byte) (q : Nat) (esp : List Byte) : Option (List Byte × Nat) :=
  let iv := (esp.drop 8).take 8
  let body := esp.drop 16
  let n := body.length - 16
  let nonce := beBytes 4 a.salt ++ iv
  let aad := espAad a (atBe esp 0 4) q
  let good := if espGmac a then cipherOk 2 key nonce (aad ++ iv ++ body.take n) [] (body.drop n)
    else cipherOk 2 key nonce aad (body.take n) (body.drop n)
  let pt := if espGmac a then body.take n else fit n (cipherRun 2 key nonce aad (body.take n))
  let cut := at8 pt (n - 2) + 2
  if good && cut ≤ n then some (pt.take (n - cut), at8 pt (n - 1)) else none

/-- A pipeline's request is carried out: its status and the packet's bytes (R297, R302, R304). -/
def espRun (r : CipherReq) (k : Pkt) (s : State) : Nat × List Byte × State :=
  let n := r.sa.getD 0
  let a := saOf s n
  let key := r.key
  let tail := k.bytes.drop (curOff k r.cur)
  if r.op = 2 then
    let (iv, s) := s.drawBelow (2 ^ 64)
    let (f, s) := s.drawBelow 256
    let proto := match espNextAt k r.cur, espIp k r.cur with
      | some i, some _ => at8 k.bytes i
      | _, _ => f
    (0, espRebuild k r.cur (espSeal a key r.seq (beBytes 8 iv) tail proto) 50, s)
  else if tail.length < 34 then (10, k.bytes, s)
  else
    let q := fullSeq a (atBe tail 4 4)
    if !saFresh a q then (6, k.bytes, s)
    else match espOpen a key q tail with
      | none => (1, k.bytes, s)
      | some (pay, proto) => (0, espRebuild k r.cur pay proto, saAccept n q s)

/-- A pipeline's request has ended (R295, R297). -/
def pipeDone (r : CipherReq) (pipe id st : Nat) (s : State) : State :=
  match ctxOp s pipe id 3 with
  | some (c, .cipher n) =>
    if n ≠ r.id then s
    else
      let (st, bs, s) := if st = 0 then espRun r c.pkt s else (st, c.pkt.bytes, s)
      let s := match r.sa with
        | some n => if st = 0 then s else saDrop n st s
        | none => s
      let s := if st = 0 then s.meterAdd r.tenant 68 r.len else s
      let c := { c with ops := c.ops.filter (·.kind ≠ 3), cry := some st, pkt := { c.pkt with bytes := bs } }
      if st = 8 || (st ≠ 0 && c.espRoutine) then
        let s := s.bump .engineBusy pipe 0 (b2n (st = 7))
        dropPkt c.pkt 9 (meterIn c.pkt.tenant c.pkt.cls c.pkt.rxLen (endCtx pipe id (flushOps c s)))
      else putCtx pipe c s
  | _ => s

/-! ### Requests of threads (R296, R297, R322) -/

/-- The TYPE of a slot is one that an operation takes (R292, R298). -/
def opTakes (op type : Nat) : Bool :=
  match op with
  | 3 | 4 => type = 3 || type = 4
  | 10 | 11 => type = 5
  | _ => type = 1 || type = 2 || type = 6

/-- The output and the tag of a request whose integrity, where it has one, holds; under a key of another TYPE both are free values. -/
def threadOut (b type : Nat) (key src tag : List Byte) : Option (List Byte × List Byte) :=
  let aad := src.take (cqAadLen b)
  let data := src.drop (cqAadLen b)
  let fits := opTakes (cqOp b) type
  let good := if fits then cipherOk (cqOp b) key (cqIv b) aad data tag else Config.misusedOk (cqOp b) key (cqIv b) aad (data ++ tag)
  let checks : Bool := [2, 7, 9, 11].contains (cqOp b)
  if checks && !good then none
  else
    let o := fit (cqOut b + cqTagOut b)
      (if fits then cipherRun (cqOp b) key (cqIv b) aad data else Config.misused (cqOp b) key (cqIv b) aad (data ++ tag))
    some (o.take (cqOut b), o.drop (cqOut b))

/-- A thread's request has ended: its output, and its completion on the channel where a place was kept for it. One whose partition has
been stopped is discarded (R342). -/
def threadDone (r : CipherReq) (tid ch st : Nat) (s : State) : State :=
  let p := partOfThread s tid
  if 1024 ≤ tid || p = 0 then s
  else
    let b := r.body
    let zero (s : State) : State := partWr p (cqDst b) (List.replicate (cqOut b) 0) s
    let (st, s) := match st with
      | 0 =>
        match threadOut b r.keyType r.key (partRd s p (cqSrc b) (cqAadLen b + cqLen b)) (partRd s p (cqTagAddr b) (cqTagIn b)) with
        | some (o, t) => (0, partWr p (cqTagAddr b) t (partWr p (cqDst b) o s))
        | none => (1, zero s)
      | 3 => (3, if cqOk ((part? s p).getD {}) b then zero s else s)
      | n => (n, s)
    let (n, s) := if st = 0 then (cqLen b, s) else s.drawBelow (2 ^ 64)
    let s := if st = 0 then s.meterAdd r.tenant 68 (cqLen b) else s
    let m : Msg := { words := [cqCookie b + st * 2 ^ 32, n], kind := 2 }
    s.modChan ch (fun c => { c with reserved := c.reserved - 1, msgs := c.msgs ++ [m] })

/-! ### The end of a request (R295, R297) -/

/-- What ends a request now: its status decided, or its unit's answer. -/
def reqEnd (r : CipherReq) (hwFault : Bool) : Option Nat :=
  match r.status, r.unit with
  | some st, _ => some st
  | none, some _ => some (if hwFault then 8 else 0)
  | none, none => none

/-- A request leaves the engine with its status. -/
def reqFinish (r : CipherReq) (st : Nat) (bad : Option Nat) (s : State) : State :=
  let s := cipherTake r.id s
  match r.dst with
  | .pipeline p c => pipeDone r p c st s
  | .mover seq => moverDone r seq st bad s
  | .thread t ch => threadDone r t ch st s
  | .control _ => s

/-- A request does not end yet: its unit holds no credits or is held (R34), or its stream's context is frozen (R289). -/
def reqPaused (s : State) (r : CipherReq) : Bool :=
  (r.status.isNone && match r.unit with
    | some u => !elasticOn s (unitConsumer r.iterated u)
    | none => false) || match r.dst with
    | .mover seq => moverHeld s seq
    | _ => false

/-- A unit that holds a request faults: it is contained, and every request that it holds ends HW_FAULT (R297, R424). -/
def unitFaults (r : CipherReq) (s : State) : State :=
  match r.status, r.unit with
  | none, some u =>
    let (d, s) := s.draw
    domFault (if r.iterated then .iru u else .aes u) 1 d s
  | _, _ => s

/-- A request of the cipher engine completes. -/
def reqComplete (req : Nat) (hwFault : Bool) (pcwBad : Option Nat) (s : State) : State :=
  match s.cip.reqs.find? (·.id = req) with
  | none => s
  | some r => match reqEnd r hwFault with
    | none => s
    | some st => if !hwFault && reqPaused s r then s else reqFinish r st pcwBad (if hwFault then unitFaults r s else s)

/-- The pipelines' packets that can end by what has happened do; `ok` is whether what they punt matches its Path Check Words. -/
def settleAll (ok : Bool) (f : State → State) (s : State) : State := (List.range 9).foldl (fun s p => engineTurn ⟨p, ok⟩ id s) (f s)

def execCipherRequestComplete (req : Nat) (hwFault : Bool) (pcw : PcwSeen) : State → Host.Outcome State Fault Refusal :=
  run (wfCipherRequestComplete req hwFault pcw) (settleAll pcw.puntOk (reqComplete req hwFault pcw.block))

def execCipherBusyTimeout (turn : ReqTurn) : State → Host.Outcome State Fault Refusal :=
  run (wfCipherBusyTimeout turn) (settleAll turn.puntOk fun s =>
    match s.cip.reqs.find? (·.id = turn.req) with
    | some r => if r.cls = 0 && r.unit.isNone && r.status.isNone then reqFinish r 7 none s else s
    | none => s)

/-- A slot whose tag does not verify: it serves nothing more, it is counted, and a record is made (R298). -/
def slotFails (slot : Nat) (s : State) : State :=
  let s := (s.modKey slot ({ · with bad := true })).bump .keyStoreBad 0 0 1
  s.record 4 0 9 0 (domOf s .keyStore).state.num slot

/-- Requests that wait for a slot end SLOT_EMPTY (R298). -/
def slotWaitersEnd (slot : Nat) (s : State) : State :=
  s.modCip (fun c => { c with reqs := c.reqs.map (fun r => if r.cls ≠ 3 && r.slot = slot && r.waits then { r with status := some 4 } else r) })

/-- A slot that opens enters the cache, expanded on an iterated unit in the control class's turn; one whose tag fails, as it did before or as the
read now finds, is as if empty and leaves a fault record (R294, R298, R299). -/
def execKeyCacheFill (read : SlotRead) : State → Host.Outcome State Fault Refusal :=
  run (wfKeyCacheFill read) fun s =>
    let slot := read.slot
    let wanted := s.cip.reqs.any (fun r => r.cls ≠ 3 && r.slot = slot && r.waits)
    if !wanted || cached s slot || !domServes s .keyStore then s
    else match controlTurn slot 240 s with
      | (false, s) => s
      | (true, s) =>
        let s := if read.tagOk && slotOpens s slot then touchCache slot s
          else slotWaitersEnd slot (if (keySlot s slot).type ≠ 0 then slotFails slot s else s)
        pumpCipher s.cip.reqs.length s

/-! ### Key slots (R298 to R301) -/

/-- The function whose grant holds a slot; 0 for none. -/
def keyHolder (s : State) (k : Nat) : Nat :=
  ((s.fns.find? (fun e => e.2.grants.keyFirst ≤ k && k < e.2.grants.keyFirst + e.2.grants.keySlots)).map (·.1)).getD 0

/-- The caller may write the slot: the Owner any, a port manager those granted to its port's functions (R300). -/
def keyInScope (s : State) (c : Call) (k : Nat) : Bool := c.role ≠ 2 || (keyHolder s k ≠ 0 && fidPort (keyHolder s k) = c.port)

/-- Key bytes of a TYPE, and those of its first key (R300). -/
def keyLen (type : Nat) : Nat := [0, 16, 32, 32, 64, 32, 32].getD type 0
def firstKey (type : Nat) (key : List Byte) : List Byte := if type = 3 then key.take 16 else if type = 4 then key.take 32 else key

/-- The USAGE bits that a TYPE can serve: ESP, MACsec, Skink, CMAC and key wrap for AES, migration for AES-256; Skink for XTS-128, and
volume as well for XTS-256; Skink for ChaCha20; import for an import key. -/
def keyUses (type : Nat) : Nat := [0, 0x3B, 0xBB, 0x08, 0x0C, 0x08, 0x40].getD type 0

/-- The material of a `KEY_LOAD` is wrapped. -/
def wrapNamed (w : Nat) : Bool := w ≠ 2 ^ 32 - 1

/-- What is wrong with a `KEY_LOAD`, as DETAIL of BAD_PARAM. -/
def keyLoadBad (slot wrap type usage plen n : Nat) : Option Nat :=
  if 262144 ≤ slot then some 0
  else if wrapNamed wrap && 262144 ≤ wrap then some 4
  else if type = 0 || 6 < type then some 8
  else if plen ≠ 16 + keyLen type + (if wrapNamed wrap then 8 else 0) || n ≠ plen - 16 then some (2 ^ 31 + 8)
  else if usage &&& (255 - keyUses type) ≠ 0 then some 9
  else none

/-- The key that the material holds; none when an unwrap's integrity fails (R300; RFC 5649). -/
def keyMaterial (s : State) (wrap type : Nat) (m : List Byte) : Option (List Byte) :=
  if !wrapNamed wrap then some m
  else
    let k := (keySlot s wrap).key
    if cipherOk 9 k [] [] m [] then some (fit (keyLen type) (cipherRun 9 k [] [] m)) else none

/-- The key check value of a key: the first 8 bytes of AES-CMAC under its first key over 16 bytes of 0x5A; zero for ChaCha20 (R267, R298). -/
def kcvOf (type : Nat) (key : List Byte) : Nat :=
  if type = 5 then 0 else ofLe ((fit 16 (cipherRun 5 (firstKey type key) [] [] (List.replicate 16 0x5A))).take 8)

/-- A slot is written under the present KEK (R298, R309). -/
def keyStore (slot type usage tenant : Nat) (key : List Byte) (s : State) : State :=
  let owner := keyHolder s slot
  let k : KeySlot := { type, kgen := s.cip.kgen, usage, tenant, owner, writeCtr := s.cip.writeCtr + 1, kcv := kcvOf type key, key }
  s.modCip (fun c => { c with slots := mput c.slots slot k, writeCtr := c.writeCtr + 1 })

def execKeyLoad (x : XCall) (slot wrapSlot type usage tenant : Nat) (material : List Byte) : State → Host.Outcome State Fault Refusal :=
  run (wfKeyLoad x slot wrapSlot type usage tenant material) (xop x 0x0A01 fun c s =>
    if !keyInScope s c slot || (c.role = 2 && tenantOf s (keyHolder s slot) ≠ tenant) then (s, fails stDenied)
    else match keyLoadBad slot wrapSlot type usage c.plen material.length with
    | some d => (s, badParam d)
    | none =>
      let w := keySlot s wrapSlot
      if alarmLatched s then (s, fails stKeysErased)
      else if (keySlot s slot).type ≠ 0 then (s, fails stExists)
      else if wrapNamed wrapSlot && !(slotOpens s wrapSlot && w.type = 6 && bit w.usage 6 && w.owner = keyHolder s slot) then
        (s, fails stDenied)
      else match (if wrapNamed wrapSlot then controlTurn (mbxControl c.fid) material.length s else (true, s)) with
        | (false, s) => (s, .hold)
        | (true, s) =>
          let s := if wrapNamed wrapSlot then s.meterAdd 0 68 material.length else s
          match keyMaterial s wrapSlot type material with
          | none => (s, fails stSigFail)
          | some key => (volReopen slot (keyStore slot type usage tenant key s), okWith [u64 (kcvOf type key)]))

/-- An SA or an attached volume names the slot (R301). -/
def keyInUse (s : State) (k : Nat) : Bool :=
  s.cip.sas.any (fun e => e.2.slot = k) || s.sto.vols.any (fun e => e.2.slot = k && volAttached s e.1)

def execKeyErase (x : XCall) (slot : Nat) : State → Host.Outcome State Fault Refusal :=
  run (wfKeyErase x slot) (xop x 0x0A02 fun c s =>
    if !keyInScope s c slot then (s, fails stDenied)
    else if 262144 ≤ slot then (s, badParam 0)
    else if (keySlot s slot).type = 0 then (s, ok)
    else if keyInUse s slot && !bit c.flags 9 then (s, fails stState)
    else
      let s := forceErase slot s
      (s, if (keySlot s slot).erasing then .wait (.keyErase slot) else ok))

/-- The last request that latched the key has finished: the slot is zeroed, unless an `ALARM_CLEAR` has zeroed it since. -/
def execKeyEraseComplete (slot : Nat) : State → Host.Outcome State Fault Refusal :=
  run (wfKeyEraseComplete slot) fun s =>
    let waited := (started s).contains (.keyErase slot)
    if keyLatched s slot || (!(keySlot s slot).erasing && !waited) then s
    else finishWait (· = .keyErase slot) stOk 0 [] (if (keySlot s slot).erasing then keyZeroise slot s else s)

/-! ### Security associations (R55, R56, R302) -/

/-- A suite takes a 128-bit key. -/
def suite128 (suite : Nat) : Bool := suite = 0 || suite = 2

/-- The first field of `SA_CREATE` out of its range, as a payload offset. -/
def saBad (s : State) (c : SaCfg) : Option Nat :=
  if 3 < c.kind then some 0
  else if 3 < c.suite then some 1
  else if 262144 ≤ c.slot then some 4
  else if 2 ^ 31 < c.warn then some 8
  else if c.kind < 2 then
    if c.kind = 1 && (c.window < 64 || 4096 < c.window) then some 20
    else if 1 < c.esn then some 22
    else if c.kind = 0 && 9 ≤ c.home then some 23
    else none
  else if 18 ≤ c.octet || octetMode s c.octet ≠ 0 then some 12
  else if 64 ≤ c.sc then some 13
  else if 4 ≤ c.an then some 14
  else if c.offset ≠ 0 && c.offset ≠ 30 && c.offset ≠ 50 then some 15
  else if 2 < c.validate then some 16
  else if c.pn = 0 || (c.suite < 2 && 2 ^ 32 ≤ c.pn) then some 32
  else if 2 ^ 30 ≤ c.window then some 40
  else none

/-- The number that a new SA takes: an ESP SA the least free of its holder's grant, or of those that no grant holds; a MACsec SA the place of
its octet, direction, SC and AN. -/
def saNumber (s : State) (c : SaCfg) (owner : Nat) : Option Nat :=
  let free (n : Nat) : Bool := (mget? s.cip.sas n).isNone
  if 2 ≤ c.kind then
    let n := 131072 + c.octet * 512 + (c.kind - 2) * 256 + c.sc * 4 + c.an
    if free n then some n else none
  else if owner ≠ 0 then
    let g := grantsOf s owner
    (leastBelow g.sa (fun i => free (g.saFirst + i))).map (· + g.saFirst)
  else
    leastBelow 131072 (fun n => free n && !s.fns.any (fun e => e.2.grants.saFirst ≤ n && n < e.2.grants.saFirst + e.2.grants.sa))

/-- The SA that a `SA_CREATE` makes. The salt of an XPN suite is not in the request: it is a free value. -/
def saMake (c : SaCfg) (owner salt ssci : Nat) (key : List Byte) : Sa :=
  let sec := 2 ≤ c.kind
  { kind := c.kind, suite := c.suite, tenant := c.tenant, slot := c.slot, owner, warn := c.warn, spi := c.spi
    salt := if sec then salt else c.salt
    ssci := if sec then ssci else 0
    keyReg := if sec then key else []
    window := c.window
    long := if sec then decide (2 ≤ c.suite) else decide (c.esn = 1)
    home := c.home, octet := c.octet, sc := c.sc, an := c.an, offset := c.offset, validate := c.validate, sci := c.sci
    next := if sec then c.pn else 1
    highest := if sec then c.pn - 1 else 0 }

/-- What the installation of a MACsec key comes to. -/
inductive KeyIn
  | there | bad | waits
  deriving DecidableEq, Repr

/-- A MACsec unit takes a key from the cache, which is filled on a miss in the control class's turn; it is elastic work of the octet (R34, R56,
R299). -/
def secKeyIn (octet k slot : Nat) (s : State) : KeyIn × State :=
  if !elasticOn s (.macsec octet) || !domServes s .keyStore then (.waits, s)
  else if cached s slot then (.there, touchCache slot s)
  else match controlTurn k 240 s with
    | (false, s) => (.waits, s)
    | (true, s) => if slotOpens s slot then (.there, touchCache slot s) else (.bad, s)

def execSaCreate (x : XCall) (c : SaCfg) : State → Host.Outcome State Fault Refusal :=
  run (wfSaCreate x c) (xop x 0x0A03 fun call s =>
    if call.role = 2 && (2 ≤ c.kind || !keyInScope s call c.slot) then (s, fails stDenied)
    else match saBad s c with
    | some o => (s, badParam o)
    | none =>
      let k := keySlot s c.slot
      if alarmLatched s then (s, fails stKeysErased)
      else if k.type = 0 || k.erasing || !bit k.usage (if c.kind < 2 then 0 else 1) || k.tenant ≠ c.tenant then (s, fails stDenied)
      else if (k.type = 1) ≠ suite128 c.suite then (s, badParam 1)
      else match saNumber s c k.owner with
        | none => (s, fails (if c.kind < 2 then stNoResource else stExists))
        | some n =>
          match (if 2 ≤ c.kind then secKeyIn c.octet (mbxControl call.fid) c.slot s else (.there, s)) with
          | (.waits, s) => (s, .hold)
          | (.bad, s) => (slotFails c.slot s, fails stState)
          | (.there, s) =>
          let (salt, s) := s.drawBelow (2 ^ 96)
          let (ssci, s) := s.drawBelow (2 ^ 32)
          let s := s.modCip (fun z => { z with
            sas := mput z.sas n (saMake c k.owner salt ssci k.key)
            macsecOn := if 2 ≤ c.kind then mput z.macsecOn c.octet () else z.macsecOn })
          (s, okWith [u32 n]))

/-- What `SA_STATE` answers: state, next number, highest number, drops by cause, 1 to 11 (R297, R302). -/
def saReport (s : State) (n : Nat) : List Fld :=
  let a := saOf s n
  [u8 a.state, u64 a.next, u64 a.highest] ++ (List.range 11).map (fun i => u64 (mgetD s.cip.saDrops (n * 16 + i + 1) 0))

def execSaState (x : XCall) (sa : Nat) : State → Host.Outcome State Fault Refusal :=
  run (wfSaState x sa) (xop x 0x0A04 fun c s =>
    let a := saOf s sa
    if (mget? s.cip.sas sa).isNone || (c.role = 2 && (a.owner = 0 || fidPort a.owner ≠ c.port)) then (s, fails stNotFound)
    else
      let r := saReport s sa
      (if bit c.flags 11 then saDelete (fun n _ => n = sa) s else s, okWith r))

/-! ### The cipher alarm (R306 to R308, R473) -/

/-- The key store is powered and out of reset. -/
def keyStoreUp (s : State) : Bool := s.phase ≠ .inReset

def execAlarmNAssert (ns : Nat) (stillLow : Bool) : State → Host.Outcome State Fault Refusal :=
  run (wfAlarmNAssert ns stillLow) fun s =>
    if !pinsIn s then s
    else
      let s := { s with pins := { s.pins with alarmLow := stillLow } }
      if 100 ≤ ns && keyStoreUp s then cipherAlarm 4 s else s

def execSupplyGlitch (rail : GuardedRail) (permille ns : Nat) : State → Host.Outcome State Fault Refusal :=
  run (wfSupplyGlitch rail permille ns) fun s => if 120 < permille && 5 ≤ ns && keyStoreUp s then cipherAlarm 0 s else s

/-- A sensor takes a reading, in kelvin: 388 is 115 °C and 398 is 125 °C. SMART's temperature warning follows the hottest. -/
def execTjThresholdCross (sensor tj : Nat) : State → Host.Outcome State Fault Refusal :=
  run (wfTjThresholdCross sensor tj) fun s =>
    let was := hottest s
    let s := { s with pins := { s.pins with tj := mput s.pins.tj sensor tj, thermtrip := s.pins.thermtrip || 398 ≤ tj } }
    let now := hottest s
    let s := if 388 ≤ tj && keyStoreUp s then cipherAlarm 1 s else s
    (s.sto.ctrls.map (·.1)).foldl (fun s f =>
      let t := (ctrlOf s f).feats
      if (t.tempOver ≤ now && was < t.tempOver) || (now ≤ t.tempUnder && t.tempUnder < was) then asyncEvent f 1 1 2 s else s) s

def execAlarmState (x : XCall) : State → Host.Outcome State Fault Refusal :=
  run (wfAlarmState x) (xop x 0x0A05 (reads fun _ s =>
    okWith ([u8 s.cip.sources, u64 (s.count .alarms 0 0)] ++ (List.range 5).map (fun i => u64 (mgetD s.cip.times i 0)))))

/-- Every slot is emptied, so every volume fails its check value (R267, R308); a request that has started goes on with its key (R301). -/
def execAlarmClear (x : XCall) : State → Host.Outcome State Fault Refusal :=
  run (wfAlarmClear x) (xop x 0x0A06 fun _ s =>
    if !(sourcesHeld s).isEmpty then (s, fails stState)
    else
      let (k, s) := s.draw
      let s := s.modCip (fun c => { c with
        slots := [], kek := some k, oldKek := none, kgen := 0, walking := false, cache := []
        sas := c.sas.filter (fun e => e.2.state ≠ 4)
        sources := 0, times := [] })
      let s := lockVolumes (fun _ => true) s
      (pumpCipher s.cip.reqs.length s, ok))

/-! ### KEK rotation (R309) -/

def execKekRotate (x : XCall) : State → Host.Outcome State Fault Refusal :=
  run (wfKekRotate x) (xop x 0x0A07 fun c s =>
    let answer (s : State) : Reply := okWith [u8 (b2n s.cip.walking), u32 s.cip.resealed]
    if bit c.flags 10 then (s, answer s)
    else if alarmLatched s then (s, fails stKeysErased)
    else if s.cip.walking then (s, fails stBusy)
    else
      let (k, s) := s.draw
      let s := s.modCip (fun c => { c with oldKek := c.kek, kek := some k, kgen := 1 - c.kgen, walking := true, resealed := 0 })
      (s, answer s))

/-- The walker has passed every slot: each that the old KEK sealed, and that opens, is sealed anew, with a counter value of its own. -/
def execKekRotationDone : State → Host.Outcome State Fault Refusal :=
  run wfKekRotationDone fun s =>
    if !s.cip.walking || !domServes s .keyStore then s
    else
    let old := s.cip.slots.filter (fun e => e.2.type ≠ 0 && !e.2.bad && e.2.kgen ≠ s.cip.kgen)
    match (if old.isEmpty then (true, s) else controlTurn 262144 (128 * old.length) s) with
    | (false, s) => s
    | (true, s) =>
      let s := old.foldl (fun s e => s.modCip (fun c => { c with
        writeCtr := c.writeCtr + 1
        slots := mput c.slots e.1 { e.2 with kgen := c.kgen, writeCtr := c.writeCtr + 1 } })) s
      (s.modCip (fun c => { c with oldKek := none, walking := false, resealed := old.length })).event 0x0A04 (.dev s.cip.kgen) old.length

/-! ### Check-value contexts by command (R286, R288, R289) -/

/-- The index names a context. -/
def ckvIndexOk (i : Nat) : Bool := i < 262144 + 2048

/-- The caller may name the context: a port manager only one whose OWNER is a function of its port. -/
def ckvInScope (s : State) (c : Call) (i : Nat) : Bool :=
  let o := ckvOwner (ckvOf s i)
  c.role ≠ 2 || (o ≠ 0 && fidPort o = c.port)

/-- What keeps a context from being written: DENIED for another tenant, STATE while its stream runs. -/
def ckvWriteBad (s : State) (i v : Nat) : Option Nat :=
  if ckvTenant v ≠ ckvTenant (ckvOf s i) then some stDenied else if !ckvFrozen (ckvOf s i) then some stState else none

/-- The context with its RW fields written. A stream put at the start of a PDU has seen none of its header. -/
def ckvWrite (i v : Nat) (s : State) : State :=
  let x := ckvOf s i
  let x := [(0, 4), (5, 1), (8, 4), (64, 64), (128, 32), (160, 32), (192, 32)].foldl (fun x f => setBits x f.1 f.2 (bits v f.1 f.2)) x
  let s := s.setCkv i x
  if ckvStage v ≤ 1 then s.modCip (fun c => { c with ckvPart := mdel c.ckvPart i }) else s

def execCkvCtxRead (x : XCall) (index : Nat) : State → Host.Outcome State Fault Refusal :=
  run (wfCkvCtxRead x index) (xop x 0x1201 (reads fun c s =>
    if !ckvInScope s c index then fails stNotFound
    else if !ckvIndexOk index then badParam 0
    else okWith [.arr (leBytes 32 (ckvOf s index))]))

def execCkvCtxWrite (x : XCall) (index : Nat) (context : BitVec 256) : State → Host.Outcome State Fault Refusal :=
  run (wfCkvCtxWrite x index context) (xop x 0x1202 fun c s =>
    let v := context.toNat
    if !ckvInScope s c index then (s, fails stDenied)
    else if !ckvIndexOk index then (s, badParam 0)
    else if 3 < ckvAlg v || 6 < ckvStage v then (s, badParam 8)
    else match ckvWriteBad s index v with
      | some st => (s, fails st)
      | none => (ckvWrite index v s, ok))

end Sys2Proof.Machine
end

