-- ==== Sys2Proof/Machine/HostTx.lean ====
section
/-! DEFINITION. Transmission from a host: descriptors, the checks of a packet, checksum insertion, segmentation, and the way to the
ingress pipeline (R103 to R105). -/

namespace Sys2Proof.Machine

/-! ### Descriptors (R103) -/

def txLen (d : Nat) : Nat := bits d 64 16
def txEop (d : Nat) : Bool := bit d 80
def txCsumL3 (d : Nat) : Bool := bit d 81
def txCsumL4 (d : Nat) : Bool := bit d 82
def txTso (d : Nat) : Bool := bit d 83
def txVlanIns (d : Nat) : Bool := bit d 84
def txTsReq (d : Nat) : Bool := bit d 85
def txOcsum (d : Nat) : Bool := bit d 86
def txTun (d : Nat) : Nat := bits d 88 2
def txL4 (d : Nat) : Nat := bits d 90 2
def txV6 (d : Nat) : Bool := bit d 92
def txTci (d : Nat) : Nat := bits d 96 16
def txMss (d : Nat) : Nat := bits d 112 14
def txOl (d : Nat) : Nat := bits d 128 9
def txL2Len (d : Nat) : Nat := bits d 137 7
def txL3Len (d : Nat) : Nat := bits d 144 9
def txL4Len (d : Nat) : Nat := bits d 153 7
def txCookie (d : Nat) : Nat := bits d 160 32

/-- Offsets of the innermost IP and L4 headers, and of the payload. -/
def txL3At (d : Nat) : Nat := txOl d + txL2Len d
def txL4At (d : Nat) : Nat := txL3At d + txL3Len d
def txHdrs (d : Nat) : Nat := txL4At d + txL4Len d

/-- The packet completes FORMAT (R104). -/
def txFormat (d count total : Nat) : Bool :=
  16 < count
    || (!txTso d && (total < 14 || 9596 < total))
    || (txTso d && (262143 < total || txMss d < 64 || 9596 < txHdrs d + txMss d))
    || 512 < txHdrs d || total < txHdrs d
    || (txTun d ≠ 0 && txOl d = 0)
    || ((txCsumL4 d || txTso d) && 2 ≤ txL4 d)

/-- Bytes that a packet's descriptors give. -/
def txTotal (ds : List Nat) : Nat := (ds.map txLen).foldl (· + ·) 0

/-- The descriptors taken together complete FORMAT (R104). -/
def txBad (ds : List Nat) : Bool := txFormat (ds.headD 0) ds.length (txTotal ds) || !txEop (ds.getLastD 0)

/-! ### Checksums and segments (R105) -/

def put16 (bs : List Byte) (i v : Nat) : List Byte := putAt bs i (beBytes 2 (v % 65536))

/-- The IPv4 header checksum at `o`, over a header of `n` bytes. -/
def sumL3 (bs : List Byte) (o n : Nat) : List Byte :=
  let bs := put16 bs (o + 10) 0
  put16 bs (o + 10) (65535 - ocSum ((bs.drop o).take n))

/-- The TCP or UDP checksum of a segment at `l4`, with the pseudo-header of the IP header at `l3`. The segment ends where the IP length
says, and with the frame where that length ends before it (log entry 92). -/
def sumL4 (bs : List Byte) (v6 udp : Bool) (l3 l4 : Nat) : List Byte :=
  let pos := l4 + if udp then 6 else 16
  let bs := put16 bs pos 0
  let addrs := if v6 then (bs.drop (l3 + 8)).take 32 else (bs.drop (l3 + 12)).take 8
  let stop := if v6 then l3 + 40 + atBe bs (l3 + 4) 2 else l3 + atBe bs (l3 + 2) 2
  let seg := (bs.take (if l4 ≤ stop then stop else bs.length)).drop l4
  let c := 65535 - oc16 (ocSum (addrs ++ beBytes 2 (if udp then 17 else 6) ++ beBytes 2 seg.length)) (ocSum seg)
  put16 bs pos (if udp && c = 0 then 65535 else c)

/-- Offset past the source MAC and the outer tags. -/
def tagEnd (bs : List Byte) : Nat → Nat → Nat
  | 0, o => o
  | fuel + 1, o => if atBe bs o 2 = 0x8100 || atBe bs o 2 = 0x88A8 then tagEnd bs fuel (o + 4) else o

/-- The outer IP header of a tunnelled packet, and its UDP header when one follows. -/
structure Outer where
  /-- W1 R105: IPv6. -/
  v6 : Bool
  /-- W9 R105: offset of the IP header. -/
  ip : Nat
  /-- W9 R105: offset past the IP header and its extension headers. -/
  stop : Nat
  /-- W1 R105: a UDP header stands there. -/
  udp : Bool
  deriving DecidableEq, Repr

/-- Passes IPv6 extension headers: the last next-header value and the offset it stands for. -/
def passExt (bs : List Byte) : Nat → Nat → Nat → Nat × Nat
  | 0, next, o => (next, o)
  | fuel + 1, next, o =>
    if next = 0 || next = 43 || next = 60 then passExt bs fuel (at8 bs o) (o + (at8 bs (o + 1) + 1) * 8)
    else if next = 44 then passExt bs fuel (at8 bs o) (o + 8)
    else if next = 51 then passExt bs fuel (at8 bs o) (o + (at8 bs (o + 1) + 2) * 4)
    else (next, o)

/-- The outer headers of a tunnelled packet: R103 gives their extent alone, and the model finds the IP header by its EtherType after the outer
tags, and UDP by the protocol, within OL_LEN (log entry 92, DESIGN CHOICE). -/
def outerOf (d : Nat) (bs : List Byte) : Option Outer :=
  let at_ := tagEnd bs 128 12
  let ip := at_ + 2
  let (v6, next, stop) :=
    if atBe bs at_ 2 = 0x86DD then
      let (n, o) := passExt bs 64 (at8 bs (ip + 6)) (ip + 40)
      (true, n, o)
    else (false, at8 bs (ip + 9), ip + at8 bs ip % 16 * 4)
  if (atBe bs at_ 2 = 0x86DD || atBe bs at_ 2 = 0x0800) && stop ≤ txOl d then
    some { v6, ip, stop, udp := next = 17 && stop + 8 ≤ txOl d }
  else none

/-- The length field of an IP header at `o`, for a packet that ends with the bytes. -/
def putIpLen (v6 : Bool) (o : Nat) (bs : List Byte) : List Byte :=
  if v6 then put16 bs (o + 4) (bs.length - o - 40) else put16 bs (o + 2) (bs.length - o)

/-- The outer checksums, when the descriptor asks for them. -/
def sumOuter (d : Nat) (bs : List Byte) : List Byte :=
  match outerOf d bs with
  | some o =>
    if !txOcsum d then bs
    else
      let bs := if o.udp then sumL4 bs o.v6 true o.ip o.stop else bs
      if o.v6 then bs else sumL3 bs o.ip (o.stop - o.ip)
  | none => bs

/-- The checksums of a packet that is not segmented. -/
def txSums (d : Nat) (bs : List Byte) : List Byte :=
  let bs := if txCsumL4 d then sumL4 bs (txV6 d) (txL4 d = 1) (txL3At d) (txL4At d) else bs
  let bs := if txCsumL3 d && !txV6 d then sumL3 bs (txL3At d) (txL3Len d) else bs
  if txTun d ≠ 0 then sumOuter d bs else bs

/-- The TCP header of segment `i` of `n`. -/
def segTcp (d i n : Nat) (bs : List Byte) : List Byte :=
  let o := txL4At d
  let bs := putAt bs (o + 4) (beBytes 4 ((atBe bs (o + 4) 4 + i * txMss d) % 2 ^ 32))
  let f := at8 bs (o + 13)
  let f := if i + 1 = n then f else f &&& 0xF6
  let f := if i = 0 then f else f &&& 0x7F
  putAt bs (o + 13) (beBytes 1 f)

/-- The outer headers of segment `i`: identification, lengths, and a UDP checksum of zero unless it is to be computed. -/
def segOuter (d i : Nat) (bs : List Byte) : List Byte :=
  match outerOf d bs with
  | some o =>
    let bs := if o.v6 then bs else put16 bs (o.ip + 4) (atBe bs (o.ip + 4) 2 + i)
    let bs := putIpLen o.v6 o.ip bs
    if o.udp then
      let bs := put16 bs (o.stop + 4) (bs.length - o.stop)
      if txOcsum d then bs else put16 bs (o.stop + 6) 0
    else bs
  | none => bs

/-- Segment `i` of `n`. -/
def txSegment (d : Nat) (bs : List Byte) (n i : Nat) : List Byte :=
  let h := txHdrs d
  let b := bs.take h ++ ((bs.drop (h + i * txMss d)).take (txMss d))
  let b := if txTun d ≠ 0 then segOuter d i b else b
  let b := if txV6 d then b else put16 b (txL3At d + 4) (atBe b (txL3At d + 4) 2 + i)
  let b := putIpLen (txV6 d) (txL3At d) b
  let b := if txL4 d = 1 then put16 b (txL4At d + 4) (b.length - txL4At d) else segTcp d i n b
  txSums (setBits (setBits d 81 1 1) 82 1 1) b

/-- The 802.1Q tag that a descriptor asks for. -/
def txVlan (d : Nat) (bs : List Byte) : List Byte :=
  if txVlanIns d then bs.take 12 ++ beBytes 2 0x8100 ++ beBytes 2 (txTci d) ++ bs.drop 12 else bs

/-- The packets that a transmitted packet becomes. -/
def txSegments (d : Nat) (bs : List Byte) : List (List Byte) :=
  if txTso d then
    let n := cdiv (bs.length - txHdrs d) (txMss d)
    (List.range n).map (fun i => txVlan d (txSegment d bs n i))
  else [txVlan d (txSums d bs)]

/-! ### Sending (R9, R104, R108) -/

/-- A packet's descriptors are whole: it is recorded on the ring, and its segments go to the port's pipeline, or it completes FORMAT, with
no byte read (R104) and SEGS as log entry 92 says. -/
def txSend (fid ring : Nat) (ds : List Nat) (bs : List Byte) (s : State) : State :=
  let x := ringOf s fid ring
  let d := ds.headD 0
  let total := txTotal ds
  let bad := txBad ds
  let segs := if bad then [] else txSegments d bs
  let serial := s.pkt.nextTx
  let p : TxPkt := { serial, last := sub32 x.ci 1, ndesc := ds.length, cookie := txCookie d, len := if bad then 0 else total
                     segs := if bad then b2n (!txTso d) else segs.length, tsReq := txTsReq d, open_ := segs.length
                     fixed := if bad then some 3 else none }
  let s := s.modRing fid ring (fun x => { x with tx := x.tx ++ [p], partialDescs := [] })
  let s := s.modPkt ({ · with nextTx := serial + 1 })
  let port := fidPort fid
  let s := segs.foldl (fun s b => toIngress { bytes := b, src := .host fid ring serial, inPort := 144 + port, fid
                                              tenant := tenantOf s fid, pipe := pipeOfHost port, rxLen := b.length } s) s
  kick fid ring (txFlush fid ring s)

/-- Descriptors of the packet at hand among those read: up to the first EOP, 16 at most (R104). -/
def packetCount (ds : List Nat) : Nat := match ds.findIdx? txEop with
  | some j => min (j + 1) 16
  | none => min ds.length 16

/-- The descriptors read form a whole packet. -/
def packetWhole (ds : List Nat) : Bool := ds.length ≥ 16 || ds.any txEop

/-- Descriptors that return to a DRAINING ring, whose data is discarded: every whole packet among them completes ABORTED, and the rest form
none (R114 steps 3 and 4). `ci` is the index after those of `ds` before the fuel's packet. -/
def abortPackets : Nat → Nat → List Nat → List TxPkt × List Nat
  | 0, _, ds => ([], ds)
  | fuel + 1, ci, ds =>
    if !packetWhole ds then ([], ds)
    else
      let n := packetCount ds
      let d := ds.headD 0
      let (ps, rest) := abortPackets fuel (add32 ci n) (ds.drop n)
      ({ last := sub32 (add32 ci n) 1, ndesc := n, cookie := txCookie d, segs := b2n (!txTso d), fixed := some 4 } :: ps, rest)

/-- The ring shuts down with these descriptors in its hands. -/
def abortRead (fid ring : Nat) (descs : List Nat) (s : State) : State :=
  let x := ringOf s fid ring
  let all := x.partialDescs ++ descs
  let (ps, rest) := abortPackets all.length (sub32 x.ci x.partialDescs.length) all
  drainRing fid ring (s.modRing fid ring ({ · with
    tx := x.tx ++ ps, partialDescs := rest, ci := add32 x.ci descs.length }))

/-- The data of a packet's descriptors is read at their addresses (R103). -/
def readData (fid : Nat) (ds : List Nat) (s : State) : State :=
  ds.foldl (fun s d => s.hostRdNow fid (bits d 0 64) (txLen d)) s

/-- The read of a ring's descriptors and data returns (R97, R99, R104, R114). A packet that completes FORMAT is not read, and one whose data
read finds no tag waits (R81, R104). A data read whose two compositions differ is not issued, and
fences the ring (R80). -/
def hostTx (fid ring : Nat) (descs : List Nat) (data : List Byte) (composed : Bool) (s : State) : State :=
  let x := ringOf s fid ring
  let mine (r : Read) : Bool := r.fid = fid && r.purpose = .desc ring
  let all := x.partialDescs ++ descs
  let whole := packetWhole all
  let ds := all.take (packetCount all)
  let bad := txBad ds
  let used := ds.length - x.partialDescs.length
  let asked := ((s.reads.filter (fun r => mine r && !r.dead)).map (·.len)).foldl (· + ·) 0
  if !liveRead s mine || !readsOut s mine || asked < 32 * descs.length || x.type ≠ 0 then s
  else if !composed && (x.state = 1 || x.state = 2) then (fenceRing fid ring 2 (s.endReads mine)).composeFault fid
  else if x.state = 2 then abortRead fid ring descs (s.endReads mine)
  else if x.state ≠ 1 || (whole && !bad && (data.length ≠ txTotal ds || !tagRoom (s.endReads mine) fid)) then s
  else
    let s := s.endReads mine
    if whole then txSend fid ring ds data ((if bad then s else readData fid ds s).modRing fid ring ({ · with ci := add32 x.ci used }))
    else kick fid ring (s.modRing fid ring ({ · with ci := add32 x.ci descs.length, partialDescs := all }))

def execHostTxPacket (fid ring : Nat) (descs : List (BitVec 256)) (data : List Byte) (composed : Bool) :
    State → Host.Outcome State Fault Refusal :=
  run (wfHostTxPacket fid ring descs data composed) (hostTx fid ring (descs.map (·.toNat)) data composed)

end Sys2Proof.Machine
end

