-- ==== Sys2Proof/Machine/Egress.lean ====
section
/-! DEFINITION. The egress side: the scheduling hierarchy, packets dropped at queue heads, frames sent by an Ethernet port, packets
delivered to a function's receive rings, and queue telemetry (R51, R57, R106 to R112, R164, R208, R209, R212 to R218, R283, R284). -/

namespace Sys2Proof.Machine

/-! ### Packets dropped at the head (R45, R53, R62, R114, R216) -/

/-- The egress port of an L0 node is down (R62). -/
def egressDown (s : State) (l0 : Nat) : Bool :=
  if l0 < 144 then ((mget? s.ports l0).map (·.state)) ≠ some 2 else !(hostPort s (l0 - 144)).linkUp

/-- The fence of the port's pipeline is final: nothing regrows in its place (R45, R424). -/
def pipeGone (s : State) (l0 : Nat) : Bool := (domOf s (.pipeline (physOf s 0 (pipeOfPort s l0)))).state = .fenced

/-- The queue node of a copy, under the copy's own Pad (R212). -/
def copyNode (s : State) (q : Nat) (c : Copy) : Nat := nodeRec (padOf s (copyPad s c)) 3 q

/-- A head is late: more than DEADLINE has passed since its stamp (R216). -/
def copyLate (s : State) (q : Nat) (c : Copy) : Bool :=
  let t := nodeDeadline (copyNode s q c)
  0 < t && t < s.tick - c.at_

/-- The priority that stops the queue is in a pause storm on the port (R53). -/
def inStorm (s : State) (l0 q : Nat) (c : Copy) : Bool :=
  match mget? s.ports l0 with
  | some p => bit p.storm (nodePfc (copyNode s q c))
  | none => false

/-- Why a head goes without being sent, the first cause that finds it: 4 deadline, 6 port down, 8 final fence, 10 pause storm; a
marked copy goes with 0, and is counted as marked (R114). -/
def doomOf (s : State) (l0 q : Nat) (c : Copy) : Option Nat :=
  if c.marked then some 0
  else if copyLate s q c then some 4
  else if egressDown s l0 then some 6
  else if pipeGone s l0 then some 8
  else if inStorm s l0 q c then some 10
  else none

/-- Takes the head off a queue. An empty queue keeps no deficit (log entry 31). -/
def popHead (q : Nat) (s : State) : State :=
  match mgetD s.pkt.queues q [] with
  | _ :: r => s.modPkt (fun p => { p with
      queues := if r.isEmpty then mdel p.queues q else mput p.queues q r
      deficit := if r.isEmpty then mdel p.deficit (nodeKey 3 q) else p.deficit })
  | [] => s

/-- Counts what else a head drop is (R38, R53). -/
def noteDoom (s : State) (l0 q : Nat) (c : Copy) (why : Nat) : State :=
  if why = 4 then s.bump .deadlineDrop q 0 1
  else if why = 10 then s.bump .portStormDrop l0 (nodePfc (copyNode s q c)) 1
  else s

/-- The MAX_DELAY of a queue takes in the head's time on it (R219). -/
def noteDelay (q : Nat) (s : State) : State :=
  match (mgetD s.pkt.queues q []).head? with
  | some c => s.modPkt (fun p => { p with maxDelay := mupd p.maxDelay q 0 (max ((s.tick - c.at_) * 1000)) })
  | none => s

/-- Drops doomed heads of a queue until its head is a packet that may be sent. -/
def purgeQueue (q : Nat) : Nat → State → State
  | 0, s => s
  | fuel + 1, s =>
    match (mgetD s.pkt.queues q []).head? with
    | none => s
    | some c =>
      match copyPort s q c with
      | none => s
      | some l0 =>
        match doomOf s l0 q c with
        | some why => purgeQueue q fuel (dropHead q c why (popHead q (noteDoom (noteDelay q s) l0 q c why)))
        | none => s

/-- Every queue whose head leaves by a port, with that head. -/
def headsOf (s : State) (l0 : Nat) : List (Nat × Copy) :=
  s.pkt.queues.filterMap (fun e => match e.2.head? with
    | some c => if copyPort s e.1 c = some l0 then some (e.1, c) else none
    | none => none)

/-- Doomed heads of a port's queues go. -/
def purgePort (l0 : Nat) (s : State) : State :=
  (headsOf s l0).foldl (fun s e => purgeQueue e.1 (mgetD s.pkt.queues e.1 []).length (noteDelay e.1 s)) s

/-! ### Tokens of nodes (R213 to R215) -/

/-- A port's speed in kb/s: what its lanes in force, or its negotiated link, carry (R62, R213). -/
def portKbps (s : State) (l0 : Nat) : Nat :=
  if l0 < 144 then ((mget? s.ports l0).map (fun p => ethGbps p * 1000000)).getD 0 else hostPayload (hostPort s (l0 - 144)) / 1000

/-- A node's rate as it refills: an L0 node never exceeds its port's speed (R62, R213). -/
def nodeRate (s : State) (level i rate : Nat) : Nat := if level = 0 then min rate (portKbps s i) else rate

/-- A node's tokens refilled to now, under the node's record in a Pad. -/
def nodeRefill (s : State) (pad level i : Nat) (t : Tokens) : Tokens :=
  let r := nodeRec (padOf s pad) level i
  let dt := s.tick - t.at_
  { t with
    tc := refill t.tc (nodeRate s level i (nodeCir r)) (nodeCbs r * 8000) dt
    tp := refill t.tp (nodeRate s level i (nodePir r)) (nodePbs r * 8000) dt
    at_ := s.tick }

/-- A node's tokens as a head that carries a Pad finds them: no reset before a packet is charged (R215). -/
def nodeTokens (s : State) (pad level i : Nat) : Tokens :=
  nodeRefill s pad level i (mgetD s.pkt.nodeTok (nodeKey level i) {})

/-- A node may be served as far as its peak rate goes. -/
def peakOk (s : State) (pad level i : Nat) : Bool := nodePir (nodeRec (padOf s pad) level i) = 0 || 0 < (nodeTokens s pad level i).tp

/-- A node is within its commitment. -/
def committed (s : State) (pad level i : Nat) : Bool :=
  0 < nodeCir (nodeRec (padOf s pad) level i) && 0 < (nodeTokens s pad level i).tc

/-- Charges a node with a frame, in tokens, after the reset that its first charge under changed parameters makes (R215). -/
def chargeNode (pad level i : Nat) (size : Nat) (s : State) : State :=
  let r := nodeRec (padOf s pad) level i
  let t := nodeRefill s pad level i (tokensFor (mgetD s.pkt.nodeTok (nodeKey level i) {}) (r / 2 ^ 64) (nodeResetTo r)
    (pad = s.pkt.leap.active) (nodeCbs r * 8000) (nodePbs r * 8000) s.tick)
  let t := { t with tc := t.tc - size * 8000, tp := t.tp - size * 8000 }
  s.modPkt (fun p => { p with nodeTok := mput p.nodeTok (nodeKey level i) t })

/-! ### What a copy carries (R164, R208, R209) -/

/-- The outermost tag is an 802.1Q tag. -/
def has8100 (bs : List Byte) : Bool := 14 ≤ bs.length && atBe bs 12 2 = 0x8100

/-- The tag of a flood member (R208; log entry 24). -/
def applyTag (tag : Nat) (bs : List Byte) : List Byte :=
  if tag = 0 then bs
  else if tag = 1 then (if has8100 bs then bs.take 12 ++ bs.drop 16 else bs)
  else if has8100 bs then putAt bs 14 (beBytes 2 (setBits (atBe bs 14 2) 0 12 (tag - 2)))
  else bs.take 12 ++ beBytes 2 0x8100 ++ beBytes 2 (tag - 2) ++ bs.drop 12

/-- The bytes that a copy brings to a function: its tag and its cut. -/
def hostBytes (c : Copy) (k : Pkt) : List Byte :=
  let bs := applyTag c.tag k.bytes
  if c.trunc = 0 then bs else bs.take c.trunc

/-- The bytes that a copy puts on an Ethernet port: its tag, its spray shim, and its cut. -/
def wireBytes (s : State) (l0 : Nat) (c : Copy) (k : Pkt) : List Byte :=
  let bs := applyTag c.tag k.bytes
  let bs := match c.shim with
    | some v =>
      let o := tagEnd bs 8 12
      bs.take o ++ beBytes 2 (recSpray (parseRec (padOf s k.pad) l0)) ++ beBytes 6 v ++ bs.drop o
    | none => bs
  if c.trunc = 0 then bs else bs.take c.trunc

/-! ### The choice of a queue (R214) -/

/-- A child that a node may serve: the queue and the head that serving it sends, and what its own node says. -/
structure Cand where
  /-- M R214: level × 131,072 + index. -/
  key : Nat
  /-- M R213: PRIO. -/
  prio : Nat
  /-- M R213: WEIGHT. -/
  weight : Nat
  /-- M R214: within its commitment. -/
  committed : Bool
  /-- M R214: frame bytes + OVERHEAD. -/
  bytes : Nat
  /-- M R214: the queue it comes to. -/
  queue : Nat
  /-- M R214: the head. -/
  copy : Copy
  /-- M R214: deficits after the choice beneath it. -/
  deficit : List (Nat × Nat)
  /-- M R214: who is being served, after the choice beneath it. -/
  serving : List (Nat × Nat)

/-- Deficit round robin from the member next in turn. -/
def drr : Nat → List Cand → List (Nat × Nat) → Option (Cand × List (Nat × Nat))
  | 0, _, _ => none
  | _ + 1, [], _ => none
  | fuel + 1, c :: r, d =>
    let v := mgetD d c.key 0 + c.weight * 256
    if c.bytes ≤ v then some (c, mput d c.key v) else drr fuel (r ++ [c]) (mput d c.key v)

/-- The members served first: those within their commitment, else all, and of them the lowest PRIO. -/
def bestSet (cs : List Cand) : List Cand :=
  let l := if cs.any (·.committed) then cs.filter (·.committed) else cs
  let p := (l.map (·.prio)).min?.getD 0
  l.filter (·.prio = p)

/-- A parent's choice among its eligible children: the member being served goes on while its deficit lasts; members take their turns by
rising index (log entry 31). -/
def serve (parent : Nat) (cs : List Cand) (s : State) : Option Cand :=
  let set := bestSet cs
  let cur := mgetD s.pkt.serving parent 0
  let pick (c : Cand) (others : List (Nat × Nat)) : Cand :=
    -- deficits of the members passed over at this node join those of the path chosen
    let d := others.foldl (fun d e => mput d e.1 e.2) c.deficit
    { c with deficit := mput d c.key (mgetD d c.key 0 - c.bytes), serving := mput c.serving parent c.key }
  match set.find? (fun c => c.key = cur && c.bytes ≤ mgetD s.pkt.deficit c.key 0) with
  | some c => some (pick c [])
  | none =>
    let order := set.filter (cur < ·.key) ++ set.filter (·.key ≤ cur)
    match drr (64 * (order.length + 1)) order s.pkt.deficit with
    | some (c, d) => some (pick c (order.map (fun o => (o.key, mgetD d o.key 0))))
    | none => none

/-- The frame of a copy, in bytes as tokens are charged: the length that is sent, without FCS, and the port's OVERHEAD (log entry 31). -/
def chargeBytes (s : State) (l0 : Nat) (c : Copy) : Nat :=
  ((stored? s c.pkt).map (fun b => (if l0 < 144 then wireBytes s l0 c b.pkt else hostBytes c b.pkt).length)).getD 0
    + nodeOverhead (nodeRec (padOf s (copyPad s c)) 0 l0)

/-! ### Receive rings (R107, R111) -/

/-- The spread set of a function, rising. -/
def spreadSet (s : State) (fid : Nat) : List Nat :=
  ((fnD s fid).rings.filter (fun e => e.2.type = 1 && e.2.spread && e.2.state = 1)).map (·.1)

/-- The spreading hash of a packet for a function (R111). -/
def spreadHash (s : State) (fid : Nat) (k : Pkt) : Nat :=
  let f := dictField k 0
  let ports : Bool := f 0x15 = 0x0B || f 0x15 = 0x0C
  let fields := if f 0x14 = 0 then [f 0x0B, f 0x0C] else [f 0x1A, f 0x1B] ++ if ports then [f 0x21, f 0x22] else []
  let seed := if isVf fid then (fnD s fid).seed else Config.bootSeed s.pkt.boot (2 ^ 32 + fid)
  keyedHash seed fields % 2 ^ 32

/-- The receive ring that takes a packet. -/
def spreadRing (s : State) (fid : Nat) (k : Pkt) : Option Nat :=
  let l := spreadSet s fid
  l[spreadHash s fid k * l.length / 2 ^ 32]?

/-- The function can take a packet (R109). -/
def fnTakes (s : State) (fid : Nat) : Bool :=
  match fn? s fid with
  | some f => !f.inFlr && !f.d3 && !f.frozen && canIssue s fid
  | none => false

/-- A host copy waits while its ring's completion ring is full (R113, R214). -/
def ringFull (s : State) (dest : Nat) (k : Pkt) : Bool :=
  destType dest = 2 && fnTakes s (destArg dest) &&
    match spreadRing s (destArg dest) k with
    | some r => cplFull s (destArg dest) (ringOf s (destArg dest) r).cplRing
    | none => false

/-- A queue's head may be sent now (R52, R113, R214). -/
def headEligible (s : State) (l0 q : Nat) (c : Copy) : Bool :=
  let pad := copyPad s c
  peakOk s pad 3 q && peakOk s pad 0 l0 &&
    match stored? s c.pkt with
    | some b =>
      if l0 < 144 then
        match mget? s.ports l0 with
        | some p => (mget? p.paused (nodePfc (nodeRec (padOf s pad) 3 q))).isNone
        | none => false
      else !ringFull s c.dest b.pkt
    | none => false

/-- A candidate for a node at a level, from the choice beneath it. -/
def mkCand (s : State) (l0 level i q : Nat) (c : Copy) (deficit serving : List (Nat × Nat)) : Cand :=
  let pad := copyPad s c
  let r := nodeRec (padOf s pad) level i
  { key := nodeKey level i, prio := nodePrio r, weight := max 1 (nodeWeight r), committed := committed s pad level i
    bytes := chargeBytes s l0 c, queue := q, copy := c, deficit, serving }

/-- The candidates of one level gathered under their parents, and each parent's choice as a candidate of the level above. -/
def levelUp (s : State) (l0 level : Nat) (parentOf : Cand → Nat) (cs : List Cand) : List Cand :=
  ((cs.map parentOf).eraseDups).filterMap fun i =>
    match serve (nodeKey level i) (cs.filter (parentOf · = i)) s with
    | some c =>
      if peakOk s (copyPad s c.copy) level i then
        some (mkCand s l0 level i c.queue c.copy c.deficit c.serving)
      else none
    | none => none

/-- The chain of a candidate's queue. -/
def candChain (s : State) (c : Cand) : Nat × Nat × Nat := (chainOf (padOf s (copyPad s c.copy)) c.queue).getD (0, 0, 0)

/-- The queue that a port serves next, with the hierarchy's state after the choice. -/
def chooseQueue (l0 : Nat) (s : State) : Option Cand :=
  let l3 := ((headsOf s l0).filter (fun e => headEligible s l0 e.1 e.2)).map
    (fun e => mkCand s l0 3 e.1 e.1 e.2 s.pkt.deficit s.pkt.serving)
  let l2 := levelUp s l0 2 (fun c => (candChain s c).1) l3
  let l1 := levelUp s l0 1 (fun c => (candChain s c).2.1) l2
  serve (nodeKey 0 l0) l1 s

/-- Charges a frame to its queue and every ancestor, and keeps the choice's deficits. -/
def chargeSend (l0 : Nat) (c : Cand) (s : State) : State :=
  let pad := copyPad s c.copy
  let (l2, l1, _) := candChain s c
  let s := s.modPkt (fun p => { p with deficit := c.deficit, serving := c.serving })
  [(3, c.queue), (2, l2), (1, l1), (0, l0)].foldl (fun s e => chargeNode pad e.1 e.2 c.bytes s) s

/-! ### The end of a copy -/

/-- A copy has been committed: counted for its queue, the group member that it was chosen for, its meter and its ring, and its time delivered to the
PTP service where the packet's code asked for it (R54, R110, R167, R185, R219, R377). -/
def copySent (l0 q : Nat) (c : Copy) (b : Stored) (tenant len : Nat) (s : State) : State :=
  let k := b.pkt
  let s := (s.bump .queueOut q 0 1).bump .queueOutBytes q 0 len
  let s := match c.via with
    | some v => countMember v len s
    | none => s
  let s := meterOut tenant k.cls len s
  let s := if b.tsOut then (hwDeliver s (mgmtChan s) { words := [s.time, l0], kind := 7 }).1 else s
  if c.mirror then s else txCommit k.src s

/-- A copy has left its queue and is dropped at egress (R109, R219). -/
def copyLost (q : Nat) (c : Copy) (k : Pkt) (reason : Nat) (s : State) : State :=
  let s := s.bump .queueDrop q reason 1
  if c.mirror then s else txDrop k.src reason s

/-- A Path Check Word mismatch: counted, and a fault of the generating pipeline; DETAIL tells the path, 0 Ethernet, 1 host (R284). -/
def pcwMismatch (k : Pkt) (path : Nat) (s : State) : State :=
  domFault (.pipeline (physOf s 0 k.pipe)) 6 path (s.bump .pcwBad path k.pipe 1)

/-- The Path Check Word of a copy against what the checker supplies (R283). -/
def pcwGood (k : Pkt) (c : Copy) (tenant dest : Nat) (ok : Bool) : Bool := ok && pcw tenant c.pseq dest k.bytes = c.pcw

/-! ### Ethernet (R51, R54, R57, R284) -/

/-- Sends a copy as a frame, or drops it for its length or its MACsec; answers whether a frame went (R214). The bytes sent are counted without the FCS, with SecTAG and ICV; a frame
sent with a bad FCS is in no transmit counter (log entry 106, DESIGN CHOICE). -/
def sendEth (l0 q : Nat) (c : Copy) (b : Stored) (ok : Bool) (s : State) : State × Bool :=
  let k := b.pkt
  match mget? s.ports l0 with
  | none => (s, false)
  | some p =>
    let bs := wireBytes s l0 c k
    if !pcwGood k c k.tenant (mkDest 1 l0) ok then
      -- the frame goes out as it would have, protected where the port protects, but for its FCS (R57, R284)
      let (s, sent) := match macsecTx l0 p.octet bs s with
        | (some wire, s) => (s.emit (.ethTx l0 wire (2 ^ 32 - 1 - crcOf 1 wire)), true)
        | (none, s) => (s.bump .portMacsecDrop l0 0 1, false)
      (pcwMismatch k 0 (copyLost q c k 7 s), sent)
    else if p.mtu < bs.length + 4 then (copyLost q c k 5 s, false)
    else match macsecTx l0 p.octet bs s with
      | (none, s) =>
        -- R57 drops and counts the frame; R109 has no reason of its own for it
        let (r, s) := s.drawBelow 12
        (copyLost q c k r (s.bump .portMacsecDrop l0 0 1), false)
      | (some wire, s) =>
        let s := s.emit (.ethTx l0 wire (crcOf 1 wire))
        let s := (s.bump .portTxFrames l0 0 1).bump .portTxBytes l0 0 wire.length
        (copySent l0 q c b k.tenant bs.length s, true)

/-! ### Delivery to a function (R106 to R111) -/

/-- The innermost IPv4 header checksum, or an outer one: 0 not checked, 1 good, 2 bad. -/
def l3Check (k : Pkt) (level : Nat) : Nat :=
  match hdrIn k.parse level [5] with
  | some h => if k.bytes.length < h.off + h.len then 0
    else if ocSum ((k.bytes.drop h.off).take h.len) = 65535 then 1 else 2
  | none => 0

/-- A TCP or UDP checksum at a level: 0 not checked, 1 good, 2 bad; a UDP checksum of zero is none. -/
def l4Check (k : Pkt) (level : Nat) : Nat :=
  match hdrIn k.parse level [5, 6], hdrIn k.parse level [0x0B, 0x0C] with
  | some ip, some l4 =>
    let udp : Bool := l4.code = 0x0B
    let stop := if ip.code = 5 then ip.off + atBe k.bytes (ip.off + 2) 2 else ip.off + 40 + atBe k.bytes (ip.off + 4) 2
    if k.parse.frag || stop < l4.off || k.bytes.length < stop || (udp && atBe k.bytes (l4.off + 6) 2 = 0) then 0
    else
      let addrs := if ip.code = 6 then (k.bytes.drop (ip.off + 8)).take 32 else (k.bytes.drop (ip.off + 12)).take 8
      let seg := (k.bytes.take stop).drop l4.off
      if oc16 (ocSum (addrs ++ beBytes 2 (if udp then 17 else 6) ++ beBytes 2 seg.length)) (ocSum seg) = 65535 then 1 else 2
  | _, _ => 0

/-- An outer IPv4 header checksum or a non-zero outer UDP checksum is bad. -/
def outerBad (k : Pkt) : Bool :=
  (List.range k.parse.levels).any (fun l => l3Check k l = 2 || ((hdrIn k.parse l [0x0B]).isSome && l4Check k l = 2))

/-- A receive-buffer descriptor (R106). -/
def rxAddr (d : Nat) : Nat := bits d 0 64
def rxBufLen (d : Nat) : Nat := bits d 64 16
def rxCookie (d : Nat) : Nat := bits d 96 32

/-- What taking buffers for a packet comes to. -/
structure Taken where
  /-- M R107: buffers used: index and descriptor. -/
  used : List (Nat × Nat) := []
  /-- M R107: short buffers met. -/
  short : List (Nat × Nat) := []
  /-- M R107: bytes the used buffers hold. -/
  room : Nat := 0
  /-- M R107: descriptors passed. -/
  passed : Nat := 0

/-- Takes buffers in ring order until a packet of `len` bytes fits, 16 at most; those that completed FORMAT before are passed over. -/
def takeBufs (len : Nat) (gone : List Nat) : List (Nat × Nat) → Taken → Taken
  | [], t => t
  | (i, d) :: r, t =>
    if len ≤ t.room || 16 ≤ t.used.length then t
    else
      let t := { t with passed := t.passed + 1 }
      if gone.contains i then takeBufs len gone r t
      else if rxBufLen d < 256 then takeBufs len gone r { t with short := t.short ++ [(i, d)] }
      else takeBufs len gone r { t with used := t.used ++ [(i, d)], room := t.room + rxBufLen d }

/-- Writes a packet over its buffers. -/
def fillBufs (fid : Nat) : List (Nat × Nat) → List Byte → State → State
  | [], _, s => s
  | (_, d) :: r, bs, s => fillBufs fid r (bs.drop (rxBufLen d)) (s.hostWr fid (rxAddr d) (bs.take (rxBufLen d)))

/-- The completion of a short buffer. -/
def shortEntry (ring : Nat) (e : Nat × Nat) : Cpl :=
  { cookie := rxCookie e.2, idx := e.1 % 65536, type := 1, status := 3, ring }

/-- The completion of a delivered packet (R108). -/
def rxEntry (s : State) (fid ring : Nat) (k : Pkt) (used : List (Nat × Nat)) (len : Nat) (vlan : Option Nat) : Cpl :=
  let first := used.headD (0, 0)
  { cookie := rxCookie first.2, idx := first.1 % 65536, type := 1, ndesc := used.length, status := 0, ring, len
    rxBits := pack [(2, l3Check k k.parse.levels), (2, l4Check k k.parse.levels), (1, b2n (k.parse.levels ≠ 0)),
      (1, b2n k.rxTs.isSome), (6, ((k.parse.hdrs.getLast?).map (·.code)).getD 0), (1, b2n (outerBad k)), (1, b2n vlan.isSome)]
    vlanTci := vlan.getD 0, hash := spreadHash s fid k, cls := k.cls, colour := k.colour, ts := k.rxTs.getD 0 }

/-- The ring goes on past the buffers that are gone at its fetch index. -/
def passShort (fid ring : Nat) : Nat → State → State
  | 0, s => s
  | fuel + 1, s =>
    let x := ringOf s fid ring
    if x.short.contains x.ci then
      passShort fid ring fuel (s.modRing fid ring (fun x => { x with
        short := x.short.filter (· ≠ x.ci), ci := add32 x.ci 1, done := add32 x.ci 1, bufs := x.bufs.drop 1 }))
    else s

/-- Completes short buffers FORMAT; they stay consumed (R107). -/
def shortBufs (fid ring : Nat) (l : List (Nat × Nat)) (s : State) : State :=
  if l.isEmpty then s
  else
    let x := ringOf s fid ring
    let s := s.modRing fid ring (fun x => { x with err := x.err ||| 64, short := x.short ++ l.map (·.1) })
    passShort fid ring (l.length + x.short.length) (cplWrite fid x.cplRing (l.map (shortEntry ring)) s)

/-- The read of a receive ring's buffer descriptors returns with the command: they join those in hand. None where no such read is
outstanding, or it asked for fewer. -/
def takeRead (fid ring : Nat) (bufs : List Nat) (s : State) : Option State :=
  let mine (q : Read) : Bool := q.fid = fid && q.purpose = .desc ring
  let asked := ((s.reads.filter (fun r => mine r && !r.dead)).map (·.len)).foldl (· + ·) 0
  if bufs.isEmpty then some s
  else if !liveRead s mine || !readsOut s mine || asked < 16 * bufs.length then none
  else some ((s.endReads mine).modRing fid ring (fun x => { x with bufs := x.bufs ++ bufs }))

/-- How a delivery ends. -/
inductive Delivery
  /-- The packet left its queue, `sent` where it went to its destination and was not dropped. -/
  | left (s : State) (sent : Bool)
  /-- The buffers given were not read, or the completion ring is full: nothing happens. -/
  | stay
  /-- The packet stays at its queue's head: the buffers in hand do not hold it and the next are being read (R98), a write to the host was not
  issued, and its ring is fenced (R80), or the short buffers met have filled the completion ring (R107, R113). -/
  | kept (s : State)

/-- Delivers a copy to a function, `bufs` being what the outstanding read of buffer descriptors of the receive ring that its hash selects
brings. -/
def deliverHost (q : Nat) (c : Copy) (b : Stored) (bufs : List Nat) (ok composed : Bool) (s : State) : Delivery :=
  let k := b.pkt
  let fid := destArg c.dest
  let lost (reason : Nat) (s : State) : Delivery := .left (copyLost q c k reason (s.bump .fnDrop fid reason 1)) false
  if !fnTakes s fid then lost 6 (if (fnD s fid).d3 then s.pmeSet fid else s)
  else match spreadRing s fid k with
    | none => lost 6 s
    | some r =>
      if !pcwGood k c (tenantOf s fid) (mkDest 2 fid) ok then
        match lost 7 s with
        | .left s b => .left (pcwMismatch k 1 s) b
        | d => d
      else match takeRead fid r bufs s with
        | none => .stay
        | some s =>
          let x := ringOf s fid r
          let cut := hostBytes c k
          let vlan := if x.vlanStrip && has8100 cut then some (atBe cut 14 2) else none
          let bs := if vlan.isSome then cut.take 12 ++ cut.drop 16 else cut
          let owned := sub32 x.lastRead x.ci
          let idx := (x.bufs.take owned).zipIdx.map (fun e => (add32 x.ci e.2, e.1))
          let t := takeBufs bs.length x.short idx {}
          let fits : Bool := bs.length ≤ t.room
          let room := cplRoom s fid x.cplRing
          if !fits && t.used.length < 16 && x.bufs.length < owned then .kept (readBufs fid r s)
          else if room = 0 && (fits || !t.short.isEmpty) then .kept s
          else if !composed && (fits || !t.short.isEmpty) then .kept ((fenceRing fid r 2 s).composeFault fid)
          else if room < t.short.length + b2n fits then .kept (kick fid r (shortBufs fid r (t.short.take room) s))
          else
            let s := shortBufs fid r t.short s
            if !fits then
              lost 11 (kick fid r (s.modRing fid r (fun x => { x with err := x.err ||| 128 })))
            else
              let s := copySent (144 + fidPort fid) q c b (tenantOf s fid) bs.length (fillBufs fid t.used bs s)
              let past := add32 x.ci t.passed
              let s := s.modRing fid r (fun y => { y with
                ci := past, done := past, bufs := x.bufs.drop t.passed, short := y.short.filter (fun i => t.passed ≤ sub32 i x.ci) })
              .left (kick fid r (cplWrite fid x.cplRing [rxEntry s fid r k t.used bs.length vlan] s)) true

/-! ### The port takes a frame (R214) -/

/-- Sends a copy by an Ethernet port. Where the two compositions differ of the request by which the packet's completion would be written, it is
not issued, and the completion ring is fenced with its sources (R80, R101); the frame goes all the same. -/
def sendOrFence (l0 q : Nat) (c : Copy) (b : Stored) (ok composed : Bool) (s : State) : State × Bool :=
  let sent := sendEth l0 q c b ok s
  match composed, b.pkt.src with
  | false, .host fid ring _ =>
    let cpl := (ringOf s fid ring).cplRing
    if (ringOf sent.1 fid cpl).ci = (ringOf s fid cpl).ci then sent
    else sendEth l0 q c b ok ((fenceRing fid cpl 2 s).composeFault fid)
  | _, _ => sent

/-- A port that can take a frame serves its hierarchy; what a head that is dropped there would have taken, nothing is charged (R214). -/
def schedule (l0 : Nat) (bufs : List Nat) (ok composed : Bool) (s : State) : State :=
  if s.phase ≠ .running then s
  else
    let s := purgePort l0 s
    if !pipeServes s (pipeOfPort s l0) then s
      else match chooseQueue l0 s with
        | none => s
        | some c =>
          match stored? s c.copy.pkt with
          | none => s
          | some b =>
            let out := if l0 < 144 then (let r := sendOrFence l0 c.queue c.copy b ok composed s; Delivery.left r.1 r.2)
              else deliverHost c.queue c.copy b bufs ok composed s
            match out with
            | .stay => s
            | .kept s => s
            | .left s sent => leaveQueue c.queue c.copy (popHead c.queue (if sent then chargeSend l0 c s else s))

def execEgressSchedule (l0 : Nat) (bufs : List (BitVec 128)) (pcwOk composed : Bool) : State → Host.Outcome State Fault Refusal :=
  run (wfEgressSchedule l0 bufs pcwOk composed) (schedule l0 (bufs.map (·.toNat)) pcwOk composed)

/-- The head of a deadline queue is checked (R216). -/
def execDeadlineHeadCheck (queue : Nat) : State → Host.Outcome State Fault Refusal :=
  run (wfDeadlineHeadCheck queue) fun s =>
    match (mgetD s.pkt.queues queue []).head? with
    | some c => if copyLate s queue c || c.marked then purgeQueue queue (mgetD s.pkt.queues queue []).length s else s
    | none => s

/-! ### Queue telemetry (R217, R218) -/

/-- A queue is held by XOFF. -/
def queuePaused (s : State) (q : Nat) : Bool :=
  let pad := match (mgetD s.pkt.queues q []).head? with
    | some c => copyPad s c
    | none => s.pkt.leap.active
  match portOfQueue (padOf s pad) q with
  | some l0 => match mget? s.ports l0 with
    | some p => (mget? p.paused (nodePfc (nodeRec (padOf s pad) 3 q))).isSome
    | none => false
  | none => false

/-- A telemetry record. -/
def queueRecord (s : State) (seq q : Nat) : List Byte :=
  let delay := match (mgetD s.pkt.queues q []).head? with
    | some c => min (2 ^ 32 - 1) ((s.tick - c.at_) * 1000)
    | none => 0
  let bp := s.pkt.owners.any (fun e => e.2.causes.contains (ownerKey 6 q)) || bpOn s (ownerKey 6 q)
  leBytes 32 (pack [(32, seq), (17, q), (1, b2n (queuePaused s q)), (1, b2n bp), (13, 0),
    (21, (ownerOf s (ownerKey 6 q)).use), (11, 0), (32, delay), (64, s.time)])

/-- Writes the records of one sample, those in time, then the producer index (R217). -/
def sampleRing (ring consumer inTime : Nat) (s : State) : State :=
  match mget? s.pkt.telem ring with
  | none => s
  | some t =>
    let consumer := if tagRoom s t.fid then consumer else t.ci
    let s := s.hostRdNow t.fid (t.indexAddr + 8) 8
    let due := t.queues.take inTime
    let s := s.bump .telemLate ring 0 (t.queues.length - due.length)
    let lapped := ((List.range due.length).filter (fun i => 2 ^ t.log2 ≤ t.pi + i - consumer)).length
    let s := (s.bump .telemOver ring 0 lapped).bump .sampleOverwrite ring 0 lapped
    let recs := due.zipIdx.map (fun e => (t.ringAddr + 32 * ((t.pi + e.2) % 2 ^ t.log2), queueRecord s ((t.seq + e.2) % 2 ^ 32) e.1))
    let s := recs.foldl (fun s e => s.hostWr t.fid e.1 e.2) s
    let s := s.hostWr t.fid t.indexAddr (leBytes 8 (t.pi + due.length))
    s.modPkt (fun p => { p with telem := mput p.telem ring { t with
      pi := t.pi + due.length, ci := consumer, seq := (t.seq + due.length) % 2 ^ 32 } })

def execQueueTelemetrySample (ring consumer inTime : Nat) : State → Host.Outcome State Fault Refusal :=
  run (wfQueueTelemetrySample ring consumer inTime) fun s => if s.phase ≠ .running then s else sampleRing ring consumer inTime s

end Sys2Proof.Machine
end

