-- ==== Sys2Proof/Machine/HostPorts.lean ====
section
/-! DEFINITION. Host ports and functions as commands: configuration requests, resets, power states, interrupts, register writes,
windows and exchange (R64 to R93, R372 to R375). -/

namespace Sys2Proof.Machine

/-! ### Configuration space (R67, R68, R88) -/

/-- Device ID of a function by its PF and whether it is a VF (R67). -/
def deviceId (pf : Nat) (vf : Bool) : Nat :=
  match pf with
  | 0 => 0x0144
  | 1 => if vf then 0x0147 else 0x0145
  | 3 => 0x014F
  | _ => if vf then 0x0148 else 0x0146

/-- Class code of a function by its PF (R67). -/
def classCode (pf : Nat) : Nat := match pf with
  | 0 => 0x088000
  | 1 => 0x020000
  | 3 => 0xFF0000
  | _ => 0x010802

/-- Whose configuration space a register is of: a host port, a function's record, and whether it is a VF. -/
structure CfgOf where
  /-- M R64: the host port. -/
  port : Nat
  /-- M R67: the function's record. -/
  fn : Fn
  /-- M R67: a VF. -/
  vf : Bool
  deriving DecidableEq, Repr

/-- Lanes of a host port's form (R12). -/
def formWidth (s : State) (n : Nat) : Nat := match octetMode s (n / 2) with
  | 1 => 4
  | 2 => 8
  | 3 => 16
  | _ => 0

/-- Vectors of a function's MSI-X table (R71, R407). -/
def CfgOf.vectors (c : CfgOf) : Nat :=
  if c.vf then (if c.fn.pf = 2 then 129 else 256) else [64, 2048, 129, 4].getD c.fn.pf 0

/-- log2 of the size of a function's BAR, 0 where it is not implemented; a VF's BARs are in its PF's SR-IOV capability (R67). -/
def CfgOf.barLog (c : CfgOf) (h : HostPort) (i : Nat) : Nat :=
  if c.vf then 0
  else match c.fn.pf, i with
    | 0, 0 | 1, 0 => 26
    | 2, 0 => 14
    | 3, 0 => 16
    | 0, 2 => 23
    | 0, 4 => h.bar4Pf0
    | 1, 4 => h.bar4Pf1
    | _, _ => 0

/-- log2 of the size of a VF BAR of PF1 or PF2 (R67). -/
def CfgOf.vfBarLog (c : CfgOf) (h : HostPort) (i : Nat) : Nat :=
  if c.vf then 0
  else match c.fn.pf, i with
    | 1, 0 => 16
    | 1, 2 => 13
    | 1, 4 => h.bar4Vf
    | 2, 0 => 14
    | 2, 2 => 13
    | _, _ => 0

/-- A dword of a 64-bit memory BAR of size 2^`log`: the bits below the size read 0, the low four the type (64-bit; BAR4 prefetchable), and a
BAR that is not implemented reads 0 (R67). -/
def barDword (log i v : Nat) : Nat :=
  if log = 0 then 0
  else if i % 2 = 1 then v % 2 ^ 32 / 2 ^ (log - 32) * 2 ^ (log - 32)
  else (if 32 ≤ log then 0 else v % 2 ^ 32 / 2 ^ log * 2 ^ log) + (if i = 4 then 12 else 4)

/-- The ID in a capability's header, 0 where the function does not have the capability (R71). The IDs are PCI-SIG's, and that of 128 GT/s is
free (log entry 90, PRESUMED). -/
def CfgOf.capId (c : CfgOf) (k : Cap) (s : State) : Nat × State :=
  let pf0 : Bool := !c.vf && c.fn.pf = 0
  let rcv : Bool := c.fn.pf = 3
  let have_ (b : Bool) (id : Nat) : Nat × State := (if b then id else 0, s)
  match k with
  | .power => have_ true 0x01
  | .express => have_ true 0x10
  | .msix => have_ true 0x11
  | .aer => have_ (!rcv) 0x01
  | .ari => have_ (!rcv) 0x0E
  | .sriov => have_ (!c.vf && (c.fn.pf = 1 || c.fn.pf = 2)) 0x10
  | .serial => have_ pf0 0x03
  | .dataLink => have_ pf0 0x25
  | .physical 16 => have_ pf0 0x26
  | .physical 32 => have_ pf0 0x2A
  | .physical 64 => have_ pf0 0x31
  | .physical _ => if pf0 then s.drawBelow 65536 else (0, s)
  | .margining => have_ pf0 0x27
  | .flitLog => have_ pf0 0x32
  | .absent _ => (0, s)

/-- A link rate as PCI Express codes it: 1 for 2.5 GT/s to 7 for 128 GT/s. -/
def rateCode (gt : Nat) : Nat := 1 + ([5, 8, 16, 32, 64, 128].filter (· ≤ gt)).length

/-- What a configuration read of a register returns. Where the spec gives a register no value, the layout and the values are those of PCI
Express (log entry 90, PRESUMED), and any other register is free. -/
def cfgRead (s : State) (c : CfgOf) (reg : CfgReg) : Nat × State :=
  let f := c.fn
  let h := hostPort s c.port
  let pfn : Bool := !c.vf && (f.pf = 1 || f.pf = 2)
  match reg with
  | .id => (0x22F4 + 65536 * deviceId f.pf c.vf, s)
  | .classRev => (0x10 + 256 * classCode f.pf, s)
  | .subsystem => (h.subVendor + 65536 * h.subId.getD (deviceId f.pf c.vf), s)
  | .command => (pack [(1, 0), (1, b2n f.mse), (1, b2n f.bme)], s)
  | .cap k => c.capId k s
  | .bar i => (barDword (c.barLog h (i / 2 * 2)) i (mgetD f.bars i 0), s)
  | .vfBar i => (barDword (c.vfBarLog h (i / 2 * 2)) i (mgetD f.vfBars i 0), s)
  | .pmc => (pack [(16, 0), (3, 3), (8, 0), (5, 9)], s)
  | .pmcsr => (pack [(2, if f.d3 then 3 else 0), (1, 0), (1, 1), (4, 0), (1, b2n f.pmeEn), (6, 0), (1, b2n f.pmeStatus)], s)
  | .devCap => (pack [(3, 2), (2, 0), (1, 1), (22, 0), (1, 1)], s)
  | .devCtl => (pack [(5, 0), (3, f.mps), (4, 0), (3, f.mrrs)], s)
  | .devCap2 => (pack [(4, 15), (1, 1), (11, 0), (1, 1), (1, 1)], s)
  | .devCtl2 => (pack [(4, f.cto), (1, b2n f.ctoOff), (7, 0), (1, b2n f.tag10)], s)
  | .linkCap => (pack [(4, rateCode h.maxGt), (6, min h.maxWidth (formWidth s c.port)), (2, 2), (3, 0), (3, 4)], s)
  | .linkCtl => (f.aspm, s)
  | .msixCtl => (pack [(16, 0), (11, c.vectors - 1), (3, 0), (1, b2n f.msixMask), (1, b2n f.msixEn)], s)
  | .sriovCtl => (b2n (pfn && f.vfEnable), s)
  | .sriovTotal => (if pfn then 1024 + 65536 * 1024 else 0, s)
  | .sriovOffset => (if pfn then (if f.pf = 1 then 0x00FF else 0x04FE) + 65536 else 0, s)
  | .sriovNum => (if pfn then f.numVfs else 0, s)
  | .serial upper => (if !c.vf && f.pf = 0 then bits s.nv.uniqueId (if upper then 32 else 0) 32 else 0, s)
  | .aerStatus => ((f.aer.map (2 ^ ·)).foldl (· ||| ·) 0, s)
  | .aerMask => (f.aerMask, s)
  | .aerSeverity => (f.aerSev, s)
  | .other _ => s.drawBelow (2 ^ 32)

/-- A function's record after a configuration write of a register that changes nothing else. -/
def cfgSet (vf : Bool) (f : Fn) (reg : CfgReg) (v : Nat) : Fn :=
  match reg with
  | .command => { f with mse := bit v 1, bme := bit v 2 }
  | .bar i => { f with bars := mput f.bars i (v % 2 ^ 32) }
  | .vfBar i => { f with vfBars := mput f.vfBars i (v % 2 ^ 32) }
  | .devCtl => { f with mps := bits v 5 3, mrrs := bits v 12 3 }
  | .devCtl2 => { f with cto := bits v 0 4, ctoOff := bit v 4, tag10 := bit v 12 }
  | .linkCtl => { f with aspm := v % 4 }
  | .msixCtl => { f with msixMask := bit v 30, msixEn := bit v 31 }
  | .pmcsr => { f with pmeEn := bit v 8, pmeStatus := f.pmeStatus && !bit v 15, d3 := bits v 0 2 = 3 }
  | .sriovNum => if (f.pf = 1 || f.pf = 2) && !vf && !f.vfEnable then { f with numVfs := v % 65536 } else f
  | .aerStatus => { f with aer := f.aer.filter (fun b => !bit v b) }
  | .aerMask => { f with aerMask := v % 2 ^ 32 }
  | .aerSeverity => { f with aerSev := v % 2 ^ 32 }
  | _ => f

/-! ### Function resets and SR-IOV (R83, R86, R88) -/

/-- An FLR (R83, R86): of PF1 or PF2 it resets the PF's VFs too and clears VF Enable. A second one has no further effect. -/
def flr (fid : Nat) (s : State) : State :=
  if (fnD s fid).inFlr then s
  else
    let s := if fidFn fid = 1 || fidFn fid = 2 then resetVfs fid s else s
    (resetFn fid s).modFn fid ({ · with inFlr := true })

/-- VF Enable of PF1 or PF2 is set: its VFs up to NumVFs are there (R88). -/
def vfEnableSet (fid : Nat) (s : State) : State :=
  if (fidFn fid = 1 || fidFn fid = 2) && !(fnD s fid).vfEnable then s.modFn fid ({ · with vfEnable := true }) else s

/-- VF Enable is cleared: every VF of the PF is reset (R83). -/
def vfEnableClear (fid : Nat) (s : State) : State :=
  if (fnD s fid).vfEnable then (resetVfs fid s).modFn fid ({ · with vfEnable := false }) else s

/-- Entry to and return from D3hot (R91). -/
def d3Enter (fid : Nat) (s : State) : State := s.modFn fid ({ · with d3 := true })
def d0Return (fid : Nat) (s : State) : State := kickAll fid ((s.modFn fid ({ · with d3 := false })).flushMsix fid)

/-- A configuration write to a function that the device presents. -/
def cfgWrite (fid : Nat) (reg : CfgReg) (v : Nat) (s : State) : State :=
  let f := fnD s fid
  let set (s : State) : State := s.modFn fid (fun f => cfgSet (isVf fid) f reg v)
  match reg with
  | .command => (set (if f.bme && !bit v 2 then bmeClear fid s else s)).flushMsix fid
  | .msixCtl => (set s).flushMsix fid
  | .pmcsr =>
    let s := set s
    if bits v 0 2 = 3 then d3Enter fid s else if f.d3 then d0Return fid s else s
  | .devCtl => if bit v 15 then flr fid (set s) else set s
  | .sriovCtl => if bit v 0 then vfEnableSet fid s else vfEnableClear fid s
  | _ => set s

/-- The request names a PF, whose writes give the port its bus number (R68): a VF's routing ID lies on a later bus. -/
def refIsPf : FnRef → Bool
  | .fid f => !isVf f
  | .unprov _ _ _ => false

/-- A configuration request (R88): no link, no answer; Request Retry Status until the functions are ready; Unsupported Request for a
function that is not there. An unprovisioned VF that SR-IOV enables has its configuration space (R70). -/
def execPcieConfigRequest (fn : FnRef) (reg : CfgReg) (bus : Nat) (write : Bool) (value : Nat) :
    State → Host.Outcome State Fault Refusal :=
  run (wfPcieConfigRequest fn reg bus write value) fun s =>
    let port := match fn with
      | .fid f => fidPort f
      | .unprov p _ _ => p
    let h := hostPort s port
    let answer (c : CfgOf) (s : State) : State :=
      let (v, s) := cfgRead s c reg
      s.emit (.cfgData v)
    if !hostPortExists s port || !h.linkUp || s.phase = .inReset || s.phase = .basking then s
    else if !h.ready then s.emit .cfgRetry
    else
      let s := if write && refIsPf fn then { s with hps := mupd s.hps port {} ({ · with bus := bus }) } else s
      match fn with
      | .fid f =>
        if (fn? s f).isNone || !vfOn s f then s.emit (.unsupported f 0)
        else if !(fnD s f).ready then s.emit .cfgRetry
        else if write then cfgWrite f reg value s
        else answer { port, fn := fnD s f, vf := isVf f } s
      | .unprov p pf v =>
        if !unprovThere s p pf v then s.emit (.unsupported (mkFid p pf) v)
        else if write then s.modUnprov p pf v fun u =>
          if reg = .devCtl && bit value 15 then { fn := { pf, vf := v, ready := true } } else { u with fn := cfgSet true u.fn reg value }
        else answer { port := p, fn := (unprovOf s p pf v).fn, vf := true } s

/-- A function that the host can address. -/
def hostFn (s : State) (fid : Nat) : Bool :=
  (fn? s fid).isSome && (hostPort s (fidPort fid)).linkUp && vfOn s fid && s.phase ≠ .inReset && s.phase ≠ .basking

def execBmeClear (fid : Nat) : State → Host.Outcome State Fault Refusal :=
  run (wfBmeClear fid) fun s => if hostFn s fid then bmeClear fid s else s

/-- Every access to the function's BARs then completes with Unsupported Request; DMA goes on (R89). -/
def execMseClear (fid : Nat) : State → Host.Outcome State Fault Refusal :=
  run (wfMseClear fid) fun s => if hostFn s fid then s.modFn fid ({ · with mse := false }) else s

/-! ### Resets (R83 to R92) -/

def execFlr (fid : Nat) : State → Host.Outcome State Fault Refusal :=
  run (wfFlr fid) fun s => if hostFn s fid then flr fid s else s

def execVfEnableSet (fid numVfs : Nat) : State → Host.Outcome State Fault Refusal :=
  run (wfVfEnableSet fid numVfs) fun s =>
    if hostFn s fid && (fidFn fid = 1 || fidFn fid = 2) && !(fnD s fid).vfEnable then
      vfEnableSet fid (s.modFn fid ({ · with numVfs := numVfs }))
    else s

def execVfEnableClear (fid : Nat) : State → Host.Outcome State Fault Refusal :=
  run (wfVfEnableClear fid) fun s => if hostFn s fid then vfEnableClear fid s else s

def execD3hotEnter (fid : Nat) : State → Host.Outcome State Fault Refusal :=
  run (wfD3hotEnter fid) fun s => if hostFn s fid then d3Enter fid s else s

def execD0Return (fid : Nat) : State → Host.Outcome State Fault Refusal :=
  run (wfD0Return fid) fun s => if hostFn s fid && (fnD s fid).d3 then d0Return fid s else s

/-- D3cold takes the link down: the port is host absent (R91). -/
def execD3coldEnter (port : Nat) : State → Host.Outcome State Fault Refusal :=
  run (wfD3coldEnter port) fun s => if hostPortExists s port && (hostPort s port).linkUp then portReset port s else s

/-- `HP_PERST_N` held low for at least 1 µs (R469) takes the link down and resets the port's functions (R83). -/
def execHpPerstNAssert (port ns : Nat) : State → Host.Outcome State Fault Refusal :=
  run (wfHpPerstNAssert port ns) fun s =>
    if ns < 1000 || !pinsIn s then s
    else
      let s := { s with hps := mupd s.hps port {} ({ · with perst := true }) }
      if hostPortExists s port then portReset port s else s

def execHpPerstNDeassert (port : Nat) : State → Host.Outcome State Fault Refusal :=
  run (wfHpPerstNDeassert port) fun s =>
    if pinsIn s then { s with hps := mupd s.hps port {} ({ · with perst := false }) } else s

def execHotReset (port : Nat) : State → Host.Outcome State Fault Refusal :=
  run (wfHotReset port) fun s => if hostPortExists s port && (hostPort s port).linkUp then portReset port s else s

/-- DL_Up (R85, R88): the port leaves host absent with its functions in reset state. A disabled port never trains, nor does any
before the Eft has brought up ports; in recovery mode only the owner port does (R66). The link is within the widths and rates that the store
allows (R65), and in flit mode at 64 and 128 GT/s (R64). Training is elastic work on VDD_SDS_A (R33 to R35). -/
def execDlUp (port width gt : Nat) (flit : Bool) : State → Host.Outcome State Fault Refusal :=
  run (wfDlUp port width gt flit) fun s =>
    let h := hostPort s port
    if !hostPortExists s port || !h.enabled || h.perst || h.linkUp || !s.eft.portsUp || !pinsIn s
        || (s.phase ≠ .running && !(s.phase = .recovery && port = s.eft.ownerPort))
        || min (formWidth s port) h.maxWidth < width || h.maxGt < gt || (64 ≤ gt && !flit) || !elasticOn s .training then s
    else
      let s := { s with hps := mput s.hps port { h with linkUp := true, ready := false, width, gt, flit, l1 := false } }
      s.event 0x0303 (.hostPort port) 0

/-- The port's functions have initialised and stop answering Request Retry Status (R88). -/
def execFunctionReady (port : Nat) : State → Host.Outcome State Fault Refusal :=
  run (wfFunctionReady port) fun s =>
    if !(hostPort s port).linkUp then s
    else
      let s := { s with hps := mupd s.hps port {} ({ · with ready := true }) }
      (portFids s port).foldl (fun s f => s.modFn f ({ · with ready := true, inFlr := false })) s

/-- The records of the functions that a port's host finds: its PFs, and the VFs that SR-IOV enables, provisioned or not (R70, R88). -/
def presentFns (s : State) (port : Nat) : List Fn :=
  let there (pf : Nat) : List Nat :=
    let x := fnD s (mkFid port pf)
    if x.vfEnable then (List.range x.numVfs).map (· + 1) else []
  ((portFids s port).filter (vfOn s)).map (fnD s)
    ++ [1, 2].flatMap fun pf => ((there pf).filter (unprovThere s port pf)).map fun vf => (unprovOf s port pf vf).fn

/-- L1 under ASPM when the host enables it in every function, or under PCI-PM when every function of the port is in D3hot (R92). -/
def execL1Enter (port : Nat) (aspm : Bool) : State → Host.Outcome State Fault Refusal :=
  run (wfL1Enter port aspm) fun s =>
    if (hostPort s port).linkUp && (presentFns s port).all (fun f => if aspm then bit f.aspm 1 else f.d3) then
      { s with hps := mupd s.hps port {} ({ · with l1 := true }) }
    else s

def execMsixUnmask (fid vector : Nat) : State → Host.Outcome State Fault Refusal :=
  run (wfMsixUnmask fid vector) fun s =>
    if barOn s fid && vector < msixSize s fid then
      (s.modFn fid (fun f => { f with unmasked := mput f.unmasked vector () })).flushMsix fid
    else s

/-! ### BAR4 and outstanding reads (R77, R82) -/

/-- A memory request to BAR4 (R77, R89, R432). -/
def execBar4WindowTlp (fid off len : Nat) (write : Bool) (data : List Byte) (stalled : Bool) :
    State → Host.Outcome State Fault Refusal :=
  run (wfBar4WindowTlp fid off len write data stalled) fun s =>
    if !hostFn s fid then s
    else if s.phase = .safe then (if write then s else s.emit (.barData fid (List.replicate len 0xFF)))
    else if !(fnD s fid).mse then (if write then s else s.emit (.unsupported fid off))
    else match winFor s fid off len with
      | some (i, w) =>
        if if write then w.wrEn else w.rdEn then winAccess fid off len write data i w stalled s
        else
          let s := (s.modFn fid (fun f => { f with aer := f.aer ++ [20] })).event 0x0301 (.fn fid) off
          if write then s else s.emit (.unsupported fid off)
      | none =>
        let s := (s.modFn fid (fun f => { f with aer := f.aer ++ [20] })).event 0x0301 (.fn fid) off
        if write then s else s.emit (.unsupported fid off)

/-- A failed read: its data is never delivered, and what it served fails (R82). -/
def failRead (r : Read) (aerBit : Nat) (s : State) : State :=
  if r.dead then s
  else
    let s := s.modFn r.fid (fun f => { f with aer := f.aer ++ [aerBit] })
    match r.purpose with
    | .index n | .desc n => fenceRing r.fid n 1 s
    | .mbxIndex | .mbxSlots _ => fenceMbx r.fid 1 s
    | .nvme q c => nvmeReadFailed r.fid q c s

/-- The outstanding read of a port with a tag. -/
def readOf (s : State) (port tag : Nat) : Option Read := s.reads.find? (fun r => fidPort r.fid = port && r.tag = some tag)

/-- A port's tag is free: what waits may take it, and a ring that drains may go on (R81, R114). -/
def dropRead (port tag : Nat) (r : Read) (s : State) : State :=
  let s := State.pumpReads { s with reads := s.reads.filter (fun q => !(fidPort q.fid = port && q.tag = some tag)) }
  match r.purpose with
  | .index n | .desc n => if r.dead then s else drainRing r.fid n s
  | _ => s

/-- A receive ring's buffer descriptors have been read: an ACTIVE ring has them in hand, and one that shuts down discards them (R98, R106,
R114). -/
def bufsDone (port tag : Nat) (r : Read) (n : Nat) (data : List Byte) (s : State) : State :=
  if (ringOf s r.fid n).state ≠ 1 then dropRead port tag r s
  else
    let new := (List.range (data.length / 16)).map fun i => ofLe ((data.drop (16 * i)).take 16)
    kick r.fid n ((dropRead port tag { r with dead := true } s).modRing r.fid n (fun x => { x with bufs := x.bufs ++ new }))

/-- A good completion. That of an index word, of buffer descriptors or of request slots brings its data; that of a read whose data another command brings, the
descriptors and the packet with HOST_TX_PACKET and an NVMe command's with the command, changes nothing here (log entry 91); that of a read
whose data is to be dropped frees its tag (R90). -/
def goodRead (port tag : Nat) (r : Read) (data : List Byte) (s : State) : State :=
  let word := ofLe (data.take 4)
  if r.dead then dropRead port tag r s
  else match r.purpose with
    | .index n => ringIndexDone r.fid n word (dropRead port tag { r with dead := true } s)
    | .desc n => if (ringOf s r.fid n).type = 1 then bufsDone port tag r n data s else s
    | .mbxIndex => mbxIndexDone r.fid word (dropRead port tag r s)
    | .mbxSlots n => mbxSlotsDone r.fid n data (dropRead port tag r s)
    | .nvme _ _ => s

/-- A read's last completion. One that matches no tag is an Unexpected Completion, discarded and logged: in PF0 of the port, since no rule
says which function's AER it is (log entry 91, DESIGN CHOICE). -/
def execPcieReadCompletion (port tag : Nat) (data : Option (List Byte)) : State → Host.Outcome State Fault Refusal :=
  run (wfPcieReadCompletion port tag data) fun s =>
    match readOf s port tag with
    | none => s.modFn (mkFid port 0) (fun f => { f with aer := f.aer ++ [16] })
    | some r => match data with
      | some d => goodRead port tag r d s
      | none => dropRead port tag r (failRead r 12 s)

def execCompletionTimeout (port tag : Nat) : State → Host.Outcome State Fault Refusal :=
  run (wfCompletionTimeout port tag) fun s =>
    match readOf s port tag with
    | none => s
    | some r => if (fnD s r.fid).ctoOff then s else dropRead port tag r (failRead r 14 s)

/-! ### Registers -/

def execFnCtlUnfence (fid : Nat) : State → Host.Outcome State Fault Refusal :=
  run (wfFnCtlUnfence fid) fun s => if barOn s fid then unfence fid s else s

/-- A register write (R4 to R6, R70, R407). -/
def execRegisterWrite (fn : FnRef) (bar off size value : Nat) : State → Host.Outcome State Fault Refusal :=
  run (wfRegisterWrite fn bar off size value) fun s =>
    match fn with
    | .fid f => barWrite f bar off size value s
    | .unprov p pf v =>
      let u := unprovOf s p pf v
      let tbl := if pf = 2 then 0x2000 else 0xC000
      if bar ≠ 0 || size ≠ 4 || off % 4 ≠ 0 || !(hostPort s p).linkUp || !unprovThere s p pf v || !u.fn.mse
          || (s.phase ≠ .running && s.phase ≠ .recovery) then s
      else if off = (if pf = 1 then 0x0C else 0x380C) then s.modUnprov p pf v fun u => { u with fn := { u.fn with drvReady := bit value 0 } }
      else if pf = 2 && off = 0x14 then s.modUnprov p pf v ({ · with ccEn := bit value 0 })
      else if tbl ≤ off && off < tbl + 16 * unprovVectors pf then
        let w := (off - tbl) / 4
        s.modUnprov p pf v fun u => { u with fn :=
          if w % 4 ≠ 3 then { u.fn with msixTbl := mput u.fn.msixTbl w (value % 2 ^ 32) }
          else { u.fn with unmasked := if bit value 0 then mdel u.fn.unmasked (w / 4) else mput u.fn.unmasked (w / 4) () } }
      else s

def execVfExchNotify (fid value : Nat) : State → Host.Outcome State Fault Refusal :=
  run (wfVfExchNotify fid value) fun s =>
    if barOn s fid && isVf fid then barWrite fid 2 0x1000 4 value s else s

def execPfExchNotify (fid value : Nat) : State → Host.Outcome State Fault Refusal :=
  run (wfPfExchNotify fid value) fun s => if fidFn fid = 0 then barWrite fid 0 0x200 4 value s else s

def execExchPendClear (fid index value : Nat) : State → Host.Outcome State Fault Refusal :=
  run (wfExchPendClear fid index value) fun s =>
    if fidFn fid = 0 then barWrite fid 0 (0x210 + 4 * index) 4 value s else s

/-! ### Windows as commands (R76 to R79) -/

/-- Where in HBM the region of a port's REGION_MIB begins: the model lays the ports' regions end to end by port number from the pool's
start, since no rule places them (log entry 15, DESIGN CHOICE). -/
def regionBase (s : State) (n : Nat) : Nat :=
  ((s.allots.filter (·.1 < n)).map (fun e => e.2.counts.getD 13 0)).foldl (· + ·) 0 * 2 ^ 20

/-- The tenant is one of the port's: its PFs', one of its range, or one bound to a VF of it. -/
def portTenant (s : State) (n tenant : Nat) : Bool :=
  let a := allotOf s n
  tenant = a.tenant || (a.tenBase ≤ tenant && tenant < a.tenBase + a.tenCount)
    || (portFids s n).any (fun f => tenantOf s f = tenant)

/-- The range lies in the region of a port that has the tenant: the HBM granted to that tenant for window targets (log entry 15). -/
def inRegionOf (s : State) (n tenant addr size : Nat) : Bool :=
  portTenant s n tenant && regionBase s n ≤ addr && addr + size ≤ regionBase s n + (allotOf s n).counts.getD 13 0 * 2 ^ 20

/-- The target lies within memory granted to the named tenant, and for a port manager within its own allotment (R76). For tenant 0x0000, which
is the Owner's to name, HBM up to the pool's end and the SRAM are granted; a register block is the Owner's to map. -/
def windowGrant (s : State) (c : Call) (w : WinCfg) : Bool :=
  let size := 2 ^ w.sizeLog2
  if c.role = 2 then w.tgtType = 0 && w.tenant ≠ 0 && inRegionOf s w.port w.tenant w.tgtAddr size
  else match w.tgtType with
    | 0 =>
      if w.tenant = 0 then w.tgtAddr + size ≤ 134656 * 2 ^ 20
      else (List.range 32).any (fun n => inRegionOf s n w.tenant w.tgtAddr size)
    | 1 => w.tenant = 0 && w.tgtAddr + size ≤ 480 * 2 ^ 20
    | _ => true

/-- The first field of a `WINDOW_SET` that R76 refuses. -/
def windowFault (s : State) (w : WinCfg) : Option Nat :=
  let fid := mkFid w.port w.fn
  let size := 2 ^ w.sizeLog2
  if !hostPortExists s w.port then some 0
  else if 2047 < w.fn || (fn? s fid).isNone then some 2
  else if 1 < w.rd then some 4
  else if 1 < w.wr then some 5
  else if w.sizeLog2 < 12 || 36 < w.sizeLog2 then some 6
  else if 2 < w.tgtType then some 7
  else if w.barOff % size ≠ 0 || bar4Size s fid < w.barOff + size then some 16
  else if w.tgtAddr % size ≠ 0 || 2 ^ 48 ≤ w.tgtAddr then some 24
  else if (winOf s w.port w.index).state = 2 then some 1
  else if (List.range 256).any (fun i =>
      let o := winOf s w.port i
      i ≠ w.index && o.state ≠ 0 && o.fn = w.fn && o.barOff < w.barOff + size && w.barOff < o.barOff + 2 ^ o.sizeLog2) then
    some 16
  else none

/-- `WINDOW_SET` (R76, R78). Where a refusal with BAD_PARAM and one with DENIED both hold, BAD_PARAM comes first, and a port manager whose
WINDOWS allotment is used up gets NO_RESOURCE (log entry 91, DESIGN CHOICE). -/
def execWindowSet (x : XCall) (w : WinCfg) : State → Host.Outcome State Fault Refusal :=
  run (wfWindowSet x w) (xop x 0x0308 fun c s =>
    if !c.inPort w.port then (s, fails stDenied)
    else match windowFault s w with
      | some off => (s, badParam off)
      | none =>
        if !windowGrant s c w || (c.role ≠ 1 && (w.tgtType = 2 || w.tenant = 0)) then (s, fails stDenied)
        else
          let used := (List.range 256).filter (fun i => (winOf s w.port i).state ≠ 0)
          if c.role = 2 && (winOf s w.port w.index).state = 0 && (allotOf s w.port).counts.getD 12 0 ≤ used.length then
            (s, fails stNoResource)
          else
            let s := s.modWin w.port w.index fun o => { o with
              state := 1, rdEn := w.rd = 1, wrEn := w.wr = 1, sizeLog2 := w.sizeLog2, fn := w.fn, tenant := w.tenant
              tgtType := w.tgtType, version := (o.version + 1) % 256, barOff := w.barOff, tgtAddr := w.tgtAddr }
            (s, okWith [u8 (winOf s w.port w.index).version]))

/-- The entry becomes FREE; its version stays. -/
def windowFree (port i : Nat) (s : State) : State := s.modWin port i (fun w => { version := w.version })

/-- `WINDOW_RETIRE` (R79). A FREE entry answers NOT_FOUND, a status that no rule gives (log entry 91, DESIGN CHOICE). -/
def execWindowRetire (x : XCall) (port index : Nat) : State → Host.Outcome State Fault Refusal :=
  run (wfWindowRetire x port index) (xop x 0x0309 fun c s =>
    if !c.inPort port then (s, fails stDenied)
    else if !hostPortExists s port then (s, badParam 0)
    else
      let w := winOf s port index
      if w.state = 0 then (s, fails stNotFound)
      else if w.inflight = 0 then (windowFree port index s, ok)
      else (s.modWin port index ({ · with state := 2 }), .wait (.window port index)))

/-- INFLIGHT reaches zero: a DRAINING entry becomes FREE and the command that waits completes (R79). -/
def execWindowDrainDone (port index : Nat) : State → Host.Outcome State Fault Refusal :=
  run (wfWindowDrainDone port index) fun s =>
    let w := winOf s port index
    if w.state = 2 then finishWait (· = .window port index) stOk 0 [] (windowFree port index s)
    else if w.state = 1 then s.modWin port index ({ · with inflight := 0 })
    else s

/-- 1 ms has passed: the command completes TIMEOUT, the entry stays DRAINING and a record names the target (R79). -/
def execWindowRetireTimeout (port index : Nat) : State → Host.Outcome State Fault Refusal :=
  run (wfWindowRetireTimeout port index) fun s =>
    if !waiting s (· = .window port index) then s
    else
      let s := s.record 6 port 14 0 (domOf s (.hostPort port)).state.num (winOf s port index).tgtAddr
      finishWait (· = .window port index) stTimeout 0 [] s

end Sys2Proof.Machine
end

