-- ==== Sys2Proof/Machine/Meters.lean ====
section
/-! DEFINITION. The meters' commands: the minute boundary, reading, and export to a host ring or by UDP (R376 to R381). -/

namespace Sys2Proof.Machine

def execMinuteBoundary : State → Host.Outcome State Fault Refusal :=
  run wfMinuteBoundary fun s => if s.phase = .inReset then s else minuteBoundary s

/-! ### Reading (R378, R379) -/

/-- A tenant's 72 counters in a map keyed tenant × 72 + index. -/
def meterRec (m : List (Nat × Nat)) (tenant : Nat) : List Nat := (List.range 72).map (fun i => mgetD m (tenant * 72 + i) 0)

/-- The cumulative values plus every increment not yet folded. -/
def meterNow (s : State) (tenant : Nat) : List Nat := meterRec (meterFold s.meter.cum s.meter.active) tenant

/-- The valid snapshot of minute `m`. -/
def snapOf (s : State) (m : Nat) : Option Snapshot :=
  match mget? s.meter.ring (m % 60) with
  | some e => if e.minute = m && e.valid then some e else none
  | none => none

/-- A tenant bound on a host port: its PFs', or a VF's. -/
def boundOn (s : State) (port tenant : Nat) : Bool :=
  (allotOf s port).tenant = tenant || (portVfs s port).any (fun e => e.2.bound && e.2.tenant = tenant)

/-- The caller may read the tenant's meters: a port manager those bound on its port, a tenant its own. -/
def meterInScope (s : State) (c : Call) (tenant : Nat) : Bool :=
  if c.role = 2 then boundOn s c.port tenant else if c.role = 4 then tenantOf s c.fid = tenant else true

/-- The pair that INDEX names in form 2 is pipeline × 32,768 + number. -/
def execMeterRead (x : XCall) (form tenant index : Nat) : State → Host.Outcome State Fault Refusal :=
  run (wfMeterRead x form tenant index) (xop x 0x0C01 (reads fun c s =>
    if 2 < form then badParam 0
    else if form = 2 && 9 * 32768 ≤ index then badParam 4
    else if !meterInScope s c tenant then fails stNotFound
    else match form with
      | 0 => okRecords ((meterNow s tenant).map u64) 0 8
      | 1 => match snapOf s index with
        | some e => okRecords ((meterRec e.recs tenant).map u64) 0 8
        | none => fails stNotFound
      | _ => okRecords [u64 (s.count .counterPkts index 0), u64 (s.count .counterBytes index 0)] 0 8))

/-! ### Export (R380, R381) -/

/-- The function in whose memory the export ring stands: the Owner's. -/
def exportFid (s : State) : Nat := mkFid s.eft.ownerPort 0

/-- The first field of a `METER_EXPORT_CONFIG` out of its range. -/
def exportBad (s : State) (c : ExportCfg) : Option Nat :=
  if 2 < c.mode then some 0
  else if c.mode = 1 && (c.log2 < 6 || 16 < c.log2) then some 1
  else if c.mode = 2 && c.port ≠ 0xFFFF && (mget? s.ports c.port).isNone then some 2
  else if c.mode ≠ 0 && 65536 < c.tenFirst + c.tenCount then some 6
  else if c.mode = 2 && (c.mtu < 576 || 9600 < c.mtu) then some 12
  else if c.mode = 2 && c.l3 ≠ 1 && c.l3 ≠ 2 then some 14
  else if c.mode = 2 && 64 ≤ c.dscp then some 15
  else none

/-- A ring starts with both its indices at 0, the producer index written by the device, as a subscription does (R362). -/
def execMeterExportConfig (x : XCall) (c : ExportCfg) : State → Host.Outcome State Fault Refusal :=
  run (wfMeterExportConfig x c) (xop x 0x0C02 fun _ s =>
    match exportBad s c with
    | some o => (s, badParam o)
    | none =>
      let s := { s with meter := { s.meter with export_ := c, expPi := 0, expCi := 0 } }
      (if c.mode = 1 then s.hostWr (exportFid s) c.indexAddr (leBytes 8 0) else s, ok))

/-- The tenants that a minute's export covers: all of the range in each minute that is a multiple of 60, else those that changed. -/
def exportTenants (t : Meter) : List Nat :=
  let c := t.export_
  if t.lastMinute % 60 = 0 then (List.range (if c.tenCount = 0 then 65536 else c.tenCount)).map (fun i => (if c.tenCount = 0 then 0 else c.tenFirst) + i)
  else t.changed.filter (fun k => c.tenCount = 0 || (c.tenFirst ≤ k && k < c.tenFirst + c.tenCount))

/-- An export record: 584 bytes. -/
def exportRecord (recs : List (Nat × Nat)) (tenant : Nat) : List Byte :=
  leBytes 2 tenant ++ List.replicate 6 0 ++ (meterRec recs tenant).flatMap (leBytes 8)

/-- One record to the host ring: the slot, then the producer index. A full ring, by the consumer index that the device reads, loses the
record and counts it; that index is a free value between the last one read and the producer index. -/
def exportToRing (minute : Nat) (rec : List Byte) (s : State) : State :=
  let t := s.meter
  let n := 2 ^ t.export_.log2
  let fid := exportFid s
  let (ci, s) := if n ≤ t.expPi - t.expCi then
      let (d, s) := (s.hostRdNow fid (t.export_.indexAddr + 8) 8).drawBelow (t.expPi - t.expCi + 1)
      (t.expCi + d, s)
    else (t.expCi, s)
  let s := { s with meter := { s.meter with expCi := ci } }
  if n ≤ t.expPi - ci || !canIssue s fid then s.bump .exportLoss 0 0 1
  else
    let s := s.hostWr fid (t.export_.ringAddr + 640 * (t.expPi % n)) (leBytes 8 minute ++ List.replicate 48 0 ++ rec)
    let s := s.hostWr fid t.export_.indexAddr (leBytes 8 (t.expPi + 1))
    { s with meter := { s.meter with expPi := t.expPi + 1 } }

/-- Records that a datagram carries within MTU, after the IP and UDP headers and the header of 32 bytes. -/
def exportPerDatagram (c : ExportCfg) : Nat := (c.mtu - (if c.l3 = 1 then 20 else 40) - 8 - 32) / 584

/-- The 32-byte header of a datagram. -/
def exportHeader (s : State) (minute dseq count : Nat) : List Byte :=
  layout [u32 0x4D5A4554, u64 s.nv.uniqueId, u64 minute, u32 dseq, u16 count] ++ List.replicate 2 0

/-- The frame of a datagram: what the configuration does not give is free, the addresses of the link and of the sender, the identification,
the flow label and the hop limit; an IPv4 collector is the first four bytes of COLLECTOR (log entry 44). -/
def exportFrame (c : ExportCfg) (payload : List Byte) (s : State) : List Byte × State :=
  let (macs, s) := s.drawBelow (2 ^ 96)
  let (src, s) := s.drawBelow (2 ^ 128)
  let (ident, s) := s.drawBelow (2 ^ 16)
  let (ttl, s) := s.drawBelow (2 ^ 8)
  let v4 : Bool := c.l3 = 1
  let addrs := if v4 then beBytes 4 src ++ (leBytes 16 c.collector).take 4 else beBytes 16 src ++ leBytes 16 c.collector
  let n := 8 + payload.length
  let head := beBytes 2 c.udpSrc ++ beBytes 2 c.udpDst ++ beBytes 2 n
  let sum := 65535 - ocSum (addrs ++ beBytes 2 17 ++ beBytes 2 n ++ head ++ payload)
  let udp := head ++ beBytes 2 (if sum = 0 then 65535 else sum) ++ payload
  let ip := if v4 then
      let h := beBytes 2 (0x4500 + 4 * c.dscp) ++ beBytes 2 (20 + n) ++ beBytes 2 ident ++ beBytes 2 0 ++ beBytes 2 (256 * ttl + 17)
      h ++ beBytes 2 (65535 - ocSum (h ++ addrs)) ++ addrs
    else beBytes 4 (6 * 2 ^ 28 + c.dscp * 2 ^ 22 + ident) ++ beBytes 2 n ++ [17] ++ beBytes 1 ttl ++ addrs
  (beBytes 12 macs ++ beBytes 2 (if v4 then 0x0800 else 0x86DD) ++ ip ++ udp, s)

/-- A datagram leaves: by MGMT0, or, tagged with the infrastructure tenant, through the pipeline of its port, on the port's queue of
class 0 (R9, R16, R58, R380). -/
def exportSend (c : ExportCfg) (payload : List Byte) (s : State) : State :=
  let (bs, s) := exportFrame c payload s
  if c.port = 0xFFFF then mgmt0Send bs s
  else
    let pad := s.pkt.leap.active
    let k : Pkt := { bytes := bs, src := .inject 0, inPort := c.port, pad, pipe := pipeOfPort s c.port, rxLen := bs.length
                     parse := parseFrame (parseRec (padOf s pad) c.port) true bs }
    let s := meterIn k.tenant k.cls k.rxLen s
    sendCopies k ((queueFor s k (mkDest 1 c.port)).map (fun q => { dest := mkDest 1 c.port, queue := q : CopyReq })).toList 1 false s

/-- The records in datagrams; those of a datagram that is lost are counted. -/
def exportByUdp (minute : Nat) (lost : List Nat) : Nat → Nat → List (List Byte) → State → State
  | 0, _, _, s => s
  | fuel + 1, dseq, recs, s =>
    let n := exportPerDatagram s.meter.export_
    if recs.isEmpty then s
    else if n = 0 then s.bump .exportLoss 0 0 recs.length
    else
      let now := recs.take n
      let s := if lost.contains dseq then s.bump .exportLoss 0 0 now.length
        else
          let s' := exportSend s.meter.export_ (exportHeader s minute dseq now.length ++ now.flatten) s
          -- a datagram that no queue took is lost too
          if s.meter.export_.port ≠ 0xFFFF && s'.pkt.nextPkt = s.pkt.nextPkt then s'.bump .exportLoss 0 0 now.length else s'
      exportByUdp minute lost fuel (dseq + 1) (recs.drop n) s

/-- The service exports the last snapshot, once. While the service is stopped, or MGMT0 is to carry them and is another
partition's (R58), its records are lost and counted. -/
def meterExport (lost : List Nat) (s : State) : State :=
  let t := s.meter
  let mode := t.export_.mode
  if !t.due then s
  else
    let s := { s with meter := { s.meter with due := false } }
    if mode = 0 then s
    else match snapOf s t.lastMinute with
      | none => s
      | some e =>
        let recs := (exportTenants t).map (exportRecord e.recs)
        if s.phase ≠ .running || !mgmtServiceUp s then s.bump .exportLoss 0 0 recs.length
        else if mode = 1 then recs.foldl (fun s r => exportToRing e.minute r s) s
        else if t.export_.port = 0xFFFF && !mgmt0OfService s then s.bump .exportLoss 0 0 recs.length
        else exportByUdp e.minute lost (recs.length + 1) 0 recs s

def execMeterExport (lost : List Nat) : State → Host.Outcome State Fault Refusal := run (wfMeterExport lost) (meterExport lost)

end Sys2Proof.Machine
end

