-- ==== Sys2Proof/Machine/Migration.lean ====
section
/-! DEFINITION. Migration: dirty logging, freeze, the save blob with its seal, restore and thaw (R382 to R389). What the spec does not
print of a TLV's inside is the model's own layout of 64-bit words (log entry 37). -/

namespace Sys2Proof.Machine

/-! ### Dirty logging (R383) -/

/-- The 8-byte word of the bitmap that holds a page's bit, with every bit of it set in the round. -/
def dirtyWord (d : DirtyLog) (w : Nat) : Nat := (List.range 64).foldl (fun a i => a + if (mget? d.pages (64 * w + i)).isSome then 2 ^ i else 0) 0

/-- Writes a word of a VF's bitmap; its bits are then due no longer. -/
def dirtyWrite (fid w : Nat) (s : State) : State :=
  match (fnD s fid).dirty with
  | none => s
  | some d =>
    (s.hostWr d.by_ (d.bitmap + 8 * w) (leBytes 8 (dirtyWord d w))).modFn fid
      ({ · with dirty := some { d with due := d.due.filter (fun p => p / 64 ≠ w) } })

/-- Writes every word that is due. -/
def dirtyFlush (fid : Nat) (s : State) : State :=
  match (fnD s fid).dirty with
  | none => s
  | some d => (d.due.map (· / 64)).eraseDups.foldl (fun s w => dirtyWrite fid w s) s

/-- MiB of shadows and windows that the port may still hold, with the VF's log as given (R366, R367). -/
def shadowFits (s : State) (fid : Nat) (d : DirtyLog) : Bool :=
  let port := fidPort fid
  let s := s.modFn fid ({ · with dirty := some d })
  if port = s.eft.ownerPort then allotSum s port 13 0 + ownerUse s 13 ≤ pools.getD 13 0
  else vfUse s port 13 ≤ (allotOf s port).counts.getD 13 0

/-- A provisioned VF. -/
def vfThere (s : State) (fid : Nat) : Bool := isVf fid && (mget? s.fns fid).isSome

def execMigDirtyStart (x : XCall) (fid len bitmap : Nat) : State → Host.Outcome State Fault Refusal :=
  run (wfMigDirtyStart x fid len bitmap) (xop x 0x1001 fun c s =>
    let d : DirtyLog := { len, bitmap, by_ := c.fid }
    if !c.inPort (fidPort fid) then (s, fails stDenied)
    else if len % 8 ≠ 0 then (s, badParam 4)
    else if bitmap % 8 ≠ 0 then (s, badParam 8)
    else if !vfThere s fid then (s, fails stState)
    else if !shadowFits s fid d then (s, fails stNoResource)
    else ((dirtyFlush fid s).modFn fid ({ · with dirty := some d }), ok))

def execMigDirtyStop (x : XCall) (fid : Nat) : State → Host.Outcome State Fault Refusal :=
  run (wfMigDirtyStop x fid) (xop x 0x1002 fun c s =>
    if !c.inPort (fidPort fid) then (s, fails stDenied)
    else if !vfThere s fid then (s, fails stState)
    else match (fnD s fid).dirty with
      | none => (s, fails stState)
      | some d =>
        ((dirtyFlush fid s).modFn fid ({ · with dirty := none }),
          if d.beyond = 0 then ok else failsWith stPartial (d.beyond % 2 ^ 32)))

def execDirtyBitWrite (fid page : Nat) : State → Host.Outcome State Fault Refusal :=
  run (wfDirtyBitWrite fid page) fun s =>
    match (fnD s fid).dirty with
    | some d => if d.due.contains page then dirtyWrite fid (page / 64) s else s
    | none => s

/-! ### Freeze and thaw (R384, R389) -/

def execMigFreeze (x : XCall) (fid : Nat) : State → Host.Outcome State Fault Refusal :=
  run (wfMigFreeze x fid) (xop x 0x1003 fun c s =>
    if !c.inPort (fidPort fid) then (s, fails stDenied)
    else if !vfThere s fid || !(fnD s fid).bound then (s, fails stState)
    else (s.modFn fid ({ · with frozen := true }), .wait (.freeze fid)))

/-- The VF's drain has ended: its work is done and no mailbox command of it runs (R384). -/
def vfDrained (s : State) (fid : Nat) : Bool := fnDrained s fid && (mbxOf s (.fn fid)).cur.isNone

/-- The contexts whose OWNER is a function (R286). -/
def ownedCtxs (s : State) (fid : Nat) : List Nat := (s.cip.ckv.filter (fun e => ckvOwner e.2 = fid)).map (·.1)

def execMigFreezeDrainDone (fid : Nat) : State → Host.Outcome State Fault Refusal :=
  run (wfMigFreezeDrainDone fid) fun s =>
    if !(fnD s fid).frozen || !vfDrained s fid then s
    else finishWait (· = .freeze fid) stOk 0 [] ((ownedCtxs s fid).foldl (fun s i => ctxFreeze i true s) s)

/-- The VF stays frozen, and its drain goes on. -/
def execMigFreezeTimeout (fid : Nat) : State → Host.Outcome State Fault Refusal :=
  run (wfMigFreezeTimeout fid) (finishWait (· = .freeze fid) stTimeout 0 [])

/-- The moderation timers of a function's completion rings start again where entries wait to be announced. -/
def modRestart (fid : Nat) (s : State) : State :=
  s.modFn fid (fun f => { f with rings := mmap f.rings (fun _ x =>
    if x.type = 2 && 0 < x.unann && 0 < x.modTimer then { x with unannAt := s.time, timerAt := some (s.time + 1000 * x.modTimer) } else x) })

/-- The index words of every ACTIVE ring and of the mailbox are read once, as after a doorbell. -/
def readIndices (fid : Nat) (s : State) : State :=
  let active := ((fnD s fid).rings.filter (fun e => e.2.state = 1 && e.2.type ≠ 2)).map (·.1)
  let s := active.foldl (fun s r => readIndex fid r s) s
  mbxReadIndex fid s

def execMigThaw (x : XCall) (fid : Nat) : State → Host.Outcome State Fault Refusal :=
  run (wfMigThaw x fid) (xop x 0x1006 fun c s =>
    if !c.inPort (fidPort fid) then (s, fails stDenied)
    else if !vfThere s fid || !(fnD s fid).frozen || (fnD s fid).saved then (s, fails stState)
    else
      let s := s.modFn fid ({ · with frozen := false })
      let s := modRestart fid (readIndices fid s)
      (kickAll fid (ctxThaw fid (s.flushMsix fid)), ok))

/-! ### The migration key (R387) -/

/-- The owner that migration transfers are charged to (R201). -/
def migOwner : Nat := ownerKey 3 0

/-- A transfer goes on: the migration owner has room for a message and is not back-pressured (R203, R206), and the control class's turn has come for
what the key does (R294). -/
def migTurn (fid len : Nat) (s : State) : Bool × State :=
  if bpOn s migOwner then (false, s)
  else if !admits s migOwner (cellsOf (min len 4096)) then (false, noteRefused migOwner s)
  else controlTurn (mbxControl fid) len s

/-- A blob has passed, a message of it after another through the migration owner's cells; its wrapping is tenant 0's (R16, R201, R377; log entry
100). -/
def migMoved (len : Nat) (s : State) : State :=
  let n := cellsOf (min len 4096)
  let s := bpSweep (noteAdmitted migOwner (s.modOwner migOwner (fun w => { w with use := w.use + n })))
  (freeCells migOwner n s).meterAdd 0 68 len

def execMigKeySet (x : XCall) (slot : Nat) : State → Host.Outcome State Fault Refusal :=
  run (wfMigKeySet x slot) (xop x 0x1007 fun _ s =>
    let k := keySlot s slot
    if 262144 ≤ slot || k.type ≠ 2 || !bit k.usage 7 || k.owner ≠ 0 then (s, badParam 0)
    else ({ s with migKey := some slot }, ok))

/-- The migration key, when a slot is named and opens. -/
def migMaterial (s : State) : Option (List Byte) :=
  match s.migKey with
  | some k => if slotOpens s k then some (keySlot s k).key else none
  | none => none

/-- A key derived from the migration key: two blocks of NIST SP 800-108's counter mode with AES-CMAC. -/
def migDerive (key label : List Byte) (saveId : Nat) : List Byte :=
  [1, 2].flatMap (fun i => fit 16 (cipherRun 5 key [] [] (beBytes 4 i ++ label ++ [0] ++ leBytes 8 saveId ++ beBytes 4 256)))

/-- "X144-MIG-KW" and "X144-MIG-AUTH". -/
def labelKw : List Byte := ascii "X144-MIG-KW"
def labelAuth : List Byte := ascii "X144-MIG-AUTH"

/-- The IV of the blob's tag. -/
def migIv (saveId : Nat) : List Byte := leBytes 8 saveId ++ leBytes 4 1

/-! ### TLVs (R386) -/

/-- A TLV: TYPE, INDEX and its payload as 64-bit words. -/
structure Tlv where
  /-- M R386: TYPE. -/
  type : Nat
  /-- M R386: INDEX. -/
  index : Nat
  /-- M R386: the payload. -/
  ws : List Nat
  deriving DecidableEq, Repr

def Tlv.bytes (t : Tlv) : List Byte :=
  leBytes 2 t.type ++ leBytes 2 t.index ++ leBytes 4 (8 * t.ws.length) ++ t.ws.flatMap (leBytes 8)

/-- The words of a byte string, whose last is filled with zeros. -/
def wordsOf : Nat → List Byte → List Nat
  | 0, _ => []
  | n + 1, b => ofLe (b.take 8) :: wordsOf n (b.drop 8)

/-- A wide number as `n` words, and back. -/
def wide (n v : Nat) : List Nat := (List.range n).map (fun i => v / 2 ^ (64 * i) % 2 ^ 64)
def unwide (ws : List Nat) : Nat := ws.foldr (fun w a => w % 2 ^ 64 + 2 ^ 64 * a) 0

/-- A list with its length ahead of it, and back: what it holds, and what follows. -/
def counted (l : List Nat) : List Nat := l.length :: l
def takeCounted (ws : List Nat) : List Nat × List Nat := (ws.tail.take (ws.headD 0), ws.tail.drop (ws.headD 0))

/-- A signed number as a word, and back. -/
def ofSigned (i : Int) : Nat := (i % 2 ^ 64).toNat
def toSigned (n : Nat) : Int := if n < 2 ^ 63 then n else (n : Int) - 2 ^ 64

/-- Pairs of a list. -/
def pairsOf : List Nat → List (Nat × Nat)
  | a :: b :: r => (a, b) :: pairsOf r
  | _ => []

/-- A map of marks from its keys. -/
def marks (l : List Nat) : List (Nat × Unit) := l.foldl (fun m k => mput m k ()) []

/-! ### What a save carries (R386) -/

/-- 0x0001: grants, kind, `FN_CTL`, the mailbox. -/
def saveFn (s : State) (fid : Nat) : List Nat :=
  let m := mbxOf s (.fn fid)
  (grantsOf s fid).list ++ [b2n (isNvme s fid), b2n (fnD s fid).drvReady, m.reqBase, m.rspBase, m.log2, m.idxAddr, b2n m.enable,
    b2n m.poll, m.vector, m.state, m.err, m.lastRead, m.done] ++ counted (m.queue.flatMap (fun r => wide 8 r.slot.toNat))

/-- 0x0002: a ring. Its fetch index goes back to the packet boundary at which fetch stopped. -/
def saveRing (x : Ring) : List Nat :=
  [x.base, x.log2, x.type, x.idxAddr, sub32 x.ci x.partialDescs.length, b2n x.enable, x.cplRing, b2n x.spread, b2n x.vlanStrip, x.state,
    x.modCount, x.modTimer, x.vector, b2n x.poll, x.cplCi, x.err, x.lastRead, x.done, x.unann] ++ counted x.short

/-- 0x0003: the MSI-X table, the vectors unmasked, and the PBA. -/
def saveMsix (f : Fn) : List Nat :=
  counted (f.msixTbl.flatMap (fun e => [e.1, e.2])) ++ counted (f.unmasked.map (·.1)) ++ counted (f.vecPending.map (·.1))

/-- 0x0004: the NVMe controller. -/
def saveCtrl (s : State) (fid : Nat) : List Nat :=
  let c := ctrlOf s fid
  let f := c.feats
  let aer (c : NvCmd) : List Nat := c.sqid :: c.cid :: wide 8 c.sqe
  [c.cc, b2n c.rdy, b2n c.cfs, c.shst, b2n c.fenced, c.aqa, c.asq, c.acq, f.arb, f.tempOver, f.tempUnder, f.errRec, f.thr, f.time, f.wan,
    f.async, b2n f.orden, c.errCount] ++ counted (f.cd.map (·.1)) ++ counted ((inFlight s fid).flatMap aer)
    ++ counted (c.errs.flatMap (fun e => [e.count, e.sqid, e.cid, e.status, e.lba, e.nsid]))
    ++ counted (c.events.flatMap (fun e => [e.1, e.2.1, e.2.2])) ++ counted c.changed ++ counted c.masked

/-- 0x0005: a submission queue (0) or a completion queue (1). -/
def saveSq (q : NvSq) : List Nat := [0, q.base, q.size, q.cq, q.head, q.tail, b2n q.deleting]
def saveCq (q : NvCq) : List Nat := [1, q.base, q.size, q.iv, b2n q.ien, q.head, q.tail, b2n q.phase, q.held]

/-- 0x0006: a check-value context, the flow key it is bound to, and what it has seen of a header. -/
def saveCtx (s : State) (i : Nat) : List Nat :=
  let k := mget? s.cip.ckvFlow i
  wide 4 (ckvOf s i) ++ [b2n k.isSome] ++ wide 5 (k.getD 0) ++ counted ((mgetD s.cip.ckvPart i []).map (·.toNat))

/-- 0x0007: an SA; its key slot as an offset within the grant. -/
def saveSa (g : Grants) (a : Sa) : List Nat :=
  [a.kind, a.suite, (a.slot + 262144 - g.keyFirst) % 262144, a.warn, a.spi, a.salt, a.window, b2n a.long, a.home, a.octet, a.sc, a.an, a.offset,
    a.validate, a.sci, a.state, a.next, a.highest, b2n a.exhaustedEvent] ++ counted (a.seen.map (·.1))

/-- 0x0008: a key slot. -/
def saveKey (k : KeySlot) : List Nat := [k.type, k.usage, k.kcv, k.key.length] ++ wide 8 (ofLe k.key)

/-- 0x0009 and 0x000A: tokens, with the parameters they were last charged under; a deficit. -/
def saveTokens (t : Tokens) (deficit : Nat) : List Nat :=
  [ofSigned t.tc, ofSigned t.tp, b2n t.params.isSome, deficit] ++ wide 4 (t.params.getD 0)

/-- 0x000B: a flow entry (0), or a static L2 entry of the port's own pipeline (1) or of pipeline `n` (2 + n). -/
def saveEntry (kind e : Nat) : List Nat := kind :: wide 8 e

/-- The keys of a map within `[lo, lo + n)`, as offsets. -/
def offsetsIn {α : Type} (m : List (Nat × α)) (lo n : Nat) : List Nat :=
  (m.filter (fun e => lo ≤ e.1 && e.1 < lo + n)).map (fun e => e.1 - lo)

/-- The keys of the level-3 nodes (R213). -/
def nodeAt (i : Nat) : Nat := 3 * 131072 + i

/-- The VF's state as TLVs, each of a grant's ranges carrying its offset in its first word. -/
def saveTlvs (s : State) (fid : Nat) : List Tlv :=
  let f := fnD s fid
  let g := grantsOf s fid
  let own := pipeOfHost (fidPort fid)
  let at_ (type : Nat) (l : List Nat) (w : Nat → List Nat) : List Tlv := l.map (fun i => { type, index := i % 65536, ws := i :: w i })
  let nodes := (List.range g.nodes).filter (fun i =>
    (mget? s.pkt.nodeTok (nodeAt (g.nodeFirst + i))).isSome || (mget? s.pkt.deficit (nodeAt (g.nodeFirst + i))).isSome)
  let l2 := (List.range 9).flatMap (fun p => ((tblOf s 2 p).entries.filter (fun e => l2Static e && l2SrcHost e && l2Src e = fid)).map
    (fun e => saveEntry (if p = own then 1 else 2 + p) e))
  [{ type := 1, index := 0, ws := saveFn s fid }]
    ++ f.rings.map (fun e => { type := 2, index := e.1, ws := e.1 :: saveRing e.2 })
    ++ [{ type := 3, index := 0, ws := saveMsix f }]
    ++ (if f.pf = 2 then { type := 4, index := 0, ws := saveCtrl s fid }
        :: ((ctrlOf s fid).sqs.map (fun e => { type := 5, index := e.1, ws := e.1 :: saveSq e.2 })
          ++ (ctrlOf s fid).cqs.map (fun e => { type := 5, index := e.1, ws := e.1 :: saveCq e.2 })) else [])
    ++ at_ 6 (offsetsIn s.cip.ckv g.ckvFirst g.ckvCtx) (fun i => saveCtx s (g.ckvFirst + i))
    ++ at_ 7 (offsetsIn s.cip.sas g.saFirst g.sa) (fun i => saveSa g (saOf s (g.saFirst + i)))
    ++ at_ 8 (offsetsIn s.cip.slots g.keyFirst g.keySlots) (fun i => saveKey (keySlot s (g.keyFirst + i)))
    ++ at_ 9 (offsetsIn s.pkt.polTok g.polFirst g.policers) (fun i => saveTokens (mgetD s.pkt.polTok (g.polFirst + i) {}) 0)
    ++ at_ 10 nodes (fun i => saveTokens (mgetD s.pkt.nodeTok (nodeAt (g.nodeFirst + i)) {}) (mgetD s.pkt.deficit (nodeAt (g.nodeFirst + i)) 0))
    ++ ((s.pkt.flow.entries.filter (flowOwner · = fid)).map (saveEntry 0) ++ l2).map (fun w => { type := 11, index := 0, ws := w })
    ++ [{ type := 12, index := 0, ws := wordsOf 512 (rdN s.exch (fid * 4096) 4096) }]

/-- The body before wrapping: the TLVs, ended by TYPE 0. -/
def saveBody (s : State) (fid : Nat) : List Byte := (saveTlvs s fid).flatMap Tlv.bytes ++ List.replicate 8 0

/-- The 64-byte header. -/
def blobHeader (s : State) (fid saveId bodyLen : Nat) : List Byte :=
  leBytes 4 0x4D475A45 ++ leBytes 2 1 ++ leBytes 1 (if isNvme s fid then 2 else 1) ++ [0] ++ leBytes 8 saveId ++ leBytes 8 s.nv.uniqueId
    ++ leBytes 2 fid ++ leBytes 2 (tenantOf s fid) ++ leBytes 4 bodyLen ++ leBytes 8 s.time ++ List.replicate 24 0

/-- The sealed blob. -/
def blobSeal (key : List Byte) (saveId : Nat) (header body : List Byte) : List Byte :=
  let wrapped := fit (body.length + 8) (cipherRun 8 (migDerive key labelKw saveId) [] [] body)
  header ++ wrapped ++ fit 16 (cipherRun 1 (migDerive key labelAuth saveId) (migIv saveId) (header ++ wrapped) [])

/-- Every SA of a VF becomes INVALID (R305). -/
def saInvalidate (fid : Nat) (s : State) : State :=
  s.modCip (fun c => { c with sas := mmap c.sas (fun _ a => if a.owner = fid then { a with state := 3 } else a) })

def execMigSave (x : XCall) (fid : Nat) : State → Host.Outcome State Fault Refusal :=
  run (wfMigSave x fid) (xop x 0x1004 fun c s =>
    if !c.inPort (fidPort fid) then (s, fails stDenied)
    else if alarmLatched s then (s, fails stKeysErased)
    else if !vfThere s fid || !(fnD s fid).frozen || (fnD s fid).saved then (s, fails stState)
    else match migMaterial s with
      | none => (s, fails stState)
      | some key =>
        let body := saveBody s fid
        let size := 64 + body.length + 8 + 16
        if c.room < size then (s, .sized stNoResource size)
        else match migTurn c.fid size s with
        | (false, s) => (s, .hold)
        | (true, s) =>
          let s := migMoved size s
          let (id, s) := s.drawBelow (2 ^ 64)
          let blob := blobSeal key id (blobHeader s fid id (body.length + 8)) body
          ((saInvalidate fid s).modFn fid ({ · with saved := true }), okWith [.arr blob]))

/-! ### Restore (R388) -/

/-- TYPEs that a restore knows, with the fewest words each has. -/
def tlvLeast (type : Nat) : Option Nat := [none, some 25, some 22, some 3, some 24, some 8, some 12, some 21, some 13, some 9, some 9, some 9, some 512].getD type none

/-- The TLVs of a body; none when one is invalid or of an unknown TYPE with bit 15 clear. -/
def readTlvs : Nat → List Byte → Option (List Tlv)
  | 0, _ => none
  | fuel + 1, b =>
    let type := ofLe (b.take 2)
    let len := ofLe ((b.drop 4).take 4)
    let padded := (len + 7) / 8 * 8
    if b.length < 8 then none
    else if type = 0 then some []
    else if b.length < 8 + padded then none
    else
      let rest := readTlvs fuel (b.drop (8 + padded))
      let ws := wordsOf (padded / 8) ((b.drop 8).take len)
      match tlvLeast type with
      | some n => if ws.length < n then none else rest.map ({ type, index := ofLe ((b.drop 2).take 2), ws } :: ·)
      | none => if bit type 15 then rest else none

/-- Word `i` of a payload. -/
def Tlv.w (t : Tlv) (i : Nat) : Nat := t.ws.getD i 0
/-- A flag of a payload. -/
def Tlv.b (t : Tlv) (i : Nat) : Bool := t.w i ≠ 0

/-- What a TLV names lies within the VF: a ring, a queue, or an offset within its grant. -/
def tlvFits (g : Grants) (t : Tlv) : Bool :=
  match t.type with
  | 2 => t.w 0 < g.rings
  | 5 => t.w 0 ≤ 128
  | 6 => t.w 0 < g.ckvCtx
  | 7 => t.w 0 < g.sa
  | 8 => t.w 0 < g.keySlots && 1 ≤ t.w 1 && t.w 1 ≤ 6 && t.w 4 = keyLen (t.w 1)
  | 9 => t.w 0 < g.policers
  | 10 => t.w 0 < g.nodes
  | 11 => t.w 0 < 11
  | _ => true

/-- TYPEs of the grants in `FN_CREATE` order: what DETAIL gives when one is smaller than the source's. -/
def grantTypes : List Nat := [2, 5, 4, 11, 11, 1, 9, 10, 8, 6, 7]

/-- The TYPE of the first grant smaller than the source's. -/
def grantShort (src mine : List Nat) : Option Nat :=
  ((List.range 11).find? (fun i => mine.getD i 0 < src.getD i 0)).map (fun i => grantTypes.getD i 1)

def restoreFn (fid : Nat) (t : Tlv) (s : State) : State :=
  let q := (takeCounted (t.ws.drop 24)).1
  let reqs := (List.range (q.length / 8)).map (fun i => ({ slot := BitVec.ofNat 512 (unwide ((q.drop (8 * i)).take 8)) } : Req))
  let s := s.modFn fid ({ · with drvReady := t.b 12 })
  if !hasMbx s fid then s
  else s.modMbx (.fn fid) (fun m => { m with
    reqBase := t.w 13, rspBase := t.w 14, log2 := t.w 15, idxAddr := t.w 16, enable := t.b 17, poll := t.b 18, vector := t.w 19
    state := t.w 20, err := t.w 21, lastRead := t.w 22, done := t.w 23, queue := reqs })

def restoreRing (t : Tlv) : Ring :=
  { base := t.w 1, log2 := t.w 2, type := t.w 3, idxAddr := t.w 4, ci := t.w 5, enable := t.b 6, cplRing := t.w 7, spread := t.b 8
    vlanStrip := t.b 9, state := t.w 10, modCount := t.w 11, modTimer := t.w 12, vector := t.w 13, poll := t.b 14, cplCi := t.w 15
    err := t.w 16, lastRead := t.w 17, done := t.w 18, unann := t.w 19, short := (takeCounted (t.ws.drop 20)).1 }

def restoreMsix (t : Tlv) (f : Fn) : Fn :=
  let (a, r) := takeCounted t.ws
  let (b, r) := takeCounted r
  { f with
    msixTbl := (pairsOf a).foldl (fun m e => mput m e.1 e.2) []
    unmasked := marks b
    vecPending := marks (takeCounted r).1 }

/-- Groups of `n` words. -/
def chunksOf (n : Nat) (l : List Nat) : List (List Nat) := (List.range (l.length / n)).map (fun i => (l.drop (n * i)).take n)

def restoreCtrl (fid : Nat) (t : Tlv) (s : State) : State :=
  let (cd, r) := takeCounted (t.ws.drop 18)
  let (aers, r) := takeCounted r
  let (errs, r) := takeCounted r
  let (events, r) := takeCounted r
  let (changed, r) := takeCounted r
  let s := s.modCtrl fid (fun c => { c with
    cc := t.w 0, rdy := t.b 1, cfs := t.b 2, shst := t.w 3, fenced := t.b 4, aqa := t.w 5, asq := t.w 6, acq := t.w 7
    feats := { arb := t.w 8, tempOver := t.w 9, tempUnder := t.w 10, errRec := t.w 11, thr := t.w 12, time := t.w 13, cd := marks cd
               wan := t.w 14, async := t.w 15, orden := t.b 16 }
    errCount := t.w 17
    errs := (chunksOf 6 errs).map (fun e => { count := e.getD 0 0, sqid := e.getD 1 0, cid := e.getD 2 0, status := e.getD 3 0
                                              lba := e.getD 4 0, nsid := e.getD 5 0 })
    events := (chunksOf 3 events).map (fun e => (e.getD 0 0, e.getD 1 0, e.getD 2 0))
    changed
    masked := (takeCounted r).1
    aers := [] })
  (chunksOf 10 aers).foldl (fun s e =>
    let seq := s.sto.nextSeq
    let c : NvCmd := { seq, fid, sqid := e.getD 0 0, cid := e.getD 1 0, sqe := unwide (e.drop 2), phase := .started }
    (s.modSto (fun k => { k with nextSeq := seq + 1, cmds := k.cmds ++ [c] })).modCtrl fid (fun k => { k with aers := k.aers ++ [seq] })) s

def restoreQueue (fid : Nat) (t : Tlv) (s : State) : State :=
  let sq : NvSq := { base := t.w 2, size := t.w 3, cq := t.w 4, head := t.w 5, tail := t.w 6, deleting := t.b 7 }
  let cq : NvCq := { base := t.w 2, size := t.w 3, iv := t.w 4, ien := t.b 5, head := t.w 6, tail := t.w 7, phase := t.b 8, held := t.w 9 }
  s.modCtrl fid (fun c => if t.w 1 = 0 then { c with sqs := mput c.sqs (t.w 0) sq } else { c with cqs := mput c.cqs (t.w 0) cq })

/-- A context, its OWNER field naming the VF's own FID where it named the source's. -/
def restoreCtx (src fid i : Nat) (t : Tlv) (s : State) : State :=
  let x := unwide ((t.ws.drop 1).take 4)
  let s := s.setCkv i (if ckvOwner x = src then setBits x 32 16 fid else x)
  s.modCip (fun c => { c with
    ckvFlow := if t.b 5 then mput c.ckvFlow i (unwide ((t.ws.drop 6).take 5)) else mdel c.ckvFlow i
    ckvPart := match (takeCounted (t.ws.drop 11)).1 with
      | [] => mdel c.ckvPart i
      | l => mput c.ckvPart i (l.map (BitVec.ofNat 8)) })

def restoreSa (g : Grants) (tenant fid : Nat) (t : Tlv) (s : State) : State :=
  let a : Sa :=
    { kind := t.w 1, suite := t.w 2, tenant, slot := (g.keyFirst + t.w 3) % 262144, owner := fid, warn := t.w 4, spi := t.w 5, salt := t.w 6
      window := t.w 7, long := t.b 8, home := t.w 9, octet := t.w 10, sc := t.w 11, an := t.w 12, offset := t.w 13, validate := t.w 14
      sci := t.w 15, state := t.w 16, next := t.w 17, highest := t.w 18, exhaustedEvent := t.b 19
      seen := marks (takeCounted (t.ws.drop 20)).1 }
  s.modCip (fun c => { c with sas := mput c.sas (g.saFirst + t.w 0) a })

/-- A key slot, sealed under this device's KEK. -/
def restoreKey (g : Grants) (tenant : Nat) (t : Tlv) (s : State) : State :=
  let k := g.keyFirst + t.w 0
  (keyStore k (t.w 1) (t.w 2) tenant (leBytes (t.w 4) (unwide ((t.ws.drop 5).take 8))) s).modKey k ({ · with kcv := t.w 3 })
  |> volReopen k

def restoreTokens (s : State) (t : Tlv) : Tokens :=
  { tc := toSigned (t.w 1), tp := toSigned (t.w 2), at_ := s.tick, params := if t.b 3 then some (unwide ((t.ws.drop 5).take 4)) else none }

/-- A FUNCTION destination that names the source FID names the VF's own. -/
def reDest (src fid d : Nat) : Nat := if destType d = 2 && destArg d = src then mkDest 2 fid else d

/-- An owned table entry, and the table it goes to. -/
def restoreEntry (src fid : Nat) (t : Tlv) : Nat × Nat × Nat :=
  let e := unwide (t.ws.drop 1)
  match t.w 0 with
  | 0 => (3, 0, setBits (setBits e 320 24 (reDest src fid (flowDest e))) 360 16 (if flowOwner e = src then fid else flowOwner e))
  | k => (2, if k = 1 then pipeOfHost (fidPort fid) else k - 2,
      setBits (setBits e 96 24 (reDest src fid (l2Dest e))) 80 16 (if l2SrcHost e && l2Src e = src then fid else l2Src e))

/-- The table entries, unless one finds no place or they exceed the quotas. -/
def restoreEntries (g : Grants) (es : List (Nat × Nat × Nat)) (s : State) : Option State :=
  if g.flow < (es.filter (·.1 = 3)).length || g.l2 < (es.filter (·.1 = 2)).length then none
  else es.foldl (fun a e => match a with
    | some s => match tblPlace e.1 e.2.1 e.2.2 s with
      | (s, true) => some s
      | (_, false) => none
    | none => none) (some s)

/-- Installs one TLV. -/
def restoreTlv (src fid tenant : Nat) (g : Grants) (t : Tlv) (s : State) : State :=
  match t.type with
  | 1 => restoreFn fid t s
  | 2 => s.modRing fid (t.w 0) (fun _ => restoreRing t)
  | 3 => s.modFn fid (restoreMsix t)
  | 4 => if isNvme s fid then restoreCtrl fid t s else s
  | 5 => if isNvme s fid then restoreQueue fid t s else s
  | 6 => restoreCtx src fid (g.ckvFirst + t.w 0) t s
  | 7 => restoreSa g tenant fid t s
  | 8 => restoreKey g tenant t s
  | 9 => s.modPkt (fun p => { p with polTok := mput p.polTok (g.polFirst + t.w 0) (restoreTokens s t) })
  | 10 => s.modPkt (fun p => { p with
      nodeTok := mput p.nodeTok (nodeAt (g.nodeFirst + t.w 0)) (restoreTokens s t)
      deficit := mput p.deficit (nodeAt (g.nodeFirst + t.w 0)) (t.w 4) })
  | 12 => { s with exch := wrN (zeroN s.exch (fid * 4096) 4096) (fid * 4096) ((t.ws.take 512).flatMap (leBytes 8)) }
  | _ => s

/-- The whole blob installed: the answer is what the command answers. -/
def restoreAll (fid saveId src : Nat) (ts : List Tlv) (s : State) : State × Reply :=
  let g := grantsOf s fid
  match ts.find? (·.type = 1) with
  | none => (s, badParam 8)
  | some t1 =>
    if ts.any (fun t => !tlvFits g t) && (grantShort (t1.ws.take 11) g.list).isNone then (s, badParam 8)
    else match grantShort (t1.ws.take 11) g.list with
      | some d => (s, failsWith stNoResource d)
      | none =>
        match restoreEntries g ((ts.filter (·.type = 11)).map (restoreEntry src fid)) s with
        | none => (s, failsWith stNoResource 11)
        | some s1 =>
          let s := ts.foldl (fun s t => restoreTlv src fid (tenantOf s fid) g t s) s1
          ({ s.modFn fid ({ · with saved := false }) with migSaves := (saveId :: s.migSaves).take 4096 }, ok)

/-- The header is a blob's, and the blob has the length it says. -/
def blobOk (b : List Byte) : Bool :=
  80 ≤ b.length && ofLe (sliceB b 0 4) = 0x4D475A45 && ofLe (sliceB b 4 2) = 1 && b.length = 80 + ofLe (sliceB b 0x1C 4)
    && 16 ≤ ofLe (sliceB b 0x1C 4) && ofLe (sliceB b 0x1C 4) % 8 = 0

def execMigRestore (x : XCall) (fid : Nat) (blob : List Byte) : State → Host.Outcome State Fault Refusal :=
  run (wfMigRestore x fid blob) (xop x 0x1005 fun c s =>
    let id := ofLe (sliceB blob 8 8)
    let n := ofLe (sliceB blob 0x1C 4)
    let wrapped := sliceB blob 64 n
    if !c.inPort (fidPort fid) then (s, fails stDenied)
    else if alarmLatched s then (s, fails stKeysErased)
    else if !vfThere s fid || !(fnD s fid).frozen then (s, fails stState)
    else match migMaterial s with
      | none => (s, fails stState)
      | some key =>
        let kw := migDerive key labelKw id
        if !blobOk blob then (s, badParam 8)
        else match migTurn c.fid blob.length s with
        | (false, s) => (s, .hold)
        | (true, s) =>
        let s := migMoved blob.length s
        if !cipherOk 2 (migDerive key labelAuth id) (migIv id) (blob.take (64 + n)) [] (blob.drop (64 + n))
            || !cipherOk 9 kw [] [] wrapped [] then (s, fails stSigFail)
        else if at8 blob 6 ≠ (if isNvme s fid then 2 else 1) then (s, fails stState)
        else if s.migSaves.contains id then (s, fails stExists)
        else match readTlvs (n / 8 + 1) (fit (n - 8) (cipherRun 9 kw [] [] wrapped)) with
          | none => (s, badParam 8)
          | some ts => restoreAll fid id (ofLe (sliceB blob 0x18 2)) ts s)

end Sys2Proof.Machine
end

