-- ==== Sys2Proof/Machine/Skink.lean ====
section
/-! DEFINITION. What the Skink threads do: channels, forks and joins, thread control, windows, faults, the sentinel, the debugger (R311 to
R339). -/

namespace Sys2Proof.Machine

/-! ### Running (R311, R327, R336, R338) -/

/-- The partition of a thread, when there is one. -/
def partOf (s : State) (tid : Nat) : Part := (part? s (partOfThread s tid)).getD {}

/-- The thread is its partition's supervisor. -/
def isSuper (s : State) (tid : Nat) : Bool := (part? s (partOfThread s tid)).isSome && supervisorOf (partOf s tid) = tid

/-- The thread's core issues for it: its partition runs, its cluster serves, and the cluster holds elastic credits under no hold, but for a
supervisor, whose issue is the cluster's floor (R33, R34, R338). -/
def coreIssues (s : State) (tid : Nat) : Bool :=
  s.phase = .running && (partOf s tid).running && domServes s (.cluster (tid / 64)) && (isSuper s tid || elasticOn s (.cluster (tid / 64)))

/-- The thread is ready to issue. -/
def threadReady (s : State) (tid : Nat) : Bool := coreIssues s tid && (threadOf s tid).state = 2

/-- The issue table of a core (R316). -/
def slotsOf (s : State) (core : Nat) : Nat := mgetD s.skk.slots core slotsReset

/-- The thread that a slot of a core's table issues: its own, or the next ready one in ascending order, wrapping; an empty slot passes from the
thread that its bits name (R316; log entry 113). -/
def slotThread (s : State) (core slot : Nat) : Option Nat :=
  let v := bits (slotsOf s core) (4 * slot) 4
  let order := (List.range 8).map (fun j => core * 8 + (v + j) % 8)
  (if v < 8 then order.drop 1 ++ order.take 1 else order).find? (threadReady s)

/-- Slots that the core takes up to the next one that issues the thread; none when none does. -/
def slotsTo (s : State) (tid : Nat) : Option Nat :=
  let core := tidCore tid
  let at_ := mgetD s.skk.cycles core 0
  ((List.range 16).find? (fun i => slotThread s core ((at_ + i) % 16) = some tid)).map (· + 1)

/-- The thread can execute an instruction: it is ready, and a slot of its core's table comes to it. -/
def canRun (s : State) (tid : Nat) : Bool := threadReady s tid && (slotsTo s tid).isSome

/-- An instruction has ended: it is counted where it retired, and a thread that single-steps halts after it. -/
def settle (tid : Nat) (s : State) : State :=
  let t := threadOf s tid
  let s := if t.trapped then s.modThread tid ({ · with trapped := false })
    else if t.state = 2 || t.state = 4 then s.modThread tid ({ · with instret := t.instret + 1 }) else s
  if t.stepping && t.state = 2 then s.modThread tid ({ · with state := 4, stepping := false }) else s

/-- What a thread's instruction does in a slot of its core: `t` is what it leaves of the state `s` that it issued in. -/
def issued (tid : Nat) (s t : State) : State :=
  let n := (slotsTo s tid).getD 0
  settle tid { t with skk := { t.skk with cycles := mupd t.skk.cycles (tidCore tid) 0 (· + n) } }

/-- A thread executes an instruction. -/
def act (tid : Nat) (f : State → State) (s : State) : State := if canRun s tid then issued tid s (f s) else s

/-- A thread's store to a window that can wait: executed, or tried again (R324, R325). -/
def actWin (tid : Nat) (f : State → State) (s : State) : State :=
  let t := threadOf s tid
  if canRun s tid then issued tid s (f s)
  else if coreIssues s tid && t.state = 3 && t.wait = some .window then settle tid (f (s.modThread tid ({ · with state := 2, wait := none })))
  else s

/-- A thread waits. -/
def block (tid : Nat) (w : TWait) (s : State) : State := s.modThread tid ({ · with state := 3, wait := some w })

/-- A result in a register. -/
def setRd (tid rd v : Nat) (s : State) : State := s.modThread tid (fun t => t.setReg rd v)

/-! ### Faults and exceptions (R315, R317, R332, R333) -/

/-- A fault record's message: to the fault channel, or to the overflow queue while it is full. -/
def faultPost (p : Nat) (m : Msg) (s : State) : State :=
  match part? s p with
  | none => s
  | some q =>
    if q.overflow.isEmpty && chanRoom s (faultChan q) then chPush (faultChan q) m s
    else s.modPart p (fun q => { q with overflow := q.overflow ++ [m] })

/-- A thread fault: the thread halts and its record is posted; the supervisor's own stops the partition, with an event. -/
def threadFault (tid code epc tval addr : Nat) (s : State) : State :=
  let p := partOfThread s tid
  let q := partOf s tid
  let w0 := pack [(8, code), (8, 0), (10, tid), (6, 0), (8, p), (24, q.faultSeq)]
  let s := s.modPart p (fun q => { q with faultSeq := q.faultSeq + 1 })
  let s := s.modThread tid ({ · with state := 5, cause := code, wait := none, stepping := false })
  if supervisorOf q = tid then (partStop p s).event 0x0B01 (.dev p) w0
  else faultPost p { words := [w0, epc, tval, s.time, addr], kind := 5 } s

/-- An Xtirzu fault: its `epc` and `tval` are the thread's, which no rule ties to the command. -/
def xfault (tid code addr : Nat) (s : State) : State :=
  let (e, s) := s.drawBelow (2 ^ 64)
  let (v, s) := s.drawBelow (2 ^ 64)
  threadFault tid code e v addr s

/-- An exception: taken at the trap vector, or a thread fault while that is zero. -/
def exception (tid cause epc tval addr : Nat) (vectored : Bool) (s : State) : State :=
  if vectored then
    let (pc, s) := s.drawBelow (2 ^ 64)
    let mode := if (partOf s tid).vendor then 3 else 1
    s.modThread tid ({ · with mode := mode, epc := epc, xcause := cause, xtval := tval, pc := pc, trapped := true })
  else threadFault tid cause epc tval addr s

/-- An exception of an instruction whose place the command does not give. -/
def xexception (tid cause addr : Nat) (s : State) : State :=
  let (e, s) := s.drawBelow (2 ^ 64)
  let (v, s) := s.drawBelow (2 ^ 64)
  let (b, s) := s.drawBelow 2
  exception tid cause e v addr (b = 1) s

/-- Illegal instruction. -/
def illegal (tid : Nat) (s : State) : State := xexception tid 2 0 s

/-! ### Channels (R318 to R322) -/

/-- The thread may commit to the channel. -/
def mayCommit (s : State) (tid ch : Nat) : Bool :=
  (partOf s tid).owns ch || (isExternal s ch && ((partOf s tid).vendor
    || ((chanOf s ch).ext && (chanOf s ch).peer ≠ 0 && (chanOf s ch).peer = partOfThread s tid)))

/-- A staged message. -/
def stagedMsg (s : State) (tid n : Nat) : Msg :=
  { words := (List.range n).map (fun i => mgetD (threadOf s tid).staging i 0), kind := 0, tid, part := partOfThread s tid }

/-- A commit delivers: the message joins, and staging is cleared. A message on the channel by which MGMT0 frames leave goes out as its frame (R58). -/
def commitNow (tid ch n rd : Nat) (s : State) : State :=
  let m := stagedMsg s tid n
  let s := s.modThread tid (fun t => { t.setReg rd 0 with state := 2, wait := none, staging := [] })
  let s := s.modChan ch (fun c => { c with commits := c.commits.filter (· ≠ tid) })
  if ch = mgmt0TxChan s && m.part = partOfChan s ch then mgmt0Commit m.part m s else chPush ch m s

/-- CH.CMT. -/
def chCmt (tid ch n rd : Nat) (nb : Bool) (s : State) : State :=
  match part? s (partOfChan s ch) with
  | none => setRd tid rd 2 s
  | some q =>
    if !mayCommit s tid ch then xfault tid 24 ch s
    else if !q.running then setRd tid rd 2 s
    else if chanRoom s ch && (chanOf s ch).commits.isEmpty then commitNow tid ch n rd s
    else if nb then setRd tid rd 1 s
    else block tid (.commit ch n rd) (s.modChan ch (fun c => { c with commits := c.commits ++ [tid] }))

/-- Info of a received message (R319). -/
def msgInfo (ch : Nat) (m : Msg) : Nat := pack [(4, m.words.length), (4, m.kind), (8, 0), (16, ch), (10, m.tid), (6, 0), (8, m.part)]

/-- A fault record that found the channel full takes the room (R333); the sentinel's message counts as read (R335). -/
def faultRead (ch : Nat) (s : State) : State :=
  let p := partOfChan s ch
  match part? s p with
  | none => s
  | some q =>
    if faultChan q ≠ ch then s
    else
      let s := s.modPart p ({ · with sentinel := false })
      match q.overflow with
      | m :: r => if chanRoom s ch then chPush ch m (s.modPart p ({ · with overflow := r })) else s
      | [] => s

/-- Receives the oldest message of a channel. -/
def receive (tid ch rd : Nat) (s : State) : State :=
  match (chanOf s ch).msgs with
  | [] => s
  | m :: r =>
    let s := s.modChan ch ({ · with msgs := r })
    let s := (List.range 8).foldl (fun s i => setRd tid (10 + i) (m.words.getD i 0) s) s
    faultRead ch (endWait tid rd (msgInfo ch m) s)

/-- Received messages leave a0–a7 to the words: an rd among them is illegal. -/
def rdBad (rd : Nat) : Bool := 10 ≤ rd && rd ≤ 17

/-- CH.RD, and CH.TRY with `try_`. -/
def chRd (tid ch rd : Nat) (try_ : Bool) (s : State) : State :=
  if rdBad rd then illegal tid s
  else if !(partOf s tid).owns ch then xfault tid 24 ch s
  else if !(chanOf s ch).msgs.isEmpty then receive tid ch rd s
  else if try_ then setRd tid rd 0 s
  else block tid (.read ch rd) s

/-- The channel of a set that has a message, round-robin after the bit last received from. -/
def anyReady (s : State) (tid base mask : Nat) : Option Nat :=
  let start := match (threadOf s tid).rr with
    | some b => b + 1
    | none => 0
  ((List.range 64).map (fun i => (start + i) % 64)).find? (fun i => bit mask i && !(chanOf s (base + i)).msgs.isEmpty)

/-- Receives from a set. -/
def receiveAny (tid base mask rd : Nat) (s : State) : State :=
  match anyReady s tid base mask with
  | some i => receive tid (base + i) rd (s.modThread tid ({ · with rr := some i }))
  | none => s

/-- CH.WAITANY. A base that is no multiple of 64 is an operation that R322 does not allow. -/
def chWaitany (tid base mask rd : Nat) (s : State) : State :=
  if rdBad rd then illegal tid s
  else if base % 64 ≠ 0 then xfault tid 24 base s
  else match (List.range 64).find? (fun i => bit mask i && !(partOf s tid).owns (base + i)) with
    | some i => xfault tid 24 (base + i) s
    | none => if (anyReady s tid base mask).isSome then receiveAny tid base mask rd s else block tid (.any base mask rd) s

def execChWr (tid idx word : Nat) : State → Host.Outcome State Fault Refusal :=
  run (wfChWr tid idx word) (act tid (fun s => s.modThread tid (fun t => { t with staging := mput t.staging idx word })))

def execChCmt (tid chan n rd : Nat) (nb : Bool) : State → Host.Outcome State Fault Refusal :=
  run (wfChCmt tid chan n rd nb) (act tid (chCmt tid chan n rd nb))

/-- Commits are served in the order they began. -/
def execChCmtResume (tid : Nat) : State → Host.Outcome State Fault Refusal :=
  run (wfChCmtResume tid) fun s =>
    match (threadOf s tid).state, (threadOf s tid).wait with
    | 3, some (.commit ch n rd) =>
      if coreIssues s tid && chanRoom s ch && (chanOf s ch).commits.head? = some tid then settle tid (commitNow tid ch n rd s) else s
    | _, _ => s

def execChRd (tid chan rd : Nat) : State → Host.Outcome State Fault Refusal := run (wfChRd tid chan rd) (act tid (chRd tid chan rd false))
def execChTry (tid chan rd : Nat) : State → Host.Outcome State Fault Refusal := run (wfChTry tid chan rd) (act tid (chRd tid chan rd true))

def execChWaitany (tid base mask rd : Nat) : State → Host.Outcome State Fault Refusal :=
  run (wfChWaitany tid base mask rd) (act tid (chWaitany tid base mask rd))

def execChannelWaitWake (tid : Nat) : State → Host.Outcome State Fault Refusal :=
  run (wfChannelWaitWake tid) fun s =>
    if !coreIssues s tid || (threadOf s tid).state ≠ 3 then s
    else match (threadOf s tid).wait with
      | some (.read ch rd) => settle tid (receive tid ch rd s)
      | some (.any base mask rd) => settle tid (receiveAny tid base mask rd s)
      | _ => s

/-! ### Threads of threads (R329 to R331) -/

/-- The pool thread that FORK takes: on the core with the fewest threads out of the pool, the lowest thread ID. -/
def forkPick (s : State) (q : Part) : Option Nat :=
  let free (c : Nat) : List Nat := ((List.range 8).map (· + 8 * c)).filter (fun t => (threadOf s t).state = 1)
  let best := q.cores.foldl (fun (b : Option Nat) c => match b with
    | some x => if (free x).length < (free c).length then some c else b
    | none => if (free c).isEmpty then none else some c) none
  best.bind (fun c => (free c).head?)

/-- FORK. -/
def forkThread (tid entry arg rd : Nat) (s : State) : State :=
  let q := partOf s tid
  if !q.cluster then illegal tid s
  else match forkPick s q with
    | none => setRd tid rd (2 ^ 64 - 1) s
    | some t =>
      let child : Thread := { state := 2, pc := entry, regs := mput [(11, t)] 10 arg, mode := (threadOf s tid).mode, forked := true
                              detached := rd = 0, cause := (threadOf s t).cause }
      setRd tid rd t (s.modThread t (fun _ => child))

def execFork (tid entry arg rd : Nat) : State → Host.Outcome State Fault Refusal :=
  run (wfFork tid entry arg rd) (act tid (forkThread tid entry arg rd))

/-- A thread returns to the pool, or becomes STOPPED when it was seeded; its fault code stays. -/
def threadHome (t : Nat) (s : State) : State :=
  s.modThread t (fun x => { state := if x.forked then 1 else 0, mode := x.mode, cause := x.cause })

/-- The thread can be joined. -/
def joinable (s : State) (tid target : Nat) : Bool :=
  let t := threadOf s target
  target < 1024 && partOfThread s target = partOfThread s tid && t.forked && !t.detached && t.joiner.isNone && t.state ≠ 1

/-- JOIN. -/
def joinThread (tid target rd : Nat) (s : State) : State :=
  if !joinable s tid target then xfault tid 25 0 s
  else if (threadOf s target).state = 6 then endWait tid rd (threadOf s target).exit (threadHome target s)
  else block tid (.join target rd) (s.modThread target ({ · with joiner := some tid }))

def execJoin (tid target rd : Nat) : State → Host.Outcome State Fault Refusal :=
  run (wfJoin tid target rd) (act tid (joinThread tid target rd))

/-- A JOIN that waits on a thread completes. -/
def joinDone (target v : Nat) (s : State) : State :=
  match (threadOf s target).joiner with
  | some j => match (threadOf s j).wait with
    | some (.join _ rd) => endWait j rd v s
    | _ => s
  | none => s

/-- THREAD.EXIT (R330). -/
def threadExit (tid value : Nat) (s : State) : State :=
  let p := partOfThread s tid
  let t := threadOf s tid
  if value = 2 ^ 63 then xfault tid 25 0 s
  else if isSuper s tid then (partStop p s).event 0x0B02 (.dev p) value
  else
    let s := t.held.foldl (fun s i => ctxRelease i s) s
    if t.forked && !t.detached && t.joiner.isNone then
      s.modThread tid ({ · with state := 6, exit := value, staging := [], held := [], stepping := false })
    else threadHome tid (joinDone tid value s)

def execThreadExit (tid value : Nat) : State → Host.Outcome State Fault Refusal :=
  run (wfThreadExit tid value) (act tid (threadExit tid value))

/-- The target is a thread of the caller's partition. -/
def sameParty (s : State) (tid target : Nat) : Bool := target < 1024 && partOfThread s target = partOfThread s tid

def execTrelease (tid target : Nat) : State → Host.Outcome State Fault Refusal :=
  run (wfTrelease tid target) (act tid fun s =>
    if !isSuper s tid then xfault tid 26 0 s
    else if !sameParty s tid target || (threadOf s target).state ≠ 0 then xfault tid 25 0 s
    else s.modThread target ({ · with state := 2, mode := if (partOf s tid).vendor then 3 else 1 }))

/-- What a thread waits for forgets it. -/
def leaveWait (t : Nat) (s : State) : State :=
  match (threadOf s t).wait with
  | some (.commit ch _ _) => s.modChan ch (fun c => { c with commits := c.commits.filter (· ≠ t) })
  | some (.join x _) => s.modThread x ({ · with joiner := none })
  | _ => s

def execTreset (tid target : Nat) : State → Host.Outcome State Fault Refusal :=
  run (wfTreset tid target) (act tid fun s =>
    if !isSuper s tid then xfault tid 26 0 s
    else if !sameParty s tid target || target = tid then xfault tid 25 0 s
    else
      let s := leaveWait target s
      let s := (threadOf s target).held.foldl (fun s i => ctxRelease i s) s
      threadHome target (joinDone target (2 ^ 63) s))

/-! ### Illegal encodings, control registers, the channel table (R314, R317, R321, R327) -/

/-- An Xtirzu instruction as its encoding names it; the operands named after registers are register numbers. -/
inductive Xtirzu
  | chWr (idx rs1 : Nat)
  | chCmt (rd rs1 n : Nat) (nb : Bool)
  | chRd (rd rs1 : Nat)
  | chTry (rd rs1 : Nat)
  | chWaitany (rd rs1 rs2 : Nat)
  | fork (rd rs1 rs2 : Nat)
  | join (rd rs1 : Nat)
  | threadExit (rs1 : Nat)
  | trelease (rs1 : Nat)
  | treset (rs1 : Nat)
  deriving DecidableEq, Repr

/-- The instruction that a word of the custom-0 opcode encodes; none for a combination of funct3 and funct7 that R317 does not assign, and for a
word of another opcode. -/
def xtirzuOf (i : Nat) : Option Xtirzu :=
  let f7 := bits i 25 7
  let rs2 := bits i 20 5
  let rs1 := bits i 15 5
  let rd := bits i 7 5
  if bits i 0 7 ≠ 0x0B then none
  else match bits i 12 3, f7 with
    | 0, f7 => if f7 < 8 then some (.chWr f7 rs1) else none
    | 1, f7 => if f7 < 16 then some (.chCmt rd rs1 (f7 % 8 + 1) (bit f7 3)) else none
    | 2, 0 => some (.chRd rd rs1)
    | 3, 0 => some (.chTry rd rs1)
    | 4, 0 => some (.chWaitany rd rs1 rs2)
    | 5, 0 => some (.fork rd rs1 rs2)
    | 5, 1 => some (.join rd rs1)
    | 5, 2 => some (.threadExit rs1)
    | 5, 3 => some (.trelease rs1)
    | 5, 4 => some (.treset rs1)
    | _, _ => none

/-- An integer register of a thread; x0 reads zero. -/
def xreg (s : State) (tid r : Nat) : Nat := if r = 0 then 0 else mgetD (threadOf s tid).regs r 0 % 2 ^ 64

/-- A thread executes an instruction: the command it is, with the operands read from the thread's registers (R317). A channel ID is 16 bits. -/
def xtirzuRun (tid : Nat) (x : Xtirzu) (s : State) : Host.Outcome State Fault Refusal :=
  match x with
  | .chWr idx rs1 => execChWr tid idx (xreg s tid rs1) s
  | .chCmt rd rs1 n nb => execChCmt tid (xreg s tid rs1 % 65536) n rd nb s
  | .chRd rd rs1 => execChRd tid (xreg s tid rs1 % 65536) rd s
  | .chTry rd rs1 => execChTry tid (xreg s tid rs1 % 65536) rd s
  | .chWaitany rd rs1 rs2 => execChWaitany tid (xreg s tid rs2 % 65536) (xreg s tid rs1) rd s
  | .fork rd rs1 rs2 => execFork tid (xreg s tid rs1) (xreg s tid rs2) rd s
  | .join rd rs1 => execJoin tid (xreg s tid rs1) rd s
  | .threadExit rs1 => execThreadExit tid (xreg s tid rs1) s
  | .trelease rs1 => execTrelease tid (xreg s tid rs1) s
  | .treset rs1 => execTreset tid (xreg s tid rs1) s

/-- An Xtirzu encoding that is illegal for the thread: unassigned, an rd among a0–a7 in a receive, or FORK in a core partition. -/
def xtirzuBad (s : State) (tid i : Nat) : Bool :=
  bits i 0 7 = 0x0B && match xtirzuOf i with
    | none => true
    | some (.chRd rd _) => rdBad rd
    | some (.chTry rd _) => rdBad rd
    | some (.chWaitany rd _ _) => rdBad rd
    | some (.fork _ _ _) => !(partOf s tid).cluster
    | some _ => false

/-- A word of the custom-0 opcode that is not illegal for the thread runs as the instruction it encodes; a word of another opcode is no Xtirzu
instruction and changes nothing here. -/
def execXtirzuIllegal (tid epc instr : Nat) (vectored : Bool) (s : State) : Host.Outcome State Fault Refusal :=
  match wfXtirzuIllegal tid epc instr vectored && !xtirzuBad s tid instr, xtirzuOf instr with
  | true, some x => xtirzuRun tid x s
  | _, _ => run (wfXtirzuIllegal tid epc instr vectored) (act tid fun s =>
      if xtirzuBad s tid instr then exception tid 2 epc instr 0 vectored s else s) s

/-- `thid` (R327). -/
def thidOf (s : State) (tid : Nat) : Nat :=
  let q := partOf s tid
  pack [(10, tid), (6, 0), (8, partOfThread s tid), (16, q.tenant), (1, b2n q.vendor), (1, b2n (isSuper s tid)),
    (1, b2n (isSuper s tid && !(chanOf s (faultChan q)).msgs.isEmpty))]

/-- A thread-control register as the supervisor reads it. -/
def tcsrRead (s : State) (tid csr : Nat) : Nat :=
  let t := threadOf s tid
  let x := threadOf s t.tsel
  match csr with
  | 0x5C0 => t.tsel
  | 0x5C1 => x.pc
  | 0x5C2 => t.tregsel
  | 0x5C3 => mgetD x.regs t.tregsel 0
  | 0x5C4 => x.state
  | 0x5C5 => slotsOf s (tidCore t.tsel)
  | _ => x.cause

/-- A write of a thread-control register; none where it raises an illegal-instruction exception. -/
def tcsrWrite (tid csr v : Nat) (s : State) : Option State :=
  let t := threadOf s tid
  match csr with
  | 0x5C0 => some (s.modThread tid ({ · with tsel := v % 1024 }))
  | 0x5C1 => if (threadOf s t.tsel).state = 0 then some (s.modThread t.tsel ({ · with pc := v })) else none
  | 0x5C2 => some (s.modThread tid ({ · with tregsel := v % 64 }))
  | 0x5C3 => if (threadOf s t.tsel).state = 0 then some (s.modThread t.tsel (fun x => x.setReg t.tregsel v)) else none
  | 0x5C5 => some { s with skk := { s.skk with slots := mput s.skk.slots (tidCore t.tsel) v } }
  | _ => none

def execThreadControlCsr (tid csr : Nat) (write : Bool) (value rd : Nat) : State → Host.Outcome State Fault Refusal :=
  run (wfThreadControlCsr tid csr write value rd) (act tid fun s =>
    if csr = 0xDC0 then (if write then illegal tid s else setRd tid rd (thidOf s tid) s)
    else if !isSuper s tid || (csr ≠ 0x5C0 && csr ≠ 0x5C2 && !sameParty s tid (threadOf s tid).tsel) then xfault tid 26 0 s
    else
      let old := tcsrRead s tid csr
      if !write then setRd tid rd old s
      else match tcsrWrite tid csr value s with
        | some s => setRd tid rd old s
        | none => illegal tid s)

/-- How a thread accesses memory. -/
inductive MapAccess
  | load | store | fetch
  deriving DecidableEq, Repr

/-- The access-fault cause of an access (R314). -/
def MapAccess.cause : MapAccess → Nat
  | .fetch => 1 | .load => 5 | .store => 7

/-- Bases of the address map's windows (R314). -/
def chanTable : Nat := 0x100000
def cipherWindow : Nat := 0x110000
def packetWindow : Nat := 0x111000
def contextWindow : Nat := 0x112000

/-- An access of `n` bytes at an address that a thread's map allows (R314). -/
def mapAllows (s : State) (tid addr n : Nat) (a : MapAccess) : Bool :=
  let within (base size : Nat) : Bool := base ≤ addr && addr + n ≤ base + size
  let q := partOf s tid
  (within 0 0x40000 && q.vendor && (threadOf s tid).mode = 3 && a ≠ .store)
    || (within chanTable 0x10000 && (a = .load || (a = .store && isSuper s tid)))
    || (within cipherWindow 0x1000 && a ≠ .fetch)
    || (within packetWindow 0x1000 && a ≠ .fetch)
    || (within contextWindow 0x1000 && q.vendor && a ≠ .fetch)
    || q.inRegion addr n

/-- A load or store of a thread at an address of the map: `f`, or the access fault (R314). -/
def mapped (tid addr n : Nat) (a : MapAccess) (f : State → State) (s : State) : State :=
  if mapAllows s tid addr n a then f s else xexception tid a.cause addr s

/-- An entry of the channel table as a load reads it: zero outside the partition's range; the fault channel's is fixed, external with PEER 0
(R321). -/
def entryRead (s : State) (tid ch : Nat) : Nat :=
  let q := partOf s tid
  let c := if faultChan q = ch then { chanOf s ch with kind := 0, ext := true, armed := false, peer := 0, period := 0, arg := 0 } else chanOf s ch
  if !q.owns ch then 0
  else pack [(2, c.kind), (1, b2n c.ext), (1, b2n c.armed), (8, c.peer), (4, 0), (5, c.msgs.length), (11, 0), (32, c.period), (64, c.arg)]

/-- A store to half an entry of the channel table; one that writes KIND, EXT and PEER discards the messages held (R321). -/
def entryWrite (half v : Nat) (c : Channel) : Channel :=
  if half = 1 then (if c.kind = 2 then c else { c with arg := v })
  else if bits v 0 2 = 3 then c
  else
    let d := { c with kind := bits v 0 2, ext := bit v 2, armed := bit v 3, peer := bits v 4 8, period := bits v 32 32, msgs := [] }
    if d.kind = 2 && c.kind ≠ 2 then { d with arg := 0, ticks := 0 } else d

def execChannelEntryWrite (tid chan half value : Nat) : State → Host.Outcome State Fault Refusal :=
  run (wfChannelEntryWrite tid chan half value) (act tid (mapped tid (chanTable + 16 * (chan % 4096) + 8 * half) 8 .store fun s =>
    if !(partOf s tid).owns chan || faultChan (partOf s tid) = chan then s
    else s.modChan chan (entryWrite half value)))

def execEcallCustomer (tid epc tval : Nat) : State → Host.Outcome State Fault Refusal :=
  run (wfEcallCustomer tid epc tval) (act tid fun s =>
    if (partOf s tid).vendor then s else threadFault tid 26 epc tval 0 s)

/-- A fault the thread's own execution meets. Code 27 also leaves a record with the fault collector. -/
def execThreadFault (tid code epc tval addr : Nat) : State → Host.Outcome State Fault Refusal :=
  run (wfThreadFault tid code epc tval addr) (act tid fun s =>
    let c := tid / 64
    let s := if code = 27 then s.record 1 c 3 0 (domOf s (.cluster c)).state.num addr else s
    threadFault tid code epc tval addr s)

/-! ### The cipher window (R324) -/

def execCipherSubmit (tid : Nat) (request : BitVec 512) : State → Host.Outcome State Fault Refusal :=
  run (wfCipherSubmit tid request) (actWin tid fun s =>
    let b := request.toNat
    let q := partOf s tid
    let ch := tid / 64 * 4096 + cqChannel b
    let s := s.modThread tid ({ · with cipherWin := b })
    let r : CipherReq := { cls := 2, iterated := cqIterated b, tenant := q.tenant, slot := cqSlot b, op := cqOp b, len := cqLen b, body := b
                           status := if cqOk q b then none else some 10, dst := .thread tid ch }
    if !q.owns ch then cipherSubmit { r with status := some 10, dst := .thread 1024 0 } s
    else if !chanRoom s ch then block tid .window s
    else cipherSubmit r (s.modChan ch (fun c => { c with reserved := c.reserved + 1 })))

/-! ### The packet window (R325) -/

/-- A handle of the thread's partition. -/
def handleOf (s : State) (tid h : Nat) : Option Handle :=
  match mget? s.skk.handles h with
  | some x => if x.part = partOfThread s tid then some x else none
  | none => none

/-- The operation's STATUS. -/
def winStatus (tid st : Nat) (s : State) : State := s.modThread tid (fun t => { t with pktWin := { t.pktWin with status := st } })

/-- The 384 bytes of COPY_META. -/
def metaRecord (k : Pkt) : List Byte :=
  let fields := ([0x28, 0x29, 0x2A, 0x2B, 0x2C, 0x2D, 0x30, 0x31, 0x32, 0x33, 0x34] : List Nat)
  let hdr (i : Nat) : Nat := match k.parse.hdrs[i]? with
    | some h => h.code * 1024 + h.off % 1024
    | none => 0
  leBytes 80 (classKey k 0) ++ leBytes 80 (classKey k 1) ++ fields.flatMap (fun f => leBytes 8 (dictField k 0 f)) ++ List.replicate 8 0
    ++ (List.range 64).flatMap (fun i => leBytes 2 (hdr i))

def execCopyOut (tid handle addr len off : Nat) : State → Host.Outcome State Fault Refusal :=
  run (wfCopyOut tid handle addr len off) (act tid fun s =>
    let s := s.modThread tid (fun t => { t with pktWin := { t.pktWin with handle, addr, len, off } })
    match handleOf s tid handle with
    | none => winStatus tid 1 s
    | some x =>
      if len = 0 || 9600 < len || x.pkt.bytes.length < off + len || !(partOf s tid).inRegion addr len then winStatus tid 3 s
      else winStatus tid 0 (partWr (partOfThread s tid) addr ((x.pkt.bytes.drop off).take len) s))

def execCopyMeta (tid handle addr : Nat) : State → Host.Outcome State Fault Refusal :=
  run (wfCopyMeta tid handle addr) (act tid fun s =>
    let s := s.modThread tid (fun t => { t with pktWin := { t.pktWin with handle, addr } })
    match handleOf s tid handle with
    | none => winStatus tid 1 s
    | some x =>
      if !(partOf s tid).inRegion addr 384 then winStatus tid 3 s
      else winStatus tid 0 (partWr (partOfThread s tid) addr (metaRecord x.pkt) s))

def execFree (tid handle : Nat) : State → Host.Outcome State Fault Refusal :=
  run (wfFree tid handle) (act tid fun s =>
    let s := s.modThread tid (fun t => { t with pktWin := { t.pktWin with handle } })
    match handleOf s tid handle with
    | none => winStatus tid 1 s
    | some _ => winStatus tid 0 (handleFree handle s))

/-- Enters a packet into a pipeline: back-pressure on the service owner and occupied contexts hold the store (R173, R206), and buffer admission
may refuse. -/
def injectTry (tid tenant pipe port : Nat) (bs : List Byte) (ts : Option Nat) (s : State) : State × Bool :=
  let o := ownerKey 5 0
  if 9 ≤ pipe || 176 ≤ port then (winStatus tid 3 s, false)
  else if bpOn s o || !ctxRoom s pipe then (block tid .window s, false)
  else if !admits s o (cellsOf bs.length) then (winStatus tid 2 (noteRefused o s), false)
  else (winStatus tid 0 (injectPkt (partOfThread s tid) tenant pipe port bs ts s), true)

def execInjectHandle (tid handle pipe port : Nat) : State → Host.Outcome State Fault Refusal :=
  run (wfInjectHandle tid handle pipe port) (actWin tid fun s =>
    let s := s.modThread tid (fun t => { t with pktWin := { t.pktWin with handle, pipe, port } })
    match handleOf s tid handle with
    | none => winStatus tid 1 s
    | some x =>
      let tenant := if (partOf s tid).vendor then x.pkt.tenant else (partOf s tid).tenant
      match injectTry tid tenant pipe port x.pkt.bytes x.pkt.rxTs s with
      | (s, true) => handleFree handle s
      | (s, false) => s)

def execInjectBuffer (tid addr len pipe port : Nat) : State → Host.Outcome State Fault Refusal :=
  run (wfInjectBuffer tid addr len pipe port) (actWin tid fun s =>
    let s := s.modThread tid (fun t => { t with pktWin := { t.pktWin with addr, len, pipe, port } })
    if len = 0 || 9600 < len || !(partOf s tid).inRegion addr len then winStatus tid 3 s
    else (injectTry tid (partOf s tid).tenant pipe port (partRd s (partOfThread s tid) addr len) none s).1)

/-! ### The context window (R289, R326) -/

/-- A store to the context window: vendor partitions only, else an access fault. -/
def ctxAct (tid index : Nat) (f : State → State) : State → State :=
  actWin tid (mapped tid contextWindow 4 .store fun s => f (s.modThread tid ({ · with ckvIndex := index })))

/-- Status of the window. -/
def ctxStatus (tid st : Nat) (s : State) : State := s.modThread tid ({ · with ckvStatus := st })

/-- A failure whose status the rule does not number. -/
def ctxFails (tid : Nat) (s : State) : State :=
  let (v, s) := s.drawBelow 2
  ctxStatus tid (1 + v) s

/-- A thread holds the context. -/
def ctxHeld (s : State) (index : Nat) : Bool := s.skk.threads.any (fun e => e.2.held.contains index)

def execContextHold (tid index : Nat) : State → Host.Outcome State Fault Refusal :=
  run (wfContextHold tid index) (ctxAct tid index fun s =>
    let t := threadOf s tid
    if !ckvIndexOk index then ctxFails tid s
    else if t.held.contains index then ctxStatus tid 0 s
    else if 4 ≤ t.held.length then ctxStatus tid 3 s
    else if ctxHeld s index then block tid .window s
    else ctxStatus tid 0 (ctxFreeze index true (s.modThread tid (fun t => { t with held := t.held ++ [index] }))))

def execContextRelease (tid index : Nat) : State → Host.Outcome State Fault Refusal :=
  run (wfContextRelease tid index) (ctxAct tid index fun s =>
    if (threadOf s tid).held.contains index then
      ctxStatus tid 0 (ctxRelease index (s.modThread tid (fun t => { t with held := t.held.filter (· ≠ index) })))
    else ctxFails tid s)

def execContextRead (tid index : Nat) : State → Host.Outcome State Fault Refusal :=
  run (wfContextRead tid index) (ctxAct tid index fun s =>
    if ckvIndexOk index then ctxStatus tid 0 (s.modThread tid ({ · with ckvData := ckvOf s index })) else ctxFails tid s)

def execContextWrite (tid index : Nat) (data : BitVec 256) : State → Host.Outcome State Fault Refusal :=
  run (wfContextWrite tid index data) (ctxAct tid index fun s =>
    let s := s.modThread tid ({ · with ckvData := data.toNat })
    if (threadOf s tid).held.contains index && ckvAlg data.toNat ≤ 3 && ckvStage data.toNat ≤ 6
      && (ckvWriteBad s index data.toNat).isNone then
      ctxStatus tid 0 (ckvWrite index data.toNat s)
    else ctxFails tid s)

/-! ### Timers and periods (R18, R323) -/

def execSkinkTimerFire (chan : Nat) : State → Host.Outcome State Fault Refusal := run (wfSkinkTimerFire chan) (timerFire chan)

/-- A tick: one that finds the previous unconsumed replaces it and is a miss; so is one that finds the channel full of messages (log entry
61). -/
def execSkinkPeriodTick (chan : Nat) : State → Host.Outcome State Fault Refusal :=
  run (wfSkinkPeriodTick chan) fun s =>
    let c := chanOf s chan
    if c.kind ≠ 2 || !c.armed || c.period < 1000 || 1000000000 < c.period || !chanRuns s chan then s
    else
      let n := c.ticks + 1
      let m : Msg := { words := [n, s.time], kind := 4 }
      let s := s.modChan chan ({ · with ticks := n })
      if c.msgs.any (·.kind = 4) || !chanRoom s chan then
        (s.modChan chan (fun c => { c with arg := c.arg + 1, msgs := c.msgs.map (fun x => if x.kind = 4 then m else x) })).bump
          .periodMiss chan 0 1
      else chPush chan m s

/-! ### The sentinel (R334, R335) -/

/-- The channel is one of the partition's own and internal. -/
def internalTo (s : State) (q : Part) (ch : Nat) : Bool := q.owns ch && !isExternal s ch

/-- A blocked thread waits on an internal channel or in JOIN, and nothing can be delivered to it. -/
def stuck (s : State) (q : Part) (t : Thread) : Bool :=
  t.state = 3 &&
    match t.wait with
    | some (.read ch _) => internalTo s q ch && (chanOf s ch).msgs.isEmpty
    | some (.any base mask _) =>
      (List.range 64).all (fun i => !bit mask i || (internalTo s q (base + i) && (chanOf s (base + i)).msgs.isEmpty))
    | some (.commit ch _ _) => internalTo s q ch && !chanRoom s ch
    | some (.join _ _) => true
    | _ => false

/-- The threads of a partition that are neither idle nor ended. -/
def liveThreads (s : State) (q : Part) : List Thread :=
  (q.threads.map (threadOf s)).filter (fun t => !([0, 1, 5, 6].contains t.state))

/-- Every live thread is stuck, and nothing outside can wake one. -/
def deadlocked (s : State) (q : Part) : Bool :=
  let live := liveThreads s q
  let mine := s.skk.chans.filter (fun e => q.owns e.1)
  q.running && !live.isEmpty && live.all (stuck s q)
    && !mine.any (fun e => (e.2.armed && e.2.kind ≠ 0) || (e.1 ≠ faultChan q && e.2.ext))

/-- The partition has been deadlocked for its SENTINEL interval. -/
def execSentinelFire (part : Nat) : State → Host.Outcome State Fault Refusal :=
  run (wfSentinelFire part) fun s =>
    match part? s part with
    | some q =>
      if !deadlocked s q || q.sentinel then s
      else
        let m : Msg := { words := [q.sentinelMs * 1000000, s.time, (liveThreads s q).length], kind := 6 }
        let s := s.modPart part ({ · with sentinel := true })
        (hwDeliver s (faultChan q) m).1
    | none => s

/-- The sentinel's message has not been read for a further interval. -/
def execSentinelEscalate (part : Nat) : State → Host.Outcome State Fault Refusal :=
  run (wfSentinelEscalate part) fun s =>
    match part? s part with
    | some q =>
      if !q.sentinel || s.eft.headless then s
      else
        let n := ((q.threads.map (threadOf s)).filter (·.state = 3)).length
        let s := (s.modPart part ({ · with sentinel := false })).event 0x0B03 (.dev part) n
        if q.action = 1 then partStart part (partStop part s) else s
    | none => s

/-! ### The debugger (R336, R337) -/

/-- The partition of the thread is open to an unlocked debug module. -/
def debugged (s : State) (tid : Nat) : Bool :=
  let p := partOfThread s tid
  (partOf s tid).attached && (bit s.dbg.scopes 2 || (bit s.dbg.scopes 0 && s.dbg.part = p))

/-- A halt: a waiting thread leaves its wait, its instruction not retired. -/
def execDebugHalt (tid : Nat) : State → Host.Outcome State Fault Refusal :=
  run (wfDebugHalt tid) fun s =>
    let t := threadOf s tid
    if debugged s tid && (t.state = 2 || t.state = 3) then
      (leaveWait tid s).modThread tid ({ · with state := 4, stepping := false })
    else s

/-- A halted thread runs on: the instruction it waited in is executed again. -/
def resumeThread (tid : Nat) (s : State) : State :=
  let t := threadOf s tid
  let s := s.modThread tid ({ · with state := 2, wait := none })
  match t.wait with
  | some (.commit ch n rd) => chCmt tid ch n rd false s
  | some (.read ch rd) => chRd tid ch rd false s
  | some (.any base mask rd) => chWaitany tid base mask rd s
  | some (.join target rd) => joinThread tid target rd s
  | some .window => block tid .window s
  | none => s

def execDebugResume (tid : Nat) : State → Host.Outcome State Fault Refusal :=
  run (wfDebugResume tid) fun s =>
    if debugged s tid && (threadOf s tid).state = 4 then resumeThread tid (s.modThread tid ({ · with stepping := false })) else s

/-- One instruction: a plain RISC-V one, after which the PC is `next`, or the one a command that follows gives. -/
def execDebugSingleStep (tid : Nat) (next : Option Nat) : State → Host.Outcome State Fault Refusal :=
  run (wfDebugSingleStep tid next) fun s =>
    let t := threadOf s tid
    if !debugged s tid || t.state ≠ 4 then s
    else match next, t.wait with
      | some pc, none => s.modThread tid (fun t => { t with pc := pc, instret := t.instret + 1 })
      | _, _ =>
        let s := resumeThread tid (s.modThread tid ({ · with stepping := true }))
        if t.wait.isSome then settle tid s else s

end Sys2Proof.Machine
end

