-- ==== Sys2Proof/Machine/Partitions.lean ====
section
/-! DEFINITION. The mailbox commands over partitions: creation, images, start, stop and the debugger's attachment (R313, R328, R336, R340 to
R342). -/

namespace Sys2Proof.Machine

/-! ### Creation (R313) -/

/-- Cores of a mask over one cluster. -/
def maskCores (cluster mask : Nat) : List Nat := ((List.range 8).filter (fun i => bit mask i)).map (· + 8 * cluster)

/-- The cores that a `PART_CREATE` names: FORM 0 a cluster mask, FORM 1 one cluster and a core mask. -/
def newCores (form cluster cores clusters : Nat) : List Nat :=
  if form = 0 then ((List.range 16).filter (fun i => bit clusters i)).flatMap (fun c => maskCores c 255) else maskCores cluster cores

/-- The first field of a `PART_CREATE` out of its range. -/
def partBad (form cluster cores action clusters channels handles sentinelMs regionMib : Nat) : Option Nat :=
  if 1 < form then some 0
  else if form = 1 && 16 ≤ cluster then some 1
  else if form = 1 && (cores = 0 || cores = 255) then some 2
  else if 1 < action then some 3
  else if form = 0 && clusters = 0 then some 6
  else if channels < 16 || 4096 < channels then some 8
  else if 4096 < handles then some 10
  else if sentinelMs < 1 || 1000 < sentinelMs then some 12
  else if regionMib < 2 || 65536 < regionMib || regionMib % 2 ≠ 0 then some 16
  else none

/-- The channel ranges already taken in any of the clusters. -/
def chanRanges (s : State) (cores : List Nat) : List (Nat × Nat) :=
  (s.skk.parts.filter (fun e => e.2.cores.any (fun a => cores.any (fun b => coreCluster a = coreCluster b)))).map
    (fun e => (e.2.first, e.2.channels))

/-- MiB that no port's allotment and no customer partition holds. -/
def regionFree (s : State) : Nat := pools.getD 13 0 - allotSum s 32 13 0 - partRegionMib s

/-- Handles that no partition has. -/
def handlesFree (s : State) : Nat := Config.handlePool - (s.skk.parts.map (·.2.handles)).foldl (· + ·) 0

def execPartCreate (x : XCall) (form cluster cores action tenant clusters channels handles sentinelMs regionMib : Nat) :
    State → Host.Outcome State Fault Refusal :=
  run (wfPartCreate x form cluster cores action tenant clusters channels handles sentinelMs regionMib) (xop x 0x0B01 fun _ s =>
    let mine := newCores form cluster cores clusters
    match partBad form cluster cores action clusters channels handles sentinelMs regionMib with
    | some o => (s, badParam o)
    | none =>
      let id := (leastBelow 256 (fun i => i ≠ 0 && (part? s i).isNone))
      if 128 ≤ s.skk.parts.length || handlesFree s < handles || s.skk.parts.any (fun e => e.2.cores.any mine.contains) || regionFree s < regionMib then
        (s, fails stNoResource)
      else match id, lowestFit 0 4096 channels (chanRanges s mine) with
        | some p, some first =>
          let q : Part := { cluster := form = 0, cores := mine, tenant, regionMib, channels, first, handles, sentinelMs, action }
          ({ s with skk := { s.skk with parts := mput s.skk.parts p q } }, okWith [u8 p, u16 first])
        | _, _ => (s, fails stNoResource))

/-- The region and the channels are cleared, and everything goes back to the pools. -/
def execPartDestroy (x : XCall) (part : Nat) : State → Host.Outcome State Fault Refusal :=
  run (wfPartDestroy x part) (xop x 0x0B02 fun _ s =>
    match part? s part with
    | none => (s, badParam 0)
    | some q =>
      if q.running then (s, fails stState)
      else
        let s := partZero part s
        ({ s with skk := { s.skk with
            parts := mdel s.skk.parts part
            threads := s.skk.threads.filter (fun e => !q.threads.contains e.1)
            slots := s.skk.slots.filter (fun e => !q.cores.contains e.1)
            chans := s.skk.chans.filter (fun e => !q.owns e.1) } }, ok))

/-! ### Images (R341) -/

def execImageLoad (x : XCall) (part : Nat) (image : List Byte) : State → Host.Outcome State Fault Refusal :=
  run (wfImageLoad x part image) (xop x 0x0B03 fun _ s =>
    match part? s part with
    | none => (s, badParam 0)
    | some q =>
      if q.running then (s, fails stState)
      else if !svcHeader image || at8 image 6 ≠ (if q.vendor then 1 else 2) then (s, badParam 8)
      else if !trailerOk s q.vendor image then (s, fails stSigFail)
      else if !svcFits q image then (s, badParam 8)
      else
        (loadSvc part image s, ok))

/-! ### Start, stop and debug (R328, R336, R342) -/

def execPartStart (x : XCall) (part : Nat) : State → Host.Outcome State Fault Refusal :=
  run (wfPartStart x part) (xop x 0x0B04 fun _ s =>
    match part? s part with
    | none => (s, badParam 0)
    | some q => if q.running || q.image.isNone then (s, fails stState) else (partStart part s, ok))

def execPartStop (x : XCall) (part : Nat) : State → Host.Outcome State Fault Refusal :=
  run (wfPartStop x part) (xop x 0x0B05 fun _ s => if (part? s part).isNone then (s, badParam 0) else (partStop part s, ok))

/-- A partition is opened only within an unlocked scope (R414); opening one closes any other. -/
def execDebugAttach (x : XCall) (part op : Nat) : State → Host.Outcome State Fault Refusal :=
  run (wfDebugAttach x part op) (xop x 0x0B06 fun _ s =>
    let unlocked := bit s.dbg.scopes 2 || (bit s.dbg.scopes 0 && s.dbg.part = part)
    if (part? s part).isNone then (s, badParam 0)
    else if 1 < op then (s, badParam 1)
    else if op = 1 then (s.modPart part ({ · with attached := false }), ok)
    else if !unlocked then (s, fails stDenied)
    else
      ({ s with skk := { s.skk with parts := mmap s.skk.parts (fun i q => { q with attached := i = part }) } }, ok))

end Sys2Proof.Machine
end

