-- ==== Sys2Proof/Machine/Rings.lean ====
section
/-! DEFINITION. Ring and mailbox register commands (R94 to R117, R345 to R359). -/

namespace Sys2Proof.Machine

/-- A ring block of the function that software can reach (R73). -/
def ringOn (s : State) (fid r : Nat) : Bool := barOn s fid && !isNvme s fid && r < (grantsOf s fid).rings

def execRingEnable (fid ring value : Nat) : State → Host.Outcome State Fault Refusal :=
  run (wfRingEnable fid ring value) fun s =>
    if ringOn s fid ring && (ringOf s fid ring).state = 0 then ringCtlWrite fid ring (setBits value 0 1 1) s else s

def execRingDisable (fid ring value : Nat) : State → Host.Outcome State Fault Refusal :=
  run (wfRingDisable fid ring value) fun s =>
    if ringOn s fid ring && (ringOf s fid ring).state = 1 then ringCtlWrite fid ring (setBits value 0 1 0) s else s

def execRingReset (fid ring : Nat) : State → Host.Outcome State Fault Refusal :=
  run (wfRingReset fid ring) fun s =>
    if ringOn s fid ring && (ringOf s fid ring).state = 3 then ringCtlWrite fid ring 2 s else s

/-- A doorbell of a ring; a read whose two compositions differ is not issued, and fences the ring (R80, R98). -/
def execRingDb (fid ring : Nat) (composed : Bool) : State → Host.Outcome State Fault Refusal :=
  run (wfRingDb fid ring composed) fun s =>
    if !ringOn s fid ring then s
    else if !composed && indexDue s fid ring then (fenceRing fid ring 2 s).composeFault fid
    else ringWrite fid ring 0x24 0 s

/-- The index word read returns (R97, R98, R116). -/
def execIndexWordReadDone (fid : Nat) (of : IdxOf) (q : Nat) : State → Host.Outcome State Fault Refusal :=
  run (wfIndexWordReadDone fid of q) fun s =>
    let mine (r : Read) : Bool := r.fid = fid && r.purpose = idxPurpose of
    if !liveRead s (fun r => mine r && r.tag.isSome) then s else indexDone fid of q (s.endReads mine)

def execCplCi (fid ring c : Nat) : State → Host.Outcome State Fault Refusal :=
  run (wfCplCi fid ring c) fun s => if ringOn s fid ring then cplCiWrite fid ring c s else s

/-- The moderation timer of a completion ring expires (R93, R112). A frozen function's timers are stopped (R384); on a ring that Bus
Master Enable has fenced, the message is held while the bit stays clear (R89, R93). -/
def execCplModTimerExpire (fid ring : Nat) : State → Host.Outcome State Fault Refusal :=
  run (wfCplModTimerExpire fid ring) fun s =>
    let x := ringOf s fid ring
    let live : Bool := x.state = 1 || (x.state = 3 && !(fnD s fid).bme)
    if x.type = 2 && live && x.timerAt.isSome && 0 < x.unann && !(fnD s fid).frozen then announce fid ring s else s

/-! ### Mailboxes -/

def execMbxEnable (fid value : Nat) : State → Host.Outcome State Fault Refusal :=
  run (wfMbxEnable fid value) fun s =>
    if barOn s fid && hasMbx s fid && (mbxOf s (.fn fid)).state = 0 then mbxCtlWrite fid (setBits value 0 1 1) s else s

def execMbxDisable (fid value : Nat) : State → Host.Outcome State Fault Refusal :=
  run (wfMbxDisable fid value) fun s =>
    if barOn s fid && hasMbx s fid && (mbxOf s (.fn fid)).state = 1 then mbxCtlWrite fid (setBits value 0 1 0) s else s

/-- A doorbell of a function's mailbox, or of the recovery function's (its FID is function 3 of the owner port, R407); a read whose two
compositions differ is not issued, and fences the mailbox (R80). The write's value has no effect, and its size is 4 or it has none (R4, R117). -/
def execMbxDb (fid value size : Nat) (composed : Bool) : State → Host.Outcome State Fault Refusal :=
  run (wfMbxDb fid value size composed) fun s =>
    if !barOn s fid || size ≠ 4 then s
    else if !composed && mbxListens s fid && !(mbxOf s (.fn fid)).idxReading then (fenceMbx fid 2 s).composeFault fid
    else mbxDoorbell fid s

/-- While the Eft restarts, every request read is answered HEADLESS, in order and without its payload; a command that was being
executed has DETAIL 1 (R357, R358). In the safe state only the Board is answered (R359). -/
def execMbxHeadlessAnswer (mbx : MbxId) : State → Host.Outcome State Fault Refusal :=
  run (wfMbxHeadlessAnswer mbx) fun s =>
    if (s.eft.headless && s.phase ≠ .safe) || (s.phase = .safe && mbx = .board) then
      answerAll mbx stHeadless (finishCur mbx stHeadless 1 [] s)
    else s

/-- An unassigned opcode, 0x0307 among them, is answered BAD_OPCODE and does nothing (R353). -/
def execUnassignedOpcode (x : XCall) : State → Host.Outcome State Fault Refusal :=
  run (wfUnassignedOpcode x) (xcs x (fun op => (opRow op).isNone) (reads fun _ _ => fails stBadOpcode))

/-- `EVENT_SUBSCRIBE` (R362): both indices start at 0 again, and SEQ goes on. -/
def execEventSubscribe (x : XCall) (mask log2 vector ringAddr indexAddr : Nat) : State → Host.Outcome State Fault Refusal :=
  run (wfEventSubscribe x mask log2 vector ringAddr indexAddr) (xop x 0x0C04 fun c s =>
    if mask = 0 then (s.modMbx c.mbx ({ · with events := none }), okWith [u64 (mbxOf s c.mbx).eventSeq])
    else if log2 < 6 || 16 < log2 then (s, badParam 4)
    else if c.mbx ≠ .board && msixSize s c.fid ≤ vector then (s, badParam 6)
    else
      let s := if c.mbx = .board then s else s.hostWr c.fid indexAddr (leBytes 8 0)
      let s := s.modMbx c.mbx ({ · with events := some { mask, log2, vector, ringAddr, indexAddr } })
      (s, okWith [u64 (mbxOf s c.mbx).eventSeq]))

/-- `TELEM_CONFIG` (R361). -/
def execTelemConfig (x : XCall) (intervalMs log2 ringAddr indexAddr : Nat) : State → Host.Outcome State Fault Refusal :=
  run (wfTelemConfig x intervalMs log2 ringAddr indexAddr) (xop x 0x0C03 fun _ s =>
    ({ s with meter := { s.meter with telem := some (intervalMs, log2, ringAddr, indexAddr, 0) } }, ok))

end Sys2Proof.Machine
end

