-- ==== Sys2Proof/Machine/Scrub.lean ====
section
/-! DEFINITION. The background scrubbers, and what an uncorrectable word does to the work it serves (R419, R420). -/

namespace Sys2Proof.Machine

/-- The regrowable kind that a memory's errors count against: packet-buffer bank, table-SRAM bank, pseudo-channel (R434, R435). -/
def scrubKind : ScrubMem → Option Nat
  | .packetBuffer => some 4
  | .ruleSram | .l2Sram | .replicated | .sram => some 5
  | .hbmFlow | .hbmKey | .hbmMeter | .hbm => some 6
  | .emram | .bootBlock | .skink => none

/-- DKIND of a record about a memory: a pseudo-channel, the cluster of a Skink cache, or a memory bank (R427). -/
def scrubDkind : ScrubMem → Nat
  | .hbmFlow | .hbmKey | .hbmMeter | .hbm => 5
  | .skink => 1
  | _ => 9

/-- A corrected error counts against its bank or pseudo-channel and feeds its wear signals. -/
def scrubCorrected (mem : ScrubMem) (unit : Nat) (s : State) : State :=
  let s := s.bump .corrected (scrubDkind mem) unit 1
  match scrubKind mem with
  | some k => s.unitCorrected k unit
  | none => s

/-- The packet's cell is poisoned: its copies carry a Path Check Word that no check passes. -/
def poisonPacket (n : Nat) (s : State) : State :=
  s.modPkt (fun p => { p with queues := mmap p.queues (fun _ l => l.map (fun c =>
    if c.pkt = n && c.pcw < 2 ^ 32 then { c with pcw := c.pcw + 2 ^ 32 } else c)) })

/-- A rule slot is lost until it is cleared and written again. -/
def loseRule (addr : Nat) (s : State) : State :=
  let k := addr % 2 ^ 20
  s.modPad (addr / 2 ^ 20 % 2) (fun p => { p with rules := mput p.rules k (2 ^ 1536 + 2 ^ 1504) })

/-- A learned L2 entry is deleted, to be learned again; a static one goes on as the Eft rewrites it. -/
def loseL2 (addr : Nat) (s : State) : State :=
  let p := addr / 2 ^ 20
  match mget? (tblOf s 2 p).slots (addr % 2 ^ 20) with
  | some e => if l2Static e then s else tblDel 2 p (keyOf l2Kind e) s
  | none => s

/-- What DETAIL of the record says: the rule slot, the OWNER of a flow entry, or the address (R427). -/
def scrubDetail (mem : ScrubMem) (addr : Nat) (s : State) : Nat :=
  match mem with
  | .ruleSram => addr % 2 ^ 15
  | .hbmFlow => match mget? s.pkt.flow.slots addr with
    | some e => flowOwner e
    | none => addr
  | _ => addr

/-- An uncorrectable word: a record, and the outcome for the work it serves; one in the boot block is the safe state (R431). -/
def scrubPoison (mem : ScrubMem) (unit addr : Nat) (s : State) : State :=
  let d : Nat := match scrubKind mem with
    | some 6 => (domOf s (.hbmPc unit)).state.num
    | _ => 0
  let source := if mem = .ruleSram then 15 else 3
  let s := s.record (scrubDkind mem) unit source 0 d (scrubDetail mem addr s)
  match mem with
  | .packetBuffer => poisonPacket addr s
  | .ruleSram => loseRule addr s
  | .l2Sram => loseL2 addr s
  | .hbmFlow => match mget? s.pkt.flow.slots addr with
    | some e => (tblDel 3 0 (keyOf flowKind e) s).bump .flowLost (flowOwner e) 0 1
    | none => s
  | .hbmKey => if (keySlot s addr).type = 0 then s else (s.modKey addr ({ · with bad := true })).bump .keyStoreBad 0 0 1
  | .skink => if addr < 1024 && (threadOf s addr).state = 2 then xfault addr 27 0 s else s
  | .bootBlock => safeState 9 unit s
  | .replicated | .sram | .emram | .hbmMeter | .hbm => s

/-- The HBM stack whose burst controller a scrub of HBM takes (R33, R434). -/
def scrubStack (mem : ScrubMem) (unit : Nat) : Option Nat := if scrubKind mem = some 6 then some (unit / 32) else none

/-- A scrubber is at work: it is elastic, and stops under a comparator hold; in HBM it works while the stack's burst controller holds credits (R33 to
R35, R419). -/
def scrubbing (s : State) (mem : ScrubMem) (unit : Nat) : Bool :=
  (s.phase = .running || s.phase = .recovery) && !s.pow.coreHold &&
    match scrubStack mem unit with
    | some h => elasticOn s (.hbm h)
    | none => true

def execScrubStep (mem : ScrubMem) (unit addr : Nat) (found : ScrubResult) : State → Host.Outcome State Fault Refusal :=
  run (wfScrubStep mem unit addr found) fun s =>
    if !scrubbing s mem unit then s
    else match found with
      | .clean => s
      | .corrected => scrubCorrected mem unit s
      | .uncorrectable => scrubPoison mem unit addr s

end Sys2Proof.Machine
end

