-- ==== Sys2Proof/Machine/Sideband.lean ====
section
/-! DEFINITION. The I3C target, the Spawn Chain, JTAG and the UART (R365, R414, R441 to R460). -/

namespace Sys2Proof.Machine

/-! ### I3C (R365, R441 to R445) -/

/-- The target listens: its pins are active and no HDR traffic is on the bus (R441, R444). -/
def i3cOn (s : State) : Bool := s.pins.vddRet && s.pins.pwrSeen && pinsIn s && !s.i3c.hdr

/-- The target has a dynamic address and listens. -/
def i3cAddressed (s : State) : Bool := i3cOn s && s.i3c.addr.isSome

def State.modI3c (s : State) (f : I3c → I3c) : State := { s with i3c := f s.i3c }

/-- Requests of the Board not yet answered (R365). -/
def boardOutstanding (s : State) : Nat := s.boardMbx.queue.length + b2n s.boardMbx.cur.isSome

/-- A private write: a request header and its payload. A ninth outstanding is NACKed; in Basking the write wakes the device (R365,
R410, R445). A write longer than the maximum write length is NACKed as a protocol error (log entry 18). -/
def execI3cPrivateWrite (header : BitVec 512) (payload : List Byte) : State → Host.Outcome State Fault Refusal :=
  run (wfI3cPrivateWrite header payload) fun s =>
    if !i3cAddressed s then s
    else if s.phase = .basking || s.eft.basking then wakeSource (s.emit .i3cAck)
    else if s.i3c.mwl < 64 + payload.length then (s.modI3c ({ · with protoErr := true })).emit .i3cNack
    else if 8 ≤ boardOutstanding s then s.emit .i3cNack
    else (s.modMbx .board (fun b => { b with queue := b.queue ++ [{ slot := header }] })).emit .i3cAck

def BoardItem.bytes : BoardItem → List Byte
  | .response b => b
  | .event b => b

/-- A private read returns the oldest ready item, or is NACKed (R365). -/
def execI3cPrivateRead : State → Host.Outcome State Fault Refusal :=
  run wfI3cPrivateRead fun s =>
    if !i3cAddressed s then s
    else match s.i3c.ready with
      | [] => s.emit .i3cNack
      | i :: r => (s.modI3c ({ · with ready := r })).emit (.i3cData (i.bytes.take s.i3c.mrl))

/-- Sets the enables of ENEC and DISEC: bit 0 interrupts, bit 3 hot-join (I3C Basic). -/
def setEnables (direct : Bool) (events : Nat) (on : Bool) (s : State) : State :=
  if !i3cOn s || (direct && s.i3c.addr.isNone) then s
  else s.modI3c fun i => { i with
    ibiEn := if bit events 0 then on else i.ibiEn
    hjEn := if bit events 3 then on else i.hjEn }

def execEnec (direct : Bool) (events : Nat) : State → Host.Outcome State Fault Refusal :=
  run (wfEnec direct events) fun s =>
    let was := s.i3c.ibiEn
    let s := setEnables direct events true s
    if !was && s.i3c.ibiEn && s.i3c.addr.isSome then
      match s.i3c.ready with
      | .response _ :: _ => s.emit (.i3cIbi 0xA1)
      | .event _ :: _ => s.emit (.i3cIbi 0xA2)
      | [] => s
    else s

def execDisec (direct : Bool) (events : Nat) : State → Host.Outcome State Fault Refusal :=
  run (wfDisec direct events) (setEnables direct events false)

def execRstdaa : State → Host.Outcome State Fault Refusal :=
  run wfRstdaa fun s => if i3cOn s then s.modI3c ({ · with addr := none }) else s

/-- The 48-bit provisioned ID (R442). -/
def provisionedId (s : State) : Nat := pack [(32, s.nv.uniqueId), (1, 1), (15, 0x1E7)]

/-- An unaddressed target presents its ID, BCR and DCR and takes the address. -/
def execEntdaa (addr : Nat) : State → Host.Outcome State Fault Refusal :=
  run (wfEntdaa addr) fun s =>
    if i3cOn s && s.i3c.addr.isNone then
      (s.emit (.i3cData (beBytes 6 (provisionedId s) ++ [0x06, 0x00]))).modI3c ({ · with addr := some addr })
    else s

/-- A length of SETMWL or SETMRL is accepted from 64 to 1,088 bytes. -/
def lenOk (n : Nat) : Bool := 64 ≤ n && n ≤ 1088

def execSetmwl (direct : Bool) (len : Nat) : State → Host.Outcome State Fault Refusal :=
  run (wfSetmwl direct len) fun s =>
    if !i3cOn s || (direct && s.i3c.addr.isNone) then s
    else if lenOk len then s.modI3c ({ · with mwl := len })
    else if direct then s.emit .i3cNack else s

def execSetmrl (direct : Bool) (len : Nat) : State → Host.Outcome State Fault Refusal :=
  run (wfSetmrl direct len) fun s =>
    if !i3cOn s || (direct && s.i3c.addr.isNone) then s
    else if lenOk len then s.modI3c ({ · with mrl := len })
    else if direct then s.emit .i3cNack else s

/-- RSTACT names the action of the next Target Reset Pattern; an action above 0x02 is NACKed. -/
def execRstact (direct : Bool) (action : Nat) : State → Host.Outcome State Fault Refusal :=
  run (wfRstact direct action) fun s =>
    if !i3cOn s || (direct && s.i3c.addr.isNone) then s
    else if action ≤ 2 then s.modI3c ({ · with rstact := some action })
    else s.emit .i3cNack

def execSetnewda (addr : Nat) : State → Host.Outcome State Fault Refusal :=
  run (wfSetnewda addr) fun s => if i3cAddressed s then s.modI3c ({ · with addr := some addr }) else s

/-- Answers a direct read of the target. -/
def i3cAnswer (f : State → List Byte) (s : State) : State := if i3cAddressed s then s.emit (.i3cData (f s)) else s

def execGetmwl : State → Host.Outcome State Fault Refusal := run wfGetmwl (i3cAnswer fun s => beBytes 2 s.i3c.mwl)

/-- The maximum read length, then the IBI payload size, one byte, as I3C defines for a target whose BCR tells of a payload. -/
def execGetmrl : State → Host.Outcome State Fault Refusal := run wfGetmrl (i3cAnswer fun s => beBytes 2 s.i3c.mrl ++ [1])

def execGetpid : State → Host.Outcome State Fault Refusal := run wfGetpid (i3cAnswer fun s => beBytes 6 (provisionedId s))

def execGetbcr : State → Host.Outcome State Fault Refusal := run wfGetbcr (i3cAnswer fun _ => [0x06])

def execGetdcr : State → Host.Outcome State Fault Refusal := run wfGetdcr (i3cAnswer fun _ => [0x00])

/-- GETSTATUS: ready items, saturating at 15; a latched protocol error, which reading it clears (log entry 18); 01b while headless or in the safe state
(R443). -/
def i3cStatus (s : State) : Nat :=
  pack [(4, min 15 s.i3c.ready.length), (1, 0), (1, b2n s.i3c.protoErr),
    (2, if s.eft.headless || s.phase = .safe then 1 else 0)]

def execGetstatus : State → Host.Outcome State Fault Refusal :=
  run wfGetstatus fun s =>
    if i3cAddressed s then (s.emit (.i3cData (beBytes 2 (i3cStatus s)))).modI3c ({ · with protoErr := false }) else s

/-- GETMXDS: write and read speed at 12.5 MHz with no limitation. -/
def execGetmxds : State → Host.Outcome State Fault Refusal := run wfGetmxds (i3cAnswer fun _ => [0x00, 0x00])

/-- Any other CCC is NACKed when direct and ignored when broadcast; after one that enters HDR (0x20 to 0x27, I3C Basic) the target
ignores the bus until the exit pattern (R441). -/
def execI3cUnsupportedCcc (code : Nat) (direct : Bool) : State → Host.Outcome State Fault Refusal :=
  run (wfI3cUnsupportedCcc code direct) fun s =>
    if direct then (if i3cAddressed s then s.emit .i3cNack else s)
    else if i3cOn s && 0x20 ≤ code && code ≤ 0x27 then s.modI3c ({ · with hdr := true })
    else s

def execHdrExitPattern : State → Host.Outcome State Fault Refusal :=
  run wfHdrExitPattern fun s => s.modI3c ({ · with hdr := false })

/-- The target alone is reset (R445): the dynamic address stays; unread items and unstarted requests go, and a started command's
response is discarded. -/
def i3cReset (s : State) : State :=
  ((s.modI3c (fun i => { addr := i.addr })).orphanCur .board).modMbx .board ({ · with queue := [] })

/-- The Target Reset Pattern (R443, R445): no action, the target alone (also when none was set), or the whole device. -/
def execTargetResetPattern : State → Host.Outcome State Fault Refusal :=
  run wfTargetResetPattern fun s =>
    if !(s.pins.vddRet && s.pins.pwrSeen && pinsIn s) then s
    else match s.i3c.rstact with
      | some 0 => s.modI3c ({ · with rstact := none })
      | some 2 => internalReset s
      | _ => i3cReset s

def execHotJoinRequest : State → Host.Outcome State Fault Refusal :=
  run wfHotJoinRequest fun s => if i3cOn s && s.i3c.addr.isNone && s.i3c.hjEn then s.emit .i3cHotJoin else s

/-! ### Spawn Chain frames (R446 to R457) -/

/-- Fields of a frame (R448). -/
def fType (f : BitVec 64) : Nat := bits f.toNat 60 4
def fSrc (f : BitVec 64) : Nat := bits f.toNat 56 4
def fDst (f : BitVec 64) : Nat := bits f.toNat 52 4
def fBcast (f : BitVec 64) : Bool := bit f.toNat 51
def fMark (f : BitVec 64) : Bool := bit f.toNat 50
def fMarker (f : BitVec 64) : Nat := bits f.toNat 46 4
def fPart (f : BitVec 64) : Nat := bits f.toNat 40 6
def fData (f : BitVec 64) : Nat := bits f.toNat 8 32

/-- The frame's CRC is right. -/
def frameOk (f : BitVec 64) : Bool := crc8 56 (f.toNat / 256) 0 = f.toNat % 256

/-- The frame with MARK set, and MARKER if MARK was clear (R448, R454). -/
def markFrame (f : BitVec 64) (addr : Nat) : BitVec 64 :=
  mkFrame (fType f) (fSrc f) (fDst f) (fBcast f) true (if fMark f then fMarker f else addr) (fPart f) (fData f)

/-- The chain interface is powered from VDD_RET (R450), and reset with the device. -/
def chainOn (s : State) : Bool := s.pins.vddRet && s.phase ≠ .inReset && pinsIn s

def State.modChain (s : State) (f : Chain → Chain) : State := { s with chain := f s.chain }

/-- A frame arrives: one whose CRC fails is discarded and counted (R448); one of another type is another command's. The first frame
ends SINGLE. -/
def chainRecv (type : Nat) (f : BitVec 64) (act : State → State) (s : State) : State :=
  if !chainOn s then s
  else if !frameOk f then s.bump .chainCrcError 0 0 1
  else if fType f ≠ type then s
  else act (s.modChain (fun c => { c with seen := true, state := if c.state = 0 then 1 else c.state }))

/-- The frame is this unit's own, come back: it is removed (R450). -/
def isOwn (s : State) (f : BitVec 64) : Bool := fSrc f = s.chain.addr

/-- The frame is broadcast or addressed to this unit. -/
def forMe (s : State) (f : BitVec 64) : Bool := fBcast f || fDst f = s.chain.addr

/-- Forwards a frame. -/
def forward (f : BitVec 64) (s : State) : State := s.emit (.chainTx f)

/-- The waits of `CHAIN_SEND` and of a chain-wide Leap. -/
def isSendWait : Wait → Bool
  | .chainSend _ => true
  | _ => false

/-- A link loss or a RESET (R452): FORMING, loans dropped, messages in progress discarded, a `CHAIN_SEND` ended TIMEOUT (R457). -/
def chainReform (s : State) : State :=
  let s := s.modChain (fun c => { c with state := 1, rx := [], armHi := [], offered := none })
  let s := { s with pow := { s.pow with borrowed := [] } }
  finishWait isSendWait stTimeout 0 [] s

def execKeep (frame : BitVec 64) : State → Host.Outcome State Fault Refusal :=
  run (wfKeep frame) (chainRecv 0 frame id)

def execKeepSend : State → Host.Outcome State Fault Refusal :=
  run wfKeepSend fun s => if chainOn s then s.chainSend 0 0 false 0 0 else s

/-- CLOSE passes a unit (R451): UP at the address offered, lent credits restored, and the event (R452, R455). -/
def chainClose (count addr : Nat) (s : State) : State :=
  let s := s.modChain (fun c => { c with state := 2, units := count, addr := addr, offered := none })
  let s := { s with pow := { s.pow with lent := [] } }
  s.event 0x1101 (.dev addr) count

/-- ENUM (R451). Back at the head the offer is the unit count, and CLOSE follows. A unit offered 16 neither joins nor forwards. -/
def execEnum (frame : BitVec 64) : State → Host.Outcome State Fault Refusal :=
  run (wfEnum frame) (chainRecv 1 frame fun s =>
    let offer := fData frame
    if s.chain.head then
      if fSrc frame = 0 && s.chain.state = 1 then
        chainClose offer 0 ((s.modChain ({ · with addr := 0 })).chainSend 2 0 true 0 offer)
      else s
    else if 16 ≤ offer then s
    else
      let s := s.modChain (fun c => { c with offered := some offer, state := 1 })
      forward (mkFrame 1 (fSrc frame) 0 true false 0 0 (offer + 1)) s)

def execClose (frame : BitVec 64) : State → Host.Outcome State Fault Refusal :=
  run (wfClose frame) (chainRecv 2 frame fun s =>
    if s.chain.head then s
    else match s.chain.offered with
      | some a => chainClose (fData frame) a (forward frame s)
      | none => forward frame s)

def execReset (frame : BitVec 64) : State → Host.Outcome State Fault Refusal :=
  run (wfReset frame) (chainRecv 3 frame fun s => if isOwn s frame then s else forward frame (chainReform s))

/-- LEAP_ARM (R227, R454). A unit arms on PART 0; one that refuses, or is FORMING, sets MARK. Back at the originator it ends the
command: OK, or a cancel frame and STATE with the first unit that refused. -/
def execLeapArm (frame : BitVec 64) : State → Host.Outcome State Fault Refusal :=
  run (wfLeapArm frame) (chainRecv 4 frame fun s =>
    if isOwn s frame then
      if fPart frame ≠ 0 || !waiting s (· = .chainLeap) then s
      else if fMark frame then
        let s := leapDisarm (s.chainSend 5 0 true 0 0)
        finishWait (· = .chainLeap) stState (fMarker frame) [u16 (leapGen s)] s
      else finishWait (· = .chainLeap) stOk 0 [u16 ((leapGen s + 1) % 65536)] s
    else if fPart frame ≠ 0 then
      forward frame (s.modChain (fun c => { c with armHi := mput c.armHi (fSrc frame) (fData frame) }))
    else
      let time := mgetD s.chain.armHi (fSrc frame) 0 * 2 ^ 32 + fData frame
      let s := s.modChain (fun c => { c with armHi := mdel c.armHi (fSrc frame) })
      match (if s.chain.state = 2 then leapArm time s else none) with
      | some s => forward frame s
      | none => forward (markFrame frame s.chain.addr) s)

def execLeapCancel (frame : BitVec 64) : State → Host.Outcome State Fault Refusal :=
  run (wfLeapCancel frame) (chainRecv 5 frame fun s => if isOwn s frame then s else forward frame (leapDisarm s))

/-- LEND (R455). The borrower raises its budget on receipt, or refuses an excess over 1,350 A by MARK; a returned loan is restored by
its lender, and so is one that comes back refused. -/
def execLend (frame : BitVec 64) : State → Host.Outcome State Fault Refusal :=
  run (wfLend frame) (chainRecv 6 frame fun s =>
    let n := fData frame % 65536
    let back := bit (fData frame) 31
    if isOwn s frame then
      if fMark frame && !back then
        { s with pow := { s.pow with lent := mupd s.pow.lent (fDst frame) 0 (· - n) } }
      else s
    else if !forMe s frame then forward frame s
    else if back then forward frame { s with pow := { s.pow with lent := mupd s.pow.lent (fSrc frame) 0 (· - n) } }
    else if 5400 < s.pow.core + creditSum s.pow.borrowed - creditSum s.pow.lent + n then
      forward (markFrame frame s.chain.addr) s
    else forward frame { s with pow := { s.pow with borrowed := mupd s.pow.borrowed (fSrc frame) 0 (· + n) } })

/-- A FAULT frame goes to the vendor management partition as a control message (R456). -/
def execFault (frame : BitVec 64) : State → Host.Outcome State Fault Refusal :=
  run (wfFault frame) (chainRecv 7 frame fun s =>
    if isOwn s frame then s else forward frame (controlMsg 0 [7, fSrc frame, fData frame] s))

/-- Parts of a message of `len` bytes (R449). -/
def partsOf (len : Nat) : Nat := if len ≤ 3 then 1 else 1 + cdiv (len - 3) 4

/-- The message that a source's part continues or starts: LEN, bytes so far, next PART; none when the part fits nothing. -/
def takePart (cur : Option (Nat × List Byte × Nat)) (part data : Nat) : Option (Nat × List Byte × Nat) :=
  match cur with
  | some (len, bs, next) =>
    if part = next then some (len, (bs ++ beBytes 4 data).take len, next - 1)
    else if partsOf (data % 256) = part + 1 then
      some (data % 256, (beBytes 3 (data / 256)).take (data % 256), part - 1)
    else none
  | none =>
    if 0 < data % 256 && partsOf (data % 256) = part + 1 then
      some (data % 256, (beBytes 3 (data / 256)).take (data % 256), part - 1)
    else none

/-- A DATA part (R449, R457): a complete message is delivered to the vendor management partition and its last part is marked. Back at
the sender, the last part ends the `CHAIN_SEND`: OK when marked, NOT_FOUND when not. -/
def execData (frame : BitVec 64) : State → Host.Outcome State Fault Refusal :=
  run (wfData frame) (chainRecv 8 frame fun s =>
    if isOwn s frame then
      if fPart frame ≠ 0 then s
      else finishWait isSendWait (if fMark frame then stOk else stNotFound) 0 [] s
    else if !forMe s frame then forward frame s
    else
      match takePart (mget? s.chain.rx (fSrc frame)) (fPart frame) (fData frame) with
      | none => forward frame (s.modChain (fun c => { c with rx := mdel c.rx (fSrc frame) }))
      | some (len, bs, next) =>
        if fPart frame = 0 then
          let s := s.modChain (fun c => { c with rx := mdel c.rx (fSrc frame) })
          forward (markFrame frame s.chain.addr) (controlMsg 0 ([8, fSrc frame, len] ++ bs.map (·.toNat)) s)
        else forward frame (s.modChain (fun c => { c with rx := mput c.rx (fSrc frame) (len, bs, next) })))

/-- WAKE: the frame is forwarded first (R457). -/
def execWake (frame : BitVec 64) : State → Host.Outcome State Fault Refusal :=
  run (wfWake frame) (chainRecv 9 frame fun s => if isOwn s frame then s else wakeSource (forward frame s))

def execReservedFrameType (frame : BitVec 64) : State → Host.Outcome State Fault Refusal :=
  run (wfReservedFrameType frame) fun s =>
    if !chainOn s then s
    else if !frameOk frame then s.bump .chainCrcError 0 0 1
    else if 10 ≤ fType frame then s.bump .chainReserved 0 0 1
    else s

def execChainBitTimeout : State → Host.Outcome State Fault Refusal :=
  run wfChainBitTimeout fun s => if chainOn s then s.bump .chainLinkError 0 0 1 else s

def execChainInvalidCodeword : State → Host.Outcome State Fault Refusal :=
  run wfChainInvalidCodeword fun s => if chainOn s then s.bump .chainLinkError 0 1 1 else s

/-- A link found lost by this unit: it re-forms and sends RESET (R452). -/
def linkLost (s : State) : State :=
  if chainOn s && s.chain.state ≠ 0 then (chainReform s).chainSend 3 0 true 0 0 else s

def execChainInLinkLost : State → Host.Outcome State Fault Refusal := run wfChainInLinkLost linkLost

/-- As for the incoming link; a separate meaning, so that either can be mended alone. -/
def execChainOutLinkLost : State → Host.Outcome State Fault Refusal := run wfChainOutLinkLost fun s => linkLost s

def execChainEnumRetry : State → Host.Outcome State Fault Refusal :=
  run wfChainEnumRetry fun s =>
    if chainOn s && s.chain.head && s.chain.state = 1 then
      s.emit (.chainTx (mkFrame 1 0 0 true false 0 0 1))
    else s

/-- The arm frame has not returned within 1 ms (R227). -/
def execChainArmTimeout : State → Host.Outcome State Fault Refusal :=
  run wfChainArmTimeout fun s =>
    if !waiting s (· = .chainLeap) then s
    else finishWait (· = .chainLeap) stTimeout 0 [] (leapDisarm (s.chainSend 5 0 true 0 0))

def execChainState (x : XCall) : State → Host.Outcome State Fault Refusal :=
  run (wfChainState x) (xop x 0x1101 (reads fun _ s =>
    okWith [u8 s.chain.addr, u8 s.chain.units, u8 (b2n s.chain.head), u8 s.chain.state]))

/-- The DATA values of a message's parts, highest part first (R449). -/
def messageParts (bs : List Byte) : List Nat :=
  let first := bs.length + 256 * ofBe ((bs ++ List.replicate 3 0).take 3)
  first :: (List.range (partsOf bs.length - 1)).map fun i =>
    ofBe ((bs.drop (3 + 4 * i) ++ List.replicate 4 0).take 4)

def execChainSend (x : XCall) (dest len : Nat) (data : List Byte) : State → Host.Outcome State Fault Refusal :=
  run (wfChainSend x dest len data) (xop x 0x1102 fun _ s =>
    if 15 < dest then (s, badParam 0)
    else if len < 1 || 255 < len || data.length ≠ len then (s, badParam 2)
    else if s.chain.state ≠ 2 then (s, fails stState)
    else
      let ps := messageParts data
      let s := (ps.zipIdx).foldl (fun s (d, i) => s.chainSend 8 dest false (ps.length - 1 - i) d) s
      (s, .wait (.chainSend dest)))

def execChainSendTimeout : State → Host.Outcome State Fault Refusal :=
  run wfChainSendTimeout (finishWait isSendWait stTimeout 0 [])

/-! ### JTAG (R459, R460) and debug unlock (R414) -/

def State.modDbg (s : State) (f : Debug → Debug) : State := { s with dbg := f s.dbg }

/-- An instruction that selects a register and shifts out a value. -/
def jtagRead (ir : Nat) (v : Nat) (s : State) : State := (s.modDbg ({ · with ir := ir })).emit (.jtag v)

def execIdcode : State → Host.Outcome State Fault Refusal := run wfIdcode (jtagRead 0x01 0x101449CB)

/-- The boundary register samples the pins: what they carry is the board's, a free value (log entry 3). -/
def execSamplePreload : State → Host.Outcome State Fault Refusal :=
  run wfSamplePreload fun s =>
    let (v, s) := s.draw
    jtagRead 0x02 v s

/-- What goes down with its pins: the links of the Ethernet ports and the host ports, and the chain (log entry 19). -/
def pinsLost (s : State) : State :=
  let s := (s.ports.filter (fun e => e.2.state = 2)).foldl (fun s e => portDown e.1 1 1 s) s
  let s := (List.range 32).foldl (fun s n => if hostPortExists s n && (hostPort s n).linkUp then portReset n s else s) s
  if s.chain.state = 0 then s else chainReform s

/-- Takes the pins covered out of functional use, at once, until `SYS_RST_N` (R460). -/
def takePins (ir : Nat) (s : State) : State := (pinsLost s).modDbg ({ · with ir := ir, pinsTaken := true })

def execExtest : State → Host.Outcome State Fault Refusal := run wfExtest (takePins 0x03)
def execExtestPulse : State → Host.Outcome State Fault Refusal := run wfExtestPulse (takePins 0x04)
def execExtestTrain : State → Host.Outcome State Fault Refusal := run wfExtestTrain (takePins 0x05)
def execClamp : State → Host.Outcome State Fault Refusal := run wfClamp (takePins 0x06)
def execHighz : State → Host.Outcome State Fault Refusal := run wfHighz (takePins 0x07)

/-- BYPASS, and every unassigned code (R459). -/
def execBypass (code : Nat) : State → Host.Outcome State Fault Refusal :=
  run (wfBypass code) fun s =>
    if [1, 2, 3, 4, 5, 6, 7, 0x20, 0x21, 0x22, 0x23].contains code then s else jtagRead code 0 s

/-- A new challenge at each capture (R414, R459). -/
def execDbgChallenge : State → Host.Outcome State Fault Refusal :=
  run wfDbgChallenge fun s =>
    let (v, s) := s.draw
    let c := v % 2 ^ 256
    jtagRead 0x20 c (s.modDbg ({ · with challenge := some c }))

/-- The public key that a token's KEYSEL names: a root key of the running slot's table, or an enrolled customer key. -/
def tokenKey (s : State) (sel : Nat) : List Byte :=
  if 4 ≤ sel then (mgetD s.nv.custKeys (sel - 4) {}).key
  else
    let sl := slotOf s (if s.eft.running ≤ 1 then s.eft.running else 0)
    match sl.factory with
    | some _ => Config.rootPub sel
    | none => (sl.keyTable.find? (fun k => sha384 k = Config.rootHash sel)).getD []

/-- A token verifies (R414). -/
def tokenOk (s : State) (t : List Byte) : Bool :=
  let scope := ofLe (sliceB t 6 1)
  let sel := ofLe (sliceB t 7 1)
  let key := tokenKey s sel
  ofLe (sliceB t 0 4) = 0x47445A45 && ofLe (sliceB t 4 2) = 1 && 1 ≤ scope && scope ≤ 3 && sel < 8
    && (sel < 4 || scope = 1) && (4 ≤ sel || !bit s.nv.revoke sel)
    && ofLe (sliceB t 8 8) = s.nv.uniqueId && s.dbg.challenge = some (ofLe (sliceB t 0x10 32))
    && !key.isEmpty && (sha384 key).toNat = ofBe (sliceB t 0x70 48)
    && ecdsaVerify key (sha384 (t.take 0x70)) (sliceB t 0xA0 96)

/-- A token that verifies unlocks its scope until `SYS_RST_N`; any other raises a cipher alarm (R306, R414). -/
def execDbgToken (token : List Byte) : State → Host.Outcome State Fault Refusal :=
  run (wfDbgToken token) fun s =>
    let s := s.modDbg ({ · with ir := 0x21 })
    if tokenOk s token then
      let scope := ofLe (sliceB token 6 1)
      s.modDbg fun d => { d with
        scopes := d.scopes ||| 2 ^ (scope - 1), everUnlocked := true
        part := if scope = 1 then ofLe (sliceB token 0x30 1) else d.part }
    else cipherAlarm 3 s

/-- DBG_STATUS: scopes in bits 2:0, PART in bits 15:8 (log entry 19: the rule gives no positions). -/
def execDbgStatus : State → Host.Outcome State Fault Refusal :=
  run wfDbgStatus fun s => jtagRead 0x22 (s.dbg.scopes % 8 + 256 * s.dbg.part) s

/-- Access to the debug module: a locked scope reads zero and ignores writes (R460); the device's scope covers the others. -/
def execDbgDmi (scope : Nat) (write : Bool) (addr value : Nat) : State → Host.Outcome State Fault Refusal :=
  run (wfDbgDmi scope write addr value) fun s =>
    let open_ := bit s.dbg.scopes (scope - 1) || bit s.dbg.scopes 2
    let k := scope * 2 ^ 32 + addr
    if !open_ then jtagRead 0x23 0 s
    else if write then s.modDbg (fun d => { d with ir := 0x23, dmi := mput d.dmi k value })
    else jtagRead 0x23 (mgetD s.dbg.dmi k (Config.dmiRead scope addr % 2 ^ 32)) s

/-- Console input is taken only while the Eft or device scope is unlocked (R458). -/
def execUartRxInput (char : Byte) : State → Host.Outcome State Fault Refusal :=
  run (wfUartRxInput char) fun s => if pinsIn s && (bit s.dbg.scopes 1 || bit s.dbg.scopes 2) then s.emit (.uartIn char) else s

end Sys2Proof.Machine
end

