-- ==== Sys2Proof/Machine/TableCmds.lean ====
section
/-! DEFINITION. The forwarding tables' commands, learning, aging, rehash, spray and group timers, and the port statistics (R63, R135 to
R170, R291). -/

namespace Sys2Proof.Machine

/-! ### Entries as commands carry them (R137 to R145, R361) -/

/-- Bytes of a table's record. -/
def entryBytes (table : Nat) : Nat := if table = 2 then 24 else if table = 3 then 64 else if table = 4 || table = 5 then 32 else
  if table = 6 then 32 else 8

/-- A route in the layout of `TBL_INSERT`, on 32 bytes. -/
def routeBytes (r : Route) : List Byte :=
  leBytes 2 r.vrf ++ leBytes 1 r.len ++ List.replicate 5 0 ++ leBytes 16 r.net ++ leBytes 4 r.dest ++ List.replicate 4 0

/-- A destination is one that R138 gives a meaning. -/
def destOk (d : Nat) : Bool :=
  d < 2 ^ 24 && match destType d with
    | 0 | 6 => destArg d = 0
    | 1 => destArg d < 144
    | 2 => destArg d < 65536
    | 3 => destArg d < 262144
    | 4 => destArg d < 16384
    | 5 => destArg d < 1048576
    | _ => false

/-- The key bits of an attachment that its type leaves zero (R139). -/
def attKeyOk (e : Nat) : Bool :=
  let key := bits e 2 32
  key < (match bits e 0 2 with
    | 0 => 2 ^ 24
    | 1 => 2 ^ 20
    | 2 => 2 ^ 8
    | _ => 2 ^ 16)

/-- The key of an entry has no bit outside its fields, as `TBL_DELETE` and `TBL_LOOKUP` read it. -/
def keyOk (table : Nat) : TblEntry → Bool
  | .record v => table ≠ 0 || attKeyOk v.toNat
  | .route vrf len net _ =>
    vrf < 4096 && len ≤ (if table = 4 then 32 else 128) && (table = 5 || net.toNat < 2 ^ 32)

/-- The whole entry is in order: every field is in its range. What it holds in reserved bits is ignored (R5). -/
def entryOk (table : Nat) (e : TblEntry) : Bool :=
  keyOk table e && match e with
    | .record v =>
      let n := v.toNat
      match table with
      | 0 | 1 => true
      | 2 => destOk (l2Dest n)
      | 3 => destOk (flowDest n)
      | _ => (destType (nhOut n) = 1 || destType (nhOut n) = 2) && destOk (nhOut n) && nhEncap n ≠ 3
    | .route _ _ _ dest => destOk dest

/-- A record with its reserved bits clear (R5, R139, R140, R143 to R145). -/
def entryClean (table n : Nat) : Nat :=
  clearBits n (match table with
    | 0 => [(57, 7)]
    | 1 => [(38, 26)]
    | 2 => [(74, 6), (120, 8), (160, 32)]
    | 3 => [(377, 7), (448, 64)]
    | _ => [(115, 13)])

/-- The function that an entry names, whose tenant must be that of the entry's VN (R141), with that VN. -/
def entryFn (table n : Nat) : Option (Nat × Nat) :=
  match table with
  | 0 => if bits n 0 2 = 3 then some (bits n 2 16, attVn n) else none
  | 2 => if destType (l2Dest n) = 2 then some (destArg (l2Dest n), bits n 48 20) else none
  | 3 => if destType (flowDest n) = 2 then some (destArg (flowDest n), flowVn n) else none
  | _ => none

/-- The checks of R141, in their order. -/
def tenantFault (s : State) (table n : Nat) : Option Nat :=
  match entryFn table n with
  | none => none
  | some (fid, vn) =>
    let r := mgetD s.pkt.vns vn 0
    if (fn? s fid).isNone then some stNotFound
    else if isVf fid && !(fnD s fid).bound then some stState
    else if !vnValid r then some stState
    else if vnTenant r ≠ tenantOf s fid then some stDenied
    else none

/-- The function that owns an entry, if any: SRC of an L2 entry with SRC_HOST, OWNER of a flow entry. -/
def entryOwner (table n : Nat) : Option Nat :=
  if table = 2 then (if l2SrcHost n then some (l2Src n) else none)
  else if table = 3 then (if flowOwner n = 0 then none else some (flowOwner n))
  else none

/-- The entry's owner is a function of a port. -/
def ownedBy (s : State) (port table n : Nat) : Bool :=
  match entryOwner table n with
  | some f => fidPort f = port && (fn? s f).isSome
  | none => false

/-- Only the Owner writes the table (R136). -/
def ownerTable (table : Nat) : Bool := table = 0 || table = 1 || (4 ≤ table && table < 7)

/-- A payload offset at fault in TABLE, PIPES or INDEX. -/
def tableFault (table pipes index : Nat) : Option Nat :=
  if 7 ≤ table then some 0
  else if table = 2 && 512 ≤ pipes then some 2
  else if (table = 1 && 1048576 ≤ index) || (table = 6 && 262144 ≤ index) then some 4
  else none

/-! ### Insertion (R137, R141, R153) -/

/-- The pipelines that an entry of a cuckoo table goes to. -/
def entryPipes (table pipes n : Nat) : List Nat :=
  if table = 3 then [0] else if table = 2 && !l2Static n then pipesOf pipes else List.range 9

/-- The entry as the engine writes it: valid, home, with the present time; a rewritten flow entry keeps its STATE. -/
def entryWritten (s : State) (table pipe n : Nat) : Nat :=
  let now := tsNow s
  match table with
  | 0 => setBits n 54 1 1
  | 2 => setBits (setBits (setBits (setBits n 68 1 1) 70 1 0) 71 1 0) 128 32 now
  | _ =>
    let n := setBits (setBits n 318 1 1) 384 32 now
    match (tblOf s 3 pipe).find flowKind (keyOf flowKind n) with
    | some old => setBits n 416 32 (flowState old)
    | none => n

/-- Writes an entry on every pipeline it goes to; false when one of them fails. -/
def insertAll (table n : Nat) : List Nat → State → State × Bool
  | [], s => (s, true)
  | p :: r, s =>
    match tblPlace table p (entryWritten s table p n) s with
    | (s, true) => insertAll table n r s
    | (s, false) => (s, false)

/-- The tables of a state as they stood before an insertion that failed; what the work raised and counted meanwhile stands (R137, R155). -/
def tablesBack (old : State) (s : State) : State :=
  let back (s : State) (t p : Nat) : State :=
    tblPressure t p (s.setTbl t p { tblOf old t p with pressure := (tblOf s t p).pressure })
  back ((List.range 9).foldl (fun s p => back (back s 0 p) 2 p) s) 3 0

/-- Counts an insertion or a deletion of an entry that every pipeline holds (R136, R170). -/
def countAll (k : CtrKind) (table : Nat) (s : State) : State := (List.range 9).foldl (fun s p => s.bump k table p 1) s

/-- Writes a cuckoo entry everywhere, or undoes it everywhere (R137). -/
def insertCuckoo (table pipes n : Nat) (s : State) : State × Reply :=
  match insertAll table n (entryPipes table pipes n) s with
  | (s', true) => (s', ok)
  | (s', false) => (tablesBack s s', fails stNoResource)

/-- Writes a route: in place when its prefix is present. -/
def insertRoute (table : Nat) (r : Route) (s : State) : State × Reply :=
  let l := if table = 4 then s.pkt.v4 else s.pkt.v6
  let same (q : Route) : Bool := q.vrf = r.vrf && q.len = r.len && q.net = r.net
  let put (l : List Route) : State :=
    s.modPkt (fun p => if table = 4 then { p with v4 := l } else { p with v6 := l })
  if l.any same then (put (l.map (fun q => if same q then r else q)), ok)
  else if (if table = 4 then 2097152 else 1048576) ≤ l.length then (countAll .tblFail table s, fails stNoResource)
  else (countAll .tblInsert table (put (l ++ [r])), ok)

/-- Writes a VN record or a next hop at its index, whatever it held (R137). -/
def insertDirect (table index n : Nat) (s : State) : State :=
  let there : Bool := if table = 1 then (mget? s.pkt.vns index).isSome else (mget? s.pkt.nhs index).isSome
  let s := s.modPkt (fun p =>
    if table = 1 then { p with vns := putRec p.vns index n 0 } else { p with nhs := mput p.nhs index n })
  -- a next hop's new OUT may end a member's life
  let s := if table = 6 then regroup s else s
  if there then s else countAll .tblInsert table s

/-- The route an entry names, its host bits cleared. -/
def routeOf (table vrf len net dest : Nat) : Route :=
  let w := if table = 4 then 32 else 128
  { vrf, len, net := net / 2 ^ (w - len) * 2 ^ (w - len), dest }

/-- Entries present with the same key on the pipelines written. -/
def presentOn (s : State) (table pipes n : Nat) : List Nat :=
  (entryPipes table pipes n).filterMap (fun p => (tblOf s table p).find (tblKind table) (keyOf (tblKind table) n))

/-- Entries that count against a function's grant in a table (R136, R144, R148). -/
def grantUse (s : State) (table fid : Nat) : Nat :=
  if table = 2 then homeCount s true fid else (s.pkt.flow.entries.filter (flowOwner · = fid)).length

/-- The entries of an insertion, `s'` being the state after it, take its owner past the grant: a port manager's in L2, and anyone's in the
flow table (R136, R144, R148). -/
def overGrant (s s' : State) (table n : Nat) (port : Bool) : Bool :=
  match entryOwner table n with
  | none => false
  | some f =>
    (port || table ≠ 2) && grantUse s table f < grantUse s' table f
      && (if table = 2 then (grantsOf s f).l2 else (grantsOf s f).flow) < grantUse s' table f

/-- A port manager may not insert the entry: the table is the Owner's, or the entry belongs to no function of its port (R136, R144). -/
def insertForeign (table : Nat) (e : TblEntry) (c : Call) (s : State) : Bool :=
  c.role = 2 && (ownerTable table || match e with
    | .record v => !ownedBy s c.port table (entryClean table v.toNat)
    | .route _ _ _ _ => false)

def tblInsert (table pipes index : Nat) (e : TblEntry) (c : Call) (s : State) : State × Reply :=
  if insertForeign table e c s then (s, fails stDenied)
  else match tableFault table pipes index with
  | some o => (s, badParam o)
  | none =>
    if !entryOk table e then (s, badParam 8)
    else match e with
      | .route vrf len net dest => insertRoute table (routeOf table vrf len net.toNat dest) s
      | .record v =>
        let n := entryClean table v.toNat
        if table = 1 || table = 6 then (insertDirect table index n s, ok)
        else match tenantFault s table n with
          | some st => (s, fails st)
          | none =>
            if c.role = 2 && !((presentOn s table pipes n).all (ownedBy s c.port table)) then (s, fails stExists)
            else match insertCuckoo table pipes n s with
              | (s', r) => if overGrant s s' table n (c.role = 2) then (s, fails stNoResource) else (s', r)

def execTblInsert (x : XCall) (table pipes index : Nat) (entry : TblEntry) : State → Host.Outcome State Fault Refusal :=
  run (wfTblInsert x table pipes index entry) (xop x 0x0401 (tblInsert table pipes index entry))

/-! ### Deletion and lookup -/

/-- Deletes an L2 key on a pipeline: a static entry goes from all nine, a home entry takes its copies with it. -/
def dropL2 (pipe key : Nat) (s : State) : State :=
  match (tblOf s 2 pipe).find l2Kind key with
  | none => s
  | some e =>
    if l2Static e then (List.range 9).foldl (fun s p => tblDel 2 p key s) s
    else
      let s := tblDel 2 pipe key s
      if l2Remote e then s else dropRemote key s

/-- Deletes a cuckoo key on the pipelines it lies on. -/
def dropKey (table pipes key : Nat) (s : State) : State :=
  if table = 2 then (pipesOf pipes).foldl (fun s p => dropL2 p key s) s
  else if table = 3 then tblDel 3 0 key s
  else (List.range 9).foldl (fun s p => tblDel 0 p key s) s

def tblDelete (table pipes index : Nat) (e : TblEntry) (c : Call) (s : State) : State × Reply :=
  if c.role = 2 && ownerTable table then (s, fails stDenied)
  else match tableFault table pipes index with
  | some o => (s, badParam o)
  | none =>
    if !keyOk table e then (s, badParam 8)
    else match e with
      | .route vrf len net dest =>
        let r := routeOf table vrf len net.toNat dest
        let l := if table = 4 then s.pkt.v4 else s.pkt.v6
        let keep := l.filter (fun q => !(q.vrf = r.vrf && q.len = r.len && q.net = r.net))
        if keep.length = l.length then (s, fails stNotFound)
        else (countAll .tblDelete table (s.modPkt (fun p => if table = 4 then { p with v4 := keep } else { p with v6 := keep })), ok)
      | .record v =>
        let n := v.toNat
        if table = 1 then
          if (mget? s.pkt.vns index).isNone then (s, fails stNotFound)
          else (countAll .tblDelete table (s.modPkt (fun p => { p with vns := mdel p.vns index })), ok)
        else if table = 6 then
          if (mget? s.pkt.nhs index).isNone then (s, fails stNotFound)
          else (countAll .tblDelete table (regroup (s.modPkt (fun p => { p with nhs := mdel p.nhs index }))), ok)
        else
          let ps := if table = 2 then pipesOf pipes else [0]
          let old := ps.filterMap (fun p => (tblOf s table p).find (tblKind table) (keyOf (tblKind table) n))
          if old.isEmpty then (s, fails stNotFound)
          else if c.role = 2 && !(old.all (ownedBy s c.port table)) then (s, fails stDenied)
          else (dropKey table pipes (keyOf (tblKind table) n) s, ok)

def execTblDelete (x : XCall) (table pipes index : Nat) (entry : TblEntry) : State → Host.Outcome State Fault Refusal :=
  run (wfTblDelete x table pipes index entry) (xop x 0x0402 (tblDelete table pipes index entry))

/-- The pipeline a lookup reads. -/
def lookPipe (table pipe : Nat) : Nat := if table = 3 then 0 else pipe

def tblLookup (table pipe index : Nat) (e : TblEntry) (c : Call) (s : State) : Reply :=
  let found (b : Option (List Byte)) : Reply := match b with
    | some bs => okWith [.arr bs]
    | none => fails stNotFound
  match tableFault table 0 index with
  | some o => badParam o
  | none =>
    if table ≠ 3 && 9 ≤ pipe then badParam 1
    else if !keyOk table e then badParam 8
    else if c.role = 2 && table ≠ 2 && table ≠ 3 then fails stNotFound
    else match e with
      | .route vrf len net dest =>
        let r := routeOf table vrf len net.toNat dest
        found (((if table = 4 then s.pkt.v4 else s.pkt.v6).find? (fun q => q.vrf = r.vrf && q.len = r.len && q.net = r.net)).map routeBytes)
      | .record v =>
        if table = 1 then found ((mget? s.pkt.vns index).map (leBytes 8))
        else if table = 6 then found ((mget? s.pkt.nhs index).map (leBytes 32))
        else match (tblOf s table (lookPipe table pipe)).find (tblKind table) (keyOf (tblKind table) v.toNat) with
          | some n => if c.role = 2 && !ownedBy s c.port table n then fails stNotFound
            else okWith [.arr (leBytes (entryBytes table) n)]
          | none => fails stNotFound

def execTblLookup (x : XCall) (table pipe index : Nat) (entry : TblEntry) : State → Host.Outcome State Fault Refusal :=
  run (wfTblLookup x table pipe index entry) (xop x 0x0403 (reads (tblLookup table pipe index entry)))

/-! ### Listing and flushing (R158, R170) -/

/-- An entry matches a filter: 0 none, 1 VN, 2 SRC, 3 OWNER (R158). -/
def filterHit (table filter value n : Nat) : Bool :=
  match filter with
  | 0 => true
  | 1 => if table = 2 then bits n 48 20 = value else flowVn n = value
  | 2 => l2Src n = value % 65536 && l2SrcHost n = bit value 16
  | _ => if table = 2 then l2SrcHost n && l2Src n = value % 65536 else flowOwner n = value % 65536

/-- The payload offset of a filter that the table does not have. -/
def filterBad (table filter : Nat) : Bool :=
  4 ≤ filter || (filter ≠ 0 && table ≠ 2 && table ≠ 3) || (table = 3 && filter = 2)

/-- A port manager may list and flush by OWNER within its port alone. -/
def filterMine (c : Call) (filter value : Nat) : Bool := c.role ≠ 2 || (filter = 3 && fidPort (value % 65536) = c.port)

/-- A table's entries with their keys, in whose order `TBL_ITER` returns them and which no move changes (log entry 35). -/
def listed (s : State) (table pipe filter value : Nat) : List (Nat × List Byte) :=
  let route (w : Nat) (r : Route) : Nat × List Byte := (pack [(w, r.net), (8, r.len), (12, r.vrf)], routeBytes r)
  match table with
  | 1 => s.pkt.vns.map (fun e => (e.1, leBytes 8 e.2))
  | 6 => s.pkt.nhs.map (fun e => (e.1, leBytes 32 e.2))
  | 4 => s.pkt.v4.map (route 32)
  | 5 => s.pkt.v6.map (route 128)
  | _ =>
    let k := tblKind table
    ((tblOf s table (lookPipe table pipe)).entries.filter (filterHit table filter value)).map
      (fun e => (keyOf k e, leBytes (entryBytes table) e))

/-- The cursor that names a key as the place to go on from: the model keeps the keys that its cursors stand for (log entry 35). -/
def cursorFor (key : Nat) (s : State) : Nat × State :=
  match s.pkt.cursors.findIdx? (· = key) with
  | some i => (i + 1, s)
  | none => (s.pkt.cursors.length + 1, s.modPkt (fun p => { p with cursors := p.cursors ++ [key] }))

/-- One page of a listing, from a key on. -/
def iterPage (table pipe filter value start room : Nat) (s : State) : State × Reply :=
  let all := ((listed s table pipe filter value).filter (fun e => start ≤ e.1)).mergeSort (fun a b => a.1 ≤ b.1)
  let n := (max 32 room - 16) / entryBytes table
  let (next, s) := match all[n]? with
    | some e => cursorFor e.1 s
    | none => (0, s)
  let page := all.take n
  (s, okWith ([u64 next, u32 page.length] ++ (if page.isEmpty then [] else [.arr (page.flatMap (·.2))])))

/-- A table's counters on a pipeline, and a source's when SRC is named (R170). -/
def tblCounters (s : State) (table pipe filter value : Nat) : List Nat :=
  let p := if table = 3 then 0 else pipe
  if filter = 2 then
    let k := learnKey (bit value 16) (value % 65536)
    [s.count .learnEvents k 0, s.count .learnExcess k 0, s.count .learnFallback k 0, s.count .spoof k 0]
  else
    [.tblInsert, .tblDelete, .tblMove, .tblFail, .tblAged, .sliceOverrun, .tblRehashed].map (fun k => s.count k table p)

def execTblIter (x : XCall) (table pipe form filter value cursor : Nat) : State → Host.Outcome State Fault Refusal :=
  run (wfTblIter x table pipe form filter value cursor) (xop x 0x0404 fun c s =>
    if (form = 1 && c.role = 2) || !filterMine c filter value then (s, fails stDenied)
    else if 7 ≤ table then (s, badParam 0)
    else if table ≠ 3 && 9 ≤ pipe then (s, badParam 1)
    else if 2 ≤ form then (s, badParam 2)
    else if (form = 0 && filterBad table filter) || (form = 1 && filter ≠ 0 && filter ≠ 2) then (s, badParam 3)
    else if form = 1 then
      let l := tblCounters s table pipe filter value
      (s, okWith ([u64 0, u32 l.length] ++ l.map u64))
    else if cursor = 0 then iterPage table pipe filter value 0 c.room s
    else match s.pkt.cursors[cursor - 1]? with
      | some start => iterPage table pipe filter value start c.room s
      | none => (s, badParam 8))

/-- Deletes what matches on one pipeline of a table; answers how many entries it took. -/
def flushPipe (table filter value pipe : Nat) (s : State) : State × Nat :=
  let k := tblKind table
  let hit (e : Nat) : Bool := filterHit table filter value e && !(if table = 2 then l2Static e else flowPinned e)
  let keys := ((tblOf s table pipe).entries.filter hit).map (keyOf k)
  (keys.foldl (fun s key => if table = 2 then dropL2 pipe key s else tblDel 3 0 key s) s, keys.length)

def execTblFlush (x : XCall) (table pipes filter value : Nat) : State → Host.Outcome State Fault Refusal :=
  run (wfTblFlush x table pipes filter value) (xop x 0x0405 fun c s =>
    if !filterMine c filter value then (s, fails stDenied)
    else if table ≠ 2 && table ≠ 3 then (s, badParam 0)
    else if table = 2 && 512 ≤ pipes then (s, badParam 2)
    else if filterBad table filter then (s, badParam 4)
    else
      let ps := if table = 2 then pipesOf pipes else [0]
      let n := (ps.map (fun p => (flushPipe table filter value p s).2)).foldl (· + ·) 0
      (ps.foldl (fun s p => (flushPipe table filter value p s).1) s, okWith [u32 n]))

/-! ### Rehash (R157) -/

/-- The reply of `TBL_REHASH`: PARTIAL, with their count, when a pass of the walker left entries unplaced. -/
def rehashReply (c : Cuckoo) (k : TblKind) : Reply :=
  let left := (c.oldEntries k).length
  let part : Bool := c.old.isSome && 0 < c.unplaced
  .done (if part then stPartial else stOk) (if part then c.unplaced else 0) [u8 (b2n c.old.isSome), u32 left, u32 c.unplaced] 0 1

def execTblRehash (x : XCall) (table pipe : Nat) : State → Host.Outcome State Fault Refusal :=
  run (wfTblRehash x table pipe) (xop x 0x0406 fun c s =>
    let k := tblKind table
    if table ≠ 0 && table ≠ 2 && table ≠ 3 then (s, badParam 0)
    else if table ≠ 3 && 9 ≤ pipe then (s, badParam 1)
    else
      let p := lookPipe table pipe
      let t := tblOf s table p
      if bit c.flags 10 then (s, rehashReply t k)
      else if t.old.isSome then (s, fails stBusy)
      else
        let (seed, s) := s.draw
        let t := { t with old := some t.seed, seed, gen := 1 - t.gen, moved := 0, unplaced := 0 }
        (s.setTbl table p t, rehashReply t k))

/-- The walker runs: it is elastic work, done with the bulk credits of the HBM burst controllers, the one elastic use that R33 gives memory work
(R34, R157; log entry 109). -/
def walkerOn (s : State) : Bool := (List.range 4).any (fun h => elasticOn s (.hbm h))

/-- The walker finishes a pass: with nothing left of the old generation its seed is erased and the event follows. -/
def rehashPass (table pipe : Nat) (s : State) : State :=
  let k := tblKind table
  let p := lookPipe table pipe
  let c := tblOf s table p
  if c.old.isNone || !walkerOn s then s
  else
    tblWorked table p (c.walkPass k) s

def execRehashDone (table pipe : Nat) : State → Host.Outcome State Fault Refusal :=
  run (wfRehashDone table pipe) (rehashPass table pipe)

/-! ### Learning and aging (R147 to R151) -/

def execLearnConfig (x : XCall) (src srcHost excess share limit : Nat) : State → Host.Outcome State Fault Refusal :=
  run (wfLearnConfig x src srcHost excess share limit) (xop x 0x0407 fun _ s =>
    if srcHost = 0 && 144 ≤ src then (s, badParam 0)
    else if 2 ≤ srcHost then (s, badParam 2)
    else if 2 ≤ excess then (s, badParam 3)
    else if 2 ≤ share then (s, badParam 4)
    else if srcHost = 0 && 262144 < limit then (s, badParam 8)
    else if srcHost = 1 && (fn? s src).isNone then (s, fails stNotFound)
    else
      let k := learnKey (srcHost = 1) src
      let old := mgetD s.pkt.learn k {}
      let new := { old with limit := if srcHost = 1 then old.limit else limit, excess := excess, share := share = 1 }
      (s.modPkt (fun p => { p with learn := mput p.learn k new }), ok))

/-- The learning service takes the next event of a pipeline: the limit again, then the home entry and its copies; fall-back entries
become its own (R147, R149). -/
def learnService (pipe : Nat) (s : State) : State :=
  if !learnServiceUp s then s
  else
    let s := takeFallback s
    match mgetD s.pkt.learnQ pipe [] with
    | [] => s
    | e :: rest =>
      let s := s.modPkt (fun p => { p with learnQ := mput p.learnQ pipe rest })
      let same : Bool := match (tblOf s 2 pipe).find l2Kind (l2Key e.mac e.vn) with
        | some x => l2Static x || (l2SrcHost x = e.host && l2Src x = e.src && !l2Remote x)
        | none => false
      if same then s
      else if learnLimit s e.host e.src ≤ homeCount s e.host e.src then excess pipe e.host e.src s
      else match installHome pipe e.mac e.vn e.host e.src s with
        | (s, true) => s
        | (s, false) => excess pipe e.host e.src s

def execLearnServiceEvent (pipe : Nat) : State → Host.Outcome State Fault Refusal :=
  run (wfLearnServiceEvent pipe) (learnService pipe)

def agingKey (table pipe : Nat) : Nat := if table = 3 then 9 else pipe
def agingOf (s : State) (key : Nat) : Aging := mgetD s.pkt.aging key {}

def execAgingConfig (x : XCall) (table pipes ageS sliceUs entries : Nat) : State → Host.Outcome State Fault Refusal :=
  run (wfAgingConfig x table pipes ageS sliceUs entries) (xop x 0x0408 fun _ s =>
    if table ≠ 2 && table ≠ 3 then (s, badParam 0)
    else if table = 2 && 512 ≤ pipes then (s, badParam 2)
    else if 1000000 < ageS then (s, badParam 4)
    else if sliceUs < 100 || 100000 < sliceUs then (s, badParam 8)
    else if entries < 256 || 65536 < entries || popcount 20 entries ≠ 1 then (s, badParam 12)
    else
      let keys := if table = 3 then [9] else pipesOf pipes
      let put (s : State) (k : Nat) : State :=
        let a := { agingOf s k with ageS := ageS, sliceUs := sliceUs, entries := entries }
        s.modPkt (fun p => { p with aging := mput p.aging k a })
      (keys.foldl put s, ok))

/-- AGE_TICKS (R150). -/
def ageTicks (ageS : Nat) : Nat := cdiv (ageS * 10 ^ 9) (2 ^ 20)

/-- An entry is stamped ahead of device time: the clock has stepped back since, and has not passed the stamp again (R151; log entry 96). -/
def stampAhead (s : State) (ts : Nat) : Bool :=
  let d := (ts + 2 ^ 32 - tsNow s) % 2 ^ 32
  0 < d && d ≤ s.pkt.stampHigh - s.time / 2 ^ 20

/-- An entry is old enough for the sweep to remove it: (now − TS) mod 2³² has reached AGE_TICKS, twice that for a REMOTE copy (R150). The aging of
one stamped ahead waits for the clock (R151). -/
def tooOld (s : State) (table ticks n : Nat) : Bool :=
  let old (ts limit : Nat) : Bool := !stampAhead s ts && limit ≤ (tsNow s + 2 ^ 32 - ts) % 2 ^ 32
  if table = 2 then !l2Static n && old (l2Ts n) (if l2Remote n then 2 * ticks else ticks)
  else !flowPinned n && old (flowTs n) ticks

/-- A slice of a sweep over a table. A home entry that goes takes its copies while the learning service runs (R147). -/
def agingSlice (table pipe : Nat) (examined : Option Nat) (s : State) : State :=
  let key := agingKey table pipe
  let p := lookPipe table pipe
  let a := agingOf s key
  if a.ageS = 0 || s.phase ≠ .running then s
  else
    let k := tblKind table
    let n := min (examined.getD a.entries) a.entries
    let c := tblOf s table p
    let range := c.slots.filter (fun e => a.cursor ≤ e.1 && e.1 < a.cursor + n)
    let gone := ((range ++ c.stash).map (·.2)).filter (tooOld s table (ageTicks a.ageS))
    let s := gone.foldl (fun s e =>
      let s := tblDel table p (keyOf k e) s
      if table = 2 && !l2Remote e && learnServiceUp s then dropRemote (keyOf k e) s else s) s
    let s := s.bump .tblAged table p gone.length
    let s := if n < a.entries then s.bump .sliceOverrun table p 1 else s
    s.modPkt (fun q => { q with aging := mput q.aging key { a with cursor := (a.cursor + a.entries) % k.size } })

def execAgingSlice (table pipe : Nat) (examined : Option Nat) : State → Host.Outcome State Fault Refusal :=
  run (wfAgingSlice table pipe examined) (agingSlice table pipe examined)

/-! ### Groups (R161 to R163, R167, R168) -/

/-- Starts a seed rotation of a group on every pipeline. -/
def startRotation (g : Nat) (s : State) : State :=
  (List.range 9).foldl (fun s p =>
    let (seed, s) := s.draw
    s.modHw g p (fun h => { h with seed, old := some h.seed, switched := [] })) s

/-- A rotation of the group is in progress. -/
def rotating? (s : State) (g : Nat) : Bool := s.pkt.grp.any (fun e => e.1 / 16 = g && e.2.old.isSome)

/-- A bucket has had nothing queued and has not been used for GAP: in hash mode it goes to its live target, in flowlet mode its next
packet chooses, and in a seed rotation it is switched (R161, R163, R168). -/
def bucketExpire (g pipe b : Nat) (s : State) : State :=
  let gr := grpOf s s.pkt.leap.active g
  if gr.members.isEmpty || grpMode gr.record = 2 || !bucketIdle s g pipe b (grpGap gr.record) then s
  else
    let t := targetOf gr b
    let s := if grpMode gr.record = 1 then s.modHw g pipe (fun h => { h with cur := mdel h.cur b })
      else if memberLive s gr t then s.modHw g pipe (fun h => { h with cur := mput h.cur b (memberOf gr t) })
      else s
    match (hwOf s g pipe).old with
    | none => s
    | some old =>
      let sw := mput (hwOf s g pipe).switched b ()
      let done := 512 ≤ sw.length
      let s := s.modHw g pipe (fun h => { h with switched := if done then [] else sw, old := if done then none else some old })
      if done && !rotating? s g then s.event 0x0405 (.dev g) 0 else s

def execFlowletGapExpire (group pipe bucket : Nat) : State → Host.Outcome State Fault Refusal :=
  run (wfFlowletGapExpire group pipe bucket) (bucketExpire group pipe bucket)

/-- A 1 ms window of the imbalance monitor ends (R167). After an event the count of consecutive windows starts again, so that an imbalance that
lasts raises it again (log entry 107, DESIGN CHOICE). -/
def monitorWindow (g : Nat) (s : State) : State :=
  match mget? s.pkt.mon g with
  | none => s
  | some m =>
    if !m.armed then s
    else
      let gr := grpOf s s.pkt.leap.active g
      let live := liveMembers s gr
      let bytes := live.map (fun i => mgetD m.bytes i 0)
      let total := bytes.foldl (· + ·) 0
      let top := bytes.foldl max 0
      let hot : Bool := m.ratio * total < top * 16 * live.length
      let n := if hot then m.overs + 1 else 0
      let fire : Bool := hot && m.windows ≤ n
      let s := s.modPkt (fun p => { p with mon := mput p.mon g { m with overs := if fire then 0 else n, last := m.bytes, bytes := [] } })
      if fire then
        let s := s.event 0x0404 (.dev g) (min 65535 (top * 16 * live.length / total) + 65536 * live.length)
        if m.rotate && !rotating? s g then startRotation g s else s
      else s

def execLbImbalanceWindow (group : Nat) : State → Host.Outcome State Fault Refusal :=
  run (wfLbImbalanceWindow group) (monitorWindow group)

def execLbMonitor (x : XCall) (group op ratio windows rotate : Nat) : State → Host.Outcome State Fault Refusal :=
  run (wfLbMonitor x group op ratio windows rotate) (xop x 0x040A fun _ s =>
    let gr := grpOf s s.pkt.leap.active group
    let m := mgetD s.pkt.mon group {}
    let answer (s : State) : State × Reply :=
      (s, okRecords ([u8 (b2n (rotating? s group))] ++ (List.range gr.members.length).map (fun i => u64 (mgetD m.last i 0))) 8 8)
    if 16384 ≤ group then (s, badParam 0)
    else if 4 ≤ op then (s, badParam 2)
    else if op = 0 && (ratio < 17 || 128 < ratio) then (s, badParam 3)
    else if op = 0 && (windows < 1 || 1000 < windows) then (s, badParam 4)
    else if op = 0 && 2 ≤ rotate then (s, badParam 6)
    else if gr.members.isEmpty then (s, fails stNotFound)
    else if grpMode gr.record = 2 then (s, fails stState)
    else if op = 0 then
      answer (s.modPkt (fun p => { p with mon := mput p.mon group { armed := true, ratio, windows, rotate := rotate = 1 } }))
    else if op = 1 then answer (s.modPkt (fun p => { p with mon := mput p.mon group { m with armed := false } }))
    else if op = 2 then (if rotating? s group then (s, fails stBusy) else answer (startRotation group s))
    else answer s)

/-! ### Spray receive timers (R165, R166) -/

def execSprayReseqTimeout (unit stream : Nat) : State → Host.Outcome State Fault Refusal :=
  run (wfSprayReseqTimeout unit stream) (sprayTimeout (unit * 65536 + stream))

/-- A context that has held nothing for 1 ms is free for reuse. -/
def execSprayContextIdle (unit stream : Nat) : State → Host.Outcome State Fault Refusal :=
  run (wfSprayContextIdle unit stream) fun s =>
    let k := unit * 65536 + stream
    match mget? s.pkt.sprayRx k with
    | some c => if c.held.isEmpty then s.modPkt (fun p => { p with sprayRx := mdel p.sprayRx k }) else s
    | none => s

/-! ### Port statistics (R63, R135, R170, R291) -/

/-- A port's counts of a kind, each after its number: of MACsec SAs, of lanes (R63). -/
def portParts (s : State) (kind : CtrKind) (port : Nat) : List Nat :=
  (s.ctr.filter (fun e => e.1.kind = kind && e.1.a = port)).flatMap (fun e => [e.1.b, e.2])

/-- FORM 0: the MAC's counters of an Ethernet port, its frames that MACsec SAs dropped, by SA, then its lane errors, by lane (log entry 36). -/
def macCounters (s : State) (port : Nat) : List Nat :=
  let one (k : CtrKind) : Nat := s.count k port 0
  let per (k : CtrKind) : List Nat := (List.range 8).map (s.count k port)
  [one .portRxFrames, one .portRxBytes, one .portTxFrames, one .portTxBytes, one .portFcs, one .portLength, one .portFec,
    one .engineOverrun] ++ per .portPauseRx ++ per .portPauseTx ++ per .portStormDrop ++ [one .portMacsecDrop]
    ++ portParts s .portSaDrop port ++ portParts s .portLaneErrors port

/-- FORM 1: the parser's counters of a parse port, and its pipeline's punt drops. -/
def parseCounters (s : State) (port : Nat) : List Nat :=
  (List.range 9).map (s.count .parseErr port) ++ (List.range 7).map (s.count .depthStop port)
    ++ [s.count .noMatch port 0, s.count .fragments port 0, s.count .puntDrop (pipeOfPort s port) 0]

/-- The port that a destination leaves by, as parse ports number it: an Ethernet port, or a function's host port (R9, R121). -/
def exitPort (d : Nat) : Option Nat :=
  if destType d = 1 then some (destArg d) else if destType d = 2 then some (144 + fidPort (destArg d)) else none

/-- FORM 2: the port as a learning source, spray, the groups' members that leave by the port, and Path Check Word mismatches of its
pipeline; of a host port, its controllers' protection-information errors, each after its FID and status code (log entry 36). -/
def tableCounters (s : State) (port : Nat) : List Nat :=
  let members := (groupsOf s).flatMap fun g =>
    let gr := grpOf s s.pkt.leap.active g
    (List.range gr.members.length).filterMap fun i =>
      if exitPort (memberDest s (grpKind gr.record) (memberId (gr.members.getD i 0))) = some port then some (g, i) else none
  [s.count .learnEvents port 0, s.count .learnExcess port 0, s.count .learnFallback port 0, s.count .spoof port 0,
    s.count .sprayLost 0 0, s.count .sprayLate 0 0, s.count .sprayCtxDrop 0 0,
    s.count .pcwBad 0 (pipeOfPort s port), s.count .pcwBad 1 (pipeOfPort s port), s.count .pcwBad 2 (pipeOfPort s port)]
    ++ members.flatMap (fun m => [s.count .groupPkts m.1 m.2, s.count .groupBytes m.1 m.2])
    ++ (s.ctr.filter (fun e => e.1.kind = .piErr && 144 + fidPort e.1.a = port)).flatMap (fun e => [e.1.a, e.1.b, e.2])

def execPortStats (x : XCall) (port form : Nat) : State → Host.Outcome State Fault Refusal :=
  run (wfPortStats x port form) (xop x 0x0203 (reads fun c s =>
    if 176 ≤ port || (form = 0 && 144 ≤ port) then badParam 0
    else if 3 ≤ form then badParam 2
    else if c.role = 2 && port ≠ 144 + c.port then fails stNotFound
    else
      let l := if form = 0 then macCounters s port else if form = 1 then parseCounters s port else tableCounters s port
      okRecords (l.map u64) 0 8))

end Sys2Proof.Machine
end

