-- ==== Sys2Proof/Machine/Dispatch.lean ====
section
/-! DEFINITION. The command's meaning, one arm for each constructor. -/

namespace Sys2Proof.Machine

/-- The effect of a command on everything but the queue. -/
def exec (i : Instr) (s : State) : Host.Outcome State Fault Refusal :=
  match i with
  | .sysRstNAssert => Sys2Proof.Machine.execSysRstNAssert s
  | .sysRstNRelease chnHead bootRecoveryN ownerStrap => Sys2Proof.Machine.execSysRstNRelease chnHead bootRecoveryN ownerStrap s
  | .pwrOkRise => Sys2Proof.Machine.execPwrOkRise s
  | .pwrOkFall => Sys2Proof.Machine.execPwrOkFall s
  | .alarmNAssert ns stillLow => Sys2Proof.Machine.execAlarmNAssert ns stillLow s
  | .supplyGlitch rail permille ns => Sys2Proof.Machine.execSupplyGlitch rail permille ns s
  | .tjThresholdCross sensor tj => Sys2Proof.Machine.execTjThresholdCross sensor tj s
  | .wakeNAssert ns => Sys2Proof.Machine.execWakeNAssert ns s
  | .ppsInEdge => Sys2Proof.Machine.execPpsInEdge s
  | .ptpStep delta => Sys2Proof.Machine.execPtpStep delta s
  | .arbiterEpoch core sds coreNow sdsNow => Sys2Proof.Machine.execArbiterEpoch core sds coreNow sdsNow s
  | .hardLimitCross sdsRail now => Sys2Proof.Machine.execHardLimitCross sdsRail now s
  | .governorPeriod late => Sys2Proof.Machine.execGovernorPeriod late s
  | .avsWriteDone ok => Sys2Proof.Machine.execAvsWriteDone ok s
  | .sensorWindow cluster unit rate => Sys2Proof.Machine.execSensorWindow cluster unit rate s
  | .stallWatchdogFire dom stall => Sys2Proof.Machine.execStallWatchdogFire dom stall s
  | .invalidCodeword dom stage => Sys2Proof.Machine.execInvalidCodeword dom stage s
  | .clearSelftestDone dom pass => Sys2Proof.Machine.execClearSelftestDone dom pass s
  | .probationEnd dom => Sys2Proof.Machine.execProbationEnd dom s
  | .checkerSelftest dom checker flagged => Sys2Proof.Machine.execCheckerSelftest dom checker flagged s
  | .scrubStep mem unit addr found => Sys2Proof.Machine.execScrubStep mem unit addr found s
  | .eftLockstepMismatch stage => Sys2Proof.Machine.execEftLockstepMismatch stage s
  | .eftRestartDone => Sys2Proof.Machine.execEftRestartDone s
  | .wearEvaluation kind unit corr word row stall held24 => Sys2Proof.Machine.execWearEvaluation kind unit corr word row stall held24 s
  | .ageHour tjMax => Sys2Proof.Machine.execAgeHour tjMax s
  | .regrowthDone kind ok => Sys2Proof.Machine.execRegrowthDone kind ok s
  | .laneBerWindow lane ber10s ber10min => Sys2Proof.Machine.execLaneBerWindow lane ber10s ber10min s
  | .linkTrainingDone port ok failed => Sys2Proof.Machine.execLinkTrainingDone port ok failed s
  | .reformTimeout port => Sys2Proof.Machine.execReformTimeout port s
  | .linkLoss port => Sys2Proof.Machine.execLinkLoss port s
  | .ethFrameReceive port frame fcs fecOk => Sys2Proof.Machine.execEthFrameReceive port frame fcs fecOk s
  | .pauseFrameReceive port pfc mask quanta => Sys2Proof.Machine.execPauseFrameReceive port pfc mask quanta s
  | .pauseQuantaExpire port prio => Sys2Proof.Machine.execPauseQuantaExpire port prio s
  | .pauseStormLimit port prio => Sys2Proof.Machine.execPauseStormLimit port prio s
  | .pauseStormClear port prio => Sys2Proof.Machine.execPauseStormClear port prio s
  | .mgmt0FrameReceive frame fcs => Sys2Proof.Machine.execMgmt0FrameReceive frame fcs s
  | .pipelineHeaderAccept turn => Sys2Proof.Machine.execPipelineHeaderAccept turn s
  | .microword turn engine ecc => Sys2Proof.Machine.execMicroword turn engine ecc s
  | .microcodeOpComplete turn ctx kind => Sys2Proof.Machine.execMicrocodeOpComplete turn ctx kind s
  | .sprayReseqTimeout unit stream => Sys2Proof.Machine.execSprayReseqTimeout unit stream s
  | .sprayContextIdle unit stream => Sys2Proof.Machine.execSprayContextIdle unit stream s
  | .flowletGapExpire group pipe bucket => Sys2Proof.Machine.execFlowletGapExpire group pipe bucket s
  | .lbImbalanceWindow group => Sys2Proof.Machine.execLbImbalanceWindow group s
  | .agingSlice table pipe examined => Sys2Proof.Machine.execAgingSlice table pipe examined s
  | .learnServiceEvent pipe => Sys2Proof.Machine.execLearnServiceEvent pipe s
  | .rehashDone table pipe => Sys2Proof.Machine.execRehashDone table pipe s
  | .egressSchedule l0 bufs pcwOk composed => Sys2Proof.Machine.execEgressSchedule l0 bufs pcwOk composed s
  | .deadlineHeadCheck queue => Sys2Proof.Machine.execDeadlineHeadCheck queue s
  | .queueTelemetrySample ring consumer inTime => Sys2Proof.Machine.execQueueTelemetrySample ring consumer inTime s
  | .minuteBoundary => Sys2Proof.Machine.execMinuteBoundary s
  | .meterExport lost => Sys2Proof.Machine.execMeterExport lost s
  | .timedLeapTrigger spread => Sys2Proof.Machine.execTimedLeapTrigger spread s
  | .padWriteResume mbx timedOut => Sys2Proof.Machine.execPadWriteResume mbx timedOut s
  | .pcieConfigRequest fn reg bus write value => Sys2Proof.Machine.execPcieConfigRequest fn reg bus write value s
  | .bmeClear fid => Sys2Proof.Machine.execBmeClear fid s
  | .mseClear fid => Sys2Proof.Machine.execMseClear fid s
  | .flr fid => Sys2Proof.Machine.execFlr fid s
  | .vfEnableSet fid numVfs => Sys2Proof.Machine.execVfEnableSet fid numVfs s
  | .vfEnableClear fid => Sys2Proof.Machine.execVfEnableClear fid s
  | .d3hotEnter fid => Sys2Proof.Machine.execD3hotEnter fid s
  | .d0Return fid => Sys2Proof.Machine.execD0Return fid s
  | .d3coldEnter port => Sys2Proof.Machine.execD3coldEnter port s
  | .hpPerstNAssert port ns => Sys2Proof.Machine.execHpPerstNAssert port ns s
  | .hpPerstNDeassert port => Sys2Proof.Machine.execHpPerstNDeassert port s
  | .hotReset port => Sys2Proof.Machine.execHotReset port s
  | .dlUp port width gt flit => Sys2Proof.Machine.execDlUp port width gt flit s
  | .l1Enter port aspm => Sys2Proof.Machine.execL1Enter port aspm s
  | .msixUnmask fid vector => Sys2Proof.Machine.execMsixUnmask fid vector s
  | .bar4WindowTlp fid off len write data stalled => Sys2Proof.Machine.execBar4WindowTlp fid off len write data stalled s
  | .pcieReadCompletion port tag data => Sys2Proof.Machine.execPcieReadCompletion port tag data s
  | .completionTimeout port tag => Sys2Proof.Machine.execCompletionTimeout port tag s
  | .ringEnable fid ring value => Sys2Proof.Machine.execRingEnable fid ring value s
  | .ringDisable fid ring value => Sys2Proof.Machine.execRingDisable fid ring value s
  | .ringReset fid ring => Sys2Proof.Machine.execRingReset fid ring s
  | .ringDb fid ring composed => Sys2Proof.Machine.execRingDb fid ring composed s
  | .indexWordReadDone fid of q => Sys2Proof.Machine.execIndexWordReadDone fid of q s
  | .hostTxPacket fid ring descs data composed => Sys2Proof.Machine.execHostTxPacket fid ring descs data composed s
  | .cplCi fid ring c => Sys2Proof.Machine.execCplCi fid ring c s
  | .cplModTimerExpire fid ring => Sys2Proof.Machine.execCplModTimerExpire fid ring s
  | .fnCtlUnfence fid => Sys2Proof.Machine.execFnCtlUnfence fid s
  | .registerWrite fn bar off size value => Sys2Proof.Machine.execRegisterWrite fn bar off size value s
  | .mbxEnable fid value => Sys2Proof.Machine.execMbxEnable fid value s
  | .mbxDisable fid value => Sys2Proof.Machine.execMbxDisable fid value s
  | .mbxDb fid value size composed => Sys2Proof.Machine.execMbxDb fid value size composed s
  | .mbxHeadlessAnswer mbx => Sys2Proof.Machine.execMbxHeadlessAnswer mbx s
  | .unassignedOpcode x => Sys2Proof.Machine.execUnassignedOpcode x s
  | .devInfo x => Sys2Proof.Machine.execDevInfo x s
  | .devCaps x => Sys2Proof.Machine.execDevCaps x s
  | .devTimeGet x => Sys2Proof.Machine.execDevTimeGet x s
  | .devTimeSet x mode value => Sys2Proof.Machine.execDevTimeSet x mode value s
  | .devReset x kind port => Sys2Proof.Machine.execDevReset x kind port s
  | .portConfig x p => Sys2Proof.Machine.execPortConfig x p s
  | .portState x port => Sys2Proof.Machine.execPortState x port s
  | .portStats x port form => Sys2Proof.Machine.execPortStats x port form s
  | .laneDiag x lane func pattern measured => Sys2Proof.Machine.execLaneDiag x lane func pattern measured s
  | .octetMode x octet mode floors => Sys2Proof.Machine.execOctetMode x octet mode floors s
  | .allotSet x port tenant tenBase tenCount counts => Sys2Proof.Machine.execAllotSet x port tenant tenBase tenCount counts s
  | .allotGet x port => Sys2Proof.Machine.execAllotGet x port s
  | .fnCreate x port pf vf counts => Sys2Proof.Machine.execFnCreate x port pf vf counts s
  | .fnDestroy x fid => Sys2Proof.Machine.execFnDestroy x fid s
  | .fnQuery x fid => Sys2Proof.Machine.execFnQuery x fid s
  | .tenantBind x fid tenant => Sys2Proof.Machine.execTenantBind x fid tenant s
  | .windowSet x w => Sys2Proof.Machine.execWindowSet x w s
  | .windowRetire x port index => Sys2Proof.Machine.execWindowRetire x port index s
  | .windowDrainDone port index => Sys2Proof.Machine.execWindowDrainDone port index s
  | .windowRetireTimeout port index => Sys2Proof.Machine.execWindowRetireTimeout port index s
  | .tblInsert x table pipes index entry => Sys2Proof.Machine.execTblInsert x table pipes index entry s
  | .tblDelete x table pipes index entry => Sys2Proof.Machine.execTblDelete x table pipes index entry s
  | .tblLookup x table pipe index entry => Sys2Proof.Machine.execTblLookup x table pipe index entry s
  | .tblIter x table pipe form filter value cursor => Sys2Proof.Machine.execTblIter x table pipe form filter value cursor s
  | .tblFlush x table pipes filter value => Sys2Proof.Machine.execTblFlush x table pipes filter value s
  | .tblRehash x table pipe => Sys2Proof.Machine.execTblRehash x table pipe s
  | .learnConfig x src srcHost excess share limit => Sys2Proof.Machine.execLearnConfig x src srcHost excess share limit s
  | .agingConfig x table pipes ageS sliceUs entries => Sys2Proof.Machine.execAgingConfig x table pipes ageS sliceUs entries s
  | .lbGroupSet x group record members => Sys2Proof.Machine.execLbGroupSet x group record members s
  | .lbMonitor x group op ratio windows rotate => Sys2Proof.Machine.execLbMonitor x group op ratio windows rotate s
  | .parseDepthSet x port record => Sys2Proof.Machine.execParseDepthSet x port record s
  | .portDefaultSet x port action => Sys2Proof.Machine.execPortDefaultSet x port action s
  | .ruleWrite x pipes kind slot entry => Sys2Proof.Machine.execRuleWrite x pipes kind slot entry s
  | .ruleClear x pipes kind slot => Sys2Proof.Machine.execRuleClear x pipes kind slot s
  | .ruleRead x pipe pad kind slot => Sys2Proof.Machine.execRuleRead x pipe pad kind slot s
  | .ucodeLoad x u => Sys2Proof.Machine.execUcodeLoad x u s
  | .ucodeKeyEnrol x index op key => Sys2Proof.Machine.execUcodeKeyEnrol x index op key s
  | .ucodeInfo x pipe pad => Sys2Proof.Machine.execUcodeInfo x pipe pad s
  | .ucodePatchState x pipe pad => Sys2Proof.Machine.execUcodePatchState x pipe pad s
  | .padCopy x => Sys2Proof.Machine.execPadCopy x s
  | .padLeap x mode expect time => Sys2Proof.Machine.execPadLeap x mode expect time s
  | .padState x => Sys2Proof.Machine.execPadState x s
  | .padDiscard x => Sys2Proof.Machine.execPadDiscard x s
  | .poolConfig x pool record => Sys2Proof.Machine.execPoolConfig x pool record s
  | .reserveSet x okind pool lossless id min headroom => Sys2Proof.Machine.execReserveSet x okind pool lossless id min headroom s
  | .policerSet x index record => Sys2Proof.Machine.execPolicerSet x index record s
  | .shaperSet x level resetTo node cir cbs pir pbs => Sys2Proof.Machine.execShaperSet x level resetTo node cir cbs pir pbs s
  | .queueMap x q => Sys2Proof.Machine.execQueueMap x q s
  | .queueSampleConfig x ring log2 interval count ringAddr indexAddr queues => Sys2Proof.Machine.execQueueSampleConfig x ring log2 interval count ringAddr indexAddr queues s
  | .queueStats x queue => Sys2Proof.Machine.execQueueStats x queue s
  | .volCreate x handle tenant slot size opts reps => Sys2Proof.Machine.execVolCreate x handle tenant slot size opts reps s
  | .volDestroy x handle => Sys2Proof.Machine.execVolDestroy x handle s
  | .volAttach x handle fid nsid format pitype rebuild => Sys2Proof.Machine.execVolAttach x handle fid nsid format pitype rebuild s
  | .volDetach x handle fid => Sys2Proof.Machine.execVolDetach x handle fid s
  | .backendAdd x c found => Sys2Proof.Machine.execBackendAdd x c found s
  | .backendState x backend => Sys2Proof.Machine.execBackendState x backend s
  | .volReconcileState x handle => Sys2Proof.Machine.execVolReconcileState x handle s
  | .keyLoad x slot wrapSlot type usage tenant material => Sys2Proof.Machine.execKeyLoad x slot wrapSlot type usage tenant material s
  | .keyErase x slot => Sys2Proof.Machine.execKeyErase x slot s
  | .keyEraseComplete slot => Sys2Proof.Machine.execKeyEraseComplete slot s
  | .saCreate x c => Sys2Proof.Machine.execSaCreate x c s
  | .saState x sa => Sys2Proof.Machine.execSaState x sa s
  | .alarmState x => Sys2Proof.Machine.execAlarmState x s
  | .alarmClear x => Sys2Proof.Machine.execAlarmClear x s
  | .kekRotate x => Sys2Proof.Machine.execKekRotate x s
  | .kekRotationDone => Sys2Proof.Machine.execKekRotationDone s
  | .cipherRequestComplete req hwFault pcw => Sys2Proof.Machine.execCipherRequestComplete req hwFault pcw s
  | .cipherBusyTimeout turn => Sys2Proof.Machine.execCipherBusyTimeout turn s
  | .keyCacheFill read => Sys2Proof.Machine.execKeyCacheFill read s
  | .partCreate x form cluster cores action tenant clusters channels handles sentinelMs regionMib => Sys2Proof.Machine.execPartCreate x form cluster cores action tenant clusters channels handles sentinelMs regionMib s
  | .partDestroy x part => Sys2Proof.Machine.execPartDestroy x part s
  | .imageLoad x part image => Sys2Proof.Machine.execImageLoad x part image s
  | .partStart x part => Sys2Proof.Machine.execPartStart x part s
  | .partStop x part => Sys2Proof.Machine.execPartStop x part s
  | .debugAttach x part op => Sys2Proof.Machine.execDebugAttach x part op s
  | .meterRead x form tenant index => Sys2Proof.Machine.execMeterRead x form tenant index s
  | .meterExportConfig x c => Sys2Proof.Machine.execMeterExportConfig x c s
  | .telemConfig x intervalMs log2 ringAddr indexAddr => Sys2Proof.Machine.execTelemConfig x intervalMs log2 ringAddr indexAddr s
  | .eventSubscribe x mask log2 vector ringAddr indexAddr => Sys2Proof.Machine.execEventSubscribe x mask log2 vector ringAddr indexAddr s
  | .fwStage x slot offset total data => Sys2Proof.Machine.execFwStage x slot offset total data s
  | .fwActivate x type slot trial => Sys2Proof.Machine.execFwActivate x type slot trial s
  | .fwActivateDrainDone => Sys2Proof.Machine.execFwActivateDrainDone s
  | .fwActivateDrainTimeout => Sys2Proof.Machine.execFwActivateDrainTimeout s
  | .fwState x => Sys2Proof.Machine.execFwState x s
  | .trialConfirm => Sys2Proof.Machine.execTrialConfirm s
  | .trialTimerExpire => Sys2Proof.Machine.execTrialTimerExpire s
  | .keyRevoke x index => Sys2Proof.Machine.execKeyRevoke x index s
  | .attestQuote x nonce => Sys2Proof.Machine.execAttestQuote x nonce s
  | .baskEnter x => Sys2Proof.Machine.execBaskEnter x s
  | .baskDrainDone => Sys2Proof.Machine.execBaskDrainDone s
  | .baskDrainTimeout us => Sys2Proof.Machine.execBaskDrainTimeout us s
  | .faultLogRead x seqFrom => Sys2Proof.Machine.execFaultLogRead x seqFrom s
  | .faultClear x seq => Sys2Proof.Machine.execFaultClear x seq s
  | .regrowState x => Sys2Proof.Machine.execRegrowState x s
  | .regrowStart x kind unit => Sys2Proof.Machine.execRegrowStart x kind unit s
  | .wearReport x => Sys2Proof.Machine.execWearReport x s
  | .powerBudgetSet x core coreHard sds sdsHard packageW note => Sys2Proof.Machine.execPowerBudgetSet x core coreHard sds sdsHard packageW note s
  | .powerState x => Sys2Proof.Machine.execPowerState x s
  | .governorSet x margin stepUpMv stepDownHalfMv vminMv vmaxMv periodUs holdDown => Sys2Proof.Machine.execGovernorSet x margin stepUpMv stepDownHalfMv vminMv vmaxMv periodUs holdDown s
  | .migDirtyStart x fid len bitmap => Sys2Proof.Machine.execMigDirtyStart x fid len bitmap s
  | .migDirtyStop x fid => Sys2Proof.Machine.execMigDirtyStop x fid s
  | .dirtyBitWrite fid page => Sys2Proof.Machine.execDirtyBitWrite fid page s
  | .migFreeze x fid => Sys2Proof.Machine.execMigFreeze x fid s
  | .migFreezeDrainDone fid => Sys2Proof.Machine.execMigFreezeDrainDone fid s
  | .migFreezeTimeout fid => Sys2Proof.Machine.execMigFreezeTimeout fid s
  | .migSave x fid => Sys2Proof.Machine.execMigSave x fid s
  | .migRestore x fid blob => Sys2Proof.Machine.execMigRestore x fid blob s
  | .migThaw x fid => Sys2Proof.Machine.execMigThaw x fid s
  | .migKeySet x slot => Sys2Proof.Machine.execMigKeySet x slot s
  | .chainState x => Sys2Proof.Machine.execChainState x s
  | .chainSend x dest len data => Sys2Proof.Machine.execChainSend x dest len data s
  | .chainSendTimeout => Sys2Proof.Machine.execChainSendTimeout s
  | .ckvCtxRead x index => Sys2Proof.Machine.execCkvCtxRead x index s
  | .ckvCtxWrite x index context => Sys2Proof.Machine.execCkvCtxWrite x index context s
  | .vfExchNotify fid value => Sys2Proof.Machine.execVfExchNotify fid value s
  | .pfExchNotify fid value => Sys2Proof.Machine.execPfExchNotify fid value s
  | .exchPendClear fid index value => Sys2Proof.Machine.execExchPendClear fid index value s
  | .rcvOwnerWrite value => Sys2Proof.Machine.execRcvOwnerWrite value s
  | .nvmeCcEnable fn value => Sys2Proof.Machine.execNvmeCcEnable fn value s
  | .nvmeCcDisable fn value => Sys2Proof.Machine.execNvmeCcDisable fn value s
  | .nvmeCcShutdown fn value => Sys2Proof.Machine.execNvmeCcShutdown fn value s
  | .nvmeSqDoorbell fid qid value => Sys2Proof.Machine.execNvmeSqDoorbell fid qid value s
  | .nvmeCqDoorbell fid qid value => Sys2Proof.Machine.execNvmeCqDoorbell fid qid value s
  | .nvmeCommandFetch fid qid sqe lists mdList ranges composed => Sys2Proof.Machine.execNvmeCommandFetch fid qid sqe lists mdList ranges composed s
  | .nvmeCommandStart fid qid cmd => Sys2Proof.Machine.execNvmeCommandStart fid qid cmd s
  | .nvmePostingPoint fid qid entry => Sys2Proof.Machine.execNvmePostingPoint fid qid entry s
  | .nvmeDeleteIoSq fid cid => Sys2Proof.Machine.execNvmeDeleteIoSq fid cid s
  | .nvmeCreateIoSq fid cid => Sys2Proof.Machine.execNvmeCreateIoSq fid cid s
  | .nvmeGetLogPage fid cid => Sys2Proof.Machine.execNvmeGetLogPage fid cid s
  | .nvmeDeleteIoCq fid cid => Sys2Proof.Machine.execNvmeDeleteIoCq fid cid s
  | .nvmeCreateIoCq fid cid => Sys2Proof.Machine.execNvmeCreateIoCq fid cid s
  | .nvmeIdentify fid cid => Sys2Proof.Machine.execNvmeIdentify fid cid s
  | .nvmeAbort fid cid => Sys2Proof.Machine.execNvmeAbort fid cid s
  | .nvmeSetFeatures fid cid => Sys2Proof.Machine.execNvmeSetFeatures fid cid s
  | .nvmeGetFeatures fid cid => Sys2Proof.Machine.execNvmeGetFeatures fid cid s
  | .nvmeAsyncEventRequest fid cid => Sys2Proof.Machine.execNvmeAsyncEventRequest fid cid s
  | .nvmeAdminUnsupported fid cid => Sys2Proof.Machine.execNvmeAdminUnsupported fid cid s
  | .nvmeFlush fid qid cid => Sys2Proof.Machine.execNvmeFlush fid qid cid s
  | .nvmeWrite fid qid cid data md => Sys2Proof.Machine.execNvmeWrite fid qid cid data md s
  | .nvmeRead fid qid cid => Sys2Proof.Machine.execNvmeRead fid qid cid s
  | .nvmeCompare fid qid cid data md => Sys2Proof.Machine.execNvmeCompare fid qid cid data md s
  | .nvmeWriteZeroes fid qid cid => Sys2Proof.Machine.execNvmeWriteZeroes fid qid cid s
  | .nvmeDatasetManagement fid qid cid => Sys2Proof.Machine.execNvmeDatasetManagement fid qid cid s
  | .nvmeFusedCompareWrite fid qid cid data md wdata wmd => Sys2Proof.Machine.execNvmeFusedCompareWrite fid qid cid data md wdata wmd s
  | .nvmeIoUnsupported fid qid cid => Sys2Proof.Machine.execNvmeIoUnsupported fid qid cid s
  | .intentRecordTake fid qid cid => Sys2Proof.Machine.execIntentRecordTake fid qid cid s
  | .backendResponse tag good data => Sys2Proof.Machine.execBackendResponse tag good data s
  | .backendPduReceive backend pdu => Sys2Proof.Machine.execBackendPduReceive backend pdu s
  | .backendTimeout backend => Sys2Proof.Machine.execBackendTimeout backend s
  | .backendConnectionLost backend => Sys2Proof.Machine.execBackendConnectionLost backend s
  | .backendReconnect backend link => Sys2Proof.Machine.execBackendReconnect backend link s
  | .reconcileChunkDone vol failed data => Sys2Proof.Machine.execReconcileChunkDone vol failed data s
  | .rebuildChunkDone vol lba failed data => Sys2Proof.Machine.execRebuildChunkDone vol lba failed data s
  | .chWr tid idx word => Sys2Proof.Machine.execChWr tid idx word s
  | .chCmt tid chan n rd nb => Sys2Proof.Machine.execChCmt tid chan n rd nb s
  | .chCmtResume tid => Sys2Proof.Machine.execChCmtResume tid s
  | .chRd tid chan rd => Sys2Proof.Machine.execChRd tid chan rd s
  | .chTry tid chan rd => Sys2Proof.Machine.execChTry tid chan rd s
  | .chWaitany tid base mask rd => Sys2Proof.Machine.execChWaitany tid base mask rd s
  | .channelWaitWake tid => Sys2Proof.Machine.execChannelWaitWake tid s
  | .fork tid entry arg rd => Sys2Proof.Machine.execFork tid entry arg rd s
  | .join tid target rd => Sys2Proof.Machine.execJoin tid target rd s
  | .threadExit tid value => Sys2Proof.Machine.execThreadExit tid value s
  | .trelease tid target => Sys2Proof.Machine.execTrelease tid target s
  | .treset tid target => Sys2Proof.Machine.execTreset tid target s
  | .xtirzuIllegal tid epc instr vectored => Sys2Proof.Machine.execXtirzuIllegal tid epc instr vectored s
  | .threadControlCsr tid csr write value rd => Sys2Proof.Machine.execThreadControlCsr tid csr write value rd s
  | .channelEntryWrite tid chan half value => Sys2Proof.Machine.execChannelEntryWrite tid chan half value s
  | .ecallCustomer tid epc tval => Sys2Proof.Machine.execEcallCustomer tid epc tval s
  | .threadFault tid code epc tval addr => Sys2Proof.Machine.execThreadFault tid code epc tval addr s
  | .cipherSubmit tid request => Sys2Proof.Machine.execCipherSubmit tid request s
  | .copyOut tid handle addr len off => Sys2Proof.Machine.execCopyOut tid handle addr len off s
  | .copyMeta tid handle addr => Sys2Proof.Machine.execCopyMeta tid handle addr s
  | .free tid handle => Sys2Proof.Machine.execFree tid handle s
  | .injectHandle tid handle pipe port => Sys2Proof.Machine.execInjectHandle tid handle pipe port s
  | .injectBuffer tid addr len pipe port => Sys2Proof.Machine.execInjectBuffer tid addr len pipe port s
  | .contextHold tid index => Sys2Proof.Machine.execContextHold tid index s
  | .contextRelease tid index => Sys2Proof.Machine.execContextRelease tid index s
  | .contextRead tid index => Sys2Proof.Machine.execContextRead tid index s
  | .contextWrite tid index data => Sys2Proof.Machine.execContextWrite tid index data s
  | .skinkTimerFire chan => Sys2Proof.Machine.execSkinkTimerFire chan s
  | .skinkPeriodTick chan => Sys2Proof.Machine.execSkinkPeriodTick chan s
  | .sentinelFire part => Sys2Proof.Machine.execSentinelFire part s
  | .sentinelEscalate part => Sys2Proof.Machine.execSentinelEscalate part s
  | .debugHalt tid => Sys2Proof.Machine.execDebugHalt tid s
  | .debugResume tid => Sys2Proof.Machine.execDebugResume tid s
  | .debugSingleStep tid next => Sys2Proof.Machine.execDebugSingleStep tid next s
  | .i3cPrivateWrite header payload => Sys2Proof.Machine.execI3cPrivateWrite header payload s
  | .i3cPrivateRead => Sys2Proof.Machine.execI3cPrivateRead s
  | .enec direct events => Sys2Proof.Machine.execEnec direct events s
  | .disec direct events => Sys2Proof.Machine.execDisec direct events s
  | .rstdaa => Sys2Proof.Machine.execRstdaa s
  | .entdaa addr => Sys2Proof.Machine.execEntdaa addr s
  | .setmwl direct len => Sys2Proof.Machine.execSetmwl direct len s
  | .setmrl direct len => Sys2Proof.Machine.execSetmrl direct len s
  | .rstact direct action => Sys2Proof.Machine.execRstact direct action s
  | .setnewda addr => Sys2Proof.Machine.execSetnewda addr s
  | .getmwl => Sys2Proof.Machine.execGetmwl s
  | .getmrl => Sys2Proof.Machine.execGetmrl s
  | .getpid => Sys2Proof.Machine.execGetpid s
  | .getbcr => Sys2Proof.Machine.execGetbcr s
  | .getdcr => Sys2Proof.Machine.execGetdcr s
  | .getstatus => Sys2Proof.Machine.execGetstatus s
  | .getmxds => Sys2Proof.Machine.execGetmxds s
  | .i3cUnsupportedCcc code direct => Sys2Proof.Machine.execI3cUnsupportedCcc code direct s
  | .targetResetPattern => Sys2Proof.Machine.execTargetResetPattern s
  | .hotJoinRequest => Sys2Proof.Machine.execHotJoinRequest s
  | .keep frame => Sys2Proof.Machine.execKeep frame s
  | .keepSend => Sys2Proof.Machine.execKeepSend s
  | .enum frame => Sys2Proof.Machine.execEnum frame s
  | .close frame => Sys2Proof.Machine.execClose frame s
  | .reset frame => Sys2Proof.Machine.execReset frame s
  | .leapArm frame => Sys2Proof.Machine.execLeapArm frame s
  | .leapCancel frame => Sys2Proof.Machine.execLeapCancel frame s
  | .lend frame => Sys2Proof.Machine.execLend frame s
  | .fault frame => Sys2Proof.Machine.execFault frame s
  | .data frame => Sys2Proof.Machine.execData frame s
  | .wake frame => Sys2Proof.Machine.execWake frame s
  | .reservedFrameType frame => Sys2Proof.Machine.execReservedFrameType frame s
  | .chainBitTimeout => Sys2Proof.Machine.execChainBitTimeout s
  | .chainInLinkLost => Sys2Proof.Machine.execChainInLinkLost s
  | .chainOutLinkLost => Sys2Proof.Machine.execChainOutLinkLost s
  | .chainEnumRetry => Sys2Proof.Machine.execChainEnumRetry s
  | .chainArmTimeout => Sys2Proof.Machine.execChainArmTimeout s
  | .idcode => Sys2Proof.Machine.execIdcode s
  | .samplePreload => Sys2Proof.Machine.execSamplePreload s
  | .extest => Sys2Proof.Machine.execExtest s
  | .extestPulse => Sys2Proof.Machine.execExtestPulse s
  | .extestTrain => Sys2Proof.Machine.execExtestTrain s
  | .clamp => Sys2Proof.Machine.execClamp s
  | .highz => Sys2Proof.Machine.execHighz s
  | .dbgChallenge => Sys2Proof.Machine.execDbgChallenge s
  | .dbgToken token => Sys2Proof.Machine.execDbgToken token s
  | .dbgStatus => Sys2Proof.Machine.execDbgStatus s
  | .dbgDmi scope write addr value => Sys2Proof.Machine.execDbgDmi scope write addr value s
  | .bypass code => Sys2Proof.Machine.execBypass code s
  | .uartRxInput char => Sys2Proof.Machine.execUartRxInput char s
  | .functionReady port => Sys2Proof.Machine.execFunctionReady port s
  | .referenceClockStop pcie index => Sys2Proof.Machine.execReferenceClockStop pcie index s
  | .vddRetUp => Sys2Proof.Machine.execVddRetUp s
  | .vddRetRemove => Sys2Proof.Machine.execVddRetRemove s
  | .hdrExitPattern => Sys2Proof.Machine.execHdrExitPattern s
  | .chainInvalidCodeword => Sys2Proof.Machine.execChainInvalidCodeword s
  | .nvmeCoalescingTimeExpire fid cq => Sys2Proof.Machine.execNvmeCoalescingTimeExpire fid cq s

end Sys2Proof.Machine
end

