-- ==== Sys2Proof/Safety.lean ====
section
/-! DEFINITION. The terms that claims use: a mailbox command that is served, what it starts from and what it answers, and the states in
which every byte memory has its canonical form. -/

namespace Sys2Proof.Machine

/-! ### A command of the Xanco Command Set that is served -/

/-- The state in which a mailbox command's body runs: its request has left the mailbox's queue (R351). -/
def begun (x : XCall) (s : State) : State := s.modMbx x.mbx ({ · with queue := (mbxOf s x.mbx).queue.tail })

/-- What the body knows of its call. -/
def callBy (x : XCall) (r : Req) (s : State) : Call :=
  { mbx := x.mbx, role := roleOf (begun x s) x.mbx
    fid := match x.mbx with
      | .fn f => f
      | _ => 0
    flags := r.flags, plen := r.plen, room := roomOf x.mbx r x.rspList }

/-- The mailbox's oldest waiting request is `r`, of this opcode; the mailbox may start it (R351, R357, R384), both permission tables let its role
issue it (R352), and its slot has no fault (R350). -/
structure Served (x : XCall) (op : Nat) (r : Req) (s : State) : Prop where
  front : (mbxOf s x.mbx).queue.head? = some r
  ready : mbxReady s x.mbx = true
  opcode : r.opcode = op
  agree : x.agree = true
  role : ((opRow op).getD (0, 0)).1 &&& roleOf (begun x s) x.mbx ≠ 0
  header : headerFault x.mbx r ((opRow op).getD (0, 0)).2 x = none

/-- The state after the answer OK with a payload (R350), or after the fence of a mailbox whose answer is composed in two different ways (R80). -/
def replied (x : XCall) (r : Req) (p : List Fld) (s : State) : State :=
  answerWith x (respond x.mbx r x.rspList stOk 0 (layout p) 0 1) s

/-- The state after the answer OK with a payload "to RLEN" whose records of `unit` bytes follow `hdr` bytes (R350). -/
def repliedTo (x : XCall) (r : Req) (p : List Fld) (hdr unit : Nat) (s : State) : State :=
  answerWith x (respond x.mbx r x.rspList stOk 0 (layout p) hdr unit) s

/-- The state after an answer other than OK. -/
def turnedAway (x : XCall) (r : Req) (status detail : Nat) (s : State) : State :=
  answerWith x (respond x.mbx r x.rspList status detail [] 0 1) s

/-- The state in which a started command waits for its end (R351). -/
def held (x : XCall) (r : Req) (w : Wait) (s : State) : State := s.modMbx x.mbx ({ · with cur := some (r, w) })

/-! ### Whole-device terms -/

/-- Commands that may reset the device as `SYS_RST_N` does: by a pin, a rail, a wake that finds nothing kept, or a command whose response a
reset follows. -/
def mayReset : Instr → Bool
  | .sysRstNAssert | .sysRstNRelease _ _ _ | .pwrOkRise | .pwrOkFall | .vddRetUp | .vddRetRemove | .wakeNAssert _ | .baskDrainDone
  | .devReset _ _ _ | .fwActivate _ _ _ _ | .i3cPrivateWrite _ _ | .wake _ | .targetResetPattern => true
  | _ => false

/-! ### Cyclic redundancy checks by their definition (R279) -/

/-- The `n` low bits of a number in reverse order. -/
def revBits (n v : Nat) : Nat := (List.range n).foldl (fun a i => 2 * a + v / 2 ^ i % 2) 0

/-- A register of `w` bits takes message bits most significant first. -/
def crcPlain (w poly : Nat) : Nat → List Bool → Nat
  | reg, [] => reg
  | reg, b :: l =>
    let up := reg * 2 % 2 ^ w
    crcPlain w poly (if decide (reg / 2 ^ (w - 1) % 2 = 1) = b then up else up ^^^ poly) l

/-- The bits of bytes, least significant first within a byte (RefIn), or most significant first. -/
def bitsRef (bs : List Byte) : List Bool := bs.flatMap (fun b => (List.range 8).map (fun i => bit b.toNat i))
def bitsPlain (bs : List Byte) : List Bool := bs.flatMap (fun b => (List.range 8).map (fun i => bit b.toNat (7 - i)))

/-! ### Invariants -/

/-- Every byte memory has its canonical form: exchange pages, window and partition regions, microcode scratch. -/
structure State.MemOk (s : State) : Prop where
  exch : memWf s.exch = true
  region : memWf s.region = true
  scratch : memWf s.pkt.scratch = true

end Sys2Proof.Machine
end

