-- ==== Sys2Proof/Certificates/Slice0/Obligations.lean ====
section
/-! DEFINITION. The statements for the provers: what each command does, by family, and what every step keeps. -/

open Sys2Proof Sys2Proof.Machine

/-- R18, R32, R470. Time: the arbiter's epoch is the device's tick of 1 µs, a PTP step and `DEV_TIME_SET` move device time, and an edge of
`PPS_IN` leaves the lock a free value (the model's choice: log entry 3). (Readings and choices of the model in it: log entries 3, 11.) -/
def Obligations.TimeMoves : Prop :=
  (∀ core sds cn sn s, s.phase ≠ .inReset → wfArbiterEpoch core sds cn sn = true →
    ∃ t, exec (.arbiterEpoch core sds cn sn) s = .next t ∧ t.tick = s.tick + 1 ∧ t.time = (s.time + 1000) % 2 ^ 64) ∧
  (∀ d s, s.phase ≠ .inReset → wfPtpStep d = true →
    ∃ t, exec (.ptpStep d) s = .next t ∧ t.time = stepTime s.time d % 2 ^ 64 ∧ t.tick = s.tick) ∧
  (∀ s, s.phase ≠ .inReset → pinsIn s = true →
    exec .ppsInEdge s = .next { s with ppsLocked := decide (Config.freeNat s.free % 2 = 1), free := s.free + 1 }) ∧
  (∀ x r s, Served x 0x0103 r s → wfDevTimeGet x = true →
    exec (.devTimeGet x) s =
      .next (replied x r [u64 (begun x s).time, u8 (b2n (begun x s).ptpLocked), u8 (b2n (begun x s).ppsLocked)] (begun x s))) ∧
  (∀ x r s v, Served x 0x0104 r s → wfDevTimeSet x 0 v = true →
    let u := moveTime v (begun x s)
    exec (.devTimeSet x 0 v) s = .next (replied x r [u64 (begun x s).time, u64 u.time] (u.event 0x0104 (.dev 0) u.time))) ∧
  (∀ x r s v, Served x 0x0104 r s → wfDevTimeSet x 1 v = true →
    let u := moveTime (((begun x s).time + v) % 2 ^ 64) (begun x s)
    exec (.devTimeSet x 1 v) s = .next (replied x r [u64 (begun x s).time, u64 u.time] (u.event 0x0104 (.dev 0) u.time)))

/-- R21, R23, R26, R37, R38. The governor: a sensor's window is kept; a loop that may run writes one voltage to the regulator, within VMIN and
VMAX or the present one, and leaves the setpoint until the write is done; a write that is done becomes the setpoint, and the floors that
the arbiter gave for it apply; one that does not run is dropped and counted. That a window of the first 100 hours is the baseline, and
that a write's end is read when the Eft is back, are the model's choices (log entry 87). (Readings and choices of the model in it: log
entries 87, 102.) -/
def Obligations.GovernorLoop : Prop :=
  (∀ u v s, s.phase ≠ .inReset → wfSensorWindow false u v = true →
    exec (.sensorWindow false u v) s =
      .next { noteBaseline false u v s with pow := { s.pow with pipeRate := mput s.pow.pipeRate u v } }) ∧
  (∀ u v s, s.phase ≠ .inReset → wfSensorWindow true u v = true →
    exec (.sensorWindow true u v) s =
      .next { noteBaseline true u v s with pow := { s.pow with clusterRate := mput s.pow.clusterRate u v } }) ∧
  (∀ s, s.phase = .running → s.eft.headless = false → s.pow.avsPending = none → (s.pow.avsFault = true → s.pow.avsRetry = true) →
    wfGovernorPeriod false = true → s.pow.vmin ≤ s.pow.vmax →
    ∃ t v, exec (.governorPeriod false) s = .next t ∧ t.pow.avsPending = some v ∧ t.pow.vdd = s.pow.vdd ∧
      (v = s.pow.vdd ∨ (s.pow.vmin ≤ v ∧ v ≤ s.pow.vmax))) ∧
  (∀ late s, s.phase = .running →
    (late = true ∨ s.eft.headless = true ∨ s.pow.avsPending.isSome = true ∨ (s.pow.avsFault = true ∧ s.pow.avsRetry = false)) → wfGovernorPeriod late = true →
    exec (.governorPeriod late) s = .next (s.bump .govMissed 0 0 1)) ∧
  (∀ b s, s.eft.headless = true → exec (.avsWriteDone b) s = .next s) ∧
  (∀ v s, s.eft.headless = false → s.pow.avsPending = some v →
    exec (.avsWriteDone true) s = .next { s with pow := { s.pow with
      vdd := v, avsPending := none, avsFails := 0, avsFault := s.pow.avsFault && !s.pow.avsRetry, avsRetry := false } }) ∧
  (∀ v s, s.eft.headless = false → s.pow.avsPending = some v → s.pow.avsFails < 2 →
    exec (.avsWriteDone false) s = .next (avsWrite v { s with pow := { s.pow with avsFails := s.pow.avsFails + 1 } })) ∧
  (∀ v s, s.eft.headless = false → s.pow.avsPending = some v → 2 ≤ s.pow.avsFails →
    ∃ t, exec (.avsWriteDone false) s = .next t ∧ t.pow.avsFault = true ∧ t.pow.avsPending = none ∧ t.pow.vdd = s.pow.vdd ∧
      t.flt.nextSeq = s.flt.nextSeq + 1)

/-- R22, R30, R31, R35, R36, R455. Budgets and limits: the commands that set and report them, a lend that lowers the unit's own budget and
then leaves by the chain (that it goes with the command is R455's; how the command names it is the model's choice, log entry 78), and the
comparator's hold, which is counted and reported once. (Readings and choices of the model in it: log entries 10, 78, 102.) -/
def Obligations.BudgetsAndHold : Prop :=
  (∀ rail now s, s.phase ≠ .inReset → (if rail then s.pow.sdsHold else s.pow.coreHold) = false →
    (if rail then s.pow.sdsHard else s.pow.coreHard) < now → wfHardLimitCross rail now = true →
    exec (.hardLimitCross rail now) s =
      .next ((({ s with pow := if rail then { s.pow with sdsHold := true, sdsHoldFull := false }
        else { s.pow with coreHold := true, coreHoldFull := false } } : State).bump
        .hold (b2n rail) 0 1).event 0x0F01 (.dev (b2n rail)) (s.count .hold (b2n rail) 0 + 1))) ∧
  (∀ x r s core coreHard sds sdsHard pw floors, Served x 0x0F01 r s → wfPowerBudgetSet x core coreHard sds sdsHard pw ⟨floors, none⟩ = true →
    core ≤ coreHard → coreHard ≤ 5400 → sds ≤ sdsHard → sdsHard ≤ 960 → 500 ≤ pw → pw ≤ 1100 →
    let p := { (begun x s).pow with core, coreHard, sds, sdsHard, packageW := pw }
    floors ≤ effectiveCore p 6800 →
    exec (.powerBudgetSet x core coreHard sds sdsHard pw ⟨floors, none⟩) s = .next (replied x r [] { begun x s with pow := p })) ∧
  (∀ x r s core coreHard sds sdsHard pw floors l, Served x 0x0F01 r s →
    wfPowerBudgetSet x core coreHard sds sdsHard pw ⟨floors, some l⟩ = true →
    core ≤ coreHard → coreHard ≤ 5400 → sds ≤ sdsHard → sdsHard ≤ 960 → 500 ≤ pw → pw ≤ 1100 →
    let p := { (begun x s).pow with core, coreHard, sds, sdsHard, packageW := pw }
    let q : State := { begun x s with pow := p }
    floors ≤ effectiveCore p 6800 → q.chain.state = 2 → l.dest < q.chain.units → l.dest ≠ q.chain.addr → l.giveBack = false →
    l.credits ≤ core + creditSum p.borrowed - creditSum p.lent - floorSum q p.vdd false →
    exec (.powerBudgetSet x core coreHard sds sdsHard pw ⟨floors, some l⟩) s =
      .next (replied x r [] (({ q with pow := { p with lent := mupd p.lent l.dest 0 (· + l.credits) } } : State).chainSend 6 l.dest false 0
        l.credits))) ∧
  (∀ x r s, Served x 0x0F02 r s → wfPowerState x = true →
    ∃ g, exec (.powerState x) s = .next (replied x r [u32 ((begun x s).pow.vdd / 10), u32 ((begun x s).pow.coreNow / 4),
      u32 ((begun x s).pow.sdsNow / 4), u64 ((begun x s).count .hold 0 0 + (begun x s).count .hold 1 0), u8 g]
      { begun x s with free := (begun x s).free + 1 })) ∧
  (∀ x r s m up dn vmin vmax per hold, Served x 0x0F03 r s → wfGovernorSet x m up dn vmin vmax per hold = true →
    2 ≤ m → m ≤ 30 → (up = 5 ∨ up = 10) → (dn = 5 ∨ dn = 10) → 600 ≤ vmin → vmin ≤ 680 → 680 ≤ vmax → vmax ≤ 850 → 20 ≤ per → per ≤ 500 →
    1 ≤ hold → hold ≤ 1000 →
    exec (.governorSet x m up dn vmin vmax per hold) s = .next (replied x r [] { begun x s with pow := { (begun x s).pow with
      margin := m, stepUp := up * 10, stepDown := dn * 5, vmin := vmin * 10, vmax := vmax * 10, period := per, holdDown := hold } }))

/-- R27 to R29, R418, R423, R425. Detections: a stage stalled past its domain's timeout, its wait not excused, is an event, and any other
stall is none; an invalid codeword is one as well; a fault of a RUNNING domain leaves it in CLEAR, a failed checker is such a fault, and
the self-test of CLEAR decides between PROBATION and FENCED. A domain of the device as a whole is another matter (R422), and so are the
Eft (R430) and a unit of a Regrowth in progress (R438). (Readings and choices of the model in it: log entries 66, 88.) -/
def Obligations.DomainMachine : Prop :=
  (∀ d stage us waits s, s.phase ≠ .inReset → s.phase ≠ .basking → wfStallWatchdogFire d ⟨stage, us, waits⟩ = true →
    watchdogUs s d < us → excused s waits = false →
    exec (.stallWatchdogFire d ⟨stage, us, waits⟩) s = .next (domEvent d.dom 2 (stageOf d stage) s)) ∧
  (∀ d stage us waits s, wfStallWatchdogFire d ⟨stage, us, waits⟩ = true → us ≤ watchdogUs s d ∨ excused s waits = true →
    exec (.stallWatchdogFire d ⟨stage, us, waits⟩) s = .next s) ∧
  (∀ s d, 10 ≤ watchdogUs s d ∧ watchdogUs s d ≤ 10000) ∧
  (∀ d stage s, s.phase ≠ .inReset → s.phase ≠ .basking → wfInvalidCodeword d stage = true →
    exec (.invalidCodeword d stage) s = .next (domEvent d.dom 1 (stageOf d stage) s)) ∧
  (∀ d source detail s, (∀ n, d ≠ .device n) → d ≠ .eft → regrowPart s d = none → (domOf s d).state = .running →
    (domOf (domFault d source detail s) d).state = .clear) ∧
  (∀ d checker s, s.phase ≠ .inReset → s.phase ≠ .basking → wfCheckerSelftest d checker false = true →
    exec (.checkerSelftest d checker false) s = .next (domFault d 12 checker s)) ∧
  (∀ d checker s, wfCheckerSelftest d checker true = true → exec (.checkerSelftest d checker true) s = .next s) ∧
  (∀ d s, s.phase ≠ .inReset → s.phase ≠ .basking → (domOf s d).state = .clear → wfClearSelftestDone d true = true →
    exec (.clearSelftestDone d true) s =
      .next (resumeDom d ((s.setDom d { domOf s d with state := .probation, since := s.tick }).updFaultN))) ∧
  (∀ d s, s.phase ≠ .inReset → s.phase ≠ .basking → (domOf s d).state = .clear → wfClearSelftestDone d false = true →
    exec (.clearSelftestDone d false) s = .next (finalFence d 12 2 0 s)) ∧
  (∀ d s, (domOf s d).state = .probation → wfProbationEnd d = true → exec (.probationEnd d) s = .next (s.setDom d {}))

/-- R260, R357, R430, R431, R432. The Eft: a first fault restarts it headless, a second within 10 s is the safe state, and its return ends
headless operation with the events held back delivered in order, and every controller's asynchronous events report again. R426 to R428.
The fault log: what `FAULT_LOG_READ` returns, and what `FAULT_CLEAR` removes and starts. (Readings and choices of the model in it: log
entries 7, 16.) -/
def Obligations.EftFaultsAndLog : Prop :=
  ((∀ stage s, s.phase = .running → s.eft.faultAt = none → wfEftLockstepMismatch stage = true →
    ∃ t, exec (.eftLockstepMismatch stage) s = .next t ∧ t.eft.headless = true ∧ t.phase = .running ∧ t.eft.faultAt = some s.tick ∧
      t.flt.nextSeq = s.flt.nextSeq + 1) ∧
  (∀ stage s at_, s.phase = .running → s.eft.faultAt = some at_ → s.tick < at_ + 10000000 → wfEftLockstepMismatch stage = true →
    ∃ t, exec (.eftLockstepMismatch stage) s = .next t ∧ t.phase = .safe ∧ t.pins.faultN = true) ∧
  (∀ s, s.eft.headless = true → s.phase ≠ .safe →
    let u := s.eft.deferred.foldl (fun s e => s.deliver e.1 e.2.1 e.2.2.1 e.2.2.2)
      { s with eft := { s.eft with headless := false, deferred := [] } }
    exec .eftRestartDone s = .next ((u.sto.ctrls.map (·.1)).foldl (fun s f => asyncPump f s) u))) ∧
  ((∀ x r s n, Served x 0x0E01 r s → wfFaultLogRead x n = true →
    exec (.faultLogRead x n) s = .next (repliedTo x r (u64 ((begun x s).count .faultOverflow 0 0) ::
      ((begun x s).flt.log.filter (fun e => n ≤ e.seq)).map (fun e => Fld.arr e.bytes)) 8 32 (begun x s))) ∧
  (∀ x r s n, Served x 0x0E02 r s → wfFaultClear x n = true →
    ∃ t, exec (.faultClear x n) s = .next (replied x r [] t) ∧ t.flt.log = (begun x s).flt.log.filter (fun e => n < e.seq) ∧
      (∀ d, (domOf (begun x s) d).state = .fenced → (domOf (begun x s) d).fencedBy ≤ n → (domOf t d).state = .clear)))

/-- R435 to R440. Regrowth and wear: a Regrowth begins on a free spare and is recorded, its end gives the spare the logical number and retires
the old unit, and the wear signals, the age and the reports follow; a fault of the spare retires it as failed, and a fault of the unit
moved leaves it REGROWING. (Readings and choices of the model in it: log entries 8, 9, 12, 86, 87.) -/
def Obligations.RegrowthAndWear : Prop :=
  (∀ x r s kind unit sp, Served x 0x0E04 r s → wfRegrowStart x kind unit = true → kind ≤ 6 →
    unit < (if kind ≤ 3 then workingOf kind else physicalOf kind) →
    let u := begun x s
    let p := regrowTarget u kind unit
    ((unitOf u kind p).state = 0 ∨ (unitOf u kind p).state = 2) → mget? u.wear.active kind = none → spareFor u kind p = some sp →
    exec (.regrowStart x kind unit) s = .next (replied x r [] (regrowBegin kind p sp 0 u))) ∧
  (∀ x r s, Served x 0x0E03 r s → wfRegrowState x = true →
    ∃ p, exec (.regrowState x) s = .next (repliedTo x r p 0 8 (begun x s)) ∧ p.length = allUnits.length) ∧
  (∀ kind ok s, s.phase ≠ .inReset → s.phase ≠ .basking → wfRegrowthDone kind ok = true → ok = true → copyRuns s kind = true →
    exec (.regrowthDone kind ok) s = .next (regrowEnd kind ok s)) ∧
  (∀ kind s, s.phase ≠ .inReset → s.phase ≠ .basking → wfRegrowthDone kind false = true →
    exec (.regrowthDone kind false) s = .next (regrowEnd kind false s)) ∧
  (∀ kind s, copyRuns s kind = false → wfRegrowthDone kind true = true → exec (.regrowthDone kind true) s = .next s) ∧
  (∀ kind unit corr word row stall held24 s, s.phase = .running → unit < physicalOf kind → (unitOf s kind unit).state ≠ 0 →
    wfWearEvaluation kind unit corr word row stall held24 = true →
    exec (.wearEvaluation kind unit corr word row stall held24) s =
      .next (s.modUnit kind unit (fun u => { u with declinePpm := declineOf s kind unit, corr24 := corr, stall24 := stall }))) ∧
  (∀ kind unit corr word row stall held24 s, s.phase = .running → unit < physicalOf kind → (unitOf s kind unit).state = 0 →
    wfWearEvaluation kind unit corr word row stall held24 = true → isWorn kind (declineOf s kind unit) corr word row stall held24 = true →
    exec (.wearEvaluation kind unit corr word row stall held24) s =
      .next (markWorn kind unit (s.modUnit kind unit
        (fun u => { u with declinePpm := declineOf s kind unit, corr24 := corr, stall24 := stall })))) ∧
  (∀ s, s.phase ≠ .inReset → s.phase ≠ .basking → wfAgeHour 95 = true →
    exec (.ageHour 95) s = .next { s with
      wear := { s.wear with ageMicro := s.wear.ageMicro + 1000000, hours := s.wear.hours + 1 }
      nv := { s.nv with ageMicro := s.wear.ageMicro + 1000000, hours := s.wear.hours + 1 } }) ∧
  (∀ x r s, Served x 0x0E05 r s → wfWearReport x = true →
    ∃ p, exec (.wearReport x) s = .next (repliedTo x r p 32 32 (begun x s)) ∧ p.length = 5 + allUnits.length ∧
      p.head? = some (u64 ((begun x s).wear.ageMicro / 1000000))) ∧
  (∀ d source detail s kind phys, regrowPart s d = some .spare → kindOfDom d = some (kind, phys) →
    (unitOf (domFault d source detail s) kind phys).state = 4) ∧
  (∀ d source detail s, regrowPart s d = some .original → (domOf (domFault d source detail s) d).state = .regrowing)

/-- R419, R420. A scrubber at work: a clean word changes nothing, a corrected error counts against its bank and feeds its wear signals, and an
uncorrectable rule slot is lost until it is cleared, and an uncorrectable word of the boot block is the safe state; a scrubber that is
held does nothing. (Readings and choices of the model in it: log entry 49.) -/
def Obligations.Scrubbing : Prop :=
  (∀ m u a s, scrubbing s m u = true → exec (.scrubStep m u a .clean) s = .next s) ∧
  (∀ m u a s, scrubbing s m u = true →
    ∃ t, exec (.scrubStep m u a .corrected) s = .next t ∧ t.count .corrected (scrubDkind m) u = s.count .corrected (scrubDkind m) u + 1 ∧
      ∀ k, scrubKind m = some k → (unitOf t k u).corrTotal = (unitOf s k u).corrTotal + 1) ∧
  (∀ m u a s, scrubbing s m u = true → exec (.scrubStep m u a .uncorrectable) s = .next (scrubPoison m u a s)) ∧
  (∀ u a s, scrubbing s .bootBlock u = true → s.phase ≠ .safe →
    ∃ t, exec (.scrubStep .bootBlock u a .uncorrectable) s = .next t ∧ t.phase = .safe) ∧
  (∀ m u a found s, scrubbing s m u = false → exec (.scrubStep m u a found) s = .next s) ∧
  (∀ u k s, scrubbing s .ruleSram u = true → k < 2 ^ 20 →
    ∃ t, exec (.scrubStep .ruleSram u k .uncorrectable) s = .next t ∧ ruleLost (mgetD t.pkt.padA.rules k 0) = true)

/-- R50 to R53, R60 to R62. An Ethernet port: training brings it up, a link that is lost or a lane that fails takes it down, and pause frames
hold and release its priorities. R13, R34, R46 to R48, R59. The commands of octets, ports and lanes; an eye scan waits for its credits.
(Readings and choices of the model in it: log entries 13, 36, 76, 104, 106.) -/
def Obligations.EthernetPorts : Prop :=
  ((∀ lane b10 b600 n s, wfLaneBerWindow lane b10 b600 = true → portOfLane s lane = some n → portUp s n = true →
    (laneOf s lane).failed = false → b600 ≤ 1000000 → b10 ≤ 100000000 →
    let e := b10 * [25, 50, 100, 200].getD (ethPort s n).rate 0 / 100
    exec (.laneBerWindow lane b10 b600) s =
      .next (((s.modLane lane ({ · with ber := b10 })).bump .laneErrors lane 0 e).bump .portLaneErrors n lane e)) ∧
  (∀ port s, wfLinkTrainingDone port true 0 = true → (mget? s.ports port).isSome = true → (ethPort s port).state = 1 → s.phase = .running →
    pinsIn s = true → (ethPort s port).an = false ∨ elasticOn s .training = true →
    ∃ t, exec (.linkTrainingDone port true 0) s = .next t ∧ (ethPort t port).state = 2) ∧
  (∀ port s, wfReformTimeout port = true → (mget? s.ports port).isSome = true → (ethPort s port).state = 3 →
    ∃ t, exec (.reformTimeout port) s = .next t ∧ (ethPort t port).state = 4) ∧
  (∀ port s, wfLinkLoss port = true → portUp s port = true →
    ∃ t, exec (.linkLoss port) s = .next t ∧ (ethPort t port).state = 1 ∧ (ethPort t port).paused = []) ∧
  (∀ port q s, wfPauseFrameReceive port false 0 [q] = true → portUp s port = true → (ethPort s port).fc = 1 → q ≠ 0 →
    ∃ t, exec (.pauseFrameReceive port false 0 [q]) s = .next t ∧ ∀ i, i < 8 → mget? (ethPort t port).paused i = some q) ∧
  (∀ port prio s, wfPauseQuantaExpire port prio = true →
    exec (.pauseQuantaExpire port prio) s = .next (s.modPort port (fun p => { p with paused := mdel p.paused prio }))) ∧
  (∀ port prio s, wfPauseStormLimit port prio = true → portUp s port = true → (mget? (ethPort s port).paused prio).isSome = true →
    bit (ethPort s port).storm prio = false →
    exec (.pauseStormLimit port prio) s =
      .next (stormDrop port prio ((s.modPort port (fun p => { p with storm := p.storm + 2 ^ prio })).event 0x0207 (.dev port) prio))) ∧
  (∀ port prio s, wfPauseStormClear port prio = true →
    exec (.pauseStormClear port prio) s = .next (s.modPort port (fun p => { p with storm := if bit p.storm prio then p.storm - 2 ^ prio else p.storm }))) ∧
  (∀ f fcs s, wfMgmt0FrameReceive f fcs = true → s.phase = .running → pinsIn s = true →
    exec (.mgmt0FrameReceive f fcs) s = .next (if fcs.toNat = crcOf 1 f then mgmt0Deliver f s else s))) ∧
  ((∀ x r s p, Served x 0x0201 r s → wfPortConfig x p = true → portCfgFault (begun x s) p = none → p.admin ≤ 1 →
    p.floors ≤ effectiveCore (begun x s).pow 6800 → mget? (begun x s).ports p.port = none →
    exec (.portConfig x p) s = .next (replied x r [] ((yieldLanes p (begun x s)).setPort p.port { cfgPort p {} with state := p.admin }))) ∧
  (∀ x r s p o, Served x 0x0201 r s → wfPortConfig x p = true → portCfgFault (begun x s) p = none → p.admin = 2 →
    mget? (begun x s).ports p.port = some o →
    ∃ t, exec (.portConfig x p) s = .next (replied x r [] t) ∧ mget? t.ports p.port = none ∧ mget? t.nv.portRec p.port = none) ∧
  (∀ x r s port p, Served x 0x0202 r s → wfPortState x port = true → port < 144 → (callBy x r s).role ≠ 2 →
    mget? (begun x s).ports port = some p →
    exec (.portState x port) s = .next (replied x r [u8 p.state, u8 p.octet, u8 (pipeOfOctet p.octet), u8 p.curWidth, u8 p.rate,
      u8 (failedMask (begun x s) p.octet)] (begun x s))) ∧
  (∀ x r s lane ms, Served x 0x0204 r s → wfLaneDiag x lane 6 0 ms = true → lane < 144 → octetMode (begun x s) (lane / 8) = 0 →
    exec (.laneDiag x lane 6 0 ms) s = .next (replied x r [] ((begun x s).modLane lane ({ · with diag := 0 })))) ∧
  (∀ x s lane pat ms, wfLaneDiag x lane 1 pat ms = true → elasticOn s .training = false → exec (.laneDiag x lane 1 pat ms) s = .next s) ∧
  (∀ x r s o m f, Served x 0x0205 r s → wfOctetMode x o m f = true → o < 16 → m = 1 → octetMode (begun x s) o ≠ 3 →
    octetBusy (begun x s) o = false → f ≤ effectiveCore (begun x s).pow 6800 →
    ∃ t, exec (.octetMode x o m f) s = .next (replied x r [] t) ∧ octetMode t o = m ∧ mget? t.nv.octRec o = some m))

/-- R80, R94 to R102, R112 to R116. The ring registers: enabling starts a ring at zero indices, disabling drains it, a fenced ring is reset, a
doorbell reads the index word, an invalid index fences the ring with `IDX`, a consumer index beyond what was posted is refused, and a read
of the index word that is not issued fences the ring with `DMA_FAULT`. (Readings and choices of the model in it: log entries 85, 91, 92.) -/
def Obligations.RingCommands : Prop :=
  (∀ fid ring value s, wfRingEnable fid ring value = true → ringOn s fid ring = true → (ringOf s fid ring).state = 0 →
    let u := s.modRing fid ring ({ · with cplRing := bits value 2 14, spread := bit value 16, vlanStrip := bit value 17 })
    ringCfgOk u fid ring (ringOf u fid ring) = true →
    ∃ t, exec (.ringEnable fid ring value) s = .next t ∧ (ringOf t fid ring).state = 1 ∧ (ringOf t fid ring).ci = 0 ∧
      (ringOf t fid ring).lastRead = 0 ∧ (ringOf t fid ring).done = 0 ∧ (ringOf t fid ring).cplCi = 0) ∧
  (∀ fid ring value s, wfRingDisable fid ring value = true → ringOn s fid ring = true → (ringOf s fid ring).state = 1 →
    exec (.ringDisable fid ring value) s = .next (ringDisable fid ring s)) ∧
  (∀ fid ring s, (ringOf s fid ring).type = 2 → sourcesOf (fnD s fid) ring = [] → (ringOf s fid ring).unann = 0 →
    ringDisable fid ring s = s.modRing fid ring ({ · with state := 0, enable := false })) ∧
  (∀ fid ring s, wfRingReset fid ring = true → ringOn s fid ring = true → (ringOf s fid ring).state = 3 → (fnD s fid).bme = true →
    exec (.ringReset fid ring) s =
      .next (s.modRing fid ring ({ · with state := 0, enable := false, tx := [], partialDescs := [], bufs := [], tail := false }))) ∧
  (∀ fid ring s, wfRingDb fid ring true = true → ringOn s fid ring = true → (ringOf s fid ring).state = 1 → (ringOf s fid ring).type ≠ 2 →
    (fnD s fid).frozen = false → (ringOf s fid ring).idxReading = false → canIssue s fid = true →
    exec (.ringDb fid ring true) s =
      .next ((s.modRing fid ring ({ · with idxReading := true })).hostRd fid (ringOf s fid ring).idxAddr 8 (.index ring))) ∧
  (∀ fid ring q s r, wfIndexWordReadDone fid (.ring ring) q = true → s.reads = [r] → r.fid = fid → r.purpose = .index ring → r.dead = false →
    r.tag.isSome = true → (ringOf s fid ring).idxReading = true → (ringOf s fid ring).idxAgain = false → (ringOf s fid ring).state = 1 →
    let u := ({ s with reads := [] } : State).modRing fid ring ({ · with idxReading := false, idxAgain := false })
    exec (.indexWordReadDone fid (.ring ring) q) s = .next (
      if idxValid q (ringOf s fid ring).lastRead (ringOf s fid ring).done (ringOf s fid ring).log2
      then kick fid ring (u.modRing fid ring ({ · with lastRead := q })) else fenceRing fid ring 0 u)) ∧
  (∀ fid ring c s, wfCplCi fid ring c = true → ringOn s fid ring = true → (ringOf s fid ring).type = 2 →
    exec (.cplCi fid ring c) s = .next (
      if sub32 (ringOf s fid ring).ci (ringOf s fid ring).cplCi < sub32 c (ringOf s fid ring).cplCi
      then s.modRing fid ring (fun x => { x with err := x.err ||| 32 })
      else cplResume fid ring (s.modRing fid ring ({ · with cplCi := c })))) ∧
  (∀ fid ring s, wfCplModTimerExpire fid ring = true → (ringOf s fid ring).type = 2 → (ringOf s fid ring).state = 1 →
    (ringOf s fid ring).timerAt.isSome = true → 0 < (ringOf s fid ring).unann → (fnD s fid).frozen = false →
    exec (.cplModTimerExpire fid ring) s = .next (announce fid ring s)) ∧
  (∀ fid ring s, wfRingDb fid ring false = true → ringOn s fid ring = true → indexDue s fid ring = true →
    ∃ t, exec (.ringDb fid ring false) s = .next t ∧ (ringOf t fid ring).state = 3 ∧ bit (ringOf t fid ring).err 2 = true ∧
      t.reads.length ≤ s.reads.length ∧ t.flt.nextSeq = s.flt.nextSeq + 1)

/-- R80, R345 to R347, R353, R357, R358, R362. The mailboxes: enabling one starts it at zero indices, disabling an idle one answers what waits
ABORTED, a doorbell has the index word read, a valid index has the slots it publishes read and their requests wait in order, a headless
Eft answers each HEADLESS, an unassigned opcode is answered BAD_OPCODE, the event and telemetry rings are set, and a read that is not
issued fences the mailbox with `DMA_FAULT`. (Readings and choices of the model in it: log entries 73, 85.) -/
def Obligations.MailboxCommands : Prop :=
  (∀ fid value s, wfMbxEnable fid value = true → barOn s fid = true → hasMbx s fid = true → (mbxOf s (.fn fid)).state = 0 →
    4 ≤ (mbxOf s (.fn fid)).log2 → (mbxOf s (.fn fid)).log2 ≤ 8 → bits value 2 11 < msixSize s fid →
    ∃ t, exec (.mbxEnable fid value) s = .next t ∧ (mbxOf t (.fn fid)).state = 1 ∧ (mbxOf t (.fn fid)).lastRead = 0 ∧
      (mbxOf t (.fn fid)).done = 0 ∧ (mbxOf t (.fn fid)).queue = []) ∧
  (∀ fid value s, wfMbxDisable fid value = true → barOn s fid = true → hasMbx s fid = true → (mbxOf s (.fn fid)).state = 1 →
    (mbxOf s (.fn fid)).cur = none →
    exec (.mbxDisable fid value) s =
      .next ((answerAll (.fn fid) stAborted s).modMbx (.fn fid) ({ · with state := 0, enable := false }))) ∧
  (∀ fid v s, wfMbxDb fid v 4 true = true → barOn s fid = true → mbxListens s fid = true → (mbxOf s (.fn fid)).idxReading = false →
    exec (.mbxDb fid v 4 true) s = .next ((s.modMbx (.fn fid) ({ · with idxReading := true })).hostRd fid
      ((mbxOf s (.fn fid)).idxAddr + 8) 8 .mbxIndex)) ∧
  (∀ fid q s r, wfIndexWordReadDone fid .mailbox q = true → s.reads = [r] → r.fid = fid → r.purpose = .mbxIndex → r.dead = false →
    r.tag.isSome = true → (mbxOf s (.fn fid)).state = 1 → (mbxOf s (.fn fid)).idxAgain = false →
    let b := mbxOf s (.fn fid)
    let u := ({ s with reads := [] } : State).modMbx (.fn fid) ({ · with idxReading := false, idxAgain := false })
    exec (.indexWordReadDone fid .mailbox q) s = .next (
      if idxValid q b.lastRead b.done b.log2 then mbxKick fid (u.modMbx (.fn fid) ({ · with lastRead := q })) else fenceMbx fid 0 u)) ∧
  (∀ fid n data s, (mbxOf s (.fn fid)).state = 1 →
    let b := mbxOf s (.fn fid)
    let c := mbxOf (mbxSlotsDone fid n data s) (.fn fid)
    c.fetched = add32 b.fetched n ∧ c.queue.take b.queue.length = b.queue ∧ c.queue.length = b.queue.length + n) ∧
  (∀ mbx s, s.eft.headless = true → s.phase ≠ .safe → (mbxOf s mbx).cur = none → wfMbxHeadlessAnswer mbx = true →
    exec (.mbxHeadlessAnswer mbx) s = .next (answerAll mbx stHeadless s)) ∧
  (∀ x r s, (mbxOf s x.mbx).queue.head? = some r → mbxReady s x.mbx = true → opRow r.opcode = none → wfUnassignedOpcode x = true →
    exec (.unassignedOpcode x) s = .next (turnedAway x r stBadOpcode 0 (begun x s))) ∧
  (∀ x r s mask log2 vector ringAddr indexAddr fid, Served x 0x0C04 r s → wfEventSubscribe x mask log2 vector ringAddr indexAddr = true →
    x.mbx = .fn fid → mask ≠ 0 → 6 ≤ log2 → log2 ≤ 16 → vector < msixSize (begun x s) fid →
    let u := ((begun x s).hostWr fid indexAddr (leBytes 8 0)).modMbx (.fn fid) ({ · with
      events := some { mask, log2, vector, ringAddr, indexAddr } })
    exec (.eventSubscribe x mask log2 vector ringAddr indexAddr) s = .next (replied x r [u64 (mbxOf u (.fn fid)).eventSeq] u)) ∧
  (∀ x r s vector log2 ringAddr indexAddr, Served x 0x0C04 r s → wfEventSubscribe x 0 log2 vector ringAddr indexAddr = true →
    exec (.eventSubscribe x 0 log2 vector ringAddr indexAddr) s =
      .next (replied x r [u64 (mbxOf (begun x s) x.mbx).eventSeq] ((begun x s).modMbx x.mbx ({ · with events := none })))) ∧
  (∀ x r s ms log2 ringAddr indexAddr, Served x 0x0C03 r s → wfTelemConfig x ms log2 ringAddr indexAddr = true →
    exec (.telemConfig x ms log2 ringAddr indexAddr) s = .next (replied x r []
      { begun x s with meter := { (begun x s).meter with telem := some (ms, log2, ringAddr, indexAddr, 0) } })) ∧
  (∀ fid v s, wfMbxDb fid v 4 false = true → barOn s fid = true → mbxListens s fid = true → (mbxOf s (.fn fid)).idxReading = false →
    ∃ t, exec (.mbxDb fid v 4 false) s = .next t ∧ (mbxOf t (.fn fid)).state = 3 ∧ bit (mbxOf t (.fn fid)).err 2 = true ∧
      (mbxOf t (.fn fid)).queue = (mbxOf s (.fn fid)).queue ∧ t.flt.nextSeq = s.flt.nextSeq + 1)

/-- R66 to R70, R77, R88, R93, R373 to R375. What the host does to a function: configuration requests, register writes, exchange
notifications, MSI-X unmasking and BAR4 accesses. (Readings and choices of the model in it: log entries 14, 77, 85, 90.) -/
def Obligations.FunctionAccess : Prop :=
  (∀ f bus v s, wfPcieConfigRequest (.fid f) .id bus false v = true → hostPortExists s (fidPort f) = true →
    (hostPort s (fidPort f)).linkUp = true → (hostPort s (fidPort f)).ready = true → s.phase = .running → (fn? s f).isSome = true →
    vfOn s f = true → (fnD s f).ready = true →
    exec (.pcieConfigRequest (.fid f) .id bus false v) s =
      .next (s.emit (.cfgData (0x22F4 + 65536 * deviceId (fnD s f).pf (isVf f))))) ∧
  (∀ f bus v s, wfPcieConfigRequest (.fid f) .id bus false v = true → hostPortExists s (fidPort f) = true →
    (hostPort s (fidPort f)).linkUp = true → (hostPort s (fidPort f)).ready = false → s.phase = .running →
    exec (.pcieConfigRequest (.fid f) .id bus false v) s = .next (s.emit .cfgRetry)) ∧
  (∀ f bar off size v s, wfRegisterWrite (.fid f) bar off size v = true →
    exec (.registerWrite (.fid f) bar off size v) s = .next (barWrite f bar off size v s)) ∧
  (∀ f size off v s, barOn s f = true → isVf f = true → off + size ≤ 0x1000 → [1, 2, 4, 8].contains size = true →
    barWrite f 2 off size v s = { s with exch := wrN s.exch (f * 4096 + off) (leBytes size v) }) ∧
  (∀ f v s, barOn s f = true → isVf f = true → bit v 0 = true → wfVfExchNotify f v = true →
    exec (.vfExchNotify f v) s = .next (notifyPf f s)) ∧
  (∀ f v s, barOn s f = true → fidFn f = 0 → isNvme s f = false → fnRole s f = 1 → wfPfExchNotify f v = true →
    4 ≤ bits v 0 11 → (mget? s.fns (mkFid (fidPort f) (bits v 0 11))).isSome = true →
    exec (.pfExchNotify f v) s = .next (notifyVf (mkFid (fidPort f) (bits v 0 11)) s)) ∧
  (∀ f i v s, barOn s f = true → fidFn f = 0 → isNvme s f = false → fnRole s f = 1 → i < 64 → wfExchPendClear f i v = true →
    exec (.exchPendClear f i v) s = .next (clearPend f i v s)) ∧
  (∀ f vec s, wfMsixUnmask f vec = true → barOn s f = true → vec < msixSize s f →
    exec (.msixUnmask f vec) s = .next ((s.modFn f (fun r => { r with unmasked := mput r.unmasked vec () })).flushMsix f)) ∧
  (∀ f s, wfFnCtlUnfence f = true → barOn s f = true → (fnD s f).bme = true → isNvme s f = false →
    ∃ t, exec (.fnCtlUnfence f) s = .next t ∧ (∀ r, (ringOf s f r).state = 3 → (ringOf t f r).state = 0) ∧
      (mbxOf t (.fn f)).state ≠ 3) ∧
  (∀ v s, wfRcvOwnerWrite v = true → s.phase = .recovery →
    exec (.rcvOwnerWrite v) s =
      .next { s with nv := { s.nv with ownerRec := if bit v 8 then some (bits v 0 5) else none } }) ∧
  (∀ f off len data s i w, wfBar4WindowTlp f off len true data false = true → hostFn s f = true → s.phase = .running →
    (fnD s f).mse = true → winFor s f off len = some (i, w) → w.wrEn = true → w.tgtType ≠ 2 →
    exec (.bar4WindowTlp f off len true data false) s =
      .next { s with region := wrN s.region (w.tgtType * 2 ^ 48 + w.tgtAddr + (off - w.barOff)) data }) ∧
  (∀ f off len data s i w, wfBar4WindowTlp f off len false data false = true → hostFn s f = true → s.phase = .running →
    (fnD s f).mse = true → winFor s f off len = some (i, w) → w.rdEn = true → w.tgtType ≠ 2 →
    exec (.bar4WindowTlp f off len false data false) s =
      .next (s.emit (.barData f (rdN s.region (w.tgtType * 2 ^ 48 + w.tgtAddr + (off - w.barOff)) len)))) ∧
  (∀ f off len data s, wfBar4WindowTlp f off len false data false = true → hostFn s f = true → s.phase = .running →
    (fnD s f).mse = true → winFor s f off len = none →
    exec (.bar4WindowTlp f off len false data false) s =
      .next (((s.modFn f (fun r => { r with aer := r.aer ++ [20] })).event 0x0301 (.fn f) off).emit (.unsupported f off)))

/-- R82 to R92. Resets, power states and links: Bus Master Enable, Memory Space Enable, FLR, VF Enable, D3hot and D0, D3cold, PERST, hot
reset, DL_Up, readiness, L1, and the end of an outstanding read. (Readings and choices of the model in it: log entries 45, 77, 91.) -/
def Obligations.FunctionResets : Prop :=
  (∀ f s, wfBmeClear f = true → hostFn s f = true → exec (.bmeClear f) s = .next (bmeClear f s)) ∧
  (∀ f s, wfMseClear f = true → hostFn s f = true → exec (.mseClear f) s = .next (s.modFn f ({ · with mse := false }))) ∧
  (∀ f s, wfFlr f = true → hostFn s f = true → (fnD s f).inFlr = false → fidFn f ≠ 1 → fidFn f ≠ 2 →
    exec (.flr f) s = .next ((resetFn f s).modFn f ({ · with inFlr := true }))) ∧
  (∀ f s, wfFlr f = true → hostFn s f = true → (fnD s f).inFlr = false → (fidFn f = 1 ∨ fidFn f = 2) →
    exec (.flr f) s = .next ((resetFn f (resetVfs f s)).modFn f ({ · with inFlr := true }))) ∧
  (∀ f n s, wfVfEnableSet f n = true → hostFn s f = true → (fidFn f = 1 ∨ fidFn f = 2) → (fnD s f).vfEnable = false →
    ∃ t, exec (.vfEnableSet f n) s = .next t ∧ fnD t f = { fnD s f with vfEnable := true, numVfs := n }) ∧
  (∀ f s, wfVfEnableClear f = true → hostFn s f = true → (fnD s f).vfEnable = true →
    exec (.vfEnableClear f) s = .next ((resetVfs f s).modFn f ({ · with vfEnable := false }))) ∧
  (∀ f s, wfD3hotEnter f = true → hostFn s f = true → exec (.d3hotEnter f) s = .next (s.modFn f ({ · with d3 := true }))) ∧
  (∀ f s, wfD0Return f = true → hostFn s f = true → (fnD s f).d3 = true →
    exec (.d0Return f) s = .next (kickAll f ((s.modFn f ({ · with d3 := false })).flushMsix f))) ∧
  (∀ n s, wfD3coldEnter n = true → hostPortExists s n = true → (hostPort s n).linkUp = true →
    ∃ t, exec (.d3coldEnter n) s = .next t ∧ (hostPort t n).linkUp = false ∧ (hostPort t n).ready = false) ∧
  (∀ n ns s, wfHpPerstNAssert n ns = true → 1000 ≤ ns → pinsIn s = true → hostPortExists s n = true →
    ∃ t, exec (.hpPerstNAssert n ns) s = .next t ∧ (hostPort t n).linkUp = false ∧ (hostPort t n).perst = true) ∧
  (∀ n s, wfHpPerstNDeassert n = true → pinsIn s = true →
    ∃ t, exec (.hpPerstNDeassert n) s = .next t ∧ hostPort t n = { hostPort s n with perst := false }) ∧
  (∀ n s, wfHotReset n = true → hostPortExists s n = true → (hostPort s n).linkUp = true →
    exec (.hotReset n) s = .next (portReset n s)) ∧
  (∀ n s, (hostPort (portReset n s) n).linkUp = false ∧ (hostPort (portReset n s) n).bus = 0) ∧
  (∀ n width gt flit s, wfDlUp n width gt flit = true → hostPortExists s n = true → (hostPort s n).enabled = true →
    (hostPort s n).perst = false → (hostPort s n).linkUp = false → s.eft.portsUp = true → pinsIn s = true → s.phase = .running → width ≤ formWidth s n → elasticOn s .training = true →
    width ≤ (hostPort s n).maxWidth → gt ≤ (hostPort s n).maxGt → gt < 64 ∨ flit = true →
    ∃ t, exec (.dlUp n width gt flit) s = .next t ∧
      hostPort t n = { hostPort s n with linkUp := true, ready := false, width, gt, flit, l1 := false }) ∧
  (∀ n s, wfFunctionReady n = true → (hostPort s n).linkUp = true →
    ∃ t, exec (.functionReady n) s = .next t ∧ (hostPort t n).ready = true ∧
      ∀ f ∈ portFids s n, (fn? s f).isSome = true → (fnD t f).ready = true) ∧
  (∀ n s, wfL1Enter n true = true → (hostPort s n).linkUp = true → (presentFns s n).all (fun f => bit f.aspm 1) = true →
    exec (.l1Enter n true) s = .next { s with hps := mupd s.hps n {} ({ · with l1 := true }) }) ∧
  (∀ n tag data s r, wfPcieReadCompletion n tag (some data) = true → readOf s n tag = some r → r.dead = true →
    exec (.pcieReadCompletion n tag (some data)) s = .next (dropRead n tag r s)) ∧
  (∀ n tag data s r k, wfPcieReadCompletion n tag (some data) = true → readOf s n tag = some r → r.dead = false → r.purpose = .mbxSlots k →
    exec (.pcieReadCompletion n tag (some data)) s = .next (mbxSlotsDone r.fid k data (dropRead n tag r s))) ∧
  (∀ n tag data s r, wfPcieReadCompletion n tag (some data) = true → readOf s n tag = some r → r.dead = false → r.purpose = .mbxIndex →
    exec (.pcieReadCompletion n tag (some data)) s = .next (mbxIndexDone r.fid (ofLe (data.take 4)) (dropRead n tag r s))) ∧
  (∀ n tag s r, wfPcieReadCompletion n tag none = true → readOf s n tag = some r →
    exec (.pcieReadCompletion n tag none) s = .next (dropRead n tag r (failRead r 12 s))) ∧
  (∀ n tag s r, wfCompletionTimeout n tag = true → readOf s n tag = some r → (fnD s r.fid).ctoOff = false →
    exec (.completionTimeout n tag) s = .next (dropRead n tag r (failRead r 14 s)))

/-- R75 to R79. The windows' commands: one sets an entry with its version raised, one retires it, and a draining entry waits for its requests
in flight, for 1 ms at most. (Readings and choices of the model in it: log entries 15, 91.) -/
def Obligations.WindowCommands : Prop :=
  (∀ x r s w, Served x 0x0308 r s → wfWindowSet x w = true → (callBy x r s).inPort w.port = true → windowFault (begun x s) w = none →
    windowGrant (begun x s) (callBy x r s) w = true → (callBy x r s).role = 1 →
    ∃ t, exec (.windowSet x w) s = .next (replied x r [u8 (winOf t w.port w.index).version] t) ∧
      winOf t w.port w.index = { winOf (begun x s) w.port w.index with
        state := 1, rdEn := w.rd = 1, wrEn := w.wr = 1, sizeLog2 := w.sizeLog2, fn := w.fn, tenant := w.tenant
        tgtType := w.tgtType, version := ((winOf (begun x s) w.port w.index).version + 1) % 256, barOff := w.barOff
        tgtAddr := w.tgtAddr }) ∧
  (∀ x r s n i, Served x 0x0309 r s → wfWindowRetire x n i = true → (callBy x r s).inPort n = true →
    hostPortExists (begun x s) n = true → (winOf (begun x s) n i).state ≠ 0 → (winOf (begun x s) n i).inflight = 0 →
    exec (.windowRetire x n i) s = .next (replied x r [] (windowFree n i (begun x s)))) ∧
  (∀ x r s n i, Served x 0x0309 r s → wfWindowRetire x n i = true → (callBy x r s).inPort n = true →
    hostPortExists (begun x s) n = true → (winOf (begun x s) n i).state ≠ 0 → (winOf (begun x s) n i).inflight ≠ 0 →
    exec (.windowRetire x n i) s = .next (held x r (.window n i) ((begun x s).modWin n i ({ · with state := 2 })))) ∧
  (∀ n i s, (winOf (windowFree n i s) n i).state = 0 ∧ (winOf (windowFree n i s) n i).version = (winOf s n i).version) ∧
  (∀ n i s, wfWindowDrainDone n i = true → (winOf s n i).state = 2 →
    exec (.windowDrainDone n i) s = .next (finishWait (· = .window n i) stOk 0 [] (windowFree n i s))) ∧
  (∀ n i s, wfWindowRetireTimeout n i = true → waiting s (· = .window n i) = true →
    exec (.windowRetireTimeout n i) s = .next (finishWait (· = .window n i) stTimeout 0 []
      (s.record 6 n 14 0 (domOf s (.hostPort n)).state.num (winOf s n i).tgtAddr)))

/-- R15, R69, R70, R366 to R371. Allotments, functions and tenants: what each command checks, what it writes, and what it answers. A function
that has a tenant keeps it: binding it again is STATE and changes nothing. (Readings and choices of the model in it: log entries 72, 105.) -/
def Obligations.TenancyCommands : Prop :=
  ((∀ x r s port tenant tenBase tenCount counts, Served x 0x0301 r s → wfAllotSet x port tenant tenBase tenCount counts = true →
    let u := begun x s
    let place (i : Nat) : Nat := (placeRange u port i (counts.getD i 0)).getD 0
    let v := { u with allots := mput u.allots port { tenant, tenBase, tenCount, counts, firsts := ranged.map place, set := true } }
    port < 32 → (port = u.eft.ownerPort ↔ tenant = 0) → tenBase + tenCount ≤ 65536 → counts.getD 0 0 ≤ 2044 →
    (0 < tenCount → tenBase ≠ 0 ∧ ∀ p, p < 32 → p ≠ port → 0 < (allotOf u p).tenCount →
      (allotOf u p).tenBase + (allotOf u p).tenCount ≤ tenBase ∨ tenBase + tenCount ≤ (allotOf u p).tenBase) →
    (∀ i, i < 14 → coversUse u port i (counts.getD i 0) = true ∧
      allotSum u port i (counts.getD i 0) + ownerUseAt u port i ≤ pools.getD i 0) →
    (∀ i ∈ ranged, (placeRange u port i (counts.getD i 0)).isSome = true ∧ leavesOut u port i (place i) (counts.getD i 0) = false) →
    cellsFit v = true →
    exec (.allotSet x port tenant tenBase tenCount counts) s = .next (replied x r [] v)) ∧
  (∀ x r s port, Served x 0x0302 r s → wfAllotGet x port = true → port < 32 → (callBy x r s).inPort port = true →
    let u := begun x s
    let a := allotOf u port
    exec (.allotGet x port) s = .next (replied x r ([u8 port, u16 a.tenant, u16 a.tenBase, u16 a.tenCount] ++ a.counts.map u32
      ++ (List.range 14).map (fun i => u32 (vfUse u port i + pfShare u port i (a.counts.getD i 0)))) u)) ∧
  (∀ x r s port pf vf counts fn, Served x 0x0303 r s → wfFnCreate x port pf vf counts = true →
    let u := begun x s
    let g (i : Nat) : Nat := counts.getD i 0
    let first (i : Nat) : Nat := (grantRange u port (i + 7) (g (i + 6))).getD 0
    let f : Fn := { (unprovOf u port pf vf).fn with pf, vf, ready := true, seed := Config.freeNat u.free % 2 ^ 128, grants :=
      { rings := g 0, nvmeQp := g 1, cmds := g 2, l2 := g 3, flow := g 4, cells := g 5, policers := g 6, nodes := g 7
        keySlots := g 8, ckvCtx := g 9, sa := g 10, polFirst := first 0, nodeFirst := first 1, keyFirst := first 2
        ckvFirst := first 3, saFirst := first 4 } }
    let v := { u with
      fns := mput u.fns (mkFid port fn) f
      unprov := mdel u.unprov (unprovKey port pf vf)
      free := u.free + 1 }
    (callBy x r s).inPort port = true → hostPortExists u port = true → (pf = 1 ∨ pf = 2) → 1 ≤ vf → vf ≤ 1024 →
    (∀ e ∈ portVfs u port, ¬(e.2.pf = pf ∧ e.2.vf = vf)) → createFault pf counts = none → freeFn u port = some fn →
    fitsPort u port 0 1 = true → (∀ i, i < 11 → fitsPort u port (i + 1) (g i) = true) →
    (∀ i, i < 5 → (grantRange u port (i + 7) (g (i + 6))).isSome = true) → cellsFit v = true →
    exec (.fnCreate x port pf vf counts) s =
      .next (replied x r (u16 (mkFid port fn) :: (List.range 5).map (fun i => u32 (first i))) v)) ∧
  (∀ x r s fid, Served x 0x0304 r s → wfFnDestroy x fid = true → (callBy x r s).inPort (fidPort fid) = true → isVf fid = true →
    (mget? (begun x s).fns fid).isSome = true →
    (∀ i, i < 256 → (winOf (begun x s) (fidPort fid) i).state = 0 ∨ (winOf (begun x s) (fidPort fid) i).fn ≠ fidFn fid) →
    ∃ t, exec (.fnDestroy x fid) s = .next (replied x r [] t) ∧ mget? t.fns fid = none ∧ mget? t.mbxs fid = none ∧
      ∀ i, i < 4096 → rd8 t.exch (fid * 4096 + i) = 0) ∧
  (∀ x r s fid, Served x 0x0305 r s → wfFnQuery x fid = true → (callBy x r s).role = 1 → (fn? (begun x s) fid).isSome = true →
    let u := begun x s
    exec (.fnQuery x fid) s = .next (replied x r ([u8 (fnD u fid).pf, u16 (fnD u fid).vf, u16 (fidFn fid), u16 (tenantOf u fid),
      u32 (fnStatus u fid), u32 (b2n (fnD u fid).drvReady)] ++ (grantsOf u fid).list.map u32 ++ (grantsOf u fid).firsts.map u32) u)) ∧
  (∀ x r s fid tenant, Served x 0x0306 r s → wfTenantBind x fid tenant = true → (callBy x r s).inPort (fidPort fid) = true →
    isVf fid = true → (mget? (begun x s).fns fid).isSome = true → tenant ≠ 0 → (callBy x r s).role = 1 →
    (fnD (begun x s) fid).bound = false →
    exec (.tenantBind x fid tenant) s = .next (replied x r [] ((begun x s).modFn fid ({ · with bound := true, tenant := tenant }))))) ∧
  (∀ x r s fid tenant, Served x 0x0306 r s → wfTenantBind x fid tenant = true → (callBy x r s).role = 1 → isVf fid = true →
    (mget? (begun x s).fns fid).isSome = true → tenant ≠ 0 → (fnD (begun x s) fid).bound = true →
    exec (.tenantBind x fid tenant) s = .next (turnedAway x r stState 0 (begun x s)))

/-- R83, R391, R403, R469, R474. `SYS_RST_N` held low loses everything but OTP, eMRAM and what the supplies keep, and counters and time
are zero. (The queue, the outputs and the free-value counter are the model's own; log entry 4.) -/
def Obligations.ResetLosesState : Prop :=
  (∀ s, exec .sysRstNAssert s = .next (loseAll s)) ∧
  (∀ s, (loseAll s).phase = .inReset ∧ (loseAll s).time = 0 ∧ (loseAll s).tick = 0 ∧ (loseAll s).ctr = [] ∧ (loseAll s).fns = [] ∧
    (loseAll s).mbxs = [] ∧ (loseAll s).wins = [] ∧ (loseAll s).exch = [] ∧ (loseAll s).region = [] ∧ (loseAll s).reads = [] ∧
    (loseAll s).pkt = {} ∧ (loseAll s).cip = {} ∧ (loseAll s).skk = {} ∧ (loseAll s).meter = {} ∧ (loseAll s).migKey = none ∧
    (loseAll s).flt = {} ∧ (loseAll s).i3c = {} ∧ (loseAll s).chain = {} ∧ (loseAll s).dbg = {}) ∧
  (∀ s, (loseAll s).nv = s.nv ∧ (loseAll s).pins.sysRstN = false ∧ (loseAll s).pins.chnHead = s.pins.chnHead) ∧
  (∀ ch br os s, wfSysRstNRelease ch br os = true →
    (s.pins.sysRstN = true ∨ s.pins.pwrOk = false ∨ s.pins.vddRet = false ∨ s.pins.thermtrip = true) →
    exec (.sysRstNRelease ch br os) s = .next s)

/-- R395, R403, R406. The boot: the strap sends the device into recovery mode, and otherwise the slot that selection gives runs. (Readings and
choices of the model in it: log entries 4, 5.) -/
def Obligations.BootChoosesSlot : Prop :=
  (∀ ch os s, wfSysRstNRelease ch false os = true → s.pins.sysRstN = false → s.pins.pwrOk = true → s.pins.vddRet = true →
    s.pins.thermtrip = false →
    ∃ t, exec (.sysRstNRelease ch false os) s = .next t ∧ t.phase = .recovery ∧ t.eft.rcvCause = 2 ∧ t.eft.running = 0xFF) ∧
  (∀ ch os s i reason, wfSysRstNRelease ch true os = true → s.pins.sysRstN = false → s.pins.pwrOk = true → s.pins.vddRet = true →
    s.pins.thermtrip = false → s.nv.slotA.state ≠ 4 → s.nv.slotB.state ≠ 4 → selectSlot s = some (i, reason) →
    ∃ t, exec (.sysRstNRelease ch true os) s = .next t ∧ t.phase = .running ∧ t.eft.running = i ∧ t.eft.reason = reason) ∧
  (∀ ch os s, wfSysRstNRelease ch true os = true → s.pins.sysRstN = false → s.pins.pwrOk = true → s.pins.vddRet = true →
    s.pins.thermtrip = false → s.nv.slotA.state ≠ 4 → s.nv.slotB.state ≠ 4 → selectSlot s = none →
    ∃ t, exec (.sysRstNRelease ch true os) s = .next t ∧ t.phase = .recovery ∧ t.eft.rcvCause = 1) ∧
  (∀ s i reason, selectSlot s = some (i, reason) → ((slotOf s i).key s.nv.revoke).isSome = true ∧
    ((slotOf s i).state = 3 ∨ (slotOf s i).state = 5 ∨ (slotOf s i).state = 6)) ∧
  (∀ s i j reason, i ≤ 1 → (slotOf s i).state = 3 → ((slotOf s i).key s.nv.revoke).isSome = true → selectSlot s = some (j, reason) →
    (slotOf s j).state = 3 ∧ reason = 1)

/-- R409, R410, R444, R465, R467 to R470, R474. Supplies, wake sources and reference clocks. R408. Basking: the command is held while the
device drains; the drain's end answers it and asserts `BASK_REQ_N`; an overrun answers TIMEOUT and resumes. (Readings and choices of the
model in it: log entries 4, 20.) -/
def Obligations.SuppliesWakeAndBasking : Prop :=
  ((∀ s, (s.phase ≠ .basking ∨ s.eft.waking = false) →
    exec .pwrOkRise s = .next { s with pins := { s.pins with pwrOk := true, pwrSeen := true } }) ∧
  (∀ s, s.phase = .basking → s.eft.waking = true →
    exec .pwrOkRise s = .next (finishWake { s with pins := { s.pins with pwrOk := true, pwrSeen := true } })) ∧
  (∀ s, s.pins.baskReq = false → s.phase ≠ .basking →
    exec .pwrOkFall s = .next { loseAll s with pins := { (loseAll s).pins with pwrOk := false } }) ∧
  (∀ s, s.pins.baskReq = true → exec .pwrOkFall s = .next { s with pins := { s.pins with pwrOk := false } }) ∧
  (∀ ns s, wfWakeNAssert ns = true → 1000 ≤ ns → pinsIn s = true → s.phase = .basking → s.eft.waking = false → s.pins.pwrOk = false →
    exec (.wakeNAssert ns) s =
      .next { s with pins := { s.pins with baskReq := false }, eft := { s.eft with waking := true } }) ∧
  (∀ ns s, wfWakeNAssert ns = true → 1000 ≤ ns → pinsIn s = true → s.phase ≠ .basking → s.eft.basking = true →
    exec (.wakeNAssert ns) s = .next { s with eft := { s.eft with wakeLatched := true } }) ∧
  (∀ s, s.pins.vddRet = false →
    ∃ t, exec .vddRetUp s = .next t ∧ t.phase = .inReset ∧ t.pins.vddRet = true ∧ t.pins.pwrOk = false ∧ t.pins.pwrSeen = false ∧
      t.pins.thermtrip = false) ∧
  (∀ s, s.phase = .basking →
    ∃ t, exec .vddRetRemove s = .next t ∧ t.eft.retention = false ∧ t.i3c = {} ∧ t.pins.thermtrip = false ∧ t.pins.vddRet = false) ∧
  (∀ s, s.phase ≠ .basking → ∃ t, exec .vddRetRemove s = .next t ∧ t.phase = .inReset ∧ t.pins.thermtrip = false) ∧
  (∀ pcie i s, wfReferenceClockStop pcie i = true →
    ∃ t, exec (.referenceClockStop pcie i) s = .next t ∧ bit t.pins.clkStopped (if pcie then 4 + i else i) = true) ∧
  (∀ s, s.phase = .basking → ∃ t, exec (.referenceClockStop false 0) s = .next t ∧ t.eft.retention = false) ∧
  (∀ s, s.eft.retention = true → alarmLatched s = false →
    ∃ t, finishWake s = t ∧ t.phase = .running ∧ t.nv = s.nv ∧ t.time = s.time) ∧
  (∀ s, (s.eft.retention = false ∨ alarmLatched s = true) → finishWake s = internalReset s)) ∧
  ((∀ x r s, Served x 0x0D06 r s → wfBaskEnter x = true → baskBlocked (begun x s) = false →
    exec (.baskEnter x) s = .next (held x r .bask { begun x s with eft := { (begun x s).eft with basking := true } })) ∧
  (∀ s, s.eft.basking = true → s.phase = .running → s.eft.wakeLatched = false →
    s.fns.all (fun e => fnDrained s e.1) = true → mbxBusy s = false →
    ∃ t, exec .baskDrainDone s = .next t ∧ t.phase = .basking ∧ t.pins.baskReq = true ∧ t.eft.retention = true) ∧
  (∀ us s, wfBaskDrainTimeout us = true → s.eft.basking = true → s.phase = .running →
    ∃ t, exec (.baskDrainTimeout us) s = .next t ∧ t.eft.basking = false ∧ t.phase = .running))

/-- R361, R393, R394, R396 to R401, R412, R413. The firmware commands: staging, activation of either kind (a full one waits for packets of the
vacated Pad as well), confirmation, revocation and attestation. No reset is owed in these states (a reset follows its own response within
one command). (Readings and choices of the model in it: log entries 22, 110.) -/
def Obligations.FirmwareCommands : Prop :=
  (∀ x r s, Served x 0x0101 r s → wfDevInfo x = true → ∃ p, exec (.devInfo x) s = .next (replied x r p (begun x s)) ∧ p.length = 9 ∧
    p.head? = some (u8 s.nv.grade)) ∧
  (∀ x r s port, Served x 0x0105 r s → wfDevReset x 0 port = true →
    exec (.devReset x 0 port) s = .next (internalReset (replied x r []
      { begun x s with eft := { (begun x s).eft with resetAfter := true } }))) ∧
  (∀ x r s port, Served x 0x0105 r s → wfDevReset x 1 port = true → (callBy x r s).role = 1 → x.mbx ≠ .board → hostPortExists (begun x s) port = true →
    s.eft.resetAfter = false →
    ∃ t, exec (.devReset x 1 port) s = .next t ∧ (hostPort t port).linkUp = false) ∧
  (∀ x r s slot total data, Served x 0x0D01 r s → wfFwStage x slot 0 total data = true → slot ≤ 1 → slot ≠ s.eft.running →
    onTrial s = false → 0 < total → total ≤ 5242880 → data.length ≤ total → bit r.flags 12 = false →
    exec (.fwStage x slot 0 total data) s = .next (replied x r []
      ((begun x s).modSlot slot (fun o => { state := 1, seq := o.seq, img := data, total })))) ∧
  (∀ x r s slot total data k, Served x 0x0D01 r s → wfFwStage x slot 0 total data = true → slot ≤ 1 → slot ≠ s.eft.running →
    onTrial s = false → 0 < total → total ≤ 5242880 → data.length ≤ total → bit r.flags 12 = true → imageKey data = some k →
    bit s.nv.revoke k = false →
    ∃ t, exec (.fwStage x slot 0 total data) s = .next (replied x r [u8 k] t) ∧ (slotOf t slot).state = 2 ∧ (slotOf t slot).img = data ∧
      (slotOf t slot).seq = max s.nv.slotA.seq s.nv.slotB.seq + 1) ∧
  (∀ x r s slot, Served x 0x0D01 r s → wfFwStage x slot 0 0 [] = true → slot ≤ 1 → slot ≠ s.eft.running → onTrial s = false →
    exec (.fwStage x slot 0 0 []) s = .next (replied x r [] ((begun x s).modSlot slot (fun _ => {})))) ∧
  (∀ x r s slot trial, Served x 0x0D02 r s → wfFwActivate x 0 slot trial = true → s.eft.resetPort = none → s.eft.resetAfter = false →
    slot ≤ 1 → trial ≤ 1 → ([2, 5, 6].contains (slotOf s slot).state) = true → (callBy x r s).role = 1 →
    (2 ≤ s.eft.running ∨ (slotOf s slot).stateFmt = (slotOf s s.eft.running).stateFmt) →
    ∃ u, exec (.fwActivate x 0 slot trial) s = .next (restartEft (activateWords slot (decide (trial = 1)) u)) ∧ u.nv = s.nv) ∧
  (∀ x r s slot trial, Served x 0x0D02 r s → wfFwActivate x 1 slot trial = true → s.eft.resetPort = none → s.eft.resetAfter = false →
    slot ≤ 1 → trial ≤ 1 → ([2, 5, 6].contains (slotOf s slot).state) = true → (callBy x r s).role = 1 →
    (2 ≤ s.eft.running ∨ (slotOf s slot).stateFmt = (slotOf s s.eft.running).stateFmt) →
    leapPending (begun x s) = false → padEdited (begun x s) = false →
    exec (.fwActivate x 1 slot trial) s = .next (held x r (.fwDrain slot (decide (trial = 1)))
      { begun x s with eft := { (begun x s).eft with activating := true } })) ∧
  (∀ s, (restartEft s).eft.headless = true) ∧
  (∀ s i trial, drainingSlot s = some (i, trial) → leapPending s = false → padEdited s = false → storageDrained s = true →
    padInEngines s (shadowBit s) = false → padQueued s (shadowBit s) = false →
    ∃ u, exec .fwActivateDrainDone s = .next (reloadVendor (restartEft (activateWords i trial u)).eft.running
      (restartEft (activateWords i trial u))) ∧ u.eft.activating = false) ∧
  (∀ s, leapPending s = false → padEdited s = false → (padInEngines s (shadowBit s) = true ∨ padQueued s (shadowBit s) = true) →
    exec .fwActivateDrainDone s = .next s) ∧
  (∀ s i trial, drainingSlot s = some (i, trial) → (leapPending s = true ∨ padEdited s = true) →
    exec .fwActivateDrainDone s = .next (finishWait (· = .fwDrain i trial) stState 0 []
      { s with eft := { s.eft with activating := false } })) ∧
  (∀ s i trial, drainingSlot s = some (i, trial) →
    exec .fwActivateDrainTimeout s = .next (finishWait (· = .fwDrain i trial) (if storageDrained s = true ∧
      (padInEngines s (shadowBit s) = true ∨ padQueued s (shadowBit s) = true) then stBusy else stState) 0 []
      { s with eft := { s.eft with activating := false } })) ∧
  (∀ x r s, Served x 0x0D03 r s → wfFwState x = true →
    let one (i : Nat) : List Fld := [u8 (slotOf s i).state, u8 (((slotOf s i).key s.nv.revoke).getD 0xFF), u32 (slotOf s i).seq,
      u64 (slotOf s i).version]
    exec (.fwState x) s = .next (replied x r ([u8 s.eft.running, u8 s.eft.reason] ++ one 0 ++ one 1) (begun x s))) ∧
  (∀ s, s.phase = .running → onTrial s = true → s.eft.trialLocked = false → s.eft.headless = false →
    ∃ t, exec .trialConfirm s = .next t ∧ (slotOf t s.eft.running).state = 6) ∧
  (∀ s, onTrial s = true → s.eft.trialLocked = false →
    ∃ t, exec .trialTimerExpire s = .next t ∧ t.eft.trialLocked = true ∧ t.nv = s.nv) ∧
  (∀ x r s i, Served x 0x0D04 r s → wfKeyRevoke x i = true → i ≤ 3 → (s.nv.revoke ||| 2 ^ i) % 16 ≠ 15 → bit r.flags 9 = true →
    exec (.keyRevoke x i) s = .next (replied x r []
      { begun x s with nv := { (begun x s).nv with revoke := s.nv.revoke ||| 2 ^ i } })) ∧
  (∀ x r s nonce, Served x 0x0D05 r s → wfAttestQuote x nonce = true →
    let u := begun x s
    let body := quoteBody u (leapGen u) nonce
    body.length + 104 + s.nv.certChain.length ≤ (callBy x r s).room →
    exec (.attestQuote x nonce) s = .next (replied x r [.arr (body
      ++ identitySign (sha384 body)
      ++ leBytes 4 s.nv.certChain.length ++ leBytes 4 0 ++ s.nv.certChain)] u))

/-- R365, R410, R441 to R445. The I3C target: common command codes, private transfers and the reset pattern. (Readings and choices of the
model in it: log entry 18.) -/
def Obligations.I3cTarget : Prop :=
  (∀ h p s, wfI3cPrivateWrite h p = true → i3cAddressed s = true → s.phase ≠ .basking → s.eft.basking = false →
    64 + p.length ≤ s.i3c.mwl → boardOutstanding s < 8 →
    exec (.i3cPrivateWrite h p) s =
      .next ((s.modMbx .board (fun b => { b with queue := b.queue ++ [{ slot := h }] })).emit .i3cAck)) ∧
  (∀ h p s, wfI3cPrivateWrite h p = true → i3cAddressed s = true → s.phase ≠ .basking → s.eft.basking = false →
    64 + p.length ≤ s.i3c.mwl → 8 ≤ boardOutstanding s → exec (.i3cPrivateWrite h p) s = .next (s.emit .i3cNack)) ∧
  (∀ s i l, i3cAddressed s = true → s.i3c.ready = i :: l →
    exec .i3cPrivateRead s = .next ((s.modI3c ({ · with ready := l })).emit (.i3cData (i.bytes.take s.i3c.mrl)))) ∧
  (∀ s, i3cAddressed s = true → s.i3c.ready = [] → exec .i3cPrivateRead s = .next (s.emit .i3cNack)) ∧
  (∀ ev s, wfEnec false ev = true → i3cOn s = true → s.i3c.ready = [] →
    exec (.enec false ev) s = .next (s.modI3c fun i => { i with ibiEn := i.ibiEn || bit ev 0, hjEn := i.hjEn || bit ev 3 })) ∧
  (∀ ev s, wfDisec false ev = true → i3cOn s = true →
    exec (.disec false ev) s = .next (s.modI3c fun i => { i with ibiEn := i.ibiEn && !bit ev 0, hjEn := i.hjEn && !bit ev 3 })) ∧
  (∀ s, i3cOn s = true → exec .rstdaa s = .next (s.modI3c ({ · with addr := none }))) ∧
  (∀ a s, wfEntdaa a = true → i3cOn s = true → s.i3c.addr = none →
    exec (.entdaa a) s = .next ((s.emit (.i3cData (beBytes 6 (provisionedId s) ++ [0x06, 0x00]))).modI3c ({ · with addr := some a }))) ∧
  (∀ n s, wfSetmwl false n = true → i3cOn s = true → 64 ≤ n → n ≤ 1088 →
    exec (.setmwl false n) s = .next (s.modI3c ({ · with mwl := n }))) ∧
  (∀ n s, wfSetmrl false n = true → i3cOn s = true → 64 ≤ n → n ≤ 1088 →
    exec (.setmrl false n) s = .next (s.modI3c ({ · with mrl := n }))) ∧
  (∀ a s, wfRstact false a = true → i3cOn s = true → a ≤ 2 → exec (.rstact false a) s = .next (s.modI3c ({ · with rstact := some a }))) ∧
  (∀ a s, wfSetnewda a = true → i3cAddressed s = true → exec (.setnewda a) s = .next (s.modI3c ({ · with addr := some a }))) ∧
  (∀ s, i3cAddressed s = true →
    exec .getmwl s = .next (s.emit (.i3cData (beBytes 2 s.i3c.mwl))) ∧
    exec .getmrl s = .next (s.emit (.i3cData (beBytes 2 s.i3c.mrl ++ [1]))) ∧
    exec .getpid s = .next (s.emit (.i3cData (beBytes 6 (provisionedId s)))) ∧
    exec .getbcr s = .next (s.emit (.i3cData [0x06])) ∧ exec .getdcr s = .next (s.emit (.i3cData [0x00])) ∧
    exec .getstatus s = .next ((s.emit (.i3cData (beBytes 2 (i3cStatus s)))).modI3c ({ · with protoErr := false })) ∧
    exec .getmxds s = .next (s.emit (.i3cData [0x00, 0x00]))) ∧
  (∀ c s, wfI3cUnsupportedCcc c true = true → i3cAddressed s = true → exec (.i3cUnsupportedCcc c true) s = .next (s.emit .i3cNack)) ∧
  (∀ c s, wfI3cUnsupportedCcc c false = true → (c < 0x20 ∨ 0x27 < c) → exec (.i3cUnsupportedCcc c false) s = .next s) ∧
  (∀ s, exec .hdrExitPattern s = .next (s.modI3c ({ · with hdr := false }))) ∧
  (∀ s, s.pins.vddRet = true → s.pins.pwrSeen = true → (s.i3c.rstact = none ∨ s.i3c.rstact = some 1) →
    ∃ t, exec .targetResetPattern s = .next t ∧ t.i3c = { addr := s.i3c.addr } ∧ t.boardMbx.queue = [] ∧ t.boardMbx.cur = none) ∧
  (∀ s, s.pins.vddRet = true → s.pins.pwrSeen = true → s.i3c.rstact = some 2 → exec .targetResetPattern s = .next (internalReset s)) ∧
  (∀ s, i3cOn s = true → s.i3c.addr = none → s.i3c.hjEn = true → exec .hotJoinRequest s = .next (s.emit .i3cHotJoin))

/-- R227, R448 to R457. The frames of the Spawn Chain, each at a unit whose chain is UP and that is not the frame's sender. R448. A chain
frame whose CRC does not match is discarded and counted, whichever frame it is. (Readings and choices of the model in it: log entry 78.) -/
def Obligations.ChainFrames : Prop :=
  (∀ f s, chainOn s = true → frameOk f = true → s.chain.state = 2 → s.chain.seen = true →
    (fType f = 0 → exec (.keep f) s = .next s) ∧
    (fType f = 1 → s.chain.head = false → fData f < 16 →
      exec (.enum f) s = .next (forward (mkFrame 1 (fSrc f) 0 true false 0 0 (fData f + 1))
        (s.modChain (fun c => { c with offered := some (fData f), state := 1 })))) ∧
    (fType f = 2 → s.chain.head = false → ∀ a, s.chain.offered = some a →
      exec (.close f) s = .next (chainClose (fData f) a (forward f s))) ∧
    (fType f = 3 → isOwn s f = false → exec (.reset f) s = .next (forward f (chainReform s))) ∧
    (fType f = 4 → isOwn s f = false → fPart f ≠ 0 →
      exec (.leapArm f) s = .next (forward f (s.modChain (fun c => { c with armHi := mput c.armHi (fSrc f) (fData f) })))) ∧
    (fType f = 4 → isOwn s f = false → fPart f = 0 →
      let u := s.modChain (fun c => { c with armHi := mdel c.armHi (fSrc f) })
      leapArm (mgetD s.chain.armHi (fSrc f) 0 * 2 ^ 32 + fData f) u = none →
      exec (.leapArm f) s = .next (forward (markFrame f s.chain.addr) u)) ∧
    (fType f = 5 → isOwn s f = false → exec (.leapCancel f) s = .next (forward f (leapDisarm s))) ∧
    (fType f = 6 → isOwn s f = false → forMe s f = true → bit (fData f) 31 = false →
      exec (.lend f) s = .next (
        if 5400 < s.pow.core + creditSum s.pow.borrowed - creditSum s.pow.lent + fData f % 65536
        then forward (markFrame f s.chain.addr) s
        else forward f { s with pow := { s.pow with borrowed := mupd s.pow.borrowed (fSrc f) 0 (· + fData f % 65536) } })) ∧
    (fType f = 7 → isOwn s f = false → exec (.fault f) s = .next (forward f (controlMsg 0 [7, fSrc f, fData f] s))) ∧
    (fType f = 8 → isOwn s f = false → forMe s f = false → exec (.data f) s = .next (forward f s)) ∧
    (fType f = 8 → isOwn s f = true → fPart f = 0 →
      exec (.data f) s = .next (finishWait isSendWait (if fMark f then stOk else stNotFound) 0 [] s)) ∧
    (fType f = 9 → isOwn s f = false → exec (.wake f) s = .next (wakeSource (forward f s))) ∧
    (10 ≤ fType f → exec (.reservedFrameType f) s = .next (s.bump .chainReserved 0 0 1))) ∧
  (∀ f s, chainOn s = true → frameOk f = false →
    let t := s.bump .chainCrcError 0 0 1
    exec (.keep f) s = .next t ∧ exec (.enum f) s = .next t ∧ exec (.close f) s = .next t ∧ exec (.reset f) s = .next t ∧
    exec (.leapArm f) s = .next t ∧ exec (.leapCancel f) s = .next t ∧ exec (.lend f) s = .next t ∧ exec (.fault f) s = .next t ∧
    exec (.data f) s = .next t ∧ exec (.wake f) s = .next t ∧ exec (.reservedFrameType f) s = .next t)

/-- R447, R450 to R452, R457. What else happens on the chain: keep-alives, errors, lost links, enumeration, and the commands and time-outs of
messages and armed Leaps. (Readings and choices of the model in it: log entry 78.) -/
def Obligations.ChainCommands : Prop :=
  (∀ s, chainOn s = true → exec .keepSend s = .next (s.chainSend 0 0 false 0 0)) ∧
  (∀ s, chainOn s = true → exec .chainBitTimeout s = .next (s.bump .chainLinkError 0 0 1)) ∧
  (∀ s, chainOn s = true → exec .chainInvalidCodeword s = .next (s.bump .chainLinkError 0 1 1)) ∧
  (∀ s, chainOn s = true → s.chain.state ≠ 0 →
    exec .chainInLinkLost s = .next ((chainReform s).chainSend 3 0 true 0 0) ∧
    exec .chainOutLinkLost s = .next ((chainReform s).chainSend 3 0 true 0 0)) ∧
  (∀ s, (chainReform s).chain.state = 1 ∧ (chainReform s).pow.borrowed = []) ∧
  (∀ s, chainOn s = true → s.chain.head = true → s.chain.state = 1 →
    exec .chainEnumRetry s = .next (s.emit (.chainTx (mkFrame 1 0 0 true false 0 0 1)))) ∧
  (∀ s, waiting s (· = .chainLeap) = true →
    exec .chainArmTimeout s = .next (finishWait (· = .chainLeap) stTimeout 0 [] (leapDisarm (s.chainSend 5 0 true 0 0)))) ∧
  (∀ s, exec .chainSendTimeout s = .next (finishWait isSendWait stTimeout 0 [] s)) ∧
  (∀ x r s, Served x 0x1101 r s → wfChainState x = true →
    exec (.chainState x) s = .next (replied x r [u8 s.chain.addr, u8 s.chain.units, u8 (b2n s.chain.head), u8 s.chain.state]
      (begun x s))) ∧
  (∀ x r s dest data, Served x 0x1102 r s → wfChainSend x dest data.length data = true → dest ≤ 15 → 1 ≤ data.length →
    data.length ≤ 255 → s.chain.state = 2 → pinsIn s = true →
    ∃ u, exec (.chainSend x dest data.length data) s = .next (held x r (.chainSend dest) u) ∧
      u.out.length = s.out.length + partsOf data.length)

/-- R414, R458 to R460. JTAG, debug unlock and the console; what pins that an instruction has taken no longer carry. (Readings and choices of
the model in it: log entry 19.) -/
def Obligations.DebugAccess : Prop :=
  (∀ s, exec .idcode s = .next ((s.modDbg ({ · with ir := 0x01 })).emit (.jtag 0x101449CB))) ∧
  (∀ s, ∃ v t, exec .samplePreload s = .next t ∧ t.out = s.out ++ [.jtag v] ∧ t.dbg = { s.dbg with ir := 0x02 }) ∧
  (∀ s, exec .extest s = .next ((pinsLost s).modDbg ({ · with ir := 0x03, pinsTaken := true })) ∧
    exec .extestPulse s = .next ((pinsLost s).modDbg ({ · with ir := 0x04, pinsTaken := true })) ∧
    exec .extestTrain s = .next ((pinsLost s).modDbg ({ · with ir := 0x05, pinsTaken := true })) ∧
    exec .clamp s = .next ((pinsLost s).modDbg ({ · with ir := 0x06, pinsTaken := true })) ∧
    exec .highz s = .next ((pinsLost s).modDbg ({ · with ir := 0x07, pinsTaken := true }))) ∧
  (∀ c s, wfBypass c = true → [1, 2, 3, 4, 5, 6, 7, 0x20, 0x21, 0x22, 0x23].contains c = false →
    exec (.bypass c) s = .next ((s.modDbg ({ · with ir := c })).emit (.jtag 0))) ∧
  (∀ s, ∃ c t, exec .dbgChallenge s = .next t ∧ c < 2 ^ 256 ∧ t.dbg.challenge = some c ∧ t.out = s.out ++ [.jtag c]) ∧
  (∀ tok s, wfDbgToken tok = true → tokenOk (s.modDbg ({ · with ir := 0x21 })) tok = true →
    ∃ t, exec (.dbgToken tok) s = .next t ∧ t.dbg.everUnlocked = true ∧ bit t.dbg.scopes (ofLe (sliceB tok 6 1) - 1) = true) ∧
  (∀ tok s, wfDbgToken tok = true → tokenOk (s.modDbg ({ · with ir := 0x21 })) tok = false →
    exec (.dbgToken tok) s = .next (cipherAlarm 3 (s.modDbg ({ · with ir := 0x21 })))) ∧
  (∀ s, exec .dbgStatus s = .next ((s.modDbg ({ · with ir := 0x22 })).emit (.jtag (s.dbg.scopes % 8 + 256 * s.dbg.part)))) ∧
  (∀ sc a v w s, wfDbgDmi sc w a v = true → bit s.dbg.scopes (sc - 1) = false → bit s.dbg.scopes 2 = false →
    exec (.dbgDmi sc w a v) s = .next ((s.modDbg ({ · with ir := 0x23 })).emit (.jtag 0))) ∧
  (∀ sc a v s, wfDbgDmi sc true a v = true → bit s.dbg.scopes (sc - 1) = true →
    exec (.dbgDmi sc true a v) s =
      .next (s.modDbg (fun d => { d with ir := 0x23, dmi := mput d.dmi (sc * 2 ^ 32 + a) v }))) ∧
  (∀ c s, wfUartRxInput c = true → pinsIn s = true → (bit s.dbg.scopes 1 = true ∨ bit s.dbg.scopes 2 = true) →
    exec (.uartRxInput c) s = .next (s.emit (.uartIn c))) ∧
  (∀ c s, wfUartRxInput c = true → bit s.dbg.scopes 1 = false → bit s.dbg.scopes 2 = false → exec (.uartRxInput c) s = .next s) ∧
  (∀ s, s.dbg.pinsTaken = true →
    i3cOn s = false ∧ chainOn s = false ∧ exec .ppsInEdge s = .next s ∧
    (∀ ns, wfWakeNAssert ns = true → exec (.wakeNAssert ns) s = .next s) ∧
    (∀ ns low, wfAlarmNAssert ns low = true → exec (.alarmNAssert ns low) s = .next s) ∧
    (∀ n ns, wfHpPerstNAssert n ns = true → exec (.hpPerstNAssert n ns) s = .next s) ∧
    (∀ n, wfHpPerstNDeassert n = true → exec (.hpPerstNDeassert n) s = .next s) ∧
    (∀ n w g f, wfDlUp n w g f = true → exec (.dlUp n w g f) s = .next s) ∧
    (∀ n o f, wfLinkTrainingDone n o f = true → exec (.linkTrainingDone n o f) s = .next s) ∧
    (∀ c, wfUartRxInput c = true → exec (.uartRxInput c) s = .next s))

/-- R51, R52, R173, R424. A good frame reaches the input of its port's pipeline unchanged, in arrival order; a bad one is counted and goes
nowhere. (MACsec off, and no MAC control frame.) (Readings and choices of the model in it: log entries 28, 76, 89, 106.) -/
def Obligations.FramesReceived : Prop :=
  (∀ port frame fcs s p, wfEthFrameReceive port frame fcs true = true → mget? s.ports port = some p → p.state = 2 → s.phase = .running →
    fcs.toNat = crcOf 1 frame → macsecOn s port p.octet = false → 64 ≤ frame.length + 4 → frame.length + 4 ≤ p.mtu → atBe frame 12 2 ≠ 0x8808 →
    ingressBytes s (pipeOfOctet p.octet) port + frame.length ≤ 65536 → pipeServes s (pipeOfOctet p.octet) = true →
    ∃ t k, exec (.ethFrameReceive port frame fcs true) s = .next t ∧
      mgetD t.pkt.ingress (pipeOfOctet p.octet) [] = mgetD s.pkt.ingress (pipeOfOctet p.octet) [] ++ [k] ∧
      k.bytes = frame ∧ k.inPort = port ∧ k.src = .eth port ∧ k.rxLen = frame.length ∧ k.macsecOk = false ∧
      t.count .portRxFrames port 0 = s.count .portRxFrames port 0 + 1 ∧
      t.count .portRxBytes port 0 = s.count .portRxBytes port 0 + frame.length) ∧
  (∀ port frame fcs s p, wfEthFrameReceive port frame fcs true = true → mget? s.ports port = some p → p.state = 2 → s.phase = .running →
    fcs.toNat ≠ crcOf 1 frame → exec (.ethFrameReceive port frame fcs true) s = .next (s.bump .portFcs port 0 1)) ∧
  (∀ port frame fcs s p, wfEthFrameReceive port frame fcs false = true → mget? s.ports port = some p → p.state = 2 → s.phase = .running →
    exec (.ethFrameReceive port frame fcs false) s = .next (s.bump .portFec port 0 1)) ∧
  (∀ port frame fcs s p, wfEthFrameReceive port frame fcs true = true → mget? s.ports port = some p → p.state = 2 → s.phase = .running →
    fcs.toNat = crcOf 1 frame → macsecOn s port p.octet = false → (frame.length + 4 < 64 ∨ p.mtu < frame.length + 4) →
    exec (.ethFrameReceive port frame fcs true) s = .next (s.bump .portLength port 0 1))

/-- R127, R128, R420. Classification takes the valid matching rule of the lowest slot: what it answers matches (or is a lost slot), and no
earlier record of the Pad on that pipeline does. -/
def Obligations.LowestRuleWins : Prop :=
  ∀ s k slot r, mwf (padOf s k.pad).rules = true → classify s k = some (slot, r) →
    ruleRec (padOf s k.pad) k.pipe slot = r ∧ slot < 32768 ∧
    (ruleLost r = true ∨ ruleMatches (classKey k 0) (classKey k 1) r = true) ∧
    ∀ i, i < slot → ruleLost (ruleRec (padOf s k.pad) k.pipe i) = false ∧
      ruleMatches (classKey k 0) (classKey k 1) (ruleRec (padOf s k.pad) k.pipe i) = false

/-- R40, R171, R173, R176, R187, R194, R284. The pipelines' engines, turn by turn: a header is taken when a context is free; a word is
executed for the engine's oldest ready context; an uncorrectable word is the pipeline's fault; an asynchronous result returns to its
context; a packet ends once its operations have completed and no packet of its flow is before it; and a punt whose Path Check Word does
not pass is the pipeline's fault. (Readings and choices of the model in it: log entries 26, 27, 103, 108.) -/
def Obligations.EnginesRun : Prop :=
  (∀ pipe ok s, wfPipelineHeaderAccept ⟨pipe, ok⟩ = true →
    exec (.pipelineHeaderAccept ⟨pipe, ok⟩) s = .next (engineTurn ⟨pipe, ok⟩ (takeHeader pipe) s)) ∧
  (∀ pipe engine ecc ok s, wfMicroword ⟨pipe, ok⟩ engine ecc = true →
    exec (.microword ⟨pipe, ok⟩ engine ecc) s = .next (engineTurn ⟨pipe, ok⟩ (stepEngine pipe engine ecc) s)) ∧
  (∀ pipe id kind ok s, wfMicrocodeOpComplete ⟨pipe, ok⟩ id kind = true →
    exec (.microcodeOpComplete ⟨pipe, ok⟩ id kind) s = .next (engineTurn ⟨pipe, ok⟩ (opComplete pipe id kind) s)) ∧
  (∀ pipe s k rest e, mgetD s.pkt.ingress pipe [] = k :: rest → freeEngine s pipe = some e → pipeServes s pipe = true →
    overtakes s k = false →
    takeHeader pipe s = acceptHeader k e (s.modPkt (fun p => { p with ingress := mput p.ingress pipe rest }))) ∧
  (∀ pipe engine s c w, pickCtx s engine false (ctxsOf s pipe) = some c → c.steps < 256 →
    isExport (fetchAddr s c.pkt c.pc) = false → fetchWord s c.pkt (fetchAddr s c.pkt c.pc) = some w →
    stepEngine pipe engine .clean s = runWord c (fetchAddr s c.pkt c.pc) w s) ∧
  (∀ pipe engine s c, pickCtx s engine false (ctxsOf s pipe) = some c → c.steps < 256 → isExport (fetchAddr s c.pkt c.pc) = true →
    stepEngine pipe engine .clean s = runExport c (fetchAddr s c.pkt c.pc) s) ∧
  (∀ pipe engine s c, pickCtx s engine false (ctxsOf s pipe) = some c → 256 ≤ c.steps →
    stepEngine pipe engine .clean s = mfaultEnd c.pkt 3 (fetchAddr s c.pkt c.pc) (endCtx c.pkt.pipe c.id (flushOps c s))) ∧
  (∀ pipe engine s c, pickCtx s engine false (ctxsOf s pipe) = some c →
    stepEngine pipe engine .uncorrectable s = domFault (.pipeline (physOf s 0 pipe)) 3 (fetchAddr s c.pkt c.pc)
      (dropPkt c.pkt 9 (meterIn c.pkt.tenant c.pkt.cls c.pkt.rxLen (endCtx pipe c.id (flushOps c s))))) ∧
  (∀ pipe id s c seed f, ctxOp s pipe id 2 = some (c, .hash seed f) →
    opComplete pipe id 2 s = putCtx pipe (hashDone { c with ops := c.ops.filter (·.kind ≠ 2) } seed f s) s) ∧
  (∀ pipe id s c t key, ctxOp s pipe id 0 = some (c, .lookup t key) →
    let x := lookupDone { c with ops := c.ops.filter (·.kind ≠ 0) } t key s
    opComplete pipe id 0 s = putCtx pipe x.1 x.2) ∧
  (∀ l c p, firstEnded [] l = some (c, p) →
    ∃ l1 l2, l = l1 ++ c :: l2 ∧ c.ending = some p ∧ c.ops = [] ∧ ∀ b ∈ l1, sameFlow b.pkt c.pkt = false) ∧
  (∀ pipe f s n,
    let t := f (s.modPkt ({ · with puntCheck := 1 }))
    let u := t.modPkt ({ · with puntCheck := 0 })
    firstEnded [] (ctxsOf t pipe) = none → t.pkt.puntCheck = 1 + n →
    engineTurn ⟨pipe, false⟩ f s = resumeHosts pipe s
      ((List.range n).foldl (fun v _ => domFault (.pipeline (physOf v 0 pipe)) 6 2 (v.bump .pcwBad 2 pipe 1)) u)) ∧
  (∀ pipe f s,
    let t := f (s.modPkt ({ · with puntCheck := 0 }))
    firstEnded [] (ctxsOf t pipe) = none → t.pkt.puntCheck = 0 →
    engineTurn ⟨pipe, true⟩ f s = resumeHosts pipe s (t.modPkt ({ · with puntCheck := 0 })))

/-- R99, R104, R205, R214, R216, R217. The host's packets and the egress: a whole packet's descriptors are consumed and it is sent on, its
data read unless it completes FORMAT; a port that can take a frame is served by its hierarchy, and a frame that is sent is charged; a late
head of a deadline queue is purged; a telemetry sample is written. (Readings and choices of the model in it: log entries 31, 74, 75, 82.) -/
def Obligations.HostAndEgress : Prop :=
  (∀ fid ring d data s r, wfHostTxPacket fid ring [d] data true = true → s.reads = [r] → r.fid = fid → r.purpose = .desc ring →
    r.dead = false → r.tag.isSome = true → 32 ≤ r.len → (ringOf s fid ring).type = 0 → (ringOf s fid ring).state = 1 → (ringOf s fid ring).partialDescs = [] →
    1 ≤ sub32 (ringOf s fid ring).lastRead (ringOf s fid ring).ci → txEop d.toNat = true →
    let u : State := { s with reads := [] }
    (txBad [d.toNat] = true ∨ (data.length = txLen d.toNat ∧ tagRoom u fid = true)) →
    exec (.hostTxPacket fid ring [d] data true) s = .next (txSend fid ring [d.toNat] data
      ((if txBad [d.toNat] = true then u else readData fid [d.toNat] u).modRing fid ring
        ({ · with ci := add32 (ringOf s fid ring).ci 1 })))) ∧
  (∀ l0 bufs ok dma s c b, wfEgressSchedule l0 bufs ok dma = true → s.phase = .running → l0 < 144 →
    let u := purgePort l0 s
    pipeServes u (pipeOfPort u l0) = true → chooseQueue l0 u = some c → stored? u c.copy.pkt = some b →
    let r := sendOrFence l0 c.queue c.copy b ok dma u
    exec (.egressSchedule l0 bufs ok dma) s = .next (leaveQueue c.queue c.copy
      (popHead c.queue (if r.2 = true then chargeSend l0 c r.1 else r.1)))) ∧
  (∀ l0 q c b ok s, sendOrFence l0 q c b ok true s = sendEth l0 q c b ok s) ∧
  (∀ l0 bufs ok dma s c b v sent, wfEgressSchedule l0 bufs ok dma = true → s.phase = .running → 144 ≤ l0 →
    let u := purgePort l0 s
    pipeServes u (pipeOfPort u l0) = true → chooseQueue l0 u = some c → stored? u c.copy.pkt = some b →
    deliverHost c.queue c.copy b (bufs.map (·.toNat)) ok dma u = .left v sent →
    exec (.egressSchedule l0 bufs ok dma) s =
      .next (leaveQueue c.queue c.copy (popHead c.queue (if sent = true then chargeSend l0 c v else v)))) ∧
  (∀ l0 q c b s p, pcwGood b.pkt c b.pkt.tenant (mkDest 1 l0) true = true → mget? s.ports l0 = some p → macsecOn s l0 p.octet = false →
    b.tsOut = false → (wireBytes s l0 c b.pkt).length + 4 ≤ p.mtu → c.mirror = true →
    (sendEth l0 q c b true s).1.out = s.out ++ [.ethTx l0 (wireBytes s l0 c b.pkt) (crcOf 1 (wireBytes s l0 c b.pkt))]) ∧
  (∀ q s c, wfDeadlineHeadCheck q = true → (mgetD s.pkt.queues q []).head? = some c → copyLate s q c = true →
    exec (.deadlineHeadCheck q) s = .next (purgeQueue q (mgetD s.pkt.queues q []).length s)) ∧
  (∀ ring consumer n s t, wfQueueTelemetrySample ring consumer n = true → s.phase = .running → mget? s.pkt.telem ring = some t →
    ∃ u, exec (.queueTelemetrySample ring consumer n) s = .next u ∧ mget? u.pkt.telem ring = some { t with
      pi := t.pi + (t.queues.take n).length, ci := if tagRoom s t.fid = true then consumer else t.ci, seq := (t.seq + (t.queues.take n).length) % 2 ^ 32 })

/-- R17, R220 to R223. Every Pad-scoped write goes to the shadow Pad: the active Pad, which Pad is active and the generation stay as they
were. -/
def Obligations.ActivePadUnchanged : Prop :=
  ∀ op s t rep, op.shadowOnly = true → padApply op s = (t, rep) →
    padOf t s.pkt.leap.active = padOf s s.pkt.leap.active ∧ t.pkt.leap.active = s.pkt.leap.active ∧ t.pkt.leap.gen = s.pkt.leap.gen ∧
    t.pkt.queues = s.pkt.queues ∧ t.pkt.ctxs = s.pkt.ctxs ∧ t.ctr = s.ctr ∧ t.out = s.out

/-- R225, R226, R228. A Leap makes the shadow Pad the active one in one step: the generation rises by one, the old Pad becomes the shadow,
and no Pad's contents change. -/
def Obligations.LeapSwapsPads : Prop :=
  ∀ spread s, s.pkt.leap.active ≤ 1 →
    let t := leapTrigger spread s
    t.pkt.leap.active = shadowBit s ∧ shadowBit t = s.pkt.leap.active ∧ t.pkt.leap.gen = (s.pkt.leap.gen + 1) % 65536 ∧
    t.pkt.leap.pending = none ∧ t.pkt.leap.last = s.time ∧ t.pkt.leap.spread = spread ∧
    (∀ b, padOf t b = padOf s b) ∧ t.nv.parseRecs = (padOf s (shadowBit s)).parse ∧ t.nv.defaults = (padOf s (shadowBit s)).defaults

/-- R121, R127 to R134, R159, R197, R210 to R213, R221. The commands that write the shadow Pad, each with no Leap armed, no packet of the
vacated Pad in the way and no other Pad-scoped command waiting: what each writes, reserved bits cleared (R5). (Readings and choices of the
model in it: log entries 32, 33, 74, 101.) -/
def Obligations.PadWriteCommands : Prop :=
  ∀ x r s, leapPending (begun x s) = false → padHeld (begun x s) = false →
    let u := begun x s
    let done (t : State) : Host.Outcome State Fault Refusal := .next (replied x r [] t)
    (∀ port rec, Served x 0x0501 r s → wfParseDepthSet x port rec = true → port < 176 → parseRecOk rec.toNat = true →
      padInEngines u (shadowBit u) = false →
      exec (.parseDepthSet x port rec) s = done (shadowWrite (fun p => { p with parse := putRec p.parse port (clearBits rec.toNat [(25, 7), (112, 16)]) parseReset }) u)) ∧
    (∀ port a, Served x 0x0502 r s → wfPortDefaultSet x port a = true → port < 176 →
      let v := clearBits a.toNat [(25, 7), (52, 12)]
      bits v 6 2 ≠ 3 → padInEngines u (shadowBit u) = false →
      exec (.portDefaultSet x port a) s = done (shadowWrite (fun p => { p with defaults := putRec p.defaults port v 0 }) u)) ∧
    (∀ pipes slot e, Served x 0x0503 r s → wfRuleWrite x pipes 0 slot e = true → bit r.flags 8 = false → pipes < 512 → slot < 32768 →
      ruleBad e.toNat = false → padInEngines u (shadowBit u) = false →
      (∀ k ∈ pipesOf pipes, slotUsed (padOf u (shadowBit u)) 0 k slot = false) →
      exec (.ruleWrite x pipes 0 slot e) s =
        done (shadowWrite (fun p => (pipesOf pipes).foldl (fun p k => putSlot 0 k slot e.toNat p) p) u)) ∧
    (∀ pipes kind slot, Served x 0x0504 r s → wfRuleClear x pipes kind slot = true → bit r.flags 8 = false →
      slotFault pipes kind slot = none → padInEngines u (shadowBit u) = false →
      exec (.ruleClear x pipes kind slot) s =
        done (shadowWrite (fun p => (pipesOf pipes).foldl (fun p k => putSlot kind k slot 0 p) p) u)) ∧
    (∀ c, Served x 0x0601 r s → wfUcodeLoad x c = true → ucodeFault u c = none → padInEngines u (shadowBit u) = false →
      exec (.ucodeLoad x c) s = done (shadowWrite (fun p => (pipesOf c.pipes).foldl (fun p k => loadImage c k p) p) u)) ∧
    (∀ i rec, Served x 0x0803 r s → wfPolicerSet x i rec = true → i < 524288 →
      let v := clearBits rec.toNat [(5, 27), (160, 96)]
      polMode v ≠ 3 → (polMode v = 1 → polCir v ≤ polPir v) → (callBy x r s).role = 1 → padInEngines u (shadowBit u) = false →
      exec (.policerSet x i rec) s =
        done (shadowWrite (fun p => { p with policers := putRec p.policers i v (policerReset i) }) u)) ∧
    (∀ level rt node cir cbs pir pbs, Served x 0x0804 r s → wfShaperSet x level rt node cir cbs pir pbs = true → level < 4 → rt < 2 →
      node < levelSize level → (callBy x r s).role = 1 → padBlocked u .copy = false →
      exec (.shaperSet x level rt node cir cbs pir pbs) s = done (shadowWrite (putNode level node
        (fun q => pack [(32, cir), (32, cbs), (32, pir), (32, pbs)] * 2 ^ 64 + setBits (bits q 0 64) 32 1 rt)) u)) ∧
    (∀ level prio pfc oh weight dl node parent, Served x 0x0805 r s →
      wfQueueMap x (.node level prio pfc oh weight dl node parent) = true → nodeFault level prio pfc oh weight dl node parent = none →
      (callBy x r s).role = 1 → padBlocked u .copy = false →
      exec (.queueMap x (.node level prio pfc oh weight dl node parent)) s = done (shadowWrite (putNode level node (fun q =>
        q / 2 ^ 64 * 2 ^ 64 + bits q 32 1 * 2 ^ 32
          + setBits (pack [(17, parent), (3, prio), (12, weight), (1, 0), (3, pfc), (10, dl), (6, oh)]) 32 1 0)) u)) ∧
    (∀ count dest base, Served x 0x0805 r s → wfQueueMap x (.base count dest base) = true → [1, 2, 4, 8, 16].contains count = true →
      destType dest = 1 → destArg dest < 144 → dest < 2 ^ 24 → base + count ≤ 131072 → (callBy x r s).role = 1 →
      padInEngines u (shadowBit u) = false →
      exec (.queueMap x (.base count dest base)) s =
        done (shadowWrite (fun p => { p with qbases := mput p.qbases dest (base * 32 + count) }) u)) ∧
    (∀ n trunc sample q, Served x 0x0805 r s → wfQueueMap x (.session n trunc sample q) = true → 1 ≤ n → n ≤ 7 →
      (trunc = 0 ∨ (64 ≤ trunc ∧ trunc ≤ 9600)) → sample ≠ 0 → (callBy x r s).role = 1 → padBlocked u .copy = false →
      exec (.queueMap x (.session n trunc sample q)) s = done (shadowWrite (fun p => { p with
        mirrors := mput p.mirrors n { queue := if q < 131072 then some q else none, trunc, sample } }) u)) ∧
    (∀ g rec members, Served x 0x0409 r s → wfLbGroupSet x g rec members = true → groupFault g rec members = none → grpMode rec ≠ 2 →
      padInEngines u (shadowBit u) = false →
      exec (.lbGroupSet x g rec members) s =
        done (spraySlots g (shadowWrite (fun p => { p with groups := mput p.groups g {
          record := clearBits rec [(26, 6)], members := members.map (clearBits · [(26, 6)]) } }) u))) ∧
    (Served x 0x0701 r s → wfPadCopy x = true → padBlocked u .copy = false →
      ∃ t, exec (.padCopy x) s = done t ∧ padOf t (shadowBit u) = padOf u u.pkt.leap.active ∧ t.pkt.leap.shadow = 2) ∧
    (Served x 0x0704 r s → wfPadDiscard x = true → padBlocked u .copy = false →
      ∃ t, exec (.padDiscard x) s = done t ∧ padOf t (shadowBit u) = {} ∧ t.pkt.leap.shadow = 0)

/-- R132, R133, R223 to R226, R361. Leaping, waiting and reading: a Leap now and an armed one, a write that waits and goes on in its turn, the
commands that read the Pads, and the live rule commands. (Readings and choices of the model in it: log entries 22, 110.) -/
def Obligations.PadLeapAndReads : Prop :=
  (∀ x r s expect time, Served x 0x0702 r s → wfPadLeap x 0 expect time = true → expect = leapGen s → s.pkt.leap.shadow ≠ 0 →
    leapPending s = false → padHeld (begun x s) = false →
    exec (.padLeap x 0 expect time) s = .next (replied x r [u16 ((leapGen s + 1) % 65536)]
      (leapTrigger (Config.freeNat s.free % 2001) { begun x s with free := s.free + 1 }))) ∧
  (∀ x r s expect time, Served x 0x0702 r s → wfPadLeap x 1 expect time = true → expect = leapGen s → s.pkt.leap.shadow ≠ 0 →
    leapPending s = false → padHeld (begun x s) = false → s.time + 10000 ≤ time → time ≤ s.time + 3600 * 10 ^ 9 →
    exec (.padLeap x 1 expect time) s = .next (replied x r [u16 ((leapGen s + 1) % 65536)]
      ((begun x s).modPkt (fun p => { p with leap := { p.leap with pending := some time, chain := false } })))) ∧
  (∀ x r s expect time, Served x 0x0702 r s → wfPadLeap x 2 expect time = true → expect = leapGen s → s.pkt.leap.shadow ≠ 0 →
    leapPending s = false → padHeld (begun x s) = false → s.time + 1000000 ≤ time → time ≤ s.time + 3600 * 10 ^ 9 → s.chain.state = 2 →
    exec (.padLeap x 2 expect time) s = .next (held x r .chainLeap (armChain time
      ((begun x s).modPkt (fun p => { p with leap := { p.leap with pending := some time, chain := true } }))))) ∧
  (∀ x r s mode expect time, Served x 0x0702 r s → wfPadLeap x mode expect time = true → mode ≤ 2 → bit r.flags 9 = false →
    padHeld (begun x s) = false → (expect ≠ leapGen s ∨ s.pkt.leap.shadow = 0 ∨ leapPending s = true) →
    exec (.padLeap x mode expect time) s = .next (turnedAway x r stState (if mode = 2 then s.chain.addr else 0) (begun x s))) ∧
  (∀ spread s t, wfTimedLeapTrigger spread = true → s.pkt.leap.pending = some t →
    exec (.timedLeapTrigger spread) s = .next (if t ≤ s.time then leapTrigger spread s else s)) ∧
  (∀ m r i op s st d p h n t, wfPadWriteResume m false = true → (mbxOf s m).cur = some (r, .padWrite i op) → op.shadowOnly = true →
    (padWaits s).any (· < i) = false → leapPending s = false → padBlocked s op = false → padApply op s = (t, .done st d p h n) →
    exec (.padWriteResume m false) s = .next (finishWait (· = .padWrite i op) st d p t)) ∧
  (∀ m r i op s, wfPadWriteResume m true = true → (mbxOf s m).cur = some (r, .padWrite i op) → op.shadowOnly = true →
    (padWaits s).any (· < i) = false → padBlocked s op = true →
    exec (.padWriteResume m true) s = .next (finishWait (· = .padWrite i op) stBusy 0 [] s)) ∧
  (∀ m r i op out s, wfPadWriteResume m out = true → (mbxOf s m).cur = some (r, .padWrite i op) →
    s.ghosts.all (fun g => g.1 ≠ m) = true → (padWaits s).any (· < i) = true →
    exec (.padWriteResume m out) s = .next s) ∧
  (∀ x r s, Served x 0x0703 r s → wfPadState x = true →
    let l := s.pkt.leap
    exec (.padState x) s = .next (replied x r [u8 l.active, u8 l.shadow, u16 l.gen, u8 (b2n l.pending.isSome), u32 l.spread,
      u64 (l.pending.getD 0), u64 l.last, u32 (vacatedCells s (shadowBit s))] (begun x s))) ∧
  (∀ x r s pipe pad slot, Served x 0x0505 r s → wfRuleRead x pipe pad 0 slot = true → pipe < 9 → pad < 2 → slot < 32768 →
    ruleLost (ruleRec (padOf s pad) pipe slot) = false →
    exec (.ruleRead x pipe pad 0 slot) s = .next (replied x r [.arr (leBytes 192 (ruleRec (padOf s pad) pipe slot)),
      u64 (s.count .ruleHit (pipe * 32768 + slot) pad)] (begun x s))) ∧
  (∀ x r s pipes slot e, Served x 0x0503 r s → wfRuleWrite x pipes 0 slot e = true → bit r.flags 8 = true → pipes < 512 → slot < 32768 →
    ruleBad e.toNat = false → padHeld (begun x s) = false → bits (ruleWord e.toNat 42) 0 8 = 0 →
    (∀ k ∈ pipesOf pipes, slotUsed s.pkt.padA 0 k slot = false ∧ slotUsed s.pkt.padB 0 k slot = false) →
    ∃ t, exec (.ruleWrite x pipes 0 slot e) s = .next (replied x r [] t) ∧
      (∀ b k, k ∈ pipesOf pipes → ruleRec (padOf t b) k slot = e.toNat) ∧ t.pkt.leap = s.pkt.leap) ∧
  (∀ x r s i key, Served x 0x0602 r s → wfUcodeKeyEnrol x i 0 key = true → i < 4 →
    exec (.ucodeKeyEnrol x i 0 key) s = .next (replied x r [.arr (beBytes 48 (sha384 key).toNat)]
      { begun x s with nv := { (begun x s).nv with custKeys := mput s.nv.custKeys i { key } } })) ∧
  (∀ x r s pipe pad, Served x 0x0603 r s → wfUcodeInfo x pipe pad = true → pipe < 9 → pad < 2 →
    ∃ p, exec (.ucodeInfo x pipe pad) s = .next (replied x r p (begun x s)) ∧ p.length = 6 ∧ p.head? = some (u32 Config.romId.toNat)) ∧
  (∀ x r s pipe pad, Served x 0x0604 r s → wfUcodePatchState x pipe pad = true → pipe < 9 → pad < 2 →
    exec (.ucodePatchState x pipe pad) s =
      .next (replied x r ((List.range 32).map (fun i => u32 (mgetD (padOf s pad).matchRegs (pipe * 32 + i) 0))) (begun x s)))

/-- R2, R5, R137 to R146, R153, R157, R158, R170, R361. The table commands: what inserting, deleting, looking up, listing, flushing and
rehashing answer and leave. (Readings and choices of the model in it: log entries 35, 80, 101.) -/
def Obligations.TableCommands : Prop :=
  (∀ x r s pipes i v, Served x 0x0401 r s → wfTblInsert x 1 pipes i (.record v) = true → i < 1048576 → (callBy x r s).role = 1 →
    exec (.tblInsert x 1 pipes i (.record v)) s = .next (replied x r [] (insertDirect 1 i (entryClean 1 v.toNat) (begun x s)))) ∧
  (∀ i n s, (insertDirect 1 i n s).pkt.vns = putRec s.pkt.vns i n 0 ∧ (insertDirect 6 i n s).pkt.nhs = mput s.pkt.nhs i n) ∧
  (∀ x r s pipes i v t, Served x 0x0401 r s → wfTblInsert x 2 pipes i (.record v) = true → pipes < 512 →
    let n := entryClean 2 v.toNat
    entryOk 2 (.record v) = true → (callBy x r s).role = 1 → tenantFault (begun x s) 2 n = none →
    insertAll 2 n (entryPipes 2 pipes n) (begun x s) = (t, true) →
    exec (.tblInsert x 2 pipes i (.record v)) s = .next (replied x r [] t)) ∧
  (∀ x r s pipes i v t, Served x 0x0401 r s → wfTblInsert x 2 pipes i (.record v) = true → pipes < 512 →
    let n := entryClean 2 v.toNat
    entryOk 2 (.record v) = true → (callBy x r s).role = 1 → tenantFault (begun x s) 2 n = none →
    insertAll 2 n (entryPipes 2 pipes n) (begun x s) = (t, false) →
    exec (.tblInsert x 2 pipes i (.record v)) s = .next (turnedAway x r stNoResource 0 (tablesBack (begun x s) t))) ∧
  (∀ x r s table pipes i e, Served x 0x0401 r s → wfTblInsert x table pipes i e = true → (callBy x r s).role = 2 → ownerTable table = true →
    exec (.tblInsert x table pipes i e) s = .next (turnedAway x r stDenied 0 (begun x s))) ∧
  (∀ x r s pipes i v, Served x 0x0402 r s → wfTblDelete x 1 pipes i (.record v) = true → i < 1048576 → (callBy x r s).role = 1 →
    (mget? s.pkt.vns i).isSome = true →
    ∃ t, exec (.tblDelete x 1 pipes i (.record v)) s = .next (replied x r [] t) ∧ mget? t.pkt.vns i = none) ∧
  (∀ x r s pipe i v n, Served x 0x0403 r s → wfTblLookup x 2 pipe i (.record v) = true → pipe < 9 → (callBy x r s).role = 1 →
    (tblOf s 2 pipe).find l2Kind (keyOf l2Kind v.toNat) = some n →
    exec (.tblLookup x 2 pipe i (.record v)) s = .next (replied x r [.arr (leBytes 24 n)] (begun x s))) ∧
  (∀ x r s pipe i v, Served x 0x0403 r s → wfTblLookup x 1 pipe i (.record v) = true → pipe < 9 → i < 1048576 →
    (callBy x r s).role = 1 → mget? s.pkt.vns i = none →
    exec (.tblLookup x 1 pipe i (.record v)) s = .next (turnedAway x r stNotFound 0 (begun x s))) ∧
  (∀ x r s pipe value cursor, Served x 0x0404 r s → wfTblIter x 2 pipe 1 0 value cursor = true → pipe < 9 → (callBy x r s).role = 1 →
    exec (.tblIter x 2 pipe 1 0 value cursor) s = .next (replied x r ([u64 0, u32 7] ++
      ([.tblInsert, .tblDelete, .tblMove, .tblFail, .tblAged, .sliceOverrun, .tblRehashed].map fun k => u64 (s.count k 2 pipe)))
      (begun x s))) ∧
  (∀ x r s value, Served x 0x0405 r s → wfTblFlush x 3 0 0 value = true → (callBy x r s).role = 1 →
    let y := flushPipe 3 0 value 0 (begun x s)
    exec (.tblFlush x 3 0 0 value) s = .next (replied x r [u32 y.2] y.1)) ∧
  (∀ x r s, Served x 0x0406 r s → wfTblRehash x 3 0 = true → bit r.flags 10 = false → s.pkt.flow.old = none →
    ∃ t p, exec (.tblRehash x 3 0) s = .next (replied x r p t) ∧ t.pkt.flow.old = some s.pkt.flow.seed ∧
      t.pkt.flow.seed = Config.freeNat s.free ∧ t.pkt.flow.moved = 0 ∧ t.pkt.flow.slots = s.pkt.flow.slots) ∧
  (∀ x r s port, Served x 0x0203 r s → wfPortStats x port 0 = true → port < 144 → (callBy x r s).role = 1 →
    exec (.portStats x port 0) s = .next (repliedTo x r ((macCounters s port).map u64) 0 8 (begun x s))) ∧
  (∀ x r s port, Served x 0x0203 r s → wfPortStats x port 1 = true → port < 176 → (callBy x r s).role = 1 →
    exec (.portStats x port 1) s = .next (repliedTo x r ((parseCounters s port).map u64) 0 8 (begun x s)))

/-- R147 to R152, R157, R161 to R168. Learning, aging, rehash, groups and spray: their commands and what their timers do. (Readings and
choices of the model in it: log entries 33, 34, 80, 81, 96, 107, 109.) -/
def Obligations.LearningAndGroups : Prop :=
  (∀ x r s src excess share limit, Served x 0x0407 r s → wfLearnConfig x src 0 excess share limit = true → src < 144 → excess < 2 →
    share < 2 → limit ≤ 262144 →
    exec (.learnConfig x src 0 excess share limit) s = .next (replied x r [] ((begun x s).modPkt (fun p => { p with
      learn := mput p.learn (learnKey false src) { mgetD s.pkt.learn (learnKey false src) {} with
        limit := limit, excess := excess, share := share = 1 } })))) ∧
  (∀ x r s ageS us n, Served x 0x0408 r s → wfAgingConfig x 3 0 ageS us n = true → ageS ≤ 1000000 → 100 ≤ us → us ≤ 100000 →
    256 ≤ n → n ≤ 65536 → popcount 20 n = 1 →
    exec (.agingConfig x 3 0 ageS us n) s = .next (replied x r [] ((begun x s).modPkt (fun p => { p with
      aging := mput p.aging 9 { agingOf s 9 with ageS := ageS, sliceUs := us, entries := n } })))) ∧
  (∀ pipe s, wfLearnServiceEvent pipe = true → exec (.learnServiceEvent pipe) s = .next (learnService pipe s)) ∧
  (∀ pipe s e rest, learnServiceUp s = true → mgetD (takeFallback s).pkt.learnQ pipe [] = e :: rest →
    ∀ y, (tblOf (takeFallback s) 2 pipe).find l2Kind (l2Key e.mac e.vn) = some y → l2Static y = true →
    learnService pipe s = (takeFallback s).modPkt (fun p => { p with learnQ := mput p.learnQ pipe rest })) ∧
  (∀ pipe n s, wfAgingSlice 3 pipe n = true → (agingOf s 9).ageS ≠ 0 → s.phase = .running →
    ∃ t, exec (.agingSlice 3 pipe n) s = .next t ∧
      (agingOf t 9).cursor = ((agingOf s 9).cursor + (agingOf s 9).entries) % flowKind.size) ∧
  (∀ pipe n s, wfAgingSlice 3 pipe n = true → (agingOf s 9).ageS = 0 → exec (.agingSlice 3 pipe n) s = .next s) ∧
  (∀ table pipe s, wfRehashDone table pipe = true → exec (.rehashDone table pipe) s = .next (rehashPass table pipe s)) ∧
  (∀ table pipe s, (tblOf s table (lookPipe table pipe)).old = none → rehashPass table pipe s = s) ∧
  (∀ g pipe b s, wfFlowletGapExpire g pipe b = true → exec (.flowletGapExpire g pipe b) s = .next (bucketExpire g pipe b s)) ∧
  (∀ g pipe b s, (grpOf s s.pkt.leap.active g).members ≠ [] → grpMode (grpOf s s.pkt.leap.active g).record = 1 →
    bucketIdle s g pipe b (grpGap (grpOf s s.pkt.leap.active g).record) = true → (hwOf s g pipe).old = none →
    bucketExpire g pipe b s = s.modHw g pipe (fun h => { h with cur := mdel h.cur b })) ∧
  (∀ g s m, wfLbImbalanceWindow g = true → mget? s.pkt.mon g = some m → m.armed = true →
    ∃ t u, exec (.lbImbalanceWindow g) s = .next t ∧ mget? t.pkt.mon g = some u ∧ u.last = m.bytes ∧ u.bytes = []) ∧
  (∀ x r s g ratio windows rotate, Served x 0x040A r s → wfLbMonitor x g 1 ratio windows rotate = true → g < 16384 →
    (grpOf s s.pkt.leap.active g).members ≠ [] → grpMode (grpOf s s.pkt.leap.active g).record ≠ 2 →
    ∃ t p, exec (.lbMonitor x g 1 ratio windows rotate) s = .next (repliedTo x r p 8 8 t) ∧
      t = (begun x s).modPkt (fun q => { q with mon := mput q.mon g { mgetD s.pkt.mon g {} with armed := false } })) ∧
  (∀ unit stream s, wfSprayReseqTimeout unit stream = true →
    exec (.sprayReseqTimeout unit stream) s = .next (sprayTimeout (unit * 65536 + stream) s)) ∧
  (∀ key s, oldestHeld (mgetD s.pkt.sprayRx key {}) = none → sprayTimeout key s = s) ∧
  (∀ unit stream s c, wfSprayContextIdle unit stream = true → mget? s.pkt.sprayRx (unit * 65536 + stream) = some c → c.held = [] →
    ∃ t, exec (.sprayContextIdle unit stream) s = .next t ∧ mget? t.pkt.sprayRx (unit * 65536 + stream) = none)

/-- R200 to R202, R217, R219. Pools, reserves, telemetry rings and queue counters: what each command writes and answers. (Readings and choices
of the model in it: log entries 6, 74, 101.) -/
def Obligations.BufferCommands : Prop :=
  (∀ x r s pool rec, Served x 0x0801 r s → wfPoolConfig x pool rec = true → pool < 64 → poolOk rec.toNat = true →
    poolType rec.toNat = poolType (poolRec (begun x s) pool) →
    let t := (begun x s).modPkt (fun p => { p with pools := mput p.pools pool (clearBits rec.toNat [(36, 28)]) })
    cellsFit t = true → exec (.poolConfig x pool rec) s = .next (replied x r [] t)) ∧
  (∀ x r s pool lossless id min headroom, Served x 0x0802 r s → wfReserveSet x 0 pool lossless id min headroom = true → pool < 64 →
    poolType (poolRec (begun x s) pool) = 0 → lossless < 2 → id < 1152 → min ≤ 1048576 → headroom ≤ 1048576 →
    let t := (begun x s).modOwner (ownerKey 0 id) (fun w => { w with
      pool := some pool, min := some min, lossless := lossless = 1, headroom := headroom })
    cellsFit t = true → exec (.reserveSet x 0 pool lossless id min headroom) s = .next (replied x r [] (pauseSync (ownerKey 0 id) t))) ∧
  (∀ x r s ring log2 iv count ra ia qs, Served x 0x0806 r s → wfQueueSampleConfig x ring log2 iv count ra ia qs = true → ring < 16 →
    1 ≤ count → count ≤ 8192 → 12 ≤ log2 → log2 ≤ 20 → 1 ≤ iv → iv ≤ 1000 → (∀ q ∈ qs, q < 131072) → (callBy x r s).role = 1 →
    let m := mput s.pkt.telem ring { log2, interval := iv, ringAddr := ra, indexAddr := ia, fid := (callBy x r s).fid, queues := qs }
    (sampleLoad m).1 ≤ 256 * (sampleLoad m).2 →
    exec (.queueSampleConfig x ring log2 iv count ra ia qs) s =
      .next (replied x r [] ((begun x s).modPkt (fun p => { p with telem := m })))) ∧
  (∀ x r s q, Served x 0x0807 r s → wfQueueStats x q = true → q < 131072 → (callBy x r s).role = 1 →
    let depth := (ownerOf s (ownerKey 6 q)).use
    exec (.queueStats x q) s = .next (replied x r ([u32 (max depth (mgetD s.pkt.maxDepth q 0)),
        u32 (max (headDelay s q) (mgetD s.pkt.maxDelay q 0))] ++ (queueCounters s q).map u64)
      ((begun x s).modPkt (fun p => { p with
        maxDepth := mput p.maxDepth q depth, maxDelay := mput p.maxDelay q (headDelay s q) }))))

/-- R80, R229 to R235, R244 to R248, R252, R257, R259. The NVMe front end: `CC` and doorbells, the fetch of an entry, the start of a command,
its posting point, and the aggregation time; and a fetch that is not issued, which fences its queue. (Readings and choices of the model in
it: log entries 67, 68, 85, 97, 111, 112.) -/
def Obligations.NvmeFrontEnd : Prop :=
  (∀ f v s, wfNvmeCcEnable (.fid f) v = true → bit v 0 = true → isNvme s f = true → barOn s f = true →
    exec (.nvmeCcEnable (.fid f) v) s = .next (detachPump (ccWrite f v s))) ∧
  (∀ f v s, wfNvmeCcDisable (.fid f) v = true → bit v 0 = false → isNvme s f = true → barOn s f = true →
    exec (.nvmeCcDisable (.fid f) v) s = .next (detachPump (ccWrite f v s))) ∧
  (∀ f v s, wfNvmeCcShutdown (.fid f) v = true → bits v 14 2 ≠ 0 → isNvme s f = true → barOn s f = true →
    exec (.nvmeCcShutdown (.fid f) v) s = .next (detachPump (ccWrite f v s))) ∧
  (∀ p n v s, wfNvmeCcEnable (.unprov p 2 n) v = true → bit v 0 = true → (hostPort s p).linkUp = true → s.phase = .running →
    unprovThere s p 2 n = true → (unprovOf s p 2 n).fn.mse = true →
    exec (.nvmeCcEnable (.unprov p 2 n) v) s = .next (s.modUnprov p 2 n ({ · with ccEn := true }))) ∧
  (∀ f q v s, wfNvmeSqDoorbell f q v = true → isNvme s f = true → barOn s f = true →
    exec (.nvmeSqDoorbell f q v) s = .next (sqDoorbell f q (v % 65536) s)) ∧
  (∀ f q v s, wfNvmeCqDoorbell f q v = true → isNvme s f = true → barOn s f = true →
    exec (.nvmeCqDoorbell f q v) s = .next (cqDoorbell f q (v % 65536) s)) ∧
  (∀ f q e lists mdl rs s, wfNvmeCommandFetch f q e lists mdl rs true = true → canFetch s f q = true →
    ∃ t, exec (.nvmeCommandFetch f q e lists mdl rs true) s = .next t ∧ t.sto.nextSeq = s.sto.nextSeq + 1 ∧
      (sqOf t f q).head = ((sqOf s f q).head + 1) % (sqOf s f q).size) ∧
  (∀ f q e lists mdl rs dma s, wfNvmeCommandFetch f q e lists mdl rs dma = true → canFetch s f q = false →
    exec (.nvmeCommandFetch f q e lists mdl rs dma) s = .next s) ∧
  (∀ f q cid dma s c, wfNvmeCommandStart f q ⟨cid, dma⟩ = true →
    cmdIn s f q cid (fun c => c.phase = .fetched && !c.admin && [1, 2, 5, 8, 9].contains c.opc) = some c → c.fuse ≠ 2 →
    isHalf c = false → (c.opc = 9 → c.ad = true) →
    exec (.nvmeCommandStart f q ⟨cid, dma⟩) s = .next (if mayStart s c = false then s else if dma = true then startCmd c s
      else (s.modSq f q ({ · with fenced := true })).composeFault f)) ∧
  (∀ c s, volAnswer s c = none → (c.opc = 8 ∨ c.opc = 9) → c.pair = none →
    startCmd c s = s.modCmd c.seq ({ · with phase := .started })) ∧
  (∀ f q cid dma s c, wfNvmePostingPoint f q ⟨cid, dma⟩ = true →
    cmdIn s f q cid (fun c => c.phase = .done && c.after.all (fun a => (cmd? s a).isNone)) = some c → (ctrlOf s f).fenced = false →
    (ctrlOf s f).rdy = true → canIssue s f = true → cqRoom (cqOf s f (sqOf s f q).cq) = true → (sqOf s f q).fenced = false →
    exec (.nvmePostingPoint f q ⟨cid, dma⟩) s =
      .next (if dma then postCmd c s else (s.modSq f q ({ · with fenced := true })).composeFault f)) ∧
  (∀ f q s, wfNvmeCoalescingTimeExpire f q = true → (cqOf s f q).held ≠ 0 →
    exec (.nvmeCoalescingTimeExpire f q) s = .next ((s.modCq f q ({ · with held := 0 })).sendMsix f (cqOf s f q).iv)) ∧
  (∀ f q s, wfNvmeCoalescingTimeExpire f q = true → (cqOf s f q).held = 0 → exec (.nvmeCoalescingTimeExpire f q) s = .next s) ∧
  (∀ f q e lists mdl rs s, wfNvmeCommandFetch f q e lists mdl rs false = true → canFetch s f q = true →
    ∃ t, exec (.nvmeCommandFetch f q e lists mdl rs false) s = .next t ∧ (sqOf t f q).fenced = true ∧ nvmeFenced t f = true ∧
      (sqOf t f q).head = (sqOf s f q).head ∧ t.sto.cmds = s.sto.cmds ∧ t.flt.nextSeq = s.flt.nextSeq + 1)

/-- R233, R236 to R239, R253, R260. The admin commands, each when its turn has come: what it does when it succeeds, and how it is aborted or
refused. (Readings and choices of the model in it: log entries 68, 69.) -/
def Obligations.NvmeAdmin : Prop :=
  (∀ f cid s c, wfNvmeCreateIoSq f cid = true → adminTurn s f cid (· = 1) = some c →
    let q := bits (c.cdw 10) 0 16
    let cq := bits (c.cdw 11) 16 16
    q ≠ 0 → q ≤ (grantsOf s f).nvmeQp → mget? (ctrlOf s f).sqs q = none → 1 ≤ bits (c.cdw 10) 16 16 → cq ≠ 0 →
    (mget? (ctrlOf s f).cqs cq).isSome = true → bit (c.cdw 11) 0 = true →
    exec (.nvmeCreateIoSq f cid) s = .next (nvOk c.seq (s.modCtrl f (fun k => { k with
      sqs := mput k.sqs q { base := c.fld 192 64, size := bits (c.cdw 10) 16 16 + 1, cq := cq } })))) ∧
  (∀ f cid s c, wfNvmeCreateIoCq f cid = true → adminTurn s f cid (· = 5) = some c →
    let q := bits (c.cdw 10) 0 16
    q ≠ 0 → q ≤ (grantsOf s f).nvmeQp → mget? (ctrlOf s f).cqs q = none → bit (c.cdw 11) 0 = true → 1 ≤ bits (c.cdw 10) 16 16 →
    bits (c.cdw 11) 16 16 ≤ 128 →
    let new : NvCq := { base := c.fld 192 64, size := bits (c.cdw 10) 16 16 + 1, iv := bits (c.cdw 11) 16 16, ien := bit (c.cdw 11) 1 }
    exec (.nvmeCreateIoCq f cid) s = .next (nvOk c.seq (s.modCtrl f (fun k => { k with cqs := mput k.cqs q new })))) ∧
  (∀ f cid s c, wfNvmeDeleteIoCq f cid = true → adminTurn s f cid (· = 4) = some c →
    let q := bits (c.cdw 10) 0 16
    q ≠ 0 → (mget? (ctrlOf s f).cqs q).isSome = true → (ctrlOf s f).sqs.any (·.2.cq = q) = false →
    exec (.nvmeDeleteIoCq f cid) s = .next (nvOk c.seq (s.modCtrl f (fun k => { k with cqs := mdel k.cqs q })))) ∧
  (∀ f cid s c, wfNvmeDeleteIoSq f cid = true → adminTurn s f cid (· = 0) = some c →
    let q := bits (c.cdw 10) 0 16
    q ≠ 0 → (mget? (ctrlOf s f).sqs q).isSome = true → (sqOf s f q).deleting = false → (inFlight s f).filter (·.sqid = q) = [] →
    exec (.nvmeDeleteIoSq f cid) s =
      .next (nvOk c.seq ((s.modSq f q ({ · with deleting := true })).modCmd c.seq ({ · with after := [] })))) ∧
  (∀ f cid s c, wfNvmeAsyncEventRequest f cid = true → adminTurn s f cid (· = 0xC) = some c → (ctrlOf s f).aers.length < 4 →
    exec (.nvmeAsyncEventRequest f cid) s = .next (asyncPump f (s.modCtrl f (fun k => { k with aers := k.aers ++ [c.seq] })))) ∧
  (∀ f cid s c d g, wfNvmeSetFeatures f cid = true → adminTurn s f cid (· = 9) = some c → bit (c.cdw 10) 31 = false →
    featSet s f (bits (c.cdw 10) 0 8) (c.cdw 11) = .ok (d, g) →
    exec (.nvmeSetFeatures f cid) s = .next (nvOk c.seq ((s.modCtrl f (fun k => { k with feats := g k.feats })).modCmd c.seq
      ({ · with dw0 := d })))) ∧
  (∀ f cid s c d, wfNvmeGetFeatures f cid = true → adminTurn s f cid (· = 0xA) = some c → bits (c.cdw 10) 8 3 = 0 →
    featGet s f (bits (c.cdw 10) 0 8) (c.cdw 11) = some d →
    exec (.nvmeGetFeatures f cid) s = .next (nvOk c.seq (s.modCmd c.seq ({ · with dw0 := d })))) ∧
  (∀ f cid s c p, wfNvmeIdentify f cid = true → adminTurn s f cid (· = 6) = some c →
    identify s f (bits (c.cdw 10) 0 8) c.nsid (bits (c.cdw 11) 24 8) = .ok p →
    exec (.nvmeIdentify f cid) s = .next (nvOk c.seq (nvScatter f c.segs p s))) ∧
  (∀ f cid s c p u, wfNvmeGetLogPage f cid = true → adminTurn s f cid (· = 2) = some c →
    logPage s f (bits (c.cdw 10) 0 8) = some (p, u) → c.cdw 12 + 2 ^ 32 * c.cdw 13 ≤ p.length → bit (c.cdw 10) 15 = true →
    exec (.nvmeGetLogPage f cid) s = .next (nvOk c.seq (nvScatter f c.segs
      ((p.drop (c.cdw 12 + 2 ^ 32 * c.cdw 13)).take (4 * (bits (c.cdw 10) 16 16 + 65536 * bits (c.cdw 11) 0 16 + 1))) u))) ∧
  (∀ f cid s c, wfNvmeAdminUnsupported f cid = true → adminTurn s f cid (fun o => !adminKnown o) = some c →
    exec (.nvmeAdminUnsupported f cid) s = .next (nvDone c.seq 0 1 (some true) s)) ∧
  (∀ f cid s a, wfNvmeAbort f cid = true → cmdIn s f 0 cid (fun c => c.opc = 8 && c.phase = .fetched) = some a →
    (ctrlOf s f).rdy = true → (ctrlOf s f).fenced = false →
    cmdIn s f (bits (a.cdw 10) 0 16) (bits (a.cdw 10) 16 16) (·.seq ≠ a.seq) = none →
    exec (.nvmeAbort f cid) s = .next (nvOk a.seq (s.modCmd a.seq ({ · with dw0 := 1 })))) ∧
  (∀ f cid s a c, wfNvmeAbort f cid = true → cmdIn s f 0 cid (fun c => c.opc = 8 && c.phase = .fetched) = some a →
    (ctrlOf s f).rdy = true → (ctrlOf s f).fenced = false →
    cmdIn s f (bits (a.cdw 10) 0 16) (bits (a.cdw 10) 16 16) (·.seq ≠ a.seq) = some c → abortable c = true → pairSent s c = false →
    exec (.nvmeAbort f cid) s = .next (nvOk a.seq (((withPair s c).foldl (fun s k => abortCmd 7 k s) s).modCmd a.seq
      ({ · with after := (withPair s c).map (·.seq) }))))

/-- R234, R240, R246, R250, R266, R269, R271. The I/O commands: what each does in the phase it is in. (Readings and choices of the model in
it: log entries 50, 67.) -/
def Obligations.NvmeIo : Prop :=
  (∀ f q cid s c, wfNvmeFlush f q cid = true → ioCmd s f q cid 0 .fetched = some c → c.fuse = 0 → ordOk s c = true →
    s.sto.cmds.any (flushWaits s c) = false →
    exec (.nvmeFlush f q cid) s = .next (nvOk c.seq s)) ∧
  (∀ f q cid s c k, wfNvmeFlush f q cid = true → ioCmd s f q cid 0 .fetched = some c → k ∈ s.sto.cmds →
    flushWaits s c k = true → exec (.nvmeFlush f q cid) s = .next s) ∧
  (∀ f q cid d m s c, wfNvmeWrite f q cid d m = true → ioCmd s f q cid 1 .started = some c → c.fuse = 0 → dataDue s c = true →
    dataOk c d m = true → exec (.nvmeWrite f q cid d m) s = .next (writeData c d m (readEnd c s))) ∧
  (∀ f q cid s c, wfNvmeRead f q cid = true → ioCmd s f q cid 2 .started = some c →
    exec (.nvmeRead f q cid) s = .next (readIssue c s)) ∧
  (∀ f q cid d m s c, wfNvmeCompare f q cid d m = true → ioCmd s f q cid 5 .started = some c → c.fuse = 0 → dataDue s c = true →
    dataOk c d m = true →
    let t := readIssue c ((readEnd c s).modCmd c.seq (fun k => { k with data := d, md := m }))
    ((cmd? t c.seq).map (·.phase)) ≠ some .started → exec (.nvmeCompare f q cid d m) s = .next t) ∧
  (∀ f q cid s c, wfNvmeWriteZeroes f q cid = true → ioCmd s f q cid 8 .started = some c →
    exec (.nvmeWriteZeroes f q cid) s = .next (s.modCmd c.seq ({ · with phase := .intent }))) ∧
  (∀ f q cid s c, wfNvmeDatasetManagement f q cid = true → ioCmd s f q cid 9 .started = some c → c.ranges ≠ [] →
    exec (.nvmeDatasetManagement f q cid) s = .next (s.modCmd c.seq ({ · with phase := .intent }))) ∧
  (∀ f q cid s c, wfNvmeDatasetManagement f q cid = true → ioCmd s f q cid 9 .started = some c → c.ranges = [] →
    exec (.nvmeDatasetManagement f q cid) s = .next (nvOk c.seq s)) ∧
  (∀ f q cid s c, wfNvmeDatasetManagement f q cid = true → ioCmd s f q cid 9 .started = none → ioCmd s f q cid 9 .fetched = some c →
    c.ad = false → c.fuse = 0 → ordOk s c = true →
    exec (.nvmeDatasetManagement f q cid) s = .next (match volAnswer s c with
      | some e => nvDone c.seq e.1 e.2 (some false) s
      | none => nvOk c.seq s)) ∧
  (∀ f q cid d m wd wm s c w, wfNvmeFusedCompareWrite f q cid d m wd wm = true → ioCmd s f q cid 5 .started = some c →
    c.pair.bind (cmd? s) = some w → c.fuse = 1 → dataDue s c = true → dataDue s w = true → dataOk c d m = true → dataOk w wd wm = true →
    writeBad w wd wm = none →
    let md16 := (List.range w.nlb).flatMap (fun i => blockMd w i wd wm)
    let t := readIssue c (((readEnd w (readEnd c s)).modCmd c.seq (fun k => { k with data := d, md := m })).modCmd w.seq
      (fun k => { k with data := wd, md := md16, pcws := writePcws s w wd }))
    ((cmd? t c.seq).map (·.phase)) ≠ some .started → exec (.nvmeFusedCompareWrite f q cid d m wd wm) s = .next t) ∧
  (∀ f q cid s c, wfNvmeIoUnsupported f q cid = true → q ≠ 0 →
    cmdIn s f q cid (fun c => c.phase = .fetched && c.fuse = 0 && !ioKnown c.opc) = some c →
    exec (.nvmeIoUnsupported f q cid) s = .next (nvDone c.seq 0 1 none s))

/-- R269, R270, R272 to R274, R285. The volume service: a write opens its intent record before its backend commands; a backend's answer, its
digests and its connection have their effects; reconciliation and rebuild copy chunk by chunk. (Readings and choices of the model in it:
log entries 50 to 53.) -/
def Obligations.VolumeService : Prop :=
  (∀ f q cid s c, wfIntentRecordTake f q cid = true → cmdIn s f q cid (·.phase = .intent) = some c → domServes s .storage = true →
    exec (.intentRecordTake f q cid) s = .next (intentTake c s)) ∧
  (∀ c s v n, vol? s c.vol = some v → v.primary.isSome = true → storageHeld s = false →
    let reps := (List.range v.reps.length).filter (fun i => (v.rep i).state ≠ 1)
    (∀ i ∈ reps, backReady s (v.rep i).backend = true) → leastBelow 65536 (fun i => (mget? s.sto.intents i).isNone) = some n →
    mget? (intentTake c s).sto.intents n = some (intentFor s c v reps)) ∧
  (∀ tag good d s b, wfBackendResponse tag good d = true → s.sto.bcmds.find? (fun b => b.tag = tag && b.out) = some b →
    exec (.backendResponse tag good d) s = .next (backAnswer b good d s)) ∧
  (∀ b s, backAnswer b false [] s = backBad b (backDrop (·.tag = b.tag) s)) ∧
  (∀ b p s, wfBackendPduReceive b p = true → backReady s b = true → pipeServes s (pipeOfPort s p.port) = true →
    exec (.backendPduReceive b p) s = .next (match pduSeen s b p with
      | .held => s
      | .punted => pduPunt b p (pduMeter b p s)
      | .taken i => pduCheck b i p (pduMeter b p s))) ∧
  (∀ b i p s, hdgstOk p.bytes = false → pduCheck b i p s = backLost b (s.bump .digestErr b 0 1)) ∧
  (∀ b i p s, hdgstOk p.bytes = true → ddgstOk p.bytes = true → pduCheck b i p s = pduTaken i p 0 s) ∧
  (∀ b i p s, hdgstOk p.bytes = true → ddgstOk p.bytes = false → at8 p.bytes 0 ≠ 7 →
    pduCheck b i p s = backLost b ((pduTaken i p 1 s).bump .digestErr b 1 1)) ∧
  (∀ b s, wfBackendTimeout b = true → backReady s b = true → outlived s b = true →
    exec (.backendTimeout b) s = .next (backLost b s)) ∧
  (∀ b s, wfBackendTimeout b = true → outlived s b = false → exec (.backendTimeout b) s = .next s) ∧
  (∀ b s, wfBackendConnectionLost b = true → backReady s b = true → exec (.backendConnectionLost b) s = .next (backLost b s)) ∧
  (∀ b l s, wfBackendReconnect b (some l) = true → (mget? s.sto.backs b).isSome = true → (backOf s b).state = 2 →
    let u := setBack b 1 (connsOpen b l (backConnect b (backOf s b).nqn s))
    exec (.backendReconnect b (some l)) s = .next ((u.sto.vols.map (·.1)).foldl (fun s h => autoRebuild h (volRetry h s)) u)) ∧
  (∀ b s, wfBackendReconnect b none = true → (mget? s.sto.backs b).isSome = true → (backOf s b).state = 2 →
    exec (.backendReconnect b none) s = .next (backConnect b (backOf s b).nqn s)) ∧
  (∀ h failed d s, wfReconcileChunkDone h failed d = true →
    exec (.reconcileChunkDone h failed d) s = .next (reconcileChunk h failed d s)) ∧
  (∀ h s v p n r failed d, vol? s h = some v → v.primary = some p → (openRecs s h v).head? = some (n, r) → v.state = 1 →
    copyRoom s v [p] (min 512 (r.nlb - v.copied)) = true → (v.repsIn 0).filter (· ≠ p) = [] →
    reconcileChunk h failed d s = recordDone h n s) ∧
  (∀ h lba failed d s, wfRebuildChunkDone h lba failed d = true →
    exec (.rebuildChunkDone h lba failed d) s = .next (rebuildChunk h lba failed d s)) ∧
  (∀ h lba failed d s v e p, vol? s h = some v → v.chunks.find? (·.1 = lba) = some e → v.primary = some p →
    chunkFree s h lba (min 512 (v.size - lba)) e.2 = true → copyRoom s v (p :: v.repsIn 2) (min 512 (v.size - lba)) = true →
    bit failed p = true → v.pace ≤ s.tick → rebuildChunk h lba failed d s = autoRebuild h (degradeRep h p s))

/-- R263, R264, R267, R273 to R275. The commands over volumes and backends. (Readings and choices of the model in it: log entries 51, 52, 72.) -/
def Obligations.VolumeCommands : Prop :=
  (∀ x r s h tenant slot size opts reps, Served x 0x0901 r s → wfVolCreate x h tenant slot size opts reps = true →
    let u := begun x s
    volBad h slot size opts reps = none → backAbsent u reps = none → vol? u h = none → reps.any (extentTaken u size) = false →
    (∀ p ∈ reps, backReady u p.1 = true ∧ p.2 + size ≤ (backOf u p.1).info.blocks) → (keySlot u slot).type ≠ 0 →
    (keySlot u slot).tenant = tenant →
    exec (.volCreate x h tenant slot size opts reps) s = .next (replied x r [] (volZero h (u.putVol h
      { size, tenant, slot, kcv := (keySlot u slot).kcv, spread := bit opts 0, auto := bit opts 1
        reps := reps.map (fun p => { backend := p.1, start := p.2 }) })))) ∧
  (∀ x r s h, Served x 0x0902 r s → wfVolDestroy x h = true → (vol? (begun x s) h).isSome = true → volAttached s h = false →
    s.sto.intents.any (fun e => e.2.vol = h && e.2.good) = false →
    ∃ t, exec (.volDestroy x h) s = .next (replied x r [] t) ∧ vol? t h = none) ∧
  (∀ x r s h f nsid fmt pi v, Served x 0x0903 r s → wfVolAttach x h f nsid fmt pi 0 = true → vol? (begun x s) h = some v →
    (fn? s f).isSome = true → isNvme s f = true → nsid ≠ 0 → nsid ≤ 4096 → fmt % 16 ≤ 2 → fmt < 32 → pi ≤ 3 →
    (pi = 0 ∨ fmt % 16 ≠ 0) → tenantOf (begun x s) f = v.tenant → mget? s.sto.nss (f * 65536 + nsid) = none →
    ∃ t, exec (.volAttach x h f nsid fmt pi 0) s = .next (replied x r [] t) ∧
      mget? t.sto.nss (f * 65536 + nsid) = some { vol := h, fmt := fmt % 16, ext := bit fmt 4, pt := pi }) ∧
  (∀ x r s h f nsid fmt pi mask v, Served x 0x0903 r s → wfVolAttach x h f nsid fmt pi mask = true → mask ≠ 0 →
    vol? (begun x s) h = some v → v.primary.isSome = true →
    let reps := (List.range 8).filter (fun i => bit mask i)
    (∀ i ∈ reps, i < v.reps.length ∧ i ∈ rebuildable (begun x s) v) →
    exec (.volAttach x h f nsid fmt pi mask) s = .next (replied x r [] (rebuildStart h reps (begun x s)))) ∧
  (∀ x r s h f, Served x 0x0904 r s → wfVolDetach x h f = true → (∃ e ∈ s.sto.nss, e.1 / 65536 = f ∧ e.2.vol = h) →
    s.sto.cmds = [] →
    ∃ t, exec (.volDetach x h f) s = .next (replied x r [] t) ∧ ∀ e ∈ t.sto.nss, ¬(e.1 / 65536 = f ∧ e.2.vol = h)) ∧
  (∀ x r s c found b l, Served x 0x0905 r s → wfBackendAdd x c found = true → backBadField c = false → backFree (begun x s) = some b →
    found.link = some l → backReason found = none → c.home ≠ 0xFF →
    ∃ t, exec (.backendAdd x c found) s = .next (replied x r [u16 b] t) ∧ (backOf t b).state = 1 ∧ (backOf t b).addr = c.addr ∧
      (backOf t b).home = c.home ∧ (backOf t b).via = l.port ∧ (backOf t b).info.blocks = found.nsze ∧
      (backOf t b).conns.length = c.queues) ∧
  (∀ x r s c found b, Served x 0x0905 r s → wfBackendAdd x c found = true → backBadField c = false → backFree (begun x s) = some b →
    found.link = none →
    exec (.backendAdd x c found) s = .next (turnedAway x r stTimeout 0 (backConnect b c.nqn (begun x s)))) ∧
  (∀ x r s c found b l n, Served x 0x0905 r s → wfBackendAdd x c found = true → backBadField c = false → backFree (begun x s) = some b →
    found.link = some l → backReason found = some n →
    exec (.backendAdd x c found) s =
      .next (turnedAway x r stBadParam n ((backConnect b c.nqn (begun x s)).emit (.disconnect b)))) ∧
  (∀ x r s b, Served x 0x0906 r s → wfBackendState x b = true → bit r.flags 11 = false → (mget? s.sto.backs b).isSome = true →
    exec (.backendState x b) s = .next (replied x r (backReport (begun x s) b) (begun x s))) ∧
  (∀ x r s b, Served x 0x0906 r s → wfBackendState x b = true → bit r.flags 11 = true → (callBy x r s).role = 1 →
    (mget? s.sto.backs b).isSome = true → backHeld s b = [] →
    ∃ t, exec (.backendState x b) s = .next (replied x r (backReport t b) t) ∧ (backOf t b).state = 3) ∧
  (∀ x r s h v, Served x 0x0907 r s → wfVolReconcileState x h = true → vol? s h = some v →
    exec (.volReconcileState x h) s =
      .next (replied x r [u8 v.state, u32 (s.sto.intents.filter (fun e => e.2.vol = h && e.2.good)).length, u64 v.copied] (begun x s)))

/-- R297 to R301, R309. The key store's commands: a load, an erase, the fill of the key cache, and a rotation of the KEK. (Readings and
choices of the model in it: log entries 3, 55, 56, 98, 101.) -/
def Obligations.KeyCommands : Prop :=
  (∀ x r s slot wrap type usage tenant m key, Served x 0x0A01 r s → wfKeyLoad x slot wrap type usage tenant m = true →
    keyLoadBad slot wrap type usage r.plen m.length = none → (callBy x r s).role = 1 → alarmLatched (begun x s) = false →
    (keySlot (begun x s) slot).type = 0 →
    (wrap = 2 ^ 32 - 1 ∨ (slotOpens (begun x s) wrap = true ∧ (keySlot (begun x s) wrap).type = 6 ∧
      bit (keySlot (begun x s) wrap).usage 6 = true ∧ (keySlot (begun x s) wrap).owner = keyHolder (begun x s) slot)) →
    keyMaterial (begun x s) wrap type m = some key →
    (wrap = 2 ^ 32 - 1 →
      exec (.keyLoad x slot wrap type usage tenant m) s =
        .next (replied x r [u64 (kcvOf type key)] (volReopen slot (keyStore slot type usage tenant key (begun x s))))) ∧
    (wrap ≠ 2 ^ 32 - 1 →
      let t := controlTurn (mbxControl (callBy x r s).fid) m.length (begun x s)
      exec (.keyLoad x slot wrap type usage tenant m) s = .next (if t.1 = true
        then replied x r [u64 (kcvOf type key)] (volReopen slot (keyStore slot type usage tenant key (t.2.meterAdd 0 68 m.length)))
        else t.2.modMbx x.mbx ({ · with queue := (mbxOf s x.mbx).queue })))) ∧
  (∀ x r s slot wrap type usage tenant m, Served x 0x0A01 r s → wfKeyLoad x slot wrap type usage tenant m = true →
    keyLoadBad slot wrap type usage r.plen m.length = none → (callBy x r s).role = 1 → alarmLatched (begun x s) = true →
    exec (.keyLoad x slot wrap type usage tenant m) s = .next (turnedAway x r stKeysErased 0 (begun x s))) ∧
  (∀ slot type usage tenant key s,
    let t := keyStore slot type usage tenant key s
    t.cip.writeCtr = s.cip.writeCtr + 1 ∧ (keySlot t slot).key = key ∧ (keySlot t slot).type = type ∧
      (keySlot t slot).kgen = s.cip.kgen ∧ (keySlot t slot).writeCtr = s.cip.writeCtr + 1 ∧
      (∀ k, k ≠ slot → keySlot t k = keySlot s k)) ∧
  (∀ x r s slot, Served x 0x0A02 r s → wfKeyErase x slot = true → slot < 262144 → (callBy x r s).role = 1 →
    (keySlot (begun x s) slot).type ≠ 0 → (keyInUse (begun x s) slot = true → bit r.flags 9 = true) →
    keyLatched (forceErase slot (begun x s)) slot = false → (keySlot (forceErase slot (begun x s)) slot).erasing = false →
    exec (.keyErase x slot) s = .next (replied x r [] (forceErase slot (begun x s)))) ∧
  (∀ x r s slot, Served x 0x0A02 r s → wfKeyErase x slot = true → slot < 262144 → (callBy x r s).role = 1 →
    (keySlot (begun x s) slot).type ≠ 0 → keyInUse (begun x s) slot = true → bit r.flags 9 = false →
    exec (.keyErase x slot) s = .next (turnedAway x r stState 0 (begun x s))) ∧
  (∀ slot s, wfKeyEraseComplete slot = true → (keySlot s slot).erasing = true → keyLatched s slot = false →
    exec (.keyEraseComplete slot) s = .next (finishWait (· = .keyErase slot) stOk 0 [] (keyZeroise slot s))) ∧
  (∀ slot s, wfKeyEraseComplete slot = true → keyLatched s slot = true → exec (.keyEraseComplete slot) s = .next s) ∧
  (∀ k s, keySlot (keyZeroise k s) k = {} ∧ cached (keyZeroise k s) k = false) ∧
  (∀ slot tag s q, wfKeyCacheFill ⟨slot, tag⟩ = true → q ∈ s.cip.reqs → q.cls ≠ 3 → q.slot = slot → q.waits = true →
    cached s slot = false → domServes s .keyStore = true → (keySlot s slot).type ≠ 0 →
    let t := controlTurn slot 240 s
    let u := if tag = true ∧ slotOpens t.2 slot = true then touchCache slot t.2 else slotWaitersEnd slot (slotFails slot t.2)
    exec (.keyCacheFill ⟨slot, tag⟩) s = .next (if t.1 = true then pumpCipher u.cip.reqs.length u else t.2)) ∧
  (∀ x r s, Served x 0x0A07 r s → wfKekRotate x = true → bit r.flags 10 = false → alarmLatched (begun x s) = false →
    rotating (begun x s) = false →
    let u := begun x s
    let c := u.cip
    let new : CipherState := { c with
      oldKek := c.kek, kek := some (Config.freeNat u.free), kgen := 1 - c.kgen, walking := true, resealed := 0 }
    exec (.kekRotate x) s = .next (replied x r [u8 1, u32 0] { u with cip := new, free := u.free + 1 })) ∧
  (∀ x r s, Served x 0x0A07 r s → wfKekRotate x = true → bit r.flags 10 = true →
    exec (.kekRotate x) s = .next (replied x r [u8 (b2n s.cip.walking), u32 s.cip.resealed] (begun x s))) ∧
  (∀ s, s.cip.walking = true → domServes s .keyStore = true →
    let old := s.cip.slots.filter (fun e => e.2.type ≠ 0 && !e.2.bad && e.2.kgen ≠ s.cip.kgen)
    (old = [] ∨ (controlTurn 262144 (128 * old.length) s).1 = true) → ∃ t, exec .kekRotationDone s = .next t ∧ t.cip.walking = false ∧ t.cip.oldKek = none ∧
    t.cip.kgen = s.cip.kgen ∧ ∀ k, (∀ e ∈ s.cip.slots, e.1 = k → e.2.type = 0 ∨ e.2.bad = true) → keySlot t k = keySlot s k)

/-- R34, R294 to R297, R302. The cipher engine's requests end, and the associations that they use are created and reported. (Readings and
choices of the model in it: log entries 55, 57.) -/
def Obligations.CipherRequests : Prop :=
  (∀ id hw bad ok s, wfCipherRequestComplete id hw ⟨bad, ok⟩ = true →
    exec (.cipherRequestComplete id hw ⟨bad, ok⟩) s = .next (settleAll ok (reqComplete id hw bad) s)) ∧
  (∀ id s r, s.cip.reqs.find? (·.id = id) = some r → r.status = none → r.unit.isSome = true → reqPaused s r = false →
    reqComplete id false none s = reqFinish r 0 none s) ∧
  (∀ id bad s r, s.cip.reqs.find? (·.id = id) = some r → reqPaused s r = true → reqComplete id false bad s = s) ∧
  (∀ id hw bad s r st, s.cip.reqs.find? (·.id = id) = some r → r.status = some st → (hw = true ∨ reqPaused s r = false) →
    reqComplete id hw bad s = reqFinish r st bad s) ∧
  (∀ id bad s r u, s.cip.reqs.find? (·.id = id) = some r → r.status = none → r.unit = some u →
    reqComplete id true bad s = reqFinish r 8 bad (domFault (if r.iterated then .iru u else .aes u) 1 s.draw.1 s.draw.2)) ∧
  (∀ id ok s r, wfCipherBusyTimeout ⟨id, ok⟩ = true → s.cip.reqs.find? (·.id = id) = some r → r.cls = 0 → r.unit = none → r.status = none →
    exec (.cipherBusyTimeout ⟨id, ok⟩) s = .next (settleAll ok (reqFinish r 7 none) s)) ∧
  (∀ id ok s r, wfCipherBusyTimeout ⟨id, ok⟩ = true → s.cip.reqs.find? (·.id = id) = some r → r.unit.isSome = true →
    exec (.cipherBusyTimeout ⟨id, ok⟩) s = .next (settleAll ok (fun s => s) s)) ∧
  (∀ ok f s, settleAll ok f s = (List.range 9).foldl (fun s p => engineTurn ⟨p, ok⟩ id s) (f s)) ∧
  (∀ x r s c n v, Served x 0x0A03 r s → wfSaCreate x c = true →
    let u := begun x s
    let k := keySlot u c.slot
    saBad u c = none → (callBy x r s).role = 1 → alarmLatched u = false → k.type ≠ 0 → k.erasing = false →
    bit k.usage (if c.kind < 2 then 0 else 1) = true → k.tenant = c.tenant → (k.type = 1 ↔ suite128 c.suite = true) →
    saNumber u c k.owner = some n →
    (c.kind < 2 ∧ v = u ∨ 2 ≤ c.kind ∧ secKeyIn c.octet (mbxControl (callBy x r s).fid) c.slot u = (.there, v)) →
    let z := v.cip
    let new : CipherState := { z with
      sas := mput z.sas n (saMake c k.owner (Config.freeNat v.free % 2 ^ 96) (Config.freeNat (v.free + 1) % 2 ^ 32) k.key)
      macsecOn := if 2 ≤ c.kind then mput z.macsecOn c.octet () else z.macsecOn }
    exec (.saCreate x c) s = .next (replied x r [u32 n] { v with cip := new, free := v.free + 2 })) ∧
  (∀ octet k slot s, elasticOn s (.macsec octet) = true → domServes s .keyStore = true → cached s slot = true →
    secKeyIn octet k slot s = (.there, touchCache slot s)) ∧
  (∀ octet k slot s, elasticOn s (.macsec octet) = false → secKeyIn octet k slot s = (.waits, s)) ∧
  (∀ x r s n, Served x 0x0A04 r s → wfSaState x n = true → (callBy x r s).role = 1 →
    (mget? (begun x s).cip.sas n).isSome = true → bit r.flags 11 = false →
    exec (.saState x n) s = .next (replied x r (saReport s n) (begun x s))) ∧
  (∀ x r s n, Served x 0x0A04 r s → wfSaState x n = true → (callBy x r s).role = 1 →
    (mget? (begun x s).cip.sas n).isSome = true → bit r.flags 11 = true →
    exec (.saState x n) s =
      .next (replied x r (saReport s n) (saDelete (fun m _ => m = n) (begun x s))))

/-- R306 to R308. What latches a cipher alarm, what an alarm destroys, and what clears it. (Readings and choices of the model in it: log entry
58.) -/
def Obligations.CipherAlarm : Prop :=
  (∀ ns low s, wfAlarmNAssert ns low = true → pinsIn s = true → 100 ≤ ns → s.phase ≠ .inReset →
    exec (.alarmNAssert ns low) s = .next (cipherAlarm 4 { s with pins := { s.pins with alarmLow := low } })) ∧
  (∀ ns low s, wfAlarmNAssert ns low = true → pinsIn s = true → ns < 100 → exec (.alarmNAssert ns low) s = .next { s with pins := { s.pins with alarmLow := low } }) ∧
  (∀ rail p ns s, wfSupplyGlitch rail p ns = true → 120 < p → 5 ≤ ns → s.phase ≠ .inReset →
    exec (.supplyGlitch rail p ns) s = .next (cipherAlarm 0 s)) ∧
  (∀ rail p ns s, wfSupplyGlitch rail p ns = true → (p ≤ 120 ∨ ns < 5) → exec (.supplyGlitch rail p ns) s = .next s) ∧
  (∀ i tj s, wfTjThresholdCross i tj = true → 388 ≤ tj → s.phase ≠ .inReset →
    ∃ t, exec (.tjThresholdCross i tj) s = .next t ∧ bit t.cip.sources 1 = true ∧ mgetD t.pins.tj i 0 = tj ∧
      (398 ≤ tj → t.pins.thermtrip = true)) ∧
  (∀ src s, src < 5 → alarmLatched s = false →
    let t := cipherAlarm src s
    t.cip.kek = none ∧ t.cip.oldKek = none ∧ t.cip.cache = [] ∧ t.cip.walking = false ∧ bit t.cip.sources src = true ∧
      mgetD t.cip.times src 0 = s.time ∧ (∀ e ∈ t.cip.sas, e.2.state = 4 ∧ e.2.keyReg = []) ∧ (∀ r ∈ t.cip.reqs, r.status = some 3)) ∧
  (∀ src s, src < 5 → alarmLatched s = true → (cipherAlarm src s).cip.slots = s.cip.slots ∧
    (cipherAlarm src s).count .alarms 0 0 = s.count .alarms 0 0 ∧ (cipherAlarm src s).cip.sources = s.cip.sources ||| 2 ^ src) ∧
  (∀ x r s, Served x 0x0A05 r s → wfAlarmState x = true →
    exec (.alarmState x) s = .next (replied x r ([u8 s.cip.sources, u64 (s.count .alarms 0 0)]
      ++ (List.range 5).map (fun i => u64 (mgetD s.cip.times i 0))) (begun x s))) ∧
  (∀ x r s, Served x 0x0A06 r s → wfAlarmClear x = true → sourcesHeld s ≠ [] →
    exec (.alarmClear x) s = .next (turnedAway x r stState 0 (begun x s))) ∧
  (∀ x r s, Served x 0x0A06 r s → wfAlarmClear x = true → sourcesHeld s = [] →
    let u := begun x s
    let c := u.cip
    let new : CipherState := { c with
      slots := [], kek := some (Config.freeNat u.free), oldKek := none, kgen := 0, walking := false, cache := []
      sas := c.sas.filter (fun e => e.2.state ≠ 4), sources := 0, times := [] }
    let v := lockVolumes (fun _ => true) { u with cip := new, free := u.free + 1 }
    exec (.alarmClear x) s = .next (replied x r [] (pumpCipher v.cip.reqs.length v))) ∧
  (∀ s, sourcesHeld s = (if 388 ≤ hottest s then [1] else []) ++ (if s.pins.alarmLow = true then [4] else []))

/-- R286, R288, R289. Check-value contexts are read and written by command; one whose stream runs is not written. (Readings and choices of the
model in it: log entries 59, 99.) -/
def Obligations.CheckValueContexts : Prop :=
  (∀ x r s i, Served x 0x1201 r s → wfCkvCtxRead x i = true → i < 264192 → (callBy x r s).role = 1 →
    exec (.ckvCtxRead x i) s = .next (replied x r [.arr (leBytes 32 (ckvOf (begun x s) i))] (begun x s))) ∧
  (∀ x r s i v, Served x 0x1202 r s → wfCkvCtxWrite x i v = true → i < 264192 → (callBy x r s).role = 1 →
    ckvAlg v.toNat ≤ 3 → ckvStage v.toNat ≤ 6 → ckvTenant v.toNat = ckvTenant (ckvOf (begun x s) i) → ckvFrozen (ckvOf s i) = true →
    exec (.ckvCtxWrite x i v) s = .next (replied x r [] (ckvWrite i v.toNat (begun x s)))) ∧
  (∀ x r s i v, Served x 0x1202 r s → wfCkvCtxWrite x i v = true → i < 264192 → (callBy x r s).role = 1 →
    ckvAlg v.toNat ≤ 3 → ckvStage v.toNat ≤ 6 → ckvTenant v.toNat = ckvTenant (ckvOf (begun x s) i) → ckvFrozen (ckvOf s i) = false →
    exec (.ckvCtxWrite x i v) s = .next (turnedAway x r stState 0 (begun x s))) ∧
  (∀ i v s j, j ≠ i → ckvOf (ckvWrite i v s) j = ckvOf s j)

/-- R318 to R322. The channel instructions of a thread that can run: staging, committing, receiving and waiting; and what a receive and a
commit leave on a channel that is no fault channel. (Readings and choices of the model in it: log entries 61, 113.) -/
def Obligations.ChannelInstructions : Prop :=
  ((∀ s tid, (threadOf s tid).stepping = false → settle tid s =
    if (threadOf s tid).trapped = true then s.modThread tid ({ · with trapped := false })
    else if (threadOf s tid).state = 2 ∨ (threadOf s tid).state = 4 then s.modThread tid (fun t => { t with instret := t.instret + 1 })
    else s) ∧
  (∀ s core slot v, v = bits (slotsOf s core) (4 * slot) 4 → 8 ≤ v → threadReady s (core * 8 + v % 8) = true →
    slotThread s core slot = some (core * 8 + v % 8)) ∧
  (∀ s core slot t, slotThread s core slot = some t → threadReady s t = true ∧ t / 8 = core) ∧
  (∀ s tid n, slotsTo s tid = some n →
    let at_ := mgetD s.skk.cycles (tidCore tid) 0
    1 ≤ n ∧ n ≤ 16 ∧ slotThread s (tidCore tid) ((at_ + (n - 1)) % 16) = some tid ∧
      (∀ i, i + 1 < n → slotThread s (tidCore tid) ((at_ + i) % 16) ≠ some tid) ∧
      ∀ t, mgetD (issued tid s t).skk.cycles (tidCore tid) 0 = mgetD t.skk.cycles (tidCore tid) 0 + n) ∧
  (∀ tid i w s, wfChWr tid i w = true → canRun s tid = true →
    exec (.chWr tid i w) s = .next (issued tid s (s.modThread tid (fun t => { t with staging := mput t.staging i w })))) ∧
  (∀ tid i w s, wfChWr tid i w = true → canRun s tid = false → exec (.chWr tid i w) s = .next s) ∧
  (∀ tid ch n rd nb s q, wfChCmt tid ch n rd nb = true → canRun s tid = true → part? s (partOfChan s ch) = some q →
    mayCommit s tid ch = true → q.running = true → chanRoom s ch = true → (chanOf s ch).commits = [] →
    exec (.chCmt tid ch n rd nb) s = .next (issued tid s (commitNow tid ch n rd s))) ∧
  (∀ tid ch n rd s q, wfChCmt tid ch n rd true = true → canRun s tid = true → part? s (partOfChan s ch) = some q →
    mayCommit s tid ch = true → q.running = true → chanRoom s ch = false →
    exec (.chCmt tid ch n rd true) s = .next (issued tid s (setRd tid rd 1 s))) ∧
  (∀ tid ch n rd s q, wfChCmt tid ch n rd false = true → canRun s tid = true → part? s (partOfChan s ch) = some q →
    mayCommit s tid ch = true → q.running = true → chanRoom s ch = false →
    ∃ t, exec (.chCmt tid ch n rd false) s = .next t ∧ (threadOf t tid).state = 3 ∧
      (threadOf t tid).wait = some (.commit ch n rd) ∧ (chanOf t ch).commits = (chanOf s ch).commits ++ [tid]) ∧
  (∀ tid ch n rd nb s q, wfChCmt tid ch n rd nb = true → canRun s tid = true → part? s (partOfChan s ch) = some q →
    mayCommit s tid ch = true → q.running = false → exec (.chCmt tid ch n rd nb) s = .next (issued tid s (setRd tid rd 2 s))) ∧
  (∀ tid s ch n rd, wfChCmtResume tid = true → coreIssues s tid = true → (threadOf s tid).state = 3 →
    (threadOf s tid).wait = some (.commit ch n rd) → chanRoom s ch = true → (chanOf s ch).commits.head? = some tid →
    exec (.chCmtResume tid) s = .next (settle tid (commitNow tid ch n rd s))) ∧
  (∀ tid ch rd s, wfChRd tid ch rd = true → canRun s tid = true → (rd < 10 ∨ 17 < rd) → (partOf s tid).owns ch = true →
    (chanOf s ch).msgs ≠ [] → exec (.chRd tid ch rd) s = .next (issued tid s (receive tid ch rd s))) ∧
  (∀ tid ch rd s, wfChRd tid ch rd = true → canRun s tid = true → (rd < 10 ∨ 17 < rd) → (partOf s tid).owns ch = true →
    (chanOf s ch).msgs = [] → exec (.chRd tid ch rd) s = .next (issued tid s (block tid (.read ch rd) s))) ∧
  (∀ tid ch rd s, wfChTry tid ch rd = true → canRun s tid = true → (rd < 10 ∨ 17 < rd) → (partOf s tid).owns ch = true →
    (chanOf s ch).msgs ≠ [] → exec (.chTry tid ch rd) s = .next (issued tid s (receive tid ch rd s))) ∧
  (∀ tid ch rd s, wfChTry tid ch rd = true → canRun s tid = true → (rd < 10 ∨ 17 < rd) → (partOf s tid).owns ch = true →
    (chanOf s ch).msgs = [] → exec (.chTry tid ch rd) s = .next (issued tid s (setRd tid rd 0 s))) ∧
  (∀ tid base mask rd s i, wfChWaitany tid base mask rd = true → canRun s tid = true → (rd < 10 ∨ 17 < rd) → base % 64 = 0 →
    (∀ j, j < 64 → bit mask j = true → (partOf s tid).owns (base + j) = true) → anyReady s tid base mask = some i →
    exec (.chWaitany tid base mask rd) s =
      .next (issued tid s (receive tid (base + i) rd (s.modThread tid ({ · with rr := some i }))))) ∧
  (∀ tid s ch rd, wfChannelWaitWake tid = true → coreIssues s tid = true → (threadOf s tid).state = 3 →
    (threadOf s tid).wait = some (.read ch rd) → exec (.channelWaitWake tid) s = .next (settle tid (receive tid ch rd s))) ∧
  (∀ tid s base mask rd, wfChannelWaitWake tid = true → coreIssues s tid = true → (threadOf s tid).state = 3 →
    (threadOf s tid).wait = some (.any base mask rd) →
    exec (.channelWaitWake tid) s = .next (settle tid (receiveAny tid base mask rd s))) ∧
  (∀ tid ch rd s, wfChRd tid ch rd = true → canRun s tid = true → (rd < 10 ∨ 17 < rd) → (partOf s tid).owns ch = false →
    exec (.chRd tid ch rd) s = .next (issued tid s (xfault tid 24 ch s)))) ∧
  (∀ tid ch rd s, (∀ q, part? s (partOfChan s ch) = some q → faultChan q ≠ ch) →
    (∀ m l, (chanOf s ch).msgs = m :: l → (rd < 10 ∨ 17 < rd) →
      let t := receive tid ch rd s
      (chanOf t ch).msgs = l ∧ (∀ i, i < 8 → mgetD (threadOf t tid).regs (10 + i) 0 = m.words.getD i 0 % 2 ^ 64) ∧
        (rd ≠ 0 → mgetD (threadOf t tid).regs rd 0 = msgInfo ch m % 2 ^ 64)) ∧
    (∀ n, (ch ≠ mgmt0TxChan s ∨ partOfThread s tid ≠ partOfChan s ch) →
      (chanOf (commitNow tid ch n rd s) ch).msgs = (chanOf s ch).msgs ++ [stagedMsg s tid n] ∧
      (threadOf (commitNow tid ch n rd s) tid).staging = []) ∧
    (∀ n, ch = mgmt0TxChan s → partOfThread s tid = partOfChan s ch →
      commitNow tid ch n rd s = mgmt0Commit (partOfThread s tid) (stagedMsg s tid n)
        ((s.modThread tid (fun t => { t.setReg rd 0 with state := 2, wait := none, staging := [] })).modChan ch
          (fun c => { c with commits := c.commits.filter (· ≠ tid) }))))

/-- R314, R317, R321, R327 to R331. Threads start, join, exit and are reset; only a supervisor releases and resets; an Xtirzu word is the
instruction that its fields encode, or illegal; the channel table is read by all and stored to by the supervisor, another thread's store
being an access fault. (Readings and choices of the model in it: log entries 60, 62, 113.) -/
def Obligations.ThreadControl : Prop :=
  (∀ tid entry arg rd s, wfFork tid entry arg rd = true → canRun s tid = true → (partOf s tid).cluster = true →
    forkPick s (partOf s tid) = none → exec (.fork tid entry arg rd) s = .next (issued tid s (setRd tid rd (2 ^ 64 - 1) s))) ∧
  (∀ tid entry arg rd s c, wfFork tid entry arg rd = true → canRun s tid = true → (partOf s tid).cluster = true →
    forkPick s (partOf s tid) = some c → c ≠ tid → (threadOf s tid).stepping = false →
    ∃ t, exec (.fork tid entry arg rd) s = .next t ∧ (threadOf t c).state = 2 ∧ (threadOf t c).pc = entry ∧
      mgetD (threadOf t c).regs 10 0 = arg ∧ mgetD (threadOf t c).regs 11 0 = c ∧ (threadOf t c).mode = (threadOf s tid).mode ∧
      (threadOf t c).detached = decide (rd = 0)) ∧
  (∀ tid entry arg rd s, wfFork tid entry arg rd = true → canRun s tid = true → (partOf s tid).cluster = false →
    exec (.fork tid entry arg rd) s = .next (issued tid s (illegal tid s))) ∧
  (∀ tid x rd s, wfJoin tid x rd = true → canRun s tid = true → joinable s tid x = true → (threadOf s x).state = 6 →
    exec (.join tid x rd) s = .next (issued tid s (endWait tid rd (threadOf s x).exit (threadHome x s)))) ∧
  (∀ tid x rd s, wfJoin tid x rd = true → canRun s tid = true → joinable s tid x = true → (threadOf s x).state ≠ 6 →
    exec (.join tid x rd) s = .next (issued tid s (block tid (.join x rd) (s.modThread x ({ · with joiner := some tid }))))) ∧
  (∀ tid x rd s, wfJoin tid x rd = true → canRun s tid = true → joinable s tid x = false →
    exec (.join tid x rd) s = .next (issued tid s (xfault tid 25 0 s))) ∧
  (∀ tid s, wfThreadExit tid (2 ^ 63) = true → canRun s tid = true →
    exec (.threadExit tid (2 ^ 63)) s = .next (issued tid s (xfault tid 25 0 s))) ∧
  (∀ tid v s, wfThreadExit tid v = true → canRun s tid = true → v ≠ 2 ^ 63 → isSuper s tid = true →
    exec (.threadExit tid v) s =
      .next (issued tid s ((partStop (partOfThread s tid) s).event 0x0B02 (.dev (partOfThread s tid)) v))) ∧
  (∀ tid v s, wfThreadExit tid v = true → canRun s tid = true → v ≠ 2 ^ 63 → isSuper s tid = false → (threadOf s tid).held = [] →
    (threadOf s tid).forked = true → (threadOf s tid).detached = false → (threadOf s tid).joiner = none →
    ∃ t, exec (.threadExit tid v) s = .next t ∧ (threadOf t tid).state = 6 ∧ (threadOf t tid).exit = v ∧ (threadOf t tid).staging = []) ∧
  (∀ tid x s, wfTrelease tid x = true → canRun s tid = true → isSuper s tid = true → sameParty s tid x = true →
    (threadOf s x).state = 0 →
    exec (.trelease tid x) s =
      .next (issued tid s (s.modThread x ({ · with state := 2, mode := if (partOf s tid).vendor then 3 else 1 })))) ∧
  (∀ tid x s, wfTrelease tid x = true → canRun s tid = true → isSuper s tid = true →
    (sameParty s tid x = false ∨ (threadOf s x).state ≠ 0) → exec (.trelease tid x) s = .next (issued tid s (xfault tid 25 0 s))) ∧
  (∀ tid x s, wfTrelease tid x = true → canRun s tid = true → isSuper s tid = false →
    exec (.trelease tid x) s = .next (issued tid s (xfault tid 26 0 s))) ∧
  (∀ tid x s, wfTreset tid x = true → canRun s tid = true → isSuper s tid = true → sameParty s tid x = true → x ≠ tid →
    (threadOf s x).held = [] →
    exec (.treset tid x) s = .next (issued tid s (threadHome x (joinDone x (2 ^ 63) (leaveWait x s))))) ∧
  (∀ tid x s, wfTreset tid x = true → canRun s tid = true → isSuper s tid = false →
    exec (.treset tid x) s = .next (issued tid s (xfault tid 26 0 s))) ∧
  (∀ tid epc i v s, wfXtirzuIllegal tid epc i v = true → canRun s tid = true → xtirzuBad s tid i = true →
    exec (.xtirzuIllegal tid epc i v) s = .next (issued tid s (exception tid 2 epc i 0 v s))) ∧
  (∀ tid epc i v s x, wfXtirzuIllegal tid epc i v = true → xtirzuBad s tid i = false → xtirzuOf i = some x →
    exec (.xtirzuIllegal tid epc i v) s = xtirzuRun tid x s) ∧
  xtirzuOf 0x0004A28B = some (.chRd 5 9) ∧
  (∀ f7 rs2 rs1 f3 rd, f7 < 128 → rs2 < 32 → rs1 < 32 → f3 < 8 → rd < 32 →
    xtirzuOf (f7 * 2 ^ 25 + rs2 * 2 ^ 20 + rs1 * 2 ^ 15 + f3 * 2 ^ 12 + rd * 2 ^ 7 + 0x0B) =
      if f3 = 0 ∧ f7 < 8 then some (.chWr f7 rs1)
      else if f3 = 1 ∧ f7 < 16 then some (.chCmt rd rs1 (f7 % 8 + 1) (decide (8 ≤ f7)))
      else if f3 = 2 ∧ f7 = 0 then some (.chRd rd rs1)
      else if f3 = 3 ∧ f7 = 0 then some (.chTry rd rs1)
      else if f3 = 4 ∧ f7 = 0 then some (.chWaitany rd rs1 rs2)
      else if f3 = 5 ∧ f7 = 0 then some (.fork rd rs1 rs2)
      else if f3 = 5 ∧ f7 = 1 then some (.join rd rs1)
      else if f3 = 5 ∧ f7 = 2 then some (.threadExit rs1)
      else if f3 = 5 ∧ f7 = 3 then some (.trelease rs1)
      else if f3 = 5 ∧ f7 = 4 then some (.treset rs1)
      else none) ∧
  (∀ tid rd v s, wfThreadControlCsr tid 0xDC0 false v rd = true → canRun s tid = true →
    exec (.threadControlCsr tid 0xDC0 false v rd) s = .next (issued tid s (setRd tid rd (thidOf s tid) s))) ∧
  (∀ tid rd v s, wfThreadControlCsr tid 0x5C0 true v rd = true → canRun s tid = true → isSuper s tid = true →
    exec (.threadControlCsr tid 0x5C0 true v rd) s =
      .next (issued tid s (setRd tid rd (threadOf s tid).tsel (s.modThread tid ({ · with tsel := v % 1024 }))))) ∧
  (∀ tid ch half v s, wfChannelEntryWrite tid ch half v = true → canRun s tid = true → isSuper s tid = true →
    (partOf s tid).owns ch = true → ch ≠ faultChan (partOf s tid) →
    exec (.channelEntryWrite tid ch half v) s = .next (issued tid s (s.modChan ch (entryWrite half v)))) ∧
  (∀ tid ch half v s, wfChannelEntryWrite tid ch half v = true → canRun s tid = true → isSuper s tid = true →
    (partOf s tid).owns ch = false → exec (.channelEntryWrite tid ch half v) s = .next (issued tid s s)) ∧
  (∀ tid ch half v s, wfChannelEntryWrite tid ch half v = true → canRun s tid = true → isSuper s tid = false →
    exec (.channelEntryWrite tid ch half v) s =
      .next (issued tid s (xexception tid 7 (chanTable + 16 * (ch % 4096) + 8 * half) s))) ∧
  (∀ s tid ch, (partOf s tid).owns ch = false → entryRead s tid ch = 0) ∧
  (∀ s tid ch, (partOf s tid).owns ch = true → (chanOf s ch).msgs.length < 32 →
    bits (entryRead s tid ch) 16 5 = (chanOf s ch).msgs.length) ∧
  (∀ s tid, (partOf s tid).owns (faultChan (partOf s tid)) = true →
    bit (entryRead s tid (faultChan (partOf s tid))) 2 = true ∧ bits (entryRead s tid (faultChan (partOf s tid))) 4 8 = 0) ∧
  (∀ v c, bits v 0 2 ≠ 3 → (entryWrite 0 v c).msgs = [])

/-- R315, R332 to R337. Thread faults, the supervisor's among them; the sentinel of a deadlocked partition; and the debugger, which acts on a
thread of the partition that is attached, within an unlocked scope. (Readings and choices of the model in it: log entries 60, 65.) -/
def Obligations.ThreadFaultsAndDebug : Prop :=
  ((∀ tid epc tval s, wfEcallCustomer tid epc tval = true → canRun s tid = true → (partOf s tid).vendor = false →
    exec (.ecallCustomer tid epc tval) s = .next (issued tid s (threadFault tid 26 epc tval 0 s))) ∧
  (∀ tid code epc tval a s, wfThreadFault tid code epc tval a = true → canRun s tid = true → code ≠ 27 →
    exec (.threadFault tid code epc tval a) s = .next (issued tid s (threadFault tid code epc tval a s))) ∧
  (∀ tid code epc tval a s, supervisorOf (partOf s tid) ≠ tid →
    (threadOf (threadFault tid code epc tval a s) tid).state = 5 ∧ (threadOf (threadFault tid code epc tval a s) tid).cause = code) ∧
  (∀ p s q, wfSentinelFire p = true → part? s p = some q → deadlocked s q = true → q.sentinel = false →
    exec (.sentinelFire p) s = .next (hwDeliver (s.modPart p ({ · with sentinel := true })) (faultChan q)
      { words := [q.sentinelMs * 1000000, s.time, (liveThreads s q).length], kind := 6 }).1) ∧
  (∀ p s q, wfSentinelFire p = true → part? s p = some q → deadlocked s q = false → exec (.sentinelFire p) s = .next s) ∧
  (∀ p s q, wfSentinelEscalate p = true → part? s p = some q → q.sentinel = true → s.eft.headless = false → q.action = 1 →
    exec (.sentinelEscalate p) s = .next (partStart p (partStop p ((s.modPart p ({ · with sentinel := false })).event 0x0B03 (.dev p)
      ((q.threads.map (threadOf s)).filter (·.state = 3)).length)))) ∧
  (∀ p s q, wfSentinelEscalate p = true → part? s p = some q → q.sentinel = false → exec (.sentinelEscalate p) s = .next s)) ∧
  ((∀ tid s, wfDebugHalt tid = true → debugged s tid = true → (threadOf s tid).state = 2 → (threadOf s tid).wait = none →
    exec (.debugHalt tid) s = .next (s.modThread tid ({ · with state := 4, stepping := false }))) ∧
  (∀ tid s, wfDebugHalt tid = true → debugged s tid = false → exec (.debugHalt tid) s = .next s) ∧
  (∀ tid s, wfDebugResume tid = true → debugged s tid = true → (threadOf s tid).state = 4 → (threadOf s tid).wait = none →
    exec (.debugResume tid) s = .next ((s.modThread tid ({ · with stepping := false })).modThread tid
      ({ · with state := 2, wait := none }))) ∧
  (∀ tid s, wfDebugResume tid = true → debugged s tid = false → exec (.debugResume tid) s = .next s) ∧
  (∀ tid pc s, wfDebugSingleStep tid (some pc) = true → debugged s tid = true → (threadOf s tid).state = 4 →
    (threadOf s tid).wait = none → exec (.debugSingleStep tid (some pc)) s = .next (s.modThread tid (fun t => { t with pc := pc, instret := t.instret + 1 }))) ∧
  (∀ tid n s, wfDebugSingleStep tid n = true → debugged s tid = false → exec (.debugSingleStep tid n) s = .next s))

/-- R173, R289, R296, R323 to R326. The windows of a thread and the channels' timers. (Readings and choices of the model in it: log entry 64.) -/
def Obligations.ThreadWindows : Prop :=
  (∀ tid b s, wfCipherSubmit tid b = true → canRun s tid = true →
    let p := partOf s tid
    let v := b.toNat
    let ch := tid / 64 * 4096 + cqChannel v
    let w := s.modThread tid ({ · with cipherWin := v })
    p.owns ch = true → chanRoom s ch = true →
    exec (.cipherSubmit tid b) s = .next (issued tid s (cipherSubmit
      { cls := 2, iterated := cqIterated v, tenant := p.tenant, slot := cqSlot v, op := cqOp v, len := cqLen v, body := v
        status := if cqOk p v then none else some 10, dst := .thread tid ch }
      (w.modChan ch (fun c => { c with reserved := c.reserved + 1 }))))) ∧
  (∀ tid h a n o s x, wfCopyOut tid h a n o = true → canRun s tid = true → handleOf s tid h = some x → 0 < n → n ≤ 9600 →
    o + n ≤ x.pkt.bytes.length → (partOf s tid).inRegion a n = true →
    exec (.copyOut tid h a n o) s = .next (issued tid s (winStatus tid 0 (partWr (partOfThread s tid) a ((x.pkt.bytes.drop o).take n)
      (s.modThread tid (fun t => { t with pktWin := { t.pktWin with handle := h, addr := a, len := n, off := o } })))))) ∧
  (∀ tid h a s x, wfCopyMeta tid h a = true → canRun s tid = true → handleOf s tid h = some x → (partOf s tid).inRegion a 384 = true →
    exec (.copyMeta tid h a) s = .next (issued tid s (winStatus tid 0 (partWr (partOfThread s tid) a (metaRecord x.pkt)
      (s.modThread tid (fun t => { t with pktWin := { t.pktWin with handle := h, addr := a } })))))) ∧
  (∀ tid h s x, wfFree tid h = true → canRun s tid = true → handleOf s tid h = some x →
    exec (.free tid h) s = .next (issued tid s (winStatus tid 0 (handleFree h
      (s.modThread tid (fun t => { t with pktWin := { t.pktWin with handle := h } })))))) ∧
  (∀ tid h s, wfFree tid h = true → canRun s tid = true → handleOf s tid h = none →
    exec (.free tid h) s =
      .next (issued tid s (winStatus tid 1 (s.modThread tid (fun t => { t with pktWin := { t.pktWin with handle := h } }))))) ∧
  (∀ tid h pipe port s x, wfInjectHandle tid h pipe port = true → canRun s tid = true → handleOf s tid h = some x → pipe < 9 →
    port < 176 → bpOn s (ownerKey 5 0) = false → ctxRoom s pipe = true → admits s (ownerKey 5 0) (cellsOf x.pkt.bytes.length) = true →
    let u := s.modThread tid (fun t => { t with pktWin := { t.pktWin with handle := h, pipe, port } })
    exec (.injectHandle tid h pipe port) s = .next (issued tid s (handleFree h (winStatus tid 0
      (injectPkt (partOfThread s tid) (if (partOf s tid).vendor then x.pkt.tenant else (partOf s tid).tenant) pipe port x.pkt.bytes
        x.pkt.rxTs u))))) ∧
  (∀ tid a n pipe port s, wfInjectBuffer tid a n pipe port = true → canRun s tid = true → 0 < n → n ≤ 9600 →
    (partOf s tid).inRegion a n = true →
    let u := s.modThread tid (fun t => { t with pktWin := { t.pktWin with addr := a, len := n, pipe, port } })
    exec (.injectBuffer tid a n pipe port) s = .next (issued tid s
      (injectTry tid (partOf s tid).tenant pipe port (partRd s (partOfThread s tid) a n) none u).1)) ∧
  (∀ tid i s, wfContextHold tid i = true → canRun s tid = true → (partOf s tid).vendor = true → i < 264192 →
    i ∉ (threadOf s tid).held → (threadOf s tid).held.length < 4 → (∀ e ∈ s.skk.threads, i ∉ e.2.held) → (threadOf s tid).stepping = false →
    ∃ t, exec (.contextHold tid i) s = .next t ∧ (threadOf t tid).held = (threadOf s tid).held ++ [i] ∧
      (threadOf t tid).ckvStatus = 0 ∧ ckvFrozen (ckvOf t i) = true) ∧
  (∀ tid i s, wfContextRelease tid i = true → canRun s tid = true → (partOf s tid).vendor = true → i ∈ (threadOf s tid).held →
    (threadOf s tid).stepping = false →
    ∃ t, exec (.contextRelease tid i) s = .next t ∧ (threadOf t tid).held = (threadOf s tid).held.filter (· ≠ i) ∧
      (threadOf t tid).ckvStatus = 0) ∧
  (∀ tid i s, wfContextRead tid i = true → canRun s tid = true → (partOf s tid).vendor = true → i < 264192 →
    (threadOf s tid).stepping = false →
    ∃ t, exec (.contextRead tid i) s = .next t ∧ (threadOf t tid).ckvData = ckvOf s i ∧ (threadOf t tid).ckvStatus = 0) ∧
  (∀ tid i d s, wfContextWrite tid i d = true → canRun s tid = true → (partOf s tid).vendor = true → i ∈ (threadOf s tid).held →
    ckvAlg d.toNat ≤ 3 → ckvStage d.toNat ≤ 6 → ckvTenant d.toNat = ckvTenant (ckvOf s i) → ckvFrozen (ckvOf s i) = true →
    ∃ t, exec (.contextWrite tid i d) s = .next t ∧ ckvOf t i = ckvOf (ckvWrite i d.toNat s) i) ∧
  (∀ tid i s, wfContextRead tid i = true → canRun s tid = true → (partOf s tid).vendor = false →
    exec (.contextRead tid i) s =
      .next (issued tid s (xexception tid 7 contextWindow s))) ∧
  (∀ ch s, wfSkinkTimerFire ch = true → exec (.skinkTimerFire ch) s = .next (timerFire ch s)) ∧
  (∀ ch s, wfSkinkPeriodTick ch = true → (chanOf s ch).kind = 2 → (chanOf s ch).armed = true → 1000 ≤ (chanOf s ch).period →
    (chanOf s ch).period ≤ 1000000000 → chanRuns s ch = true → (∀ m ∈ (chanOf s ch).msgs, m.kind ≠ 4) →
    chanRoom s ch = true → exec (.skinkPeriodTick ch) s = .next (chPush ch { words := [(chanOf s ch).ticks + 1, s.time], kind := 4 }
      (s.modChan ch ({ · with ticks := (chanOf s ch).ticks + 1 })))) ∧
  (∀ ch s, wfSkinkPeriodTick ch = true → (chanOf s ch).armed = false → exec (.skinkPeriodTick ch) s = .next s)

/-- R313, R328, R336, R340 to R342. Partitions are created, loaded, started, stopped, destroyed, and opened to the debugger. (Readings and
choices of the model in it: log entries 62, 63, 65, 72.) -/
def Obligations.PartitionCommands : Prop :=
  (∀ x r s form cluster cores action tenant clusters channels handles ms mib p first, Served x 0x0B01 r s →
    wfPartCreate x form cluster cores action tenant clusters channels handles ms mib = true →
    let u := begun x s
    let mine := newCores form cluster cores clusters
    partBad form cluster cores action clusters channels handles ms mib = none → u.skk.parts.length < 128 → handles ≤ handlesFree u →
    (∀ e ∈ u.skk.parts, ∀ c ∈ e.2.cores, c ∉ mine) → mib ≤ regionFree u →
    leastBelow 256 (fun i => i ≠ 0 && (part? u i).isNone) = some p → lowestFit 0 4096 channels (chanRanges u mine) = some first →
    let q : Part := { cluster := form = 0, cores := mine, tenant, regionMib := mib, channels, first, handles, sentinelMs := ms, action }
    let k := u.skk
    exec (.partCreate x form cluster cores action tenant clusters channels handles ms mib) s =
      .next (replied x r [u8 p, u16 first] { u with skk := { k with parts := mput k.parts p q } })) ∧
  (∀ x r s p q, Served x 0x0B02 r s → wfPartDestroy x p = true → part? (begun x s) p = some q → q.running = false →
    ∃ t, exec (.partDestroy x p) s = .next (replied x r [] t) ∧ part? t p = none ∧
      (∀ a, a < 2 ^ 37 → rd8 t.region (3 * 2 ^ 48 + p * 2 ^ 37 + a) = 0) ∧ ∀ tid ∈ q.threads, threadOf t tid = {}) ∧
  (∀ x r s p image q, Served x 0x0B03 r s → wfImageLoad x p image = true → part? (begun x s) p = some q → q.running = false →
    svcHeader image = true → at8 image 6 = (if q.vendor then 1 else 2) → trailerOk (begun x s) q.vendor image = true →
    svcFits q image = true →
    let put (u : State) (g : Segment) : State := partWr p g.load (sliceB image g.off g.file) u
    let v : ServiceImage := { version := ofLe (sliceB image 8 8), digest := (sha384 image).toNat, entry := imgEntry image }
    exec (.imageLoad x p image) s = .next (replied x r []
      (((imgSegs image).foldl put (partZero p (begun x s))).modPart p ({ · with image := some v })))) ∧
  (∀ x r s p q, Served x 0x0B04 r s → wfPartStart x p = true → part? (begun x s) p = some q → q.running = false →
    q.image.isSome = true → exec (.partStart x p) s = .next (replied x r [] (partStart p (begun x s)))) ∧
  (∀ x r s p q, Served x 0x0B04 r s → wfPartStart x p = true → part? (begun x s) p = some q → (q.running = true ∨ q.image = none) →
    exec (.partStart x p) s = .next (turnedAway x r stState 0 (begun x s))) ∧
  (∀ x r s p, Served x 0x0B05 r s → wfPartStop x p = true → (part? (begun x s) p).isSome = true →
    exec (.partStop x p) s = .next (replied x r [] (partStop p (begun x s)))) ∧
  (∀ x r s p, Served x 0x0B06 r s → wfDebugAttach x p 0 = true → (part? (begun x s) p).isSome = true → bit s.dbg.scopes 2 = true →
    let u := begun x s
    let k := u.skk
    exec (.debugAttach x p 0) s = .next (replied x r []
      { u with skk := { k with parts := mmap k.parts (fun i q => { q with attached := i = p }) } })) ∧
  (∀ x r s p, Served x 0x0B06 r s → wfDebugAttach x p 1 = true → (part? (begun x s) p).isSome = true →
    exec (.debugAttach x p 1) s = .next (replied x r [] ((begun x s).modPart p ({ · with attached := false })))) ∧
  (∀ x r s p, Served x 0x0B06 r s → wfDebugAttach x p 0 = true → (part? (begun x s) p).isSome = true → bit s.dbg.scopes 2 = false →
    bit s.dbg.scopes 0 = false → exec (.debugAttach x p 0) s = .next (turnedAway x r stDenied 0 (begun x s)))

/-- R376 to R381. The meters' minute, reading and export. (Readings and choices of the model in it: log entries 42 to 44, 89.) -/
def Obligations.MeterCommands : Prop :=
  (∀ s, s.phase ≠ .inReset → exec .minuteBoundary s = .next (minuteBoundary s)) ∧
  (∀ s, s.phase = .inReset → exec .minuteBoundary s = .next s) ∧
  (∀ x r s tenant index, Served x 0x0C01 r s → wfMeterRead x 0 tenant index = true → (callBy x r s).role = 1 →
    exec (.meterRead x 0 tenant index) s = .next (repliedTo x r ((meterNow s tenant).map u64) 0 8 (begun x s))) ∧
  (∀ x r s tenant minute e, Served x 0x0C01 r s → wfMeterRead x 1 tenant minute = true → (callBy x r s).role = 1 →
    mget? s.meter.ring (minute % 60) = some e → e.minute = minute → e.valid = true →
    exec (.meterRead x 1 tenant minute) s = .next (repliedTo x r ((meterRec e.recs tenant).map u64) 0 8 (begun x s))) ∧
  (∀ x r s tenant minute, Served x 0x0C01 r s → wfMeterRead x 1 tenant minute = true → (callBy x r s).role = 1 →
    snapOf s minute = none → exec (.meterRead x 1 tenant minute) s = .next (turnedAway x r stNotFound 0 (begun x s))) ∧
  (∀ x r s tenant index, Served x 0x0C01 r s → wfMeterRead x 2 tenant index = true → (callBy x r s).role = 1 → index < 294912 →
    exec (.meterRead x 2 tenant index) s =
      .next (repliedTo x r [u64 (s.count .counterPkts index 0), u64 (s.count .counterBytes index 0)] 0 8 (begun x s))) ∧
  (∀ x r s c, Served x 0x0C02 r s → wfMeterExportConfig x c = true → exportBad (begun x s) c = none → c.mode ≠ 1 →
    let u := begun x s
    let m := u.meter
    exec (.meterExportConfig x c) s = .next (replied x r [] { u with meter := { m with export_ := c, expPi := 0, expCi := 0 } })) ∧
  (∀ x r s c, Served x 0x0C02 r s → wfMeterExportConfig x c = true → exportBad (begun x s) c = none → c.mode = 1 →
    let u := begun x s
    let m := u.meter
    let v : State := { u with meter := { m with export_ := c, expPi := 0, expCi := 0 } }
    exec (.meterExportConfig x c) s = .next (replied x r [] (v.hostWr (exportFid v) c.indexAddr (leBytes 8 0)))) ∧
  (∀ lost s, wfMeterExport lost = true → s.meter.due = false → exec (.meterExport lost) s = .next s) ∧
  (∀ lost s e, wfMeterExport lost = true → s.meter.due = true → s.meter.export_.mode = 1 → snapOf s s.meter.lastMinute = some e →
    s.phase = .running → mgmtServiceUp s = true →
    let m := s.meter
    exec (.meterExport lost) s = .next (((exportTenants m).map (exportRecord e.recs)).foldl (fun s r => exportToRing e.minute r s)
      { s with meter := { m with due := false } })) ∧
  (∀ lost s e, wfMeterExport lost = true → s.meter.due = true → s.meter.export_.mode = 2 → snapOf s s.meter.lastMinute = some e →
    s.phase = .running → mgmtServiceUp s = true → (s.meter.export_.port ≠ 0xFFFF ∨ mgmt0OfService s = true) →
    let m := s.meter
    exec (.meterExport lost) s = .next (exportByUdp e.minute lost ((exportTenants m).length + 1) 0
      ((exportTenants m).map (exportRecord e.recs)) { s with meter := { m with due := false } })) ∧
  (∀ lost s e, wfMeterExport lost = true → s.meter.due = true → s.meter.export_.mode = 2 → snapOf s s.meter.lastMinute = some e →
    s.phase = .running → mgmtServiceUp s = true → s.meter.export_.port = 0xFFFF → mgmt0OfService s = false →
    let m := s.meter
    exec (.meterExport lost) s = .next (({ s with meter := { m with due := false } } : State).bump .exportLoss 0 0
      ((exportTenants m).map (exportRecord e.recs)).length))

/-- R305, R382 to R389. Migration: dirty logging, the migration key, freeze, save, restore and thaw. R305. After a save every security
association that the function owns is INVALID, and the others are as before. (Readings and choices of the model in it: log entries 45 to
48, 100.) -/
def Obligations.MigrationCommands : Prop :=
  ((∀ x r s fid len bm, Served x 0x1001 r s → wfMigDirtyStart x fid len bm = true → (callBy x r s).inPort (fidPort fid) = true →
    len % 8 = 0 → bm % 8 = 0 → vfThere (begun x s) fid = true →
    let d : DirtyLog := { len, bitmap := bm, by_ := (callBy x r s).fid }
    shadowFits (begun x s) fid d = true →
    exec (.migDirtyStart x fid len bm) s =
      .next (replied x r [] ((dirtyFlush fid (begun x s)).modFn fid ({ · with dirty := some d })))) ∧
  (∀ x r s fid d, Served x 0x1002 r s → wfMigDirtyStop x fid = true → (callBy x r s).inPort (fidPort fid) = true →
    vfThere (begun x s) fid = true → (fnD (begun x s) fid).dirty = some d → d.beyond = 0 →
    exec (.migDirtyStop x fid) s = .next (replied x r [] ((dirtyFlush fid (begun x s)).modFn fid ({ · with dirty := none })))) ∧
  (∀ x r s fid d, Served x 0x1002 r s → wfMigDirtyStop x fid = true → (callBy x r s).inPort (fidPort fid) = true →
    vfThere (begun x s) fid = true → (fnD (begun x s) fid).dirty = some d → d.beyond ≠ 0 →
    exec (.migDirtyStop x fid) s = .next (turnedAway x r stPartial (d.beyond % 2 ^ 32)
      ((dirtyFlush fid (begun x s)).modFn fid ({ · with dirty := none })))) ∧
  (∀ fid p s d, wfDirtyBitWrite fid p = true → (fnD s fid).dirty = some d → p ∈ d.due →
    exec (.dirtyBitWrite fid p) s = .next (dirtyWrite fid (p / 64) s)) ∧
  (∀ fid p s, wfDirtyBitWrite fid p = true → (fnD s fid).dirty = none → exec (.dirtyBitWrite fid p) s = .next s) ∧
  (∀ x r s fid, Served x 0x1003 r s → wfMigFreeze x fid = true → (callBy x r s).inPort (fidPort fid) = true →
    vfThere (begun x s) fid = true → (fnD (begun x s) fid).bound = true →
    exec (.migFreeze x fid) s = .next (held x r (.freeze fid) ((begun x s).modFn fid ({ · with frozen := true })))) ∧
  (∀ fid s, wfMigFreezeDrainDone fid = true → (fnD s fid).frozen = true → vfDrained s fid = true →
    exec (.migFreezeDrainDone fid) s =
      .next (finishWait (· = .freeze fid) stOk 0 [] ((ownedCtxs s fid).foldl (fun s i => ctxFreeze i true s) s))) ∧
  (∀ fid s, wfMigFreezeDrainDone fid = true → vfDrained s fid = false → exec (.migFreezeDrainDone fid) s = .next s) ∧
  (∀ fid s, wfMigFreezeTimeout fid = true → exec (.migFreezeTimeout fid) s = .next (finishWait (· = .freeze fid) stTimeout 0 [] s)) ∧
  (∀ x r s k, Served x 0x1007 r s → wfMigKeySet x k = true → k < 262144 → (keySlot s k).type = 2 → bit (keySlot s k).usage 7 = true →
    (keySlot s k).owner = 0 →
    let u := begun x s
    exec (.migKeySet x k) s = .next (replied x r [] { u with migKey := some k })) ∧
  (∀ x r s fid key, Served x 0x1004 r s → wfMigSave x fid = true → (callBy x r s).inPort (fidPort fid) = true →
    alarmLatched (begun x s) = false → vfThere (begun x s) fid = true → (fnD (begun x s) fid).frozen = true →
    (fnD (begun x s) fid).saved = false → migMaterial (begun x s) = some key →
    let u := begun x s
    let body := saveBody u fid
    64 + body.length + 8 + 16 ≤ (callBy x r s).room →
    let turn := migTurn (callBy x r s).fid (64 + body.length + 8 + 16) u
    turn.1 = true →
    let w := migMoved (64 + body.length + 8 + 16) turn.2
    let id := Config.freeNat w.free % 2 ^ 64
    let v : State := { w with free := w.free + 1 }
    exec (.migSave x fid) s = .next (replied x r [.arr (blobSeal key id (blobHeader v fid id (body.length + 8)) body)]
      ((saInvalidate fid v).modFn fid ({ · with saved := true })))) ∧
  (∀ x r s fid key, Served x 0x1004 r s → wfMigSave x fid = true → (callBy x r s).inPort (fidPort fid) = true →
    alarmLatched (begun x s) = false → vfThere (begun x s) fid = true → (fnD (begun x s) fid).frozen = true →
    (fnD (begun x s) fid).saved = false → migMaterial (begun x s) = some key →
    let n := 64 + (saveBody (begun x s) fid).length + 8 + 16
    n ≤ (callBy x r s).room →
    let turn := migTurn (callBy x r s).fid n (begun x s)
    turn.1 = false →
    exec (.migSave x fid) s = .next (turn.2.modMbx x.mbx ({ · with queue := r :: (mbxOf s x.mbx).queue.tail }))) ∧
  (∀ fid n s, bpOn s migOwner = true → migTurn fid n s = (false, s)) ∧
  (∀ x r s fid blob key ts, Served x 0x1005 r s → wfMigRestore x fid blob = true → (callBy x r s).inPort (fidPort fid) = true →
    alarmLatched (begun x s) = false → vfThere (begun x s) fid = true → (fnD (begun x s) fid).frozen = true →
    migMaterial (begun x s) = some key → blobOk blob = true →
    let turn := migTurn (callBy x r s).fid blob.length (begun x s)
    turn.1 = true →
    let u := migMoved blob.length turn.2
    let id := ofLe (sliceB blob 8 8)
    let n := ofLe (sliceB blob 0x1C 4)
    let kw := migDerive key labelKw id
    let g := grantsOf u fid
    let src := ofLe (sliceB blob 0x18 2)
    cipherOk 2 (migDerive key labelAuth id) (migIv id) (blob.take (64 + n)) [] (blob.drop (64 + n)) = true →
    cipherOk 9 kw [] [] (sliceB blob 64 n) [] = true → at8 blob 6 = (if isNvme u fid then 2 else 1) → id ∉ u.migSaves →
    readTlvs (n / 8 + 1) (fit (n - 8) (cipherRun 9 kw [] [] (sliceB blob 64 n))) = some ts →
    ∀ t1, ts.find? (·.type = 1) = some t1 → grantShort (t1.ws.take 11) g.list = none → (∀ t ∈ ts, tlvFits g t = true) →
    ∀ v, restoreEntries g ((ts.filter (·.type = 11)).map (restoreEntry src fid)) u = some v →
    let w := (ts.foldl (fun s t => restoreTlv src fid (tenantOf v fid) g t s) v).modFn fid ({ · with saved := false })
    exec (.migRestore x fid blob) s = .next (replied x r [] { w with migSaves := (id :: w.migSaves).take 4096 })) ∧
  (∀ x r s fid, Served x 0x1006 r s → wfMigThaw x fid = true → (callBy x r s).inPort (fidPort fid) = true →
    vfThere (begun x s) fid = true → (fnD (begun x s) fid).frozen = true → (fnD (begun x s) fid).saved = false →
    exec (.migThaw x fid) s = .next (replied x r [] (kickAll fid (ctxThaw fid ((modRestart fid (readIndices fid
      ((begun x s).modFn fid ({ · with frozen := false })))).flushMsix fid))))) ∧
  (∀ x r s fid, Served x 0x1006 r s → wfMigThaw x fid = true → (callBy x r s).inPort (fidPort fid) = true →
    (fnD (begun x s) fid).saved = true → exec (.migThaw x fid) s = .next (turnedAway x r stState 0 (begun x s)))) ∧
  (∀ fid s n, (mget? s.cip.sas n).isSome = true →
    ((saOf s n).owner = fid → saOf (saInvalidate fid s) n = { saOf s n with state := 3 }) ∧
    ((saOf s n).owner ≠ fid → saOf (saInvalidate fid s) n = saOf s n))

/-- A step carries out the command at the front of the queue on the state with the queue's rest; on an empty queue the device idles, which is
the model's choice (log entry 39). -/
def Obligations.StepTakesFront : Prop :=
  (∀ c rest (s : State), step { s with pending := c :: rest } = exec c { s with pending := rest }) ∧
  (∀ s, s.pending = [] → step s = .next s)

/-- Every command that can be sent answers a next state in every state, whatever its mode; a command that is not well formed cannot be sent,
and the model stops on it by name. -/
def Obligations.EveryCommandRuns : Prop :=
  ∀ i s, (wellFormed i = true → ∃ t, exec i s = .next t) ∧ (wellFormed i = false → exec i s = .fault .malformed)

/-- R17, R18, R30, R83, R372, R403. The state right after reset: nothing runs until `SYS_RST_N` is released; time is 0, Pad A is active at
generation 0, no function, window, key or volume is there, every byte memory reads zero and has its canonical form, and no counter has
counted. (Readings and choices of the model in it: log entries 1 to 5.) -/
def Obligations.ResetState : Prop :=
  State.reset.phase = .inReset ∧ State.reset.pending = [] ∧ State.reset.pins.sysRstN = false ∧ State.reset.time = 0 ∧
  State.reset.pkt.leap.active = 0 ∧ leapGen State.reset = 0 ∧ State.reset.fns = [] ∧ State.reset.wins = [] ∧
  State.reset.cip.slots = [] ∧ State.reset.cip.kek = none ∧ State.reset.sto.vols = [] ∧ State.reset.skk.parts = [] ∧
  (∀ a, rd8 State.reset.exch a = 0 ∧ rd8 State.reset.region a = 0 ∧ rd8 State.reset.pkt.scratch a = 0) ∧
  (∀ k a b, State.reset.count k a b = 0) ∧ State.reset.MemOk

/-- The byte memories keep their canonical form: whatever command a step takes, memories that have it before have it after. -/
def Obligations.MemoryFormKept : Prop :=
  ∀ s t, s.MemOk → step s = .next t → t.MemOk

/-- A command changes nothing of the queue of commands that wait behind it. -/
def Obligations.QueueKept : Prop :=
  ∀ i s t, exec i s = .next t → t.pending = s.pending

/-- R39, O11. No command lowers a cumulative counter, but for those that may reset the device as `SYS_RST_N` does. -/
def Obligations.CountersKept : Prop :=
  ∀ i s t, mayReset i = false → exec i s = .next t → ∀ k a b, s.count k a b ≤ t.count k a b

/-- R350 to R353. Before a mailbox command's body runs, its role and its slot are checked: a role that may not issue it is DENIED, a slot at
fault is BAD_PARAM, and neither changes anything but the mailbox; a disagreement of the two permission tables is DENIED as well, with a fault
record (what the record's UNIT and DETAIL hold is the model's choice, log entry 84); a command of another opcode than the oldest request's has no effect. -/
def Obligations.MailboxChecks : Prop :=
  ∀ (x : XCall) (r : Req) (s : State) (op roles taken : Nat) (body : Call → State → State × Reply), (mbxOf s x.mbx).queue.head? = some r → mbxReady s x.mbx = true → opRow op = some (roles, taken) →
    (r.opcode ≠ op → xop x op body s = s) ∧
    (r.opcode = op → x.agree = true → roles &&& roleOf (begun x s) x.mbx = 0 →
      xop x op body s = turnedAway x r stDenied 0 (begun x s)) ∧
    (r.opcode = op → x.agree = false → xop x op body s = turnedAway x r stDenied 0 (roleFault x.mbx (begun x s))) ∧
    (∀ d, r.opcode = op → x.agree = true → roles &&& roleOf (begun x s) x.mbx ≠ 0 → headerFault x.mbx r taken x = some d →
      xop x op body s = turnedAway x r stBadParam d (begun x s))

/-- R346, R350. The frame of every answer: writing a response changes the mailbox, what the device gives the outside, its function's pending
messages and dirty log, and wakes its host link; and nothing else: no register of another unit, no table, no key, no volume, no thread, and no byte
of the device's memories. -/
def Obligations.AnswersTouchOnlyTheMailbox : Prop :=
  ∀ (x : XCall) (r : Req) (s : State) status detail p hdr unit,
    let t := respond x.mbx r x.rspList status detail p hdr unit s
    t.phase = s.phase ∧ t.pins = s.pins ∧ t.time = s.time ∧ t.tick = s.tick ∧ t.pow = s.pow ∧ t.flt = s.flt ∧ t.wear = s.wear ∧
    t.nv = s.nv ∧ t.eft = s.eft ∧ t.octMode = s.octMode ∧ t.lanes = s.lanes ∧ t.ports = s.ports ∧
    t.allots = s.allots ∧ t.wins = s.wins ∧ t.reads = s.reads ∧ t.pkt = s.pkt ∧ t.sto = s.sto ∧ t.cip = s.cip ∧ t.skk = s.skk ∧
    t.meter = s.meter ∧ t.migKey = s.migKey ∧ t.migSaves = s.migSaves ∧ t.chain = s.chain ∧ t.dbg = s.dbg ∧ t.ctr = s.ctr ∧
    t.pending = s.pending ∧ (∀ a, rd8 t.exch a = rd8 s.exch a) ∧ (∀ a, rd8 t.region a = rd8 s.region a) ∧
    ∀ m, m ≠ x.mbx → mbxOf t m = mbxOf s m

/-- R279. The four algorithms by their parameters, bit by bit, for every byte string: polynomial, initial value, reflection and final XOR; their
check values over "123456789"; and the Path Check Word, which is code 0 with its own preset in place of the initial value. -/
def Obligations.CrcAlgorithms : Prop :=
  (∀ bs, crcOf 0 bs = revBits 32 (crcPlain 32 0x1EDC6F41 0xFFFFFFFF (bitsRef bs)) ^^^ 0xFFFFFFFF) ∧
  (∀ bs, crcOf 1 bs = revBits 32 (crcPlain 32 0x04C11DB7 0xFFFFFFFF (bitsRef bs)) ^^^ 0xFFFFFFFF) ∧
  (∀ bs, crcOf 2 bs = crcPlain 16 0x8BB7 0x0000 (bitsPlain bs) ^^^ 0x0000) ∧
  (∀ bs, crcOf 3 bs =
    revBits 64 (crcPlain 64 0xAD93D23594C93659 0xFFFFFFFFFFFFFFFF (bitsRef bs)) ^^^ 0xFFFFFFFFFFFFFFFF) ∧
  crcOf 0 (ascii "123456789") = 0xE3069283 ∧ crcOf 1 (ascii "123456789") = 0xCBF43926 ∧ crcOf 2 (ascii "123456789") = 0xD0DB ∧
  crcOf 3 (ascii "123456789") = 0xAE8B14860A799888 ∧
  (∀ tenant pseq dest bs, tenant < 65536 → pseq < 65536 →
    pcw tenant pseq dest bs =
      revBits 32 (crcPlain 32 0x1EDC6F41 (revBits 32 (0xFFFFFFFF ^^^ (tenant * 65536 + pseq))) (bitsRef (bs ++ leBytes 4 dest)))
        ^^^ 0xFFFFFFFF)

/-- R328. `PART_START` starts the supervisor at the image's ENTRY with the partition ID in a0 (x10), the region's size in a1 (x11) and its top
in sp (x2); every other thread starts in `POOL` in a cluster partition and in `STOPPED` in a core partition. -/
def Obligations.PartitionStarts : Prop :=
  ∀ x r s p q image, Served x 0x0B04 r s → wfPartStart x p = true → part? (begun x s) p = some q → q.running = false →
    q.image = some image → q.cores ≠ [] →
    ∃ t, exec (.partStart x p) s = .next (replied x r [] t) ∧ (part? t p).map (·.running) = some true ∧
      (threadOf t (supervisorOf q)).state = 2 ∧ (threadOf t (supervisorOf q)).pc = image.entry ∧
      mgetD (threadOf t (supervisorOf q)).regs 10 0 = p ∧
      mgetD (threadOf t (supervisorOf q)).regs 11 0 = q.regionMib * 2 ^ 20 ∧
      mgetD (threadOf t (supervisorOf q)).regs 2 0 = 2 ^ 32 + q.regionMib * 2 ^ 20 ∧
      ∀ tid ∈ q.threads, tid ≠ supervisorOf q → (threadOf t tid).state = if q.cluster then 1 else 0

/-- R355. `DEV_CAPS` answers version 1.0, 256 requests outstanding, payloads of 16,777,216 bytes, and a bitmap of 256 bits in which the eight
features of XCS 1.0 are set and bits 8 to 255 are 0. -/
def Obligations.DeviceCaps : Prop :=
  ∀ x r s, Served x 0x0102 r s → wfDevCaps x = true →
    exec (.devCaps x) s = .next (replied x r [u16 1, u16 0, u16 256, u32 16777216, .arr (leBytes 32 0xFF)] (begun x s)) ∧
    (∀ i, i < 8 → bit (ofLe (leBytes 32 0xFF)) i = true) ∧ (∀ i, 8 ≤ i → i < 256 → bit (ofLe (leBytes 32 0xFF)) i = false)
end

