-- ==== Sys2Proof/Laws/State.lean ====
section
/-! SUPPORT. What each named update of the state leaves as it was: one lemma per field and update. -/

namespace Sys2Proof.Machine

/-- A fold whose every step keeps a view keeps it. -/
theorem foldl_keeps {α β : Type} (g : State → β) (f : State → α → State) (h : ∀ s x, g (f s x) = g s) (l : List α) (s : State) :
    g (l.foldl f s) = g s := by
  induction l generalizing s with
  | nil => rfl
  | cons x l ih => simp [ih, h]

/-! ### `emit` -/

@[simp] theorem State.emit_pending (s : State) (o : Output) : (s.emit o).pending = s.pending := rfl
@[simp] theorem State.emit_phase (s : State) (o : Output) : (s.emit o).phase = s.phase := rfl
@[simp] theorem State.emit_pins (s : State) (o : Output) : (s.emit o).pins = s.pins := rfl
@[simp] theorem State.emit_time (s : State) (o : Output) : (s.emit o).time = s.time := rfl
@[simp] theorem State.emit_tick (s : State) (o : Output) : (s.emit o).tick = s.tick := rfl
@[simp] theorem State.emit_ppsLocked (s : State) (o : Output) : (s.emit o).ppsLocked = s.ppsLocked := rfl
@[simp] theorem State.emit_ptpLocked (s : State) (o : Output) : (s.emit o).ptpLocked = s.ptpLocked := rfl
@[simp] theorem State.emit_pow (s : State) (o : Output) : (s.emit o).pow = s.pow := rfl
@[simp] theorem State.emit_flt (s : State) (o : Output) : (s.emit o).flt = s.flt := rfl
@[simp] theorem State.emit_wear (s : State) (o : Output) : (s.emit o).wear = s.wear := rfl
@[simp] theorem State.emit_nv (s : State) (o : Output) : (s.emit o).nv = s.nv := rfl
@[simp] theorem State.emit_eft (s : State) (o : Output) : (s.emit o).eft = s.eft := rfl
@[simp] theorem State.emit_octMode (s : State) (o : Output) : (s.emit o).octMode = s.octMode := rfl
@[simp] theorem State.emit_lanes (s : State) (o : Output) : (s.emit o).lanes = s.lanes := rfl
@[simp] theorem State.emit_ports (s : State) (o : Output) : (s.emit o).ports = s.ports := rfl
@[simp] theorem State.emit_hps (s : State) (o : Output) : (s.emit o).hps = s.hps := rfl
@[simp] theorem State.emit_fns (s : State) (o : Output) : (s.emit o).fns = s.fns := rfl
@[simp] theorem State.emit_unprov (s : State) (o : Output) : (s.emit o).unprov = s.unprov := rfl
@[simp] theorem State.emit_mbxs (s : State) (o : Output) : (s.emit o).mbxs = s.mbxs := rfl
@[simp] theorem State.emit_boardMbx (s : State) (o : Output) : (s.emit o).boardMbx = s.boardMbx := rfl
@[simp] theorem State.emit_allots (s : State) (o : Output) : (s.emit o).allots = s.allots := rfl
@[simp] theorem State.emit_wins (s : State) (o : Output) : (s.emit o).wins = s.wins := rfl
@[simp] theorem State.emit_exch (s : State) (o : Output) : (s.emit o).exch = s.exch := rfl
@[simp] theorem State.emit_region (s : State) (o : Output) : (s.emit o).region = s.region := rfl
@[simp] theorem State.emit_reads (s : State) (o : Output) : (s.emit o).reads = s.reads := rfl
@[simp] theorem State.emit_ghosts (s : State) (o : Output) : (s.emit o).ghosts = s.ghosts := rfl
@[simp] theorem State.emit_pkt (s : State) (o : Output) : (s.emit o).pkt = s.pkt := rfl
@[simp] theorem State.emit_sto (s : State) (o : Output) : (s.emit o).sto = s.sto := rfl
@[simp] theorem State.emit_cip (s : State) (o : Output) : (s.emit o).cip = s.cip := rfl
@[simp] theorem State.emit_skk (s : State) (o : Output) : (s.emit o).skk = s.skk := rfl
@[simp] theorem State.emit_meter (s : State) (o : Output) : (s.emit o).meter = s.meter := rfl
@[simp] theorem State.emit_migKey (s : State) (o : Output) : (s.emit o).migKey = s.migKey := rfl
@[simp] theorem State.emit_migSaves (s : State) (o : Output) : (s.emit o).migSaves = s.migSaves := rfl
@[simp] theorem State.emit_i3c (s : State) (o : Output) : (s.emit o).i3c = s.i3c := rfl
@[simp] theorem State.emit_chain (s : State) (o : Output) : (s.emit o).chain = s.chain := rfl
@[simp] theorem State.emit_dbg (s : State) (o : Output) : (s.emit o).dbg = s.dbg := rfl
@[simp] theorem State.emit_ctr (s : State) (o : Output) : (s.emit o).ctr = s.ctr := rfl
@[simp] theorem State.emit_free (s : State) (o : Output) : (s.emit o).free = s.free := rfl

/-! ### `draw` -/

@[simp] theorem State.draw_pending (s : State) : (s.draw.2).pending = s.pending := rfl
@[simp] theorem State.draw_phase (s : State) : (s.draw.2).phase = s.phase := rfl
@[simp] theorem State.draw_pins (s : State) : (s.draw.2).pins = s.pins := rfl
@[simp] theorem State.draw_time (s : State) : (s.draw.2).time = s.time := rfl
@[simp] theorem State.draw_tick (s : State) : (s.draw.2).tick = s.tick := rfl
@[simp] theorem State.draw_ppsLocked (s : State) : (s.draw.2).ppsLocked = s.ppsLocked := rfl
@[simp] theorem State.draw_ptpLocked (s : State) : (s.draw.2).ptpLocked = s.ptpLocked := rfl
@[simp] theorem State.draw_pow (s : State) : (s.draw.2).pow = s.pow := rfl
@[simp] theorem State.draw_flt (s : State) : (s.draw.2).flt = s.flt := rfl
@[simp] theorem State.draw_wear (s : State) : (s.draw.2).wear = s.wear := rfl
@[simp] theorem State.draw_nv (s : State) : (s.draw.2).nv = s.nv := rfl
@[simp] theorem State.draw_eft (s : State) : (s.draw.2).eft = s.eft := rfl
@[simp] theorem State.draw_octMode (s : State) : (s.draw.2).octMode = s.octMode := rfl
@[simp] theorem State.draw_lanes (s : State) : (s.draw.2).lanes = s.lanes := rfl
@[simp] theorem State.draw_ports (s : State) : (s.draw.2).ports = s.ports := rfl
@[simp] theorem State.draw_hps (s : State) : (s.draw.2).hps = s.hps := rfl
@[simp] theorem State.draw_fns (s : State) : (s.draw.2).fns = s.fns := rfl
@[simp] theorem State.draw_unprov (s : State) : (s.draw.2).unprov = s.unprov := rfl
@[simp] theorem State.draw_mbxs (s : State) : (s.draw.2).mbxs = s.mbxs := rfl
@[simp] theorem State.draw_boardMbx (s : State) : (s.draw.2).boardMbx = s.boardMbx := rfl
@[simp] theorem State.draw_allots (s : State) : (s.draw.2).allots = s.allots := rfl
@[simp] theorem State.draw_wins (s : State) : (s.draw.2).wins = s.wins := rfl
@[simp] theorem State.draw_exch (s : State) : (s.draw.2).exch = s.exch := rfl
@[simp] theorem State.draw_region (s : State) : (s.draw.2).region = s.region := rfl
@[simp] theorem State.draw_reads (s : State) : (s.draw.2).reads = s.reads := rfl
@[simp] theorem State.draw_ghosts (s : State) : (s.draw.2).ghosts = s.ghosts := rfl
@[simp] theorem State.draw_pkt (s : State) : (s.draw.2).pkt = s.pkt := rfl
@[simp] theorem State.draw_sto (s : State) : (s.draw.2).sto = s.sto := rfl
@[simp] theorem State.draw_cip (s : State) : (s.draw.2).cip = s.cip := rfl
@[simp] theorem State.draw_skk (s : State) : (s.draw.2).skk = s.skk := rfl
@[simp] theorem State.draw_meter (s : State) : (s.draw.2).meter = s.meter := rfl
@[simp] theorem State.draw_migKey (s : State) : (s.draw.2).migKey = s.migKey := rfl
@[simp] theorem State.draw_migSaves (s : State) : (s.draw.2).migSaves = s.migSaves := rfl
@[simp] theorem State.draw_i3c (s : State) : (s.draw.2).i3c = s.i3c := rfl
@[simp] theorem State.draw_chain (s : State) : (s.draw.2).chain = s.chain := rfl
@[simp] theorem State.draw_dbg (s : State) : (s.draw.2).dbg = s.dbg := rfl
@[simp] theorem State.draw_ctr (s : State) : (s.draw.2).ctr = s.ctr := rfl
@[simp] theorem State.draw_out (s : State) : (s.draw.2).out = s.out := rfl

/-! ### `drawBelow` -/

@[simp] theorem State.drawBelow_pending (s : State) (n : Nat) : ((s.drawBelow n).2).pending = s.pending := rfl
@[simp] theorem State.drawBelow_phase (s : State) (n : Nat) : ((s.drawBelow n).2).phase = s.phase := rfl
@[simp] theorem State.drawBelow_pins (s : State) (n : Nat) : ((s.drawBelow n).2).pins = s.pins := rfl
@[simp] theorem State.drawBelow_time (s : State) (n : Nat) : ((s.drawBelow n).2).time = s.time := rfl
@[simp] theorem State.drawBelow_tick (s : State) (n : Nat) : ((s.drawBelow n).2).tick = s.tick := rfl
@[simp] theorem State.drawBelow_ppsLocked (s : State) (n : Nat) : ((s.drawBelow n).2).ppsLocked = s.ppsLocked := rfl
@[simp] theorem State.drawBelow_ptpLocked (s : State) (n : Nat) : ((s.drawBelow n).2).ptpLocked = s.ptpLocked := rfl
@[simp] theorem State.drawBelow_pow (s : State) (n : Nat) : ((s.drawBelow n).2).pow = s.pow := rfl
@[simp] theorem State.drawBelow_flt (s : State) (n : Nat) : ((s.drawBelow n).2).flt = s.flt := rfl
@[simp] theorem State.drawBelow_wear (s : State) (n : Nat) : ((s.drawBelow n).2).wear = s.wear := rfl
@[simp] theorem State.drawBelow_nv (s : State) (n : Nat) : ((s.drawBelow n).2).nv = s.nv := rfl
@[simp] theorem State.drawBelow_eft (s : State) (n : Nat) : ((s.drawBelow n).2).eft = s.eft := rfl
@[simp] theorem State.drawBelow_octMode (s : State) (n : Nat) : ((s.drawBelow n).2).octMode = s.octMode := rfl
@[simp] theorem State.drawBelow_lanes (s : State) (n : Nat) : ((s.drawBelow n).2).lanes = s.lanes := rfl
@[simp] theorem State.drawBelow_ports (s : State) (n : Nat) : ((s.drawBelow n).2).ports = s.ports := rfl
@[simp] theorem State.drawBelow_hps (s : State) (n : Nat) : ((s.drawBelow n).2).hps = s.hps := rfl
@[simp] theorem State.drawBelow_fns (s : State) (n : Nat) : ((s.drawBelow n).2).fns = s.fns := rfl
@[simp] theorem State.drawBelow_unprov (s : State) (n : Nat) : ((s.drawBelow n).2).unprov = s.unprov := rfl
@[simp] theorem State.drawBelow_mbxs (s : State) (n : Nat) : ((s.drawBelow n).2).mbxs = s.mbxs := rfl
@[simp] theorem State.drawBelow_boardMbx (s : State) (n : Nat) : ((s.drawBelow n).2).boardMbx = s.boardMbx := rfl
@[simp] theorem State.drawBelow_allots (s : State) (n : Nat) : ((s.drawBelow n).2).allots = s.allots := rfl
@[simp] theorem State.drawBelow_wins (s : State) (n : Nat) : ((s.drawBelow n).2).wins = s.wins := rfl
@[simp] theorem State.drawBelow_exch (s : State) (n : Nat) : ((s.drawBelow n).2).exch = s.exch := rfl
@[simp] theorem State.drawBelow_region (s : State) (n : Nat) : ((s.drawBelow n).2).region = s.region := rfl
@[simp] theorem State.drawBelow_reads (s : State) (n : Nat) : ((s.drawBelow n).2).reads = s.reads := rfl
@[simp] theorem State.drawBelow_ghosts (s : State) (n : Nat) : ((s.drawBelow n).2).ghosts = s.ghosts := rfl
@[simp] theorem State.drawBelow_pkt (s : State) (n : Nat) : ((s.drawBelow n).2).pkt = s.pkt := rfl
@[simp] theorem State.drawBelow_sto (s : State) (n : Nat) : ((s.drawBelow n).2).sto = s.sto := rfl
@[simp] theorem State.drawBelow_cip (s : State) (n : Nat) : ((s.drawBelow n).2).cip = s.cip := rfl
@[simp] theorem State.drawBelow_skk (s : State) (n : Nat) : ((s.drawBelow n).2).skk = s.skk := rfl
@[simp] theorem State.drawBelow_meter (s : State) (n : Nat) : ((s.drawBelow n).2).meter = s.meter := rfl
@[simp] theorem State.drawBelow_migKey (s : State) (n : Nat) : ((s.drawBelow n).2).migKey = s.migKey := rfl
@[simp] theorem State.drawBelow_migSaves (s : State) (n : Nat) : ((s.drawBelow n).2).migSaves = s.migSaves := rfl
@[simp] theorem State.drawBelow_i3c (s : State) (n : Nat) : ((s.drawBelow n).2).i3c = s.i3c := rfl
@[simp] theorem State.drawBelow_chain (s : State) (n : Nat) : ((s.drawBelow n).2).chain = s.chain := rfl
@[simp] theorem State.drawBelow_dbg (s : State) (n : Nat) : ((s.drawBelow n).2).dbg = s.dbg := rfl
@[simp] theorem State.drawBelow_ctr (s : State) (n : Nat) : ((s.drawBelow n).2).ctr = s.ctr := rfl
@[simp] theorem State.drawBelow_out (s : State) (n : Nat) : ((s.drawBelow n).2).out = s.out := rfl

/-! ### `bump` -/

@[simp] theorem State.bump_pending (s : State) (k : CtrKind) (a b n : Nat) : (s.bump k a b n).pending = s.pending := by unfold State.bump; split <;> rfl
@[simp] theorem State.bump_phase (s : State) (k : CtrKind) (a b n : Nat) : (s.bump k a b n).phase = s.phase := by unfold State.bump; split <;> rfl
@[simp] theorem State.bump_pins (s : State) (k : CtrKind) (a b n : Nat) : (s.bump k a b n).pins = s.pins := by unfold State.bump; split <;> rfl
@[simp] theorem State.bump_time (s : State) (k : CtrKind) (a b n : Nat) : (s.bump k a b n).time = s.time := by unfold State.bump; split <;> rfl
@[simp] theorem State.bump_tick (s : State) (k : CtrKind) (a b n : Nat) : (s.bump k a b n).tick = s.tick := by unfold State.bump; split <;> rfl
@[simp] theorem State.bump_ppsLocked (s : State) (k : CtrKind) (a b n : Nat) : (s.bump k a b n).ppsLocked = s.ppsLocked := by unfold State.bump; split <;> rfl
@[simp] theorem State.bump_ptpLocked (s : State) (k : CtrKind) (a b n : Nat) : (s.bump k a b n).ptpLocked = s.ptpLocked := by unfold State.bump; split <;> rfl
@[simp] theorem State.bump_pow (s : State) (k : CtrKind) (a b n : Nat) : (s.bump k a b n).pow = s.pow := by unfold State.bump; split <;> rfl
@[simp] theorem State.bump_flt (s : State) (k : CtrKind) (a b n : Nat) : (s.bump k a b n).flt = s.flt := by unfold State.bump; split <;> rfl
@[simp] theorem State.bump_wear (s : State) (k : CtrKind) (a b n : Nat) : (s.bump k a b n).wear = s.wear := by unfold State.bump; split <;> rfl
@[simp] theorem State.bump_nv (s : State) (k : CtrKind) (a b n : Nat) : (s.bump k a b n).nv = s.nv := by unfold State.bump; split <;> rfl
@[simp] theorem State.bump_eft (s : State) (k : CtrKind) (a b n : Nat) : (s.bump k a b n).eft = s.eft := by unfold State.bump; split <;> rfl
@[simp] theorem State.bump_octMode (s : State) (k : CtrKind) (a b n : Nat) : (s.bump k a b n).octMode = s.octMode := by unfold State.bump; split <;> rfl
@[simp] theorem State.bump_lanes (s : State) (k : CtrKind) (a b n : Nat) : (s.bump k a b n).lanes = s.lanes := by unfold State.bump; split <;> rfl
@[simp] theorem State.bump_ports (s : State) (k : CtrKind) (a b n : Nat) : (s.bump k a b n).ports = s.ports := by unfold State.bump; split <;> rfl
@[simp] theorem State.bump_hps (s : State) (k : CtrKind) (a b n : Nat) : (s.bump k a b n).hps = s.hps := by unfold State.bump; split <;> rfl
@[simp] theorem State.bump_fns (s : State) (k : CtrKind) (a b n : Nat) : (s.bump k a b n).fns = s.fns := by unfold State.bump; split <;> rfl
@[simp] theorem State.bump_unprov (s : State) (k : CtrKind) (a b n : Nat) : (s.bump k a b n).unprov = s.unprov := by unfold State.bump; split <;> rfl
@[simp] theorem State.bump_mbxs (s : State) (k : CtrKind) (a b n : Nat) : (s.bump k a b n).mbxs = s.mbxs := by unfold State.bump; split <;> rfl
@[simp] theorem State.bump_boardMbx (s : State) (k : CtrKind) (a b n : Nat) : (s.bump k a b n).boardMbx = s.boardMbx := by unfold State.bump; split <;> rfl
@[simp] theorem State.bump_allots (s : State) (k : CtrKind) (a b n : Nat) : (s.bump k a b n).allots = s.allots := by unfold State.bump; split <;> rfl
@[simp] theorem State.bump_wins (s : State) (k : CtrKind) (a b n : Nat) : (s.bump k a b n).wins = s.wins := by unfold State.bump; split <;> rfl
@[simp] theorem State.bump_exch (s : State) (k : CtrKind) (a b n : Nat) : (s.bump k a b n).exch = s.exch := by unfold State.bump; split <;> rfl
@[simp] theorem State.bump_region (s : State) (k : CtrKind) (a b n : Nat) : (s.bump k a b n).region = s.region := by unfold State.bump; split <;> rfl
@[simp] theorem State.bump_reads (s : State) (k : CtrKind) (a b n : Nat) : (s.bump k a b n).reads = s.reads := by unfold State.bump; split <;> rfl
@[simp] theorem State.bump_ghosts (s : State) (k : CtrKind) (a b n : Nat) : (s.bump k a b n).ghosts = s.ghosts := by unfold State.bump; split <;> rfl
@[simp] theorem State.bump_pkt (s : State) (k : CtrKind) (a b n : Nat) : (s.bump k a b n).pkt = s.pkt := by unfold State.bump; split <;> rfl
@[simp] theorem State.bump_sto (s : State) (k : CtrKind) (a b n : Nat) : (s.bump k a b n).sto = s.sto := by unfold State.bump; split <;> rfl
@[simp] theorem State.bump_cip (s : State) (k : CtrKind) (a b n : Nat) : (s.bump k a b n).cip = s.cip := by unfold State.bump; split <;> rfl
@[simp] theorem State.bump_skk (s : State) (k : CtrKind) (a b n : Nat) : (s.bump k a b n).skk = s.skk := by unfold State.bump; split <;> rfl
@[simp] theorem State.bump_meter (s : State) (k : CtrKind) (a b n : Nat) : (s.bump k a b n).meter = s.meter := by unfold State.bump; split <;> rfl
@[simp] theorem State.bump_migKey (s : State) (k : CtrKind) (a b n : Nat) : (s.bump k a b n).migKey = s.migKey := by unfold State.bump; split <;> rfl
@[simp] theorem State.bump_migSaves (s : State) (k : CtrKind) (a b n : Nat) : (s.bump k a b n).migSaves = s.migSaves := by unfold State.bump; split <;> rfl
@[simp] theorem State.bump_i3c (s : State) (k : CtrKind) (a b n : Nat) : (s.bump k a b n).i3c = s.i3c := by unfold State.bump; split <;> rfl
@[simp] theorem State.bump_chain (s : State) (k : CtrKind) (a b n : Nat) : (s.bump k a b n).chain = s.chain := by unfold State.bump; split <;> rfl
@[simp] theorem State.bump_dbg (s : State) (k : CtrKind) (a b n : Nat) : (s.bump k a b n).dbg = s.dbg := by unfold State.bump; split <;> rfl
@[simp] theorem State.bump_free (s : State) (k : CtrKind) (a b n : Nat) : (s.bump k a b n).free = s.free := by unfold State.bump; split <;> rfl
@[simp] theorem State.bump_out (s : State) (k : CtrKind) (a b n : Nat) : (s.bump k a b n).out = s.out := by unfold State.bump; split <;> rfl

/-! ### `modFn` -/

@[simp] theorem State.modFn_pending (s : State) (i : Nat) (f : Fn → Fn) : (s.modFn i f).pending = s.pending := by unfold State.modFn; split <;> rfl
@[simp] theorem State.modFn_phase (s : State) (i : Nat) (f : Fn → Fn) : (s.modFn i f).phase = s.phase := by unfold State.modFn; split <;> rfl
@[simp] theorem State.modFn_pins (s : State) (i : Nat) (f : Fn → Fn) : (s.modFn i f).pins = s.pins := by unfold State.modFn; split <;> rfl
@[simp] theorem State.modFn_time (s : State) (i : Nat) (f : Fn → Fn) : (s.modFn i f).time = s.time := by unfold State.modFn; split <;> rfl
@[simp] theorem State.modFn_tick (s : State) (i : Nat) (f : Fn → Fn) : (s.modFn i f).tick = s.tick := by unfold State.modFn; split <;> rfl
@[simp] theorem State.modFn_ppsLocked (s : State) (i : Nat) (f : Fn → Fn) : (s.modFn i f).ppsLocked = s.ppsLocked := by unfold State.modFn; split <;> rfl
@[simp] theorem State.modFn_ptpLocked (s : State) (i : Nat) (f : Fn → Fn) : (s.modFn i f).ptpLocked = s.ptpLocked := by unfold State.modFn; split <;> rfl
@[simp] theorem State.modFn_pow (s : State) (i : Nat) (f : Fn → Fn) : (s.modFn i f).pow = s.pow := by unfold State.modFn; split <;> rfl
@[simp] theorem State.modFn_flt (s : State) (i : Nat) (f : Fn → Fn) : (s.modFn i f).flt = s.flt := by unfold State.modFn; split <;> rfl
@[simp] theorem State.modFn_wear (s : State) (i : Nat) (f : Fn → Fn) : (s.modFn i f).wear = s.wear := by unfold State.modFn; split <;> rfl
@[simp] theorem State.modFn_nv (s : State) (i : Nat) (f : Fn → Fn) : (s.modFn i f).nv = s.nv := by unfold State.modFn; split <;> rfl
@[simp] theorem State.modFn_eft (s : State) (i : Nat) (f : Fn → Fn) : (s.modFn i f).eft = s.eft := by unfold State.modFn; split <;> rfl
@[simp] theorem State.modFn_octMode (s : State) (i : Nat) (f : Fn → Fn) : (s.modFn i f).octMode = s.octMode := by unfold State.modFn; split <;> rfl
@[simp] theorem State.modFn_lanes (s : State) (i : Nat) (f : Fn → Fn) : (s.modFn i f).lanes = s.lanes := by unfold State.modFn; split <;> rfl
@[simp] theorem State.modFn_ports (s : State) (i : Nat) (f : Fn → Fn) : (s.modFn i f).ports = s.ports := by unfold State.modFn; split <;> rfl
@[simp] theorem State.modFn_hps (s : State) (i : Nat) (f : Fn → Fn) : (s.modFn i f).hps = s.hps := by unfold State.modFn; split <;> rfl
@[simp] theorem State.modFn_unprov (s : State) (i : Nat) (f : Fn → Fn) : (s.modFn i f).unprov = s.unprov := by unfold State.modFn; split <;> rfl
@[simp] theorem State.modFn_mbxs (s : State) (i : Nat) (f : Fn → Fn) : (s.modFn i f).mbxs = s.mbxs := by unfold State.modFn; split <;> rfl
@[simp] theorem State.modFn_boardMbx (s : State) (i : Nat) (f : Fn → Fn) : (s.modFn i f).boardMbx = s.boardMbx := by unfold State.modFn; split <;> rfl
@[simp] theorem State.modFn_allots (s : State) (i : Nat) (f : Fn → Fn) : (s.modFn i f).allots = s.allots := by unfold State.modFn; split <;> rfl
@[simp] theorem State.modFn_wins (s : State) (i : Nat) (f : Fn → Fn) : (s.modFn i f).wins = s.wins := by unfold State.modFn; split <;> rfl
@[simp] theorem State.modFn_exch (s : State) (i : Nat) (f : Fn → Fn) : (s.modFn i f).exch = s.exch := by unfold State.modFn; split <;> rfl
@[simp] theorem State.modFn_region (s : State) (i : Nat) (f : Fn → Fn) : (s.modFn i f).region = s.region := by unfold State.modFn; split <;> rfl
@[simp] theorem State.modFn_reads (s : State) (i : Nat) (f : Fn → Fn) : (s.modFn i f).reads = s.reads := by unfold State.modFn; split <;> rfl
@[simp] theorem State.modFn_ghosts (s : State) (i : Nat) (f : Fn → Fn) : (s.modFn i f).ghosts = s.ghosts := by unfold State.modFn; split <;> rfl
@[simp] theorem State.modFn_pkt (s : State) (i : Nat) (f : Fn → Fn) : (s.modFn i f).pkt = s.pkt := by unfold State.modFn; split <;> rfl
@[simp] theorem State.modFn_sto (s : State) (i : Nat) (f : Fn → Fn) : (s.modFn i f).sto = s.sto := by unfold State.modFn; split <;> rfl
@[simp] theorem State.modFn_cip (s : State) (i : Nat) (f : Fn → Fn) : (s.modFn i f).cip = s.cip := by unfold State.modFn; split <;> rfl
@[simp] theorem State.modFn_skk (s : State) (i : Nat) (f : Fn → Fn) : (s.modFn i f).skk = s.skk := by unfold State.modFn; split <;> rfl
@[simp] theorem State.modFn_meter (s : State) (i : Nat) (f : Fn → Fn) : (s.modFn i f).meter = s.meter := by unfold State.modFn; split <;> rfl
@[simp] theorem State.modFn_migKey (s : State) (i : Nat) (f : Fn → Fn) : (s.modFn i f).migKey = s.migKey := by unfold State.modFn; split <;> rfl
@[simp] theorem State.modFn_migSaves (s : State) (i : Nat) (f : Fn → Fn) : (s.modFn i f).migSaves = s.migSaves := by unfold State.modFn; split <;> rfl
@[simp] theorem State.modFn_i3c (s : State) (i : Nat) (f : Fn → Fn) : (s.modFn i f).i3c = s.i3c := by unfold State.modFn; split <;> rfl
@[simp] theorem State.modFn_chain (s : State) (i : Nat) (f : Fn → Fn) : (s.modFn i f).chain = s.chain := by unfold State.modFn; split <;> rfl
@[simp] theorem State.modFn_dbg (s : State) (i : Nat) (f : Fn → Fn) : (s.modFn i f).dbg = s.dbg := by unfold State.modFn; split <;> rfl
@[simp] theorem State.modFn_ctr (s : State) (i : Nat) (f : Fn → Fn) : (s.modFn i f).ctr = s.ctr := by unfold State.modFn; split <;> rfl
@[simp] theorem State.modFn_free (s : State) (i : Nat) (f : Fn → Fn) : (s.modFn i f).free = s.free := by unfold State.modFn; split <;> rfl
@[simp] theorem State.modFn_out (s : State) (i : Nat) (f : Fn → Fn) : (s.modFn i f).out = s.out := by unfold State.modFn; split <;> rfl

/-! ### `modRing` -/

@[simp] theorem State.modRing_pending (s : State) (i r : Nat) (f : Ring → Ring) : (s.modRing i r f).pending = s.pending := by simp [State.modRing]
@[simp] theorem State.modRing_phase (s : State) (i r : Nat) (f : Ring → Ring) : (s.modRing i r f).phase = s.phase := by simp [State.modRing]
@[simp] theorem State.modRing_pins (s : State) (i r : Nat) (f : Ring → Ring) : (s.modRing i r f).pins = s.pins := by simp [State.modRing]
@[simp] theorem State.modRing_time (s : State) (i r : Nat) (f : Ring → Ring) : (s.modRing i r f).time = s.time := by simp [State.modRing]
@[simp] theorem State.modRing_tick (s : State) (i r : Nat) (f : Ring → Ring) : (s.modRing i r f).tick = s.tick := by simp [State.modRing]
@[simp] theorem State.modRing_ppsLocked (s : State) (i r : Nat) (f : Ring → Ring) : (s.modRing i r f).ppsLocked = s.ppsLocked := by simp [State.modRing]
@[simp] theorem State.modRing_ptpLocked (s : State) (i r : Nat) (f : Ring → Ring) : (s.modRing i r f).ptpLocked = s.ptpLocked := by simp [State.modRing]
@[simp] theorem State.modRing_pow (s : State) (i r : Nat) (f : Ring → Ring) : (s.modRing i r f).pow = s.pow := by simp [State.modRing]
@[simp] theorem State.modRing_flt (s : State) (i r : Nat) (f : Ring → Ring) : (s.modRing i r f).flt = s.flt := by simp [State.modRing]
@[simp] theorem State.modRing_wear (s : State) (i r : Nat) (f : Ring → Ring) : (s.modRing i r f).wear = s.wear := by simp [State.modRing]
@[simp] theorem State.modRing_nv (s : State) (i r : Nat) (f : Ring → Ring) : (s.modRing i r f).nv = s.nv := by simp [State.modRing]
@[simp] theorem State.modRing_eft (s : State) (i r : Nat) (f : Ring → Ring) : (s.modRing i r f).eft = s.eft := by simp [State.modRing]
@[simp] theorem State.modRing_octMode (s : State) (i r : Nat) (f : Ring → Ring) : (s.modRing i r f).octMode = s.octMode := by simp [State.modRing]
@[simp] theorem State.modRing_lanes (s : State) (i r : Nat) (f : Ring → Ring) : (s.modRing i r f).lanes = s.lanes := by simp [State.modRing]
@[simp] theorem State.modRing_ports (s : State) (i r : Nat) (f : Ring → Ring) : (s.modRing i r f).ports = s.ports := by simp [State.modRing]
@[simp] theorem State.modRing_hps (s : State) (i r : Nat) (f : Ring → Ring) : (s.modRing i r f).hps = s.hps := by simp [State.modRing]
@[simp] theorem State.modRing_unprov (s : State) (i r : Nat) (f : Ring → Ring) : (s.modRing i r f).unprov = s.unprov := by simp [State.modRing]
@[simp] theorem State.modRing_mbxs (s : State) (i r : Nat) (f : Ring → Ring) : (s.modRing i r f).mbxs = s.mbxs := by simp [State.modRing]
@[simp] theorem State.modRing_boardMbx (s : State) (i r : Nat) (f : Ring → Ring) : (s.modRing i r f).boardMbx = s.boardMbx := by simp [State.modRing]
@[simp] theorem State.modRing_allots (s : State) (i r : Nat) (f : Ring → Ring) : (s.modRing i r f).allots = s.allots := by simp [State.modRing]
@[simp] theorem State.modRing_wins (s : State) (i r : Nat) (f : Ring → Ring) : (s.modRing i r f).wins = s.wins := by simp [State.modRing]
@[simp] theorem State.modRing_exch (s : State) (i r : Nat) (f : Ring → Ring) : (s.modRing i r f).exch = s.exch := by simp [State.modRing]
@[simp] theorem State.modRing_region (s : State) (i r : Nat) (f : Ring → Ring) : (s.modRing i r f).region = s.region := by simp [State.modRing]
@[simp] theorem State.modRing_reads (s : State) (i r : Nat) (f : Ring → Ring) : (s.modRing i r f).reads = s.reads := by simp [State.modRing]
@[simp] theorem State.modRing_ghosts (s : State) (i r : Nat) (f : Ring → Ring) : (s.modRing i r f).ghosts = s.ghosts := by simp [State.modRing]
@[simp] theorem State.modRing_pkt (s : State) (i r : Nat) (f : Ring → Ring) : (s.modRing i r f).pkt = s.pkt := by simp [State.modRing]
@[simp] theorem State.modRing_sto (s : State) (i r : Nat) (f : Ring → Ring) : (s.modRing i r f).sto = s.sto := by simp [State.modRing]
@[simp] theorem State.modRing_cip (s : State) (i r : Nat) (f : Ring → Ring) : (s.modRing i r f).cip = s.cip := by simp [State.modRing]
@[simp] theorem State.modRing_skk (s : State) (i r : Nat) (f : Ring → Ring) : (s.modRing i r f).skk = s.skk := by simp [State.modRing]
@[simp] theorem State.modRing_meter (s : State) (i r : Nat) (f : Ring → Ring) : (s.modRing i r f).meter = s.meter := by simp [State.modRing]
@[simp] theorem State.modRing_migKey (s : State) (i r : Nat) (f : Ring → Ring) : (s.modRing i r f).migKey = s.migKey := by simp [State.modRing]
@[simp] theorem State.modRing_migSaves (s : State) (i r : Nat) (f : Ring → Ring) : (s.modRing i r f).migSaves = s.migSaves := by simp [State.modRing]
@[simp] theorem State.modRing_i3c (s : State) (i r : Nat) (f : Ring → Ring) : (s.modRing i r f).i3c = s.i3c := by simp [State.modRing]
@[simp] theorem State.modRing_chain (s : State) (i r : Nat) (f : Ring → Ring) : (s.modRing i r f).chain = s.chain := by simp [State.modRing]
@[simp] theorem State.modRing_dbg (s : State) (i r : Nat) (f : Ring → Ring) : (s.modRing i r f).dbg = s.dbg := by simp [State.modRing]
@[simp] theorem State.modRing_ctr (s : State) (i r : Nat) (f : Ring → Ring) : (s.modRing i r f).ctr = s.ctr := by simp [State.modRing]
@[simp] theorem State.modRing_free (s : State) (i r : Nat) (f : Ring → Ring) : (s.modRing i r f).free = s.free := by simp [State.modRing]
@[simp] theorem State.modRing_out (s : State) (i r : Nat) (f : Ring → Ring) : (s.modRing i r f).out = s.out := by simp [State.modRing]

/-! ### `modMbx` -/

@[simp] theorem State.modMbx_pending (s : State) (m : MbxId) (f : Mailbox → Mailbox) : (s.modMbx m f).pending = s.pending := by cases m <;> rfl
@[simp] theorem State.modMbx_phase (s : State) (m : MbxId) (f : Mailbox → Mailbox) : (s.modMbx m f).phase = s.phase := by cases m <;> rfl
@[simp] theorem State.modMbx_pins (s : State) (m : MbxId) (f : Mailbox → Mailbox) : (s.modMbx m f).pins = s.pins := by cases m <;> rfl
@[simp] theorem State.modMbx_time (s : State) (m : MbxId) (f : Mailbox → Mailbox) : (s.modMbx m f).time = s.time := by cases m <;> rfl
@[simp] theorem State.modMbx_tick (s : State) (m : MbxId) (f : Mailbox → Mailbox) : (s.modMbx m f).tick = s.tick := by cases m <;> rfl
@[simp] theorem State.modMbx_ppsLocked (s : State) (m : MbxId) (f : Mailbox → Mailbox) : (s.modMbx m f).ppsLocked = s.ppsLocked := by cases m <;> rfl
@[simp] theorem State.modMbx_ptpLocked (s : State) (m : MbxId) (f : Mailbox → Mailbox) : (s.modMbx m f).ptpLocked = s.ptpLocked := by cases m <;> rfl
@[simp] theorem State.modMbx_pow (s : State) (m : MbxId) (f : Mailbox → Mailbox) : (s.modMbx m f).pow = s.pow := by cases m <;> rfl
@[simp] theorem State.modMbx_flt (s : State) (m : MbxId) (f : Mailbox → Mailbox) : (s.modMbx m f).flt = s.flt := by cases m <;> rfl
@[simp] theorem State.modMbx_wear (s : State) (m : MbxId) (f : Mailbox → Mailbox) : (s.modMbx m f).wear = s.wear := by cases m <;> rfl
@[simp] theorem State.modMbx_nv (s : State) (m : MbxId) (f : Mailbox → Mailbox) : (s.modMbx m f).nv = s.nv := by cases m <;> rfl
@[simp] theorem State.modMbx_eft (s : State) (m : MbxId) (f : Mailbox → Mailbox) : (s.modMbx m f).eft = s.eft := by cases m <;> rfl
@[simp] theorem State.modMbx_octMode (s : State) (m : MbxId) (f : Mailbox → Mailbox) : (s.modMbx m f).octMode = s.octMode := by cases m <;> rfl
@[simp] theorem State.modMbx_lanes (s : State) (m : MbxId) (f : Mailbox → Mailbox) : (s.modMbx m f).lanes = s.lanes := by cases m <;> rfl
@[simp] theorem State.modMbx_ports (s : State) (m : MbxId) (f : Mailbox → Mailbox) : (s.modMbx m f).ports = s.ports := by cases m <;> rfl
@[simp] theorem State.modMbx_hps (s : State) (m : MbxId) (f : Mailbox → Mailbox) : (s.modMbx m f).hps = s.hps := by cases m <;> rfl
@[simp] theorem State.modMbx_fns (s : State) (m : MbxId) (f : Mailbox → Mailbox) : (s.modMbx m f).fns = s.fns := by cases m <;> rfl
@[simp] theorem State.modMbx_unprov (s : State) (m : MbxId) (f : Mailbox → Mailbox) : (s.modMbx m f).unprov = s.unprov := by cases m <;> rfl
@[simp] theorem State.modMbx_allots (s : State) (m : MbxId) (f : Mailbox → Mailbox) : (s.modMbx m f).allots = s.allots := by cases m <;> rfl
@[simp] theorem State.modMbx_wins (s : State) (m : MbxId) (f : Mailbox → Mailbox) : (s.modMbx m f).wins = s.wins := by cases m <;> rfl
@[simp] theorem State.modMbx_exch (s : State) (m : MbxId) (f : Mailbox → Mailbox) : (s.modMbx m f).exch = s.exch := by cases m <;> rfl
@[simp] theorem State.modMbx_region (s : State) (m : MbxId) (f : Mailbox → Mailbox) : (s.modMbx m f).region = s.region := by cases m <;> rfl
@[simp] theorem State.modMbx_reads (s : State) (m : MbxId) (f : Mailbox → Mailbox) : (s.modMbx m f).reads = s.reads := by cases m <;> rfl
@[simp] theorem State.modMbx_ghosts (s : State) (m : MbxId) (f : Mailbox → Mailbox) : (s.modMbx m f).ghosts = s.ghosts := by cases m <;> rfl
@[simp] theorem State.modMbx_pkt (s : State) (m : MbxId) (f : Mailbox → Mailbox) : (s.modMbx m f).pkt = s.pkt := by cases m <;> rfl
@[simp] theorem State.modMbx_sto (s : State) (m : MbxId) (f : Mailbox → Mailbox) : (s.modMbx m f).sto = s.sto := by cases m <;> rfl
@[simp] theorem State.modMbx_cip (s : State) (m : MbxId) (f : Mailbox → Mailbox) : (s.modMbx m f).cip = s.cip := by cases m <;> rfl
@[simp] theorem State.modMbx_skk (s : State) (m : MbxId) (f : Mailbox → Mailbox) : (s.modMbx m f).skk = s.skk := by cases m <;> rfl
@[simp] theorem State.modMbx_meter (s : State) (m : MbxId) (f : Mailbox → Mailbox) : (s.modMbx m f).meter = s.meter := by cases m <;> rfl
@[simp] theorem State.modMbx_migKey (s : State) (m : MbxId) (f : Mailbox → Mailbox) : (s.modMbx m f).migKey = s.migKey := by cases m <;> rfl
@[simp] theorem State.modMbx_migSaves (s : State) (m : MbxId) (f : Mailbox → Mailbox) : (s.modMbx m f).migSaves = s.migSaves := by cases m <;> rfl
@[simp] theorem State.modMbx_i3c (s : State) (m : MbxId) (f : Mailbox → Mailbox) : (s.modMbx m f).i3c = s.i3c := by cases m <;> rfl
@[simp] theorem State.modMbx_chain (s : State) (m : MbxId) (f : Mailbox → Mailbox) : (s.modMbx m f).chain = s.chain := by cases m <;> rfl
@[simp] theorem State.modMbx_dbg (s : State) (m : MbxId) (f : Mailbox → Mailbox) : (s.modMbx m f).dbg = s.dbg := by cases m <;> rfl
@[simp] theorem State.modMbx_ctr (s : State) (m : MbxId) (f : Mailbox → Mailbox) : (s.modMbx m f).ctr = s.ctr := by cases m <;> rfl
@[simp] theorem State.modMbx_free (s : State) (m : MbxId) (f : Mailbox → Mailbox) : (s.modMbx m f).free = s.free := by cases m <;> rfl
@[simp] theorem State.modMbx_out (s : State) (m : MbxId) (f : Mailbox → Mailbox) : (s.modMbx m f).out = s.out := by cases m <;> rfl

/-! ### `wakeLink` -/

@[simp] theorem State.wakeLink_pending (s : State) (n : Nat) : (s.wakeLink n).pending = s.pending := by unfold State.wakeLink; split <;> rfl
@[simp] theorem State.wakeLink_phase (s : State) (n : Nat) : (s.wakeLink n).phase = s.phase := by unfold State.wakeLink; split <;> rfl
@[simp] theorem State.wakeLink_pins (s : State) (n : Nat) : (s.wakeLink n).pins = s.pins := by unfold State.wakeLink; split <;> rfl
@[simp] theorem State.wakeLink_time (s : State) (n : Nat) : (s.wakeLink n).time = s.time := by unfold State.wakeLink; split <;> rfl
@[simp] theorem State.wakeLink_tick (s : State) (n : Nat) : (s.wakeLink n).tick = s.tick := by unfold State.wakeLink; split <;> rfl
@[simp] theorem State.wakeLink_ppsLocked (s : State) (n : Nat) : (s.wakeLink n).ppsLocked = s.ppsLocked := by unfold State.wakeLink; split <;> rfl
@[simp] theorem State.wakeLink_ptpLocked (s : State) (n : Nat) : (s.wakeLink n).ptpLocked = s.ptpLocked := by unfold State.wakeLink; split <;> rfl
@[simp] theorem State.wakeLink_pow (s : State) (n : Nat) : (s.wakeLink n).pow = s.pow := by unfold State.wakeLink; split <;> rfl
@[simp] theorem State.wakeLink_flt (s : State) (n : Nat) : (s.wakeLink n).flt = s.flt := by unfold State.wakeLink; split <;> rfl
@[simp] theorem State.wakeLink_wear (s : State) (n : Nat) : (s.wakeLink n).wear = s.wear := by unfold State.wakeLink; split <;> rfl
@[simp] theorem State.wakeLink_nv (s : State) (n : Nat) : (s.wakeLink n).nv = s.nv := by unfold State.wakeLink; split <;> rfl
@[simp] theorem State.wakeLink_eft (s : State) (n : Nat) : (s.wakeLink n).eft = s.eft := by unfold State.wakeLink; split <;> rfl
@[simp] theorem State.wakeLink_octMode (s : State) (n : Nat) : (s.wakeLink n).octMode = s.octMode := by unfold State.wakeLink; split <;> rfl
@[simp] theorem State.wakeLink_lanes (s : State) (n : Nat) : (s.wakeLink n).lanes = s.lanes := by unfold State.wakeLink; split <;> rfl
@[simp] theorem State.wakeLink_ports (s : State) (n : Nat) : (s.wakeLink n).ports = s.ports := by unfold State.wakeLink; split <;> rfl
@[simp] theorem State.wakeLink_fns (s : State) (n : Nat) : (s.wakeLink n).fns = s.fns := by unfold State.wakeLink; split <;> rfl
@[simp] theorem State.wakeLink_unprov (s : State) (n : Nat) : (s.wakeLink n).unprov = s.unprov := by unfold State.wakeLink; split <;> rfl
@[simp] theorem State.wakeLink_mbxs (s : State) (n : Nat) : (s.wakeLink n).mbxs = s.mbxs := by unfold State.wakeLink; split <;> rfl
@[simp] theorem State.wakeLink_boardMbx (s : State) (n : Nat) : (s.wakeLink n).boardMbx = s.boardMbx := by unfold State.wakeLink; split <;> rfl
@[simp] theorem State.wakeLink_allots (s : State) (n : Nat) : (s.wakeLink n).allots = s.allots := by unfold State.wakeLink; split <;> rfl
@[simp] theorem State.wakeLink_wins (s : State) (n : Nat) : (s.wakeLink n).wins = s.wins := by unfold State.wakeLink; split <;> rfl
@[simp] theorem State.wakeLink_exch (s : State) (n : Nat) : (s.wakeLink n).exch = s.exch := by unfold State.wakeLink; split <;> rfl
@[simp] theorem State.wakeLink_region (s : State) (n : Nat) : (s.wakeLink n).region = s.region := by unfold State.wakeLink; split <;> rfl
@[simp] theorem State.wakeLink_reads (s : State) (n : Nat) : (s.wakeLink n).reads = s.reads := by unfold State.wakeLink; split <;> rfl
@[simp] theorem State.wakeLink_ghosts (s : State) (n : Nat) : (s.wakeLink n).ghosts = s.ghosts := by unfold State.wakeLink; split <;> rfl
@[simp] theorem State.wakeLink_pkt (s : State) (n : Nat) : (s.wakeLink n).pkt = s.pkt := by unfold State.wakeLink; split <;> rfl
@[simp] theorem State.wakeLink_sto (s : State) (n : Nat) : (s.wakeLink n).sto = s.sto := by unfold State.wakeLink; split <;> rfl
@[simp] theorem State.wakeLink_cip (s : State) (n : Nat) : (s.wakeLink n).cip = s.cip := by unfold State.wakeLink; split <;> rfl
@[simp] theorem State.wakeLink_skk (s : State) (n : Nat) : (s.wakeLink n).skk = s.skk := by unfold State.wakeLink; split <;> rfl
@[simp] theorem State.wakeLink_meter (s : State) (n : Nat) : (s.wakeLink n).meter = s.meter := by unfold State.wakeLink; split <;> rfl
@[simp] theorem State.wakeLink_migKey (s : State) (n : Nat) : (s.wakeLink n).migKey = s.migKey := by unfold State.wakeLink; split <;> rfl
@[simp] theorem State.wakeLink_migSaves (s : State) (n : Nat) : (s.wakeLink n).migSaves = s.migSaves := by unfold State.wakeLink; split <;> rfl
@[simp] theorem State.wakeLink_i3c (s : State) (n : Nat) : (s.wakeLink n).i3c = s.i3c := by unfold State.wakeLink; split <;> rfl
@[simp] theorem State.wakeLink_chain (s : State) (n : Nat) : (s.wakeLink n).chain = s.chain := by unfold State.wakeLink; split <;> rfl
@[simp] theorem State.wakeLink_dbg (s : State) (n : Nat) : (s.wakeLink n).dbg = s.dbg := by unfold State.wakeLink; split <;> rfl
@[simp] theorem State.wakeLink_ctr (s : State) (n : Nat) : (s.wakeLink n).ctr = s.ctr := by unfold State.wakeLink; split <;> rfl
@[simp] theorem State.wakeLink_free (s : State) (n : Nat) : (s.wakeLink n).free = s.free := by unfold State.wakeLink; split <;> rfl
@[simp] theorem State.wakeLink_out (s : State) (n : Nat) : (s.wakeLink n).out = s.out := by unfold State.wakeLink; split <;> rfl

/-! ### `setDom` -/

@[simp] theorem State.setDom_pending (s : State) (d : Dom) (r : DomRec) : (s.setDom d r).pending = s.pending := rfl
@[simp] theorem State.setDom_phase (s : State) (d : Dom) (r : DomRec) : (s.setDom d r).phase = s.phase := rfl
@[simp] theorem State.setDom_pins (s : State) (d : Dom) (r : DomRec) : (s.setDom d r).pins = s.pins := rfl
@[simp] theorem State.setDom_time (s : State) (d : Dom) (r : DomRec) : (s.setDom d r).time = s.time := rfl
@[simp] theorem State.setDom_tick (s : State) (d : Dom) (r : DomRec) : (s.setDom d r).tick = s.tick := rfl
@[simp] theorem State.setDom_ppsLocked (s : State) (d : Dom) (r : DomRec) : (s.setDom d r).ppsLocked = s.ppsLocked := rfl
@[simp] theorem State.setDom_ptpLocked (s : State) (d : Dom) (r : DomRec) : (s.setDom d r).ptpLocked = s.ptpLocked := rfl
@[simp] theorem State.setDom_pow (s : State) (d : Dom) (r : DomRec) : (s.setDom d r).pow = s.pow := rfl
@[simp] theorem State.setDom_wear (s : State) (d : Dom) (r : DomRec) : (s.setDom d r).wear = s.wear := rfl
@[simp] theorem State.setDom_nv (s : State) (d : Dom) (r : DomRec) : (s.setDom d r).nv = s.nv := rfl
@[simp] theorem State.setDom_eft (s : State) (d : Dom) (r : DomRec) : (s.setDom d r).eft = s.eft := rfl
@[simp] theorem State.setDom_octMode (s : State) (d : Dom) (r : DomRec) : (s.setDom d r).octMode = s.octMode := rfl
@[simp] theorem State.setDom_lanes (s : State) (d : Dom) (r : DomRec) : (s.setDom d r).lanes = s.lanes := rfl
@[simp] theorem State.setDom_ports (s : State) (d : Dom) (r : DomRec) : (s.setDom d r).ports = s.ports := rfl
@[simp] theorem State.setDom_hps (s : State) (d : Dom) (r : DomRec) : (s.setDom d r).hps = s.hps := rfl
@[simp] theorem State.setDom_fns (s : State) (d : Dom) (r : DomRec) : (s.setDom d r).fns = s.fns := rfl
@[simp] theorem State.setDom_unprov (s : State) (d : Dom) (r : DomRec) : (s.setDom d r).unprov = s.unprov := rfl
@[simp] theorem State.setDom_mbxs (s : State) (d : Dom) (r : DomRec) : (s.setDom d r).mbxs = s.mbxs := rfl
@[simp] theorem State.setDom_boardMbx (s : State) (d : Dom) (r : DomRec) : (s.setDom d r).boardMbx = s.boardMbx := rfl
@[simp] theorem State.setDom_allots (s : State) (d : Dom) (r : DomRec) : (s.setDom d r).allots = s.allots := rfl
@[simp] theorem State.setDom_wins (s : State) (d : Dom) (r : DomRec) : (s.setDom d r).wins = s.wins := rfl
@[simp] theorem State.setDom_exch (s : State) (d : Dom) (r : DomRec) : (s.setDom d r).exch = s.exch := rfl
@[simp] theorem State.setDom_region (s : State) (d : Dom) (r : DomRec) : (s.setDom d r).region = s.region := rfl
@[simp] theorem State.setDom_reads (s : State) (d : Dom) (r : DomRec) : (s.setDom d r).reads = s.reads := rfl
@[simp] theorem State.setDom_ghosts (s : State) (d : Dom) (r : DomRec) : (s.setDom d r).ghosts = s.ghosts := rfl
@[simp] theorem State.setDom_pkt (s : State) (d : Dom) (r : DomRec) : (s.setDom d r).pkt = s.pkt := rfl
@[simp] theorem State.setDom_sto (s : State) (d : Dom) (r : DomRec) : (s.setDom d r).sto = s.sto := rfl
@[simp] theorem State.setDom_cip (s : State) (d : Dom) (r : DomRec) : (s.setDom d r).cip = s.cip := rfl
@[simp] theorem State.setDom_skk (s : State) (d : Dom) (r : DomRec) : (s.setDom d r).skk = s.skk := rfl
@[simp] theorem State.setDom_meter (s : State) (d : Dom) (r : DomRec) : (s.setDom d r).meter = s.meter := rfl
@[simp] theorem State.setDom_migKey (s : State) (d : Dom) (r : DomRec) : (s.setDom d r).migKey = s.migKey := rfl
@[simp] theorem State.setDom_migSaves (s : State) (d : Dom) (r : DomRec) : (s.setDom d r).migSaves = s.migSaves := rfl
@[simp] theorem State.setDom_i3c (s : State) (d : Dom) (r : DomRec) : (s.setDom d r).i3c = s.i3c := rfl
@[simp] theorem State.setDom_chain (s : State) (d : Dom) (r : DomRec) : (s.setDom d r).chain = s.chain := rfl
@[simp] theorem State.setDom_dbg (s : State) (d : Dom) (r : DomRec) : (s.setDom d r).dbg = s.dbg := rfl
@[simp] theorem State.setDom_ctr (s : State) (d : Dom) (r : DomRec) : (s.setDom d r).ctr = s.ctr := rfl
@[simp] theorem State.setDom_free (s : State) (d : Dom) (r : DomRec) : (s.setDom d r).free = s.free := rfl
@[simp] theorem State.setDom_out (s : State) (d : Dom) (r : DomRec) : (s.setDom d r).out = s.out := rfl

/-! ### `updFaultN` -/

@[simp] theorem State.updFaultN_pending (s : State) : (s.updFaultN).pending = s.pending := rfl
@[simp] theorem State.updFaultN_phase (s : State) : (s.updFaultN).phase = s.phase := rfl
@[simp] theorem State.updFaultN_time (s : State) : (s.updFaultN).time = s.time := rfl
@[simp] theorem State.updFaultN_tick (s : State) : (s.updFaultN).tick = s.tick := rfl
@[simp] theorem State.updFaultN_ppsLocked (s : State) : (s.updFaultN).ppsLocked = s.ppsLocked := rfl
@[simp] theorem State.updFaultN_ptpLocked (s : State) : (s.updFaultN).ptpLocked = s.ptpLocked := rfl
@[simp] theorem State.updFaultN_pow (s : State) : (s.updFaultN).pow = s.pow := rfl
@[simp] theorem State.updFaultN_flt (s : State) : (s.updFaultN).flt = s.flt := rfl
@[simp] theorem State.updFaultN_wear (s : State) : (s.updFaultN).wear = s.wear := rfl
@[simp] theorem State.updFaultN_nv (s : State) : (s.updFaultN).nv = s.nv := rfl
@[simp] theorem State.updFaultN_eft (s : State) : (s.updFaultN).eft = s.eft := rfl
@[simp] theorem State.updFaultN_octMode (s : State) : (s.updFaultN).octMode = s.octMode := rfl
@[simp] theorem State.updFaultN_lanes (s : State) : (s.updFaultN).lanes = s.lanes := rfl
@[simp] theorem State.updFaultN_ports (s : State) : (s.updFaultN).ports = s.ports := rfl
@[simp] theorem State.updFaultN_hps (s : State) : (s.updFaultN).hps = s.hps := rfl
@[simp] theorem State.updFaultN_fns (s : State) : (s.updFaultN).fns = s.fns := rfl
@[simp] theorem State.updFaultN_unprov (s : State) : (s.updFaultN).unprov = s.unprov := rfl
@[simp] theorem State.updFaultN_mbxs (s : State) : (s.updFaultN).mbxs = s.mbxs := rfl
@[simp] theorem State.updFaultN_boardMbx (s : State) : (s.updFaultN).boardMbx = s.boardMbx := rfl
@[simp] theorem State.updFaultN_allots (s : State) : (s.updFaultN).allots = s.allots := rfl
@[simp] theorem State.updFaultN_wins (s : State) : (s.updFaultN).wins = s.wins := rfl
@[simp] theorem State.updFaultN_exch (s : State) : (s.updFaultN).exch = s.exch := rfl
@[simp] theorem State.updFaultN_region (s : State) : (s.updFaultN).region = s.region := rfl
@[simp] theorem State.updFaultN_reads (s : State) : (s.updFaultN).reads = s.reads := rfl
@[simp] theorem State.updFaultN_ghosts (s : State) : (s.updFaultN).ghosts = s.ghosts := rfl
@[simp] theorem State.updFaultN_pkt (s : State) : (s.updFaultN).pkt = s.pkt := rfl
@[simp] theorem State.updFaultN_sto (s : State) : (s.updFaultN).sto = s.sto := rfl
@[simp] theorem State.updFaultN_cip (s : State) : (s.updFaultN).cip = s.cip := rfl
@[simp] theorem State.updFaultN_skk (s : State) : (s.updFaultN).skk = s.skk := rfl
@[simp] theorem State.updFaultN_meter (s : State) : (s.updFaultN).meter = s.meter := rfl
@[simp] theorem State.updFaultN_migKey (s : State) : (s.updFaultN).migKey = s.migKey := rfl
@[simp] theorem State.updFaultN_migSaves (s : State) : (s.updFaultN).migSaves = s.migSaves := rfl
@[simp] theorem State.updFaultN_i3c (s : State) : (s.updFaultN).i3c = s.i3c := rfl
@[simp] theorem State.updFaultN_chain (s : State) : (s.updFaultN).chain = s.chain := rfl
@[simp] theorem State.updFaultN_dbg (s : State) : (s.updFaultN).dbg = s.dbg := rfl
@[simp] theorem State.updFaultN_ctr (s : State) : (s.updFaultN).ctr = s.ctr := rfl
@[simp] theorem State.updFaultN_free (s : State) : (s.updFaultN).free = s.free := rfl
@[simp] theorem State.updFaultN_out (s : State) : (s.updFaultN).out = s.out := rfl

/-! ### `modPart` -/

@[simp] theorem State.modPart_pending (s : State) (p : Nat) (f : Part → Part) : (s.modPart p f).pending = s.pending := by unfold State.modPart; split <;> rfl
@[simp] theorem State.modPart_phase (s : State) (p : Nat) (f : Part → Part) : (s.modPart p f).phase = s.phase := by unfold State.modPart; split <;> rfl
@[simp] theorem State.modPart_pins (s : State) (p : Nat) (f : Part → Part) : (s.modPart p f).pins = s.pins := by unfold State.modPart; split <;> rfl
@[simp] theorem State.modPart_time (s : State) (p : Nat) (f : Part → Part) : (s.modPart p f).time = s.time := by unfold State.modPart; split <;> rfl
@[simp] theorem State.modPart_tick (s : State) (p : Nat) (f : Part → Part) : (s.modPart p f).tick = s.tick := by unfold State.modPart; split <;> rfl
@[simp] theorem State.modPart_ppsLocked (s : State) (p : Nat) (f : Part → Part) : (s.modPart p f).ppsLocked = s.ppsLocked := by unfold State.modPart; split <;> rfl
@[simp] theorem State.modPart_ptpLocked (s : State) (p : Nat) (f : Part → Part) : (s.modPart p f).ptpLocked = s.ptpLocked := by unfold State.modPart; split <;> rfl
@[simp] theorem State.modPart_pow (s : State) (p : Nat) (f : Part → Part) : (s.modPart p f).pow = s.pow := by unfold State.modPart; split <;> rfl
@[simp] theorem State.modPart_flt (s : State) (p : Nat) (f : Part → Part) : (s.modPart p f).flt = s.flt := by unfold State.modPart; split <;> rfl
@[simp] theorem State.modPart_wear (s : State) (p : Nat) (f : Part → Part) : (s.modPart p f).wear = s.wear := by unfold State.modPart; split <;> rfl
@[simp] theorem State.modPart_nv (s : State) (p : Nat) (f : Part → Part) : (s.modPart p f).nv = s.nv := by unfold State.modPart; split <;> rfl
@[simp] theorem State.modPart_eft (s : State) (p : Nat) (f : Part → Part) : (s.modPart p f).eft = s.eft := by unfold State.modPart; split <;> rfl
@[simp] theorem State.modPart_octMode (s : State) (p : Nat) (f : Part → Part) : (s.modPart p f).octMode = s.octMode := by unfold State.modPart; split <;> rfl
@[simp] theorem State.modPart_lanes (s : State) (p : Nat) (f : Part → Part) : (s.modPart p f).lanes = s.lanes := by unfold State.modPart; split <;> rfl
@[simp] theorem State.modPart_ports (s : State) (p : Nat) (f : Part → Part) : (s.modPart p f).ports = s.ports := by unfold State.modPart; split <;> rfl
@[simp] theorem State.modPart_hps (s : State) (p : Nat) (f : Part → Part) : (s.modPart p f).hps = s.hps := by unfold State.modPart; split <;> rfl
@[simp] theorem State.modPart_fns (s : State) (p : Nat) (f : Part → Part) : (s.modPart p f).fns = s.fns := by unfold State.modPart; split <;> rfl
@[simp] theorem State.modPart_unprov (s : State) (p : Nat) (f : Part → Part) : (s.modPart p f).unprov = s.unprov := by unfold State.modPart; split <;> rfl
@[simp] theorem State.modPart_mbxs (s : State) (p : Nat) (f : Part → Part) : (s.modPart p f).mbxs = s.mbxs := by unfold State.modPart; split <;> rfl
@[simp] theorem State.modPart_boardMbx (s : State) (p : Nat) (f : Part → Part) : (s.modPart p f).boardMbx = s.boardMbx := by unfold State.modPart; split <;> rfl
@[simp] theorem State.modPart_allots (s : State) (p : Nat) (f : Part → Part) : (s.modPart p f).allots = s.allots := by unfold State.modPart; split <;> rfl
@[simp] theorem State.modPart_wins (s : State) (p : Nat) (f : Part → Part) : (s.modPart p f).wins = s.wins := by unfold State.modPart; split <;> rfl
@[simp] theorem State.modPart_exch (s : State) (p : Nat) (f : Part → Part) : (s.modPart p f).exch = s.exch := by unfold State.modPart; split <;> rfl
@[simp] theorem State.modPart_region (s : State) (p : Nat) (f : Part → Part) : (s.modPart p f).region = s.region := by unfold State.modPart; split <;> rfl
@[simp] theorem State.modPart_reads (s : State) (p : Nat) (f : Part → Part) : (s.modPart p f).reads = s.reads := by unfold State.modPart; split <;> rfl
@[simp] theorem State.modPart_ghosts (s : State) (p : Nat) (f : Part → Part) : (s.modPart p f).ghosts = s.ghosts := by unfold State.modPart; split <;> rfl
@[simp] theorem State.modPart_pkt (s : State) (p : Nat) (f : Part → Part) : (s.modPart p f).pkt = s.pkt := by unfold State.modPart; split <;> rfl
@[simp] theorem State.modPart_sto (s : State) (p : Nat) (f : Part → Part) : (s.modPart p f).sto = s.sto := by unfold State.modPart; split <;> rfl
@[simp] theorem State.modPart_cip (s : State) (p : Nat) (f : Part → Part) : (s.modPart p f).cip = s.cip := by unfold State.modPart; split <;> rfl
@[simp] theorem State.modPart_meter (s : State) (p : Nat) (f : Part → Part) : (s.modPart p f).meter = s.meter := by unfold State.modPart; split <;> rfl
@[simp] theorem State.modPart_migKey (s : State) (p : Nat) (f : Part → Part) : (s.modPart p f).migKey = s.migKey := by unfold State.modPart; split <;> rfl
@[simp] theorem State.modPart_migSaves (s : State) (p : Nat) (f : Part → Part) : (s.modPart p f).migSaves = s.migSaves := by unfold State.modPart; split <;> rfl
@[simp] theorem State.modPart_i3c (s : State) (p : Nat) (f : Part → Part) : (s.modPart p f).i3c = s.i3c := by unfold State.modPart; split <;> rfl
@[simp] theorem State.modPart_chain (s : State) (p : Nat) (f : Part → Part) : (s.modPart p f).chain = s.chain := by unfold State.modPart; split <;> rfl
@[simp] theorem State.modPart_dbg (s : State) (p : Nat) (f : Part → Part) : (s.modPart p f).dbg = s.dbg := by unfold State.modPart; split <;> rfl
@[simp] theorem State.modPart_ctr (s : State) (p : Nat) (f : Part → Part) : (s.modPart p f).ctr = s.ctr := by unfold State.modPart; split <;> rfl
@[simp] theorem State.modPart_free (s : State) (p : Nat) (f : Part → Part) : (s.modPart p f).free = s.free := by unfold State.modPart; split <;> rfl
@[simp] theorem State.modPart_out (s : State) (p : Nat) (f : Part → Part) : (s.modPart p f).out = s.out := by unfold State.modPart; split <;> rfl

/-! ### `modThread` -/

@[simp] theorem State.modThread_pending (s : State) (t : Nat) (f : Thread → Thread) : (s.modThread t f).pending = s.pending := rfl
@[simp] theorem State.modThread_phase (s : State) (t : Nat) (f : Thread → Thread) : (s.modThread t f).phase = s.phase := rfl
@[simp] theorem State.modThread_pins (s : State) (t : Nat) (f : Thread → Thread) : (s.modThread t f).pins = s.pins := rfl
@[simp] theorem State.modThread_time (s : State) (t : Nat) (f : Thread → Thread) : (s.modThread t f).time = s.time := rfl
@[simp] theorem State.modThread_tick (s : State) (t : Nat) (f : Thread → Thread) : (s.modThread t f).tick = s.tick := rfl
@[simp] theorem State.modThread_ppsLocked (s : State) (t : Nat) (f : Thread → Thread) : (s.modThread t f).ppsLocked = s.ppsLocked := rfl
@[simp] theorem State.modThread_ptpLocked (s : State) (t : Nat) (f : Thread → Thread) : (s.modThread t f).ptpLocked = s.ptpLocked := rfl
@[simp] theorem State.modThread_pow (s : State) (t : Nat) (f : Thread → Thread) : (s.modThread t f).pow = s.pow := rfl
@[simp] theorem State.modThread_flt (s : State) (t : Nat) (f : Thread → Thread) : (s.modThread t f).flt = s.flt := rfl
@[simp] theorem State.modThread_wear (s : State) (t : Nat) (f : Thread → Thread) : (s.modThread t f).wear = s.wear := rfl
@[simp] theorem State.modThread_nv (s : State) (t : Nat) (f : Thread → Thread) : (s.modThread t f).nv = s.nv := rfl
@[simp] theorem State.modThread_eft (s : State) (t : Nat) (f : Thread → Thread) : (s.modThread t f).eft = s.eft := rfl
@[simp] theorem State.modThread_octMode (s : State) (t : Nat) (f : Thread → Thread) : (s.modThread t f).octMode = s.octMode := rfl
@[simp] theorem State.modThread_lanes (s : State) (t : Nat) (f : Thread → Thread) : (s.modThread t f).lanes = s.lanes := rfl
@[simp] theorem State.modThread_ports (s : State) (t : Nat) (f : Thread → Thread) : (s.modThread t f).ports = s.ports := rfl
@[simp] theorem State.modThread_hps (s : State) (t : Nat) (f : Thread → Thread) : (s.modThread t f).hps = s.hps := rfl
@[simp] theorem State.modThread_fns (s : State) (t : Nat) (f : Thread → Thread) : (s.modThread t f).fns = s.fns := rfl
@[simp] theorem State.modThread_unprov (s : State) (t : Nat) (f : Thread → Thread) : (s.modThread t f).unprov = s.unprov := rfl
@[simp] theorem State.modThread_mbxs (s : State) (t : Nat) (f : Thread → Thread) : (s.modThread t f).mbxs = s.mbxs := rfl
@[simp] theorem State.modThread_boardMbx (s : State) (t : Nat) (f : Thread → Thread) : (s.modThread t f).boardMbx = s.boardMbx := rfl
@[simp] theorem State.modThread_allots (s : State) (t : Nat) (f : Thread → Thread) : (s.modThread t f).allots = s.allots := rfl
@[simp] theorem State.modThread_wins (s : State) (t : Nat) (f : Thread → Thread) : (s.modThread t f).wins = s.wins := rfl
@[simp] theorem State.modThread_exch (s : State) (t : Nat) (f : Thread → Thread) : (s.modThread t f).exch = s.exch := rfl
@[simp] theorem State.modThread_region (s : State) (t : Nat) (f : Thread → Thread) : (s.modThread t f).region = s.region := rfl
@[simp] theorem State.modThread_reads (s : State) (t : Nat) (f : Thread → Thread) : (s.modThread t f).reads = s.reads := rfl
@[simp] theorem State.modThread_ghosts (s : State) (t : Nat) (f : Thread → Thread) : (s.modThread t f).ghosts = s.ghosts := rfl
@[simp] theorem State.modThread_pkt (s : State) (t : Nat) (f : Thread → Thread) : (s.modThread t f).pkt = s.pkt := rfl
@[simp] theorem State.modThread_sto (s : State) (t : Nat) (f : Thread → Thread) : (s.modThread t f).sto = s.sto := rfl
@[simp] theorem State.modThread_cip (s : State) (t : Nat) (f : Thread → Thread) : (s.modThread t f).cip = s.cip := rfl
@[simp] theorem State.modThread_meter (s : State) (t : Nat) (f : Thread → Thread) : (s.modThread t f).meter = s.meter := rfl
@[simp] theorem State.modThread_migKey (s : State) (t : Nat) (f : Thread → Thread) : (s.modThread t f).migKey = s.migKey := rfl
@[simp] theorem State.modThread_migSaves (s : State) (t : Nat) (f : Thread → Thread) : (s.modThread t f).migSaves = s.migSaves := rfl
@[simp] theorem State.modThread_i3c (s : State) (t : Nat) (f : Thread → Thread) : (s.modThread t f).i3c = s.i3c := rfl
@[simp] theorem State.modThread_chain (s : State) (t : Nat) (f : Thread → Thread) : (s.modThread t f).chain = s.chain := rfl
@[simp] theorem State.modThread_dbg (s : State) (t : Nat) (f : Thread → Thread) : (s.modThread t f).dbg = s.dbg := rfl
@[simp] theorem State.modThread_ctr (s : State) (t : Nat) (f : Thread → Thread) : (s.modThread t f).ctr = s.ctr := rfl
@[simp] theorem State.modThread_free (s : State) (t : Nat) (f : Thread → Thread) : (s.modThread t f).free = s.free := rfl
@[simp] theorem State.modThread_out (s : State) (t : Nat) (f : Thread → Thread) : (s.modThread t f).out = s.out := rfl

/-! ### `modChan` -/

@[simp] theorem State.modChan_pending (s : State) (c : Nat) (f : Channel → Channel) : (s.modChan c f).pending = s.pending := rfl
@[simp] theorem State.modChan_phase (s : State) (c : Nat) (f : Channel → Channel) : (s.modChan c f).phase = s.phase := rfl
@[simp] theorem State.modChan_pins (s : State) (c : Nat) (f : Channel → Channel) : (s.modChan c f).pins = s.pins := rfl
@[simp] theorem State.modChan_time (s : State) (c : Nat) (f : Channel → Channel) : (s.modChan c f).time = s.time := rfl
@[simp] theorem State.modChan_tick (s : State) (c : Nat) (f : Channel → Channel) : (s.modChan c f).tick = s.tick := rfl
@[simp] theorem State.modChan_ppsLocked (s : State) (c : Nat) (f : Channel → Channel) : (s.modChan c f).ppsLocked = s.ppsLocked := rfl
@[simp] theorem State.modChan_ptpLocked (s : State) (c : Nat) (f : Channel → Channel) : (s.modChan c f).ptpLocked = s.ptpLocked := rfl
@[simp] theorem State.modChan_pow (s : State) (c : Nat) (f : Channel → Channel) : (s.modChan c f).pow = s.pow := rfl
@[simp] theorem State.modChan_flt (s : State) (c : Nat) (f : Channel → Channel) : (s.modChan c f).flt = s.flt := rfl
@[simp] theorem State.modChan_wear (s : State) (c : Nat) (f : Channel → Channel) : (s.modChan c f).wear = s.wear := rfl
@[simp] theorem State.modChan_nv (s : State) (c : Nat) (f : Channel → Channel) : (s.modChan c f).nv = s.nv := rfl
@[simp] theorem State.modChan_eft (s : State) (c : Nat) (f : Channel → Channel) : (s.modChan c f).eft = s.eft := rfl
@[simp] theorem State.modChan_octMode (s : State) (c : Nat) (f : Channel → Channel) : (s.modChan c f).octMode = s.octMode := rfl
@[simp] theorem State.modChan_lanes (s : State) (c : Nat) (f : Channel → Channel) : (s.modChan c f).lanes = s.lanes := rfl
@[simp] theorem State.modChan_ports (s : State) (c : Nat) (f : Channel → Channel) : (s.modChan c f).ports = s.ports := rfl
@[simp] theorem State.modChan_hps (s : State) (c : Nat) (f : Channel → Channel) : (s.modChan c f).hps = s.hps := rfl
@[simp] theorem State.modChan_fns (s : State) (c : Nat) (f : Channel → Channel) : (s.modChan c f).fns = s.fns := rfl
@[simp] theorem State.modChan_unprov (s : State) (c : Nat) (f : Channel → Channel) : (s.modChan c f).unprov = s.unprov := rfl
@[simp] theorem State.modChan_mbxs (s : State) (c : Nat) (f : Channel → Channel) : (s.modChan c f).mbxs = s.mbxs := rfl
@[simp] theorem State.modChan_boardMbx (s : State) (c : Nat) (f : Channel → Channel) : (s.modChan c f).boardMbx = s.boardMbx := rfl
@[simp] theorem State.modChan_allots (s : State) (c : Nat) (f : Channel → Channel) : (s.modChan c f).allots = s.allots := rfl
@[simp] theorem State.modChan_wins (s : State) (c : Nat) (f : Channel → Channel) : (s.modChan c f).wins = s.wins := rfl
@[simp] theorem State.modChan_exch (s : State) (c : Nat) (f : Channel → Channel) : (s.modChan c f).exch = s.exch := rfl
@[simp] theorem State.modChan_region (s : State) (c : Nat) (f : Channel → Channel) : (s.modChan c f).region = s.region := rfl
@[simp] theorem State.modChan_reads (s : State) (c : Nat) (f : Channel → Channel) : (s.modChan c f).reads = s.reads := rfl
@[simp] theorem State.modChan_ghosts (s : State) (c : Nat) (f : Channel → Channel) : (s.modChan c f).ghosts = s.ghosts := rfl
@[simp] theorem State.modChan_pkt (s : State) (c : Nat) (f : Channel → Channel) : (s.modChan c f).pkt = s.pkt := rfl
@[simp] theorem State.modChan_sto (s : State) (c : Nat) (f : Channel → Channel) : (s.modChan c f).sto = s.sto := rfl
@[simp] theorem State.modChan_cip (s : State) (c : Nat) (f : Channel → Channel) : (s.modChan c f).cip = s.cip := rfl
@[simp] theorem State.modChan_meter (s : State) (c : Nat) (f : Channel → Channel) : (s.modChan c f).meter = s.meter := rfl
@[simp] theorem State.modChan_migKey (s : State) (c : Nat) (f : Channel → Channel) : (s.modChan c f).migKey = s.migKey := rfl
@[simp] theorem State.modChan_migSaves (s : State) (c : Nat) (f : Channel → Channel) : (s.modChan c f).migSaves = s.migSaves := rfl
@[simp] theorem State.modChan_i3c (s : State) (c : Nat) (f : Channel → Channel) : (s.modChan c f).i3c = s.i3c := rfl
@[simp] theorem State.modChan_chain (s : State) (c : Nat) (f : Channel → Channel) : (s.modChan c f).chain = s.chain := rfl
@[simp] theorem State.modChan_dbg (s : State) (c : Nat) (f : Channel → Channel) : (s.modChan c f).dbg = s.dbg := rfl
@[simp] theorem State.modChan_ctr (s : State) (c : Nat) (f : Channel → Channel) : (s.modChan c f).ctr = s.ctr := rfl
@[simp] theorem State.modChan_free (s : State) (c : Nat) (f : Channel → Channel) : (s.modChan c f).free = s.free := rfl
@[simp] theorem State.modChan_out (s : State) (c : Nat) (f : Channel → Channel) : (s.modChan c f).out = s.out := rfl

/-! ### `modCip` -/

@[simp] theorem State.modCip_pending (s : State) (f : CipherState → CipherState) : (s.modCip f).pending = s.pending := rfl
@[simp] theorem State.modCip_phase (s : State) (f : CipherState → CipherState) : (s.modCip f).phase = s.phase := rfl
@[simp] theorem State.modCip_pins (s : State) (f : CipherState → CipherState) : (s.modCip f).pins = s.pins := rfl
@[simp] theorem State.modCip_time (s : State) (f : CipherState → CipherState) : (s.modCip f).time = s.time := rfl
@[simp] theorem State.modCip_tick (s : State) (f : CipherState → CipherState) : (s.modCip f).tick = s.tick := rfl
@[simp] theorem State.modCip_ppsLocked (s : State) (f : CipherState → CipherState) : (s.modCip f).ppsLocked = s.ppsLocked := rfl
@[simp] theorem State.modCip_ptpLocked (s : State) (f : CipherState → CipherState) : (s.modCip f).ptpLocked = s.ptpLocked := rfl
@[simp] theorem State.modCip_pow (s : State) (f : CipherState → CipherState) : (s.modCip f).pow = s.pow := rfl
@[simp] theorem State.modCip_flt (s : State) (f : CipherState → CipherState) : (s.modCip f).flt = s.flt := rfl
@[simp] theorem State.modCip_wear (s : State) (f : CipherState → CipherState) : (s.modCip f).wear = s.wear := rfl
@[simp] theorem State.modCip_nv (s : State) (f : CipherState → CipherState) : (s.modCip f).nv = s.nv := rfl
@[simp] theorem State.modCip_eft (s : State) (f : CipherState → CipherState) : (s.modCip f).eft = s.eft := rfl
@[simp] theorem State.modCip_octMode (s : State) (f : CipherState → CipherState) : (s.modCip f).octMode = s.octMode := rfl
@[simp] theorem State.modCip_lanes (s : State) (f : CipherState → CipherState) : (s.modCip f).lanes = s.lanes := rfl
@[simp] theorem State.modCip_ports (s : State) (f : CipherState → CipherState) : (s.modCip f).ports = s.ports := rfl
@[simp] theorem State.modCip_hps (s : State) (f : CipherState → CipherState) : (s.modCip f).hps = s.hps := rfl
@[simp] theorem State.modCip_fns (s : State) (f : CipherState → CipherState) : (s.modCip f).fns = s.fns := rfl
@[simp] theorem State.modCip_unprov (s : State) (f : CipherState → CipherState) : (s.modCip f).unprov = s.unprov := rfl
@[simp] theorem State.modCip_mbxs (s : State) (f : CipherState → CipherState) : (s.modCip f).mbxs = s.mbxs := rfl
@[simp] theorem State.modCip_boardMbx (s : State) (f : CipherState → CipherState) : (s.modCip f).boardMbx = s.boardMbx := rfl
@[simp] theorem State.modCip_allots (s : State) (f : CipherState → CipherState) : (s.modCip f).allots = s.allots := rfl
@[simp] theorem State.modCip_wins (s : State) (f : CipherState → CipherState) : (s.modCip f).wins = s.wins := rfl
@[simp] theorem State.modCip_exch (s : State) (f : CipherState → CipherState) : (s.modCip f).exch = s.exch := rfl
@[simp] theorem State.modCip_region (s : State) (f : CipherState → CipherState) : (s.modCip f).region = s.region := rfl
@[simp] theorem State.modCip_reads (s : State) (f : CipherState → CipherState) : (s.modCip f).reads = s.reads := rfl
@[simp] theorem State.modCip_ghosts (s : State) (f : CipherState → CipherState) : (s.modCip f).ghosts = s.ghosts := rfl
@[simp] theorem State.modCip_pkt (s : State) (f : CipherState → CipherState) : (s.modCip f).pkt = s.pkt := rfl
@[simp] theorem State.modCip_sto (s : State) (f : CipherState → CipherState) : (s.modCip f).sto = s.sto := rfl
@[simp] theorem State.modCip_skk (s : State) (f : CipherState → CipherState) : (s.modCip f).skk = s.skk := rfl
@[simp] theorem State.modCip_meter (s : State) (f : CipherState → CipherState) : (s.modCip f).meter = s.meter := rfl
@[simp] theorem State.modCip_migKey (s : State) (f : CipherState → CipherState) : (s.modCip f).migKey = s.migKey := rfl
@[simp] theorem State.modCip_migSaves (s : State) (f : CipherState → CipherState) : (s.modCip f).migSaves = s.migSaves := rfl
@[simp] theorem State.modCip_i3c (s : State) (f : CipherState → CipherState) : (s.modCip f).i3c = s.i3c := rfl
@[simp] theorem State.modCip_chain (s : State) (f : CipherState → CipherState) : (s.modCip f).chain = s.chain := rfl
@[simp] theorem State.modCip_dbg (s : State) (f : CipherState → CipherState) : (s.modCip f).dbg = s.dbg := rfl
@[simp] theorem State.modCip_ctr (s : State) (f : CipherState → CipherState) : (s.modCip f).ctr = s.ctr := rfl
@[simp] theorem State.modCip_free (s : State) (f : CipherState → CipherState) : (s.modCip f).free = s.free := rfl
@[simp] theorem State.modCip_out (s : State) (f : CipherState → CipherState) : (s.modCip f).out = s.out := rfl

/-! ### `modSto` -/

@[simp] theorem State.modSto_pending (s : State) (f : StorageState → StorageState) : (s.modSto f).pending = s.pending := rfl
@[simp] theorem State.modSto_phase (s : State) (f : StorageState → StorageState) : (s.modSto f).phase = s.phase := rfl
@[simp] theorem State.modSto_pins (s : State) (f : StorageState → StorageState) : (s.modSto f).pins = s.pins := rfl
@[simp] theorem State.modSto_time (s : State) (f : StorageState → StorageState) : (s.modSto f).time = s.time := rfl
@[simp] theorem State.modSto_tick (s : State) (f : StorageState → StorageState) : (s.modSto f).tick = s.tick := rfl
@[simp] theorem State.modSto_ppsLocked (s : State) (f : StorageState → StorageState) : (s.modSto f).ppsLocked = s.ppsLocked := rfl
@[simp] theorem State.modSto_ptpLocked (s : State) (f : StorageState → StorageState) : (s.modSto f).ptpLocked = s.ptpLocked := rfl
@[simp] theorem State.modSto_pow (s : State) (f : StorageState → StorageState) : (s.modSto f).pow = s.pow := rfl
@[simp] theorem State.modSto_flt (s : State) (f : StorageState → StorageState) : (s.modSto f).flt = s.flt := rfl
@[simp] theorem State.modSto_wear (s : State) (f : StorageState → StorageState) : (s.modSto f).wear = s.wear := rfl
@[simp] theorem State.modSto_nv (s : State) (f : StorageState → StorageState) : (s.modSto f).nv = s.nv := rfl
@[simp] theorem State.modSto_eft (s : State) (f : StorageState → StorageState) : (s.modSto f).eft = s.eft := rfl
@[simp] theorem State.modSto_octMode (s : State) (f : StorageState → StorageState) : (s.modSto f).octMode = s.octMode := rfl
@[simp] theorem State.modSto_lanes (s : State) (f : StorageState → StorageState) : (s.modSto f).lanes = s.lanes := rfl
@[simp] theorem State.modSto_ports (s : State) (f : StorageState → StorageState) : (s.modSto f).ports = s.ports := rfl
@[simp] theorem State.modSto_hps (s : State) (f : StorageState → StorageState) : (s.modSto f).hps = s.hps := rfl
@[simp] theorem State.modSto_fns (s : State) (f : StorageState → StorageState) : (s.modSto f).fns = s.fns := rfl
@[simp] theorem State.modSto_unprov (s : State) (f : StorageState → StorageState) : (s.modSto f).unprov = s.unprov := rfl
@[simp] theorem State.modSto_mbxs (s : State) (f : StorageState → StorageState) : (s.modSto f).mbxs = s.mbxs := rfl
@[simp] theorem State.modSto_boardMbx (s : State) (f : StorageState → StorageState) : (s.modSto f).boardMbx = s.boardMbx := rfl
@[simp] theorem State.modSto_allots (s : State) (f : StorageState → StorageState) : (s.modSto f).allots = s.allots := rfl
@[simp] theorem State.modSto_wins (s : State) (f : StorageState → StorageState) : (s.modSto f).wins = s.wins := rfl
@[simp] theorem State.modSto_exch (s : State) (f : StorageState → StorageState) : (s.modSto f).exch = s.exch := rfl
@[simp] theorem State.modSto_region (s : State) (f : StorageState → StorageState) : (s.modSto f).region = s.region := rfl
@[simp] theorem State.modSto_reads (s : State) (f : StorageState → StorageState) : (s.modSto f).reads = s.reads := rfl
@[simp] theorem State.modSto_ghosts (s : State) (f : StorageState → StorageState) : (s.modSto f).ghosts = s.ghosts := rfl
@[simp] theorem State.modSto_pkt (s : State) (f : StorageState → StorageState) : (s.modSto f).pkt = s.pkt := rfl
@[simp] theorem State.modSto_cip (s : State) (f : StorageState → StorageState) : (s.modSto f).cip = s.cip := rfl
@[simp] theorem State.modSto_skk (s : State) (f : StorageState → StorageState) : (s.modSto f).skk = s.skk := rfl
@[simp] theorem State.modSto_meter (s : State) (f : StorageState → StorageState) : (s.modSto f).meter = s.meter := rfl
@[simp] theorem State.modSto_migKey (s : State) (f : StorageState → StorageState) : (s.modSto f).migKey = s.migKey := rfl
@[simp] theorem State.modSto_migSaves (s : State) (f : StorageState → StorageState) : (s.modSto f).migSaves = s.migSaves := rfl
@[simp] theorem State.modSto_i3c (s : State) (f : StorageState → StorageState) : (s.modSto f).i3c = s.i3c := rfl
@[simp] theorem State.modSto_chain (s : State) (f : StorageState → StorageState) : (s.modSto f).chain = s.chain := rfl
@[simp] theorem State.modSto_dbg (s : State) (f : StorageState → StorageState) : (s.modSto f).dbg = s.dbg := rfl
@[simp] theorem State.modSto_ctr (s : State) (f : StorageState → StorageState) : (s.modSto f).ctr = s.ctr := rfl
@[simp] theorem State.modSto_free (s : State) (f : StorageState → StorageState) : (s.modSto f).free = s.free := rfl
@[simp] theorem State.modSto_out (s : State) (f : StorageState → StorageState) : (s.modSto f).out = s.out := rfl

/-! ### `modPkt` -/

@[simp] theorem State.modPkt_pending (s : State) (f : PacketState → PacketState) : (s.modPkt f).pending = s.pending := rfl
@[simp] theorem State.modPkt_phase (s : State) (f : PacketState → PacketState) : (s.modPkt f).phase = s.phase := rfl
@[simp] theorem State.modPkt_pins (s : State) (f : PacketState → PacketState) : (s.modPkt f).pins = s.pins := rfl
@[simp] theorem State.modPkt_time (s : State) (f : PacketState → PacketState) : (s.modPkt f).time = s.time := rfl
@[simp] theorem State.modPkt_tick (s : State) (f : PacketState → PacketState) : (s.modPkt f).tick = s.tick := rfl
@[simp] theorem State.modPkt_ppsLocked (s : State) (f : PacketState → PacketState) : (s.modPkt f).ppsLocked = s.ppsLocked := rfl
@[simp] theorem State.modPkt_ptpLocked (s : State) (f : PacketState → PacketState) : (s.modPkt f).ptpLocked = s.ptpLocked := rfl
@[simp] theorem State.modPkt_pow (s : State) (f : PacketState → PacketState) : (s.modPkt f).pow = s.pow := rfl
@[simp] theorem State.modPkt_flt (s : State) (f : PacketState → PacketState) : (s.modPkt f).flt = s.flt := rfl
@[simp] theorem State.modPkt_wear (s : State) (f : PacketState → PacketState) : (s.modPkt f).wear = s.wear := rfl
@[simp] theorem State.modPkt_nv (s : State) (f : PacketState → PacketState) : (s.modPkt f).nv = s.nv := rfl
@[simp] theorem State.modPkt_eft (s : State) (f : PacketState → PacketState) : (s.modPkt f).eft = s.eft := rfl
@[simp] theorem State.modPkt_octMode (s : State) (f : PacketState → PacketState) : (s.modPkt f).octMode = s.octMode := rfl
@[simp] theorem State.modPkt_lanes (s : State) (f : PacketState → PacketState) : (s.modPkt f).lanes = s.lanes := rfl
@[simp] theorem State.modPkt_ports (s : State) (f : PacketState → PacketState) : (s.modPkt f).ports = s.ports := rfl
@[simp] theorem State.modPkt_hps (s : State) (f : PacketState → PacketState) : (s.modPkt f).hps = s.hps := rfl
@[simp] theorem State.modPkt_fns (s : State) (f : PacketState → PacketState) : (s.modPkt f).fns = s.fns := rfl
@[simp] theorem State.modPkt_unprov (s : State) (f : PacketState → PacketState) : (s.modPkt f).unprov = s.unprov := rfl
@[simp] theorem State.modPkt_mbxs (s : State) (f : PacketState → PacketState) : (s.modPkt f).mbxs = s.mbxs := rfl
@[simp] theorem State.modPkt_boardMbx (s : State) (f : PacketState → PacketState) : (s.modPkt f).boardMbx = s.boardMbx := rfl
@[simp] theorem State.modPkt_allots (s : State) (f : PacketState → PacketState) : (s.modPkt f).allots = s.allots := rfl
@[simp] theorem State.modPkt_wins (s : State) (f : PacketState → PacketState) : (s.modPkt f).wins = s.wins := rfl
@[simp] theorem State.modPkt_exch (s : State) (f : PacketState → PacketState) : (s.modPkt f).exch = s.exch := rfl
@[simp] theorem State.modPkt_region (s : State) (f : PacketState → PacketState) : (s.modPkt f).region = s.region := rfl
@[simp] theorem State.modPkt_reads (s : State) (f : PacketState → PacketState) : (s.modPkt f).reads = s.reads := rfl
@[simp] theorem State.modPkt_ghosts (s : State) (f : PacketState → PacketState) : (s.modPkt f).ghosts = s.ghosts := rfl
@[simp] theorem State.modPkt_sto (s : State) (f : PacketState → PacketState) : (s.modPkt f).sto = s.sto := rfl
@[simp] theorem State.modPkt_cip (s : State) (f : PacketState → PacketState) : (s.modPkt f).cip = s.cip := rfl
@[simp] theorem State.modPkt_skk (s : State) (f : PacketState → PacketState) : (s.modPkt f).skk = s.skk := rfl
@[simp] theorem State.modPkt_meter (s : State) (f : PacketState → PacketState) : (s.modPkt f).meter = s.meter := rfl
@[simp] theorem State.modPkt_migKey (s : State) (f : PacketState → PacketState) : (s.modPkt f).migKey = s.migKey := rfl
@[simp] theorem State.modPkt_migSaves (s : State) (f : PacketState → PacketState) : (s.modPkt f).migSaves = s.migSaves := rfl
@[simp] theorem State.modPkt_i3c (s : State) (f : PacketState → PacketState) : (s.modPkt f).i3c = s.i3c := rfl
@[simp] theorem State.modPkt_chain (s : State) (f : PacketState → PacketState) : (s.modPkt f).chain = s.chain := rfl
@[simp] theorem State.modPkt_dbg (s : State) (f : PacketState → PacketState) : (s.modPkt f).dbg = s.dbg := rfl
@[simp] theorem State.modPkt_ctr (s : State) (f : PacketState → PacketState) : (s.modPkt f).ctr = s.ctr := rfl
@[simp] theorem State.modPkt_free (s : State) (f : PacketState → PacketState) : (s.modPkt f).free = s.free := rfl
@[simp] theorem State.modPkt_out (s : State) (f : PacketState → PacketState) : (s.modPkt f).out = s.out := rfl

/-! ### `modPad` -/

@[simp] theorem State.modPad_pending (s : State) (b : Nat) (f : Pad → Pad) : (s.modPad b f).pending = s.pending := by unfold State.modPad; split <;> rfl
@[simp] theorem State.modPad_phase (s : State) (b : Nat) (f : Pad → Pad) : (s.modPad b f).phase = s.phase := by unfold State.modPad; split <;> rfl
@[simp] theorem State.modPad_pins (s : State) (b : Nat) (f : Pad → Pad) : (s.modPad b f).pins = s.pins := by unfold State.modPad; split <;> rfl
@[simp] theorem State.modPad_time (s : State) (b : Nat) (f : Pad → Pad) : (s.modPad b f).time = s.time := by unfold State.modPad; split <;> rfl
@[simp] theorem State.modPad_tick (s : State) (b : Nat) (f : Pad → Pad) : (s.modPad b f).tick = s.tick := by unfold State.modPad; split <;> rfl
@[simp] theorem State.modPad_ppsLocked (s : State) (b : Nat) (f : Pad → Pad) : (s.modPad b f).ppsLocked = s.ppsLocked := by unfold State.modPad; split <;> rfl
@[simp] theorem State.modPad_ptpLocked (s : State) (b : Nat) (f : Pad → Pad) : (s.modPad b f).ptpLocked = s.ptpLocked := by unfold State.modPad; split <;> rfl
@[simp] theorem State.modPad_pow (s : State) (b : Nat) (f : Pad → Pad) : (s.modPad b f).pow = s.pow := by unfold State.modPad; split <;> rfl
@[simp] theorem State.modPad_flt (s : State) (b : Nat) (f : Pad → Pad) : (s.modPad b f).flt = s.flt := by unfold State.modPad; split <;> rfl
@[simp] theorem State.modPad_wear (s : State) (b : Nat) (f : Pad → Pad) : (s.modPad b f).wear = s.wear := by unfold State.modPad; split <;> rfl
@[simp] theorem State.modPad_nv (s : State) (b : Nat) (f : Pad → Pad) : (s.modPad b f).nv = s.nv := by unfold State.modPad; split <;> rfl
@[simp] theorem State.modPad_eft (s : State) (b : Nat) (f : Pad → Pad) : (s.modPad b f).eft = s.eft := by unfold State.modPad; split <;> rfl
@[simp] theorem State.modPad_octMode (s : State) (b : Nat) (f : Pad → Pad) : (s.modPad b f).octMode = s.octMode := by unfold State.modPad; split <;> rfl
@[simp] theorem State.modPad_lanes (s : State) (b : Nat) (f : Pad → Pad) : (s.modPad b f).lanes = s.lanes := by unfold State.modPad; split <;> rfl
@[simp] theorem State.modPad_ports (s : State) (b : Nat) (f : Pad → Pad) : (s.modPad b f).ports = s.ports := by unfold State.modPad; split <;> rfl
@[simp] theorem State.modPad_hps (s : State) (b : Nat) (f : Pad → Pad) : (s.modPad b f).hps = s.hps := by unfold State.modPad; split <;> rfl
@[simp] theorem State.modPad_fns (s : State) (b : Nat) (f : Pad → Pad) : (s.modPad b f).fns = s.fns := by unfold State.modPad; split <;> rfl
@[simp] theorem State.modPad_unprov (s : State) (b : Nat) (f : Pad → Pad) : (s.modPad b f).unprov = s.unprov := by unfold State.modPad; split <;> rfl
@[simp] theorem State.modPad_mbxs (s : State) (b : Nat) (f : Pad → Pad) : (s.modPad b f).mbxs = s.mbxs := by unfold State.modPad; split <;> rfl
@[simp] theorem State.modPad_boardMbx (s : State) (b : Nat) (f : Pad → Pad) : (s.modPad b f).boardMbx = s.boardMbx := by unfold State.modPad; split <;> rfl
@[simp] theorem State.modPad_allots (s : State) (b : Nat) (f : Pad → Pad) : (s.modPad b f).allots = s.allots := by unfold State.modPad; split <;> rfl
@[simp] theorem State.modPad_wins (s : State) (b : Nat) (f : Pad → Pad) : (s.modPad b f).wins = s.wins := by unfold State.modPad; split <;> rfl
@[simp] theorem State.modPad_exch (s : State) (b : Nat) (f : Pad → Pad) : (s.modPad b f).exch = s.exch := by unfold State.modPad; split <;> rfl
@[simp] theorem State.modPad_region (s : State) (b : Nat) (f : Pad → Pad) : (s.modPad b f).region = s.region := by unfold State.modPad; split <;> rfl
@[simp] theorem State.modPad_reads (s : State) (b : Nat) (f : Pad → Pad) : (s.modPad b f).reads = s.reads := by unfold State.modPad; split <;> rfl
@[simp] theorem State.modPad_ghosts (s : State) (b : Nat) (f : Pad → Pad) : (s.modPad b f).ghosts = s.ghosts := by unfold State.modPad; split <;> rfl
@[simp] theorem State.modPad_sto (s : State) (b : Nat) (f : Pad → Pad) : (s.modPad b f).sto = s.sto := by unfold State.modPad; split <;> rfl
@[simp] theorem State.modPad_cip (s : State) (b : Nat) (f : Pad → Pad) : (s.modPad b f).cip = s.cip := by unfold State.modPad; split <;> rfl
@[simp] theorem State.modPad_skk (s : State) (b : Nat) (f : Pad → Pad) : (s.modPad b f).skk = s.skk := by unfold State.modPad; split <;> rfl
@[simp] theorem State.modPad_meter (s : State) (b : Nat) (f : Pad → Pad) : (s.modPad b f).meter = s.meter := by unfold State.modPad; split <;> rfl
@[simp] theorem State.modPad_migKey (s : State) (b : Nat) (f : Pad → Pad) : (s.modPad b f).migKey = s.migKey := by unfold State.modPad; split <;> rfl
@[simp] theorem State.modPad_migSaves (s : State) (b : Nat) (f : Pad → Pad) : (s.modPad b f).migSaves = s.migSaves := by unfold State.modPad; split <;> rfl
@[simp] theorem State.modPad_i3c (s : State) (b : Nat) (f : Pad → Pad) : (s.modPad b f).i3c = s.i3c := by unfold State.modPad; split <;> rfl
@[simp] theorem State.modPad_chain (s : State) (b : Nat) (f : Pad → Pad) : (s.modPad b f).chain = s.chain := by unfold State.modPad; split <;> rfl
@[simp] theorem State.modPad_dbg (s : State) (b : Nat) (f : Pad → Pad) : (s.modPad b f).dbg = s.dbg := by unfold State.modPad; split <;> rfl
@[simp] theorem State.modPad_ctr (s : State) (b : Nat) (f : Pad → Pad) : (s.modPad b f).ctr = s.ctr := by unfold State.modPad; split <;> rfl
@[simp] theorem State.modPad_free (s : State) (b : Nat) (f : Pad → Pad) : (s.modPad b f).free = s.free := by unfold State.modPad; split <;> rfl
@[simp] theorem State.modPad_out (s : State) (b : Nat) (f : Pad → Pad) : (s.modPad b f).out = s.out := by unfold State.modPad; split <;> rfl

/-! ### `modWin` -/

@[simp] theorem State.modWin_pending (s : State) (p i : Nat) (f : Win → Win) : (s.modWin p i f).pending = s.pending := rfl
@[simp] theorem State.modWin_phase (s : State) (p i : Nat) (f : Win → Win) : (s.modWin p i f).phase = s.phase := rfl
@[simp] theorem State.modWin_pins (s : State) (p i : Nat) (f : Win → Win) : (s.modWin p i f).pins = s.pins := rfl
@[simp] theorem State.modWin_time (s : State) (p i : Nat) (f : Win → Win) : (s.modWin p i f).time = s.time := rfl
@[simp] theorem State.modWin_tick (s : State) (p i : Nat) (f : Win → Win) : (s.modWin p i f).tick = s.tick := rfl
@[simp] theorem State.modWin_ppsLocked (s : State) (p i : Nat) (f : Win → Win) : (s.modWin p i f).ppsLocked = s.ppsLocked := rfl
@[simp] theorem State.modWin_ptpLocked (s : State) (p i : Nat) (f : Win → Win) : (s.modWin p i f).ptpLocked = s.ptpLocked := rfl
@[simp] theorem State.modWin_pow (s : State) (p i : Nat) (f : Win → Win) : (s.modWin p i f).pow = s.pow := rfl
@[simp] theorem State.modWin_flt (s : State) (p i : Nat) (f : Win → Win) : (s.modWin p i f).flt = s.flt := rfl
@[simp] theorem State.modWin_wear (s : State) (p i : Nat) (f : Win → Win) : (s.modWin p i f).wear = s.wear := rfl
@[simp] theorem State.modWin_nv (s : State) (p i : Nat) (f : Win → Win) : (s.modWin p i f).nv = s.nv := rfl
@[simp] theorem State.modWin_eft (s : State) (p i : Nat) (f : Win → Win) : (s.modWin p i f).eft = s.eft := rfl
@[simp] theorem State.modWin_octMode (s : State) (p i : Nat) (f : Win → Win) : (s.modWin p i f).octMode = s.octMode := rfl
@[simp] theorem State.modWin_lanes (s : State) (p i : Nat) (f : Win → Win) : (s.modWin p i f).lanes = s.lanes := rfl
@[simp] theorem State.modWin_ports (s : State) (p i : Nat) (f : Win → Win) : (s.modWin p i f).ports = s.ports := rfl
@[simp] theorem State.modWin_hps (s : State) (p i : Nat) (f : Win → Win) : (s.modWin p i f).hps = s.hps := rfl
@[simp] theorem State.modWin_fns (s : State) (p i : Nat) (f : Win → Win) : (s.modWin p i f).fns = s.fns := rfl
@[simp] theorem State.modWin_unprov (s : State) (p i : Nat) (f : Win → Win) : (s.modWin p i f).unprov = s.unprov := rfl
@[simp] theorem State.modWin_mbxs (s : State) (p i : Nat) (f : Win → Win) : (s.modWin p i f).mbxs = s.mbxs := rfl
@[simp] theorem State.modWin_boardMbx (s : State) (p i : Nat) (f : Win → Win) : (s.modWin p i f).boardMbx = s.boardMbx := rfl
@[simp] theorem State.modWin_allots (s : State) (p i : Nat) (f : Win → Win) : (s.modWin p i f).allots = s.allots := rfl
@[simp] theorem State.modWin_exch (s : State) (p i : Nat) (f : Win → Win) : (s.modWin p i f).exch = s.exch := rfl
@[simp] theorem State.modWin_region (s : State) (p i : Nat) (f : Win → Win) : (s.modWin p i f).region = s.region := rfl
@[simp] theorem State.modWin_reads (s : State) (p i : Nat) (f : Win → Win) : (s.modWin p i f).reads = s.reads := rfl
@[simp] theorem State.modWin_ghosts (s : State) (p i : Nat) (f : Win → Win) : (s.modWin p i f).ghosts = s.ghosts := rfl
@[simp] theorem State.modWin_pkt (s : State) (p i : Nat) (f : Win → Win) : (s.modWin p i f).pkt = s.pkt := rfl
@[simp] theorem State.modWin_sto (s : State) (p i : Nat) (f : Win → Win) : (s.modWin p i f).sto = s.sto := rfl
@[simp] theorem State.modWin_cip (s : State) (p i : Nat) (f : Win → Win) : (s.modWin p i f).cip = s.cip := rfl
@[simp] theorem State.modWin_skk (s : State) (p i : Nat) (f : Win → Win) : (s.modWin p i f).skk = s.skk := rfl
@[simp] theorem State.modWin_meter (s : State) (p i : Nat) (f : Win → Win) : (s.modWin p i f).meter = s.meter := rfl
@[simp] theorem State.modWin_migKey (s : State) (p i : Nat) (f : Win → Win) : (s.modWin p i f).migKey = s.migKey := rfl
@[simp] theorem State.modWin_migSaves (s : State) (p i : Nat) (f : Win → Win) : (s.modWin p i f).migSaves = s.migSaves := rfl
@[simp] theorem State.modWin_i3c (s : State) (p i : Nat) (f : Win → Win) : (s.modWin p i f).i3c = s.i3c := rfl
@[simp] theorem State.modWin_chain (s : State) (p i : Nat) (f : Win → Win) : (s.modWin p i f).chain = s.chain := rfl
@[simp] theorem State.modWin_dbg (s : State) (p i : Nat) (f : Win → Win) : (s.modWin p i f).dbg = s.dbg := rfl
@[simp] theorem State.modWin_ctr (s : State) (p i : Nat) (f : Win → Win) : (s.modWin p i f).ctr = s.ctr := rfl
@[simp] theorem State.modWin_free (s : State) (p i : Nat) (f : Win → Win) : (s.modWin p i f).free = s.free := rfl
@[simp] theorem State.modWin_out (s : State) (p i : Nat) (f : Win → Win) : (s.modWin p i f).out = s.out := rfl

/-! ### `modPort` -/

@[simp] theorem State.modPort_pending (s : State) (n : Nat) (f : EthPort → EthPort) : (s.modPort n f).pending = s.pending := by unfold State.modPort; split <;> rfl
@[simp] theorem State.modPort_phase (s : State) (n : Nat) (f : EthPort → EthPort) : (s.modPort n f).phase = s.phase := by unfold State.modPort; split <;> rfl
@[simp] theorem State.modPort_pins (s : State) (n : Nat) (f : EthPort → EthPort) : (s.modPort n f).pins = s.pins := by unfold State.modPort; split <;> rfl
@[simp] theorem State.modPort_time (s : State) (n : Nat) (f : EthPort → EthPort) : (s.modPort n f).time = s.time := by unfold State.modPort; split <;> rfl
@[simp] theorem State.modPort_tick (s : State) (n : Nat) (f : EthPort → EthPort) : (s.modPort n f).tick = s.tick := by unfold State.modPort; split <;> rfl
@[simp] theorem State.modPort_ppsLocked (s : State) (n : Nat) (f : EthPort → EthPort) : (s.modPort n f).ppsLocked = s.ppsLocked := by unfold State.modPort; split <;> rfl
@[simp] theorem State.modPort_ptpLocked (s : State) (n : Nat) (f : EthPort → EthPort) : (s.modPort n f).ptpLocked = s.ptpLocked := by unfold State.modPort; split <;> rfl
@[simp] theorem State.modPort_pow (s : State) (n : Nat) (f : EthPort → EthPort) : (s.modPort n f).pow = s.pow := by unfold State.modPort; split <;> rfl
@[simp] theorem State.modPort_flt (s : State) (n : Nat) (f : EthPort → EthPort) : (s.modPort n f).flt = s.flt := by unfold State.modPort; split <;> rfl
@[simp] theorem State.modPort_wear (s : State) (n : Nat) (f : EthPort → EthPort) : (s.modPort n f).wear = s.wear := by unfold State.modPort; split <;> rfl
@[simp] theorem State.modPort_nv (s : State) (n : Nat) (f : EthPort → EthPort) : (s.modPort n f).nv = s.nv := by unfold State.modPort; split <;> rfl
@[simp] theorem State.modPort_eft (s : State) (n : Nat) (f : EthPort → EthPort) : (s.modPort n f).eft = s.eft := by unfold State.modPort; split <;> rfl
@[simp] theorem State.modPort_octMode (s : State) (n : Nat) (f : EthPort → EthPort) : (s.modPort n f).octMode = s.octMode := by unfold State.modPort; split <;> rfl
@[simp] theorem State.modPort_lanes (s : State) (n : Nat) (f : EthPort → EthPort) : (s.modPort n f).lanes = s.lanes := by unfold State.modPort; split <;> rfl
@[simp] theorem State.modPort_hps (s : State) (n : Nat) (f : EthPort → EthPort) : (s.modPort n f).hps = s.hps := by unfold State.modPort; split <;> rfl
@[simp] theorem State.modPort_fns (s : State) (n : Nat) (f : EthPort → EthPort) : (s.modPort n f).fns = s.fns := by unfold State.modPort; split <;> rfl
@[simp] theorem State.modPort_unprov (s : State) (n : Nat) (f : EthPort → EthPort) : (s.modPort n f).unprov = s.unprov := by unfold State.modPort; split <;> rfl
@[simp] theorem State.modPort_mbxs (s : State) (n : Nat) (f : EthPort → EthPort) : (s.modPort n f).mbxs = s.mbxs := by unfold State.modPort; split <;> rfl
@[simp] theorem State.modPort_boardMbx (s : State) (n : Nat) (f : EthPort → EthPort) : (s.modPort n f).boardMbx = s.boardMbx := by unfold State.modPort; split <;> rfl
@[simp] theorem State.modPort_allots (s : State) (n : Nat) (f : EthPort → EthPort) : (s.modPort n f).allots = s.allots := by unfold State.modPort; split <;> rfl
@[simp] theorem State.modPort_wins (s : State) (n : Nat) (f : EthPort → EthPort) : (s.modPort n f).wins = s.wins := by unfold State.modPort; split <;> rfl
@[simp] theorem State.modPort_exch (s : State) (n : Nat) (f : EthPort → EthPort) : (s.modPort n f).exch = s.exch := by unfold State.modPort; split <;> rfl
@[simp] theorem State.modPort_region (s : State) (n : Nat) (f : EthPort → EthPort) : (s.modPort n f).region = s.region := by unfold State.modPort; split <;> rfl
@[simp] theorem State.modPort_reads (s : State) (n : Nat) (f : EthPort → EthPort) : (s.modPort n f).reads = s.reads := by unfold State.modPort; split <;> rfl
@[simp] theorem State.modPort_ghosts (s : State) (n : Nat) (f : EthPort → EthPort) : (s.modPort n f).ghosts = s.ghosts := by unfold State.modPort; split <;> rfl
@[simp] theorem State.modPort_pkt (s : State) (n : Nat) (f : EthPort → EthPort) : (s.modPort n f).pkt = s.pkt := by unfold State.modPort; split <;> rfl
@[simp] theorem State.modPort_sto (s : State) (n : Nat) (f : EthPort → EthPort) : (s.modPort n f).sto = s.sto := by unfold State.modPort; split <;> rfl
@[simp] theorem State.modPort_cip (s : State) (n : Nat) (f : EthPort → EthPort) : (s.modPort n f).cip = s.cip := by unfold State.modPort; split <;> rfl
@[simp] theorem State.modPort_skk (s : State) (n : Nat) (f : EthPort → EthPort) : (s.modPort n f).skk = s.skk := by unfold State.modPort; split <;> rfl
@[simp] theorem State.modPort_meter (s : State) (n : Nat) (f : EthPort → EthPort) : (s.modPort n f).meter = s.meter := by unfold State.modPort; split <;> rfl
@[simp] theorem State.modPort_migKey (s : State) (n : Nat) (f : EthPort → EthPort) : (s.modPort n f).migKey = s.migKey := by unfold State.modPort; split <;> rfl
@[simp] theorem State.modPort_migSaves (s : State) (n : Nat) (f : EthPort → EthPort) : (s.modPort n f).migSaves = s.migSaves := by unfold State.modPort; split <;> rfl
@[simp] theorem State.modPort_i3c (s : State) (n : Nat) (f : EthPort → EthPort) : (s.modPort n f).i3c = s.i3c := by unfold State.modPort; split <;> rfl
@[simp] theorem State.modPort_chain (s : State) (n : Nat) (f : EthPort → EthPort) : (s.modPort n f).chain = s.chain := by unfold State.modPort; split <;> rfl
@[simp] theorem State.modPort_dbg (s : State) (n : Nat) (f : EthPort → EthPort) : (s.modPort n f).dbg = s.dbg := by unfold State.modPort; split <;> rfl
@[simp] theorem State.modPort_ctr (s : State) (n : Nat) (f : EthPort → EthPort) : (s.modPort n f).ctr = s.ctr := by unfold State.modPort; split <;> rfl
@[simp] theorem State.modPort_free (s : State) (n : Nat) (f : EthPort → EthPort) : (s.modPort n f).free = s.free := by unfold State.modPort; split <;> rfl
@[simp] theorem State.modPort_out (s : State) (n : Nat) (f : EthPort → EthPort) : (s.modPort n f).out = s.out := by unfold State.modPort; split <;> rfl

/-! ### `modLane` -/

@[simp] theorem State.modLane_pending (s : State) (l : Nat) (f : Lane → Lane) : (s.modLane l f).pending = s.pending := rfl
@[simp] theorem State.modLane_phase (s : State) (l : Nat) (f : Lane → Lane) : (s.modLane l f).phase = s.phase := rfl
@[simp] theorem State.modLane_pins (s : State) (l : Nat) (f : Lane → Lane) : (s.modLane l f).pins = s.pins := rfl
@[simp] theorem State.modLane_time (s : State) (l : Nat) (f : Lane → Lane) : (s.modLane l f).time = s.time := rfl
@[simp] theorem State.modLane_tick (s : State) (l : Nat) (f : Lane → Lane) : (s.modLane l f).tick = s.tick := rfl
@[simp] theorem State.modLane_ppsLocked (s : State) (l : Nat) (f : Lane → Lane) : (s.modLane l f).ppsLocked = s.ppsLocked := rfl
@[simp] theorem State.modLane_ptpLocked (s : State) (l : Nat) (f : Lane → Lane) : (s.modLane l f).ptpLocked = s.ptpLocked := rfl
@[simp] theorem State.modLane_pow (s : State) (l : Nat) (f : Lane → Lane) : (s.modLane l f).pow = s.pow := rfl
@[simp] theorem State.modLane_flt (s : State) (l : Nat) (f : Lane → Lane) : (s.modLane l f).flt = s.flt := rfl
@[simp] theorem State.modLane_wear (s : State) (l : Nat) (f : Lane → Lane) : (s.modLane l f).wear = s.wear := rfl
@[simp] theorem State.modLane_nv (s : State) (l : Nat) (f : Lane → Lane) : (s.modLane l f).nv = s.nv := rfl
@[simp] theorem State.modLane_eft (s : State) (l : Nat) (f : Lane → Lane) : (s.modLane l f).eft = s.eft := rfl
@[simp] theorem State.modLane_octMode (s : State) (l : Nat) (f : Lane → Lane) : (s.modLane l f).octMode = s.octMode := rfl
@[simp] theorem State.modLane_ports (s : State) (l : Nat) (f : Lane → Lane) : (s.modLane l f).ports = s.ports := rfl
@[simp] theorem State.modLane_hps (s : State) (l : Nat) (f : Lane → Lane) : (s.modLane l f).hps = s.hps := rfl
@[simp] theorem State.modLane_fns (s : State) (l : Nat) (f : Lane → Lane) : (s.modLane l f).fns = s.fns := rfl
@[simp] theorem State.modLane_unprov (s : State) (l : Nat) (f : Lane → Lane) : (s.modLane l f).unprov = s.unprov := rfl
@[simp] theorem State.modLane_mbxs (s : State) (l : Nat) (f : Lane → Lane) : (s.modLane l f).mbxs = s.mbxs := rfl
@[simp] theorem State.modLane_boardMbx (s : State) (l : Nat) (f : Lane → Lane) : (s.modLane l f).boardMbx = s.boardMbx := rfl
@[simp] theorem State.modLane_allots (s : State) (l : Nat) (f : Lane → Lane) : (s.modLane l f).allots = s.allots := rfl
@[simp] theorem State.modLane_wins (s : State) (l : Nat) (f : Lane → Lane) : (s.modLane l f).wins = s.wins := rfl
@[simp] theorem State.modLane_exch (s : State) (l : Nat) (f : Lane → Lane) : (s.modLane l f).exch = s.exch := rfl
@[simp] theorem State.modLane_region (s : State) (l : Nat) (f : Lane → Lane) : (s.modLane l f).region = s.region := rfl
@[simp] theorem State.modLane_reads (s : State) (l : Nat) (f : Lane → Lane) : (s.modLane l f).reads = s.reads := rfl
@[simp] theorem State.modLane_ghosts (s : State) (l : Nat) (f : Lane → Lane) : (s.modLane l f).ghosts = s.ghosts := rfl
@[simp] theorem State.modLane_pkt (s : State) (l : Nat) (f : Lane → Lane) : (s.modLane l f).pkt = s.pkt := rfl
@[simp] theorem State.modLane_sto (s : State) (l : Nat) (f : Lane → Lane) : (s.modLane l f).sto = s.sto := rfl
@[simp] theorem State.modLane_cip (s : State) (l : Nat) (f : Lane → Lane) : (s.modLane l f).cip = s.cip := rfl
@[simp] theorem State.modLane_skk (s : State) (l : Nat) (f : Lane → Lane) : (s.modLane l f).skk = s.skk := rfl
@[simp] theorem State.modLane_meter (s : State) (l : Nat) (f : Lane → Lane) : (s.modLane l f).meter = s.meter := rfl
@[simp] theorem State.modLane_migKey (s : State) (l : Nat) (f : Lane → Lane) : (s.modLane l f).migKey = s.migKey := rfl
@[simp] theorem State.modLane_migSaves (s : State) (l : Nat) (f : Lane → Lane) : (s.modLane l f).migSaves = s.migSaves := rfl
@[simp] theorem State.modLane_i3c (s : State) (l : Nat) (f : Lane → Lane) : (s.modLane l f).i3c = s.i3c := rfl
@[simp] theorem State.modLane_chain (s : State) (l : Nat) (f : Lane → Lane) : (s.modLane l f).chain = s.chain := rfl
@[simp] theorem State.modLane_dbg (s : State) (l : Nat) (f : Lane → Lane) : (s.modLane l f).dbg = s.dbg := rfl
@[simp] theorem State.modLane_ctr (s : State) (l : Nat) (f : Lane → Lane) : (s.modLane l f).ctr = s.ctr := rfl
@[simp] theorem State.modLane_free (s : State) (l : Nat) (f : Lane → Lane) : (s.modLane l f).free = s.free := rfl
@[simp] theorem State.modLane_out (s : State) (l : Nat) (f : Lane → Lane) : (s.modLane l f).out = s.out := rfl

/-! ### `modUnit` -/

@[simp] theorem State.modUnit_pending (s : State) (k p : Nat) (f : WearUnit → WearUnit) : (s.modUnit k p f).pending = s.pending := rfl
@[simp] theorem State.modUnit_phase (s : State) (k p : Nat) (f : WearUnit → WearUnit) : (s.modUnit k p f).phase = s.phase := rfl
@[simp] theorem State.modUnit_pins (s : State) (k p : Nat) (f : WearUnit → WearUnit) : (s.modUnit k p f).pins = s.pins := rfl
@[simp] theorem State.modUnit_time (s : State) (k p : Nat) (f : WearUnit → WearUnit) : (s.modUnit k p f).time = s.time := rfl
@[simp] theorem State.modUnit_tick (s : State) (k p : Nat) (f : WearUnit → WearUnit) : (s.modUnit k p f).tick = s.tick := rfl
@[simp] theorem State.modUnit_ppsLocked (s : State) (k p : Nat) (f : WearUnit → WearUnit) : (s.modUnit k p f).ppsLocked = s.ppsLocked := rfl
@[simp] theorem State.modUnit_ptpLocked (s : State) (k p : Nat) (f : WearUnit → WearUnit) : (s.modUnit k p f).ptpLocked = s.ptpLocked := rfl
@[simp] theorem State.modUnit_pow (s : State) (k p : Nat) (f : WearUnit → WearUnit) : (s.modUnit k p f).pow = s.pow := rfl
@[simp] theorem State.modUnit_flt (s : State) (k p : Nat) (f : WearUnit → WearUnit) : (s.modUnit k p f).flt = s.flt := rfl
@[simp] theorem State.modUnit_nv (s : State) (k p : Nat) (f : WearUnit → WearUnit) : (s.modUnit k p f).nv = s.nv := rfl
@[simp] theorem State.modUnit_eft (s : State) (k p : Nat) (f : WearUnit → WearUnit) : (s.modUnit k p f).eft = s.eft := rfl
@[simp] theorem State.modUnit_octMode (s : State) (k p : Nat) (f : WearUnit → WearUnit) : (s.modUnit k p f).octMode = s.octMode := rfl
@[simp] theorem State.modUnit_lanes (s : State) (k p : Nat) (f : WearUnit → WearUnit) : (s.modUnit k p f).lanes = s.lanes := rfl
@[simp] theorem State.modUnit_ports (s : State) (k p : Nat) (f : WearUnit → WearUnit) : (s.modUnit k p f).ports = s.ports := rfl
@[simp] theorem State.modUnit_hps (s : State) (k p : Nat) (f : WearUnit → WearUnit) : (s.modUnit k p f).hps = s.hps := rfl
@[simp] theorem State.modUnit_fns (s : State) (k p : Nat) (f : WearUnit → WearUnit) : (s.modUnit k p f).fns = s.fns := rfl
@[simp] theorem State.modUnit_unprov (s : State) (k p : Nat) (f : WearUnit → WearUnit) : (s.modUnit k p f).unprov = s.unprov := rfl
@[simp] theorem State.modUnit_mbxs (s : State) (k p : Nat) (f : WearUnit → WearUnit) : (s.modUnit k p f).mbxs = s.mbxs := rfl
@[simp] theorem State.modUnit_boardMbx (s : State) (k p : Nat) (f : WearUnit → WearUnit) : (s.modUnit k p f).boardMbx = s.boardMbx := rfl
@[simp] theorem State.modUnit_allots (s : State) (k p : Nat) (f : WearUnit → WearUnit) : (s.modUnit k p f).allots = s.allots := rfl
@[simp] theorem State.modUnit_wins (s : State) (k p : Nat) (f : WearUnit → WearUnit) : (s.modUnit k p f).wins = s.wins := rfl
@[simp] theorem State.modUnit_exch (s : State) (k p : Nat) (f : WearUnit → WearUnit) : (s.modUnit k p f).exch = s.exch := rfl
@[simp] theorem State.modUnit_region (s : State) (k p : Nat) (f : WearUnit → WearUnit) : (s.modUnit k p f).region = s.region := rfl
@[simp] theorem State.modUnit_reads (s : State) (k p : Nat) (f : WearUnit → WearUnit) : (s.modUnit k p f).reads = s.reads := rfl
@[simp] theorem State.modUnit_ghosts (s : State) (k p : Nat) (f : WearUnit → WearUnit) : (s.modUnit k p f).ghosts = s.ghosts := rfl
@[simp] theorem State.modUnit_pkt (s : State) (k p : Nat) (f : WearUnit → WearUnit) : (s.modUnit k p f).pkt = s.pkt := rfl
@[simp] theorem State.modUnit_sto (s : State) (k p : Nat) (f : WearUnit → WearUnit) : (s.modUnit k p f).sto = s.sto := rfl
@[simp] theorem State.modUnit_cip (s : State) (k p : Nat) (f : WearUnit → WearUnit) : (s.modUnit k p f).cip = s.cip := rfl
@[simp] theorem State.modUnit_skk (s : State) (k p : Nat) (f : WearUnit → WearUnit) : (s.modUnit k p f).skk = s.skk := rfl
@[simp] theorem State.modUnit_meter (s : State) (k p : Nat) (f : WearUnit → WearUnit) : (s.modUnit k p f).meter = s.meter := rfl
@[simp] theorem State.modUnit_migKey (s : State) (k p : Nat) (f : WearUnit → WearUnit) : (s.modUnit k p f).migKey = s.migKey := rfl
@[simp] theorem State.modUnit_migSaves (s : State) (k p : Nat) (f : WearUnit → WearUnit) : (s.modUnit k p f).migSaves = s.migSaves := rfl
@[simp] theorem State.modUnit_i3c (s : State) (k p : Nat) (f : WearUnit → WearUnit) : (s.modUnit k p f).i3c = s.i3c := rfl
@[simp] theorem State.modUnit_chain (s : State) (k p : Nat) (f : WearUnit → WearUnit) : (s.modUnit k p f).chain = s.chain := rfl
@[simp] theorem State.modUnit_dbg (s : State) (k p : Nat) (f : WearUnit → WearUnit) : (s.modUnit k p f).dbg = s.dbg := rfl
@[simp] theorem State.modUnit_ctr (s : State) (k p : Nat) (f : WearUnit → WearUnit) : (s.modUnit k p f).ctr = s.ctr := rfl
@[simp] theorem State.modUnit_free (s : State) (k p : Nat) (f : WearUnit → WearUnit) : (s.modUnit k p f).free = s.free := rfl
@[simp] theorem State.modUnit_out (s : State) (k p : Nat) (f : WearUnit → WearUnit) : (s.modUnit k p f).out = s.out := rfl

/-! ### `modSlot` -/

@[simp] theorem State.modSlot_pending (s : State) (i : Nat) (f : Slot → Slot) : (s.modSlot i f).pending = s.pending := by unfold State.modSlot; split <;> rfl
@[simp] theorem State.modSlot_phase (s : State) (i : Nat) (f : Slot → Slot) : (s.modSlot i f).phase = s.phase := by unfold State.modSlot; split <;> rfl
@[simp] theorem State.modSlot_pins (s : State) (i : Nat) (f : Slot → Slot) : (s.modSlot i f).pins = s.pins := by unfold State.modSlot; split <;> rfl
@[simp] theorem State.modSlot_time (s : State) (i : Nat) (f : Slot → Slot) : (s.modSlot i f).time = s.time := by unfold State.modSlot; split <;> rfl
@[simp] theorem State.modSlot_tick (s : State) (i : Nat) (f : Slot → Slot) : (s.modSlot i f).tick = s.tick := by unfold State.modSlot; split <;> rfl
@[simp] theorem State.modSlot_ppsLocked (s : State) (i : Nat) (f : Slot → Slot) : (s.modSlot i f).ppsLocked = s.ppsLocked := by unfold State.modSlot; split <;> rfl
@[simp] theorem State.modSlot_ptpLocked (s : State) (i : Nat) (f : Slot → Slot) : (s.modSlot i f).ptpLocked = s.ptpLocked := by unfold State.modSlot; split <;> rfl
@[simp] theorem State.modSlot_pow (s : State) (i : Nat) (f : Slot → Slot) : (s.modSlot i f).pow = s.pow := by unfold State.modSlot; split <;> rfl
@[simp] theorem State.modSlot_flt (s : State) (i : Nat) (f : Slot → Slot) : (s.modSlot i f).flt = s.flt := by unfold State.modSlot; split <;> rfl
@[simp] theorem State.modSlot_wear (s : State) (i : Nat) (f : Slot → Slot) : (s.modSlot i f).wear = s.wear := by unfold State.modSlot; split <;> rfl
@[simp] theorem State.modSlot_eft (s : State) (i : Nat) (f : Slot → Slot) : (s.modSlot i f).eft = s.eft := by unfold State.modSlot; split <;> rfl
@[simp] theorem State.modSlot_octMode (s : State) (i : Nat) (f : Slot → Slot) : (s.modSlot i f).octMode = s.octMode := by unfold State.modSlot; split <;> rfl
@[simp] theorem State.modSlot_lanes (s : State) (i : Nat) (f : Slot → Slot) : (s.modSlot i f).lanes = s.lanes := by unfold State.modSlot; split <;> rfl
@[simp] theorem State.modSlot_ports (s : State) (i : Nat) (f : Slot → Slot) : (s.modSlot i f).ports = s.ports := by unfold State.modSlot; split <;> rfl
@[simp] theorem State.modSlot_hps (s : State) (i : Nat) (f : Slot → Slot) : (s.modSlot i f).hps = s.hps := by unfold State.modSlot; split <;> rfl
@[simp] theorem State.modSlot_fns (s : State) (i : Nat) (f : Slot → Slot) : (s.modSlot i f).fns = s.fns := by unfold State.modSlot; split <;> rfl
@[simp] theorem State.modSlot_unprov (s : State) (i : Nat) (f : Slot → Slot) : (s.modSlot i f).unprov = s.unprov := by unfold State.modSlot; split <;> rfl
@[simp] theorem State.modSlot_mbxs (s : State) (i : Nat) (f : Slot → Slot) : (s.modSlot i f).mbxs = s.mbxs := by unfold State.modSlot; split <;> rfl
@[simp] theorem State.modSlot_boardMbx (s : State) (i : Nat) (f : Slot → Slot) : (s.modSlot i f).boardMbx = s.boardMbx := by unfold State.modSlot; split <;> rfl
@[simp] theorem State.modSlot_allots (s : State) (i : Nat) (f : Slot → Slot) : (s.modSlot i f).allots = s.allots := by unfold State.modSlot; split <;> rfl
@[simp] theorem State.modSlot_wins (s : State) (i : Nat) (f : Slot → Slot) : (s.modSlot i f).wins = s.wins := by unfold State.modSlot; split <;> rfl
@[simp] theorem State.modSlot_exch (s : State) (i : Nat) (f : Slot → Slot) : (s.modSlot i f).exch = s.exch := by unfold State.modSlot; split <;> rfl
@[simp] theorem State.modSlot_region (s : State) (i : Nat) (f : Slot → Slot) : (s.modSlot i f).region = s.region := by unfold State.modSlot; split <;> rfl
@[simp] theorem State.modSlot_reads (s : State) (i : Nat) (f : Slot → Slot) : (s.modSlot i f).reads = s.reads := by unfold State.modSlot; split <;> rfl
@[simp] theorem State.modSlot_ghosts (s : State) (i : Nat) (f : Slot → Slot) : (s.modSlot i f).ghosts = s.ghosts := by unfold State.modSlot; split <;> rfl
@[simp] theorem State.modSlot_pkt (s : State) (i : Nat) (f : Slot → Slot) : (s.modSlot i f).pkt = s.pkt := by unfold State.modSlot; split <;> rfl
@[simp] theorem State.modSlot_sto (s : State) (i : Nat) (f : Slot → Slot) : (s.modSlot i f).sto = s.sto := by unfold State.modSlot; split <;> rfl
@[simp] theorem State.modSlot_cip (s : State) (i : Nat) (f : Slot → Slot) : (s.modSlot i f).cip = s.cip := by unfold State.modSlot; split <;> rfl
@[simp] theorem State.modSlot_skk (s : State) (i : Nat) (f : Slot → Slot) : (s.modSlot i f).skk = s.skk := by unfold State.modSlot; split <;> rfl
@[simp] theorem State.modSlot_meter (s : State) (i : Nat) (f : Slot → Slot) : (s.modSlot i f).meter = s.meter := by unfold State.modSlot; split <;> rfl
@[simp] theorem State.modSlot_migKey (s : State) (i : Nat) (f : Slot → Slot) : (s.modSlot i f).migKey = s.migKey := by unfold State.modSlot; split <;> rfl
@[simp] theorem State.modSlot_migSaves (s : State) (i : Nat) (f : Slot → Slot) : (s.modSlot i f).migSaves = s.migSaves := by unfold State.modSlot; split <;> rfl
@[simp] theorem State.modSlot_i3c (s : State) (i : Nat) (f : Slot → Slot) : (s.modSlot i f).i3c = s.i3c := by unfold State.modSlot; split <;> rfl
@[simp] theorem State.modSlot_chain (s : State) (i : Nat) (f : Slot → Slot) : (s.modSlot i f).chain = s.chain := by unfold State.modSlot; split <;> rfl
@[simp] theorem State.modSlot_dbg (s : State) (i : Nat) (f : Slot → Slot) : (s.modSlot i f).dbg = s.dbg := by unfold State.modSlot; split <;> rfl
@[simp] theorem State.modSlot_ctr (s : State) (i : Nat) (f : Slot → Slot) : (s.modSlot i f).ctr = s.ctr := by unfold State.modSlot; split <;> rfl
@[simp] theorem State.modSlot_free (s : State) (i : Nat) (f : Slot → Slot) : (s.modSlot i f).free = s.free := by unfold State.modSlot; split <;> rfl
@[simp] theorem State.modSlot_out (s : State) (i : Nat) (f : Slot → Slot) : (s.modSlot i f).out = s.out := by unfold State.modSlot; split <;> rfl

/-! ### `meterAdd` -/

@[simp] theorem State.meterAdd_pending (s : State) (t i n : Nat) : (s.meterAdd t i n).pending = s.pending := by unfold State.meterAdd; split <;> rfl
@[simp] theorem State.meterAdd_phase (s : State) (t i n : Nat) : (s.meterAdd t i n).phase = s.phase := by unfold State.meterAdd; split <;> rfl
@[simp] theorem State.meterAdd_pins (s : State) (t i n : Nat) : (s.meterAdd t i n).pins = s.pins := by unfold State.meterAdd; split <;> rfl
@[simp] theorem State.meterAdd_time (s : State) (t i n : Nat) : (s.meterAdd t i n).time = s.time := by unfold State.meterAdd; split <;> rfl
@[simp] theorem State.meterAdd_tick (s : State) (t i n : Nat) : (s.meterAdd t i n).tick = s.tick := by unfold State.meterAdd; split <;> rfl
@[simp] theorem State.meterAdd_ppsLocked (s : State) (t i n : Nat) : (s.meterAdd t i n).ppsLocked = s.ppsLocked := by unfold State.meterAdd; split <;> rfl
@[simp] theorem State.meterAdd_ptpLocked (s : State) (t i n : Nat) : (s.meterAdd t i n).ptpLocked = s.ptpLocked := by unfold State.meterAdd; split <;> rfl
@[simp] theorem State.meterAdd_pow (s : State) (t i n : Nat) : (s.meterAdd t i n).pow = s.pow := by unfold State.meterAdd; split <;> rfl
@[simp] theorem State.meterAdd_flt (s : State) (t i n : Nat) : (s.meterAdd t i n).flt = s.flt := by unfold State.meterAdd; split <;> rfl
@[simp] theorem State.meterAdd_wear (s : State) (t i n : Nat) : (s.meterAdd t i n).wear = s.wear := by unfold State.meterAdd; split <;> rfl
@[simp] theorem State.meterAdd_nv (s : State) (t i n : Nat) : (s.meterAdd t i n).nv = s.nv := by unfold State.meterAdd; split <;> rfl
@[simp] theorem State.meterAdd_eft (s : State) (t i n : Nat) : (s.meterAdd t i n).eft = s.eft := by unfold State.meterAdd; split <;> rfl
@[simp] theorem State.meterAdd_octMode (s : State) (t i n : Nat) : (s.meterAdd t i n).octMode = s.octMode := by unfold State.meterAdd; split <;> rfl
@[simp] theorem State.meterAdd_lanes (s : State) (t i n : Nat) : (s.meterAdd t i n).lanes = s.lanes := by unfold State.meterAdd; split <;> rfl
@[simp] theorem State.meterAdd_ports (s : State) (t i n : Nat) : (s.meterAdd t i n).ports = s.ports := by unfold State.meterAdd; split <;> rfl
@[simp] theorem State.meterAdd_hps (s : State) (t i n : Nat) : (s.meterAdd t i n).hps = s.hps := by unfold State.meterAdd; split <;> rfl
@[simp] theorem State.meterAdd_fns (s : State) (t i n : Nat) : (s.meterAdd t i n).fns = s.fns := by unfold State.meterAdd; split <;> rfl
@[simp] theorem State.meterAdd_unprov (s : State) (t i n : Nat) : (s.meterAdd t i n).unprov = s.unprov := by unfold State.meterAdd; split <;> rfl
@[simp] theorem State.meterAdd_mbxs (s : State) (t i n : Nat) : (s.meterAdd t i n).mbxs = s.mbxs := by unfold State.meterAdd; split <;> rfl
@[simp] theorem State.meterAdd_boardMbx (s : State) (t i n : Nat) : (s.meterAdd t i n).boardMbx = s.boardMbx := by unfold State.meterAdd; split <;> rfl
@[simp] theorem State.meterAdd_allots (s : State) (t i n : Nat) : (s.meterAdd t i n).allots = s.allots := by unfold State.meterAdd; split <;> rfl
@[simp] theorem State.meterAdd_wins (s : State) (t i n : Nat) : (s.meterAdd t i n).wins = s.wins := by unfold State.meterAdd; split <;> rfl
@[simp] theorem State.meterAdd_exch (s : State) (t i n : Nat) : (s.meterAdd t i n).exch = s.exch := by unfold State.meterAdd; split <;> rfl
@[simp] theorem State.meterAdd_region (s : State) (t i n : Nat) : (s.meterAdd t i n).region = s.region := by unfold State.meterAdd; split <;> rfl
@[simp] theorem State.meterAdd_reads (s : State) (t i n : Nat) : (s.meterAdd t i n).reads = s.reads := by unfold State.meterAdd; split <;> rfl
@[simp] theorem State.meterAdd_ghosts (s : State) (t i n : Nat) : (s.meterAdd t i n).ghosts = s.ghosts := by unfold State.meterAdd; split <;> rfl
@[simp] theorem State.meterAdd_pkt (s : State) (t i n : Nat) : (s.meterAdd t i n).pkt = s.pkt := by unfold State.meterAdd; split <;> rfl
@[simp] theorem State.meterAdd_sto (s : State) (t i n : Nat) : (s.meterAdd t i n).sto = s.sto := by unfold State.meterAdd; split <;> rfl
@[simp] theorem State.meterAdd_cip (s : State) (t i n : Nat) : (s.meterAdd t i n).cip = s.cip := by unfold State.meterAdd; split <;> rfl
@[simp] theorem State.meterAdd_skk (s : State) (t i n : Nat) : (s.meterAdd t i n).skk = s.skk := by unfold State.meterAdd; split <;> rfl
@[simp] theorem State.meterAdd_migKey (s : State) (t i n : Nat) : (s.meterAdd t i n).migKey = s.migKey := by unfold State.meterAdd; split <;> rfl
@[simp] theorem State.meterAdd_migSaves (s : State) (t i n : Nat) : (s.meterAdd t i n).migSaves = s.migSaves := by unfold State.meterAdd; split <;> rfl
@[simp] theorem State.meterAdd_i3c (s : State) (t i n : Nat) : (s.meterAdd t i n).i3c = s.i3c := by unfold State.meterAdd; split <;> rfl
@[simp] theorem State.meterAdd_chain (s : State) (t i n : Nat) : (s.meterAdd t i n).chain = s.chain := by unfold State.meterAdd; split <;> rfl
@[simp] theorem State.meterAdd_dbg (s : State) (t i n : Nat) : (s.meterAdd t i n).dbg = s.dbg := by unfold State.meterAdd; split <;> rfl
@[simp] theorem State.meterAdd_ctr (s : State) (t i n : Nat) : (s.meterAdd t i n).ctr = s.ctr := by unfold State.meterAdd; split <;> rfl
@[simp] theorem State.meterAdd_free (s : State) (t i n : Nat) : (s.meterAdd t i n).free = s.free := by unfold State.meterAdd; split <;> rfl
@[simp] theorem State.meterAdd_out (s : State) (t i n : Nat) : (s.meterAdd t i n).out = s.out := by unfold State.meterAdd; split <;> rfl

/-! ### `modI3c` -/

@[simp] theorem State.modI3c_pending (s : State) (f : I3c → I3c) : (s.modI3c f).pending = s.pending := rfl
@[simp] theorem State.modI3c_phase (s : State) (f : I3c → I3c) : (s.modI3c f).phase = s.phase := rfl
@[simp] theorem State.modI3c_pins (s : State) (f : I3c → I3c) : (s.modI3c f).pins = s.pins := rfl
@[simp] theorem State.modI3c_time (s : State) (f : I3c → I3c) : (s.modI3c f).time = s.time := rfl
@[simp] theorem State.modI3c_tick (s : State) (f : I3c → I3c) : (s.modI3c f).tick = s.tick := rfl
@[simp] theorem State.modI3c_ppsLocked (s : State) (f : I3c → I3c) : (s.modI3c f).ppsLocked = s.ppsLocked := rfl
@[simp] theorem State.modI3c_ptpLocked (s : State) (f : I3c → I3c) : (s.modI3c f).ptpLocked = s.ptpLocked := rfl
@[simp] theorem State.modI3c_pow (s : State) (f : I3c → I3c) : (s.modI3c f).pow = s.pow := rfl
@[simp] theorem State.modI3c_flt (s : State) (f : I3c → I3c) : (s.modI3c f).flt = s.flt := rfl
@[simp] theorem State.modI3c_wear (s : State) (f : I3c → I3c) : (s.modI3c f).wear = s.wear := rfl
@[simp] theorem State.modI3c_nv (s : State) (f : I3c → I3c) : (s.modI3c f).nv = s.nv := rfl
@[simp] theorem State.modI3c_eft (s : State) (f : I3c → I3c) : (s.modI3c f).eft = s.eft := rfl
@[simp] theorem State.modI3c_octMode (s : State) (f : I3c → I3c) : (s.modI3c f).octMode = s.octMode := rfl
@[simp] theorem State.modI3c_lanes (s : State) (f : I3c → I3c) : (s.modI3c f).lanes = s.lanes := rfl
@[simp] theorem State.modI3c_ports (s : State) (f : I3c → I3c) : (s.modI3c f).ports = s.ports := rfl
@[simp] theorem State.modI3c_hps (s : State) (f : I3c → I3c) : (s.modI3c f).hps = s.hps := rfl
@[simp] theorem State.modI3c_fns (s : State) (f : I3c → I3c) : (s.modI3c f).fns = s.fns := rfl
@[simp] theorem State.modI3c_unprov (s : State) (f : I3c → I3c) : (s.modI3c f).unprov = s.unprov := rfl
@[simp] theorem State.modI3c_mbxs (s : State) (f : I3c → I3c) : (s.modI3c f).mbxs = s.mbxs := rfl
@[simp] theorem State.modI3c_boardMbx (s : State) (f : I3c → I3c) : (s.modI3c f).boardMbx = s.boardMbx := rfl
@[simp] theorem State.modI3c_allots (s : State) (f : I3c → I3c) : (s.modI3c f).allots = s.allots := rfl
@[simp] theorem State.modI3c_wins (s : State) (f : I3c → I3c) : (s.modI3c f).wins = s.wins := rfl
@[simp] theorem State.modI3c_exch (s : State) (f : I3c → I3c) : (s.modI3c f).exch = s.exch := rfl
@[simp] theorem State.modI3c_region (s : State) (f : I3c → I3c) : (s.modI3c f).region = s.region := rfl
@[simp] theorem State.modI3c_reads (s : State) (f : I3c → I3c) : (s.modI3c f).reads = s.reads := rfl
@[simp] theorem State.modI3c_ghosts (s : State) (f : I3c → I3c) : (s.modI3c f).ghosts = s.ghosts := rfl
@[simp] theorem State.modI3c_pkt (s : State) (f : I3c → I3c) : (s.modI3c f).pkt = s.pkt := rfl
@[simp] theorem State.modI3c_sto (s : State) (f : I3c → I3c) : (s.modI3c f).sto = s.sto := rfl
@[simp] theorem State.modI3c_cip (s : State) (f : I3c → I3c) : (s.modI3c f).cip = s.cip := rfl
@[simp] theorem State.modI3c_skk (s : State) (f : I3c → I3c) : (s.modI3c f).skk = s.skk := rfl
@[simp] theorem State.modI3c_meter (s : State) (f : I3c → I3c) : (s.modI3c f).meter = s.meter := rfl
@[simp] theorem State.modI3c_migKey (s : State) (f : I3c → I3c) : (s.modI3c f).migKey = s.migKey := rfl
@[simp] theorem State.modI3c_migSaves (s : State) (f : I3c → I3c) : (s.modI3c f).migSaves = s.migSaves := rfl
@[simp] theorem State.modI3c_chain (s : State) (f : I3c → I3c) : (s.modI3c f).chain = s.chain := rfl
@[simp] theorem State.modI3c_dbg (s : State) (f : I3c → I3c) : (s.modI3c f).dbg = s.dbg := rfl
@[simp] theorem State.modI3c_ctr (s : State) (f : I3c → I3c) : (s.modI3c f).ctr = s.ctr := rfl
@[simp] theorem State.modI3c_free (s : State) (f : I3c → I3c) : (s.modI3c f).free = s.free := rfl
@[simp] theorem State.modI3c_out (s : State) (f : I3c → I3c) : (s.modI3c f).out = s.out := rfl

/-! ### `modChain` -/

@[simp] theorem State.modChain_pending (s : State) (f : Chain → Chain) : (s.modChain f).pending = s.pending := rfl
@[simp] theorem State.modChain_phase (s : State) (f : Chain → Chain) : (s.modChain f).phase = s.phase := rfl
@[simp] theorem State.modChain_pins (s : State) (f : Chain → Chain) : (s.modChain f).pins = s.pins := rfl
@[simp] theorem State.modChain_time (s : State) (f : Chain → Chain) : (s.modChain f).time = s.time := rfl
@[simp] theorem State.modChain_tick (s : State) (f : Chain → Chain) : (s.modChain f).tick = s.tick := rfl
@[simp] theorem State.modChain_ppsLocked (s : State) (f : Chain → Chain) : (s.modChain f).ppsLocked = s.ppsLocked := rfl
@[simp] theorem State.modChain_ptpLocked (s : State) (f : Chain → Chain) : (s.modChain f).ptpLocked = s.ptpLocked := rfl
@[simp] theorem State.modChain_pow (s : State) (f : Chain → Chain) : (s.modChain f).pow = s.pow := rfl
@[simp] theorem State.modChain_flt (s : State) (f : Chain → Chain) : (s.modChain f).flt = s.flt := rfl
@[simp] theorem State.modChain_wear (s : State) (f : Chain → Chain) : (s.modChain f).wear = s.wear := rfl
@[simp] theorem State.modChain_nv (s : State) (f : Chain → Chain) : (s.modChain f).nv = s.nv := rfl
@[simp] theorem State.modChain_eft (s : State) (f : Chain → Chain) : (s.modChain f).eft = s.eft := rfl
@[simp] theorem State.modChain_octMode (s : State) (f : Chain → Chain) : (s.modChain f).octMode = s.octMode := rfl
@[simp] theorem State.modChain_lanes (s : State) (f : Chain → Chain) : (s.modChain f).lanes = s.lanes := rfl
@[simp] theorem State.modChain_ports (s : State) (f : Chain → Chain) : (s.modChain f).ports = s.ports := rfl
@[simp] theorem State.modChain_hps (s : State) (f : Chain → Chain) : (s.modChain f).hps = s.hps := rfl
@[simp] theorem State.modChain_fns (s : State) (f : Chain → Chain) : (s.modChain f).fns = s.fns := rfl
@[simp] theorem State.modChain_unprov (s : State) (f : Chain → Chain) : (s.modChain f).unprov = s.unprov := rfl
@[simp] theorem State.modChain_mbxs (s : State) (f : Chain → Chain) : (s.modChain f).mbxs = s.mbxs := rfl
@[simp] theorem State.modChain_boardMbx (s : State) (f : Chain → Chain) : (s.modChain f).boardMbx = s.boardMbx := rfl
@[simp] theorem State.modChain_allots (s : State) (f : Chain → Chain) : (s.modChain f).allots = s.allots := rfl
@[simp] theorem State.modChain_wins (s : State) (f : Chain → Chain) : (s.modChain f).wins = s.wins := rfl
@[simp] theorem State.modChain_exch (s : State) (f : Chain → Chain) : (s.modChain f).exch = s.exch := rfl
@[simp] theorem State.modChain_region (s : State) (f : Chain → Chain) : (s.modChain f).region = s.region := rfl
@[simp] theorem State.modChain_reads (s : State) (f : Chain → Chain) : (s.modChain f).reads = s.reads := rfl
@[simp] theorem State.modChain_ghosts (s : State) (f : Chain → Chain) : (s.modChain f).ghosts = s.ghosts := rfl
@[simp] theorem State.modChain_pkt (s : State) (f : Chain → Chain) : (s.modChain f).pkt = s.pkt := rfl
@[simp] theorem State.modChain_sto (s : State) (f : Chain → Chain) : (s.modChain f).sto = s.sto := rfl
@[simp] theorem State.modChain_cip (s : State) (f : Chain → Chain) : (s.modChain f).cip = s.cip := rfl
@[simp] theorem State.modChain_skk (s : State) (f : Chain → Chain) : (s.modChain f).skk = s.skk := rfl
@[simp] theorem State.modChain_meter (s : State) (f : Chain → Chain) : (s.modChain f).meter = s.meter := rfl
@[simp] theorem State.modChain_migKey (s : State) (f : Chain → Chain) : (s.modChain f).migKey = s.migKey := rfl
@[simp] theorem State.modChain_migSaves (s : State) (f : Chain → Chain) : (s.modChain f).migSaves = s.migSaves := rfl
@[simp] theorem State.modChain_i3c (s : State) (f : Chain → Chain) : (s.modChain f).i3c = s.i3c := rfl
@[simp] theorem State.modChain_dbg (s : State) (f : Chain → Chain) : (s.modChain f).dbg = s.dbg := rfl
@[simp] theorem State.modChain_ctr (s : State) (f : Chain → Chain) : (s.modChain f).ctr = s.ctr := rfl
@[simp] theorem State.modChain_free (s : State) (f : Chain → Chain) : (s.modChain f).free = s.free := rfl
@[simp] theorem State.modChain_out (s : State) (f : Chain → Chain) : (s.modChain f).out = s.out := rfl

/-! ### `modDbg` -/

@[simp] theorem State.modDbg_pending (s : State) (f : Debug → Debug) : (s.modDbg f).pending = s.pending := rfl
@[simp] theorem State.modDbg_phase (s : State) (f : Debug → Debug) : (s.modDbg f).phase = s.phase := rfl
@[simp] theorem State.modDbg_pins (s : State) (f : Debug → Debug) : (s.modDbg f).pins = s.pins := rfl
@[simp] theorem State.modDbg_time (s : State) (f : Debug → Debug) : (s.modDbg f).time = s.time := rfl
@[simp] theorem State.modDbg_tick (s : State) (f : Debug → Debug) : (s.modDbg f).tick = s.tick := rfl
@[simp] theorem State.modDbg_ppsLocked (s : State) (f : Debug → Debug) : (s.modDbg f).ppsLocked = s.ppsLocked := rfl
@[simp] theorem State.modDbg_ptpLocked (s : State) (f : Debug → Debug) : (s.modDbg f).ptpLocked = s.ptpLocked := rfl
@[simp] theorem State.modDbg_pow (s : State) (f : Debug → Debug) : (s.modDbg f).pow = s.pow := rfl
@[simp] theorem State.modDbg_flt (s : State) (f : Debug → Debug) : (s.modDbg f).flt = s.flt := rfl
@[simp] theorem State.modDbg_wear (s : State) (f : Debug → Debug) : (s.modDbg f).wear = s.wear := rfl
@[simp] theorem State.modDbg_nv (s : State) (f : Debug → Debug) : (s.modDbg f).nv = s.nv := rfl
@[simp] theorem State.modDbg_eft (s : State) (f : Debug → Debug) : (s.modDbg f).eft = s.eft := rfl
@[simp] theorem State.modDbg_octMode (s : State) (f : Debug → Debug) : (s.modDbg f).octMode = s.octMode := rfl
@[simp] theorem State.modDbg_lanes (s : State) (f : Debug → Debug) : (s.modDbg f).lanes = s.lanes := rfl
@[simp] theorem State.modDbg_ports (s : State) (f : Debug → Debug) : (s.modDbg f).ports = s.ports := rfl
@[simp] theorem State.modDbg_hps (s : State) (f : Debug → Debug) : (s.modDbg f).hps = s.hps := rfl
@[simp] theorem State.modDbg_fns (s : State) (f : Debug → Debug) : (s.modDbg f).fns = s.fns := rfl
@[simp] theorem State.modDbg_unprov (s : State) (f : Debug → Debug) : (s.modDbg f).unprov = s.unprov := rfl
@[simp] theorem State.modDbg_mbxs (s : State) (f : Debug → Debug) : (s.modDbg f).mbxs = s.mbxs := rfl
@[simp] theorem State.modDbg_boardMbx (s : State) (f : Debug → Debug) : (s.modDbg f).boardMbx = s.boardMbx := rfl
@[simp] theorem State.modDbg_allots (s : State) (f : Debug → Debug) : (s.modDbg f).allots = s.allots := rfl
@[simp] theorem State.modDbg_wins (s : State) (f : Debug → Debug) : (s.modDbg f).wins = s.wins := rfl
@[simp] theorem State.modDbg_exch (s : State) (f : Debug → Debug) : (s.modDbg f).exch = s.exch := rfl
@[simp] theorem State.modDbg_region (s : State) (f : Debug → Debug) : (s.modDbg f).region = s.region := rfl
@[simp] theorem State.modDbg_reads (s : State) (f : Debug → Debug) : (s.modDbg f).reads = s.reads := rfl
@[simp] theorem State.modDbg_ghosts (s : State) (f : Debug → Debug) : (s.modDbg f).ghosts = s.ghosts := rfl
@[simp] theorem State.modDbg_pkt (s : State) (f : Debug → Debug) : (s.modDbg f).pkt = s.pkt := rfl
@[simp] theorem State.modDbg_sto (s : State) (f : Debug → Debug) : (s.modDbg f).sto = s.sto := rfl
@[simp] theorem State.modDbg_cip (s : State) (f : Debug → Debug) : (s.modDbg f).cip = s.cip := rfl
@[simp] theorem State.modDbg_skk (s : State) (f : Debug → Debug) : (s.modDbg f).skk = s.skk := rfl
@[simp] theorem State.modDbg_meter (s : State) (f : Debug → Debug) : (s.modDbg f).meter = s.meter := rfl
@[simp] theorem State.modDbg_migKey (s : State) (f : Debug → Debug) : (s.modDbg f).migKey = s.migKey := rfl
@[simp] theorem State.modDbg_migSaves (s : State) (f : Debug → Debug) : (s.modDbg f).migSaves = s.migSaves := rfl
@[simp] theorem State.modDbg_i3c (s : State) (f : Debug → Debug) : (s.modDbg f).i3c = s.i3c := rfl
@[simp] theorem State.modDbg_chain (s : State) (f : Debug → Debug) : (s.modDbg f).chain = s.chain := rfl
@[simp] theorem State.modDbg_ctr (s : State) (f : Debug → Debug) : (s.modDbg f).ctr = s.ctr := rfl
@[simp] theorem State.modDbg_free (s : State) (f : Debug → Debug) : (s.modDbg f).free = s.free := rfl
@[simp] theorem State.modDbg_out (s : State) (f : Debug → Debug) : (s.modDbg f).out = s.out := rfl

/-! ### `emits` -/

@[simp] theorem State.emits_pending (s : State) (l : List Output) : (l.foldl State.emit s).pending = s.pending := by induction l generalizing s <;> simp_all
@[simp] theorem State.emits_phase (s : State) (l : List Output) : (l.foldl State.emit s).phase = s.phase := by induction l generalizing s <;> simp_all
@[simp] theorem State.emits_pins (s : State) (l : List Output) : (l.foldl State.emit s).pins = s.pins := by induction l generalizing s <;> simp_all
@[simp] theorem State.emits_time (s : State) (l : List Output) : (l.foldl State.emit s).time = s.time := by induction l generalizing s <;> simp_all
@[simp] theorem State.emits_tick (s : State) (l : List Output) : (l.foldl State.emit s).tick = s.tick := by induction l generalizing s <;> simp_all
@[simp] theorem State.emits_ppsLocked (s : State) (l : List Output) : (l.foldl State.emit s).ppsLocked = s.ppsLocked := by induction l generalizing s <;> simp_all
@[simp] theorem State.emits_ptpLocked (s : State) (l : List Output) : (l.foldl State.emit s).ptpLocked = s.ptpLocked := by induction l generalizing s <;> simp_all
@[simp] theorem State.emits_pow (s : State) (l : List Output) : (l.foldl State.emit s).pow = s.pow := by induction l generalizing s <;> simp_all
@[simp] theorem State.emits_flt (s : State) (l : List Output) : (l.foldl State.emit s).flt = s.flt := by induction l generalizing s <;> simp_all
@[simp] theorem State.emits_wear (s : State) (l : List Output) : (l.foldl State.emit s).wear = s.wear := by induction l generalizing s <;> simp_all
@[simp] theorem State.emits_nv (s : State) (l : List Output) : (l.foldl State.emit s).nv = s.nv := by induction l generalizing s <;> simp_all
@[simp] theorem State.emits_eft (s : State) (l : List Output) : (l.foldl State.emit s).eft = s.eft := by induction l generalizing s <;> simp_all
@[simp] theorem State.emits_octMode (s : State) (l : List Output) : (l.foldl State.emit s).octMode = s.octMode := by induction l generalizing s <;> simp_all
@[simp] theorem State.emits_lanes (s : State) (l : List Output) : (l.foldl State.emit s).lanes = s.lanes := by induction l generalizing s <;> simp_all
@[simp] theorem State.emits_ports (s : State) (l : List Output) : (l.foldl State.emit s).ports = s.ports := by induction l generalizing s <;> simp_all
@[simp] theorem State.emits_hps (s : State) (l : List Output) : (l.foldl State.emit s).hps = s.hps := by induction l generalizing s <;> simp_all
@[simp] theorem State.emits_fns (s : State) (l : List Output) : (l.foldl State.emit s).fns = s.fns := by induction l generalizing s <;> simp_all
@[simp] theorem State.emits_unprov (s : State) (l : List Output) : (l.foldl State.emit s).unprov = s.unprov := by induction l generalizing s <;> simp_all
@[simp] theorem State.emits_mbxs (s : State) (l : List Output) : (l.foldl State.emit s).mbxs = s.mbxs := by induction l generalizing s <;> simp_all
@[simp] theorem State.emits_boardMbx (s : State) (l : List Output) : (l.foldl State.emit s).boardMbx = s.boardMbx := by induction l generalizing s <;> simp_all
@[simp] theorem State.emits_allots (s : State) (l : List Output) : (l.foldl State.emit s).allots = s.allots := by induction l generalizing s <;> simp_all
@[simp] theorem State.emits_wins (s : State) (l : List Output) : (l.foldl State.emit s).wins = s.wins := by induction l generalizing s <;> simp_all
@[simp] theorem State.emits_exch (s : State) (l : List Output) : (l.foldl State.emit s).exch = s.exch := by induction l generalizing s <;> simp_all
@[simp] theorem State.emits_region (s : State) (l : List Output) : (l.foldl State.emit s).region = s.region := by induction l generalizing s <;> simp_all
@[simp] theorem State.emits_reads (s : State) (l : List Output) : (l.foldl State.emit s).reads = s.reads := by induction l generalizing s <;> simp_all
@[simp] theorem State.emits_ghosts (s : State) (l : List Output) : (l.foldl State.emit s).ghosts = s.ghosts := by induction l generalizing s <;> simp_all
@[simp] theorem State.emits_pkt (s : State) (l : List Output) : (l.foldl State.emit s).pkt = s.pkt := by induction l generalizing s <;> simp_all
@[simp] theorem State.emits_sto (s : State) (l : List Output) : (l.foldl State.emit s).sto = s.sto := by induction l generalizing s <;> simp_all
@[simp] theorem State.emits_cip (s : State) (l : List Output) : (l.foldl State.emit s).cip = s.cip := by induction l generalizing s <;> simp_all
@[simp] theorem State.emits_skk (s : State) (l : List Output) : (l.foldl State.emit s).skk = s.skk := by induction l generalizing s <;> simp_all
@[simp] theorem State.emits_meter (s : State) (l : List Output) : (l.foldl State.emit s).meter = s.meter := by induction l generalizing s <;> simp_all
@[simp] theorem State.emits_migKey (s : State) (l : List Output) : (l.foldl State.emit s).migKey = s.migKey := by induction l generalizing s <;> simp_all
@[simp] theorem State.emits_migSaves (s : State) (l : List Output) : (l.foldl State.emit s).migSaves = s.migSaves := by induction l generalizing s <;> simp_all
@[simp] theorem State.emits_i3c (s : State) (l : List Output) : (l.foldl State.emit s).i3c = s.i3c := by induction l generalizing s <;> simp_all
@[simp] theorem State.emits_chain (s : State) (l : List Output) : (l.foldl State.emit s).chain = s.chain := by induction l generalizing s <;> simp_all
@[simp] theorem State.emits_dbg (s : State) (l : List Output) : (l.foldl State.emit s).dbg = s.dbg := by induction l generalizing s <;> simp_all
@[simp] theorem State.emits_ctr (s : State) (l : List Output) : (l.foldl State.emit s).ctr = s.ctr := by induction l generalizing s <;> simp_all
@[simp] theorem State.emits_free (s : State) (l : List Output) : (l.foldl State.emit s).free = s.free := by induction l generalizing s <;> simp_all

/-! ### `hostWr` -/

@[simp] theorem State.hostWr_pending (s : State) (i a : Nat) (bs : List Byte) : (s.hostWr i a bs).pending = s.pending := by unfold State.hostWr; repeat (first | split | simp)
@[simp] theorem State.hostWr_phase (s : State) (i a : Nat) (bs : List Byte) : (s.hostWr i a bs).phase = s.phase := by unfold State.hostWr; repeat (first | split | simp)
@[simp] theorem State.hostWr_pins (s : State) (i a : Nat) (bs : List Byte) : (s.hostWr i a bs).pins = s.pins := by unfold State.hostWr; repeat (first | split | simp)
@[simp] theorem State.hostWr_time (s : State) (i a : Nat) (bs : List Byte) : (s.hostWr i a bs).time = s.time := by unfold State.hostWr; repeat (first | split | simp)
@[simp] theorem State.hostWr_tick (s : State) (i a : Nat) (bs : List Byte) : (s.hostWr i a bs).tick = s.tick := by unfold State.hostWr; repeat (first | split | simp)
@[simp] theorem State.hostWr_ppsLocked (s : State) (i a : Nat) (bs : List Byte) : (s.hostWr i a bs).ppsLocked = s.ppsLocked := by unfold State.hostWr; repeat (first | split | simp)
@[simp] theorem State.hostWr_ptpLocked (s : State) (i a : Nat) (bs : List Byte) : (s.hostWr i a bs).ptpLocked = s.ptpLocked := by unfold State.hostWr; repeat (first | split | simp)
@[simp] theorem State.hostWr_pow (s : State) (i a : Nat) (bs : List Byte) : (s.hostWr i a bs).pow = s.pow := by unfold State.hostWr; repeat (first | split | simp)
@[simp] theorem State.hostWr_flt (s : State) (i a : Nat) (bs : List Byte) : (s.hostWr i a bs).flt = s.flt := by unfold State.hostWr; repeat (first | split | simp)
@[simp] theorem State.hostWr_wear (s : State) (i a : Nat) (bs : List Byte) : (s.hostWr i a bs).wear = s.wear := by unfold State.hostWr; repeat (first | split | simp)
@[simp] theorem State.hostWr_nv (s : State) (i a : Nat) (bs : List Byte) : (s.hostWr i a bs).nv = s.nv := by unfold State.hostWr; repeat (first | split | simp)
@[simp] theorem State.hostWr_eft (s : State) (i a : Nat) (bs : List Byte) : (s.hostWr i a bs).eft = s.eft := by unfold State.hostWr; repeat (first | split | simp)
@[simp] theorem State.hostWr_octMode (s : State) (i a : Nat) (bs : List Byte) : (s.hostWr i a bs).octMode = s.octMode := by unfold State.hostWr; repeat (first | split | simp)
@[simp] theorem State.hostWr_lanes (s : State) (i a : Nat) (bs : List Byte) : (s.hostWr i a bs).lanes = s.lanes := by unfold State.hostWr; repeat (first | split | simp)
@[simp] theorem State.hostWr_ports (s : State) (i a : Nat) (bs : List Byte) : (s.hostWr i a bs).ports = s.ports := by unfold State.hostWr; repeat (first | split | simp)
@[simp] theorem State.hostWr_unprov (s : State) (i a : Nat) (bs : List Byte) : (s.hostWr i a bs).unprov = s.unprov := by unfold State.hostWr; repeat (first | split | simp)
@[simp] theorem State.hostWr_mbxs (s : State) (i a : Nat) (bs : List Byte) : (s.hostWr i a bs).mbxs = s.mbxs := by unfold State.hostWr; repeat (first | split | simp)
@[simp] theorem State.hostWr_boardMbx (s : State) (i a : Nat) (bs : List Byte) : (s.hostWr i a bs).boardMbx = s.boardMbx := by unfold State.hostWr; repeat (first | split | simp)
@[simp] theorem State.hostWr_allots (s : State) (i a : Nat) (bs : List Byte) : (s.hostWr i a bs).allots = s.allots := by unfold State.hostWr; repeat (first | split | simp)
@[simp] theorem State.hostWr_wins (s : State) (i a : Nat) (bs : List Byte) : (s.hostWr i a bs).wins = s.wins := by unfold State.hostWr; repeat (first | split | simp)
@[simp] theorem State.hostWr_exch (s : State) (i a : Nat) (bs : List Byte) : (s.hostWr i a bs).exch = s.exch := by unfold State.hostWr; repeat (first | split | simp)
@[simp] theorem State.hostWr_region (s : State) (i a : Nat) (bs : List Byte) : (s.hostWr i a bs).region = s.region := by unfold State.hostWr; repeat (first | split | simp)
@[simp] theorem State.hostWr_reads (s : State) (i a : Nat) (bs : List Byte) : (s.hostWr i a bs).reads = s.reads := by unfold State.hostWr; repeat (first | split | simp)
@[simp] theorem State.hostWr_ghosts (s : State) (i a : Nat) (bs : List Byte) : (s.hostWr i a bs).ghosts = s.ghosts := by unfold State.hostWr; repeat (first | split | simp)
@[simp] theorem State.hostWr_pkt (s : State) (i a : Nat) (bs : List Byte) : (s.hostWr i a bs).pkt = s.pkt := by unfold State.hostWr; repeat (first | split | simp)
@[simp] theorem State.hostWr_sto (s : State) (i a : Nat) (bs : List Byte) : (s.hostWr i a bs).sto = s.sto := by unfold State.hostWr; repeat (first | split | simp)
@[simp] theorem State.hostWr_cip (s : State) (i a : Nat) (bs : List Byte) : (s.hostWr i a bs).cip = s.cip := by unfold State.hostWr; repeat (first | split | simp)
@[simp] theorem State.hostWr_skk (s : State) (i a : Nat) (bs : List Byte) : (s.hostWr i a bs).skk = s.skk := by unfold State.hostWr; repeat (first | split | simp)
@[simp] theorem State.hostWr_meter (s : State) (i a : Nat) (bs : List Byte) : (s.hostWr i a bs).meter = s.meter := by unfold State.hostWr; repeat (first | split | simp)
@[simp] theorem State.hostWr_migKey (s : State) (i a : Nat) (bs : List Byte) : (s.hostWr i a bs).migKey = s.migKey := by unfold State.hostWr; repeat (first | split | simp)
@[simp] theorem State.hostWr_migSaves (s : State) (i a : Nat) (bs : List Byte) : (s.hostWr i a bs).migSaves = s.migSaves := by unfold State.hostWr; repeat (first | split | simp)
@[simp] theorem State.hostWr_i3c (s : State) (i a : Nat) (bs : List Byte) : (s.hostWr i a bs).i3c = s.i3c := by unfold State.hostWr; repeat (first | split | simp)
@[simp] theorem State.hostWr_chain (s : State) (i a : Nat) (bs : List Byte) : (s.hostWr i a bs).chain = s.chain := by unfold State.hostWr; repeat (first | split | simp)
@[simp] theorem State.hostWr_dbg (s : State) (i a : Nat) (bs : List Byte) : (s.hostWr i a bs).dbg = s.dbg := by unfold State.hostWr; repeat (first | split | simp)
@[simp] theorem State.hostWr_ctr (s : State) (i a : Nat) (bs : List Byte) : (s.hostWr i a bs).ctr = s.ctr := by unfold State.hostWr; repeat (first | split | simp)
@[simp] theorem State.hostWr_free (s : State) (i a : Nat) (bs : List Byte) : (s.hostWr i a bs).free = s.free := by unfold State.hostWr; repeat (first | split | simp)

/-! ### `pmeSet` -/

@[simp] theorem State.pmeSet_pending (s : State) (i : Nat) : (s.pmeSet i).pending = s.pending := by unfold State.pmeSet; dsimp only; split <;> simp
@[simp] theorem State.pmeSet_phase (s : State) (i : Nat) : (s.pmeSet i).phase = s.phase := by unfold State.pmeSet; dsimp only; split <;> simp
@[simp] theorem State.pmeSet_pins (s : State) (i : Nat) : (s.pmeSet i).pins = s.pins := by unfold State.pmeSet; dsimp only; split <;> simp
@[simp] theorem State.pmeSet_time (s : State) (i : Nat) : (s.pmeSet i).time = s.time := by unfold State.pmeSet; dsimp only; split <;> simp
@[simp] theorem State.pmeSet_tick (s : State) (i : Nat) : (s.pmeSet i).tick = s.tick := by unfold State.pmeSet; dsimp only; split <;> simp
@[simp] theorem State.pmeSet_ppsLocked (s : State) (i : Nat) : (s.pmeSet i).ppsLocked = s.ppsLocked := by unfold State.pmeSet; dsimp only; split <;> simp
@[simp] theorem State.pmeSet_ptpLocked (s : State) (i : Nat) : (s.pmeSet i).ptpLocked = s.ptpLocked := by unfold State.pmeSet; dsimp only; split <;> simp
@[simp] theorem State.pmeSet_pow (s : State) (i : Nat) : (s.pmeSet i).pow = s.pow := by unfold State.pmeSet; dsimp only; split <;> simp
@[simp] theorem State.pmeSet_flt (s : State) (i : Nat) : (s.pmeSet i).flt = s.flt := by unfold State.pmeSet; dsimp only; split <;> simp
@[simp] theorem State.pmeSet_wear (s : State) (i : Nat) : (s.pmeSet i).wear = s.wear := by unfold State.pmeSet; dsimp only; split <;> simp
@[simp] theorem State.pmeSet_nv (s : State) (i : Nat) : (s.pmeSet i).nv = s.nv := by unfold State.pmeSet; dsimp only; split <;> simp
@[simp] theorem State.pmeSet_eft (s : State) (i : Nat) : (s.pmeSet i).eft = s.eft := by unfold State.pmeSet; dsimp only; split <;> simp
@[simp] theorem State.pmeSet_octMode (s : State) (i : Nat) : (s.pmeSet i).octMode = s.octMode := by unfold State.pmeSet; dsimp only; split <;> simp
@[simp] theorem State.pmeSet_lanes (s : State) (i : Nat) : (s.pmeSet i).lanes = s.lanes := by unfold State.pmeSet; dsimp only; split <;> simp
@[simp] theorem State.pmeSet_ports (s : State) (i : Nat) : (s.pmeSet i).ports = s.ports := by unfold State.pmeSet; dsimp only; split <;> simp
@[simp] theorem State.pmeSet_unprov (s : State) (i : Nat) : (s.pmeSet i).unprov = s.unprov := by unfold State.pmeSet; dsimp only; split <;> simp
@[simp] theorem State.pmeSet_mbxs (s : State) (i : Nat) : (s.pmeSet i).mbxs = s.mbxs := by unfold State.pmeSet; dsimp only; split <;> simp
@[simp] theorem State.pmeSet_boardMbx (s : State) (i : Nat) : (s.pmeSet i).boardMbx = s.boardMbx := by unfold State.pmeSet; dsimp only; split <;> simp
@[simp] theorem State.pmeSet_allots (s : State) (i : Nat) : (s.pmeSet i).allots = s.allots := by unfold State.pmeSet; dsimp only; split <;> simp
@[simp] theorem State.pmeSet_wins (s : State) (i : Nat) : (s.pmeSet i).wins = s.wins := by unfold State.pmeSet; dsimp only; split <;> simp
@[simp] theorem State.pmeSet_exch (s : State) (i : Nat) : (s.pmeSet i).exch = s.exch := by unfold State.pmeSet; dsimp only; split <;> simp
@[simp] theorem State.pmeSet_region (s : State) (i : Nat) : (s.pmeSet i).region = s.region := by unfold State.pmeSet; dsimp only; split <;> simp
@[simp] theorem State.pmeSet_reads (s : State) (i : Nat) : (s.pmeSet i).reads = s.reads := by unfold State.pmeSet; dsimp only; split <;> simp
@[simp] theorem State.pmeSet_ghosts (s : State) (i : Nat) : (s.pmeSet i).ghosts = s.ghosts := by unfold State.pmeSet; dsimp only; split <;> simp
@[simp] theorem State.pmeSet_pkt (s : State) (i : Nat) : (s.pmeSet i).pkt = s.pkt := by unfold State.pmeSet; dsimp only; split <;> simp
@[simp] theorem State.pmeSet_sto (s : State) (i : Nat) : (s.pmeSet i).sto = s.sto := by unfold State.pmeSet; dsimp only; split <;> simp
@[simp] theorem State.pmeSet_cip (s : State) (i : Nat) : (s.pmeSet i).cip = s.cip := by unfold State.pmeSet; dsimp only; split <;> simp
@[simp] theorem State.pmeSet_skk (s : State) (i : Nat) : (s.pmeSet i).skk = s.skk := by unfold State.pmeSet; dsimp only; split <;> simp
@[simp] theorem State.pmeSet_meter (s : State) (i : Nat) : (s.pmeSet i).meter = s.meter := by unfold State.pmeSet; dsimp only; split <;> simp
@[simp] theorem State.pmeSet_migKey (s : State) (i : Nat) : (s.pmeSet i).migKey = s.migKey := by unfold State.pmeSet; dsimp only; split <;> simp
@[simp] theorem State.pmeSet_migSaves (s : State) (i : Nat) : (s.pmeSet i).migSaves = s.migSaves := by unfold State.pmeSet; dsimp only; split <;> simp
@[simp] theorem State.pmeSet_i3c (s : State) (i : Nat) : (s.pmeSet i).i3c = s.i3c := by unfold State.pmeSet; dsimp only; split <;> simp
@[simp] theorem State.pmeSet_chain (s : State) (i : Nat) : (s.pmeSet i).chain = s.chain := by unfold State.pmeSet; dsimp only; split <;> simp
@[simp] theorem State.pmeSet_dbg (s : State) (i : Nat) : (s.pmeSet i).dbg = s.dbg := by unfold State.pmeSet; dsimp only; split <;> simp
@[simp] theorem State.pmeSet_ctr (s : State) (i : Nat) : (s.pmeSet i).ctr = s.ctr := by unfold State.pmeSet; dsimp only; split <;> simp
@[simp] theorem State.pmeSet_free (s : State) (i : Nat) : (s.pmeSet i).free = s.free := by unfold State.pmeSet; dsimp only; split <;> simp

/-! ### `issueRead` -/

@[simp] theorem State.issueRead_pending (s : State) (r : Read) : (s.issueRead r).pending = s.pending := by unfold State.issueRead; split <;> simp
@[simp] theorem State.issueRead_phase (s : State) (r : Read) : (s.issueRead r).phase = s.phase := by unfold State.issueRead; split <;> simp
@[simp] theorem State.issueRead_pins (s : State) (r : Read) : (s.issueRead r).pins = s.pins := by unfold State.issueRead; split <;> simp
@[simp] theorem State.issueRead_time (s : State) (r : Read) : (s.issueRead r).time = s.time := by unfold State.issueRead; split <;> simp
@[simp] theorem State.issueRead_tick (s : State) (r : Read) : (s.issueRead r).tick = s.tick := by unfold State.issueRead; split <;> simp
@[simp] theorem State.issueRead_ppsLocked (s : State) (r : Read) : (s.issueRead r).ppsLocked = s.ppsLocked := by unfold State.issueRead; split <;> simp
@[simp] theorem State.issueRead_ptpLocked (s : State) (r : Read) : (s.issueRead r).ptpLocked = s.ptpLocked := by unfold State.issueRead; split <;> simp
@[simp] theorem State.issueRead_pow (s : State) (r : Read) : (s.issueRead r).pow = s.pow := by unfold State.issueRead; split <;> simp
@[simp] theorem State.issueRead_flt (s : State) (r : Read) : (s.issueRead r).flt = s.flt := by unfold State.issueRead; split <;> simp
@[simp] theorem State.issueRead_wear (s : State) (r : Read) : (s.issueRead r).wear = s.wear := by unfold State.issueRead; split <;> simp
@[simp] theorem State.issueRead_nv (s : State) (r : Read) : (s.issueRead r).nv = s.nv := by unfold State.issueRead; split <;> simp
@[simp] theorem State.issueRead_eft (s : State) (r : Read) : (s.issueRead r).eft = s.eft := by unfold State.issueRead; split <;> simp
@[simp] theorem State.issueRead_octMode (s : State) (r : Read) : (s.issueRead r).octMode = s.octMode := by unfold State.issueRead; split <;> simp
@[simp] theorem State.issueRead_lanes (s : State) (r : Read) : (s.issueRead r).lanes = s.lanes := by unfold State.issueRead; split <;> simp
@[simp] theorem State.issueRead_ports (s : State) (r : Read) : (s.issueRead r).ports = s.ports := by unfold State.issueRead; split <;> simp
@[simp] theorem State.issueRead_fns (s : State) (r : Read) : (s.issueRead r).fns = s.fns := by unfold State.issueRead; split <;> simp
@[simp] theorem State.issueRead_unprov (s : State) (r : Read) : (s.issueRead r).unprov = s.unprov := by unfold State.issueRead; split <;> simp
@[simp] theorem State.issueRead_mbxs (s : State) (r : Read) : (s.issueRead r).mbxs = s.mbxs := by unfold State.issueRead; split <;> simp
@[simp] theorem State.issueRead_boardMbx (s : State) (r : Read) : (s.issueRead r).boardMbx = s.boardMbx := by unfold State.issueRead; split <;> simp
@[simp] theorem State.issueRead_allots (s : State) (r : Read) : (s.issueRead r).allots = s.allots := by unfold State.issueRead; split <;> simp
@[simp] theorem State.issueRead_wins (s : State) (r : Read) : (s.issueRead r).wins = s.wins := by unfold State.issueRead; split <;> simp
@[simp] theorem State.issueRead_exch (s : State) (r : Read) : (s.issueRead r).exch = s.exch := by unfold State.issueRead; split <;> simp
@[simp] theorem State.issueRead_region (s : State) (r : Read) : (s.issueRead r).region = s.region := by unfold State.issueRead; split <;> simp
@[simp] theorem State.issueRead_ghosts (s : State) (r : Read) : (s.issueRead r).ghosts = s.ghosts := by unfold State.issueRead; split <;> simp
@[simp] theorem State.issueRead_pkt (s : State) (r : Read) : (s.issueRead r).pkt = s.pkt := by unfold State.issueRead; split <;> simp
@[simp] theorem State.issueRead_sto (s : State) (r : Read) : (s.issueRead r).sto = s.sto := by unfold State.issueRead; split <;> simp
@[simp] theorem State.issueRead_cip (s : State) (r : Read) : (s.issueRead r).cip = s.cip := by unfold State.issueRead; split <;> simp
@[simp] theorem State.issueRead_skk (s : State) (r : Read) : (s.issueRead r).skk = s.skk := by unfold State.issueRead; split <;> simp
@[simp] theorem State.issueRead_meter (s : State) (r : Read) : (s.issueRead r).meter = s.meter := by unfold State.issueRead; split <;> simp
@[simp] theorem State.issueRead_migKey (s : State) (r : Read) : (s.issueRead r).migKey = s.migKey := by unfold State.issueRead; split <;> simp
@[simp] theorem State.issueRead_migSaves (s : State) (r : Read) : (s.issueRead r).migSaves = s.migSaves := by unfold State.issueRead; split <;> simp
@[simp] theorem State.issueRead_i3c (s : State) (r : Read) : (s.issueRead r).i3c = s.i3c := by unfold State.issueRead; split <;> simp
@[simp] theorem State.issueRead_chain (s : State) (r : Read) : (s.issueRead r).chain = s.chain := by unfold State.issueRead; split <;> simp
@[simp] theorem State.issueRead_dbg (s : State) (r : Read) : (s.issueRead r).dbg = s.dbg := by unfold State.issueRead; split <;> simp
@[simp] theorem State.issueRead_ctr (s : State) (r : Read) : (s.issueRead r).ctr = s.ctr := by unfold State.issueRead; split <;> simp
@[simp] theorem State.issueRead_free (s : State) (r : Read) : (s.issueRead r).free = s.free := by unfold State.issueRead; split <;> simp

/-! ### `pumpReads` -/

@[simp] theorem State.pumpReads_pending (s : State) : (s.pumpReads).pending = s.pending := foldl_keeps (·.pending) State.issueRead (by simp) _ _
@[simp] theorem State.pumpReads_phase (s : State) : (s.pumpReads).phase = s.phase := foldl_keeps (·.phase) State.issueRead (by simp) _ _
@[simp] theorem State.pumpReads_pins (s : State) : (s.pumpReads).pins = s.pins := foldl_keeps (·.pins) State.issueRead (by simp) _ _
@[simp] theorem State.pumpReads_time (s : State) : (s.pumpReads).time = s.time := foldl_keeps (·.time) State.issueRead (by simp) _ _
@[simp] theorem State.pumpReads_tick (s : State) : (s.pumpReads).tick = s.tick := foldl_keeps (·.tick) State.issueRead (by simp) _ _
@[simp] theorem State.pumpReads_ppsLocked (s : State) : (s.pumpReads).ppsLocked = s.ppsLocked := foldl_keeps (·.ppsLocked) State.issueRead (by simp) _ _
@[simp] theorem State.pumpReads_ptpLocked (s : State) : (s.pumpReads).ptpLocked = s.ptpLocked := foldl_keeps (·.ptpLocked) State.issueRead (by simp) _ _
@[simp] theorem State.pumpReads_pow (s : State) : (s.pumpReads).pow = s.pow := foldl_keeps (·.pow) State.issueRead (by simp) _ _
@[simp] theorem State.pumpReads_flt (s : State) : (s.pumpReads).flt = s.flt := foldl_keeps (·.flt) State.issueRead (by simp) _ _
@[simp] theorem State.pumpReads_wear (s : State) : (s.pumpReads).wear = s.wear := foldl_keeps (·.wear) State.issueRead (by simp) _ _
@[simp] theorem State.pumpReads_nv (s : State) : (s.pumpReads).nv = s.nv := foldl_keeps (·.nv) State.issueRead (by simp) _ _
@[simp] theorem State.pumpReads_eft (s : State) : (s.pumpReads).eft = s.eft := foldl_keeps (·.eft) State.issueRead (by simp) _ _
@[simp] theorem State.pumpReads_octMode (s : State) : (s.pumpReads).octMode = s.octMode := foldl_keeps (·.octMode) State.issueRead (by simp) _ _
@[simp] theorem State.pumpReads_lanes (s : State) : (s.pumpReads).lanes = s.lanes := foldl_keeps (·.lanes) State.issueRead (by simp) _ _
@[simp] theorem State.pumpReads_ports (s : State) : (s.pumpReads).ports = s.ports := foldl_keeps (·.ports) State.issueRead (by simp) _ _
@[simp] theorem State.pumpReads_fns (s : State) : (s.pumpReads).fns = s.fns := foldl_keeps (·.fns) State.issueRead (by simp) _ _
@[simp] theorem State.pumpReads_unprov (s : State) : (s.pumpReads).unprov = s.unprov := foldl_keeps (·.unprov) State.issueRead (by simp) _ _
@[simp] theorem State.pumpReads_mbxs (s : State) : (s.pumpReads).mbxs = s.mbxs := foldl_keeps (·.mbxs) State.issueRead (by simp) _ _
@[simp] theorem State.pumpReads_boardMbx (s : State) : (s.pumpReads).boardMbx = s.boardMbx := foldl_keeps (·.boardMbx) State.issueRead (by simp) _ _
@[simp] theorem State.pumpReads_allots (s : State) : (s.pumpReads).allots = s.allots := foldl_keeps (·.allots) State.issueRead (by simp) _ _
@[simp] theorem State.pumpReads_wins (s : State) : (s.pumpReads).wins = s.wins := foldl_keeps (·.wins) State.issueRead (by simp) _ _
@[simp] theorem State.pumpReads_exch (s : State) : (s.pumpReads).exch = s.exch := foldl_keeps (·.exch) State.issueRead (by simp) _ _
@[simp] theorem State.pumpReads_region (s : State) : (s.pumpReads).region = s.region := foldl_keeps (·.region) State.issueRead (by simp) _ _
@[simp] theorem State.pumpReads_ghosts (s : State) : (s.pumpReads).ghosts = s.ghosts := foldl_keeps (·.ghosts) State.issueRead (by simp) _ _
@[simp] theorem State.pumpReads_pkt (s : State) : (s.pumpReads).pkt = s.pkt := foldl_keeps (·.pkt) State.issueRead (by simp) _ _
@[simp] theorem State.pumpReads_sto (s : State) : (s.pumpReads).sto = s.sto := foldl_keeps (·.sto) State.issueRead (by simp) _ _
@[simp] theorem State.pumpReads_cip (s : State) : (s.pumpReads).cip = s.cip := foldl_keeps (·.cip) State.issueRead (by simp) _ _
@[simp] theorem State.pumpReads_skk (s : State) : (s.pumpReads).skk = s.skk := foldl_keeps (·.skk) State.issueRead (by simp) _ _
@[simp] theorem State.pumpReads_meter (s : State) : (s.pumpReads).meter = s.meter := foldl_keeps (·.meter) State.issueRead (by simp) _ _
@[simp] theorem State.pumpReads_migKey (s : State) : (s.pumpReads).migKey = s.migKey := foldl_keeps (·.migKey) State.issueRead (by simp) _ _
@[simp] theorem State.pumpReads_migSaves (s : State) : (s.pumpReads).migSaves = s.migSaves := foldl_keeps (·.migSaves) State.issueRead (by simp) _ _
@[simp] theorem State.pumpReads_i3c (s : State) : (s.pumpReads).i3c = s.i3c := foldl_keeps (·.i3c) State.issueRead (by simp) _ _
@[simp] theorem State.pumpReads_chain (s : State) : (s.pumpReads).chain = s.chain := foldl_keeps (·.chain) State.issueRead (by simp) _ _
@[simp] theorem State.pumpReads_dbg (s : State) : (s.pumpReads).dbg = s.dbg := foldl_keeps (·.dbg) State.issueRead (by simp) _ _
@[simp] theorem State.pumpReads_ctr (s : State) : (s.pumpReads).ctr = s.ctr := foldl_keeps (·.ctr) State.issueRead (by simp) _ _
@[simp] theorem State.pumpReads_free (s : State) : (s.pumpReads).free = s.free := foldl_keeps (·.free) State.issueRead (by simp) _ _

/-! ### `hostRd` -/

@[simp] theorem State.hostRd_pending (s : State) (i a n : Nat) (p : ReadFor) : (s.hostRd i a n p).pending = s.pending := by unfold State.hostRd; split <;> simp
@[simp] theorem State.hostRd_phase (s : State) (i a n : Nat) (p : ReadFor) : (s.hostRd i a n p).phase = s.phase := by unfold State.hostRd; split <;> simp
@[simp] theorem State.hostRd_pins (s : State) (i a n : Nat) (p : ReadFor) : (s.hostRd i a n p).pins = s.pins := by unfold State.hostRd; split <;> simp
@[simp] theorem State.hostRd_time (s : State) (i a n : Nat) (p : ReadFor) : (s.hostRd i a n p).time = s.time := by unfold State.hostRd; split <;> simp
@[simp] theorem State.hostRd_tick (s : State) (i a n : Nat) (p : ReadFor) : (s.hostRd i a n p).tick = s.tick := by unfold State.hostRd; split <;> simp
@[simp] theorem State.hostRd_ppsLocked (s : State) (i a n : Nat) (p : ReadFor) : (s.hostRd i a n p).ppsLocked = s.ppsLocked := by unfold State.hostRd; split <;> simp
@[simp] theorem State.hostRd_ptpLocked (s : State) (i a n : Nat) (p : ReadFor) : (s.hostRd i a n p).ptpLocked = s.ptpLocked := by unfold State.hostRd; split <;> simp
@[simp] theorem State.hostRd_pow (s : State) (i a n : Nat) (p : ReadFor) : (s.hostRd i a n p).pow = s.pow := by unfold State.hostRd; split <;> simp
@[simp] theorem State.hostRd_flt (s : State) (i a n : Nat) (p : ReadFor) : (s.hostRd i a n p).flt = s.flt := by unfold State.hostRd; split <;> simp
@[simp] theorem State.hostRd_wear (s : State) (i a n : Nat) (p : ReadFor) : (s.hostRd i a n p).wear = s.wear := by unfold State.hostRd; split <;> simp
@[simp] theorem State.hostRd_nv (s : State) (i a n : Nat) (p : ReadFor) : (s.hostRd i a n p).nv = s.nv := by unfold State.hostRd; split <;> simp
@[simp] theorem State.hostRd_eft (s : State) (i a n : Nat) (p : ReadFor) : (s.hostRd i a n p).eft = s.eft := by unfold State.hostRd; split <;> simp
@[simp] theorem State.hostRd_octMode (s : State) (i a n : Nat) (p : ReadFor) : (s.hostRd i a n p).octMode = s.octMode := by unfold State.hostRd; split <;> simp
@[simp] theorem State.hostRd_lanes (s : State) (i a n : Nat) (p : ReadFor) : (s.hostRd i a n p).lanes = s.lanes := by unfold State.hostRd; split <;> simp
@[simp] theorem State.hostRd_ports (s : State) (i a n : Nat) (p : ReadFor) : (s.hostRd i a n p).ports = s.ports := by unfold State.hostRd; split <;> simp
@[simp] theorem State.hostRd_fns (s : State) (i a n : Nat) (p : ReadFor) : (s.hostRd i a n p).fns = s.fns := by unfold State.hostRd; split <;> simp
@[simp] theorem State.hostRd_unprov (s : State) (i a n : Nat) (p : ReadFor) : (s.hostRd i a n p).unprov = s.unprov := by unfold State.hostRd; split <;> simp
@[simp] theorem State.hostRd_mbxs (s : State) (i a n : Nat) (p : ReadFor) : (s.hostRd i a n p).mbxs = s.mbxs := by unfold State.hostRd; split <;> simp
@[simp] theorem State.hostRd_boardMbx (s : State) (i a n : Nat) (p : ReadFor) : (s.hostRd i a n p).boardMbx = s.boardMbx := by unfold State.hostRd; split <;> simp
@[simp] theorem State.hostRd_allots (s : State) (i a n : Nat) (p : ReadFor) : (s.hostRd i a n p).allots = s.allots := by unfold State.hostRd; split <;> simp
@[simp] theorem State.hostRd_wins (s : State) (i a n : Nat) (p : ReadFor) : (s.hostRd i a n p).wins = s.wins := by unfold State.hostRd; split <;> simp
@[simp] theorem State.hostRd_exch (s : State) (i a n : Nat) (p : ReadFor) : (s.hostRd i a n p).exch = s.exch := by unfold State.hostRd; split <;> simp
@[simp] theorem State.hostRd_region (s : State) (i a n : Nat) (p : ReadFor) : (s.hostRd i a n p).region = s.region := by unfold State.hostRd; split <;> simp
@[simp] theorem State.hostRd_ghosts (s : State) (i a n : Nat) (p : ReadFor) : (s.hostRd i a n p).ghosts = s.ghosts := by unfold State.hostRd; split <;> simp
@[simp] theorem State.hostRd_pkt (s : State) (i a n : Nat) (p : ReadFor) : (s.hostRd i a n p).pkt = s.pkt := by unfold State.hostRd; split <;> simp
@[simp] theorem State.hostRd_sto (s : State) (i a n : Nat) (p : ReadFor) : (s.hostRd i a n p).sto = s.sto := by unfold State.hostRd; split <;> simp
@[simp] theorem State.hostRd_cip (s : State) (i a n : Nat) (p : ReadFor) : (s.hostRd i a n p).cip = s.cip := by unfold State.hostRd; split <;> simp
@[simp] theorem State.hostRd_skk (s : State) (i a n : Nat) (p : ReadFor) : (s.hostRd i a n p).skk = s.skk := by unfold State.hostRd; split <;> simp
@[simp] theorem State.hostRd_meter (s : State) (i a n : Nat) (p : ReadFor) : (s.hostRd i a n p).meter = s.meter := by unfold State.hostRd; split <;> simp
@[simp] theorem State.hostRd_migKey (s : State) (i a n : Nat) (p : ReadFor) : (s.hostRd i a n p).migKey = s.migKey := by unfold State.hostRd; split <;> simp
@[simp] theorem State.hostRd_migSaves (s : State) (i a n : Nat) (p : ReadFor) : (s.hostRd i a n p).migSaves = s.migSaves := by unfold State.hostRd; split <;> simp
@[simp] theorem State.hostRd_i3c (s : State) (i a n : Nat) (p : ReadFor) : (s.hostRd i a n p).i3c = s.i3c := by unfold State.hostRd; split <;> simp
@[simp] theorem State.hostRd_chain (s : State) (i a n : Nat) (p : ReadFor) : (s.hostRd i a n p).chain = s.chain := by unfold State.hostRd; split <;> simp
@[simp] theorem State.hostRd_dbg (s : State) (i a n : Nat) (p : ReadFor) : (s.hostRd i a n p).dbg = s.dbg := by unfold State.hostRd; split <;> simp
@[simp] theorem State.hostRd_ctr (s : State) (i a n : Nat) (p : ReadFor) : (s.hostRd i a n p).ctr = s.ctr := by unfold State.hostRd; split <;> simp
@[simp] theorem State.hostRd_free (s : State) (i a n : Nat) (p : ReadFor) : (s.hostRd i a n p).free = s.free := by unfold State.hostRd; split <;> simp

/-! ### `hostRdNow` -/

@[simp] theorem State.hostRdNow_pending (s : State) (i a n : Nat) : (s.hostRdNow i a n).pending = s.pending := by unfold State.hostRdNow; dsimp only; split; (exact (foldl_keeps (·.pending) _ (by simp) _ _).trans (by simp)); rfl
@[simp] theorem State.hostRdNow_phase (s : State) (i a n : Nat) : (s.hostRdNow i a n).phase = s.phase := by unfold State.hostRdNow; dsimp only; split; (exact (foldl_keeps (·.phase) _ (by simp) _ _).trans (by simp)); rfl
@[simp] theorem State.hostRdNow_pins (s : State) (i a n : Nat) : (s.hostRdNow i a n).pins = s.pins := by unfold State.hostRdNow; dsimp only; split; (exact (foldl_keeps (·.pins) _ (by simp) _ _).trans (by simp)); rfl
@[simp] theorem State.hostRdNow_time (s : State) (i a n : Nat) : (s.hostRdNow i a n).time = s.time := by unfold State.hostRdNow; dsimp only; split; (exact (foldl_keeps (·.time) _ (by simp) _ _).trans (by simp)); rfl
@[simp] theorem State.hostRdNow_tick (s : State) (i a n : Nat) : (s.hostRdNow i a n).tick = s.tick := by unfold State.hostRdNow; dsimp only; split; (exact (foldl_keeps (·.tick) _ (by simp) _ _).trans (by simp)); rfl
@[simp] theorem State.hostRdNow_ppsLocked (s : State) (i a n : Nat) : (s.hostRdNow i a n).ppsLocked = s.ppsLocked := by unfold State.hostRdNow; dsimp only; split; (exact (foldl_keeps (·.ppsLocked) _ (by simp) _ _).trans (by simp)); rfl
@[simp] theorem State.hostRdNow_ptpLocked (s : State) (i a n : Nat) : (s.hostRdNow i a n).ptpLocked = s.ptpLocked := by unfold State.hostRdNow; dsimp only; split; (exact (foldl_keeps (·.ptpLocked) _ (by simp) _ _).trans (by simp)); rfl
@[simp] theorem State.hostRdNow_pow (s : State) (i a n : Nat) : (s.hostRdNow i a n).pow = s.pow := by unfold State.hostRdNow; dsimp only; split; (exact (foldl_keeps (·.pow) _ (by simp) _ _).trans (by simp)); rfl
@[simp] theorem State.hostRdNow_flt (s : State) (i a n : Nat) : (s.hostRdNow i a n).flt = s.flt := by unfold State.hostRdNow; dsimp only; split; (exact (foldl_keeps (·.flt) _ (by simp) _ _).trans (by simp)); rfl
@[simp] theorem State.hostRdNow_wear (s : State) (i a n : Nat) : (s.hostRdNow i a n).wear = s.wear := by unfold State.hostRdNow; dsimp only; split; (exact (foldl_keeps (·.wear) _ (by simp) _ _).trans (by simp)); rfl
@[simp] theorem State.hostRdNow_nv (s : State) (i a n : Nat) : (s.hostRdNow i a n).nv = s.nv := by unfold State.hostRdNow; dsimp only; split; (exact (foldl_keeps (·.nv) _ (by simp) _ _).trans (by simp)); rfl
@[simp] theorem State.hostRdNow_eft (s : State) (i a n : Nat) : (s.hostRdNow i a n).eft = s.eft := by unfold State.hostRdNow; dsimp only; split; (exact (foldl_keeps (·.eft) _ (by simp) _ _).trans (by simp)); rfl
@[simp] theorem State.hostRdNow_octMode (s : State) (i a n : Nat) : (s.hostRdNow i a n).octMode = s.octMode := by unfold State.hostRdNow; dsimp only; split; (exact (foldl_keeps (·.octMode) _ (by simp) _ _).trans (by simp)); rfl
@[simp] theorem State.hostRdNow_lanes (s : State) (i a n : Nat) : (s.hostRdNow i a n).lanes = s.lanes := by unfold State.hostRdNow; dsimp only; split; (exact (foldl_keeps (·.lanes) _ (by simp) _ _).trans (by simp)); rfl
@[simp] theorem State.hostRdNow_ports (s : State) (i a n : Nat) : (s.hostRdNow i a n).ports = s.ports := by unfold State.hostRdNow; dsimp only; split; (exact (foldl_keeps (·.ports) _ (by simp) _ _).trans (by simp)); rfl
@[simp] theorem State.hostRdNow_fns (s : State) (i a n : Nat) : (s.hostRdNow i a n).fns = s.fns := by unfold State.hostRdNow; dsimp only; split; (exact (foldl_keeps (·.fns) _ (by simp) _ _).trans (by simp)); rfl
@[simp] theorem State.hostRdNow_unprov (s : State) (i a n : Nat) : (s.hostRdNow i a n).unprov = s.unprov := by unfold State.hostRdNow; dsimp only; split; (exact (foldl_keeps (·.unprov) _ (by simp) _ _).trans (by simp)); rfl
@[simp] theorem State.hostRdNow_mbxs (s : State) (i a n : Nat) : (s.hostRdNow i a n).mbxs = s.mbxs := by unfold State.hostRdNow; dsimp only; split; (exact (foldl_keeps (·.mbxs) _ (by simp) _ _).trans (by simp)); rfl
@[simp] theorem State.hostRdNow_boardMbx (s : State) (i a n : Nat) : (s.hostRdNow i a n).boardMbx = s.boardMbx := by unfold State.hostRdNow; dsimp only; split; (exact (foldl_keeps (·.boardMbx) _ (by simp) _ _).trans (by simp)); rfl
@[simp] theorem State.hostRdNow_allots (s : State) (i a n : Nat) : (s.hostRdNow i a n).allots = s.allots := by unfold State.hostRdNow; dsimp only; split; (exact (foldl_keeps (·.allots) _ (by simp) _ _).trans (by simp)); rfl
@[simp] theorem State.hostRdNow_wins (s : State) (i a n : Nat) : (s.hostRdNow i a n).wins = s.wins := by unfold State.hostRdNow; dsimp only; split; (exact (foldl_keeps (·.wins) _ (by simp) _ _).trans (by simp)); rfl
@[simp] theorem State.hostRdNow_exch (s : State) (i a n : Nat) : (s.hostRdNow i a n).exch = s.exch := by unfold State.hostRdNow; dsimp only; split; (exact (foldl_keeps (·.exch) _ (by simp) _ _).trans (by simp)); rfl
@[simp] theorem State.hostRdNow_region (s : State) (i a n : Nat) : (s.hostRdNow i a n).region = s.region := by unfold State.hostRdNow; dsimp only; split; (exact (foldl_keeps (·.region) _ (by simp) _ _).trans (by simp)); rfl
@[simp] theorem State.hostRdNow_reads (s : State) (i a n : Nat) : (s.hostRdNow i a n).reads = s.reads := by unfold State.hostRdNow; dsimp only; split; (exact (foldl_keeps (·.reads) _ (by simp) _ _).trans (by simp)); rfl
@[simp] theorem State.hostRdNow_ghosts (s : State) (i a n : Nat) : (s.hostRdNow i a n).ghosts = s.ghosts := by unfold State.hostRdNow; dsimp only; split; (exact (foldl_keeps (·.ghosts) _ (by simp) _ _).trans (by simp)); rfl
@[simp] theorem State.hostRdNow_pkt (s : State) (i a n : Nat) : (s.hostRdNow i a n).pkt = s.pkt := by unfold State.hostRdNow; dsimp only; split; (exact (foldl_keeps (·.pkt) _ (by simp) _ _).trans (by simp)); rfl
@[simp] theorem State.hostRdNow_sto (s : State) (i a n : Nat) : (s.hostRdNow i a n).sto = s.sto := by unfold State.hostRdNow; dsimp only; split; (exact (foldl_keeps (·.sto) _ (by simp) _ _).trans (by simp)); rfl
@[simp] theorem State.hostRdNow_cip (s : State) (i a n : Nat) : (s.hostRdNow i a n).cip = s.cip := by unfold State.hostRdNow; dsimp only; split; (exact (foldl_keeps (·.cip) _ (by simp) _ _).trans (by simp)); rfl
@[simp] theorem State.hostRdNow_skk (s : State) (i a n : Nat) : (s.hostRdNow i a n).skk = s.skk := by unfold State.hostRdNow; dsimp only; split; (exact (foldl_keeps (·.skk) _ (by simp) _ _).trans (by simp)); rfl
@[simp] theorem State.hostRdNow_meter (s : State) (i a n : Nat) : (s.hostRdNow i a n).meter = s.meter := by unfold State.hostRdNow; dsimp only; split; (exact (foldl_keeps (·.meter) _ (by simp) _ _).trans (by simp)); rfl
@[simp] theorem State.hostRdNow_migKey (s : State) (i a n : Nat) : (s.hostRdNow i a n).migKey = s.migKey := by unfold State.hostRdNow; dsimp only; split; (exact (foldl_keeps (·.migKey) _ (by simp) _ _).trans (by simp)); rfl
@[simp] theorem State.hostRdNow_migSaves (s : State) (i a n : Nat) : (s.hostRdNow i a n).migSaves = s.migSaves := by unfold State.hostRdNow; dsimp only; split; (exact (foldl_keeps (·.migSaves) _ (by simp) _ _).trans (by simp)); rfl
@[simp] theorem State.hostRdNow_i3c (s : State) (i a n : Nat) : (s.hostRdNow i a n).i3c = s.i3c := by unfold State.hostRdNow; dsimp only; split; (exact (foldl_keeps (·.i3c) _ (by simp) _ _).trans (by simp)); rfl
@[simp] theorem State.hostRdNow_chain (s : State) (i a n : Nat) : (s.hostRdNow i a n).chain = s.chain := by unfold State.hostRdNow; dsimp only; split; (exact (foldl_keeps (·.chain) _ (by simp) _ _).trans (by simp)); rfl
@[simp] theorem State.hostRdNow_dbg (s : State) (i a n : Nat) : (s.hostRdNow i a n).dbg = s.dbg := by unfold State.hostRdNow; dsimp only; split; (exact (foldl_keeps (·.dbg) _ (by simp) _ _).trans (by simp)); rfl
@[simp] theorem State.hostRdNow_ctr (s : State) (i a n : Nat) : (s.hostRdNow i a n).ctr = s.ctr := by unfold State.hostRdNow; dsimp only; split; (exact (foldl_keeps (·.ctr) _ (by simp) _ _).trans (by simp)); rfl
@[simp] theorem State.hostRdNow_free (s : State) (i a n : Nat) : (s.hostRdNow i a n).free = s.free := by unfold State.hostRdNow; dsimp only; split; (exact (foldl_keeps (·.free) _ (by simp) _ _).trans (by simp)); rfl

/-! ### `sendMsix` -/

@[simp] theorem State.sendMsix_pending (s : State) (i v : Nat) : (s.sendMsix i v).pending = s.pending := by unfold State.sendMsix; repeat (first | split | simp)
@[simp] theorem State.sendMsix_phase (s : State) (i v : Nat) : (s.sendMsix i v).phase = s.phase := by unfold State.sendMsix; repeat (first | split | simp)
@[simp] theorem State.sendMsix_pins (s : State) (i v : Nat) : (s.sendMsix i v).pins = s.pins := by unfold State.sendMsix; repeat (first | split | simp)
@[simp] theorem State.sendMsix_time (s : State) (i v : Nat) : (s.sendMsix i v).time = s.time := by unfold State.sendMsix; repeat (first | split | simp)
@[simp] theorem State.sendMsix_tick (s : State) (i v : Nat) : (s.sendMsix i v).tick = s.tick := by unfold State.sendMsix; repeat (first | split | simp)
@[simp] theorem State.sendMsix_ppsLocked (s : State) (i v : Nat) : (s.sendMsix i v).ppsLocked = s.ppsLocked := by unfold State.sendMsix; repeat (first | split | simp)
@[simp] theorem State.sendMsix_ptpLocked (s : State) (i v : Nat) : (s.sendMsix i v).ptpLocked = s.ptpLocked := by unfold State.sendMsix; repeat (first | split | simp)
@[simp] theorem State.sendMsix_pow (s : State) (i v : Nat) : (s.sendMsix i v).pow = s.pow := by unfold State.sendMsix; repeat (first | split | simp)
@[simp] theorem State.sendMsix_flt (s : State) (i v : Nat) : (s.sendMsix i v).flt = s.flt := by unfold State.sendMsix; repeat (first | split | simp)
@[simp] theorem State.sendMsix_wear (s : State) (i v : Nat) : (s.sendMsix i v).wear = s.wear := by unfold State.sendMsix; repeat (first | split | simp)
@[simp] theorem State.sendMsix_nv (s : State) (i v : Nat) : (s.sendMsix i v).nv = s.nv := by unfold State.sendMsix; repeat (first | split | simp)
@[simp] theorem State.sendMsix_eft (s : State) (i v : Nat) : (s.sendMsix i v).eft = s.eft := by unfold State.sendMsix; repeat (first | split | simp)
@[simp] theorem State.sendMsix_octMode (s : State) (i v : Nat) : (s.sendMsix i v).octMode = s.octMode := by unfold State.sendMsix; repeat (first | split | simp)
@[simp] theorem State.sendMsix_lanes (s : State) (i v : Nat) : (s.sendMsix i v).lanes = s.lanes := by unfold State.sendMsix; repeat (first | split | simp)
@[simp] theorem State.sendMsix_ports (s : State) (i v : Nat) : (s.sendMsix i v).ports = s.ports := by unfold State.sendMsix; repeat (first | split | simp)
@[simp] theorem State.sendMsix_unprov (s : State) (i v : Nat) : (s.sendMsix i v).unprov = s.unprov := by unfold State.sendMsix; repeat (first | split | simp)
@[simp] theorem State.sendMsix_mbxs (s : State) (i v : Nat) : (s.sendMsix i v).mbxs = s.mbxs := by unfold State.sendMsix; repeat (first | split | simp)
@[simp] theorem State.sendMsix_boardMbx (s : State) (i v : Nat) : (s.sendMsix i v).boardMbx = s.boardMbx := by unfold State.sendMsix; repeat (first | split | simp)
@[simp] theorem State.sendMsix_allots (s : State) (i v : Nat) : (s.sendMsix i v).allots = s.allots := by unfold State.sendMsix; repeat (first | split | simp)
@[simp] theorem State.sendMsix_wins (s : State) (i v : Nat) : (s.sendMsix i v).wins = s.wins := by unfold State.sendMsix; repeat (first | split | simp)
@[simp] theorem State.sendMsix_exch (s : State) (i v : Nat) : (s.sendMsix i v).exch = s.exch := by unfold State.sendMsix; repeat (first | split | simp)
@[simp] theorem State.sendMsix_region (s : State) (i v : Nat) : (s.sendMsix i v).region = s.region := by unfold State.sendMsix; repeat (first | split | simp)
@[simp] theorem State.sendMsix_reads (s : State) (i v : Nat) : (s.sendMsix i v).reads = s.reads := by unfold State.sendMsix; repeat (first | split | simp)
@[simp] theorem State.sendMsix_ghosts (s : State) (i v : Nat) : (s.sendMsix i v).ghosts = s.ghosts := by unfold State.sendMsix; repeat (first | split | simp)
@[simp] theorem State.sendMsix_pkt (s : State) (i v : Nat) : (s.sendMsix i v).pkt = s.pkt := by unfold State.sendMsix; repeat (first | split | simp)
@[simp] theorem State.sendMsix_sto (s : State) (i v : Nat) : (s.sendMsix i v).sto = s.sto := by unfold State.sendMsix; repeat (first | split | simp)
@[simp] theorem State.sendMsix_cip (s : State) (i v : Nat) : (s.sendMsix i v).cip = s.cip := by unfold State.sendMsix; repeat (first | split | simp)
@[simp] theorem State.sendMsix_skk (s : State) (i v : Nat) : (s.sendMsix i v).skk = s.skk := by unfold State.sendMsix; repeat (first | split | simp)
@[simp] theorem State.sendMsix_meter (s : State) (i v : Nat) : (s.sendMsix i v).meter = s.meter := by unfold State.sendMsix; repeat (first | split | simp)
@[simp] theorem State.sendMsix_migKey (s : State) (i v : Nat) : (s.sendMsix i v).migKey = s.migKey := by unfold State.sendMsix; repeat (first | split | simp)
@[simp] theorem State.sendMsix_migSaves (s : State) (i v : Nat) : (s.sendMsix i v).migSaves = s.migSaves := by unfold State.sendMsix; repeat (first | split | simp)
@[simp] theorem State.sendMsix_i3c (s : State) (i v : Nat) : (s.sendMsix i v).i3c = s.i3c := by unfold State.sendMsix; repeat (first | split | simp)
@[simp] theorem State.sendMsix_chain (s : State) (i v : Nat) : (s.sendMsix i v).chain = s.chain := by unfold State.sendMsix; repeat (first | split | simp)
@[simp] theorem State.sendMsix_dbg (s : State) (i v : Nat) : (s.sendMsix i v).dbg = s.dbg := by unfold State.sendMsix; repeat (first | split | simp)
@[simp] theorem State.sendMsix_ctr (s : State) (i v : Nat) : (s.sendMsix i v).ctr = s.ctr := by unfold State.sendMsix; repeat (first | split | simp)
@[simp] theorem State.sendMsix_free (s : State) (i v : Nat) : (s.sendMsix i v).free = s.free := by unfold State.sendMsix; repeat (first | split | simp)

end Sys2Proof.Machine
end

