-- ==== Sys2Proof/Laws/Events.lean ====
section
/-! SUPPORT. What an event and a fault record leave as they were. -/

namespace Sys2Proof.Machine

@[simp] theorem State.ringEvent_pending (s : State) (i t c : Nat) (u : Subject) (a : Nat) : (s.ringEvent i t c u a).pending = s.pending := by
  unfold State.ringEvent; repeat (first | split | simp)
@[simp] theorem State.ringEvent_phase (s : State) (i t c : Nat) (u : Subject) (a : Nat) : (s.ringEvent i t c u a).phase = s.phase := by
  unfold State.ringEvent; repeat (first | split | simp)
@[simp] theorem State.ringEvent_pins (s : State) (i t c : Nat) (u : Subject) (a : Nat) : (s.ringEvent i t c u a).pins = s.pins := by
  unfold State.ringEvent; repeat (first | split | simp)
@[simp] theorem State.ringEvent_time (s : State) (i t c : Nat) (u : Subject) (a : Nat) : (s.ringEvent i t c u a).time = s.time := by
  unfold State.ringEvent; repeat (first | split | simp)
@[simp] theorem State.ringEvent_tick (s : State) (i t c : Nat) (u : Subject) (a : Nat) : (s.ringEvent i t c u a).tick = s.tick := by
  unfold State.ringEvent; repeat (first | split | simp)
@[simp] theorem State.ringEvent_ppsLocked (s : State) (i t c : Nat) (u : Subject) (a : Nat) : (s.ringEvent i t c u a).ppsLocked = s.ppsLocked := by
  unfold State.ringEvent; repeat (first | split | simp)
@[simp] theorem State.ringEvent_ptpLocked (s : State) (i t c : Nat) (u : Subject) (a : Nat) : (s.ringEvent i t c u a).ptpLocked = s.ptpLocked := by
  unfold State.ringEvent; repeat (first | split | simp)
@[simp] theorem State.ringEvent_pow (s : State) (i t c : Nat) (u : Subject) (a : Nat) : (s.ringEvent i t c u a).pow = s.pow := by
  unfold State.ringEvent; repeat (first | split | simp)
@[simp] theorem State.ringEvent_flt (s : State) (i t c : Nat) (u : Subject) (a : Nat) : (s.ringEvent i t c u a).flt = s.flt := by
  unfold State.ringEvent; repeat (first | split | simp)
@[simp] theorem State.ringEvent_wear (s : State) (i t c : Nat) (u : Subject) (a : Nat) : (s.ringEvent i t c u a).wear = s.wear := by
  unfold State.ringEvent; repeat (first | split | simp)
@[simp] theorem State.ringEvent_nv (s : State) (i t c : Nat) (u : Subject) (a : Nat) : (s.ringEvent i t c u a).nv = s.nv := by
  unfold State.ringEvent; repeat (first | split | simp)
@[simp] theorem State.ringEvent_eft (s : State) (i t c : Nat) (u : Subject) (a : Nat) : (s.ringEvent i t c u a).eft = s.eft := by
  unfold State.ringEvent; repeat (first | split | simp)
@[simp] theorem State.ringEvent_octMode (s : State) (i t c : Nat) (u : Subject) (a : Nat) : (s.ringEvent i t c u a).octMode = s.octMode := by
  unfold State.ringEvent; repeat (first | split | simp)
@[simp] theorem State.ringEvent_lanes (s : State) (i t c : Nat) (u : Subject) (a : Nat) : (s.ringEvent i t c u a).lanes = s.lanes := by
  unfold State.ringEvent; repeat (first | split | simp)
@[simp] theorem State.ringEvent_ports (s : State) (i t c : Nat) (u : Subject) (a : Nat) : (s.ringEvent i t c u a).ports = s.ports := by
  unfold State.ringEvent; repeat (first | split | simp)
@[simp] theorem State.ringEvent_unprov (s : State) (i t c : Nat) (u : Subject) (a : Nat) : (s.ringEvent i t c u a).unprov = s.unprov := by
  unfold State.ringEvent; repeat (first | split | simp)
@[simp] theorem State.ringEvent_allots (s : State) (i t c : Nat) (u : Subject) (a : Nat) : (s.ringEvent i t c u a).allots = s.allots := by
  unfold State.ringEvent; repeat (first | split | simp)
@[simp] theorem State.ringEvent_wins (s : State) (i t c : Nat) (u : Subject) (a : Nat) : (s.ringEvent i t c u a).wins = s.wins := by
  unfold State.ringEvent; repeat (first | split | simp)
@[simp] theorem State.ringEvent_exch (s : State) (i t c : Nat) (u : Subject) (a : Nat) : (s.ringEvent i t c u a).exch = s.exch := by
  unfold State.ringEvent; repeat (first | split | simp)
@[simp] theorem State.ringEvent_region (s : State) (i t c : Nat) (u : Subject) (a : Nat) : (s.ringEvent i t c u a).region = s.region := by
  unfold State.ringEvent; repeat (first | split | simp)
@[simp] theorem State.ringEvent_reads (s : State) (i t c : Nat) (u : Subject) (a : Nat) : (s.ringEvent i t c u a).reads = s.reads := by
  unfold State.ringEvent; repeat (first | split | simp)
@[simp] theorem State.ringEvent_ghosts (s : State) (i t c : Nat) (u : Subject) (a : Nat) : (s.ringEvent i t c u a).ghosts = s.ghosts := by
  unfold State.ringEvent; repeat (first | split | simp)
@[simp] theorem State.ringEvent_pkt (s : State) (i t c : Nat) (u : Subject) (a : Nat) : (s.ringEvent i t c u a).pkt = s.pkt := by
  unfold State.ringEvent; repeat (first | split | simp)
@[simp] theorem State.ringEvent_sto (s : State) (i t c : Nat) (u : Subject) (a : Nat) : (s.ringEvent i t c u a).sto = s.sto := by
  unfold State.ringEvent; repeat (first | split | simp)
@[simp] theorem State.ringEvent_cip (s : State) (i t c : Nat) (u : Subject) (a : Nat) : (s.ringEvent i t c u a).cip = s.cip := by
  unfold State.ringEvent; repeat (first | split | simp)
@[simp] theorem State.ringEvent_skk (s : State) (i t c : Nat) (u : Subject) (a : Nat) : (s.ringEvent i t c u a).skk = s.skk := by
  unfold State.ringEvent; repeat (first | split | simp)
@[simp] theorem State.ringEvent_meter (s : State) (i t c : Nat) (u : Subject) (a : Nat) : (s.ringEvent i t c u a).meter = s.meter := by
  unfold State.ringEvent; repeat (first | split | simp)
@[simp] theorem State.ringEvent_migKey (s : State) (i t c : Nat) (u : Subject) (a : Nat) : (s.ringEvent i t c u a).migKey = s.migKey := by
  unfold State.ringEvent; repeat (first | split | simp)
@[simp] theorem State.ringEvent_migSaves (s : State) (i t c : Nat) (u : Subject) (a : Nat) : (s.ringEvent i t c u a).migSaves = s.migSaves := by
  unfold State.ringEvent; repeat (first | split | simp)
@[simp] theorem State.ringEvent_chain (s : State) (i t c : Nat) (u : Subject) (a : Nat) : (s.ringEvent i t c u a).chain = s.chain := by
  unfold State.ringEvent; repeat (first | split | simp)
@[simp] theorem State.ringEvent_dbg (s : State) (i t c : Nat) (u : Subject) (a : Nat) : (s.ringEvent i t c u a).dbg = s.dbg := by
  unfold State.ringEvent; repeat (first | split | simp)
@[simp] theorem State.boardRec_pending (s : State) (t c : Nat) (u : Subject) (a : Nat) : (s.boardRec t c u a).pending = s.pending := by
  unfold State.boardRec; repeat (first | split | simp)
@[simp] theorem State.boardRec_phase (s : State) (t c : Nat) (u : Subject) (a : Nat) : (s.boardRec t c u a).phase = s.phase := by
  unfold State.boardRec; repeat (first | split | simp)
@[simp] theorem State.boardRec_pins (s : State) (t c : Nat) (u : Subject) (a : Nat) : (s.boardRec t c u a).pins = s.pins := by
  unfold State.boardRec; repeat (first | split | simp)
@[simp] theorem State.boardRec_time (s : State) (t c : Nat) (u : Subject) (a : Nat) : (s.boardRec t c u a).time = s.time := by
  unfold State.boardRec; repeat (first | split | simp)
@[simp] theorem State.boardRec_tick (s : State) (t c : Nat) (u : Subject) (a : Nat) : (s.boardRec t c u a).tick = s.tick := by
  unfold State.boardRec; repeat (first | split | simp)
@[simp] theorem State.boardRec_ppsLocked (s : State) (t c : Nat) (u : Subject) (a : Nat) : (s.boardRec t c u a).ppsLocked = s.ppsLocked := by
  unfold State.boardRec; repeat (first | split | simp)
@[simp] theorem State.boardRec_ptpLocked (s : State) (t c : Nat) (u : Subject) (a : Nat) : (s.boardRec t c u a).ptpLocked = s.ptpLocked := by
  unfold State.boardRec; repeat (first | split | simp)
@[simp] theorem State.boardRec_pow (s : State) (t c : Nat) (u : Subject) (a : Nat) : (s.boardRec t c u a).pow = s.pow := by
  unfold State.boardRec; repeat (first | split | simp)
@[simp] theorem State.boardRec_flt (s : State) (t c : Nat) (u : Subject) (a : Nat) : (s.boardRec t c u a).flt = s.flt := by
  unfold State.boardRec; repeat (first | split | simp)
@[simp] theorem State.boardRec_wear (s : State) (t c : Nat) (u : Subject) (a : Nat) : (s.boardRec t c u a).wear = s.wear := by
  unfold State.boardRec; repeat (first | split | simp)
@[simp] theorem State.boardRec_nv (s : State) (t c : Nat) (u : Subject) (a : Nat) : (s.boardRec t c u a).nv = s.nv := by
  unfold State.boardRec; repeat (first | split | simp)
@[simp] theorem State.boardRec_eft (s : State) (t c : Nat) (u : Subject) (a : Nat) : (s.boardRec t c u a).eft = s.eft := by
  unfold State.boardRec; repeat (first | split | simp)
@[simp] theorem State.boardRec_octMode (s : State) (t c : Nat) (u : Subject) (a : Nat) : (s.boardRec t c u a).octMode = s.octMode := by
  unfold State.boardRec; repeat (first | split | simp)
@[simp] theorem State.boardRec_lanes (s : State) (t c : Nat) (u : Subject) (a : Nat) : (s.boardRec t c u a).lanes = s.lanes := by
  unfold State.boardRec; repeat (first | split | simp)
@[simp] theorem State.boardRec_ports (s : State) (t c : Nat) (u : Subject) (a : Nat) : (s.boardRec t c u a).ports = s.ports := by
  unfold State.boardRec; repeat (first | split | simp)
@[simp] theorem State.boardRec_unprov (s : State) (t c : Nat) (u : Subject) (a : Nat) : (s.boardRec t c u a).unprov = s.unprov := by
  unfold State.boardRec; repeat (first | split | simp)
@[simp] theorem State.boardRec_allots (s : State) (t c : Nat) (u : Subject) (a : Nat) : (s.boardRec t c u a).allots = s.allots := by
  unfold State.boardRec; repeat (first | split | simp)
@[simp] theorem State.boardRec_wins (s : State) (t c : Nat) (u : Subject) (a : Nat) : (s.boardRec t c u a).wins = s.wins := by
  unfold State.boardRec; repeat (first | split | simp)
@[simp] theorem State.boardRec_exch (s : State) (t c : Nat) (u : Subject) (a : Nat) : (s.boardRec t c u a).exch = s.exch := by
  unfold State.boardRec; repeat (first | split | simp)
@[simp] theorem State.boardRec_region (s : State) (t c : Nat) (u : Subject) (a : Nat) : (s.boardRec t c u a).region = s.region := by
  unfold State.boardRec; repeat (first | split | simp)
@[simp] theorem State.boardRec_reads (s : State) (t c : Nat) (u : Subject) (a : Nat) : (s.boardRec t c u a).reads = s.reads := by
  unfold State.boardRec; repeat (first | split | simp)
@[simp] theorem State.boardRec_ghosts (s : State) (t c : Nat) (u : Subject) (a : Nat) : (s.boardRec t c u a).ghosts = s.ghosts := by
  unfold State.boardRec; repeat (first | split | simp)
@[simp] theorem State.boardRec_pkt (s : State) (t c : Nat) (u : Subject) (a : Nat) : (s.boardRec t c u a).pkt = s.pkt := by
  unfold State.boardRec; repeat (first | split | simp)
@[simp] theorem State.boardRec_sto (s : State) (t c : Nat) (u : Subject) (a : Nat) : (s.boardRec t c u a).sto = s.sto := by
  unfold State.boardRec; repeat (first | split | simp)
@[simp] theorem State.boardRec_cip (s : State) (t c : Nat) (u : Subject) (a : Nat) : (s.boardRec t c u a).cip = s.cip := by
  unfold State.boardRec; repeat (first | split | simp)
@[simp] theorem State.boardRec_skk (s : State) (t c : Nat) (u : Subject) (a : Nat) : (s.boardRec t c u a).skk = s.skk := by
  unfold State.boardRec; repeat (first | split | simp)
@[simp] theorem State.boardRec_meter (s : State) (t c : Nat) (u : Subject) (a : Nat) : (s.boardRec t c u a).meter = s.meter := by
  unfold State.boardRec; repeat (first | split | simp)
@[simp] theorem State.boardRec_migKey (s : State) (t c : Nat) (u : Subject) (a : Nat) : (s.boardRec t c u a).migKey = s.migKey := by
  unfold State.boardRec; repeat (first | split | simp)
@[simp] theorem State.boardRec_migSaves (s : State) (t c : Nat) (u : Subject) (a : Nat) : (s.boardRec t c u a).migSaves = s.migSaves := by
  unfold State.boardRec; repeat (first | split | simp)
@[simp] theorem State.boardRec_chain (s : State) (t c : Nat) (u : Subject) (a : Nat) : (s.boardRec t c u a).chain = s.chain := by
  unfold State.boardRec; repeat (first | split | simp)
@[simp] theorem State.boardRec_dbg (s : State) (t c : Nat) (u : Subject) (a : Nat) : (s.boardRec t c u a).dbg = s.dbg := by
  unfold State.boardRec; repeat (first | split | simp)
/-- A delivery keeps every view that the records to the rings and to the Board keep. -/
theorem State.deliver_view {β : Type} (g : State → β) (hr : ∀ s i t c u a, g (State.ringEvent s i t c u a) = g s)
    (hb : ∀ s t c u a, g (State.boardRec s t c u a) = g s) (s : State) (t c : Nat) (u : Subject) (a : Nat) :
    g (s.deliver t c u a) = g s := by
  have h := foldl_keeps g (fun (s : State) (x : Nat × Mailbox) => match x with
    | (fid, m) => match m.events with
      | some e => if e.takes c && hears s fid u then s.ringEvent fid t c u a else s
      | none => s) (by rintro s ⟨i, m⟩; dsimp only; repeat (first | split | simp [hr])) s.mbxs s
  unfold State.deliver
  simp only []
  split
  · split
    · rw [hb]; exact h
    · exact h
  · exact h

@[simp] theorem State.deliver_pending (s : State) (t c : Nat) (u : Subject) (a : Nat) : (s.deliver t c u a).pending = s.pending :=
  State.deliver_view (·.pending) (by simp) (by simp) s t c u a
@[simp] theorem State.deliver_phase (s : State) (t c : Nat) (u : Subject) (a : Nat) : (s.deliver t c u a).phase = s.phase :=
  State.deliver_view (·.phase) (by simp) (by simp) s t c u a
@[simp] theorem State.deliver_pins (s : State) (t c : Nat) (u : Subject) (a : Nat) : (s.deliver t c u a).pins = s.pins :=
  State.deliver_view (·.pins) (by simp) (by simp) s t c u a
@[simp] theorem State.deliver_time (s : State) (t c : Nat) (u : Subject) (a : Nat) : (s.deliver t c u a).time = s.time :=
  State.deliver_view (·.time) (by simp) (by simp) s t c u a
@[simp] theorem State.deliver_tick (s : State) (t c : Nat) (u : Subject) (a : Nat) : (s.deliver t c u a).tick = s.tick :=
  State.deliver_view (·.tick) (by simp) (by simp) s t c u a
@[simp] theorem State.deliver_ppsLocked (s : State) (t c : Nat) (u : Subject) (a : Nat) : (s.deliver t c u a).ppsLocked = s.ppsLocked :=
  State.deliver_view (·.ppsLocked) (by simp) (by simp) s t c u a
@[simp] theorem State.deliver_ptpLocked (s : State) (t c : Nat) (u : Subject) (a : Nat) : (s.deliver t c u a).ptpLocked = s.ptpLocked :=
  State.deliver_view (·.ptpLocked) (by simp) (by simp) s t c u a
@[simp] theorem State.deliver_pow (s : State) (t c : Nat) (u : Subject) (a : Nat) : (s.deliver t c u a).pow = s.pow :=
  State.deliver_view (·.pow) (by simp) (by simp) s t c u a
@[simp] theorem State.deliver_flt (s : State) (t c : Nat) (u : Subject) (a : Nat) : (s.deliver t c u a).flt = s.flt :=
  State.deliver_view (·.flt) (by simp) (by simp) s t c u a
@[simp] theorem State.deliver_wear (s : State) (t c : Nat) (u : Subject) (a : Nat) : (s.deliver t c u a).wear = s.wear :=
  State.deliver_view (·.wear) (by simp) (by simp) s t c u a
@[simp] theorem State.deliver_nv (s : State) (t c : Nat) (u : Subject) (a : Nat) : (s.deliver t c u a).nv = s.nv :=
  State.deliver_view (·.nv) (by simp) (by simp) s t c u a
@[simp] theorem State.deliver_eft (s : State) (t c : Nat) (u : Subject) (a : Nat) : (s.deliver t c u a).eft = s.eft :=
  State.deliver_view (·.eft) (by simp) (by simp) s t c u a
@[simp] theorem State.deliver_octMode (s : State) (t c : Nat) (u : Subject) (a : Nat) : (s.deliver t c u a).octMode = s.octMode :=
  State.deliver_view (·.octMode) (by simp) (by simp) s t c u a
@[simp] theorem State.deliver_lanes (s : State) (t c : Nat) (u : Subject) (a : Nat) : (s.deliver t c u a).lanes = s.lanes :=
  State.deliver_view (·.lanes) (by simp) (by simp) s t c u a
@[simp] theorem State.deliver_ports (s : State) (t c : Nat) (u : Subject) (a : Nat) : (s.deliver t c u a).ports = s.ports :=
  State.deliver_view (·.ports) (by simp) (by simp) s t c u a
@[simp] theorem State.deliver_unprov (s : State) (t c : Nat) (u : Subject) (a : Nat) : (s.deliver t c u a).unprov = s.unprov :=
  State.deliver_view (·.unprov) (by simp) (by simp) s t c u a
@[simp] theorem State.deliver_allots (s : State) (t c : Nat) (u : Subject) (a : Nat) : (s.deliver t c u a).allots = s.allots :=
  State.deliver_view (·.allots) (by simp) (by simp) s t c u a
@[simp] theorem State.deliver_wins (s : State) (t c : Nat) (u : Subject) (a : Nat) : (s.deliver t c u a).wins = s.wins :=
  State.deliver_view (·.wins) (by simp) (by simp) s t c u a
@[simp] theorem State.deliver_exch (s : State) (t c : Nat) (u : Subject) (a : Nat) : (s.deliver t c u a).exch = s.exch :=
  State.deliver_view (·.exch) (by simp) (by simp) s t c u a
@[simp] theorem State.deliver_region (s : State) (t c : Nat) (u : Subject) (a : Nat) : (s.deliver t c u a).region = s.region :=
  State.deliver_view (·.region) (by simp) (by simp) s t c u a
@[simp] theorem State.deliver_reads (s : State) (t c : Nat) (u : Subject) (a : Nat) : (s.deliver t c u a).reads = s.reads :=
  State.deliver_view (·.reads) (by simp) (by simp) s t c u a
@[simp] theorem State.deliver_ghosts (s : State) (t c : Nat) (u : Subject) (a : Nat) : (s.deliver t c u a).ghosts = s.ghosts :=
  State.deliver_view (·.ghosts) (by simp) (by simp) s t c u a
@[simp] theorem State.deliver_pkt (s : State) (t c : Nat) (u : Subject) (a : Nat) : (s.deliver t c u a).pkt = s.pkt :=
  State.deliver_view (·.pkt) (by simp) (by simp) s t c u a
@[simp] theorem State.deliver_sto (s : State) (t c : Nat) (u : Subject) (a : Nat) : (s.deliver t c u a).sto = s.sto :=
  State.deliver_view (·.sto) (by simp) (by simp) s t c u a
@[simp] theorem State.deliver_cip (s : State) (t c : Nat) (u : Subject) (a : Nat) : (s.deliver t c u a).cip = s.cip :=
  State.deliver_view (·.cip) (by simp) (by simp) s t c u a
@[simp] theorem State.deliver_skk (s : State) (t c : Nat) (u : Subject) (a : Nat) : (s.deliver t c u a).skk = s.skk :=
  State.deliver_view (·.skk) (by simp) (by simp) s t c u a
@[simp] theorem State.deliver_meter (s : State) (t c : Nat) (u : Subject) (a : Nat) : (s.deliver t c u a).meter = s.meter :=
  State.deliver_view (·.meter) (by simp) (by simp) s t c u a
@[simp] theorem State.deliver_migKey (s : State) (t c : Nat) (u : Subject) (a : Nat) : (s.deliver t c u a).migKey = s.migKey :=
  State.deliver_view (·.migKey) (by simp) (by simp) s t c u a
@[simp] theorem State.deliver_migSaves (s : State) (t c : Nat) (u : Subject) (a : Nat) : (s.deliver t c u a).migSaves = s.migSaves :=
  State.deliver_view (·.migSaves) (by simp) (by simp) s t c u a
@[simp] theorem State.deliver_chain (s : State) (t c : Nat) (u : Subject) (a : Nat) : (s.deliver t c u a).chain = s.chain :=
  State.deliver_view (·.chain) (by simp) (by simp) s t c u a
@[simp] theorem State.deliver_dbg (s : State) (t c : Nat) (u : Subject) (a : Nat) : (s.deliver t c u a).dbg = s.dbg :=
  State.deliver_view (·.dbg) (by simp) (by simp) s t c u a
@[simp] theorem State.event_pending (s : State) (c : Nat) (u : Subject) (a : Nat) : (s.event c u a).pending = s.pending := by
  unfold State.event; split <;> simp
@[simp] theorem State.event_phase (s : State) (c : Nat) (u : Subject) (a : Nat) : (s.event c u a).phase = s.phase := by
  unfold State.event; split <;> simp
@[simp] theorem State.event_pins (s : State) (c : Nat) (u : Subject) (a : Nat) : (s.event c u a).pins = s.pins := by
  unfold State.event; split <;> simp
@[simp] theorem State.event_time (s : State) (c : Nat) (u : Subject) (a : Nat) : (s.event c u a).time = s.time := by
  unfold State.event; split <;> simp
@[simp] theorem State.event_tick (s : State) (c : Nat) (u : Subject) (a : Nat) : (s.event c u a).tick = s.tick := by
  unfold State.event; split <;> simp
@[simp] theorem State.event_ppsLocked (s : State) (c : Nat) (u : Subject) (a : Nat) : (s.event c u a).ppsLocked = s.ppsLocked := by
  unfold State.event; split <;> simp
@[simp] theorem State.event_ptpLocked (s : State) (c : Nat) (u : Subject) (a : Nat) : (s.event c u a).ptpLocked = s.ptpLocked := by
  unfold State.event; split <;> simp
@[simp] theorem State.event_pow (s : State) (c : Nat) (u : Subject) (a : Nat) : (s.event c u a).pow = s.pow := by
  unfold State.event; split <;> simp
@[simp] theorem State.event_flt (s : State) (c : Nat) (u : Subject) (a : Nat) : (s.event c u a).flt = s.flt := by
  unfold State.event; split <;> simp
@[simp] theorem State.event_wear (s : State) (c : Nat) (u : Subject) (a : Nat) : (s.event c u a).wear = s.wear := by
  unfold State.event; split <;> simp
@[simp] theorem State.event_nv (s : State) (c : Nat) (u : Subject) (a : Nat) : (s.event c u a).nv = s.nv := by
  unfold State.event; split <;> simp
@[simp] theorem State.event_octMode (s : State) (c : Nat) (u : Subject) (a : Nat) : (s.event c u a).octMode = s.octMode := by
  unfold State.event; split <;> simp
@[simp] theorem State.event_lanes (s : State) (c : Nat) (u : Subject) (a : Nat) : (s.event c u a).lanes = s.lanes := by
  unfold State.event; split <;> simp
@[simp] theorem State.event_ports (s : State) (c : Nat) (u : Subject) (a : Nat) : (s.event c u a).ports = s.ports := by
  unfold State.event; split <;> simp
@[simp] theorem State.event_unprov (s : State) (c : Nat) (u : Subject) (a : Nat) : (s.event c u a).unprov = s.unprov := by
  unfold State.event; split <;> simp
@[simp] theorem State.event_allots (s : State) (c : Nat) (u : Subject) (a : Nat) : (s.event c u a).allots = s.allots := by
  unfold State.event; split <;> simp
@[simp] theorem State.event_wins (s : State) (c : Nat) (u : Subject) (a : Nat) : (s.event c u a).wins = s.wins := by
  unfold State.event; split <;> simp
@[simp] theorem State.event_exch (s : State) (c : Nat) (u : Subject) (a : Nat) : (s.event c u a).exch = s.exch := by
  unfold State.event; split <;> simp
@[simp] theorem State.event_region (s : State) (c : Nat) (u : Subject) (a : Nat) : (s.event c u a).region = s.region := by
  unfold State.event; split <;> simp
@[simp] theorem State.event_reads (s : State) (c : Nat) (u : Subject) (a : Nat) : (s.event c u a).reads = s.reads := by
  unfold State.event; split <;> simp
@[simp] theorem State.event_ghosts (s : State) (c : Nat) (u : Subject) (a : Nat) : (s.event c u a).ghosts = s.ghosts := by
  unfold State.event; split <;> simp
@[simp] theorem State.event_pkt (s : State) (c : Nat) (u : Subject) (a : Nat) : (s.event c u a).pkt = s.pkt := by
  unfold State.event; split <;> simp
@[simp] theorem State.event_sto (s : State) (c : Nat) (u : Subject) (a : Nat) : (s.event c u a).sto = s.sto := by
  unfold State.event; split <;> simp
@[simp] theorem State.event_cip (s : State) (c : Nat) (u : Subject) (a : Nat) : (s.event c u a).cip = s.cip := by
  unfold State.event; split <;> simp
@[simp] theorem State.event_skk (s : State) (c : Nat) (u : Subject) (a : Nat) : (s.event c u a).skk = s.skk := by
  unfold State.event; split <;> simp
@[simp] theorem State.event_meter (s : State) (c : Nat) (u : Subject) (a : Nat) : (s.event c u a).meter = s.meter := by
  unfold State.event; split <;> simp
@[simp] theorem State.event_migKey (s : State) (c : Nat) (u : Subject) (a : Nat) : (s.event c u a).migKey = s.migKey := by
  unfold State.event; split <;> simp
@[simp] theorem State.event_migSaves (s : State) (c : Nat) (u : Subject) (a : Nat) : (s.event c u a).migSaves = s.migSaves := by
  unfold State.event; split <;> simp
@[simp] theorem State.event_chain (s : State) (c : Nat) (u : Subject) (a : Nat) : (s.event c u a).chain = s.chain := by
  unfold State.event; split <;> simp
@[simp] theorem State.event_dbg (s : State) (c : Nat) (u : Subject) (a : Nat) : (s.event c u a).dbg = s.dbg := by
  unfold State.event; split <;> simp
@[simp] theorem State.record_pending (s : State) (k u c a t d : Nat) : (s.record k u c a t d).pending = s.pending := by
  simp [State.record]
@[simp] theorem State.record_phase (s : State) (k u c a t d : Nat) : (s.record k u c a t d).phase = s.phase := by
  simp [State.record]
@[simp] theorem State.record_pins (s : State) (k u c a t d : Nat) : (s.record k u c a t d).pins = s.pins := by
  simp [State.record]
@[simp] theorem State.record_time (s : State) (k u c a t d : Nat) : (s.record k u c a t d).time = s.time := by
  simp [State.record]
@[simp] theorem State.record_tick (s : State) (k u c a t d : Nat) : (s.record k u c a t d).tick = s.tick := by
  simp [State.record]
@[simp] theorem State.record_ppsLocked (s : State) (k u c a t d : Nat) : (s.record k u c a t d).ppsLocked = s.ppsLocked := by
  simp [State.record]
@[simp] theorem State.record_ptpLocked (s : State) (k u c a t d : Nat) : (s.record k u c a t d).ptpLocked = s.ptpLocked := by
  simp [State.record]
@[simp] theorem State.record_pow (s : State) (k u c a t d : Nat) : (s.record k u c a t d).pow = s.pow := by
  simp [State.record]
@[simp] theorem State.record_wear (s : State) (k u c a t d : Nat) : (s.record k u c a t d).wear = s.wear := by
  simp [State.record]
@[simp] theorem State.record_nv (s : State) (k u c a t d : Nat) : (s.record k u c a t d).nv = s.nv := by
  simp [State.record]
@[simp] theorem State.record_octMode (s : State) (k u c a t d : Nat) : (s.record k u c a t d).octMode = s.octMode := by
  simp [State.record]
@[simp] theorem State.record_lanes (s : State) (k u c a t d : Nat) : (s.record k u c a t d).lanes = s.lanes := by
  simp [State.record]
@[simp] theorem State.record_ports (s : State) (k u c a t d : Nat) : (s.record k u c a t d).ports = s.ports := by
  simp [State.record]
@[simp] theorem State.record_unprov (s : State) (k u c a t d : Nat) : (s.record k u c a t d).unprov = s.unprov := by
  simp [State.record]
@[simp] theorem State.record_allots (s : State) (k u c a t d : Nat) : (s.record k u c a t d).allots = s.allots := by
  simp [State.record]
@[simp] theorem State.record_wins (s : State) (k u c a t d : Nat) : (s.record k u c a t d).wins = s.wins := by
  simp [State.record]
@[simp] theorem State.record_exch (s : State) (k u c a t d : Nat) : (s.record k u c a t d).exch = s.exch := by
  simp [State.record]
@[simp] theorem State.record_region (s : State) (k u c a t d : Nat) : (s.record k u c a t d).region = s.region := by
  simp [State.record]
@[simp] theorem State.record_reads (s : State) (k u c a t d : Nat) : (s.record k u c a t d).reads = s.reads := by
  simp [State.record]
@[simp] theorem State.record_ghosts (s : State) (k u c a t d : Nat) : (s.record k u c a t d).ghosts = s.ghosts := by
  simp [State.record]
@[simp] theorem State.record_pkt (s : State) (k u c a t d : Nat) : (s.record k u c a t d).pkt = s.pkt := by
  simp [State.record]
@[simp] theorem State.record_sto (s : State) (k u c a t d : Nat) : (s.record k u c a t d).sto = s.sto := by
  simp [State.record]
@[simp] theorem State.record_cip (s : State) (k u c a t d : Nat) : (s.record k u c a t d).cip = s.cip := by
  simp [State.record]
@[simp] theorem State.record_skk (s : State) (k u c a t d : Nat) : (s.record k u c a t d).skk = s.skk := by
  simp [State.record]
@[simp] theorem State.record_meter (s : State) (k u c a t d : Nat) : (s.record k u c a t d).meter = s.meter := by
  simp [State.record]
@[simp] theorem State.record_migKey (s : State) (k u c a t d : Nat) : (s.record k u c a t d).migKey = s.migKey := by
  simp [State.record]
@[simp] theorem State.record_migSaves (s : State) (k u c a t d : Nat) : (s.record k u c a t d).migSaves = s.migSaves := by
  simp [State.record]
@[simp] theorem State.record_chain (s : State) (k u c a t d : Nat) : (s.record k u c a t d).chain = s.chain := by
  simp [State.record]
@[simp] theorem State.record_dbg (s : State) (k u c a t d : Nat) : (s.record k u c a t d).dbg = s.dbg := by
  simp [State.record]

end Sys2Proof.Machine
end

