-- ==== Sys2Proof/Laws/Mailbox.lean ====
section
/-! SUPPORT. What the frame of a mailbox command does, said once: a served command runs its body on the state its request has left, and
answers what the body answers. -/

namespace Sys2Proof.Machine

/-! ### What a request that has left its queue leaves as it was -/

@[simp] theorem begun_pending (x : XCall) (s : State) : (begun x s).pending = s.pending := by simp [begun]
@[simp] theorem begun_phase (x : XCall) (s : State) : (begun x s).phase = s.phase := by simp [begun]
@[simp] theorem begun_pins (x : XCall) (s : State) : (begun x s).pins = s.pins := by simp [begun]
@[simp] theorem begun_time (x : XCall) (s : State) : (begun x s).time = s.time := by simp [begun]
@[simp] theorem begun_tick (x : XCall) (s : State) : (begun x s).tick = s.tick := by simp [begun]
@[simp] theorem begun_ppsLocked (x : XCall) (s : State) : (begun x s).ppsLocked = s.ppsLocked := by simp [begun]
@[simp] theorem begun_ptpLocked (x : XCall) (s : State) : (begun x s).ptpLocked = s.ptpLocked := by simp [begun]
@[simp] theorem begun_pow (x : XCall) (s : State) : (begun x s).pow = s.pow := by simp [begun]
@[simp] theorem begun_flt (x : XCall) (s : State) : (begun x s).flt = s.flt := by simp [begun]
@[simp] theorem begun_wear (x : XCall) (s : State) : (begun x s).wear = s.wear := by simp [begun]
@[simp] theorem begun_nv (x : XCall) (s : State) : (begun x s).nv = s.nv := by simp [begun]
@[simp] theorem begun_eft (x : XCall) (s : State) : (begun x s).eft = s.eft := by simp [begun]
@[simp] theorem begun_octMode (x : XCall) (s : State) : (begun x s).octMode = s.octMode := by simp [begun]
@[simp] theorem begun_lanes (x : XCall) (s : State) : (begun x s).lanes = s.lanes := by simp [begun]
@[simp] theorem begun_ports (x : XCall) (s : State) : (begun x s).ports = s.ports := by simp [begun]
@[simp] theorem begun_hps (x : XCall) (s : State) : (begun x s).hps = s.hps := by simp [begun]
@[simp] theorem begun_fns (x : XCall) (s : State) : (begun x s).fns = s.fns := by simp [begun]
@[simp] theorem begun_unprov (x : XCall) (s : State) : (begun x s).unprov = s.unprov := by simp [begun]
@[simp] theorem begun_allots (x : XCall) (s : State) : (begun x s).allots = s.allots := by simp [begun]
@[simp] theorem begun_wins (x : XCall) (s : State) : (begun x s).wins = s.wins := by simp [begun]
@[simp] theorem begun_exch (x : XCall) (s : State) : (begun x s).exch = s.exch := by simp [begun]
@[simp] theorem begun_region (x : XCall) (s : State) : (begun x s).region = s.region := by simp [begun]
@[simp] theorem begun_ghosts (x : XCall) (s : State) : (begun x s).ghosts = s.ghosts := by simp [begun]
@[simp] theorem begun_reads (x : XCall) (s : State) : (begun x s).reads = s.reads := by simp [begun]
@[simp] theorem begun_pkt (x : XCall) (s : State) : (begun x s).pkt = s.pkt := by simp [begun]
@[simp] theorem begun_sto (x : XCall) (s : State) : (begun x s).sto = s.sto := by simp [begun]
@[simp] theorem begun_cip (x : XCall) (s : State) : (begun x s).cip = s.cip := by simp [begun]
@[simp] theorem begun_skk (x : XCall) (s : State) : (begun x s).skk = s.skk := by simp [begun]
@[simp] theorem begun_meter (x : XCall) (s : State) : (begun x s).meter = s.meter := by simp [begun]
@[simp] theorem begun_migKey (x : XCall) (s : State) : (begun x s).migKey = s.migKey := by simp [begun]
@[simp] theorem begun_migSaves (x : XCall) (s : State) : (begun x s).migSaves = s.migSaves := by simp [begun]
@[simp] theorem begun_i3c (x : XCall) (s : State) : (begun x s).i3c = s.i3c := by simp [begun]
@[simp] theorem begun_chain (x : XCall) (s : State) : (begun x s).chain = s.chain := by simp [begun]
@[simp] theorem begun_dbg (x : XCall) (s : State) : (begun x s).dbg = s.dbg := by simp [begun]
@[simp] theorem begun_ctr (x : XCall) (s : State) : (begun x s).ctr = s.ctr := by simp [begun]
@[simp] theorem begun_free (x : XCall) (s : State) : (begun x s).free = s.free := by simp [begun]
@[simp] theorem begun_out (x : XCall) (s : State) : (begun x s).out = s.out := by simp [begun]

@[simp] theorem callBy_flags (x : XCall) (r : Req) (s : State) : (callBy x r s).flags = r.flags := rfl
@[simp] theorem callBy_plen (x : XCall) (r : Req) (s : State) : (callBy x r s).plen = r.plen := rfl
@[simp] theorem callBy_mbx (x : XCall) (r : Req) (s : State) : (callBy x r s).mbx = x.mbx := rfl

/-! ### A served command -/

/-- A served command of one opcode: its body on the state it begins in, and the body's reply carried out. -/
theorem xop_served {x : XCall} {op : Nat} {r : Req} {s : State} (h : Served x op r s) (body : Call → State → State × Reply) :
    xop x op body s =
      match body (callBy x r s) (begun x s) with
      | (t, .done st detail p hdr unit) => answerWith x (respond x.mbx r x.rspList st detail (layout p) hdr unit) t
      | (t, .sized st full) => answerWith x (putResponse x.mbx r x.rspList st 0 full []) t
      | (t, .wait w) => t.modMbx x.mbx ({ · with cur := some (r, w) })
      | (t, .hold) => t.modMbx x.mbx ({ · with queue := r :: (mbxOf s x.mbx).queue.tail }) := by
  obtain ⟨hf, hr, ho, ha, hrole, hh⟩ := h
  cases hrow : opRow op with
  | none => simp [hrow] at hrole
  | some p =>
    obtain ⟨roles, taken⟩ := p
    simp only [hrow, Option.getD_some] at hrole hh
    cases hq : (mbxOf s x.mbx).queue with
    | nil => simp [hq] at hf
    | cons a l =>
      simp only [hq, List.head?_cons, Option.some.injEq] at hf
      subst hf
      have hb : s.modMbx x.mbx ({ · with queue := l }) = begun x s := by simp [begun, hq]
      unfold xop xcs
      simp only [hq, hr, ho, ha, decide_true, Bool.not_true, Bool.or_self, Bool.false_eq_true, if_false, hb, hrow, hrole, hh, List.tail_cons]
      rfl

end Sys2Proof.Machine
end

