-- ==== Sys2Proof/Laws/Maps.lean ====
section
/-! SUPPORT. Maps and byte memories: a read after a write, and every memory operation keeps the canonical form. -/

namespace Sys2Proof.Machine

/-! ### Maps -/

@[simp] theorem mget?_mput_self {α : Type} (m : List (Nat × α)) (k : Nat) (v : α) : mget? (mput m k v) k = some v := by
  induction m with
  | nil => simp [mput, mget?]
  | cons e m ih =>
    obtain ⟨a, b⟩ := e
    simp only [mput]
    split
    · simp [mget?]
    · split
      · simp [mget?]
      · rename_i h1 h2
        have : a ≠ k := fun h => h2 h.symm
        simp [mget?, this, ih]

theorem mget?_mput_ne {α : Type} (m : List (Nat × α)) {k j : Nat} (v : α) (h : j ≠ k) : mget? (mput m k v) j = mget? m j := by
  induction m with
  | nil => simp [mput, mget?, h.symm]
  | cons e m ih =>
    obtain ⟨a, b⟩ := e
    simp only [mput]
    split
    · simp [mget?, h.symm]
    · split
      · rename_i h1 h2
        subst h2
        simp [mget?, h.symm]
      · simp [mget?, ih]

@[simp] theorem mget?_mdel_self {α : Type} (m : List (Nat × α)) (k : Nat) : mget? (mdel m k) k = none := by
  induction m with
  | nil => rfl
  | cons e m ih =>
    obtain ⟨a, b⟩ := e
    simp only [mdel, ne_eq, decide_not] at ih ⊢
    by_cases h : a = k
    · simp [h, ih]
    · simp [h, mget?, ih]

theorem mget?_mdel_ne {α : Type} (m : List (Nat × α)) {k j : Nat} (h : j ≠ k) : mget? (mdel m k) j = mget? m j := by
  induction m with
  | nil => rfl
  | cons e m ih =>
    obtain ⟨a, b⟩ := e
    simp only [mdel, ne_eq, decide_not] at ih ⊢
    by_cases h' : a = k
    · subst h'
      simp [mget?, ih, h.symm]
    · simp [h', mget?, ih]

@[simp] theorem mgetD_mput_self {α : Type} (m : List (Nat × α)) (k : Nat) (v d : α) : mgetD (mput m k v) k d = v := by simp [mgetD]

theorem mgetD_mput_ne {α : Type} (m : List (Nat × α)) {k j : Nat} (v d : α) (h : j ≠ k) : mgetD (mput m k v) j d = mgetD m j d := by
  simp [mgetD, mget?_mput_ne m v h]

@[simp] theorem mgetD_mdel_self {α : Type} (m : List (Nat × α)) (k : Nat) (d : α) : mgetD (mdel m k) k d = d := by simp [mgetD]

theorem mgetD_mdel_ne {α : Type} (m : List (Nat × α)) {k j : Nat} (d : α) (h : j ≠ k) : mgetD (mdel m k) j d = mgetD m j d := by
  simp [mgetD, mget?_mdel_ne m h]

/-! ### Rising keys -/

/-- The form, as a statement over pairs. -/
theorem mwf_iff {α : Type} (m : List (Nat × α)) : mwf m = true ↔ m.Pairwise (fun a b => a.1 < b.1) := by
  induction m with
  | nil => simp [mwf]
  | cons e m ih =>
    cases m with
    | nil => simp [mwf]
    | cons f l =>
      obtain ⟨a, v⟩ := e
      obtain ⟨b, w⟩ := f
      simp only [mwf, Bool.and_eq_true, decide_eq_true_eq, ih, List.pairwise_cons]
      constructor
      · rintro ⟨h, h1, h2⟩
        refine ⟨?_, h1, h2⟩
        intro x hx
        rcases List.mem_cons.mp hx with rfl | hx
        · exact h
        · exact Nat.lt_trans h (h1 x hx)
      · rintro ⟨h, h1, h2⟩
        exact ⟨h _ (List.mem_cons_self ..), h1, h2⟩

theorem mem_mput {α : Type} {m : List (Nat × α)} {k : Nat} {v : α} {e : Nat × α} (h : e ∈ mput m k v) : e = (k, v) ∨ e ∈ m := by
  induction m with
  | nil => simp_all [mput]
  | cons f m ih =>
    obtain ⟨a, b⟩ := f
    simp only [mput] at h
    split at h
    · simpa using h
    · split at h
      · simp only [List.mem_cons] at h ⊢
        tauto
      · simp only [List.mem_cons] at h ⊢
        rcases h with h | h
        · tauto
        · rcases ih h with h | h <;> tauto

theorem mwf_mput {α : Type} {m : List (Nat × α)} (k : Nat) (v : α) (h : mwf m = true) : mwf (mput m k v) = true := by
  rw [mwf_iff] at h ⊢
  induction m with
  | nil => simp [mput]
  | cons f m ih =>
    obtain ⟨a, b⟩ := f
    simp only [List.pairwise_cons] at h
    simp only [mput]
    split
    · rename_i hk
      simp only [List.pairwise_cons]
      refine ⟨?_, h⟩
      intro x hx
      rcases List.mem_cons.mp hx with rfl | hx
      · exact hk
      · exact Nat.lt_trans hk (h.1 x hx)
    · split
      · rename_i h1 h2
        subst h2
        simp only [List.pairwise_cons]
        exact h
      · rename_i h1 h2
        simp only [List.pairwise_cons]
        refine ⟨?_, ih h.2⟩
        intro x hx
        rcases mem_mput hx with rfl | hx
        · show a < k
          omega
        · exact h.1 x hx

theorem mwf_filter {α : Type} {m : List (Nat × α)} (p : Nat × α → Bool) (h : mwf m = true) : mwf (m.filter p) = true := by
  rw [mwf_iff] at h ⊢
  exact h.filter p

/-! ### Byte memories -/

@[simp] theorem rd8_wr8_self (m : List Host.Cell) (a : Nat) (b : Byte) : rd8 (wr8 m a b) a = b := by
  unfold rd8 wr8
  split
  · rename_i h
    rw [mget?_mdel_self]
    exact h.symm
  · rw [mget?_mput_self]
    rfl

theorem rd8_wr8_ne (m : List Host.Cell) {a c : Nat} (b : Byte) (h : c ≠ a) : rd8 (wr8 m a b) c = rd8 m c := by
  unfold rd8 wr8
  split
  · rw [mget?_mdel_ne m h]
  · rw [mget?_mput_ne m b h]

/-- A write of several bytes leaves every byte outside them. -/
theorem rd8_wrN_out (bs : List Byte) (m : List Host.Cell) (a c : Nat) (h : c < a ∨ a + bs.length ≤ c) : rd8 (wrN m a bs) c = rd8 m c := by
  induction bs generalizing m a with
  | nil => rfl
  | cons b l ih =>
    simp only [List.length_cons] at h
    simp only [wrN]
    rw [ih _ _ (by omega), rd8_wr8_ne m b (by omega)]

/-- A write of several bytes leaves each of them where it was written. -/
theorem rd8_wrN_in (bs : List Byte) (m : List Host.Cell) (a i : Nat) (h : i < bs.length) : rd8 (wrN m a bs) (a + i) = bs[i] := by
  induction bs generalizing m a i with
  | nil => simp at h
  | cons b l ih =>
    simp only [wrN]
    cases i with
    | zero =>
      rw [rd8_wrN_out _ _ _ _ (by omega)]
      simp
    | succ i =>
      have := ih (wr8 m a b) (a + 1) i (by simpa using h)
      rw [show a + (i + 1) = a + 1 + i by omega, this]
      simp

/-- A write keeps the canonical form. -/
theorem memWf_wr8 {m : List Host.Cell} (a : Nat) (b : Byte) (h : memWf m = true) : memWf (wr8 m a b) = true := by
  unfold memWf at h ⊢
  simp only [Bool.and_eq_true, List.all_eq_true, decide_eq_true_eq] at h ⊢
  unfold wr8
  split
  · refine ⟨mwf_filter _ h.1, ?_⟩
    intro x hx
    exact h.2 x (List.mem_of_mem_filter hx)
  · rename_i hb
    refine ⟨mwf_mput a b h.1, ?_⟩
    intro x hx
    rcases mem_mput hx with rfl | hx
    · exact hb
    · exact h.2 x hx

theorem memWf_wrN {m : List Host.Cell} (a : Nat) (bs : List Byte) (h : memWf m = true) : memWf (wrN m a bs) = true := by
  induction bs generalizing m a with
  | nil => exact h
  | cons b l ih => exact ih _ (memWf_wr8 a b h)

theorem memWf_zeroN {m : List Host.Cell} (a n : Nat) (h : memWf m = true) : memWf (zeroN m a n) = true := by
  unfold memWf at h ⊢
  simp only [Bool.and_eq_true, List.all_eq_true, decide_eq_true_eq] at h ⊢
  exact ⟨mwf_filter _ h.1, fun x hx => h.2 x (List.mem_of_mem_filter hx)⟩

theorem rd8_zeroN (m : List Host.Cell) (a n c : Nat) : rd8 (zeroN m a n) c = if c < a ∨ a + n ≤ c then rd8 m c else 0 := by
  unfold rd8 zeroN
  induction m with
  | nil => simp [mget?]
  | cons e m ih =>
    obtain ⟨k, v⟩ := e
    by_cases hk : k < a ∨ a + n ≤ k
    · have hf : (decide (k < a) || decide (a + n ≤ k)) = true := by simpa using hk
      rw [List.filter_cons, if_pos hf]
      by_cases hc : k = c
      · subst hc
        simp [mget?, hk]
      · simpa [mget?, hc] using ih
    · have hf : (decide (k < a) || decide (a + n ≤ k)) = false := by simpa using hk
      rw [List.filter_cons, if_neg (by simp [hf])]
      by_cases hc : k = c
      · subst hc
        rw [ih]
        simp [hk]
      · rw [ih]
        simp [mget?, hc]

/-! ### Counters -/

theorem ctrOf_ctrAdd (m : List (Ctr × Nat)) (c d : Ctr) (n : Nat) : ctrOf (ctrAdd m c n) d = ctrOf m d + if c = d then n else 0 := by
  induction m with
  | nil =>
    by_cases h : c = d <;> simp [ctrAdd, ctrOf, h]
  | cons e m ih =>
    obtain ⟨a, k⟩ := e
    simp only [ctrAdd]
    by_cases h1 : a = c
    · subst h1
      by_cases h2 : a = d <;> simp [ctrOf, h2]
    · by_cases h2 : a = d
      · subst h2
        simp [ctrOf, h1, Ne.symm h1]
      · simp [ctrOf, h1, h2, ih]

/-- A bump raises its own counter by what it says, and no other. -/
theorem State.count_bump (s : State) (k k' : CtrKind) (a a' b b' n : Nat) :
    (s.bump k a b n).count k' a' b' = s.count k' a' b' + if (⟨k, a, b⟩ : Ctr) = ⟨k', a', b'⟩ then n else 0 := by
  unfold State.bump State.count
  split
  · rename_i h
    simp [h]
  · exact ctrOf_ctrAdd _ _ _ _

end Sys2Proof.Machine
end

