-- ==== Sys2Proof/Tests/Slice0.lean ====
section
/-! SUPPORT. Tests: values that the spec states, a few single steps, the check of well-formedness on commands that it accepts and
refuses, and for every statement for the provers with hypotheses a state and operands that meet them, clause by clause. Where a premise rests on
a value that no closed term shows (a fuse's root hash, the bytes that a keyed hash takes) or on unwrapping a blob of 216 bytes, which is long
for the kernel, the witness takes that answer as its only premise. -/

set_option Elab.async false

namespace Sys2Proof.Tests
open Sys2Proof Sys2Proof.Machine

/-- A request slot: opcode, flags, payload length. -/
def rq (op flags plen : Nat) : Req := { slot := BitVec.ofNat 512 (op + flags * 2 ^ 32 + plen * 2 ^ 64) }

/-- The Owner's mailbox. -/
def xo : XCall := { mbx := .fn 0 }

/-- A mailbox command is served, by what a step finds of it. -/
theorem served {x : XCall} {op : Nat} {r : Req} {s : State} (h : (mbxOf s x.mbx).queue.head? = some r ∧ mbxReady s x.mbx = true ∧
    r.opcode = op ∧ x.agree = true ∧ ((opRow op).getD (0, 0)).1 &&& roleOf (begun x s) x.mbx ≠ 0 ∧
    headerFault x.mbx r ((opRow op).getD (0, 0)).2 x = none) : Served x op r s :=
  ⟨h.1, h.2.1, h.2.2.1, h.2.2.2.1, h.2.2.2.2.1, h.2.2.2.2.2⟩

/-- A function with its link's bits on. -/
def fnOn (pf vf : Nat) : Fn :=
  { pf, vf, tenant := 7, bound := true, bme := true, mse := true, ready := true, vfEnable := true, numVfs := 8, msixEn := true
    grants := { rings := 8, nvmeQp := 8, cmds := 16, l2 := 4, flow := 4 } }

/-- A running device: the first unit of each elastic consumer holds a credit; octet 0 has host ports 0 and 1, both up; port 0 is the
Owner's, with PF0, PF1, PF2, a network VF (4) and a storage VF (5). -/
def up : State := { State.reset with
  phase := .running
  pins := { sysRstN := true }
  eft := { running := 0, reason := 1, portsUp := true }
  pow := { elastic := [(512, 1), (768, 1), (1024, 1), (1280, 1), (1536, 1), (2048, 1)] }
  octMode := [(0, 1)]
  hps := [(0, { linkUp := true, ready := true }), (1, { linkUp := true, ready := true })]
  fns := [(0, fnOn 0 0), (1, fnOn 1 0), (2, fnOn 2 0), (4, fnOn 1 1), (5, fnOn 2 1), (2048, fnOn 0 0)]
  mbxs := [(0, { enable := true, state := 1 })] }

/-- The state with one request waiting in the Owner's mailbox. -/
def ask (op flags plen : Nat) (s : State) : State := s.modMbx (.fn 0) ({ · with queue := [rq op flags plen] })

/-- A running device with Ethernet port 0 up on octet 1. -/
def eth : State := { up with ports := [(0, { octet := 1, width := 8, curWidth := 8, state := 2, admin := true, mtu := 1518 })] }

/-- The network VF's ring 1 as given. -/
def ringUp (x : Ring) : State := up.modFn 4 ({ · with rings := [(1, x)] })

/-- The device just before `SYS_RST_N` is released. -/
def held : State := { up with pins := { sysRstN := false } }

/-- A Basking device. -/
def asleep : State := { up with phase := .basking }

/-- The Owner's mailbox with a command started that waits. -/
def waits (w : Wait) (s : State) : State := s.modMbx (.fn 0) ({ · with cur := some (rq 0 0 0, w) })

/-- A device on the I3C bus. -/
def i3cUp : State := { up with i3c := { addr := some 9 } }

/-- A unit of a chain that is up. -/
def chainUp : State := { up with chain := { addr := 2, units := 16, state := 2, seen := true } }

/-- A rule that matches every packet, in the last slot of logical pipeline 0. -/
def ruleAll : Nat := 2 ^ (32 * 47)
def ruled : State := { up with pkt := { padA := { rules := [(32767, ruleAll)] } } }

/-- Pipeline 0 with one context on engine 0. -/
def engine (c : Ctx) : State := { up with pkt := { ctxs := [(0, [c])] } }

/-- Nodes that lead queue 0 to egress node `l0`. -/
def leads (l0 : Nat) : List (Nat × Nat) :=
  [(131072, 2 ^ 20 + l0), (2 * 131072, 2 ^ 20), (3 * 131072, 2 ^ 20)]

/-- One copy at the head of queue 0, which leads to Ethernet port 0. -/
def queued : State := { eth with pkt :=
  { queues := [(0, [{ dest := mkDest 1 0 }])], buf := [(0, {})], padA := { nodes := leads 0 } } }

/-- One copy at the head of queue 0, which leads to function 0 of host port 0. -/
def queuedHost : State := { up with pkt :=
  { queues := [(0, [{ dest := mkDest 2 0 }])], buf := [(0, {})], padA := { nodes := leads 144 } } }

/-- A running controller: the storage VF 5, with an I/O queue pair, one volume of one replica, attached as namespace 1. -/
def nv : State := { up with sto := {
  ctrls := [(5, { rdy := true, cc := 1, sqs := [(0, { size := 4 }), (1, { size := 4, cq := 1, tail := 1 })]
                  cqs := [(0, { size := 4 }), (1, { size := 4 }), (2, { size := 4 })] })]
  nss := [(5 * 65536 + 1, {})], vols := [(0, { size := 1024, tenant := 7, reps := [{}], state := 2 })]
  backs := [(0, { state := 1, info := { blocks := 2 ^ 34 } })] } }

/-- Commands in flight, and the read of data of the one with identifier 0 of queue 1. -/
def inAir (l : List NvCmd) : State :=
  { nv.modSto ({ · with cmds := l }) with reads := [{ tag := some 0, fid := 5, purpose := .nvme 1 0, len := 4096 }] }

/-- An admin command, by opcode and dwords 10 and 11. -/
def adm (opc d10 d11 : Nat) : NvCmd := { fid := 5, sqe := opc + (d10 + d11 * 2 ^ 32) * 2 ^ 160 * 2 ^ 160 }

/-- An I/O command of one block of volume 0. -/
def io (opc : Nat) (p : NvPhase) : NvCmd := { fid := 5, sqid := 1, sqe := opc + 2 ^ 32, vol := 0, phase := p, ranges := [(0, 1)] }

/-- Key slot 0 as given, under a live KEK, on a device with requests of the cipher engine. -/
def keys (k : KeySlot) (reqs : List CipherReq) : State :=
  { up with cip := { slots := [(0, k)], kek := some 0, reqs } }

/-- Partition 1 as given on core 0, with threads and channels. -/
def party (q : Part) (ts : List (Nat × Thread)) (cs : List (Nat × Channel)) : State :=
  { up with skk := { parts := [(1, q)], threads := ts, chans := cs } }

/-- A running partition of core 0 with channels 0 to 63. -/
def work : Part := { cores := [0], running := true }

/-- The running partition with a thread 0 that can run, and what it is given. -/
def runs (cs : List (Nat × Channel)) : State := party work [(0, { state := 2 })] cs

/-- Sixteen messages: a full channel. -/
def brim : Channel := { msgs := List.replicate 16 { words := [1] } }

/-- A vendor partition whose thread 0 holds contexts. -/
def vendor (l : List Nat) : State := party { work with vendor := true } [(0, { state := 2, held := l })] []

/-- The partition's thread 0, with a packet under handle 7. -/
def holds : State := { runs [] with skk := { (runs []).skk with handles := [(7, { part := 1, pkt := { bytes := [1, 2, 3] } })] } }

/-- A customer's public key, enrolled in the device's first store, and the SHA-384 of it that a trailer begins with. -/
def custKey : List Byte := beBytes 96 0x32bada0b277a9aac37e312bd3befecf7b0f87ffb3dfd31adb2b2b8724b537c47aac9a5484194303b753ad516a06010db841fee7105f80c490de3b7856ce5b4874c10f389681ca9a0ac4a662e77730c4383c27036ffddc253eb2c813288fb18da
def enrolled (s : State) : State := { s with nv := { s.nv with custKeys := [(0, { key := custKey })] } }

/-- A customer's service image of one segment without data, signed under that key. -/
def imageOne : List Byte :=
  leBytes 6 0x14B535A45 ++ [2, 0] ++ leBytes 8 1 ++ leBytes 8 (2 ^ 32) ++ leBytes 8 1 ++ List.replicate 32 0
    ++ leBytes 8 96 ++ leBytes 8 (2 ^ 32) ++ leBytes 8 0 ++ leBytes 8 16
    ++ beBytes 144 0x3612b850b0e7e007741a7d0b60cfea7247ce914bc73940da727960e828abb0cf1d62fa1dbbb941a7cb6589153f6b7af16454c3ef8e18101face3ffd656efa9e19c29c5aaa7d4e9ff325d536ae427ef9c2c8c124079203f7c527e2cc756935aae894ffdcce9f87d81c3e5389d728cdb56023da6c0f026d65692e88af3e3d6d9c3d1fc32adf66d2bc1af498322b5581a33

/-- A customer's microcode image of one word, signed under that key. -/
def ucodeOne : List Byte :=
  leBytes 4 0x55435A45 ++ [1, 0, 1, 0] ++ leBytes 4 0xA1440001 ++ leBytes 4 1 ++ leBytes 8 1 ++ List.replicate 200 0
    ++ beBytes 144 0x3612b850b0e7e007741a7d0b60cfea7247ce914bc73940da727960e828abb0cf1d62fa1dbbb941a7cb6589153f6b7af15c39d438cc6df87e4b3701c499672af77b21aa9cae018acf87ad6d76c5d5d098372a9cf0a08a236239d058e879bd22504554cdff19ee056f5d1e74c73e186ce8a8d0bc933a508effe9b0f86204db4db2a81dd0bc30f793f197cbe23a8dc63425

/-- A debug token of one partition for the challenge 0x1234, signed under that key. -/
def tokenOne : List Byte :=
  leBytes 4 0x47445A45 ++ [1, 0, 1, 4] ++ leBytes 8 0 ++ leBytes 32 0x1234 ++ [1] ++ List.replicate 63 0
    ++ beBytes 144 0x3612b850b0e7e007741a7d0b60cfea7247ce914bc73940da727960e828abb0cf1d62fa1dbbb941a7cb6589153f6b7af18696f306ca0827daa05a704d2e3bdb3767c61d1aa2c7b78f6698f960990264845218a54a06b8fbc3625c4ab455e9ab4b5bdcffc515fb6e9f8924a464aaf1156814f016ee3dd47c7433945de2ecfe07c39ffd937e4e86e522c3891c34c8764fe9

/-- The network VF frozen, under a migration key in slot 0. -/
def frozen : State := { up.modFn 4 ({ · with frozen := true }) with
  migKey := some 0, cip := { slots := [(0, { type := 2, usage := 128, key := List.replicate 32 7 })], kek := some 0 } }

/-- A blob of a network function with 224 bytes of wrapped contents: a grant record and the end mark. -/
def blob : List Byte :=
  leBytes 4 0x4D475A45 ++ [1, 0, 1, 0] ++ leBytes 8 5 ++ leBytes 8 0 ++ leBytes 4 4 ++ leBytes 4 224 ++ List.replicate 272 0

/-- A `MIG_SAVE` request with room for the blob. -/
def roomy : Req := { slot := BitVec.ofNat 512 (0x1004 + 2 * 2 ^ 32 + 8192 * 2 ^ 96 + 4096 * 2 ^ 192) }

/-! ### Values that the spec states -/

/-- R279: the check values of the four CRC codes. -/
theorem test_crc_check_values :
    (List.range 4).map (fun a => crcOf a (ascii "123456789")) = [0xE3069283, 0xCBF43926, 0xD0DB, 0xAE8B14860A799888] := by decide +kernel

/-- The worked word of the microcode chapter: a call of 0x0020 that moves BINDING_ARG to G0 and PKT_LEN to G2. -/
def word6000 : Nat := 0x3000102EC000BB4010000000000000000000000000000000

theorem test_word_registers :
    let c := wordRegs up { pkt := { arg := 0x10, rxLen := 1500 } } word6000
    gReg c 0 = 0x10 ∧ gReg c 2 = 1500 ∧ gReg c 1 = 0 := by decide +kernel

theorem test_word_calls :
    (match nextPc {} 0x6000 word6000 with
      | .ok r => some r
      | .error _ => none) = some (0x20, [0x6001]) := by decide +kernel

/-- R31: 900 A of 1,025 A, and 1,025 A where the VDD_CORE budget is larger, at 0.640 V. -/
theorem test_effective_budget :
    effectiveCore { core := 3600, packageW := 1100, sds := 960 } 6400 = 3600 ∧
    effectiveCore { core := 5400, packageW := 1100, sds := 960 } 6400 = 4100 := by decide +kernel

/-- R229: CNTLID of storage VF 2 of host port 5. -/
theorem test_cntlid : cntlId { up with octMode := [(2, 1)], hps := [(5, {})], fns := [(5 * 2048 + 6, fnOn 2 2)] } (5 * 2048 + 6) = 0x1408 := by decide +kernel

/-- R442: the provisioned ID of a UNIQUE_ID. -/
theorem test_provisioned_id : provisionedId { up with nv := { uniqueId := 0x5A1C2B07 } } = 0x03CF5A1C2B07 := by decide +kernel

/-- R313, R333: the supervisor and the fault channel of a partition on cores 4 and 5 of cluster 3. -/
theorem test_partition_numbers :
    supervisorOf { cores := [28, 29], first := 0x100 } = 0x0E0 ∧ faultChan { cores := [28, 29], first := 0x100 } = 0x3100 := by decide

/-- R317: the worked word of CH.RD x5, x9. -/
theorem test_ch_rd_word : xtirzuOf 0x0004A28B = some (.chRd 5 9) := by decide

/-- R72, R115: host port 5 of FID 0x2805 is on logical pipeline 1. -/
theorem test_fid_parts : fidPort 0x2805 = 5 ∧ fidFn 0x2805 = 5 ∧ pipeOfHost 5 = 1 := by decide

/-! ### Single steps -/

/-- The state that a step reaches, if it reaches one. -/
def after (i : Instr) (s : State) : Option State :=
  match step { s with pending := [i] } with
  | .next t => some t
  | _ => none

theorem test_idle : step up = .next up := rfl

theorem test_malformed : step { up with pending := [.skinkTimerFire 65536] } = .fault .malformed := rfl

/-- R355: the answer to `DEV_CAPS` is given and its request is done. -/
theorem test_dev_caps :
    ((after (.devCaps xo) (ask 0x0102 0 0 up)).map fun t => (mbxOf t (.fn 0)).queue.isEmpty) = some true := by decide +kernel

/-- R306: the alarm zeroises the KEK and latches its source. -/
theorem test_alarm :
    ((after (.alarmNAssert 100 false) (keys { type := 1 } [])).map fun t => (t.cip.kek, t.cip.sources)) = some (none, 16) := by
  decide +kernel

/-- R306: 99 ns are too short. -/
theorem test_alarm_short :
    ((after (.alarmNAssert 99 false) (keys { type := 1 } [])).map fun t => (t.cip.kek, t.cip.sources)) = some (some 0, 0) := by
  decide +kernel

/-- R318: a store to staging keeps the word until the commit. -/
theorem test_staging :
    ((after (.chWr 0 3 77) (runs [])).map fun t => mgetD (threadOf t 0).staging 3 0) = some 77 := by decide +kernel

/-- R319: receiving gives the message's word in a0 and zeros beyond it. -/
theorem test_receive :
    ((after (.chRd 0 5 9) (runs [(5, brim)])).map fun t =>
      (mgetD (threadOf t 0).regs 10 7, mgetD (threadOf t 0).regs 11 7, (chanOf t 5).msgs.length)) = some (1, 0, 15) := by decide +kernel

/-- R18: reset loses what is not eMRAM or OTP. -/
theorem test_reset :
    ((after .sysRstNAssert (keys { type := 1 } [])).map fun t => (t.phase, t.fns.length, t.wins.length)) = some (.inReset, 0, 0) := by
  decide +kernel

/-- No word spells a command. -/
theorem test_no_words : decodeTableWord 64 0 = none ∧ up.withFetchWord 64 0 = up := ⟨rfl, rfl⟩

/-! ### The cited standards: published vectors (R292, R152, R195) -/

/-- FIPS 197, Appendix B. -/
theorem test_aes_block : aesEnc (aesKeys (beBytes 16 0x2b7e151628aed2a6abf7158809cf4f3c)) (beBytes 16 0x3243f6a8885a308d313198a2e0370734) =
    beBytes 16 0x3925841d02dc09fbdc118597196a0b32 := by decide +kernel
/-- The GCM submission to NIST, test case 2. -/
theorem test_gcm : cipherRun 1 (zeros 16) (zeros 12) [] (zeros 16) =
    beBytes 32 0x0388dace60b6a392f328c2b971b2fe78ab6e47d42cec13bdf53a67b21257bddf := by decide +kernel
/-- IEEE 1619, vector 1. -/
theorem test_xts : cipherRun 3 (zeros 32) (zeros 16) [] (zeros 32) =
    beBytes 32 0x917cf69ebd68b2ec9b9fe9a3eadda692cd43d2f59598ed858c02c2652fbf922e := by decide +kernel
/-- RFC 4493, example 1. -/
theorem test_cmac : cipherRun 5 (beBytes 16 0x2b7e151628aed2a6abf7158809cf4f3c) [] [] [] =
    beBytes 16 0xbb1d6929e95937287fa37d129b756746 := by decide +kernel
/-- RFC 3394, section 4.1. -/
theorem test_key_wrap : cipherRun 6 (beBytes 16 0x000102030405060708090A0B0C0D0E0F) [] [] (beBytes 16 0x00112233445566778899AABBCCDDEEFF) =
    beBytes 24 0x1FA68B0A8112B447AEF34BD8FB5A7B829D3E862371D2CFE5 := by decide +kernel
/-- RFC 8439, section 2.3.2: the first bytes of the block. -/
theorem test_chacha : (chachaBlock ((List.range 32).map (BitVec.ofNat 8)) (beBytes 12 0x000000090000004a00000000) 1).take 16 =
    beBytes 16 0x10f1e7e4d13b5915500fdd1fa32071c4 := by decide +kernel
/-- FIPS 180-4's example, "abc". -/
theorem test_sha384 : sha384 [0x61, 0x62, 0x63] =
    0xcb00753f45a35e8bb5a03d699ac65007272c32ab0eded1631a8b605a43ff5bed8086072ba1e7cc2358baeca134c825a7#384 := by decide +kernel
/-- The vector of the SipHash paper. -/
theorem test_siphash : sipHash24 0x0f0e0d0c0b0a09080706050403020100 ((List.range 15).map (BitVec.ofNat 8)) = 0xa129ca6149be45e5 := by
  decide +kernel

/-! ### Well-formedness -/

theorem wellFormed_accepts_1 : ([
    .sysRstNAssert, .sysRstNRelease false false 0, .pwrOkRise, .pwrOkFall, .alarmNAssert 0 false, .supplyGlitch .core 0 0,
    .tjThresholdCross 0 0, .wakeNAssert 0, .ppsInEdge, .ptpStep 0, .arbiterEpoch [] [] 0 0, .hardLimitCross false 0,
    .governorPeriod false, .avsWriteDone false, .sensorWindow false 0 0,
    .stallWatchdogFire (.pipeline 0) ({ stage := 0, us := 0, on := .inside }), .invalidCodeword (.pipeline 0) 0,
    .clearSelftestDone (.pipeline 0) false, .probationEnd (.pipeline 0), .checkerSelftest (.pipeline 0) 0 false,
    .scrubStep .packetBuffer 0 0 .clean, .eftLockstepMismatch 0, .eftRestartDone, .wearEvaluation 0 0 0 0 0 0 false, .ageHour 0,
    .regrowthDone 0 false, .laneBerWindow 0 0 0, .linkTrainingDone 0 false 0, .reformTimeout 0, .linkLoss 0,
    .ethFrameReceive 0 [] 0 false, .pauseFrameReceive 0 false 0 [], .pauseQuantaExpire 0 0, .pauseStormLimit 0 0, .pauseStormClear 0 0,
    .mgmt0FrameReceive [] 0, .pipelineHeaderAccept ({ pipe := 0, puntOk := true }), .microword ({ pipe := 0, puntOk := true }) 0 .clean,
    .microcodeOpComplete ({ pipe := 0, puntOk := true }) 0 0, .sprayReseqTimeout 0 0, .sprayContextIdle 0 0, .flowletGapExpire 0 0 0,
    .lbImbalanceWindow 0, .agingSlice 2 0 none, .learnServiceEvent 0, .rehashDone 2 0, .egressSchedule 0 [] false false,
    .deadlineHeadCheck 0, .queueTelemetrySample 0 0 0, .minuteBoundary, .meterExport [], .timedLeapTrigger 0,
    .padWriteResume (.fn 0) false, .pcieConfigRequest (.fid 4) .id 0 false 0, .bmeClear 0, .mseClear 0, .flr 0, .vfEnableSet 0 0,
    .vfEnableClear 0, .d3hotEnter 0, .d0Return 0, .d3coldEnter 0, .hpPerstNAssert 0 0, .hpPerstNDeassert 0, .hotReset 0,
    .dlUp 0 16 32 false, .l1Enter 0 false, .msixUnmask 0 0, .bar4WindowTlp 0 0 4 false [] false, .pcieReadCompletion 0 0 none] : List Instr).all wellFormed = true := by decide +kernel

theorem wellFormed_accepts_2 : ([
    .completionTimeout 0 0, .ringEnable 0 0 0, .ringDisable 0 0 0, .ringReset 0 0, .ringDb 0 0 false, .indexWordReadDone 0 .mailbox 0,
    .hostTxPacket 0 0 [0] [] false, .cplCi 0 0 0, .cplModTimerExpire 0 0, .fnCtlUnfence 0, .registerWrite (.fid 4) 0 0 0 0,
    .mbxEnable 0 0, .mbxDisable 0 0, .mbxDb 0 0 0 false, .mbxHeadlessAnswer (.fn 0), .unassignedOpcode xo, .devInfo xo, .devCaps xo,
    .devTimeGet xo, .devTimeSet xo 0 0, .devReset xo 0 0, .portConfig xo {}, .portState xo 0, .portStats xo 0 0, .laneDiag xo 0 0 0 [],
    .octetMode xo 0 0 0, .allotSet xo 0 0 0 0 (List.replicate 14 0), .allotGet xo 0, .fnCreate xo 0 0 0 (List.replicate 11 0),
    .fnDestroy xo 0, .fnQuery xo 0, .tenantBind xo 0 0, .windowSet xo {}, .windowRetire xo 0 0, .windowDrainDone 0 0,
    .windowRetireTimeout 0 0, .tblInsert xo 0 0 0 (.record 0), .tblDelete xo 0 0 0 (.record 0), .tblLookup xo 0 0 0 (.record 0),
    .tblIter xo 0 0 0 0 0 0, .tblFlush xo 0 0 0 0, .tblRehash xo 0 0, .learnConfig xo 0 0 0 0 0, .agingConfig xo 0 0 0 0 0,
    .lbGroupSet xo 0 0 [], .lbMonitor xo 0 0 0 0 0, .parseDepthSet xo 0 0, .portDefaultSet xo 0 0, .ruleWrite xo 0 0 0 0,
    .ruleClear xo 0 0 0, .ruleRead xo 0 0 0 0, .ucodeLoad xo {}, .ucodeKeyEnrol xo 0 0 (List.replicate 96 0), .ucodeInfo xo 0 0,
    .ucodePatchState xo 0 0, .padCopy xo, .padLeap xo 0 0 0, .padState xo, .padDiscard xo, .poolConfig xo 0 0, .reserveSet xo 0 0 0 0 0 0,
    .policerSet xo 0 0, .shaperSet xo 0 0 0 0 0 0 0, .queueMap xo (.other 3), .queueSampleConfig xo 0 0 0 0 0 0 [], .queueStats xo 0,
    .volCreate xo 0 0 0 0 0 [], .volDestroy xo 0, .volAttach xo 0 0 0 0 0 0, .volDetach xo 0 0] : List Instr).all wellFormed = true := by decide +kernel

theorem wellFormed_accepts_3 : ([
    .backendAdd xo ({ nqn := List.replicate 224 0 }) {}, .backendState xo 0, .volReconcileState xo 0, .keyLoad xo 0 0 0 0 0 [],
    .keyErase xo 0, .keyEraseComplete 0, .saCreate xo {}, .saState xo 0, .alarmState xo, .alarmClear xo, .kekRotate xo, .kekRotationDone,
    .cipherRequestComplete 0 false {}, .cipherBusyTimeout ({ req := 0 }), .keyCacheFill ({ slot := 0 }),
    .partCreate xo 0 0 0 0 0 0 0 0 0 0, .partDestroy xo 0, .imageLoad xo 0 [], .partStart xo 0, .partStop xo 0, .debugAttach xo 0 0,
    .meterRead xo 0 0 0, .meterExportConfig xo {}, .telemConfig xo 0 0 0 0, .eventSubscribe xo 0 0 0 0 0, .fwStage xo 0 0 0 [],
    .fwActivate xo 0 0 0, .fwActivateDrainDone, .fwActivateDrainTimeout, .fwState xo, .trialConfirm, .trialTimerExpire, .keyRevoke xo 0,
    .attestQuote xo (List.replicate 32 0), .baskEnter xo, .baskDrainDone, .baskDrainTimeout 0, .faultLogRead xo 0, .faultClear xo 0,
    .regrowState xo, .regrowStart xo 0 0, .wearReport xo, .powerBudgetSet xo 0 0 0 0 0 ({ floorsSlow := 0, lend := none }),
    .powerState xo, .governorSet xo 0 0 0 0 0 0 0, .migDirtyStart xo 0 0 0, .migDirtyStop xo 0, .dirtyBitWrite 0 0, .migFreeze xo 0,
    .migFreezeDrainDone 0, .migFreezeTimeout 0, .migSave xo 0, .migRestore xo 0 [], .migThaw xo 0, .migKeySet xo 0, .chainState xo,
    .chainSend xo 0 0 [], .chainSendTimeout, .ckvCtxRead xo 0, .ckvCtxWrite xo 0 0, .vfExchNotify 0 0, .pfExchNotify 0 0,
    .exchPendClear 0 0 0, .rcvOwnerWrite 0, .nvmeCcEnable (.fid 4) 0, .nvmeCcDisable (.fid 4) 0, .nvmeCcShutdown (.fid 4) 0,
    .nvmeSqDoorbell 0 0 0, .nvmeCqDoorbell 0 0 0, .nvmeCommandFetch 0 0 0 [] [] [] false] : List Instr).all wellFormed = true := by decide +kernel

theorem wellFormed_accepts_4 : ([
    .nvmeCommandStart 0 0 ({ cid := 0, composed := true }), .nvmePostingPoint 0 0 ({ cid := 0, composed := true }), .nvmeDeleteIoSq 0 0,
    .nvmeCreateIoSq 0 0, .nvmeGetLogPage 0 0, .nvmeDeleteIoCq 0 0, .nvmeCreateIoCq 0 0, .nvmeIdentify 0 0, .nvmeAbort 0 0,
    .nvmeSetFeatures 0 0, .nvmeGetFeatures 0 0, .nvmeAsyncEventRequest 0 0, .nvmeAdminUnsupported 0 0, .nvmeFlush 0 0 0,
    .nvmeWrite 0 0 0 [] [], .nvmeRead 0 0 0, .nvmeCompare 0 0 0 [] [], .nvmeWriteZeroes 0 0 0, .nvmeDatasetManagement 0 0 0,
    .nvmeFusedCompareWrite 0 0 0 [] [] [] [], .nvmeIoUnsupported 0 0 0, .intentRecordTake 0 0 0, .backendResponse 0 false [],
    .backendPduReceive 0 {}, .backendTimeout 0, .backendConnectionLost 0, .backendReconnect 0 none, .reconcileChunkDone 0 0 [],
    .rebuildChunkDone 0 0 0 [], .chWr 0 0 0, .chCmt 0 0 1 0 false, .chCmtResume 0, .chRd 0 0 0, .chTry 0 0 0, .chWaitany 0 0 0 0,
    .channelWaitWake 0, .fork 0 0 0 0, .join 0 0 0, .threadExit 0 0, .trelease 0 0, .treset 0 0, .xtirzuIllegal 0 0 0 false,
    .threadControlCsr 0 0xDC0 false 0 0, .channelEntryWrite 0 0 0 0, .ecallCustomer 0 0 0, .threadFault 0 0 0 0 0, .cipherSubmit 0 0,
    .copyOut 0 0 0 0 0, .copyMeta 0 0 0, .free 0 0, .injectHandle 0 0 0 0, .injectBuffer 0 0 0 0 0, .contextHold 0 0, .contextRelease 0 0,
    .contextRead 0 0, .contextWrite 0 0 0, .skinkTimerFire 0, .skinkPeriodTick 0, .sentinelFire 0, .sentinelEscalate 0, .debugHalt 0,
    .debugResume 0, .debugSingleStep 0 none, .i3cPrivateWrite 0 [], .i3cPrivateRead, .enec false 0, .disec false 0, .rstdaa, .entdaa 0,
    .setmwl false 0] : List Instr).all wellFormed = true := by decide +kernel

theorem wellFormed_accepts_5 : ([
    .setmrl false 0, .rstact false 0, .setnewda 0, .getmwl, .getmrl, .getpid, .getbcr, .getdcr, .getstatus, .getmxds,
    .i3cUnsupportedCcc 0 false, .targetResetPattern, .hotJoinRequest, .keep 0, .keepSend, .enum 0, .close 0, .reset 0, .leapArm 0,
    .leapCancel 0, .lend 0, .fault 0, .data 0, .wake 0, .reservedFrameType 0, .chainBitTimeout, .chainInLinkLost, .chainOutLinkLost,
    .chainEnumRetry, .chainArmTimeout, .idcode, .samplePreload, .extest, .extestPulse, .extestTrain, .clamp, .highz, .dbgChallenge,
    .dbgToken (List.replicate 256 0), .dbgStatus, .dbgDmi 1 false 0 0, .bypass 0, .uartRxInput 0, .functionReady 0,
    .referenceClockStop false 0, .vddRetUp, .vddRetRemove, .hdrExitPattern, .chainInvalidCodeword, .nvmeCoalescingTimeExpire 0 0] : List Instr).all wellFormed = true := by decide +kernel

theorem wellFormed_refuses_1 : ([
    .sysRstNRelease false false 32, .tjThresholdCross 64 0, .invalidCodeword (.pipeline 0) (2 ^ 32), .clearSelftestDone (.aes 34) false,
    .probationEnd (.aes 34), .checkerSelftest (.aes 34) 0 false, .wearEvaluation 7 0 0 0 0 0 false,
    .wearEvaluation 0 0 (2 ^ 32) 0 0 0 false, .wearEvaluation 0 0 0 0 0 (2 ^ 16) false, .regrowthDone 7 false, .laneBerWindow 144 0 0,
    .linkTrainingDone 144 false 0, .linkTrainingDone 0 false 256, .reformTimeout 144, .linkLoss 144, .ethFrameReceive 144 [] 0 false,
    .pauseFrameReceive 144 false 0 [], .pauseFrameReceive 0 false 256 [], .pauseQuantaExpire 144 0, .pauseQuantaExpire 0 8,
    .pauseStormLimit 144 0, .pauseStormLimit 0 8, .pauseStormClear 144 0, .pauseStormClear 0 8,
    .microword ({ pipe := 0, puntOk := true }) 32 .clean, .microcodeOpComplete ({ pipe := 0, puntOk := true }) 0 6,
    .sprayReseqTimeout 256 0, .sprayReseqTimeout 0 65536, .sprayContextIdle 256 0, .sprayContextIdle 0 65536, .flowletGapExpire 16384 0 0,
    .flowletGapExpire 0 9 0, .flowletGapExpire 0 0 512, .lbImbalanceWindow 16384, .agingSlice 2 9 none, .learnServiceEvent 9,
    .rehashDone 2 9, .egressSchedule 176 [] false false, .deadlineHeadCheck 131072, .queueTelemetrySample 16 0 0,
    .queueTelemetrySample 0 (2 ^ 64) 0, .timedLeapTrigger 2001, .pcieConfigRequest (.unprov 0 3 1) .id 0 false 0,
    .pcieConfigRequest (.fid 65536) .id 0 false 0, .pcieConfigRequest (.fid 4) .id 256 false 0,
    .pcieConfigRequest (.fid 4) .id 0 false (2 ^ 32), .bmeClear 65536, .mseClear 65536, .flr 65536, .vfEnableSet 65536 0,
    .vfEnableSet 0 1025, .vfEnableClear 65536, .d3hotEnter 65536, .d0Return 65536, .d3coldEnter 32, .hpPerstNAssert 32 0,
    .hpPerstNDeassert 32, .hotReset 32, .dlUp 32 16 32 false, .l1Enter 32 false, .msixUnmask 65536 0, .msixUnmask 0 2048,
    .bar4WindowTlp 65536 0 4 false [] false, .bar4WindowTlp 0 (2 ^ 36) 4 false [] false, .bar4WindowTlp 0 0 0 false [] false,
    .bar4WindowTlp 0 0 4097 false [] false, .pcieReadCompletion 32 0 none, .pcieReadCompletion 0 16384 none, .completionTimeout 32 0,
    .completionTimeout 0 16384] : List Instr).any wellFormed = false := by decide +kernel

theorem wellFormed_refuses_2 : ([
    .ringEnable 65536 0 0, .ringEnable 0 16320 0, .ringEnable 0 0 (2 ^ 32), .ringDisable 65536 0 0, .ringDisable 0 16320 0,
    .ringDisable 0 0 (2 ^ 32), .ringReset 65536 0, .ringReset 0 16320, .ringDb 65536 0 false, .ringDb 0 16320 false,
    .indexWordReadDone 65536 .mailbox 0, .indexWordReadDone 0 .mailbox (2 ^ 32), .hostTxPacket 65536 0 [0] [] false,
    .hostTxPacket 0 16320 [0] [] false, .cplCi 65536 0 0, .cplCi 0 16320 0, .cplCi 0 0 (2 ^ 32), .cplModTimerExpire 65536 0,
    .cplModTimerExpire 0 16320, .fnCtlUnfence 65536, .registerWrite (.unprov 0 3 1) 0 0 0 0, .registerWrite (.fid 65536) 0 0 0 0,
    .registerWrite (.fid 4) 6 0 0 0, .registerWrite (.fid 4) 0 (2 ^ 36) 0 0, .registerWrite (.fid 4) 0 0 0 (2 ^ 64), .mbxEnable 65536 0,
    .mbxEnable 0 (2 ^ 32), .mbxDisable 65536 0, .mbxDisable 0 (2 ^ 32), .mbxDb 65536 0 0 false, .mbxDb 0 (2 ^ 64) 0 false,
    .devTimeSet xo 256 0, .devTimeSet xo 0 (2 ^ 64), .devReset xo 256 0, .devReset xo 0 256, .portState xo 65536, .portStats xo 65536 0,
    .portStats xo 0 256, .laneDiag xo 256 0 0 [], .laneDiag xo 0 256 0 [], .laneDiag xo 0 0 256 [], .octetMode xo 256 0 0,
    .octetMode xo 0 256 0, .allotSet xo 256 0 0 0 (List.replicate 14 0), .allotSet xo 0 65536 0 0 (List.replicate 14 0),
    .allotSet xo 0 0 65536 0 (List.replicate 14 0), .allotSet xo 0 0 0 65536 (List.replicate 14 0), .allotGet xo 256,
    .fnCreate xo 256 0 0 (List.replicate 11 0), .fnCreate xo 0 256 0 (List.replicate 11 0), .fnCreate xo 0 0 65536 (List.replicate 11 0),
    .fnDestroy xo 65536, .fnQuery xo 65536, .tenantBind xo 65536 0, .tenantBind xo 0 65536, .windowRetire xo 256 0,
    .windowRetire xo 0 256, .windowDrainDone 32 0, .windowDrainDone 0 256, .windowRetireTimeout 32 0, .windowRetireTimeout 0 256,
    .tblInsert xo 256 0 0 (.record 0), .tblInsert xo 0 65536 0 (.record 0), .tblInsert xo 0 0 (2 ^ 32) (.record 0),
    .tblDelete xo 256 0 0 (.record 0), .tblDelete xo 0 65536 0 (.record 0), .tblDelete xo 0 0 (2 ^ 32) (.record 0),
    .tblLookup xo 256 0 0 (.record 0), .tblLookup xo 0 256 0 (.record 0), .tblLookup xo 0 0 (2 ^ 32) (.record 0)] : List Instr).any wellFormed = false := by decide +kernel

theorem wellFormed_refuses_3 : ([
    .tblIter xo 256 0 0 0 0 0, .tblIter xo 0 256 0 0 0 0, .tblIter xo 0 0 256 0 0 0, .tblIter xo 0 0 0 256 0 0,
    .tblIter xo 0 0 0 0 (2 ^ 32) 0, .tblIter xo 0 0 0 0 0 (2 ^ 64), .tblFlush xo 256 0 0 0, .tblFlush xo 0 65536 0 0,
    .tblFlush xo 0 0 256 0, .tblFlush xo 0 0 0 (2 ^ 32), .tblRehash xo 256 0, .tblRehash xo 0 256, .learnConfig xo 65536 0 0 0 0,
    .learnConfig xo 0 256 0 0 0, .learnConfig xo 0 0 256 0 0, .learnConfig xo 0 0 0 256 0, .learnConfig xo 0 0 0 0 (2 ^ 32),
    .agingConfig xo 256 0 0 0 0, .agingConfig xo 0 65536 0 0 0, .agingConfig xo 0 0 (2 ^ 32) 0 0, .agingConfig xo 0 0 0 (2 ^ 32) 0,
    .agingConfig xo 0 0 0 0 (2 ^ 32), .lbGroupSet xo 65536 0 [], .lbGroupSet xo 0 (2 ^ 32) [], .lbMonitor xo 65536 0 0 0 0,
    .lbMonitor xo 0 256 0 0 0, .lbMonitor xo 0 0 256 0 0, .lbMonitor xo 0 0 0 65536 0, .lbMonitor xo 0 0 0 0 256,
    .parseDepthSet xo 65536 0, .portDefaultSet xo 65536 0, .ruleWrite xo 65536 0 0 0, .ruleWrite xo 0 256 0 0, .ruleWrite xo 0 0 65536 0,
    .ruleClear xo 65536 0 0, .ruleClear xo 0 256 0, .ruleClear xo 0 0 65536, .ruleRead xo 256 0 0 0, .ruleRead xo 0 256 0 0,
    .ruleRead xo 0 0 256 0, .ruleRead xo 0 0 0 65536, .ucodeKeyEnrol xo 256 0 (List.replicate 96 0),
    .ucodeKeyEnrol xo 0 256 (List.replicate 96 0), .ucodeInfo xo 256 0, .ucodeInfo xo 0 256, .ucodePatchState xo 256 0,
    .ucodePatchState xo 0 256, .padLeap xo 256 0 0, .padLeap xo 0 65536 0, .padLeap xo 0 0 (2 ^ 64), .poolConfig xo 256 0,
    .reserveSet xo 256 0 0 0 0 0, .reserveSet xo 0 256 0 0 0 0, .reserveSet xo 0 0 256 0 0 0, .reserveSet xo 0 0 0 (2 ^ 32) 0 0,
    .reserveSet xo 0 0 0 0 (2 ^ 32) 0, .reserveSet xo 0 0 0 0 0 (2 ^ 32), .policerSet xo (2 ^ 32) 0, .shaperSet xo 256 0 0 0 0 0 0,
    .shaperSet xo 0 256 0 0 0 0 0, .shaperSet xo 0 0 (2 ^ 32) 0 0 0 0, .shaperSet xo 0 0 0 (2 ^ 32) 0 0 0,
    .shaperSet xo 0 0 0 0 (2 ^ 32) 0 0, .shaperSet xo 0 0 0 0 0 (2 ^ 32) 0, .shaperSet xo 0 0 0 0 0 0 (2 ^ 32),
    .queueSampleConfig xo 256 0 0 0 0 0 [], .queueSampleConfig xo 0 256 0 0 0 0 [], .queueSampleConfig xo 0 0 65536 0 0 0 [],
    .queueSampleConfig xo 0 0 0 65536 0 0 [], .queueSampleConfig xo 0 0 0 0 (2 ^ 64) 0 []] : List Instr).any wellFormed = false := by decide +kernel

theorem wellFormed_refuses_4 : ([
    .queueSampleConfig xo 0 0 0 0 0 (2 ^ 64) [], .queueStats xo (2 ^ 32), .volCreate xo 65536 0 0 0 0 [], .volCreate xo 0 65536 0 0 0 [],
    .volCreate xo 0 0 (2 ^ 32) 0 0 [], .volCreate xo 0 0 0 (2 ^ 64) 0 [], .volCreate xo 0 0 0 0 256 [], .volDestroy xo 65536,
    .volAttach xo 65536 0 0 0 0 0, .volAttach xo 0 65536 0 0 0 0, .volAttach xo 0 0 65536 0 0 0, .volAttach xo 0 0 0 256 0 0,
    .volAttach xo 0 0 0 0 256 0, .volAttach xo 0 0 0 0 0 256, .volDetach xo 65536 0, .volDetach xo 0 65536, .backendState xo 65536,
    .volReconcileState xo 65536, .keyLoad xo (2 ^ 32) 0 0 0 0 [], .keyLoad xo 0 (2 ^ 32) 0 0 0 [], .keyLoad xo 0 0 256 0 0 [],
    .keyLoad xo 0 0 0 256 0 [], .keyLoad xo 0 0 0 0 65536 [], .keyErase xo (2 ^ 32), .keyEraseComplete 262144, .saState xo (2 ^ 32),
    .partCreate xo 256 0 0 0 0 0 0 0 0 0, .partCreate xo 0 256 0 0 0 0 0 0 0 0, .partCreate xo 0 0 256 0 0 0 0 0 0 0,
    .partCreate xo 0 0 0 256 0 0 0 0 0 0, .partCreate xo 0 0 0 0 65536 0 0 0 0 0, .partCreate xo 0 0 0 0 0 65536 0 0 0 0,
    .partCreate xo 0 0 0 0 0 0 65536 0 0 0, .partCreate xo 0 0 0 0 0 0 0 65536 0 0, .partCreate xo 0 0 0 0 0 0 0 0 65536 0,
    .partCreate xo 0 0 0 0 0 0 0 0 0 (2 ^ 32), .partDestroy xo 256, .imageLoad xo 256 [], .partStart xo 256, .partStop xo 256,
    .debugAttach xo 256 0, .debugAttach xo 0 256, .meterRead xo 256 0 0, .meterRead xo 0 65536 0, .meterRead xo 0 0 (2 ^ 32),
    .telemConfig xo 65536 0 0 0, .telemConfig xo 0 256 0 0, .telemConfig xo 0 0 (2 ^ 64) 0, .telemConfig xo 0 0 0 (2 ^ 64),
    .eventSubscribe xo (2 ^ 32) 0 0 0 0, .eventSubscribe xo 0 256 0 0 0, .eventSubscribe xo 0 0 65536 0 0,
    .eventSubscribe xo 0 0 0 (2 ^ 64) 0, .eventSubscribe xo 0 0 0 0 (2 ^ 64), .fwStage xo 256 0 0 [], .fwStage xo 0 (2 ^ 32) 0 [],
    .fwStage xo 0 0 (2 ^ 32) [], .fwActivate xo 256 0 0, .fwActivate xo 0 256 0, .fwActivate xo 0 0 256, .keyRevoke xo 256,
    .faultLogRead xo (2 ^ 64), .faultClear xo (2 ^ 64), .regrowStart xo 256 0, .regrowStart xo 0 65536,
    .powerBudgetSet xo (2 ^ 32) 0 0 0 0 ({ floorsSlow := 0, lend := none }),
    .powerBudgetSet xo 0 (2 ^ 32) 0 0 0 ({ floorsSlow := 0, lend := none }),
    .powerBudgetSet xo 0 0 (2 ^ 32) 0 0 ({ floorsSlow := 0, lend := none }),
    .powerBudgetSet xo 0 0 0 (2 ^ 32) 0 ({ floorsSlow := 0, lend := none }),
    .powerBudgetSet xo 0 0 0 0 (2 ^ 32) ({ floorsSlow := 0, lend := none })] : List Instr).any wellFormed = false := by decide +kernel

theorem wellFormed_refuses_5 : ([
    .governorSet xo 256 0 0 0 0 0 0, .governorSet xo 0 256 0 0 0 0 0, .governorSet xo 0 0 256 0 0 0 0, .governorSet xo 0 0 0 65536 0 0 0,
    .governorSet xo 0 0 0 0 65536 0 0, .governorSet xo 0 0 0 0 0 65536 0, .governorSet xo 0 0 0 0 0 0 65536, .migDirtyStart xo 65536 0 0,
    .migDirtyStart xo 0 (2 ^ 32) 0, .migDirtyStart xo 0 0 (2 ^ 64), .migDirtyStop xo 65536, .dirtyBitWrite 65536 0, .migFreeze xo 65536,
    .migFreezeDrainDone 65536, .migFreezeTimeout 65536, .migSave xo 65536, .migRestore xo 65536 [], .migThaw xo 65536,
    .migKeySet xo (2 ^ 32), .chainSend xo 256 0 [], .chainSend xo 0 65536 [], .ckvCtxRead xo (2 ^ 32), .ckvCtxWrite xo (2 ^ 32) 0,
    .vfExchNotify 65536 0, .vfExchNotify 0 (2 ^ 32), .pfExchNotify 65536 0, .pfExchNotify 0 (2 ^ 32), .exchPendClear 65536 0 0,
    .exchPendClear 0 64 0, .exchPendClear 0 0 (2 ^ 32), .rcvOwnerWrite (2 ^ 32), .nvmeCcEnable (.unprov 0 3 1) 0,
    .nvmeCcEnable (.fid 65536) 0, .nvmeCcEnable (.fid 4) (2 ^ 32), .nvmeCcDisable (.unprov 0 3 1) 0, .nvmeCcDisable (.fid 65536) 0,
    .nvmeCcDisable (.fid 4) (2 ^ 32), .nvmeCcShutdown (.unprov 0 3 1) 0, .nvmeCcShutdown (.fid 65536) 0,
    .nvmeCcShutdown (.fid 4) (2 ^ 32), .nvmeSqDoorbell 65536 0 0, .nvmeSqDoorbell 0 65536 0, .nvmeSqDoorbell 0 0 (2 ^ 32),
    .nvmeCqDoorbell 65536 0 0, .nvmeCqDoorbell 0 65536 0, .nvmeCqDoorbell 0 0 (2 ^ 32), .nvmeCommandFetch 65536 0 0 [] [] [] false,
    .nvmeCommandFetch 0 65536 0 [] [] [] false, .nvmeCommandStart 65536 0 ({ cid := 0, composed := true }),
    .nvmeCommandStart 0 65536 ({ cid := 0, composed := true }), .nvmePostingPoint 65536 0 ({ cid := 0, composed := true }),
    .nvmePostingPoint 0 65536 ({ cid := 0, composed := true }), .nvmeDeleteIoSq 65536 0, .nvmeDeleteIoSq 0 65536, .nvmeCreateIoSq 65536 0,
    .nvmeCreateIoSq 0 65536, .nvmeGetLogPage 65536 0, .nvmeGetLogPage 0 65536, .nvmeDeleteIoCq 65536 0, .nvmeDeleteIoCq 0 65536,
    .nvmeCreateIoCq 65536 0, .nvmeCreateIoCq 0 65536, .nvmeIdentify 65536 0, .nvmeIdentify 0 65536, .nvmeAbort 65536 0,
    .nvmeAbort 0 65536, .nvmeSetFeatures 65536 0, .nvmeSetFeatures 0 65536, .nvmeGetFeatures 65536 0, .nvmeGetFeatures 0 65536] : List Instr).any wellFormed = false := by decide +kernel

theorem wellFormed_refuses_6 : ([
    .nvmeAsyncEventRequest 65536 0, .nvmeAsyncEventRequest 0 65536, .nvmeAdminUnsupported 65536 0, .nvmeAdminUnsupported 0 65536,
    .nvmeFlush 65536 0 0, .nvmeFlush 0 65536 0, .nvmeFlush 0 0 65536, .nvmeWrite 65536 0 0 [] [], .nvmeWrite 0 65536 0 [] [],
    .nvmeWrite 0 0 65536 [] [], .nvmeRead 65536 0 0, .nvmeRead 0 65536 0, .nvmeRead 0 0 65536, .nvmeCompare 65536 0 0 [] [],
    .nvmeCompare 0 65536 0 [] [], .nvmeCompare 0 0 65536 [] [], .nvmeWriteZeroes 65536 0 0, .nvmeWriteZeroes 0 65536 0,
    .nvmeWriteZeroes 0 0 65536, .nvmeDatasetManagement 65536 0 0, .nvmeDatasetManagement 0 65536 0, .nvmeDatasetManagement 0 0 65536,
    .nvmeFusedCompareWrite 65536 0 0 [] [] [] [], .nvmeFusedCompareWrite 0 65536 0 [] [] [] [],
    .nvmeFusedCompareWrite 0 0 65536 [] [] [] [], .nvmeIoUnsupported 65536 0 0, .nvmeIoUnsupported 0 65536 0,
    .nvmeIoUnsupported 0 0 65536, .intentRecordTake 65536 0 0, .intentRecordTake 0 65536 0, .intentRecordTake 0 0 65536,
    .backendPduReceive 256 {}, .backendTimeout 256, .backendConnectionLost 256, .backendReconnect 256 none, .reconcileChunkDone 4096 0 [],
    .reconcileChunkDone 0 8 [], .rebuildChunkDone 4096 0 0 [], .rebuildChunkDone 0 0 8 [], .chWr 1024 0 0, .chWr 0 8 0,
    .chWr 0 0 (2 ^ 64), .chCmt 1024 0 1 0 false, .chCmt 0 65536 1 0 false, .chCmt 0 0 0 0 false, .chCmt 0 0 9 0 false,
    .chCmt 0 0 1 32 false, .chCmtResume 1024, .chRd 1024 0 0, .chRd 0 65536 0, .chRd 0 0 32, .chTry 1024 0 0, .chTry 0 65536 0,
    .chTry 0 0 32, .chWaitany 1024 0 0 0, .chWaitany 0 65536 0 0, .chWaitany 0 0 (2 ^ 64) 0, .chWaitany 0 0 0 32, .channelWaitWake 1024,
    .fork 1024 0 0 0, .fork 0 (2 ^ 64) 0 0, .fork 0 0 (2 ^ 64) 0, .fork 0 0 0 32, .join 1024 0 0, .join 0 (2 ^ 64) 0, .join 0 0 32,
    .threadExit 1024 0, .threadExit 0 (2 ^ 64), .trelease 1024 0, .trelease 0 (2 ^ 64)] : List Instr).any wellFormed = false := by decide +kernel

theorem wellFormed_refuses_7 : ([
    .treset 1024 0, .treset 0 (2 ^ 64), .xtirzuIllegal 1024 0 0 false, .xtirzuIllegal 0 (2 ^ 64) 0 false,
    .xtirzuIllegal 0 0 (2 ^ 32) false, .threadControlCsr 1024 0xDC0 false 0 0, .threadControlCsr 0 0xDC0 false (2 ^ 64) 0,
    .threadControlCsr 0 0xDC0 false 0 32, .channelEntryWrite 1024 0 0 0, .channelEntryWrite 0 65536 0 0, .channelEntryWrite 0 0 2 0,
    .channelEntryWrite 0 0 0 (2 ^ 64), .ecallCustomer 1024 0 0, .ecallCustomer 0 (2 ^ 64) 0, .ecallCustomer 0 0 (2 ^ 64),
    .threadFault 1024 0 0 0 0, .threadFault 0 256 0 0 0, .threadFault 0 0 (2 ^ 64) 0 0, .threadFault 0 0 0 (2 ^ 64) 0,
    .threadFault 0 0 0 0 (2 ^ 64), .cipherSubmit 1024 0, .copyOut 1024 0 0 0 0, .copyOut 0 (2 ^ 32) 0 0 0, .copyOut 0 0 (2 ^ 64) 0 0,
    .copyOut 0 0 0 16384 0, .copyOut 0 0 0 0 16384, .copyMeta 1024 0 0, .copyMeta 0 (2 ^ 32) 0, .copyMeta 0 0 (2 ^ 64), .free 1024 0,
    .free 0 (2 ^ 32), .injectHandle 1024 0 0 0, .injectHandle 0 (2 ^ 32) 0 0, .injectHandle 0 0 16 0, .injectHandle 0 0 0 256,
    .injectBuffer 1024 0 0 0 0, .injectBuffer 0 (2 ^ 64) 0 0 0, .injectBuffer 0 0 16384 0 0, .injectBuffer 0 0 0 16 0,
    .injectBuffer 0 0 0 0 256, .contextHold 1024 0, .contextHold 0 (2 ^ 32), .contextRelease 1024 0, .contextRelease 0 (2 ^ 32),
    .contextRead 1024 0, .contextRead 0 (2 ^ 32), .contextWrite 1024 0 0, .contextWrite 0 (2 ^ 32) 0, .skinkTimerFire 65536,
    .skinkPeriodTick 65536, .sentinelFire 256, .sentinelEscalate 256, .debugHalt 1024, .debugResume 1024, .debugSingleStep 1024 none,
    .enec false 256, .disec false 256, .entdaa 128, .setmwl false 65536, .setmrl false 65536, .rstact false 256, .setnewda 128,
    .i3cUnsupportedCcc 256 false, .dbgDmi 0 false 0 0, .dbgDmi 4 false 0 0, .dbgDmi 1 false (2 ^ 32) 0, .dbgDmi 1 false 0 (2 ^ 32),
    .bypass 256, .functionReady 32, .nvmeCoalescingTimeExpire 65536 0] : List Instr).any wellFormed = false := by decide +kernel

theorem wellFormed_refuses_8 : ([
    .nvmeCoalescingTimeExpire 0 65536, .sensorWindow false 10 0, .sensorWindow true 16 0,
    .pauseFrameReceive 0 false 0 (List.replicate 9 0), .pauseFrameReceive 0 false 0 [65536], .agingSlice 4 0 none, .rehashDone 1 0,
    .dlUp 0 3 32 false, .dlUp 0 16 1 false, .bar4WindowTlp 0 0 4 true [0] false, .hostTxPacket 0 0 [] [] true,
    .hostTxPacket 0 0 (List.replicate 17 0) [] true, .portConfig xo { fec := 256 }, .portConfig xo { mtu := 65536 },
    .allotSet xo 0 0 0 0 [], .allotSet xo 0 0 0 0 (List.replicate 14 (2 ^ 32)), .fnCreate xo 0 0 0 (List.replicate 12 0),
    .fnCreate xo 0 0 0 (List.replicate 11 (2 ^ 32)), .windowSet xo { index := 256 }, .windowSet xo { barOff := 2 ^ 64 },
    .tblInsert xo 4 0 0 (.record 0), .tblDelete xo 2 0 0 (.route 0 0 0 0), .tblLookup xo 0 0 0 (.record (2 ^ 64)),
    .lbGroupSet xo 0 0 [2 ^ 32], .ucodeLoad xo { cntBase := 65536 }, .ucodeLoad xo { polBase := 2 ^ 32 },
    .ucodeKeyEnrol xo 0 0 (List.replicate 95 0), .queueMap xo (.other 2), .queueMap xo (.node 256 0 0 0 0 0 0 0),
    .queueMap xo (.base 256 0 0), .queueMap xo (.session 0 65536 0 0), .queueSampleConfig xo 0 0 0 1 0 0 [],
    .queueSampleConfig xo 0 0 0 1 0 0 [2 ^ 32], .volCreate xo 0 0 0 0 0 (List.replicate 256 (0, 0)), .volCreate xo 0 0 0 0 0 [(65536, 0)],
    .backendAdd xo {} {}, .backendAdd xo { nqn := List.replicate 224 0, port := 65536 } {}, .saCreate xo { kind := 256 },
    .saCreate xo { window := 65536 }, .saCreate xo { pn := 2 ^ 64 }, .meterExportConfig xo { dscp := 256 },
    .meterExportConfig xo { mtu := 65536 }, .meterExportConfig xo { collector := 2 ^ 128 }, .attestQuote xo [],
    .nvmeCommandFetch 0 0 0 [] [] (List.replicate 257 (0, 0)) true, .nvmeCommandFetch 0 0 0 [] [] [(0, 2 ^ 32)] true,
    .threadControlCsr 0 0x5BF false 0 0, .threadControlCsr 0 0x5C7 false 0 0, .i3cPrivateWrite 0 (List.replicate 1025 0), .dbgToken [],
    .referenceClockStop true 8, .referenceClockStop false 4, .arbiterEpoch [{ consumer := .pipeline 10, elastic := 0, used := 0 }] [] 0 0,
    .arbiterEpoch [] [{ consumer := .lane 144, elastic := 0, used := 0 }] 0 0,
    .arbiterEpoch [{ consumer := .training, elastic := 0, used := 0 }] [] 0 0,
    .arbiterEpoch [] [{ consumer := .regrow, elastic := 0, used := 0 }] 0 0,
    .stallWatchdogFire (.pipeline 0) { stage := 2 ^ 32, us := 0, on := .inside },
    .nvmePostingPoint 0 0 { cid := 65536, composed := true }, .pipelineHeaderAccept { pipe := 9, puntOk := true },
    .microword { pipe := 9, puntOk := true } 0 .clean, .microcodeOpComplete { pipe := 9, puntOk := true } 0 0,
    .stallWatchdogFire (.aes 34) { stage := 0, us := 0, on := .inside },
    .stallWatchdogFire (.segment 65536) { stage := 0, us := 0, on := .inside }, .invalidCodeword (.hostDma 32) 0,
    .pcieConfigRequest (.fid 4) (.bar 6) 0 false 0, .pcieConfigRequest (.fid 4) (.cap (.physical 5)) 0 false 0,
    .indexWordReadDone 4 (.ring 16320) 0,
    .powerBudgetSet xo 0 0 0 0 0 { floorsSlow := 0, lend := some { dest := 16, credits := 0, giveBack := false } },
    .keyCacheFill { slot := 262144 }, .backendPduReceive 0 { port := 144 }] : List Instr).any wellFormed = false := by decide +kernel

theorem wellFormed_refuses_9 : ([
    .backendPduReceive 0 { seq := 2 ^ 32 }, .backendReconnect 0 (some { port := 144 }),
    .backendAdd xo { nqn := List.replicate 224 0 } { link := some { port := 144 } }] : List Instr).any wellFormed = false := by decide +kernel

/-! ### What meets the hypotheses of the statements -/

theorem witness_TimeMoves :
  (∃ (core sds : List EpochReq) (cn sn : Nat) (s : State), s.phase ≠ .inReset ∧ wfArbiterEpoch core sds cn sn = true) ∧
  (∃ (d : Int) (s : State), s.phase ≠ .inReset ∧ wfPtpStep d = true) ∧
  (∃ (s : State), s.phase ≠ .inReset ∧ pinsIn s = true) ∧
  (∃ (x : XCall) (r : _) (s : State), Served x 0x0103 r s ∧ wfDevTimeGet x = true) ∧
  (∃ (x : XCall) (r : _) (s : State) (v : Nat), Served x 0x0104 r s ∧ wfDevTimeSet x 0 v = true) ∧
  (∃ (x : XCall) (r : _) (s : State) (v : Nat), Served x 0x0104 r s ∧ wfDevTimeSet x 1 v = true) :=
  ⟨⟨[], [], 0, 0, up, by decide +kernel⟩,
   ⟨0, up, by decide +kernel⟩,
   ⟨up, by decide +kernel⟩,
   ⟨xo, rq 0x0103 0 0, ask 0x0103 0 0 up, served (by decide +kernel), by decide +kernel⟩,
   ⟨xo, rq 0x0104 0 0, ask 0x0104 0 0 up, 0, served (by decide +kernel), by decide +kernel⟩,
   ⟨xo, rq 0x0104 0 0, ask 0x0104 0 0 up, 0, served (by decide +kernel), by decide +kernel⟩⟩

theorem witness_GovernorLoop :
  (∃ (u v : _) (s : State), s.phase ≠ .inReset ∧ wfSensorWindow false u v = true) ∧
  (∃ (u v : _) (s : State), s.phase ≠ .inReset ∧ wfSensorWindow true u v = true) ∧
  (∃ (s : State), s.phase = .running ∧ s.eft.headless = false ∧ s.pow.avsPending = none ∧ (s.pow.avsFault = true → s.pow.avsRetry = true) ∧
      wfGovernorPeriod false = true ∧ s.pow.vmin ≤ s.pow.vmax) ∧
  (∃ (late : _) (s : State), s.phase = .running ∧
      (late = true ∨ s.eft.headless = true ∨ s.pow.avsPending.isSome = true ∨ (s.pow.avsFault = true ∧ s.pow.avsRetry = false)) ∧
      wfGovernorPeriod late = true) ∧
  (∃ (s : State), s.eft.headless = true) ∧
  (∃ (v : _) (s : State), s.eft.headless = false ∧ s.pow.avsPending = some v) ∧
  (∃ (v : _) (s : State), s.eft.headless = false ∧ s.pow.avsPending = some v ∧ s.pow.avsFails < 2) ∧
  (∃ (v : _) (s : State), s.eft.headless = false ∧ s.pow.avsPending = some v ∧ 2 ≤ s.pow.avsFails) :=
  ⟨⟨0, 0, up, by decide +kernel⟩,
   ⟨0, 0, up, by decide +kernel⟩,
   ⟨up, by decide +kernel⟩,
   ⟨0, { up with pow := { vdd := 7500, avsPending := some 7450 } }, by decide +kernel⟩,
   ⟨{ up with eft := { headless := true } }, by decide +kernel⟩,
   ⟨7450, { up with pow := { avsPending := some 7450 } }, by decide +kernel⟩,
   ⟨7450, { up with pow := { avsPending := some 7450, avsFails := 1 } }, by decide +kernel⟩,
   ⟨7450, { up with pow := { avsPending := some 7450, avsFails := 2 } }, by decide +kernel⟩⟩

theorem witness_BudgetsAndHold :
  (∃ (rail now : _) (s : State), s.phase ≠ .inReset ∧ (if rail then s.pow.sdsHold else s.pow.coreHold) = false ∧
      (if rail then s.pow.sdsHard else s.pow.coreHard) < now ∧ wfHardLimitCross rail now = true) ∧
  (∃ (x : XCall) (r : _) (s : State) (core coreHard sds sdsHard pw : Nat) (floors : _), Served x 0x0F01 r s ∧
      wfPowerBudgetSet x core coreHard sds sdsHard pw ⟨floors, none⟩ = true ∧ core ≤ coreHard ∧ coreHard ≤ 5400 ∧ sds ≤ sdsHard ∧
      sdsHard ≤ 960 ∧ 500 ≤ pw ∧ pw ≤ 1100 ∧
    let p := { (begun x s).pow with core, coreHard, sds, sdsHard, packageW := pw }
    floors ≤ effectiveCore p 6800) ∧
  (∃ (x : XCall) (r : _) (s : State) (core coreHard sds sdsHard pw : Nat) (floors : _) (l : LendReq), Served x 0x0F01 r s ∧
      wfPowerBudgetSet x core coreHard sds sdsHard pw ⟨floors, some l⟩ = true ∧ core ≤ coreHard ∧ coreHard ≤ 5400 ∧ sds ≤ sdsHard ∧
      sdsHard ≤ 960 ∧ 500 ≤ pw ∧ pw ≤ 1100 ∧
    let p := { (begun x s).pow with core, coreHard, sds, sdsHard, packageW := pw }
    let q : State := { begun x s with pow := p }
    floors ≤ effectiveCore p 6800 ∧ q.chain.state = 2 ∧ l.dest < q.chain.units ∧ l.dest ≠ q.chain.addr ∧ l.giveBack = false ∧
      l.credits ≤ core + creditSum p.borrowed - creditSum p.lent - floorSum q p.vdd false) ∧
  (∃ (x : XCall) (r : _) (s : State), Served x 0x0F02 r s ∧ wfPowerState x = true) ∧
  (∃ (x : XCall) (r : _) (s : State) (m up dn vmin vmax per hold : Nat), Served x 0x0F03 r s ∧
      wfGovernorSet x m up dn vmin vmax per hold = true ∧ 2 ≤ m ∧ m ≤ 30 ∧ (up = 5 ∨ up = 10) ∧ (dn = 5 ∨ dn = 10) ∧ 600 ≤ vmin ∧
      vmin ≤ 680 ∧ 680 ≤ vmax ∧ vmax ≤ 850 ∧ 20 ≤ per ∧ per ≤ 500 ∧ 1 ≤ hold ∧ hold ≤ 1000) :=
  ⟨⟨false, 5401, up, by decide +kernel⟩,
   ⟨xo, rq 0x0F01 0 0, ask 0x0F01 0 0 up, 5400, 5400, 960, 960, 1100, 0, served (by decide +kernel), by decide +kernel⟩,
   ⟨xo, rq 0x0F01 (0) (0), ask 0x0F01 (0) (0) (chainUp), 5400, 5400, 960, 960, 1100, 0, { dest := 1, credits := 0, giveBack := false },
      served (by decide +kernel), by decide +kernel⟩,
   ⟨xo, rq 0x0F02 0 0, ask 0x0F02 0 0 up, served (by decide +kernel), by decide +kernel⟩,
   ⟨xo, rq 0x0F03 0 0, ask 0x0F03 0 0 up, 30, 5, 10, 680, 680, 500, 1000, served (by decide +kernel), by decide +kernel⟩⟩

theorem witness_DomainMachine :
  (∃ (d : HsDom) (stage us waits : _) (s : State), s.phase ≠ .inReset ∧ s.phase ≠ .basking ∧ wfStallWatchdogFire d ⟨stage, us, waits⟩ = true ∧
      watchdogUs s d < us ∧ excused s waits = false) ∧
  (∃ (d : HsDom) (stage us waits : _) (s : State), wfStallWatchdogFire d ⟨stage, us, waits⟩ = true ∧
      (us ≤ watchdogUs s d ∨ excused s waits = true)) ∧
  (∃ (d : HsDom) (stage : Nat) (s : State), s.phase ≠ .inReset ∧ s.phase ≠ .basking ∧ wfInvalidCodeword d stage = true) ∧
  (∃ (d : _) (s : State), (∀ n, d ≠ .device n) ∧ d ≠ .eft ∧ regrowPart s d = none ∧ (domOf s d).state = .running) ∧
  (∃ (d : Dom) (checker : Nat) (s : State), s.phase ≠ .inReset ∧ s.phase ≠ .basking ∧ wfCheckerSelftest d checker false = true) ∧
  (∃ (d : Dom) (checker : Nat), wfCheckerSelftest d checker true = true) ∧
  (∃ (d : Dom) (s : State), s.phase ≠ .inReset ∧ s.phase ≠ .basking ∧ (domOf s d).state = .clear ∧ wfClearSelftestDone d true = true) ∧
  (∃ (d : Dom) (s : State), s.phase ≠ .inReset ∧ s.phase ≠ .basking ∧ (domOf s d).state = .clear ∧ wfClearSelftestDone d false = true) ∧
  (∃ (d : Dom) (s : State), (domOf s d).state = .probation ∧ wfProbationEnd d = true) :=
  ⟨⟨.pipeline 0, 0, 101, .inside, up, by decide +kernel⟩,
   ⟨.pipeline 0, 0, 100, .inside, up, by decide +kernel⟩,
   ⟨.pipeline 0, 0, up, by decide +kernel⟩,
   ⟨.pipeline 0, up, (by intro n h; cases h), by decide +kernel⟩,
   ⟨.pipeline 0, 0, up, by decide +kernel⟩,
   ⟨.pipeline 0, 0, by decide +kernel⟩,
   ⟨.pipeline 0, up.setDom (.pipeline 0) { state := .clear }, by decide +kernel⟩,
   ⟨.pipeline 0, up.setDom (.pipeline 0) { state := .clear }, by decide +kernel⟩,
   ⟨.pipeline 0, up.setDom (.pipeline 0) { state := .probation }, by decide +kernel⟩⟩

theorem witness_EftFaultsAndLog :
  (∃ (stage : Nat) (s : State), s.phase = .running ∧ s.eft.faultAt = none ∧ wfEftLockstepMismatch stage = true) ∧
  (∃ (stage : Nat) (s : State) (at_ : _), s.phase = .running ∧ s.eft.faultAt = some at_ ∧ s.tick < at_ + 10000000 ∧
      wfEftLockstepMismatch stage = true) ∧
  (∃ (s : State), s.eft.headless = true ∧ s.phase ≠ .safe) ∧
  (∃ (x : XCall) (r : _) (s : State) (n : Nat), Served x 0x0E01 r s ∧ wfFaultLogRead x n = true) ∧
  (∃ (x : XCall) (r : _) (s : State) (n : Nat), Served x 0x0E02 r s ∧ wfFaultClear x n = true) :=
  ⟨⟨0, up, by decide +kernel⟩,
   ⟨0, { up with tick := 10000000, eft := { faultAt := some 1 } }, 1, by decide +kernel⟩,
   ⟨{ up with eft := { headless := true } }, by decide +kernel⟩,
   ⟨xo, rq 0x0E01 0 0, ask 0x0E01 0 0 up, 0, served (by decide +kernel), by decide +kernel⟩,
   ⟨xo, rq 0x0E02 0 0, ask 0x0E02 0 0 up, 0, served (by decide +kernel), by decide +kernel⟩⟩

theorem witness_RegrowthAndWear :
  (∃ (x : XCall) (r : _) (s : State) (kind unit : Nat) (sp : _), Served x 0x0E04 r s ∧ wfRegrowStart x kind unit = true ∧ kind ≤ 6 ∧
      unit < (if kind ≤ 3 then workingOf kind else physicalOf kind) ∧
    let u := begun x s
    let p := regrowTarget u kind unit
    ((unitOf u kind p).state = 0 ∨ (unitOf u kind p).state = 2) ∧ mget? u.wear.active kind = none ∧ spareFor u kind p = some sp) ∧
  (∃ (x : XCall) (r : _) (s : State), Served x 0x0E03 r s ∧ wfRegrowState x = true) ∧
  (∃ (kind : Nat) (ok : Bool) (s : State), s.phase ≠ .inReset ∧ s.phase ≠ .basking ∧ wfRegrowthDone kind ok = true ∧ ok = true ∧
      copyRuns s kind = true) ∧
  (∃ (kind : Nat) (s : State), s.phase ≠ .inReset ∧ s.phase ≠ .basking ∧ wfRegrowthDone kind false = true) ∧
  (∃ (kind : Nat) (s : State), copyRuns s kind = false ∧ wfRegrowthDone kind true = true) ∧
  (∃ (kind unit corr word row stall : Nat) (held24 : _) (s : State), s.phase = .running ∧ unit < physicalOf kind ∧
      (unitOf s kind unit).state ≠ 0 ∧ wfWearEvaluation kind unit corr word row stall held24 = true) ∧
  (∃ (kind unit corr word row stall : Nat) (held24 : _) (s : State), s.phase = .running ∧ unit < physicalOf kind ∧
      (unitOf s kind unit).state = 0 ∧ wfWearEvaluation kind unit corr word row stall held24 = true ∧
      isWorn kind (declineOf s kind unit) corr word row stall held24 = true) ∧
  (∃ (s : State), s.phase ≠ .inReset ∧ s.phase ≠ .basking ∧ wfAgeHour 95 = true) ∧
  (∃ (x : XCall) (r : _) (s : State), Served x 0x0E05 r s ∧ wfWearReport x = true) ∧
  (∃ (d : _) (s : State) (kind phys : _), regrowPart s d = some .spare ∧ kindOfDom d = some (kind, phys)) ∧
  (∃ (d : _) (s : State), regrowPart s d = some .original) :=
  ⟨⟨xo, rq 0x0E04 0 0, ask 0x0E04 0 0 up, 0, 0, 9, served (by decide +kernel), by decide +kernel⟩,
   ⟨xo, rq 0x0E03 0 0, ask 0x0E03 0 0 up, served (by decide +kernel), by decide +kernel⟩,
   ⟨0, true, up, by decide +kernel⟩,
   ⟨0, up, by decide +kernel⟩,
   ⟨0, { up with pow := {} }, by decide +kernel⟩,
   ⟨0, 9, 0, 0, 0, 0, false, up, by decide +kernel⟩,
   ⟨0, 0, 1000, 0, 0, 0, false, up, by decide +kernel⟩,
   ⟨up, by decide +kernel⟩,
   ⟨xo, rq 0x0E05 0 0, ask 0x0E05 0 0 up, served (by decide +kernel), by decide +kernel⟩,
   ⟨.pipeline 9, { up with wear := { active := [(0, 0 * 65536 + 9)] } }, 0, 9, by decide +kernel⟩,
   ⟨.pipeline 0, { up with wear := { active := [(0, 0 * 65536 + 9)] } }, by decide +kernel⟩⟩

theorem witness_Scrubbing :
  (∃ (m u : _) (s : State), scrubbing s m u = true) ∧
  (∃ (m u : _) (s : State), scrubbing s m u = true) ∧
  (∃ (m u : _) (s : State), scrubbing s m u = true) ∧
  (∃ (u : _) (s : State), scrubbing s .bootBlock u = true ∧ s.phase ≠ .safe) ∧
  (∃ (m u : _) (s : State), scrubbing s m u = false) ∧
  (∃ (u k : _) (s : State), scrubbing s .ruleSram u = true ∧ k < 2 ^ 20) :=
  ⟨⟨.packetBuffer, 0, up, by decide +kernel⟩,
   ⟨.packetBuffer, 0, up, by decide +kernel⟩,
   ⟨.packetBuffer, 0, up, by decide +kernel⟩,
   ⟨0, up, by decide +kernel⟩,
   ⟨.packetBuffer, 0, { up with phase := .inReset }, by decide +kernel⟩,
   ⟨0, 0, up, by decide +kernel⟩⟩

theorem witness_EthernetPorts :
  (∃ (lane b10 b600 : Nat) (n : _) (s : State), wfLaneBerWindow lane b10 b600 = true ∧ portOfLane s lane = some n ∧ portUp s n = true ∧
      (laneOf s lane).failed = false ∧ b600 ≤ 1000000 ∧ b10 ≤ 100000000) ∧
  (∃ (port : Nat) (s : State), wfLinkTrainingDone port true 0 = true ∧ (mget? s.ports port).isSome = true ∧ (ethPort s port).state = 1 ∧
      s.phase = .running ∧ pinsIn s = true ∧ ((ethPort s port).an = false ∨ elasticOn s .training = true)) ∧
  (∃ (port : Nat) (s : State), wfReformTimeout port = true ∧ (mget? s.ports port).isSome = true ∧ (ethPort s port).state = 3) ∧
  (∃ (port : Nat) (s : State), wfLinkLoss port = true ∧ portUp s port = true) ∧
  (∃ (port : Nat) (q : _) (s : State), wfPauseFrameReceive port false 0 [q] = true ∧ portUp s port = true ∧ (ethPort s port).fc = 1 ∧ q ≠ 0) ∧
  (∃ (port prio : Nat), wfPauseQuantaExpire port prio = true) ∧
  (∃ (port prio : Nat) (s : State), wfPauseStormLimit port prio = true ∧ portUp s port = true ∧
      (mget? (ethPort s port).paused prio).isSome = true ∧ bit (ethPort s port).storm prio = false) ∧
  (∃ (port prio : Nat), wfPauseStormClear port prio = true) ∧
  (∃ (f : List Byte) (fcs : BitVec 32) (s : State), wfMgmt0FrameReceive f fcs = true ∧ s.phase = .running ∧ pinsIn s = true) ∧
  (∃ (x : XCall) (r : _) (s : State) (p : PortCfg), Served x 0x0201 r s ∧ wfPortConfig x p = true ∧ portCfgFault (begun x s) p = none ∧
      p.admin ≤ 1 ∧ p.floors ≤ effectiveCore (begun x s).pow 6800 ∧ mget? (begun x s).ports p.port = none) ∧
  (∃ (x : XCall) (r : _) (s : State) (p : PortCfg) (o : _), Served x 0x0201 r s ∧ wfPortConfig x p = true ∧
      portCfgFault (begun x s) p = none ∧ p.admin = 2 ∧ mget? (begun x s).ports p.port = some o) ∧
  (∃ (x : XCall) (r : _) (s : State) (port : Nat) (p : _), Served x 0x0202 r s ∧ wfPortState x port = true ∧ port < 144 ∧
      (callBy x r s).role ≠ 2 ∧ mget? (begun x s).ports port = some p) ∧
  (∃ (x : XCall) (r : _) (s : State) (lane : Nat) (ms : List Nat), Served x 0x0204 r s ∧ wfLaneDiag x lane 6 0 ms = true ∧ lane < 144 ∧
      octetMode (begun x s) (lane / 8) = 0) ∧
  (∃ (x : XCall) (s : State) (lane pat : Nat) (ms : List Nat), wfLaneDiag x lane 1 pat ms = true ∧ elasticOn s .training = false) ∧
  (∃ (x : XCall) (r : _) (s : State) (o m f : Nat), Served x 0x0205 r s ∧ wfOctetMode x o m f = true ∧ o < 16 ∧ m = 1 ∧
      octetMode (begun x s) o ≠ 3 ∧ octetBusy (begun x s) o = false ∧ f ≤ effectiveCore (begun x s).pow 6800) :=
  ⟨⟨8, 0, 0, 0, eth, by decide +kernel⟩,
   ⟨0, { up with ports := [(0, { octet := 1, state := 1 })] }, by decide +kernel⟩,
   ⟨0, { up with ports := [(0, { octet := 1, state := 3 })] }, by decide +kernel⟩,
   ⟨0, eth, by decide +kernel⟩,
   ⟨0, 65535, { up with ports := [(0, { octet := 1, state := 2, fc := 1 })] }, by decide +kernel⟩,
   ⟨0, 0, by decide +kernel⟩,
   ⟨0, 7, { up with ports := [(0, { octet := 1, state := 2, fc := 2, paused := [(7, 1)] })] }, by decide +kernel⟩,
   ⟨0, 0, by decide +kernel⟩,
   ⟨[], 0, up, by decide +kernel⟩,
   ⟨xo, rq 0x0201 0 0, ask 0x0201 0 0 up,
      { octet := 1, width := 8, rate := 3, fec := 2, mtu := 9600, stormMs := 1000, defPrio := 7, admin := 1 }, served (by decide +kernel),
      by decide +kernel⟩,
   ⟨xo, rq 0x0201 (0) (0), ask 0x0201 (0) (0) (eth), { admin := 2 },
      { octet := 1, width := 8, curWidth := 8, state := 2, admin := true, mtu := 1518 }, served (by decide +kernel), by decide +kernel⟩,
   ⟨xo, rq 0x0202 (0) (0), ask 0x0202 (0) (0) (eth), 0, { octet := 1, width := 8, curWidth := 8, state := 2, admin := true, mtu := 1518 },
      served (by decide +kernel), by decide +kernel⟩,
   ⟨xo, rq 0x0204 0 0, ask 0x0204 0 0 up, 143, [], served (by decide +kernel), by decide +kernel⟩,
   ⟨xo, { up with pow := {} }, 0, 0, [], by decide +kernel⟩,
   ⟨xo, rq 0x0205 0 0, ask 0x0205 0 0 up, 15, 1, 0, served (by decide +kernel), by decide +kernel⟩⟩

theorem witness_RingCommands :
  (∃ (fid ring value : Nat) (s : State), wfRingEnable fid ring value = true ∧ ringOn s fid ring = true ∧ (ringOf s fid ring).state = 0 ∧
    let u := s.modRing fid ring ({ · with cplRing := bits value 2 14, spread := bit value 16, vlanStrip := bit value 17 })
    ringCfgOk u fid ring (ringOf u fid ring) = true) ∧
  (∃ (fid ring value : Nat) (s : State), wfRingDisable fid ring value = true ∧ ringOn s fid ring = true ∧ (ringOf s fid ring).state = 1) ∧
  (∃ (fid ring : _) (s : State), (ringOf s fid ring).type = 2 ∧ sourcesOf (fnD s fid) ring = [] ∧ (ringOf s fid ring).unann = 0) ∧
  (∃ (fid ring : Nat) (s : State), wfRingReset fid ring = true ∧ ringOn s fid ring = true ∧ (ringOf s fid ring).state = 3 ∧
      (fnD s fid).bme = true) ∧
  (∃ (fid ring : Nat) (s : State), wfRingDb fid ring true = true ∧ ringOn s fid ring = true ∧ (ringOf s fid ring).state = 1 ∧
      (ringOf s fid ring).type ≠ 2 ∧ (fnD s fid).frozen = false ∧ (ringOf s fid ring).idxReading = false ∧ canIssue s fid = true) ∧
  (∃ (fid : Nat) (ring : _) (q : Nat) (s : State) (r : _), wfIndexWordReadDone fid (.ring ring) q = true ∧ s.reads = [r] ∧ r.fid = fid ∧
      r.purpose = .index ring ∧ r.dead = false ∧ r.tag.isSome = true ∧ (ringOf s fid ring).idxReading = true ∧
      (ringOf s fid ring).idxAgain = false ∧ (ringOf s fid ring).state = 1) ∧
  (∃ (fid ring c : Nat) (s : State), wfCplCi fid ring c = true ∧ ringOn s fid ring = true ∧ (ringOf s fid ring).type = 2) ∧
  (∃ (fid ring : Nat) (s : State), wfCplModTimerExpire fid ring = true ∧ (ringOf s fid ring).type = 2 ∧ (ringOf s fid ring).state = 1 ∧
      (ringOf s fid ring).timerAt.isSome = true ∧ 0 < (ringOf s fid ring).unann ∧ (fnD s fid).frozen = false) ∧
  (∃ (fid ring : Nat) (s : State), wfRingDb fid ring false = true ∧ ringOn s fid ring = true ∧ indexDue s fid ring = true) :=
  ⟨⟨4, 1, 4 * 0 + 1, ringUp { type := 2 }, by decide +kernel⟩,
   ⟨4, 1, 0, ringUp { type := 2, state := 1, enable := true }, by decide +kernel⟩,
   ⟨4, 1, ringUp { type := 2, state := 1, enable := true }, by decide +kernel⟩,
   ⟨4, 1, ringUp { state := 3 }, by decide +kernel⟩,
   ⟨4, 1, ringUp { state := 1 }, by decide +kernel⟩,
   ⟨4, 1, 64, { ringUp { state := 1, idxReading := true } with reads := [{ fid := 4, purpose := .index 1, tag := some 0 }] },
      { fid := 4, purpose := .index 1, tag := some 0 }, by decide +kernel⟩,
   ⟨4, 1, 2 ^ 32 - 1, ringUp { type := 2, state := 1 }, by decide +kernel⟩,
   ⟨4, 1, ringUp { type := 2, state := 1, timerAt := some 5, unann := 1 }, by decide +kernel⟩,
   ⟨4, 1, ringUp { state := 1 }, by decide +kernel⟩⟩

theorem witness_MailboxCommands :
  (∃ (fid value : Nat) (s : State), wfMbxEnable fid value = true ∧ barOn s fid = true ∧ hasMbx s fid = true ∧ (mbxOf s (.fn fid)).state = 0 ∧
      4 ≤ (mbxOf s (.fn fid)).log2 ∧ (mbxOf s (.fn fid)).log2 ≤ 8 ∧ bits value 2 11 < msixSize s fid) ∧
  (∃ (fid value : Nat) (s : State), wfMbxDisable fid value = true ∧ barOn s fid = true ∧ hasMbx s fid = true ∧ (mbxOf s (.fn fid)).state = 1 ∧
      (mbxOf s (.fn fid)).cur = none) ∧
  (∃ (fid v : Nat) (s : State), wfMbxDb fid v 4 true = true ∧ barOn s fid = true ∧ mbxListens s fid = true ∧
      (mbxOf s (.fn fid)).idxReading = false) ∧
  (∃ (fid q : Nat) (s : State) (r : Read), wfIndexWordReadDone fid .mailbox q = true ∧ s.reads = [r] ∧ r.fid = fid ∧ r.purpose = .mbxIndex ∧
      r.dead = false ∧ r.tag.isSome = true ∧ (mbxOf s (.fn fid)).state = 1 ∧ (mbxOf s (.fn fid)).idxAgain = false) ∧
  (∃ (fid : _) (s : State), (mbxOf s (.fn fid)).state = 1) ∧
  (∃ (mbx : MbxId) (s : State), s.eft.headless = true ∧ s.phase ≠ .safe ∧ (mbxOf s mbx).cur = none ∧ wfMbxHeadlessAnswer mbx = true) ∧
  (∃ (x : XCall) (r : _) (s : State), (mbxOf s x.mbx).queue.head? = some r ∧ mbxReady s x.mbx = true ∧ opRow r.opcode = none ∧
      wfUnassignedOpcode x = true) ∧
  (∃ (x : XCall) (r : _) (s : State) (mask log2 vector ringAddr indexAddr : Nat) (fid : _), Served x 0x0C04 r s ∧
      wfEventSubscribe x mask log2 vector ringAddr indexAddr = true ∧ x.mbx = .fn fid ∧ mask ≠ 0 ∧ 6 ≤ log2 ∧ log2 ≤ 16 ∧
      vector < msixSize (begun x s) fid) ∧
  (∃ (x : XCall) (r : _) (s : State) (vector log2 ringAddr indexAddr : Nat), Served x 0x0C04 r s ∧
      wfEventSubscribe x 0 log2 vector ringAddr indexAddr = true) ∧
  (∃ (x : XCall) (r : _) (s : State) (ms log2 ringAddr indexAddr : Nat), Served x 0x0C03 r s ∧
      wfTelemConfig x ms log2 ringAddr indexAddr = true) ∧
  (∃ (fid v : Nat) (s : State), wfMbxDb fid v 4 false = true ∧ barOn s fid = true ∧ mbxListens s fid = true ∧
      (mbxOf s (.fn fid)).idxReading = false) :=
  ⟨⟨4, 1 + 4 * 255, up, by decide +kernel⟩,
   ⟨0, 0, up, by decide +kernel⟩,
   ⟨0, 0, up, by decide +kernel⟩,
   ⟨0, 0, { up with reads := [{ fid := 0, purpose := .mbxIndex, tag := some 0 }] }, { fid := 0, purpose := .mbxIndex, tag := some 0 },
      by decide +kernel⟩,
   ⟨0, up, by decide +kernel⟩,
   ⟨.fn 0, { up with eft := { headless := true } }, by decide +kernel⟩,
   ⟨xo, rq 0x0BAD 0 0, ask 0x0BAD 0 0 up, by decide +kernel⟩,
   ⟨xo, rq 0x0C04 0 0, ask 0x0C04 0 0 up, 1, 16, 63, 0, 0, 0, served (by decide +kernel), by decide +kernel⟩,
   ⟨xo, rq 0x0C04 0 0, ask 0x0C04 0 0 up, 0, 0, 0, 0, served (by decide +kernel), by decide +kernel⟩,
   ⟨xo, rq 0x0C03 0 0, ask 0x0C03 0 0 up, 0, 0, 0, 0, served (by decide +kernel), by decide +kernel⟩,
   ⟨0, 0, up, by decide +kernel⟩⟩

theorem witness_FunctionAccess :
  (∃ (f : _) (bus : Nat) (v : _) (s : State), wfPcieConfigRequest (.fid f) .id bus false v = true ∧ hostPortExists s (fidPort f) = true ∧
      (hostPort s (fidPort f)).linkUp = true ∧ (hostPort s (fidPort f)).ready = true ∧ s.phase = .running ∧ (fn? s f).isSome = true ∧
      vfOn s f = true ∧ (fnD s f).ready = true) ∧
  (∃ (f : _) (bus : Nat) (v : _) (s : State), wfPcieConfigRequest (.fid f) .id bus false v = true ∧ hostPortExists s (fidPort f) = true ∧
      (hostPort s (fidPort f)).linkUp = true ∧ (hostPort s (fidPort f)).ready = false ∧ s.phase = .running) ∧
  (∃ (f : _) (bar off size v : Nat), wfRegisterWrite (.fid f) bar off size v = true) ∧
  (∃ (f size off : _) (s : State), barOn s f = true ∧ isVf f = true ∧ off + size ≤ 0x1000 ∧ [1, 2, 4, 8].contains size = true) ∧
  (∃ (f v : Nat) (s : State), barOn s f = true ∧ isVf f = true ∧ bit v 0 = true ∧ wfVfExchNotify f v = true) ∧
  (∃ (f v : Nat) (s : State), barOn s f = true ∧ fidFn f = 0 ∧ isNvme s f = false ∧ fnRole s f = 1 ∧ wfPfExchNotify f v = true ∧
      4 ≤ bits v 0 11 ∧ (mget? s.fns (mkFid (fidPort f) (bits v 0 11))).isSome = true) ∧
  (∃ (f i v : Nat) (s : State), barOn s f = true ∧ fidFn f = 0 ∧ isNvme s f = false ∧ fnRole s f = 1 ∧ i < 64 ∧ wfExchPendClear f i v = true) ∧
  (∃ (f vec : Nat) (s : State), wfMsixUnmask f vec = true ∧ barOn s f = true ∧ vec < msixSize s f) ∧
  (∃ (f : Nat) (s : State), wfFnCtlUnfence f = true ∧ barOn s f = true ∧ (fnD s f).bme = true ∧ isNvme s f = false) ∧
  (∃ (v : Nat) (s : State), wfRcvOwnerWrite v = true ∧ s.phase = .recovery) ∧
  (∃ (f off len : Nat) (data : _) (s : State) (i w : _), wfBar4WindowTlp f off len true data false = true ∧ hostFn s f = true ∧
      s.phase = .running ∧ (fnD s f).mse = true ∧ winFor s f off len = some (i, w) ∧ w.wrEn = true ∧ w.tgtType ≠ 2) ∧
  (∃ (f off len : Nat) (data : _) (s : State) (i w : _), wfBar4WindowTlp f off len false data false = true ∧ hostFn s f = true ∧
      s.phase = .running ∧ (fnD s f).mse = true ∧ winFor s f off len = some (i, w) ∧ w.rdEn = true ∧ w.tgtType ≠ 2) ∧
  (∃ (f off len : Nat) (data : _) (s : State), wfBar4WindowTlp f off len false data false = true ∧ hostFn s f = true ∧ s.phase = .running ∧
      (fnD s f).mse = true ∧ winFor s f off len = none) :=
  ⟨⟨0, 0, 0, up, by decide +kernel⟩,
   ⟨4, 0, 0, { up with hps := [(0, { linkUp := true })] }, by decide +kernel⟩,
   ⟨0, 0, 0, 0, 0, by decide +kernel⟩,
   ⟨4, 8, 4088, up, by decide +kernel⟩,
   ⟨4, 1, up, by decide +kernel⟩,
   ⟨2048, 5, { up with fns := up.fns ++ [(2053, fnOn 1 1)] }, by decide +kernel⟩,
   ⟨2048, 63, 0, up, by decide +kernel⟩,
   ⟨0, 0, up, by decide +kernel⟩,
   ⟨0, up, by decide +kernel⟩,
   ⟨2 ^ 8 + 31, { up with phase := .recovery }, by decide +kernel⟩,
   ⟨0, 4096, 4096, List.replicate 4096 1, { up with wins := [(255, { state := 1, wrEn := true, sizeLog2 := 12, barOff := 4096 })] }, 255,
      { state := 1, wrEn := true, sizeLog2 := 12, barOff := 4096 }, by decide +kernel⟩,
   ⟨0, 0, 4, [], { up with wins := [(0, { state := 1, rdEn := true, sizeLog2 := 12 })] }, 0, { state := 1, rdEn := true, sizeLog2 := 12 },
      by decide +kernel⟩,
   ⟨0, 0, 4, [], up, by decide +kernel⟩⟩

theorem witness_FunctionResets :
  (∃ (f : Nat) (s : State), wfBmeClear f = true ∧ hostFn s f = true) ∧
  (∃ (f : Nat) (s : State), wfMseClear f = true ∧ hostFn s f = true) ∧
  (∃ (f : Nat) (s : State), wfFlr f = true ∧ hostFn s f = true ∧ (fnD s f).inFlr = false ∧ fidFn f ≠ 1 ∧ fidFn f ≠ 2) ∧
  (∃ (f : Nat) (s : State), wfFlr f = true ∧ hostFn s f = true ∧ (fnD s f).inFlr = false ∧ (fidFn f = 1 ∨ fidFn f = 2)) ∧
  (∃ (f n : Nat) (s : State), wfVfEnableSet f n = true ∧ hostFn s f = true ∧ (fidFn f = 1 ∨ fidFn f = 2) ∧ (fnD s f).vfEnable = false) ∧
  (∃ (f : Nat) (s : State), wfVfEnableClear f = true ∧ hostFn s f = true ∧ (fnD s f).vfEnable = true) ∧
  (∃ (f : Nat) (s : State), wfD3hotEnter f = true ∧ hostFn s f = true) ∧
  (∃ (f : Nat) (s : State), wfD0Return f = true ∧ hostFn s f = true ∧ (fnD s f).d3 = true) ∧
  (∃ (n : Nat) (s : State), wfD3coldEnter n = true ∧ hostPortExists s n = true ∧ (hostPort s n).linkUp = true) ∧
  (∃ (n ns : Nat) (s : State), wfHpPerstNAssert n ns = true ∧ 1000 ≤ ns ∧ pinsIn s = true ∧ hostPortExists s n = true) ∧
  (∃ (n : Nat) (s : State), wfHpPerstNDeassert n = true ∧ pinsIn s = true) ∧
  (∃ (n : Nat) (s : State), wfHotReset n = true ∧ hostPortExists s n = true ∧ (hostPort s n).linkUp = true) ∧
  (∃ (n width gt : Nat) (flit : _) (s : State), wfDlUp n width gt flit = true ∧ hostPortExists s n = true ∧ (hostPort s n).enabled = true ∧
      (hostPort s n).perst = false ∧ (hostPort s n).linkUp = false ∧ s.eft.portsUp = true ∧ pinsIn s = true ∧ s.phase = .running ∧
      width ≤ formWidth s n ∧ elasticOn s .training = true ∧ width ≤ (hostPort s n).maxWidth ∧ gt ≤ (hostPort s n).maxGt ∧
      (gt < 64 ∨ flit = true)) ∧
  (∃ (n : Nat) (s : State), wfFunctionReady n = true ∧ (hostPort s n).linkUp = true) ∧
  (∃ (n : Nat) (s : State), wfL1Enter n true = true ∧ (hostPort s n).linkUp = true ∧ (presentFns s n).all (fun f => bit f.aspm 1) = true) ∧
  (∃ (n tag : Nat) (data : _) (s : State) (r : _), wfPcieReadCompletion n tag (some data) = true ∧ readOf s n tag = some r ∧ r.dead = true) ∧
  (∃ (n tag : Nat) (data : _) (s : State) (r k : _), wfPcieReadCompletion n tag (some data) = true ∧ readOf s n tag = some r ∧
      r.dead = false ∧ r.purpose = .mbxSlots k) ∧
  (∃ (n tag : Nat) (data : _) (s : State) (r : _), wfPcieReadCompletion n tag (some data) = true ∧ readOf s n tag = some r ∧ r.dead = false ∧
      r.purpose = .mbxIndex) ∧
  (∃ (n tag : Nat) (s : State) (r : _), wfPcieReadCompletion n tag none = true ∧ readOf s n tag = some r) ∧
  (∃ (n tag : Nat) (s : State) (r : _), wfCompletionTimeout n tag = true ∧ readOf s n tag = some r ∧ (fnD s r.fid).ctoOff = false) :=
  ⟨⟨0, up, by decide +kernel⟩,
   ⟨0, up, by decide +kernel⟩,
   ⟨0, up, by decide +kernel⟩,
   ⟨2, up, by decide +kernel⟩,
   ⟨1, 1024, up.modFn 1 ({ · with vfEnable := false }), by decide +kernel⟩,
   ⟨1, up, by decide +kernel⟩,
   ⟨0, up, by decide +kernel⟩,
   ⟨4, up.modFn 4 ({ · with d3 := true }), by decide +kernel⟩,
   ⟨0, up, by decide +kernel⟩,
   ⟨0, 1000, up, by decide +kernel⟩,
   ⟨0, up, by decide +kernel⟩,
   ⟨0, up, by decide +kernel⟩,
   ⟨0, 4, 128, true, { up with hps := [] }, by decide +kernel⟩,
   ⟨0, up, by decide +kernel⟩,
   ⟨1, { up with fns := [(2048, { aspm := 2 }), (2049, { aspm := 2 }), (2050, { aspm := 2 })] }, by decide +kernel⟩,
   ⟨0, 0, [], { up with reads := [{ fid := 4, tag := some 0, dead := true }] }, { fid := 4, tag := some 0, dead := true }, by decide +kernel⟩,
   ⟨0, 0, [], { up with reads := [{ fid := 4, tag := some 0, purpose := .mbxSlots 1 }] }, { fid := 4, tag := some 0, purpose := .mbxSlots 1 },
      1, by decide +kernel⟩,
   ⟨0, 0, [], { up with reads := [{ fid := 4, tag := some 0 }] }, { fid := 4, tag := some 0 }, by decide +kernel⟩,
   ⟨0, 0, { up with reads := [{ fid := 4, tag := some 0 }] }, { fid := 4, tag := some 0 }, by decide +kernel⟩,
   ⟨0, 0, { up with reads := [{ fid := 4, tag := some 0 }] }, { fid := 4, tag := some 0 }, by decide +kernel⟩⟩

theorem witness_WindowCommands :
  (∃ (x : XCall) (r : _) (s : State) (w : WinCfg), Served x 0x0308 r s ∧ wfWindowSet x w = true ∧ (callBy x r s).inPort w.port = true ∧
      windowFault (begun x s) w = none ∧ windowGrant (begun x s) (callBy x r s) w = true ∧ (callBy x r s).role = 1) ∧
  (∃ (x : XCall) (r : _) (s : State) (n i : Nat), Served x 0x0309 r s ∧ wfWindowRetire x n i = true ∧ (callBy x r s).inPort n = true ∧
      hostPortExists (begun x s) n = true ∧ (winOf (begun x s) n i).state ≠ 0 ∧ (winOf (begun x s) n i).inflight = 0) ∧
  (∃ (x : XCall) (r : _) (s : State) (n i : Nat), Served x 0x0309 r s ∧ wfWindowRetire x n i = true ∧ (callBy x r s).inPort n = true ∧
      hostPortExists (begun x s) n = true ∧ (winOf (begun x s) n i).state ≠ 0 ∧ (winOf (begun x s) n i).inflight ≠ 0) ∧
  (∃ (n i : Nat) (s : State), wfWindowDrainDone n i = true ∧ (winOf s n i).state = 2) ∧
  (∃ (n i : Nat) (s : State), wfWindowRetireTimeout n i = true ∧ waiting s (· = .window n i) = true) :=
  ⟨⟨xo, rq 0x0308 (0) (0), ask 0x0308 (0) (0) ({ up with hps := [(0, { linkUp := true, ready := true, bar4Vf := 36 })] }),
      { index := 255, fn := 4, rd := 1, sizeLog2 := 36 }, served (by decide +kernel), by decide +kernel⟩,
   ⟨xo, rq 0x0309 (0) (0), ask 0x0309 (0) (0) ({ up with wins := [(255, { state := 1 })] }), 0, 255, served (by decide +kernel),
      by decide +kernel⟩,
   ⟨xo, rq 0x0309 (0) (0), ask 0x0309 (0) (0) ({ up with wins := [(255, { state := 1, inflight := 1 })] }), 0, 255, served (by decide +kernel),
      by decide +kernel⟩,
   ⟨0, 0, { up with wins := [(0, { state := 2 })] }, by decide +kernel⟩,
   ⟨0, 0, waits (.window 0 0) up, by decide +kernel⟩⟩

theorem witness_TenancyCommands :
  (∃ (x : XCall) (r : _) (s : State) (port tenant tenBase tenCount : Nat) (counts : List Nat), Served x 0x0301 r s ∧
      wfAllotSet x port tenant tenBase tenCount counts = true ∧
    let u := begun x s
    let place (i : Nat) : Nat := (placeRange u port i (counts.getD i 0)).getD 0
    let v := { u with allots := mput u.allots port { tenant, tenBase, tenCount, counts, firsts := ranged.map place, set := true } }
    port < 32 ∧ (port = u.eft.ownerPort ↔ tenant = 0) ∧ tenBase + tenCount ≤ 65536 ∧ counts.getD 0 0 ≤ 2044 ∧ (0 < tenCount → tenBase ≠ 0 ∧
      ∀ p, p < 32 → p ≠ port → 0 < (allotOf u p).tenCount →
      (allotOf u p).tenBase + (allotOf u p).tenCount ≤ tenBase ∨ tenBase + tenCount ≤ (allotOf u p).tenBase) ∧ (∀ i, i < 14 →
      coversUse u port i (counts.getD i 0) = true ∧ allotSum u port i (counts.getD i 0) + ownerUseAt u port i ≤ pools.getD i 0) ∧
      (∀ i ∈ ranged, (placeRange u port i (counts.getD i 0)).isSome = true ∧ leavesOut u port i (place i) (counts.getD i 0) = false) ∧
      cellsFit v = true) ∧
  (∃ (x : XCall) (r : _) (s : State) (port : Nat), Served x 0x0302 r s ∧ wfAllotGet x port = true ∧ port < 32 ∧
      (callBy x r s).inPort port = true) ∧
  (∃ (x : XCall) (r : _) (s : State) (port pf vf : Nat) (counts : List Nat) (fn : _), Served x 0x0303 r s ∧
      wfFnCreate x port pf vf counts = true ∧
    let u := begun x s
    let g (i : Nat) : Nat := counts.getD i 0
    let first (i : Nat) : Nat := (grantRange u port (i + 7) (g (i + 6))).getD 0
    let f : Fn := { (unprovOf u port pf vf).fn with pf, vf, ready := true, seed := Config.freeNat u.free % 2 ^ 128, grants :=
        { rings := g 0, nvmeQp := g 1, cmds := g 2, l2 := g 3, flow := g 4, cells := g 5, policers := g 6, nodes := g 7
          keySlots := g 8, ckvCtx := g 9, sa := g 10, polFirst := first 0, nodeFirst := first 1, keyFirst := first 2
          ckvFirst := first 3, saFirst := first 4 } }
    let v := { u with
        fns := mput u.fns (mkFid port fn) f
        unprov := mdel u.unprov (unprovKey port pf vf)
        free := u.free + 1 }
    (callBy x r s).inPort port = true ∧ hostPortExists u port = true ∧ (pf = 1 ∨ pf = 2) ∧ 1 ≤ vf ∧ vf ≤ 1024 ∧
      (∀ e ∈ portVfs u port, ¬(e.2.pf = pf ∧ e.2.vf = vf)) ∧ createFault pf counts = none ∧ freeFn u port = some fn ∧
      fitsPort u port 0 1 = true ∧ (∀ i, i < 11 → fitsPort u port (i + 1) (g i) = true) ∧ (∀ i, i < 5 →
      (grantRange u port (i + 7) (g (i + 6))).isSome = true) ∧ cellsFit v = true) ∧
  (∃ (x : XCall) (r : _) (s : State) (fid : Nat), Served x 0x0304 r s ∧ wfFnDestroy x fid = true ∧
      (callBy x r s).inPort (fidPort fid) = true ∧ isVf fid = true ∧ (mget? (begun x s).fns fid).isSome = true ∧ (∀ i, i < 256 →
      (winOf (begun x s) (fidPort fid) i).state = 0 ∨ (winOf (begun x s) (fidPort fid) i).fn ≠ fidFn fid)) ∧
  (∃ (x : XCall) (r : _) (s : State) (fid : Nat), Served x 0x0305 r s ∧ wfFnQuery x fid = true ∧ (callBy x r s).role = 1 ∧
      (fn? (begun x s) fid).isSome = true) ∧
  (∃ (x : XCall) (r : _) (s : State) (fid tenant : Nat), Served x 0x0306 r s ∧ wfTenantBind x fid tenant = true ∧
      (callBy x r s).inPort (fidPort fid) = true ∧ isVf fid = true ∧ (mget? (begun x s).fns fid).isSome = true ∧ tenant ≠ 0 ∧
      (callBy x r s).role = 1 ∧ (fnD (begun x s) fid).bound = false) ∧
  (∃ (x : XCall) (r : _) (s : State) (fid tenant : Nat), Served x 0x0306 r s ∧ wfTenantBind x fid tenant = true ∧ (callBy x r s).role = 1 ∧
      isVf fid = true ∧ (mget? (begun x s).fns fid).isSome = true ∧ tenant ≠ 0 ∧ (fnD (begun x s) fid).bound = true) :=
  ⟨⟨xo, rq 0x0301 0 0, ask 0x0301 0 0 up, 1, 65535, 1, 65535, [8, 8, 8, 8, 8, 8, 0, 8, 8, 8, 8, 8, 8, 8], served (by decide +kernel),
      by decide +kernel⟩,
   ⟨xo, rq 0x0302 0 0, ask 0x0302 0 0 up, 0, served (by decide +kernel), by decide +kernel⟩,
   ⟨xo, rq 0x0303 0 0, ask 0x0303 0 0 up, 0, 2, 1024, [0, 1, 1, 0, 0, 0, 0, 0, 0, 0, 0], 6, served (by decide +kernel), by decide +kernel⟩,
   ⟨xo, rq 0x0304 0 0, ask 0x0304 0 0 up, 4, served (by decide +kernel), by decide +kernel⟩,
   ⟨xo, rq 0x0305 0 0, ask 0x0305 0 0 up, 0, served (by decide +kernel), by decide +kernel⟩,
   ⟨xo, rq 0x0306 (0) (0), ask 0x0306 (0) (0) (up.modFn 4 ({ · with bound := false })), 4, 65535, served (by decide +kernel),
      by decide +kernel⟩,
   ⟨xo, rq 0x0306 0 0, ask 0x0306 0 0 up, 4, 1, served (by decide +kernel), by decide +kernel⟩⟩

theorem witness_ResetLosesState :
  (∃ (ch br os : _) (s : State), wfSysRstNRelease ch br os = true ∧
      (s.pins.sysRstN = true ∨ s.pins.pwrOk = false ∨ s.pins.vddRet = false ∨ s.pins.thermtrip = true)) :=
  ⟨0, 0, 0, up, by decide +kernel⟩

theorem witness_BootChoosesSlot :
  (∃ (ch os : _) (s : State), wfSysRstNRelease ch false os = true ∧ s.pins.sysRstN = false ∧ s.pins.pwrOk = true ∧ s.pins.vddRet = true ∧
      s.pins.thermtrip = false) ∧
  (∃ (ch os : _) (s : State) (i reason : _), wfSysRstNRelease ch true os = true ∧ s.pins.sysRstN = false ∧ s.pins.pwrOk = true ∧
      s.pins.vddRet = true ∧ s.pins.thermtrip = false ∧ s.nv.slotA.state ≠ 4 ∧ s.nv.slotB.state ≠ 4 ∧ selectSlot s = some (i, reason)) ∧
  (∃ (ch os : _) (s : State), wfSysRstNRelease ch true os = true ∧ s.pins.sysRstN = false ∧ s.pins.pwrOk = true ∧ s.pins.vddRet = true ∧
      s.pins.thermtrip = false ∧ s.nv.slotA.state ≠ 4 ∧ s.nv.slotB.state ≠ 4 ∧ selectSlot s = none) ∧
  (∃ (s : State) (i reason : _), selectSlot s = some (i, reason)) ∧
  (∃ (s : State) (i j reason : _), i ≤ 1 ∧ (slotOf s i).state = 3 ∧ ((slotOf s i).key s.nv.revoke).isSome = true ∧
      selectSlot s = some (j, reason)) :=
  ⟨⟨true, 31, Tests.held, by decide +kernel⟩,
   ⟨true, 31, Tests.held, 0, 0, by decide +kernel⟩,
   ⟨true, 31, { Tests.held with nv := { slotA := {} } }, by decide +kernel⟩,
   ⟨up, 0, 0, by decide +kernel⟩,
   ⟨{ up with nv := { slotA := { state := 3, factory := some {} } } }, 0, 0, 1, by decide +kernel⟩⟩

theorem witness_SuppliesWakeAndBasking :
  (∃ (s : State), (s.phase ≠ .basking ∨ s.eft.waking = false)) ∧
  (∃ (s : State), s.phase = .basking ∧ s.eft.waking = true) ∧
  (∃ (s : State), s.pins.baskReq = false ∧ s.phase ≠ .basking) ∧
  (∃ (s : State), s.pins.baskReq = true) ∧
  (∃ (ns : Nat) (s : State), wfWakeNAssert ns = true ∧ 1000 ≤ ns ∧ pinsIn s = true ∧ s.phase = .basking ∧ s.eft.waking = false ∧
      s.pins.pwrOk = false) ∧
  (∃ (ns : Nat) (s : State), wfWakeNAssert ns = true ∧ 1000 ≤ ns ∧ pinsIn s = true ∧ s.phase ≠ .basking ∧ s.eft.basking = true) ∧
  (∃ (s : State), s.pins.vddRet = false) ∧
  (∃ (s : State), s.phase = .basking) ∧
  (∃ (s : State), s.phase ≠ .basking) ∧
  (∃ (pcie i : _), wfReferenceClockStop pcie i = true) ∧
  (∃ (s : State), s.phase = .basking) ∧
  (∃ (s : State), s.eft.retention = true ∧ alarmLatched s = false) ∧
  (∃ (s : State), (s.eft.retention = false ∨ alarmLatched s = true)) ∧
  (∃ (x : XCall) (r : _) (s : State), Served x 0x0D06 r s ∧ wfBaskEnter x = true ∧ baskBlocked (begun x s) = false) ∧
  (∃ (s : State), s.eft.basking = true ∧ s.phase = .running ∧ s.eft.wakeLatched = false ∧ s.fns.all (fun e => fnDrained s e.1) = true ∧
      mbxBusy s = false) ∧
  (∃ (us : Nat) (s : State), wfBaskDrainTimeout us = true ∧ s.eft.basking = true ∧ s.phase = .running) :=
  ⟨⟨up, by decide +kernel⟩,
   ⟨{ asleep with eft := { waking := true } }, by decide +kernel⟩,
   ⟨up, by decide +kernel⟩,
   ⟨{ up with pins := { baskReq := true } }, by decide +kernel⟩,
   ⟨1000, { asleep with pins := { pwrOk := false } }, by decide +kernel⟩,
   ⟨1000, { up with eft := { basking := true } }, by decide +kernel⟩,
   ⟨{ up with pins := { vddRet := false } }, by decide +kernel⟩,
   ⟨asleep, by decide +kernel⟩,
   ⟨up, by decide +kernel⟩,
   ⟨false, 0, by decide +kernel⟩,
   ⟨asleep, by decide +kernel⟩,
   ⟨{ asleep with eft := { retention := true } }, by decide +kernel⟩,
   ⟨up, by decide +kernel⟩,
   ⟨xo, rq 0x0D06 0 0, ask 0x0D06 0 0 up, served (by decide +kernel), by decide +kernel⟩,
   ⟨{ up with eft := { basking := true } }, by decide +kernel⟩,
   ⟨200000, { up with eft := { basking := true } }, by decide +kernel⟩⟩

theorem witness_FirmwareCommands :
  (∃ (x : XCall) (r : _) (s : State), Served x 0x0101 r s ∧ wfDevInfo x = true) ∧
  (∃ (x : XCall) (r : _) (s : State) (port : Nat), Served x 0x0105 r s ∧ wfDevReset x 0 port = true) ∧
  (∃ (x : XCall) (r : _) (s : State) (port : Nat), Served x 0x0105 r s ∧ wfDevReset x 1 port = true ∧ (callBy x r s).role = 1 ∧
      x.mbx ≠ .board ∧ hostPortExists (begun x s) port = true ∧ s.eft.resetAfter = false) ∧
  (∃ (x : XCall) (r : _) (s : State) (slot total : Nat) (data : List Byte), Served x 0x0D01 r s ∧ wfFwStage x slot 0 total data = true ∧
      slot ≤ 1 ∧ slot ≠ s.eft.running ∧ onTrial s = false ∧ 0 < total ∧ total ≤ 5242880 ∧ data.length ≤ total ∧ bit r.flags 12 = false) ∧
  (∀ (img : List Byte) (key : Nat), imageKey img = some key → wfFwStage xo 1 0 img.length img = true → 0 < img.length → img.length ≤ 5242880 →
    ∃ (x : XCall) (r : _) (s : State) (slot total : Nat) (data : List Byte) (k : _), Served x 0x0D01 r s ∧
      wfFwStage x slot 0 total data = true ∧ slot ≤ 1 ∧ slot ≠ s.eft.running ∧ onTrial s = false ∧ 0 < total ∧ total ≤ 5242880 ∧
      data.length ≤ total ∧ bit r.flags 12 = true ∧ imageKey data = some k ∧ bit s.nv.revoke k = false) ∧
  (∃ (x : XCall) (r : _) (s : State) (slot : Nat), Served x 0x0D01 r s ∧ wfFwStage x slot 0 0 [] = true ∧ slot ≤ 1 ∧ slot ≠ s.eft.running ∧
      onTrial s = false) ∧
  (∃ (x : XCall) (r : _) (s : State) (slot trial : Nat), Served x 0x0D02 r s ∧ wfFwActivate x 0 slot trial = true ∧ s.eft.resetPort = none ∧
      s.eft.resetAfter = false ∧ slot ≤ 1 ∧ trial ≤ 1 ∧ ([2, 5, 6].contains (slotOf s slot).state) = true ∧ (callBy x r s).role = 1 ∧
      (2 ≤ s.eft.running ∨ (slotOf s slot).stateFmt = (slotOf s s.eft.running).stateFmt)) ∧
  (∃ (x : XCall) (r : _) (s : State) (slot trial : Nat), Served x 0x0D02 r s ∧ wfFwActivate x 1 slot trial = true ∧ s.eft.resetPort = none ∧
      s.eft.resetAfter = false ∧ slot ≤ 1 ∧ trial ≤ 1 ∧ ([2, 5, 6].contains (slotOf s slot).state) = true ∧ (callBy x r s).role = 1 ∧
      (2 ≤ s.eft.running ∨ (slotOf s slot).stateFmt = (slotOf s s.eft.running).stateFmt) ∧ leapPending (begun x s) = false ∧
      padEdited (begun x s) = false) ∧
  (∃ (s : State) (i trial : _), drainingSlot s = some (i, trial) ∧ leapPending s = false ∧ padEdited s = false ∧ storageDrained s = true ∧
      padInEngines s (shadowBit s) = false ∧ padQueued s (shadowBit s) = false) ∧
  (∃ (s : State), leapPending s = false ∧ padEdited s = false ∧ (padInEngines s (shadowBit s) = true ∨ padQueued s (shadowBit s) = true)) ∧
  (∃ (s : State) (i trial : _), drainingSlot s = some (i, trial) ∧ (leapPending s = true ∨ padEdited s = true)) ∧
  (∃ (s : State) (i trial : _), drainingSlot s = some (i, trial)) ∧
  (∃ (x : XCall) (r : _) (s : State), Served x 0x0D03 r s ∧ wfFwState x = true) ∧
  (∃ (s : State), s.phase = .running ∧ onTrial s = true ∧ s.eft.trialLocked = false ∧ s.eft.headless = false) ∧
  (∃ (s : State), onTrial s = true ∧ s.eft.trialLocked = false) ∧
  (∃ (x : XCall) (r : _) (s : State) (i : Nat), Served x 0x0D04 r s ∧ wfKeyRevoke x i = true ∧ i ≤ 3 ∧ (s.nv.revoke ||| 2 ^ i) % 16 ≠ 15 ∧
      bit r.flags 9 = true) ∧
  (∃ (x : XCall) (r : _) (s : State) (nonce : List Byte), Served x 0x0D05 r s ∧ wfAttestQuote x nonce = true ∧
    let u := begun x s
    let body := quoteBody u (leapGen u) nonce
    body.length + 104 + s.nv.certChain.length ≤ (callBy x r s).room) :=
  ⟨⟨xo, rq 0x0101 0 0, ask 0x0101 0 0 up, served (by decide +kernel), by decide +kernel⟩,
   ⟨xo, rq 0x0105 0 0, ask 0x0105 0 0 up, 0, served (by decide +kernel), by decide +kernel⟩,
   ⟨xo, rq 0x0105 0 0, ask 0x0105 0 0 up, 0, served (by decide +kernel), by decide +kernel⟩,
   ⟨xo, rq 0x0D01 0 0, ask 0x0D01 0 0 up, 1, 5242880, [], served (by decide +kernel), by decide +kernel⟩,
   fun img key hk hw h0 h1 => ⟨xo, rq 0x0D01 (4096) (0), ask 0x0D01 (4096) (0) up, 1, img.length, img, key, served (by decide +kernel), hw,
      by decide +kernel, by decide +kernel, by decide +kernel, h0, h1, Nat.le_refl _, by decide +kernel, hk,
      by show bit 0 key = false; simp [bit]⟩,
   ⟨xo, rq 0x0D01 0 0, ask 0x0D01 0 0 up, 1, served (by decide +kernel), by decide +kernel⟩,
   ⟨xo, rq 0x0D02 0 0, ask 0x0D02 0 0 up, 0, 0, served (by decide +kernel), by decide +kernel⟩,
   ⟨xo, rq 0x0D02 0 0, ask 0x0D02 0 0 up, 0, 0, served (by decide +kernel), by decide +kernel⟩,
   ⟨waits (.fwDrain 1 true) up, 1, true, by decide +kernel⟩,
   ⟨{ up with pkt := { ctxs := [(0, [{ pkt := { pad := 1 } }])] } }, by decide +kernel⟩,
   ⟨waits (.fwDrain 1 true) { up with pkt := { leap := { pending := some 5 } } }, 1, true, by decide +kernel⟩,
   ⟨waits (.fwDrain 1 true) up, 1, true, by decide +kernel⟩,
   ⟨xo, rq 0x0D03 0 0, ask 0x0D03 0 0 up, served (by decide +kernel), by decide +kernel⟩,
   ⟨{ up with nv := { slotA := { state := 4 } } }, by decide +kernel⟩,
   ⟨{ up with nv := { slotA := { state := 4 } } }, by decide +kernel⟩,
   ⟨xo, rq 0x0D04 (512) (0), ask 0x0D04 (512) (0) up, 3, served (by decide +kernel), by decide +kernel⟩,
   ⟨xo, { slot := BitVec.ofNat 512 (0x0D05 + 4096 * 2 ^ 96 + 4096 * 2 ^ 192) },
      up.modMbx (.fn 0) ({ · with queue := [{ slot := BitVec.ofNat 512 (0x0D05 + 4096 * 2 ^ 96 + 4096 * 2 ^ 192) }] }), List.replicate 32 0,
      served (by decide +kernel), by decide +kernel⟩⟩

theorem witness_I3cTarget :
  (∃ (h : BitVec 512) (p : List Byte) (s : State), wfI3cPrivateWrite h p = true ∧ i3cAddressed s = true ∧ s.phase ≠ .basking ∧
      s.eft.basking = false ∧ 64 + p.length ≤ s.i3c.mwl ∧ boardOutstanding s < 8) ∧
  (∃ (h : BitVec 512) (p : List Byte) (s : State), wfI3cPrivateWrite h p = true ∧ i3cAddressed s = true ∧ s.phase ≠ .basking ∧
      s.eft.basking = false ∧ 64 + p.length ≤ s.i3c.mwl ∧ 8 ≤ boardOutstanding s) ∧
  (∃ (s : State) (i l : _), i3cAddressed s = true ∧ s.i3c.ready = i :: l) ∧
  (∃ (s : State), i3cAddressed s = true ∧ s.i3c.ready = []) ∧
  (∃ (ev : _) (s : State), wfEnec false ev = true ∧ i3cOn s = true ∧ s.i3c.ready = []) ∧
  (∃ (ev : _) (s : State), wfDisec false ev = true ∧ i3cOn s = true) ∧
  (∃ (s : State), i3cOn s = true) ∧
  (∃ (a : Nat) (s : State), wfEntdaa a = true ∧ i3cOn s = true ∧ s.i3c.addr = none) ∧
  (∃ (n : _) (s : State), wfSetmwl false n = true ∧ i3cOn s = true ∧ 64 ≤ n ∧ n ≤ 1088) ∧
  (∃ (n : _) (s : State), wfSetmrl false n = true ∧ i3cOn s = true ∧ 64 ≤ n ∧ n ≤ 1088) ∧
  (∃ (a : _) (s : State), wfRstact false a = true ∧ i3cOn s = true ∧ a ≤ 2) ∧
  (∃ (a : Nat) (s : State), wfSetnewda a = true ∧ i3cAddressed s = true) ∧
  (∃ (s : State), i3cAddressed s = true) ∧
  (∃ (c : Nat) (s : State), wfI3cUnsupportedCcc c true = true ∧ i3cAddressed s = true) ∧
  (∃ (c : Nat), wfI3cUnsupportedCcc c false = true ∧ (c < 0x20 ∨ 0x27 < c)) ∧
  (∃ (s : State), s.pins.vddRet = true ∧ s.pins.pwrSeen = true ∧ (s.i3c.rstact = none ∨ s.i3c.rstact = some 1)) ∧
  (∃ (s : State), s.pins.vddRet = true ∧ s.pins.pwrSeen = true ∧ s.i3c.rstact = some 2) ∧
  (∃ (s : State), i3cOn s = true ∧ s.i3c.addr = none ∧ s.i3c.hjEn = true) :=
  ⟨⟨0, List.replicate 1024 0, i3cUp.modMbx .board ({ · with queue := List.replicate 7 (rq 0 0 0) }), by decide +kernel⟩,
   ⟨0, List.replicate 1024 0, i3cUp.modMbx .board ({ · with queue := List.replicate 8 (rq 0 0 0) }), by decide +kernel⟩,
   ⟨{ up with i3c := { addr := some 9, ready := [.event []] } }, .event [], [], by decide +kernel⟩,
   ⟨i3cUp, by decide +kernel⟩,
   ⟨0, up, by decide +kernel⟩,
   ⟨0, up, by decide +kernel⟩,
   ⟨up, by decide +kernel⟩,
   ⟨0, up, by decide +kernel⟩,
   ⟨1088, up, by decide +kernel⟩,
   ⟨64, up, by decide +kernel⟩,
   ⟨0, up, by decide +kernel⟩,
   ⟨0, i3cUp, by decide +kernel⟩,
   ⟨i3cUp, by decide +kernel⟩,
   ⟨0, i3cUp, by decide +kernel⟩,
   ⟨0, by decide +kernel⟩,
   ⟨up, by decide +kernel⟩,
   ⟨{ up with i3c := { rstact := some 2 } }, by decide +kernel⟩,
   ⟨up, by decide +kernel⟩⟩

theorem witness_ChainFrames :
  (∃ (f : _) (s : State), chainOn s = true ∧ frameOk f = true ∧ s.chain.state = 2 ∧ s.chain.seen = true ∧ fType f = 0) ∧
  (∃ (f : _) (s : State), chainOn s = true ∧ frameOk f = true ∧ s.chain.state = 2 ∧ s.chain.seen = true ∧ fType f = 1 ∧ s.chain.head = false ∧
      fData f < 16) ∧
  (∃ (f : _) (s : State), chainOn s = true ∧ frameOk f = true ∧ s.chain.state = 2 ∧ s.chain.seen = true ∧ fType f = 2 ∧ s.chain.head = false ∧
      ∃ (a : _), s.chain.offered = some a) ∧
  (∃ (f : _) (s : State), chainOn s = true ∧ frameOk f = true ∧ s.chain.state = 2 ∧ s.chain.seen = true ∧ fType f = 3 ∧ isOwn s f = false) ∧
  (∃ (f : _) (s : State), chainOn s = true ∧ frameOk f = true ∧ s.chain.state = 2 ∧ s.chain.seen = true ∧ fType f = 4 ∧ isOwn s f = false ∧
      fPart f ≠ 0) ∧
  (∃ (f : _) (s : State), chainOn s = true ∧ frameOk f = true ∧ s.chain.state = 2 ∧ s.chain.seen = true ∧ fType f = 4 ∧ isOwn s f = false ∧
      fPart f = 0 ∧
    let u := s.modChain (fun c => { c with armHi := mdel c.armHi (fSrc f) })
    leapArm (mgetD s.chain.armHi (fSrc f) 0 * 2 ^ 32 + fData f) u = none) ∧
  (∃ (f : _) (s : State), chainOn s = true ∧ frameOk f = true ∧ s.chain.state = 2 ∧ s.chain.seen = true ∧ fType f = 5 ∧ isOwn s f = false) ∧
  (∃ (f : _) (s : State), chainOn s = true ∧ frameOk f = true ∧ s.chain.state = 2 ∧ s.chain.seen = true ∧ fType f = 6 ∧ isOwn s f = false ∧
      forMe s f = true ∧ bit (fData f) 31 = false) ∧
  (∃ (f : _) (s : State), chainOn s = true ∧ frameOk f = true ∧ s.chain.state = 2 ∧ s.chain.seen = true ∧ fType f = 7 ∧ isOwn s f = false) ∧
  (∃ (f : _) (s : State), chainOn s = true ∧ frameOk f = true ∧ s.chain.state = 2 ∧ s.chain.seen = true ∧ fType f = 8 ∧ isOwn s f = false ∧
      forMe s f = false) ∧
  (∃ (f : _) (s : State), chainOn s = true ∧ frameOk f = true ∧ s.chain.state = 2 ∧ s.chain.seen = true ∧ fType f = 8 ∧ isOwn s f = true ∧
      fPart f = 0) ∧
  (∃ (f : _) (s : State), chainOn s = true ∧ frameOk f = true ∧ s.chain.state = 2 ∧ s.chain.seen = true ∧ fType f = 9 ∧ isOwn s f = false) ∧
  (∃ (f : _) (s : State), chainOn s = true ∧ frameOk f = true ∧ s.chain.state = 2 ∧ s.chain.seen = true ∧ 10 ≤ fType f) ∧
  (∃ (f : _) (s : State), chainOn s = true ∧ frameOk f = false) :=
  ⟨⟨mkFrame 0 3 0 true false 0 0 0, chainUp, by decide +kernel⟩,
   ⟨mkFrame 1 3 0 true false 0 0 15, chainUp, by decide +kernel⟩,
   ⟨mkFrame 2 0 0 true false 0 0 5, { chainUp with chain := { offered := some 2, state := 2, seen := true } }, by decide +kernel,
      by decide +kernel, by decide +kernel, by decide +kernel, by decide +kernel, by decide +kernel, 2, by decide +kernel⟩,
   ⟨mkFrame 3 3 0 true false 0 0 0, chainUp, by decide +kernel⟩,
   ⟨mkFrame 4 3 0 true false 0 1 7, chainUp, by decide +kernel⟩,
   ⟨mkFrame 4 3 0 true false 0 0 0, chainUp, by decide +kernel⟩,
   ⟨mkFrame 5 3 0 true false 0 0 0, chainUp, by decide +kernel⟩,
   ⟨mkFrame 6 3 2 false false 0 0 4, chainUp, by decide +kernel⟩,
   ⟨mkFrame 7 3 0 true false 0 0 4, chainUp, by decide +kernel⟩,
   ⟨mkFrame 8 3 4 false false 1 0 4, chainUp, by decide +kernel⟩,
   ⟨mkFrame 8 2 4 false true 1 0 4, chainUp, by decide +kernel⟩,
   ⟨mkFrame 9 3 0 true false 0 0 0, chainUp, by decide +kernel⟩,
   ⟨mkFrame 15 3 0 true false 0 0 0, chainUp, by decide +kernel⟩,
   ⟨1, up, by decide +kernel⟩⟩

theorem witness_ChainCommands :
  (∃ (s : State), chainOn s = true) ∧
  (∃ (s : State), chainOn s = true) ∧
  (∃ (s : State), chainOn s = true) ∧
  (∃ (s : State), chainOn s = true ∧ s.chain.state ≠ 0) ∧
  (∃ (s : State), chainOn s = true ∧ s.chain.head = true ∧ s.chain.state = 1) ∧
  (∃ (s : State), waiting s (· = .chainLeap) = true) ∧
  (∃ (x : XCall) (r : _) (s : State), Served x 0x1101 r s ∧ wfChainState x = true) ∧
  (∃ (x : XCall) (r : _) (s : State) (dest : Nat) (data : List Byte), Served x 0x1102 r s ∧ wfChainSend x dest data.length data = true ∧
      dest ≤ 15 ∧ 1 ≤ data.length ∧ data.length ≤ 255 ∧ s.chain.state = 2 ∧ pinsIn s = true) :=
  ⟨⟨up, by decide +kernel⟩,
   ⟨up, by decide +kernel⟩,
   ⟨up, by decide +kernel⟩,
   ⟨chainUp, by decide +kernel⟩,
   ⟨{ up with chain := { state := 1, head := true } }, by decide +kernel⟩,
   ⟨waits .chainLeap up, by decide +kernel⟩,
   ⟨xo, rq 0x1101 0 0, ask 0x1101 0 0 up, served (by decide +kernel), by decide +kernel⟩,
   ⟨xo, rq 0x1102 (0) (0), ask 0x1102 (0) (0) (chainUp), 15, List.replicate 255 0, served (by decide +kernel), by decide +kernel⟩⟩

theorem witness_DebugAccess :
  (∃ (c : Nat), wfBypass c = true ∧ [1, 2, 3, 4, 5, 6, 7, 0x20, 0x21, 0x22, 0x23].contains c = false) ∧
  (∃ (tok : List Byte) (s : State), wfDbgToken tok = true ∧ tokenOk (s.modDbg ({ · with ir := 0x21 })) tok = true) ∧
  (∃ (tok : List Byte) (s : State), wfDbgToken tok = true ∧ tokenOk (s.modDbg ({ · with ir := 0x21 })) tok = false) ∧
  (∃ (sc : Nat) (a v w : _) (s : State), wfDbgDmi sc w a v = true ∧ bit s.dbg.scopes (sc - 1) = false ∧ bit s.dbg.scopes 2 = false) ∧
  (∃ (sc : Nat) (a v : _) (s : State), wfDbgDmi sc true a v = true ∧ bit s.dbg.scopes (sc - 1) = true) ∧
  (∃ (c : Byte) (s : State), wfUartRxInput c = true ∧ pinsIn s = true ∧ (bit s.dbg.scopes 1 = true ∨ bit s.dbg.scopes 2 = true)) ∧
  (∃ (c : Byte) (s : State), wfUartRxInput c = true ∧ bit s.dbg.scopes 1 = false ∧ bit s.dbg.scopes 2 = false) ∧
  (∃ (s : State), s.dbg.pinsTaken = true) :=
  ⟨⟨0, by decide +kernel⟩,
   ⟨tokenOne, { enrolled up with dbg := { challenge := some 0x1234 } }, by decide +kernel⟩,
   ⟨List.replicate 256 0, up, by decide +kernel⟩,
   ⟨3, 2 ^ 32 - 1, 0, true, up, by decide +kernel⟩,
   ⟨1, 0, 0, { up with dbg := { scopes := 1 } }, by decide +kernel⟩,
   ⟨0, { up with dbg := { scopes := 4 } }, by decide +kernel⟩,
   ⟨0, up, by decide +kernel⟩,
   ⟨{ up with dbg := { pinsTaken := true } }, by decide +kernel⟩⟩

theorem witness_FramesReceived :
  (∃ (port : Nat) (frame : List Byte) (fcs : BitVec 32) (s : State) (p : _), wfEthFrameReceive port frame fcs true = true ∧
      mget? s.ports port = some p ∧ p.state = 2 ∧ s.phase = .running ∧ fcs.toNat = crcOf 1 frame ∧ macsecOn s port p.octet = false ∧
      64 ≤ frame.length + 4 ∧ frame.length + 4 ≤ p.mtu ∧ atBe frame 12 2 ≠ 0x8808 ∧
      ingressBytes s (pipeOfOctet p.octet) port + frame.length ≤ 65536 ∧ pipeServes s (pipeOfOctet p.octet) = true) ∧
  (∃ (port : Nat) (frame : List Byte) (fcs : BitVec 32) (s : State) (p : _), wfEthFrameReceive port frame fcs true = true ∧
      mget? s.ports port = some p ∧ p.state = 2 ∧ s.phase = .running ∧ fcs.toNat ≠ crcOf 1 frame) ∧
  (∃ (port : Nat) (frame : List Byte) (fcs : BitVec 32) (s : State) (p : _), wfEthFrameReceive port frame fcs false = true ∧
      mget? s.ports port = some p ∧ p.state = 2 ∧ s.phase = .running) ∧
  (∃ (port : Nat) (frame : List Byte) (fcs : BitVec 32) (s : State) (p : _), wfEthFrameReceive port frame fcs true = true ∧
      mget? s.ports port = some p ∧ p.state = 2 ∧ s.phase = .running ∧ fcs.toNat = crcOf 1 frame ∧ macsecOn s port p.octet = false ∧
      (frame.length + 4 < 64 ∨ p.mtu < frame.length + 4)) :=
  ⟨⟨0, List.replicate 60 0, BitVec.ofNat 32 (crcOf 1 (List.replicate 60 0)), eth,
      { octet := 1, width := 8, curWidth := 8, state := 2, admin := true, mtu := 1518 }, by decide +kernel⟩,
   ⟨0, [], 1, eth, { octet := 1, width := 8, curWidth := 8, state := 2, admin := true, mtu := 1518 }, by decide +kernel⟩,
   ⟨0, [], 0, eth, { octet := 1, width := 8, curWidth := 8, state := 2, admin := true, mtu := 1518 }, by decide +kernel⟩,
   ⟨0, List.replicate 59 0, BitVec.ofNat 32 (crcOf 1 (List.replicate 59 0)), eth,
      { octet := 1, width := 8, curWidth := 8, state := 2, admin := true, mtu := 1518 }, by decide +kernel⟩⟩

theorem witness_LowestRuleWins :
  (∃ (s : State) (k : Pkt) (slot r : Nat), mwf (padOf s k.pad).rules = true ∧ classify s k = some (slot, r)) :=
  ⟨ruled, {}, 32767, ruleAll, by decide +kernel, by decide +kernel⟩

theorem witness_EnginesRun :
  (∃ (pipe ok : _), wfPipelineHeaderAccept ⟨pipe, ok⟩ = true) ∧
  (∃ (pipe engine : Nat) (ecc : WordEcc) (ok : _), wfMicroword ⟨pipe, ok⟩ engine ecc = true) ∧
  (∃ (pipe : _) (id : Nat) (kind ok : _), wfMicrocodeOpComplete ⟨pipe, ok⟩ id kind = true) ∧
  (∃ (pipe : _) (s : State) (k rest e : _), mgetD s.pkt.ingress pipe [] = k :: rest ∧ freeEngine s pipe = some e ∧ pipeServes s pipe = true ∧
      overtakes s k = false) ∧
  (∃ (pipe engine : _) (s : State) (c w : _), pickCtx s engine false (ctxsOf s pipe) = some c ∧ c.steps < 256 ∧
      isExport (fetchAddr s c.pkt c.pc) = false ∧ fetchWord s c.pkt (fetchAddr s c.pkt c.pc) = some w) ∧
  (∃ (pipe engine : _) (s : State) (c : _), pickCtx s engine false (ctxsOf s pipe) = some c ∧ c.steps < 256 ∧
      isExport (fetchAddr s c.pkt c.pc) = true) ∧
  (∃ (pipe engine : _) (s : State) (c : _), pickCtx s engine false (ctxsOf s pipe) = some c ∧ 256 ≤ c.steps) ∧
  (∃ (pipe engine : _) (s : State) (c : _), pickCtx s engine false (ctxsOf s pipe) = some c) ∧
  (∃ (pipe id : _) (s : State) (c seed f : _), ctxOp s pipe id 2 = some (c, .hash seed f)) ∧
  (∃ (pipe id : _) (s : State) (c t key : _), ctxOp s pipe id 0 = some (c, .lookup t key)) ∧
  (∃ (l : List Ctx) (c : Ctx) (p : Bool), firstEnded [] l = some (c, p)) ∧
  (∃ (pipe : Nat) (f : State → State) (s : State) (n : Nat),
    let t := f (s.modPkt ({ · with puntCheck := 1 }))
    let u := t.modPkt ({ · with puntCheck := 0 })
    firstEnded [] (ctxsOf t pipe) = none ∧ t.pkt.puntCheck = 1 + n) ∧
  (∃ (pipe : Nat) (f : State → State) (s : State),
    let t := f (s.modPkt ({ · with puntCheck := 0 }))
    firstEnded [] (ctxsOf t pipe) = none ∧ t.pkt.puntCheck = 0) :=
  ⟨⟨0, false, by decide +kernel⟩,
   ⟨0, 0, .clean, false, by decide +kernel⟩,
   ⟨0, 0, 0, false, by decide +kernel⟩,
   ⟨0, { up with pkt := { ingress := [(0, [{}])] } }, {}, [], 0, by decide +kernel⟩,
   ⟨0, 0, engine { pc := 0x4000, steps := 255 }, { pc := 0x4000, steps := 255 }, 0, by decide +kernel⟩,
   ⟨0, 0, engine { pc := 0x3F }, { pc := 0x3F }, by decide +kernel⟩,
   ⟨0, 0, engine { pc := 0x4000, steps := 256 }, { pc := 0x4000, steps := 256 }, by decide +kernel⟩,
   ⟨0, 0, engine { pc := 0x4000 }, { pc := 0x4000 }, by decide +kernel⟩,
   ⟨0, 0, engine { ops := [.hash 0 [1]] }, { ops := [.hash 0 [1]] }, 0, [1], by decide +kernel⟩,
   ⟨0, 0, engine { ops := [.lookup 2 5] }, { ops := [.lookup 2 5] }, 2, 5, by decide +kernel⟩,
   ⟨[{ ending := some true }], { ending := some true }, true, by decide +kernel⟩,
   ⟨0, fun s => s.modPkt (fun p => { p with puntCheck := 2 }), up, 1, by decide +kernel⟩,
   ⟨0, fun s => s, up, by decide +kernel⟩⟩

theorem witness_HostAndEgress :
  (∃ (fid ring : Nat) (d : _) (data : List Byte) (s : State) (r : _), wfHostTxPacket fid ring [d] data true = true ∧ s.reads = [r] ∧
      r.fid = fid ∧ r.purpose = .desc ring ∧ r.dead = false ∧ r.tag.isSome = true ∧ 32 ≤ r.len ∧ (ringOf s fid ring).type = 0 ∧
      (ringOf s fid ring).state = 1 ∧ (ringOf s fid ring).partialDescs = [] ∧
      1 ≤ sub32 (ringOf s fid ring).lastRead (ringOf s fid ring).ci ∧ txEop d.toNat = true ∧
    let u : State := { s with reads := [] }
    (txBad [d.toNat] = true ∨ (data.length = txLen d.toNat ∧ tagRoom u fid = true))) ∧
  (∃ (l0 : Nat) (bufs : List (BitVec 128)) (ok dma : _) (s : State) (c b : _), wfEgressSchedule l0 bufs ok dma = true ∧ s.phase = .running ∧
      l0 < 144 ∧
    let u := purgePort l0 s
    pipeServes u (pipeOfPort u l0) = true ∧ chooseQueue l0 u = some c ∧ stored? u c.copy.pkt = some b) ∧
  (∃ (l0 : Nat) (bufs : List (BitVec 128)) (ok dma : _) (s : State) (c b v : _) (sent : Bool), wfEgressSchedule l0 bufs ok dma = true ∧
      s.phase = .running ∧ 144 ≤ l0 ∧
    let u := purgePort l0 s
    pipeServes u (pipeOfPort u l0) = true ∧ chooseQueue l0 u = some c ∧ stored? u c.copy.pkt = some b ∧
      deliverHost c.queue c.copy b (bufs.map (·.toNat)) ok dma u = .left v sent) ∧
  (∃ (l0 : Nat) (c : Copy) (b : Stored) (s : State) (p : EthPort), pcwGood b.pkt c b.pkt.tenant (mkDest 1 l0) true = true ∧
    mget? s.ports l0 = some p ∧ macsecOn s l0 p.octet = false ∧ b.tsOut = false ∧ (wireBytes s l0 c b.pkt).length + 4 ≤ p.mtu ∧
      c.mirror = true) ∧
  (∃ (q : Nat) (s : State) (c : _), wfDeadlineHeadCheck q = true ∧ (mgetD s.pkt.queues q []).head? = some c ∧ copyLate s q c = true) ∧
  (∃ (ring consumer n : Nat) (s : State) (t : _), wfQueueTelemetrySample ring consumer n = true ∧ s.phase = .running ∧
      mget? s.pkt.telem ring = some t) :=
  ⟨⟨4, 1, BitVec.ofNat 256 (2 ^ 80 + 60 * 2 ^ 64), List.replicate 60 0,
      { ringUp { state := 1, lastRead := 1 } with reads := [{ fid := 4, purpose := .desc 1, tag := some 0, len := 32 }] },
      { fid := 4, purpose := .desc 1, tag := some 0, len := 32 }, by decide +kernel⟩,
   ⟨0, [], false, 0, queued, (chooseQueue 0 (purgePort 0 queued)).get (by decide +kernel), {}, by decide +kernel, by decide +kernel,
      by decide +kernel, by decide +kernel, (Option.some_get _).symm, by decide +kernel⟩,
   ⟨144, [], false, 0, queuedHost, (chooseQueue 144 (purgePort 144 queuedHost)).get (by decide +kernel), {},
      match deliverHost 0 { dest := mkDest 2 0 } {} [] false false (purgePort 144 queuedHost) with | .left v _ => v | _ => up, false,
      by decide +kernel, by decide +kernel, by decide +kernel, by decide +kernel, (Option.some_get _).symm, by decide +kernel, (by rfl)⟩,
   ⟨0, { mirror := true, pcw := pcw 0 0 (mkDest 1 0) (List.replicate 64 0) }, { pkt := { bytes := List.replicate 64 0 } }, eth,
    { octet := 1, width := 8, curWidth := 8, state := 2, admin := true, mtu := 1518 }, by decide +kernel⟩,
   ⟨0, { up with tick := 2, pkt := { queues := [(0, [{}])], padA := { nodes := [(3 * 131072, 2 ^ 36)] } } }, {}, by decide +kernel⟩,
   ⟨0, 0, 8192, { up with pkt := { telem := [(0, {})] } }, {}, by decide +kernel⟩⟩

theorem witness_ActivePadUnchanged :
  (∃ (op : PadOp) (s t : State) (rep : Reply), padApply op s = (t, rep)) :=
  ⟨.parse 1 7, up, _, _, rfl⟩

theorem witness_LeapSwapsPads :
  (∃ (s : State), s.pkt.leap.active ≤ 1) :=
  ⟨up, by decide +kernel⟩

theorem witness_PadWriteCommands :
  (∃ (x : XCall) (r : _) (s : State), leapPending (begun x s) = false ∧ padHeld (begun x s) = false ∧
    let u := begun x s
    let done (t : State) : Host.Outcome State Fault Refusal := .next (replied x r [] t)
    ∃ (port rec : _), Served x 0x0501 r s ∧ wfParseDepthSet x port rec = true ∧ port < 176 ∧ parseRecOk rec.toNat = true ∧
      padInEngines u (shadowBit u) = false) ∧
  (∃ (x : XCall) (r : _) (s : State), leapPending (begun x s) = false ∧ padHeld (begun x s) = false ∧
    let u := begun x s
    let done (t : State) : Host.Outcome State Fault Refusal := .next (replied x r [] t)
    ∃ (port a : _), Served x 0x0502 r s ∧ wfPortDefaultSet x port a = true ∧ port < 176 ∧
    let v := clearBits a.toNat [(25, 7), (52, 12)]
    bits v 6 2 ≠ 3 ∧ padInEngines u (shadowBit u) = false) ∧
  (∃ (x : XCall) (r : _) (s : State), leapPending (begun x s) = false ∧ padHeld (begun x s) = false ∧
    let u := begun x s
    let done (t : State) : Host.Outcome State Fault Refusal := .next (replied x r [] t)
    ∃ (pipes slot e : _), Served x 0x0503 r s ∧ wfRuleWrite x pipes 0 slot e = true ∧ bit r.flags 8 = false ∧ pipes < 512 ∧ slot < 32768 ∧
      ruleBad e.toNat = false ∧ padInEngines u (shadowBit u) = false ∧
      (∀ k ∈ pipesOf pipes, slotUsed (padOf u (shadowBit u)) 0 k slot = false)) ∧
  (∃ (x : XCall) (r : _) (s : State), leapPending (begun x s) = false ∧ padHeld (begun x s) = false ∧
    let u := begun x s
    let done (t : State) : Host.Outcome State Fault Refusal := .next (replied x r [] t)
    ∃ (pipes kind slot : _), Served x 0x0504 r s ∧ wfRuleClear x pipes kind slot = true ∧ bit r.flags 8 = false ∧
      slotFault pipes kind slot = none ∧ padInEngines u (shadowBit u) = false) ∧
  (∃ (x : XCall) (r : _) (s : State), leapPending (begun x s) = false ∧ padHeld (begun x s) = false ∧
    let u := begun x s
    let done (t : State) : Host.Outcome State Fault Refusal := .next (replied x r [] t)
    ∃ (c : _), Served x 0x0601 r s ∧ wfUcodeLoad x c = true ∧ ucodeFault u c = none ∧ padInEngines u (shadowBit u) = false) ∧
  (∃ (x : XCall) (r : _) (s : State), leapPending (begun x s) = false ∧ padHeld (begun x s) = false ∧
    let u := begun x s
    let done (t : State) : Host.Outcome State Fault Refusal := .next (replied x r [] t)
    ∃ (i rec : _), Served x 0x0803 r s ∧ wfPolicerSet x i rec = true ∧ i < 524288 ∧
    let v := clearBits rec.toNat [(5, 27), (160, 96)]
    polMode v ≠ 3 ∧ (polMode v = 1 → polCir v ≤ polPir v) ∧ (callBy x r s).role = 1 ∧ padInEngines u (shadowBit u) = false) ∧
  (∃ (x : XCall) (r : _) (s : State), leapPending (begun x s) = false ∧ padHeld (begun x s) = false ∧
    let u := begun x s
    let done (t : State) : Host.Outcome State Fault Refusal := .next (replied x r [] t)
    ∃ (level rt node cir cbs pir pbs : _), Served x 0x0804 r s ∧ wfShaperSet x level rt node cir cbs pir pbs = true ∧ level < 4 ∧ rt < 2 ∧
      node < levelSize level ∧ (callBy x r s).role = 1 ∧ padBlocked u .copy = false) ∧
  (∃ (x : XCall) (r : _) (s : State), leapPending (begun x s) = false ∧ padHeld (begun x s) = false ∧
    let u := begun x s
    let done (t : State) : Host.Outcome State Fault Refusal := .next (replied x r [] t)
    ∃ (level prio pfc oh weight dl node parent : _), Served x 0x0805 r s ∧
      wfQueueMap x (.node level prio pfc oh weight dl node parent) = true ∧ nodeFault level prio pfc oh weight dl node parent = none ∧
      (callBy x r s).role = 1 ∧ padBlocked u .copy = false) ∧
  (∃ (x : XCall) (r : _) (s : State), leapPending (begun x s) = false ∧ padHeld (begun x s) = false ∧
    let u := begun x s
    let done (t : State) : Host.Outcome State Fault Refusal := .next (replied x r [] t)
    ∃ (count dest base : _), Served x 0x0805 r s ∧ wfQueueMap x (.base count dest base) = true ∧ [1, 2, 4, 8, 16].contains count = true ∧
      destType dest = 1 ∧ destArg dest < 144 ∧ dest < 2 ^ 24 ∧ base + count ≤ 131072 ∧ (callBy x r s).role = 1 ∧
      padInEngines u (shadowBit u) = false) ∧
  (∃ (x : XCall) (r : _) (s : State), leapPending (begun x s) = false ∧ padHeld (begun x s) = false ∧
    let u := begun x s
    let done (t : State) : Host.Outcome State Fault Refusal := .next (replied x r [] t)
    ∃ (n trunc sample q : _), Served x 0x0805 r s ∧ wfQueueMap x (.session n trunc sample q) = true ∧ 1 ≤ n ∧ n ≤ 7 ∧
      (trunc = 0 ∨ (64 ≤ trunc ∧ trunc ≤ 9600)) ∧ sample ≠ 0 ∧ (callBy x r s).role = 1 ∧ padBlocked u .copy = false) ∧
  (∃ (x : XCall) (r : _) (s : State), leapPending (begun x s) = false ∧ padHeld (begun x s) = false ∧
    let u := begun x s
    let done (t : State) : Host.Outcome State Fault Refusal := .next (replied x r [] t)
    ∃ (g rec members : _), Served x 0x0409 r s ∧ wfLbGroupSet x g rec members = true ∧ groupFault g rec members = none ∧ grpMode rec ≠ 2 ∧
      padInEngines u (shadowBit u) = false) ∧
  (∃ (x : XCall) (r : _) (s : State), leapPending (begun x s) = false ∧ padHeld (begun x s) = false ∧
    let u := begun x s
    let done (t : State) : Host.Outcome State Fault Refusal := .next (replied x r [] t)
    Served x 0x0701 r s ∧ wfPadCopy x = true ∧ padBlocked u .copy = false) ∧
  (∃ (x : XCall) (r : _) (s : State), leapPending (begun x s) = false ∧ padHeld (begun x s) = false ∧
    let u := begun x s
    let done (t : State) : Host.Outcome State Fault Refusal := .next (replied x r [] t)
    Served x 0x0704 r s ∧ wfPadDiscard x = true ∧ padBlocked u .copy = false) :=
  ⟨⟨xo, rq 0x0501 0 0, ask 0x0501 0 0 up, by decide +kernel, by decide +kernel, 175, BitVec.ofNat 128 parseReset, served (by decide +kernel),
      by decide +kernel⟩,
   ⟨xo, rq 0x0502 0 0, ask 0x0502 0 0 up, by decide +kernel, by decide +kernel, 175, 0, served (by decide +kernel), by decide +kernel⟩,
   ⟨xo, rq 0x0503 0 0, ask 0x0503 0 0 up, by decide +kernel, by decide +kernel, 511, 32767, BitVec.ofNat 1536 ruleAll,
      served (by decide +kernel), by decide +kernel⟩,
   ⟨xo, rq 0x0504 0 0, ask 0x0504 0 0 up, by decide +kernel, by decide +kernel, 511, 1, 255, served (by decide +kernel), by decide +kernel⟩,
   ⟨xo, rq 0x0601 (0) (0), ask 0x0601 (0) (0) (enrolled up), by decide +kernel, by decide +kernel, { pipes := 1, image := ucodeOne },
      served (by decide +kernel), by decide +kernel⟩,
   ⟨xo, rq 0x0803 0 0, ask 0x0803 0 0 up, by decide +kernel, by decide +kernel, 524287, 0, served (by decide +kernel), by decide +kernel⟩,
   ⟨xo, rq 0x0804 0 0, ask 0x0804 0 0 up, by decide +kernel, by decide +kernel, 3, 1, 131071, 0, 0, 0, 0, served (by decide +kernel),
      by decide +kernel⟩,
   ⟨xo, rq 0x0805 0 0, ask 0x0805 0 0 up, by decide +kernel, by decide +kernel, 3, 7, 7, 63, 4095, 1000, 131071, 131071,
      served (by decide +kernel), by decide +kernel⟩,
   ⟨xo, rq 0x0805 0 0, ask 0x0805 0 0 up, by decide +kernel, by decide +kernel, 16, mkDest 1 143, 131056, served (by decide +kernel),
      by decide +kernel⟩,
   ⟨xo, rq 0x0805 0 0, ask 0x0805 0 0 up, by decide +kernel, by decide +kernel, 7, 9600, 65535, 131071, served (by decide +kernel),
      by decide +kernel⟩,
   ⟨xo, rq 0x0409 0 0, ask 0x0409 0 0 up, by decide +kernel, by decide +kernel, 16383, 4 + 16 + 65536, [65536 * 0 + 2 ^ 20],
      served (by decide +kernel), by decide +kernel⟩,
   ⟨xo, rq 0x0701 0 0, ask 0x0701 0 0 up, by decide +kernel, by decide +kernel, served (by decide +kernel), by decide +kernel⟩,
   ⟨xo, rq 0x0704 0 0, ask 0x0704 0 0 up, by decide +kernel, by decide +kernel, served (by decide +kernel), by decide +kernel⟩⟩

theorem witness_PadLeapAndReads :
  (∃ (x : XCall) (r : _) (s : State) (expect time : Nat), Served x 0x0702 r s ∧ wfPadLeap x 0 expect time = true ∧ expect = leapGen s ∧
      s.pkt.leap.shadow ≠ 0 ∧ leapPending s = false ∧ padHeld (begun x s) = false) ∧
  (∃ (x : XCall) (r : _) (s : State) (expect time : Nat), Served x 0x0702 r s ∧ wfPadLeap x 1 expect time = true ∧ expect = leapGen s ∧
      s.pkt.leap.shadow ≠ 0 ∧ leapPending s = false ∧ padHeld (begun x s) = false ∧ s.time + 10000 ≤ time ∧ time ≤ s.time + 3600 * 10 ^ 9) ∧
  (∃ (x : XCall) (r : _) (s : State) (expect time : Nat), Served x 0x0702 r s ∧ wfPadLeap x 2 expect time = true ∧ expect = leapGen s ∧
      s.pkt.leap.shadow ≠ 0 ∧ leapPending s = false ∧ padHeld (begun x s) = false ∧ s.time + 1000000 ≤ time ∧
      time ≤ s.time + 3600 * 10 ^ 9 ∧ s.chain.state = 2) ∧
  (∃ (x : XCall) (r : _) (s : State) (mode expect time : Nat), Served x 0x0702 r s ∧ wfPadLeap x mode expect time = true ∧ mode ≤ 2 ∧
      bit r.flags 9 = false ∧ padHeld (begun x s) = false ∧ (expect ≠ leapGen s ∨ s.pkt.leap.shadow = 0 ∨ leapPending s = true)) ∧
  (∃ (spread : Nat) (s : State) (t : _), wfTimedLeapTrigger spread = true ∧ s.pkt.leap.pending = some t) ∧
  (∃ (m : MbxId) (r i op : _) (s : State) (st d p h n t : _), wfPadWriteResume m false = true ∧ (mbxOf s m).cur = some (r, .padWrite i op) ∧
      op.shadowOnly = true ∧ (padWaits s).any (· < i) = false ∧ leapPending s = false ∧ padBlocked s op = false ∧
      padApply op s = (t, .done st d p h n)) ∧
  (∃ (m : MbxId) (r i op : _) (s : State), wfPadWriteResume m true = true ∧ (mbxOf s m).cur = some (r, .padWrite i op) ∧
      op.shadowOnly = true ∧ (padWaits s).any (· < i) = false ∧ padBlocked s op = true) ∧
  (∃ (m : MbxId) (r i op : _) (out : Bool) (s : State), wfPadWriteResume m out = true ∧ (mbxOf s m).cur = some (r, .padWrite i op) ∧
      s.ghosts.all (fun g => g.1 ≠ m) = true ∧ (padWaits s).any (· < i) = true) ∧
  (∃ (x : XCall) (r : _) (s : State), Served x 0x0703 r s ∧ wfPadState x = true) ∧
  (∃ (x : XCall) (r : _) (s : State) (pipe pad slot : Nat), Served x 0x0505 r s ∧ wfRuleRead x pipe pad 0 slot = true ∧ pipe < 9 ∧ pad < 2 ∧
      slot < 32768 ∧ ruleLost (ruleRec (padOf s pad) pipe slot) = false) ∧
  (∃ (x : XCall) (r : _) (s : State) (pipes slot : Nat) (e : BitVec 1536), Served x 0x0503 r s ∧ wfRuleWrite x pipes 0 slot e = true ∧
      bit r.flags 8 = true ∧ pipes < 512 ∧ slot < 32768 ∧ ruleBad e.toNat = false ∧ padHeld (begun x s) = false ∧
      bits (ruleWord e.toNat 42) 0 8 = 0 ∧ (∀ k ∈ pipesOf pipes, slotUsed s.pkt.padA 0 k slot = false ∧
      slotUsed s.pkt.padB 0 k slot = false)) ∧
  (∃ (x : XCall) (r : _) (s : State) (i : Nat) (key : List Byte), Served x 0x0602 r s ∧ wfUcodeKeyEnrol x i 0 key = true ∧ i < 4) ∧
  (∃ (x : XCall) (r : _) (s : State) (pipe pad : Nat), Served x 0x0603 r s ∧ wfUcodeInfo x pipe pad = true ∧ pipe < 9 ∧ pad < 2) ∧
  (∃ (x : XCall) (r : _) (s : State) (pipe pad : Nat), Served x 0x0604 r s ∧ wfUcodePatchState x pipe pad = true ∧ pipe < 9 ∧ pad < 2) :=
  ⟨⟨xo, rq 0x0702 0 0, ask 0x0702 0 0 up, 0, 0, served (by decide +kernel), by decide +kernel⟩,
   ⟨xo, rq 0x0702 0 0, ask 0x0702 0 0 up, 0, 10000, served (by decide +kernel), by decide +kernel⟩,
   ⟨xo, rq 0x0702 (0) (0), ask 0x0702 (0) (0) (chainUp), 0, 3600 * 10 ^ 9, served (by decide +kernel), by decide +kernel⟩,
   ⟨xo, rq 0x0702 0 0, ask 0x0702 0 0 up, 0, 1, 0, served (by decide +kernel), by decide +kernel⟩,
   ⟨0, { up with time := 5, pkt := { leap := { pending := some 5 } } }, 5, by decide +kernel⟩,
   ⟨.fn 0, rq 0 0 0, 0, .copy, waits (.padWrite 0 .copy) up, 0, 0, [], 0, 1, (padApply .copy (waits (.padWrite 0 .copy) up)).1,
      by decide +kernel⟩,
   ⟨.fn 0, rq 0 0 0, 0, .copy, waits (.padWrite 0 .copy) { up with pkt := { ctxs := [(0, [{ pkt := { pad := 1 } }])] } }, by decide +kernel⟩,
   ⟨.fn 0, rq 0 0 0, 1, .copy, false, waits (.padWrite 1 .copy) { up with mbxs := [(2048, { cur := some (rq 0 0 0, .padWrite 0 .copy) })] },
      by decide +kernel⟩,
   ⟨xo, rq 0x0703 0 0, ask 0x0703 0 0 up, served (by decide +kernel), by decide +kernel⟩,
   ⟨xo, rq 0x0505 0 0, ask 0x0505 0 0 up, 0, 0, 0, served (by decide +kernel), by decide +kernel⟩,
   ⟨xo, rq 0x0503 (256) (0), ask 0x0503 (256) (0) up, 511, 32767, 0, served (by decide +kernel), by decide +kernel⟩,
   ⟨xo, rq 0x0602 0 0, ask 0x0602 0 0 up, 3, List.replicate 96 1, served (by decide +kernel), by decide +kernel⟩,
   ⟨xo, rq 0x0603 0 0, ask 0x0603 0 0 up, 8, 1, served (by decide +kernel), by decide +kernel⟩,
   ⟨xo, rq 0x0604 0 0, ask 0x0604 0 0 up, 8, 1, served (by decide +kernel), by decide +kernel⟩⟩

theorem witness_TableCommands :
  (∃ (x : XCall) (r : _) (s : State) (pipes i : Nat) (v : _), Served x 0x0401 r s ∧ wfTblInsert x 1 pipes i (.record v) = true ∧ i < 1048576 ∧
      (callBy x r s).role = 1) ∧
  (∃ (x : XCall) (r : _) (s : State) (pipes i : Nat) (v t : _), Served x 0x0401 r s ∧ wfTblInsert x 2 pipes i (.record v) = true ∧
      pipes < 512 ∧
    let n := entryClean 2 v.toNat
    entryOk 2 (.record v) = true ∧ (callBy x r s).role = 1 ∧ tenantFault (begun x s) 2 n = none ∧
      insertAll 2 n (entryPipes 2 pipes n) (begun x s) = (t, true)) ∧
  (∀ u t, Served xo 0x0401 (rq 0x0401 0 0) u → (callBy xo (rq 0x0401 0 0) u).role = 1 →
      insertAll 2 (entryClean 2 (BitVec.toNat (0 : BitVec 512))) (entryPipes 2 1 (entryClean 2 (BitVec.toNat (0 : BitVec 512)))) (begun xo u) = (t, false) →
    ∃ (x : XCall) (r : _) (s : State) (pipes i : Nat) (v t : _), Served x 0x0401 r s ∧ wfTblInsert x 2 pipes i (.record v) = true ∧
      pipes < 512 ∧
    let n := entryClean 2 v.toNat
    entryOk 2 (.record v) = true ∧ (callBy x r s).role = 1 ∧ tenantFault (begun x s) 2 n = none ∧
      insertAll 2 n (entryPipes 2 pipes n) (begun x s) = (t, false)) ∧
  (∃ (x : XCall) (r : _) (s : State) (table pipes i : Nat) (e : TblEntry), Served x 0x0401 r s ∧ wfTblInsert x table pipes i e = true ∧
      (callBy x r s).role = 2 ∧ ownerTable table = true) ∧
  (∃ (x : XCall) (r : _) (s : State) (pipes i : Nat) (v : _), Served x 0x0402 r s ∧ wfTblDelete x 1 pipes i (.record v) = true ∧ i < 1048576 ∧
      (callBy x r s).role = 1 ∧ (mget? s.pkt.vns i).isSome = true) ∧
  (∃ (x : XCall) (r : _) (s : State) (pipe i : Nat) (v n : _), Served x 0x0403 r s ∧ wfTblLookup x 2 pipe i (.record v) = true ∧ pipe < 9 ∧
      (callBy x r s).role = 1 ∧ (tblOf s 2 pipe).find l2Kind (keyOf l2Kind v.toNat) = some n) ∧
  (∃ (x : XCall) (r : _) (s : State) (pipe i : Nat) (v : _), Served x 0x0403 r s ∧ wfTblLookup x 1 pipe i (.record v) = true ∧ pipe < 9 ∧
      i < 1048576 ∧ (callBy x r s).role = 1 ∧ mget? s.pkt.vns i = none) ∧
  (∃ (x : XCall) (r : _) (s : State) (pipe value cursor : Nat), Served x 0x0404 r s ∧ wfTblIter x 2 pipe 1 0 value cursor = true ∧ pipe < 9 ∧
      (callBy x r s).role = 1) ∧
  (∃ (x : XCall) (r : _) (s : State) (value : Nat), Served x 0x0405 r s ∧ wfTblFlush x 3 0 0 value = true ∧ (callBy x r s).role = 1) ∧
  (∃ (x : XCall) (r : _) (s : State), Served x 0x0406 r s ∧ wfTblRehash x 3 0 = true ∧ bit r.flags 10 = false ∧ s.pkt.flow.old = none) ∧
  (∃ (x : XCall) (r : _) (s : State) (port : Nat), Served x 0x0203 r s ∧ wfPortStats x port 0 = true ∧ port < 144 ∧ (callBy x r s).role = 1) ∧
  (∃ (x : XCall) (r : _) (s : State) (port : Nat), Served x 0x0203 r s ∧ wfPortStats x port 1 = true ∧ port < 176 ∧ (callBy x r s).role = 1) :=
  ⟨⟨xo, rq 0x0401 0 0, ask 0x0401 0 0 up, 0, 0, 0, served (by decide +kernel), by decide +kernel⟩,
   ⟨xo, rq 0x0401 (0) (0), ask 0x0401 (0) (0) ({ up with pkt := { l2 := [(0, { slots := [(0, 0)] })] } }), 1, 0, BitVec.ofNat 512 0,
      (insertAll 2 0 [0] (begun xo (ask 0x0401 0 0 { up with pkt := { l2 := [(0, { slots := [(0, 0)] })] } }))).1,
      served (by decide +kernel), by decide +kernel, by decide +kernel, by decide +kernel, by decide +kernel, by decide +kernel,
      by decide +kernel⟩,
   fun u t hs hr hi => ⟨xo, rq 0x0401 0 0, u, 1, 0, 0, t, hs, by decide +kernel, by decide +kernel, by decide +kernel, hr,
      (by have e : entryFn 2 (entryClean 2 0) = none := (by decide +kernel); simp [tenantFault, e]), hi⟩,
   ⟨{ mbx := .fn 2048 }, rq 0x0401 0 0,
      (ask 0x0401 0 0 up).modMbx (.fn 2048) ({ · with state := 1, enable := true, queue := [rq 0x0401 0 0] }), 1, 1, 0, .record 0,
      served (by decide +kernel), by decide +kernel⟩,
   ⟨xo, rq 0x0402 (0) (0), ask 0x0402 (0) (0) ({ up with pkt := { vns := [(1048575, 1)] } }), 0, 1048575, 0, served (by decide +kernel),
      by decide +kernel⟩,
   ⟨xo, rq 0x0403 (0) (0), ask 0x0403 (0) (0) ({ up with pkt := { l2 := [(8, { slots := [(0, 0)] })] } }), 8, 0, 0, 0,
      served (by decide +kernel), by decide +kernel⟩,
   ⟨xo, rq 0x0403 0 0, ask 0x0403 0 0 up, 0, 0, 0, served (by decide +kernel), by decide +kernel⟩,
   ⟨xo, rq 0x0404 0 0, ask 0x0404 0 0 up, 0, 0, 0, served (by decide +kernel), by decide +kernel⟩,
   ⟨xo, rq 0x0405 0 0, ask 0x0405 0 0 up, 0, served (by decide +kernel), by decide +kernel⟩,
   ⟨xo, rq 0x0406 0 0, ask 0x0406 0 0 up, served (by decide +kernel), by decide +kernel⟩,
   ⟨xo, rq 0x0203 0 0, ask 0x0203 0 0 up, 0, served (by decide +kernel), by decide +kernel⟩,
   ⟨xo, rq 0x0203 0 0, ask 0x0203 0 0 up, 0, served (by decide +kernel), by decide +kernel⟩⟩

theorem witness_LearningAndGroups :
  (∃ (x : XCall) (r : _) (s : State) (src excess share limit : Nat), Served x 0x0407 r s ∧ wfLearnConfig x src 0 excess share limit = true ∧
      src < 144 ∧ excess < 2 ∧ share < 2 ∧ limit ≤ 262144) ∧
  (∃ (x : XCall) (r : _) (s : State) (ageS us n : Nat), Served x 0x0408 r s ∧ wfAgingConfig x 3 0 ageS us n = true ∧ ageS ≤ 1000000 ∧
      100 ≤ us ∧ us ≤ 100000 ∧ 256 ≤ n ∧ n ≤ 65536 ∧ popcount 20 n = 1) ∧
  (∃ (pipe : Nat), wfLearnServiceEvent pipe = true) ∧
  (∃ (pipe : _) (s : State) (e rest : _), learnServiceUp s = true ∧ mgetD (takeFallback s).pkt.learnQ pipe [] = e :: rest ∧
      ∃ (y : _), (tblOf (takeFallback s) 2 pipe).find l2Kind (l2Key e.mac e.vn) = some y ∧ l2Static y = true) ∧
  (∃ (pipe : Nat) (n : Option Nat) (s : State), wfAgingSlice 3 pipe n = true ∧ (agingOf s 9).ageS ≠ 0 ∧ s.phase = .running) ∧
  (∃ (pipe : Nat) (n : Option Nat) (s : State), wfAgingSlice 3 pipe n = true ∧ (agingOf s 9).ageS = 0) ∧
  (∃ (table pipe : Nat), wfRehashDone table pipe = true) ∧
  (∃ (table pipe : _) (s : State), (tblOf s table (lookPipe table pipe)).old = none) ∧
  (∃ (g pipe b : Nat), wfFlowletGapExpire g pipe b = true) ∧
  (∃ (g pipe b : _) (s : State), (grpOf s s.pkt.leap.active g).members ≠ [] ∧ grpMode (grpOf s s.pkt.leap.active g).record = 1 ∧
      bucketIdle s g pipe b (grpGap (grpOf s s.pkt.leap.active g).record) = true ∧ (hwOf s g pipe).old = none) ∧
  (∃ (g : Nat) (s : State) (m : _), wfLbImbalanceWindow g = true ∧ mget? s.pkt.mon g = some m ∧ m.armed = true) ∧
  (∃ (x : XCall) (r : _) (s : State) (g ratio windows rotate : Nat), Served x 0x040A r s ∧ wfLbMonitor x g 1 ratio windows rotate = true ∧
      g < 16384 ∧ (grpOf s s.pkt.leap.active g).members ≠ [] ∧ grpMode (grpOf s s.pkt.leap.active g).record ≠ 2) ∧
  (∃ (unit stream : Nat), wfSprayReseqTimeout unit stream = true) ∧
  (∃ (key : _) (s : State), oldestHeld (mgetD s.pkt.sprayRx key {}) = none) ∧
  (∃ (unit stream : Nat) (s : State) (c : _), wfSprayContextIdle unit stream = true ∧ mget? s.pkt.sprayRx (unit * 65536 + stream) = some c ∧
      c.held = []) :=
  ⟨⟨xo, rq 0x0407 0 0, ask 0x0407 0 0 up, 0, 0, 0, 0, served (by decide +kernel), by decide +kernel⟩,
   ⟨xo, rq 0x0408 0 0, ask 0x0408 0 0 up, 1000000, 100000, 65536, served (by decide +kernel), by decide +kernel⟩,
   ⟨0, by decide +kernel⟩,
   ⟨0, { up with pkt := { learnQ := [(0, [{ mac := 1, vn := 0, host := false, src := 0 }])], l2 := [(0, { slots := [(0, 1 + 2 ^ 69)] })] }, skk := { parts := [(1, { running := true })] } }, { mac := 1, vn := 0, host := false, src := 0 }, [], by decide +kernel, by decide +kernel, 1 + 2 ^ 69, by decide +kernel⟩,
   ⟨0, none, up, by decide +kernel⟩,
   ⟨0, none, { up with pkt := { aging := [(9, { ageS := 0 })] } }, by decide +kernel⟩,
   ⟨0, 0, by decide +kernel⟩,
   ⟨0, 0, up, by decide +kernel⟩,
   ⟨0, 0, 0, by decide +kernel⟩,
   ⟨0, 0, 0, { up with pkt := { padA := { groups := [(0, { record := 4 + 16 + 65536, members := [0] })] } } }, by decide +kernel⟩,
   ⟨0, { up with pkt := { mon := [(0, { armed := true })] } }, { armed := true }, by decide +kernel⟩,
   ⟨xo, rq 0x040A (0) (0),
      ask 0x040A (0) (0) ({ up with pkt := { padA := { groups := [(0, { record := 4 + 16 + 65536, members := [0] })] } } }), 0, 0, 0, 0,
      served (by decide +kernel), by decide +kernel⟩,
   ⟨0, 0, by decide +kernel⟩,
   ⟨0, up, by decide +kernel⟩,
   ⟨0, 0, { up with pkt := { sprayRx := [(0, {})] } }, {}, by decide +kernel⟩⟩

theorem witness_BufferCommands :
  (∃ (x : XCall) (r : _) (s : State) (pool : Nat) (rec : BitVec 64), Served x 0x0801 r s ∧ wfPoolConfig x pool rec = true ∧ pool < 64 ∧
      poolOk rec.toNat = true ∧ poolType rec.toNat = poolType (poolRec (begun x s) pool) ∧
    let t := (begun x s).modPkt (fun p => { p with pools := mput p.pools pool (clearBits rec.toNat [(36, 28)]) })
    cellsFit t = true) ∧
  (∃ (x : XCall) (r : _) (s : State) (pool lossless id min headroom : Nat), Served x 0x0802 r s ∧
      wfReserveSet x 0 pool lossless id min headroom = true ∧ pool < 64 ∧ poolType (poolRec (begun x s) pool) = 0 ∧ lossless < 2 ∧
      id < 1152 ∧ min ≤ 1048576 ∧ headroom ≤ 1048576 ∧
    let t := (begun x s).modOwner (ownerKey 0 id) (fun w => { w with
        pool := some pool, min := some min, lossless := lossless = 1, headroom := headroom })
    cellsFit t = true) ∧
  (∃ (x : XCall) (r : _) (s : State) (ring log2 iv count ra ia : Nat) (qs : List Nat), Served x 0x0806 r s ∧
      wfQueueSampleConfig x ring log2 iv count ra ia qs = true ∧ ring < 16 ∧ 1 ≤ count ∧ count ≤ 8192 ∧ 12 ≤ log2 ∧ log2 ≤ 20 ∧ 1 ≤ iv ∧
      iv ≤ 1000 ∧ (∀ q ∈ qs, q < 131072) ∧ (callBy x r s).role = 1 ∧
    let m := mput s.pkt.telem ring { log2, interval := iv, ringAddr := ra, indexAddr := ia, fid := (callBy x r s).fid, queues := qs }
    (sampleLoad m).1 ≤ 256 * (sampleLoad m).2) ∧
  (∃ (x : XCall) (r : _) (s : State) (q : Nat), Served x 0x0807 r s ∧ wfQueueStats x q = true ∧ q < 131072 ∧ (callBy x r s).role = 1) :=
  ⟨⟨xo, rq 0x0801 0 0, ask 0x0801 0 0 up, 1, BitVec.ofNat 64 (8 * 2 ^ 22 + 12 * 2 ^ 26), served (by decide +kernel), by decide +kernel⟩,
   ⟨xo, rq 0x0802 0 0, ask 0x0802 0 0 up, 0, 0, 0, 0, 0, served (by decide +kernel), by decide +kernel⟩,
   ⟨xo, rq 0x0806 0 0, ask 0x0806 0 0 up, 15, 20, 1000, 64, 0, 0, List.replicate 64 131071, served (by decide +kernel), by decide +kernel⟩,
   ⟨xo, rq 0x0807 0 0, ask 0x0807 0 0 up, 0, served (by decide +kernel), by decide +kernel⟩⟩

theorem witness_NvmeFrontEnd :
  (∃ (f : _) (v : Nat) (s : State), wfNvmeCcEnable (.fid f) v = true ∧ bit v 0 = true ∧ isNvme s f = true ∧ barOn s f = true) ∧
  (∃ (f : _) (v : Nat) (s : State), wfNvmeCcDisable (.fid f) v = true ∧ bit v 0 = false ∧ isNvme s f = true ∧ barOn s f = true) ∧
  (∃ (f : _) (v : Nat) (s : State), wfNvmeCcShutdown (.fid f) v = true ∧ bits v 14 2 ≠ 0 ∧ isNvme s f = true ∧ barOn s f = true) ∧
  (∃ (p n : _) (v : Nat) (s : State), wfNvmeCcEnable (.unprov p 2 n) v = true ∧ bit v 0 = true ∧ (hostPort s p).linkUp = true ∧
      s.phase = .running ∧ unprovThere s p 2 n = true ∧ (unprovOf s p 2 n).fn.mse = true) ∧
  (∃ (f q v : Nat) (s : State), wfNvmeSqDoorbell f q v = true ∧ isNvme s f = true ∧ barOn s f = true) ∧
  (∃ (f q v : Nat) (s : State), wfNvmeCqDoorbell f q v = true ∧ isNvme s f = true ∧ barOn s f = true) ∧
  (∃ (f q : Nat) (e : BitVec 512) (lists : List (List Byte)) (mdl : List Byte) (rs : List (Nat × Nat)) (s : State), wfNvmeCommandFetch f q e lists mdl rs true = true ∧ canFetch s f q = true) ∧
  (∃ (f q : Nat) (e : BitVec 512) (lists : List (List Byte)) (mdl : List Byte) (rs : List (Nat × Nat)) (dma : _) (s : State), wfNvmeCommandFetch f q e lists mdl rs dma = true ∧ canFetch s f q = false) ∧
  (∃ (f q : Nat) (cid dma : _) (s : State) (c : _), wfNvmeCommandStart f q ⟨cid, dma⟩ = true ∧
      cmdIn s f q cid (fun c => c.phase = .fetched && !c.admin && [1, 2, 5, 8, 9].contains c.opc) = some c ∧ c.fuse ≠ 2 ∧ isHalf c = false ∧
      (c.opc = 9 → c.ad = true)) ∧
  (∃ (c : _) (s : State), volAnswer s c = none ∧ (c.opc = 8 ∨ c.opc = 9) ∧ c.pair = none) ∧
  (∃ (f q : Nat) (cid dma : _) (s : State) (c : _), wfNvmePostingPoint f q ⟨cid, dma⟩ = true ∧
      cmdIn s f q cid (fun c => c.phase = .done && c.after.all (fun a => (cmd? s a).isNone)) = some c ∧ (ctrlOf s f).fenced = false ∧
      (ctrlOf s f).rdy = true ∧ canIssue s f = true ∧ cqRoom (cqOf s f (sqOf s f q).cq) = true ∧ (sqOf s f q).fenced = false) ∧
  (∃ (f q : Nat) (s : State), wfNvmeCoalescingTimeExpire f q = true ∧ (cqOf s f q).held ≠ 0) ∧
  (∃ (f q : Nat) (s : State), wfNvmeCoalescingTimeExpire f q = true ∧ (cqOf s f q).held = 0) ∧
  (∃ (f q : Nat) (e : BitVec 512) (lists : List (List Byte)) (mdl : List Byte) (rs : List (Nat × Nat)) (s : State), wfNvmeCommandFetch f q e lists mdl rs false = true ∧ canFetch s f q = true) :=
  ⟨⟨5, 1, up, by decide +kernel⟩,
   ⟨5, 0, up, by decide +kernel⟩,
   ⟨5, 2 ^ 14, up, by decide +kernel⟩,
   ⟨0, 7, 1, { up with unprov := [(unprovKey 0 2 7, { fn := { pf := 2, vf := 7, mse := true } })] }, by decide +kernel⟩,
   ⟨5, 0, 65535, up, by decide +kernel⟩,
   ⟨5, 0, 0, up, by decide +kernel⟩,
   ⟨5, 1, 0, [], [], [], nv, by decide +kernel⟩,
   ⟨0, 0, 0, [], [], [], 0, up, by decide +kernel⟩,
   ⟨5, 1, 0, 0, inAir [io 8 .fetched], io 8 .fetched, by decide +kernel⟩,
   ⟨io 8 .fetched, nv, by decide +kernel⟩,
   ⟨5, 1, 0, 0, inAir [io 2 .done], io 2 .done, by decide +kernel⟩,
   ⟨5, 1, nv.modCq 5 1 ({ · with held := 1 }), by decide +kernel⟩,
   ⟨0, 0, up, by decide +kernel⟩,
   ⟨5, 1, 0, [], [], [], nv, by decide +kernel⟩⟩

theorem witness_NvmeAdmin :
  (∃ (f cid : Nat) (s : State) (c : _), wfNvmeCreateIoSq f cid = true ∧ adminTurn s f cid (· = 1) = some c ∧
    let q := bits (c.cdw 10) 0 16
    let cq := bits (c.cdw 11) 16 16
    q ≠ 0 ∧ q ≤ (grantsOf s f).nvmeQp ∧ mget? (ctrlOf s f).sqs q = none ∧ 1 ≤ bits (c.cdw 10) 16 16 ∧ cq ≠ 0 ∧
      (mget? (ctrlOf s f).cqs cq).isSome = true ∧ bit (c.cdw 11) 0 = true) ∧
  (∃ (f cid : Nat) (s : State) (c : _), wfNvmeCreateIoCq f cid = true ∧ adminTurn s f cid (· = 5) = some c ∧
    let q := bits (c.cdw 10) 0 16
    q ≠ 0 ∧ q ≤ (grantsOf s f).nvmeQp ∧ mget? (ctrlOf s f).cqs q = none ∧ bit (c.cdw 11) 0 = true ∧ 1 ≤ bits (c.cdw 10) 16 16 ∧
      bits (c.cdw 11) 16 16 ≤ 128) ∧
  (∃ (f cid : Nat) (s : State) (c : _), wfNvmeDeleteIoCq f cid = true ∧ adminTurn s f cid (· = 4) = some c ∧
    let q := bits (c.cdw 10) 0 16
    q ≠ 0 ∧ (mget? (ctrlOf s f).cqs q).isSome = true ∧ (ctrlOf s f).sqs.any (·.2.cq = q) = false) ∧
  (∃ (f cid : Nat) (s : State) (c : _), wfNvmeDeleteIoSq f cid = true ∧ adminTurn s f cid (· = 0) = some c ∧
    let q := bits (c.cdw 10) 0 16
    q ≠ 0 ∧ (mget? (ctrlOf s f).sqs q).isSome = true ∧ (sqOf s f q).deleting = false ∧ (inFlight s f).filter (·.sqid = q) = []) ∧
  (∃ (f cid : Nat) (s : State) (c : _), wfNvmeAsyncEventRequest f cid = true ∧ adminTurn s f cid (· = 0xC) = some c ∧
      (ctrlOf s f).aers.length < 4) ∧
  (∃ (f cid : Nat) (s : State) (c d g : _), wfNvmeSetFeatures f cid = true ∧ adminTurn s f cid (· = 9) = some c ∧ bit (c.cdw 10) 31 = false ∧
      featSet s f (bits (c.cdw 10) 0 8) (c.cdw 11) = .ok (d, g)) ∧
  (∃ (f cid : Nat) (s : State) (c d : _), wfNvmeGetFeatures f cid = true ∧ adminTurn s f cid (· = 0xA) = some c ∧ bits (c.cdw 10) 8 3 = 0 ∧
      featGet s f (bits (c.cdw 10) 0 8) (c.cdw 11) = some d) ∧
  (∃ (f cid : Nat) (s : State) (c p : _), wfNvmeIdentify f cid = true ∧ adminTurn s f cid (· = 6) = some c ∧
      identify s f (bits (c.cdw 10) 0 8) c.nsid (bits (c.cdw 11) 24 8) = .ok p) ∧
  (∃ (f cid : Nat) (s : State) (c p u : _), wfNvmeGetLogPage f cid = true ∧ adminTurn s f cid (· = 2) = some c ∧
      logPage s f (bits (c.cdw 10) 0 8) = some (p, u) ∧ c.cdw 12 + 2 ^ 32 * c.cdw 13 ≤ p.length ∧ bit (c.cdw 10) 15 = true) ∧
  (∃ (f cid : Nat) (s : State) (c : _), wfNvmeAdminUnsupported f cid = true ∧ adminTurn s f cid (fun o => !adminKnown o) = some c) ∧
  (∃ (f cid : Nat) (s : State) (a : _), wfNvmeAbort f cid = true ∧ cmdIn s f 0 cid (fun c => c.opc = 8 && c.phase = .fetched) = some a ∧
      (ctrlOf s f).rdy = true ∧ (ctrlOf s f).fenced = false ∧
      cmdIn s f (bits (a.cdw 10) 0 16) (bits (a.cdw 10) 16 16) (·.seq ≠ a.seq) = none) ∧
  (∃ (f cid : Nat) (s : State) (a c : _), wfNvmeAbort f cid = true ∧ cmdIn s f 0 cid (fun c => c.opc = 8 && c.phase = .fetched) = some a ∧
      (ctrlOf s f).rdy = true ∧ (ctrlOf s f).fenced = false ∧
      cmdIn s f (bits (a.cdw 10) 0 16) (bits (a.cdw 10) 16 16) (·.seq ≠ a.seq) = some c ∧ abortable c = true ∧ pairSent s c = false) :=
  ⟨⟨5, 0, inAir [adm 1 (8 + 65536) (1 + 65536)], adm 1 (8 + 65536) (1 + 65536), by decide +kernel⟩,
   ⟨5, 0, inAir [adm 5 (8 + 65535 * 65536) (3 + 128 * 65536)], adm 5 (8 + 65535 * 65536) (3 + 128 * 65536), by decide +kernel⟩,
   ⟨5, 0, inAir [adm 4 2 0], adm 4 2 0, by decide +kernel⟩,
   ⟨5, 0, inAir [adm 0 1 0], adm 0 1 0, by decide +kernel⟩,
   ⟨5, 0, inAir [adm 0xC 0 0], adm 0xC 0 0, by decide +kernel⟩,
   ⟨5, 0, inAir [adm 9 0xC1 1], adm 9 0xC1 1, 0, fun f => f, by decide +kernel, by decide +kernel, by decide +kernel, (by rfl)⟩,
   ⟨5, 0, inAir [adm 0xA 4 0], adm 0xA 4 0, 378, by decide +kernel⟩,
   ⟨5, 0, inAir [adm 6 1 0], adm 6 1 0, idController (inAir [adm 6 1 0]) 5, by decide +kernel, by decide +kernel, (by rfl)⟩,
   ⟨5, 0, inAir [adm 2 (3 + 2 ^ 15 + 127 * 65536) 0], adm 2 (3 + 2 ^ 15 + 127 * 65536) 0,
      pageOf 512 [(0, [1]), (8, fwText (inAir [adm 2 (3 + 2 ^ 15 + 127 * 65536) 0]))], inAir [adm 2 (3 + 2 ^ 15 + 127 * 65536) 0],
      by decide +kernel, by decide +kernel, (by rfl), by decide +kernel⟩,
   ⟨5, 0, inAir [adm 0x7F 0 0], adm 0x7F 0 0, by decide +kernel⟩,
   ⟨5, 0, inAir [adm 8 (1 + 65535 * 65536) 0], adm 8 (1 + 65535 * 65536) 0, by decide +kernel⟩,
   ⟨5, 0, inAir [io 2 .fetched, { adm 8 1 0 with seq := 1 }], { adm 8 1 0 with seq := 1 }, io 2 .fetched, by decide +kernel⟩⟩

theorem witness_NvmeIo :
  (∃ (f q cid : Nat) (s : State) (c : _), wfNvmeFlush f q cid = true ∧ ioCmd s f q cid 0 .fetched = some c ∧ c.fuse = 0 ∧ ordOk s c = true ∧
      s.sto.cmds.any (flushWaits s c) = false) ∧
  (∃ (f q cid : Nat) (s : State) (c k : _), wfNvmeFlush f q cid = true ∧ ioCmd s f q cid 0 .fetched = some c ∧ k ∈ s.sto.cmds ∧
      flushWaits s c k = true) ∧
  (∃ (f q cid : Nat) (d m : List Byte) (s : State) (c : _), wfNvmeWrite f q cid d m = true ∧ ioCmd s f q cid 1 .started = some c ∧
      c.fuse = 0 ∧ dataDue s c = true ∧ dataOk c d m = true) ∧
  (∃ (f q cid : Nat) (s : State) (c : _), wfNvmeRead f q cid = true ∧ ioCmd s f q cid 2 .started = some c) ∧
  (∃ (f q cid : Nat) (d m : List Byte) (s : State) (c : _), wfNvmeCompare f q cid d m = true ∧ ioCmd s f q cid 5 .started = some c ∧
      c.fuse = 0 ∧ dataDue s c = true ∧ dataOk c d m = true ∧
    let t := readIssue c ((readEnd c s).modCmd c.seq (fun k => { k with data := d, md := m }))
    ((cmd? t c.seq).map (·.phase)) ≠ some .started) ∧
  (∃ (f q cid : Nat) (s : State) (c : _), wfNvmeWriteZeroes f q cid = true ∧ ioCmd s f q cid 8 .started = some c) ∧
  (∃ (f q cid : Nat) (s : State) (c : _), wfNvmeDatasetManagement f q cid = true ∧ ioCmd s f q cid 9 .started = some c ∧ c.ranges ≠ []) ∧
  (∃ (f q cid : Nat) (s : State) (c : _), wfNvmeDatasetManagement f q cid = true ∧ ioCmd s f q cid 9 .started = some c ∧ c.ranges = []) ∧
  (∃ (f q cid : Nat) (s : State) (c : _), wfNvmeDatasetManagement f q cid = true ∧ ioCmd s f q cid 9 .started = none ∧
      ioCmd s f q cid 9 .fetched = some c ∧ c.ad = false ∧ c.fuse = 0 ∧ ordOk s c = true) ∧
  (∃ (f q cid : Nat) (d m wd wm : List Byte) (s : State) (c w : _), wfNvmeFusedCompareWrite f q cid d m wd wm = true ∧
      ioCmd s f q cid 5 .started = some c ∧ c.pair.bind (cmd? s) = some w ∧ c.fuse = 1 ∧ dataDue s c = true ∧ dataDue s w = true ∧
      dataOk c d m = true ∧ dataOk w wd wm = true ∧ writeBad w wd wm = none ∧
    let md16 := (List.range w.nlb).flatMap (fun i => blockMd w i wd wm)
    let t := readIssue c (((readEnd w (readEnd c s)).modCmd c.seq (fun k => { k with data := d, md := m })).modCmd w.seq
        (fun k => { k with data := wd, md := md16, pcws := writePcws s w wd }))
    ((cmd? t c.seq).map (·.phase)) ≠ some .started) ∧
  (∃ (f q cid : Nat) (s : State) (c : _), wfNvmeIoUnsupported f q cid = true ∧ q ≠ 0 ∧
      cmdIn s f q cid (fun c => c.phase = .fetched && c.fuse = 0 && !ioKnown c.opc) = some c) :=
  ⟨⟨5, 1, 0, inAir [io 0 .fetched], io 0 .fetched, by decide +kernel⟩,
   ⟨5, 1, 0, inAir [io 1 .started, { io 0 .fetched with seq := 1 }], { io 0 .fetched with seq := 1 }, io 1 .started, by decide +kernel⟩,
   ⟨5, 1, 0, List.replicate 4096 0, [], inAir [io 1 .started], io 1 .started, by decide +kernel⟩,
   ⟨5, 1, 0, inAir [io 2 .started], io 2 .started, by decide +kernel⟩,
   ⟨5, 1, 0, List.replicate 4096 0, [],
      (inAir [io 5 .started]).modSto ({ · with vols := [(0, { size := 1024, tenant := 7, reps := [], state := 2 })] }), io 5 .started,
      by decide +kernel⟩,
   ⟨5, 1, 0, inAir [io 8 .started], io 8 .started, by decide +kernel⟩,
   ⟨5, 1, 0, inAir [io 9 .started], io 9 .started, by decide +kernel⟩,
   ⟨5, 1, 0, inAir [{ io 9 .started with ranges := [] }], { io 9 .started with ranges := [] }, by decide +kernel⟩,
   ⟨5, 1, 0, inAir [io 9 .fetched], io 9 .fetched, by decide +kernel⟩,
   ⟨5, 1, 0, List.replicate 4096 0, [], List.replicate 4096 0, [],
      { (inAir [{ io 5 .started with fuse := 1, pair := some 1 }, { io 1 .started with seq := 1, cid := 1, fuse := 2, pair := some 0 }]).modSto ({ · with vols := [(0, { size := 1024, tenant := 7, reps := [], state := 2 })] }) with reads := [{ tag := some 0, fid := 5, purpose := .nvme 1 0, len := 4096 }, { tag := some 1, fid := 5, purpose := .nvme 1 1, len := 4096 }] }, { io 5 .started with fuse := 1, pair := some 1 }, { io 1 .started with seq := 1, cid := 1, fuse := 2, pair := some 0 }, by decide +kernel⟩,
   ⟨5, 1, 0, inAir [io 0x7F .fetched], io 0x7F .fetched, by decide +kernel⟩⟩

theorem witness_VolumeService :
  (∃ (f q cid : Nat) (s : State) (c : _), wfIntentRecordTake f q cid = true ∧ cmdIn s f q cid (·.phase = .intent) = some c ∧
      domServes s .storage = true) ∧
  (∃ (c : NvCmd) (s : State) (v n : _), vol? s c.vol = some v ∧ v.primary.isSome = true ∧ storageHeld s = false ∧
    let reps := (List.range v.reps.length).filter (fun i => (v.rep i).state ≠ 1)
    (∀ i ∈ reps, backReady s (v.rep i).backend = true) ∧ leastBelow 65536 (fun i => (mget? s.sto.intents i).isNone) = some n) ∧
  (∃ (tag : Nat) (good d : _) (s : State) (b : _), wfBackendResponse tag good d = true ∧
      s.sto.bcmds.find? (fun b => b.tag = tag && b.out) = some b) ∧
  (∃ (b : Nat) (p : PduIn) (s : State), wfBackendPduReceive b p = true ∧ backReady s b = true ∧ pipeServes s (pipeOfPort s p.port) = true) ∧
  (∃ (p : PduIn), hdgstOk p.bytes = false) ∧
  (∃ (p : PduIn), hdgstOk p.bytes = true ∧ ddgstOk p.bytes = true) ∧
  (∃ (p : PduIn), hdgstOk p.bytes = true ∧ ddgstOk p.bytes = false ∧ at8 p.bytes 0 ≠ 7) ∧
  (∃ (b : Nat) (s : State), wfBackendTimeout b = true ∧ backReady s b = true ∧ outlived s b = true) ∧
  (∃ (b : Nat) (s : State), wfBackendTimeout b = true ∧ outlived s b = false) ∧
  (∃ (b : Nat) (s : State), wfBackendConnectionLost b = true ∧ backReady s b = true) ∧
  (∃ (b : Nat) (l : Link) (s : State), wfBackendReconnect b (some l) = true ∧ (mget? s.sto.backs b).isSome = true ∧ (backOf s b).state = 2) ∧
  (∃ (b : Nat) (s : State), wfBackendReconnect b none = true ∧ (mget? s.sto.backs b).isSome = true ∧ (backOf s b).state = 2) ∧
  (∃ (h failed : Nat) (d : List Byte), wfReconcileChunkDone h failed d = true) ∧
  (∃ (h : _) (s : State) (v p n r : _), vol? s h = some v ∧ v.primary = some p ∧ (openRecs s h v).head? = some (n, r) ∧ v.state = 1 ∧
      copyRoom s v [p] (min 512 (r.nlb - v.copied)) = true ∧ (v.repsIn 0).filter (· ≠ p) = []) ∧
  (∃ (h lba failed : Nat) (d : List Byte), wfRebuildChunkDone h lba failed d = true) ∧
  (∃ (h lba failed : _) (s : State) (v e p : _), vol? s h = some v ∧ v.chunks.find? (·.1 = lba) = some e ∧ v.primary = some p ∧
      chunkFree s h lba (min 512 (v.size - lba)) e.2 = true ∧ copyRoom s v (p :: v.repsIn 2) (min 512 (v.size - lba)) = true ∧
      bit failed p = true ∧ v.pace ≤ s.tick) :=
  ⟨⟨5, 1, 0, inAir [io 8 .intent], io 8 .intent, by decide +kernel⟩,
   ⟨io 8 .intent, inAir [io 8 .intent], { size := 1024, tenant := 7, reps := [{}], state := 2 }, 0, by decide +kernel⟩,
   ⟨0, true, [], nv.modSto ({ · with bcmds := [{ out := true }] }), { out := true }, by decide +kernel⟩,
   ⟨0, {}, nv, by decide +kernel⟩,
   ⟨{ bytes := List.replicate 8 1 }, by decide +kernel⟩,
   ⟨{ bytes := [0, 1, 8, 0, 8, 0, 0, 0] ++ leBytes 4 (crcOf 0 [0, 1, 8, 0, 8, 0, 0, 0]) }, by decide +kernel⟩,
   ⟨{ bytes := [0, 3, 8, 12, 20, 0, 0, 0] ++ leBytes 4 (crcOf 0 [0, 3, 8, 12, 20, 0, 0, 0]) ++ [1, 2, 3, 4, 0, 0, 0, 0] }, by decide +kernel⟩,
   ⟨0, { nv with tick := 2 ^ 40, sto := { nv.sto with bcmds := [{ backend := 0, out := true }] } }, by decide +kernel⟩,
   ⟨0, up, by decide +kernel⟩,
   ⟨0, nv, by decide +kernel⟩,
   ⟨0, {}, nv.modSto ({ · with backs := [(0, { state := 2 })] }), by decide +kernel⟩,
   ⟨0, nv.modSto ({ · with backs := [(0, { state := 2 })] }), by decide +kernel⟩,
   ⟨0, 0, [], by decide +kernel⟩,
   ⟨0, nv.modSto ({ · with vols := [(0, { size := 1024, reps := [{}], state := 1 })], intents := [(9, { crc := ({} : Intent).sum })] }),
      { size := 1024, reps := [{}], state := 1 }, 0, 9, { crc := ({} : Intent).sum }, by decide +kernel⟩,
   ⟨0, 0, 0, [], by decide +kernel⟩,
   ⟨0, 512, 1, nv.modSto ({ · with vols := [(0, { size := 1024, reps := [{}], state := 2, chunks := [(512, 0)] })] }),
      { size := 1024, reps := [{}], state := 2, chunks := [(512, 0)] }, (512, 0), 0, by decide +kernel⟩⟩

theorem witness_VolumeCommands :
  (∃ (x : XCall) (r : _) (s : State) (h tenant slot size opts : Nat) (reps : List (Nat × Nat)), Served x 0x0901 r s ∧
      wfVolCreate x h tenant slot size opts reps = true ∧
    let u := begun x s
    volBad h slot size opts reps = none ∧ backAbsent u reps = none ∧ vol? u h = none ∧ reps.any (extentTaken u size) = false ∧
      (∀ p ∈ reps, backReady u p.1 = true ∧ p.2 + size ≤ (backOf u p.1).info.blocks) ∧ (keySlot u slot).type ≠ 0 ∧
      (keySlot u slot).tenant = tenant) ∧
  (∃ (x : XCall) (r : _) (s : State) (h : Nat), Served x 0x0902 r s ∧ wfVolDestroy x h = true ∧ (vol? (begun x s) h).isSome = true ∧
      volAttached s h = false ∧ s.sto.intents.any (fun e => e.2.vol = h && e.2.good) = false) ∧
  (∃ (x : XCall) (r : _) (s : State) (h f nsid fmt pi : Nat) (v : _), Served x 0x0903 r s ∧ wfVolAttach x h f nsid fmt pi 0 = true ∧
      vol? (begun x s) h = some v ∧ (fn? s f).isSome = true ∧ isNvme s f = true ∧ nsid ≠ 0 ∧ nsid ≤ 4096 ∧ fmt % 16 ≤ 2 ∧ fmt < 32 ∧
      pi ≤ 3 ∧ (pi = 0 ∨ fmt % 16 ≠ 0) ∧ tenantOf (begun x s) f = v.tenant ∧ mget? s.sto.nss (f * 65536 + nsid) = none) ∧
  (∃ (x : XCall) (r : _) (s : State) (h f nsid fmt pi mask : Nat) (v : _), Served x 0x0903 r s ∧ wfVolAttach x h f nsid fmt pi mask = true ∧
      mask ≠ 0 ∧ vol? (begun x s) h = some v ∧ v.primary.isSome = true ∧
    let reps := (List.range 8).filter (fun i => bit mask i)
    (∀ i ∈ reps, i < v.reps.length ∧ i ∈ rebuildable (begun x s) v)) ∧
  (∃ (x : XCall) (r : _) (s : State) (h f : Nat), Served x 0x0904 r s ∧ wfVolDetach x h f = true ∧ (∃ e ∈ s.sto.nss, e.1 / 65536 = f ∧
      e.2.vol = h) ∧ s.sto.cmds = []) ∧
  (∃ (x : XCall) (r : _) (s : State) (c : BackCfg) (found : BackFound) (b : _) (l : Link), Served x 0x0905 r s ∧
      wfBackendAdd x c found = true ∧ backBadField c = false ∧ backFree (begun x s) = some b ∧ found.link = some l ∧
      backReason found = none ∧ c.home ≠ 0xFF) ∧
  (∃ (x : XCall) (r : _) (s : State) (c : BackCfg) (found : BackFound) (b : _), Served x 0x0905 r s ∧ wfBackendAdd x c found = true ∧
      backBadField c = false ∧ backFree (begun x s) = some b ∧ found.link = none) ∧
  (∃ (x : XCall) (r : _) (s : State) (c : BackCfg) (found : BackFound) (b : _) (l : Link) (n : _), Served x 0x0905 r s ∧
      wfBackendAdd x c found = true ∧ backBadField c = false ∧ backFree (begun x s) = some b ∧ found.link = some l ∧
      backReason found = some n) ∧
  (∃ (x : XCall) (r : _) (s : State) (b : Nat), Served x 0x0906 r s ∧ wfBackendState x b = true ∧ bit r.flags 11 = false ∧
      (mget? s.sto.backs b).isSome = true) ∧
  (∃ (x : XCall) (r : _) (s : State) (b : Nat), Served x 0x0906 r s ∧ wfBackendState x b = true ∧ bit r.flags 11 = true ∧
      (callBy x r s).role = 1 ∧ (mget? s.sto.backs b).isSome = true ∧ backHeld s b = []) ∧
  (∃ (x : XCall) (r : _) (s : State) (h : Nat) (v : _), Served x 0x0907 r s ∧ wfVolReconcileState x h = true ∧ vol? s h = some v) :=
  ⟨⟨xo, rq 0x0901 (0) (0),
      ask 0x0901 (0) (0) ({ nv with sto := { nv.sto with vols := [] }, cip := { slots := [(0, { type := 1, tenant := 9 })] } }), 4095, 9, 0,
      2 ^ 34, 3, [(0, 0)], served (by decide +kernel), by decide +kernel⟩,
   ⟨xo, rq 0x0902 (0) (0), ask 0x0902 (0) (0) (nv.modSto ({ · with nss := [] })), 0, served (by decide +kernel), by decide +kernel⟩,
   ⟨xo, rq 0x0903 (0) (0), ask 0x0903 (0) (0) (nv), 0, 5, 4096, 18, 3, { size := 1024, tenant := 7, reps := [{}], state := 2 },
      served (by decide +kernel), by decide +kernel⟩,
   ⟨xo, rq 0x0903 (0) (0),
      ask 0x0903 (0) (0) (nv.modSto ({ · with vols := [(0, { size := 1024, reps := [{}, { backend := 1, state := 1 }] })], backs := [(1, { state := 1 })] })), 0, 0, 0, 0, 0, 2, { size := 1024, reps := [{}, { backend := 1, state := 1 }] }, served (by decide +kernel), by decide +kernel⟩,
   ⟨xo, rq 0x0904 (0) (0), ask 0x0904 (0) (0) (nv), 0, 5, served (by decide +kernel), by decide +kernel⟩,
   ⟨xo, rq 0x0905 (0) (0), ask 0x0905 (0) (0) (nv), { port := 4420, l3 := 2, queues := 16, home := 8, nqn := List.replicate 224 0 },
      { link := some {}, mdts := 5, oncs := 8, awupf := 31, nsze := 2 ^ 18, lbafs := [(12, 16)] }, 1, {}, served (by decide +kernel),
      by decide +kernel⟩,
   ⟨xo, rq 0x0905 (0) (0), ask 0x0905 (0) (0) (nv), { port := 4420, l3 := 2, queues := 16, home := 8, nqn := List.replicate 224 0 }, {}, 1,
      served (by decide +kernel), by decide +kernel⟩,
   ⟨xo, rq 0x0905 (0) (0), ask 0x0905 (0) (0) (nv), { port := 4420, l3 := 2, queues := 16, home := 8, nqn := List.replicate 224 0 },
      { link := some {} }, 1, {}, 1, served (by decide +kernel), by decide +kernel⟩,
   ⟨xo, rq 0x0906 (0) (0), ask 0x0906 (0) (0) (nv), 0, served (by decide +kernel), by decide +kernel⟩,
   ⟨xo, rq 0x0906 (2048) (0), ask 0x0906 (2048) (0) (nv.modSto ({ · with vols := [] })), 0, served (by decide +kernel), by decide +kernel⟩,
   ⟨xo, rq 0x0907 (0) (0), ask 0x0907 (0) (0) (nv), 0, { size := 1024, tenant := 7, reps := [{}], state := 2 }, served (by decide +kernel),
      by decide +kernel⟩⟩

theorem witness_KeyCommands :
  (∃ (x : XCall) (r : _) (s : State) (slot wrap type usage tenant : Nat) (m key : List Byte), Served x 0x0A01 r s ∧
      wfKeyLoad x slot wrap type usage tenant m = true ∧ keyLoadBad slot wrap type usage r.plen m.length = none ∧ (callBy x r s).role = 1 ∧
      alarmLatched (begun x s) = false ∧ (keySlot (begun x s) slot).type = 0 ∧ (wrap = 2 ^ 32 - 1 ∨ (slotOpens (begun x s) wrap = true ∧
      (keySlot (begun x s) wrap).type = 6 ∧ bit (keySlot (begun x s) wrap).usage 6 = true ∧
      (keySlot (begun x s) wrap).owner = keyHolder (begun x s) slot)) ∧ keyMaterial (begun x s) wrap type m = some key ∧ wrap = 2 ^ 32 - 1) ∧
  (cipherOk 9 (List.replicate 32 7) [] [] (List.replicate 24 7) [] = true →
    ∃ (x : XCall) (r : _) (s : State) (slot wrap type usage tenant : Nat) (m key : List Byte), Served x 0x0A01 r s ∧
      wfKeyLoad x slot wrap type usage tenant m = true ∧ keyLoadBad slot wrap type usage r.plen m.length = none ∧ (callBy x r s).role = 1 ∧
      alarmLatched (begun x s) = false ∧ (keySlot (begun x s) slot).type = 0 ∧ (wrap = 2 ^ 32 - 1 ∨ (slotOpens (begun x s) wrap = true ∧
      (keySlot (begun x s) wrap).type = 6 ∧ bit (keySlot (begun x s) wrap).usage 6 = true ∧
      (keySlot (begun x s) wrap).owner = keyHolder (begun x s) slot)) ∧ keyMaterial (begun x s) wrap type m = some key ∧ wrap ≠ 2 ^ 32 - 1) ∧
  (∃ (x : XCall) (r : _) (s : State) (slot wrap type usage tenant : Nat) (m : List Byte), Served x 0x0A01 r s ∧
      wfKeyLoad x slot wrap type usage tenant m = true ∧ keyLoadBad slot wrap type usage r.plen m.length = none ∧ (callBy x r s).role = 1 ∧
      alarmLatched (begun x s) = true) ∧
  (∃ (x : XCall) (r : _) (s : State) (slot : Nat), Served x 0x0A02 r s ∧ wfKeyErase x slot = true ∧ slot < 262144 ∧ (callBy x r s).role = 1 ∧
      (keySlot (begun x s) slot).type ≠ 0 ∧ (keyInUse (begun x s) slot = true → bit r.flags 9 = true) ∧
      keyLatched (forceErase slot (begun x s)) slot = false ∧ (keySlot (forceErase slot (begun x s)) slot).erasing = false) ∧
  (∃ (x : XCall) (r : _) (s : State) (slot : Nat), Served x 0x0A02 r s ∧ wfKeyErase x slot = true ∧ slot < 262144 ∧ (callBy x r s).role = 1 ∧
      (keySlot (begun x s) slot).type ≠ 0 ∧ keyInUse (begun x s) slot = true ∧ bit r.flags 9 = false) ∧
  (∃ (slot : Nat) (s : State), wfKeyEraseComplete slot = true ∧ (keySlot s slot).erasing = true ∧ keyLatched s slot = false) ∧
  (∃ (slot : Nat) (s : State), wfKeyEraseComplete slot = true ∧ keyLatched s slot = true) ∧
  (∃ (slot tag : _) (s : State) (q : _), wfKeyCacheFill ⟨slot, tag⟩ = true ∧ q ∈ s.cip.reqs ∧ q.cls ≠ 3 ∧ q.slot = slot ∧ q.waits = true ∧
      cached s slot = false ∧ domServes s .keyStore = true ∧ (keySlot s slot).type ≠ 0) ∧
  (∃ (x : XCall) (r : _) (s : State), Served x 0x0A07 r s ∧ wfKekRotate x = true ∧ bit r.flags 10 = false ∧ alarmLatched (begun x s) = false ∧
      rotating (begun x s) = false) ∧
  (∃ (x : XCall) (r : _) (s : State), Served x 0x0A07 r s ∧ wfKekRotate x = true ∧ bit r.flags 10 = true) ∧
  (∃ (s : State), s.cip.walking = true ∧ domServes s .keyStore = true ∧
    let old := s.cip.slots.filter (fun e => e.2.type ≠ 0 && !e.2.bad && e.2.kgen ≠ s.cip.kgen)
    (old = [] ∨ (controlTurn 262144 (128 * old.length) s).1 = true)) :=
  ⟨⟨xo, rq 0x0A01 (0) (32), ask 0x0A01 (0) (32) up, 0, 2 ^ 32 - 1, 1, 1, 0, List.replicate 16 7, List.replicate 16 7,
      served (by decide +kernel), by decide +kernel⟩,
   fun hc => ⟨xo, rq 0x0A01 (0) (40),
      ask 0x0A01 (0) (40) ({ up with cip := { slots := [(1, { type := 6, usage := 64, key := List.replicate 32 7 })], kek := some 0 } }), 0,
      1, 1, 1, 0, List.replicate 24 7, fit 16 (cipherRun 9 (List.replicate 32 7) [] [] (List.replicate 24 7)), served (by decide +kernel),
      by decide +kernel, by decide +kernel, by decide +kernel, by decide +kernel, by decide +kernel, by decide +kernel,
      (by show (if cipherOk 9 (List.replicate 32 7) [] [] (List.replicate 24 7) [] then some _ else none) = _; rw [if_pos hc]; rfl),
      by decide +kernel⟩,
   ⟨xo, rq 0x0A01 (0) (32), ask 0x0A01 (0) (32) ({ up with cip := { sources := 1 } }), 0, 2 ^ 32 - 1, 1, 1, 0, List.replicate 16 7,
      served (by decide +kernel), by decide +kernel⟩,
   ⟨xo, rq 0x0A02 (0) (0), ask 0x0A02 (0) (0) (keys { type := 1 } []), 0, served (by decide +kernel), by decide +kernel⟩,
   ⟨xo, rq 0x0A02 (0) (0),
      ask 0x0A02 (0) (0) ({ (keys { type := 1 } []) with cip := { slots := [(0, { type := 1 })], sas := [(1, { slot := 0 })] } }), 0,
      served (by decide +kernel), by decide +kernel⟩,
   ⟨0, keys { type := 1, erasing := true } [], by decide +kernel⟩,
   ⟨0, keys { type := 1 } [{ unit := some 3 }], by decide +kernel⟩,
   ⟨0, 0, keys { type := 1 } [{}], {}, by decide +kernel⟩,
   ⟨xo, rq 0x0A07 0 0, ask 0x0A07 0 0 up, served (by decide +kernel), by decide +kernel⟩,
   ⟨xo, rq 0x0A07 (1024) (0), ask 0x0A07 (1024) (0) up, served (by decide +kernel), by decide +kernel⟩,
   ⟨{ up with cip := { walking := true } }, by decide +kernel⟩⟩

theorem witness_CipherRequests :
  (∃ (id : Nat) (hw : Bool) (bad : Option Nat) (ok : _), wfCipherRequestComplete id hw ⟨bad, ok⟩ = true) ∧
  (∃ (id : Nat) (s : State) (r : CipherReq), s.cip.reqs.find? (·.id = id) = some r ∧ r.status = none ∧ r.unit.isSome = true ∧
      reqPaused s r = false) ∧
  (∃ (id : Nat) (s : State) (r : CipherReq), s.cip.reqs.find? (·.id = id) = some r ∧ reqPaused s r = true) ∧
  (∃ (id : _) (hw : Bool) (s : State) (r : _) (st : Nat), s.cip.reqs.find? (·.id = id) = some r ∧ r.status = some st ∧
      (hw = true ∨ reqPaused s r = false)) ∧
  (∃ (id : _) (s : State) (r : _) (u : Nat), s.cip.reqs.find? (·.id = id) = some r ∧ r.status = none ∧ r.unit = some u) ∧
  (∃ (id ok : _) (s : State) (r : _), wfCipherBusyTimeout ⟨id, ok⟩ = true ∧ s.cip.reqs.find? (·.id = id) = some r ∧ r.cls = 0 ∧
      r.unit = none ∧ r.status = none) ∧
  (∃ (id ok : _) (s : State) (r : _), wfCipherBusyTimeout ⟨id, ok⟩ = true ∧ s.cip.reqs.find? (·.id = id) = some r ∧ r.unit.isSome = true) ∧
  (∃ (x : XCall) (r : _) (s : State) (c : SaCfg) (n : Nat) (v : State), Served x 0x0A03 r s ∧ wfSaCreate x c = true ∧
    let u := begun x s
    let k := keySlot u c.slot
    saBad u c = none ∧ (callBy x r s).role = 1 ∧ alarmLatched u = false ∧ k.type ≠ 0 ∧ k.erasing = false ∧
      bit k.usage (if c.kind < 2 then 0 else 1) = true ∧ k.tenant = c.tenant ∧ (k.type = 1 ↔ suite128 c.suite = true) ∧
      saNumber u c k.owner = some n ∧ (c.kind < 2 ∧ v = u ∨ 2 ≤ c.kind ∧
      secKeyIn c.octet (mbxControl (callBy x r s).fid) c.slot u = (.there, v))) ∧
  (∃ (octet slot : Nat) (s : State), elasticOn s (.macsec octet) = true ∧ domServes s .keyStore = true ∧ cached s slot = true) ∧
  (∃ (octet : Nat) (s : State), elasticOn s (.macsec octet) = false) ∧
  (∃ (x : XCall) (r : _) (s : State) (n : Nat), Served x 0x0A04 r s ∧ wfSaState x n = true ∧ (callBy x r s).role = 1 ∧
      (mget? (begun x s).cip.sas n).isSome = true ∧ bit r.flags 11 = false) ∧
  (∃ (x : XCall) (r : _) (s : State) (n : Nat), Served x 0x0A04 r s ∧ wfSaState x n = true ∧ (callBy x r s).role = 1 ∧
      (mget? (begun x s).cip.sas n).isSome = true ∧ bit r.flags 11 = true) :=
  ⟨⟨0, false, none, false, by decide +kernel⟩,
   ⟨0, { up with cip := { reqs := [{ unit := some 0 }] } }, { unit := some 0 }, by decide +kernel⟩,
   ⟨0, { up with cip := { reqs := [{ unit := some 9 }] } }, { unit := some 9 }, by decide +kernel⟩,
   ⟨0, false, keys { type := 1 } [{ status := some 7 }], { status := some 7 }, 7, by decide +kernel⟩,
   ⟨0, keys { type := 1 } [{ unit := some 3 }], { unit := some 3 }, 3, by decide +kernel⟩,
   ⟨0, false, keys { type := 1 } [{}], {}, by decide +kernel⟩,
   ⟨0, false, keys { type := 1 } [{ unit := some 3 }], { unit := some 3 }, by decide +kernel⟩,
   ⟨xo, rq 0x0A03 (0) (0), ask 0x0A03 (0) (0) (keys { type := 1, usage := 1 } []), {}, 0,
      begun xo (ask 0x0A03 0 0 (keys { type := 1, usage := 1 } [])), served (by decide +kernel), by decide +kernel, by decide +kernel,
      by decide +kernel, by decide +kernel, by decide +kernel, by decide +kernel, by decide +kernel, by decide +kernel, by decide +kernel,
      by decide +kernel, (Or.inl ⟨by decide, rfl⟩)⟩,
   ⟨0, 0, { up with pow := { elastic := [((Consumer.macsec 0).key, 1)] }, cip := { cache := [0] } }, by decide +kernel⟩,
   ⟨0, up, by decide +kernel⟩,
   ⟨xo, rq 0x0A04 (0) (0), ask 0x0A04 (0) (0) ({ up with cip := { sas := [(0, {})] } }), 0, served (by decide +kernel), by decide +kernel⟩,
   ⟨xo, rq 0x0A04 (2048) (0), ask 0x0A04 (2048) (0) ({ up with cip := { sas := [(0, {})] } }), 0, served (by decide +kernel),
      by decide +kernel⟩⟩

theorem witness_CipherAlarm :
  (∃ (ns : Nat) (low : Bool) (s : State), wfAlarmNAssert ns low = true ∧ pinsIn s = true ∧ 100 ≤ ns ∧ s.phase ≠ .inReset) ∧
  (∃ (ns : Nat) (low : Bool) (s : State), wfAlarmNAssert ns low = true ∧ pinsIn s = true ∧ ns < 100) ∧
  (∃ (rail : GuardedRail) (p ns : Nat) (s : State), wfSupplyGlitch rail p ns = true ∧ 120 < p ∧ 5 ≤ ns ∧ s.phase ≠ .inReset) ∧
  (∃ (rail : GuardedRail) (p ns : Nat), wfSupplyGlitch rail p ns = true ∧ (p ≤ 120 ∨ ns < 5)) ∧
  (∃ (i tj : Nat) (s : State), wfTjThresholdCross i tj = true ∧ 388 ≤ tj ∧ s.phase ≠ .inReset) ∧
  (∃ (src : Nat) (s : State), src < 5 ∧ alarmLatched s = false) ∧
  (∃ (src : Nat) (s : State), src < 5 ∧ alarmLatched s = true) ∧
  (∃ (x : XCall) (r : _) (s : State), Served x 0x0A05 r s ∧ wfAlarmState x = true) ∧
  (∃ (x : XCall) (r : _) (s : State), Served x 0x0A06 r s ∧ wfAlarmClear x = true ∧ sourcesHeld s ≠ []) ∧
  (∃ (x : XCall) (r : _) (s : State), Served x 0x0A06 r s ∧ wfAlarmClear x = true ∧ sourcesHeld s = []) :=
  ⟨⟨100, true, up, by decide +kernel⟩,
   ⟨99, true, up, by decide +kernel⟩,
   ⟨.core, 121, 5, up, by decide +kernel⟩,
   ⟨.core, 121, 4, by decide +kernel⟩,
   ⟨0, 398, up, by decide +kernel⟩,
   ⟨0, up, by decide +kernel⟩,
   ⟨0, { up with cip := { sources := 1 } }, by decide +kernel⟩,
   ⟨xo, rq 0x0A05 0 0, ask 0x0A05 0 0 up, served (by decide +kernel), by decide +kernel⟩,
   ⟨xo, rq 0x0A06 (0) (0), ask 0x0A06 (0) (0) ({ up with pins := { sysRstN := true, alarmLow := true } }), served (by decide +kernel),
      by decide +kernel⟩,
   ⟨xo, rq 0x0A06 0 0, ask 0x0A06 0 0 up, served (by decide +kernel), by decide +kernel⟩⟩

theorem witness_CheckValueContexts :
  (∃ (x : XCall) (r : _) (s : State) (i : Nat), Served x 0x1201 r s ∧ wfCkvCtxRead x i = true ∧ i < 264192 ∧ (callBy x r s).role = 1) ∧
  (∃ (x : XCall) (r : _) (s : State) (i : Nat) (v : BitVec 256), Served x 0x1202 r s ∧ wfCkvCtxWrite x i v = true ∧ i < 264192 ∧
      (callBy x r s).role = 1 ∧ ckvAlg v.toNat ≤ 3 ∧ ckvStage v.toNat ≤ 6 ∧ ckvTenant v.toNat = ckvTenant (ckvOf (begun x s) i) ∧
      ckvFrozen (ckvOf s i) = true) ∧
  (∃ (x : XCall) (r : _) (s : State) (i : Nat) (v : BitVec 256), Served x 0x1202 r s ∧ wfCkvCtxWrite x i v = true ∧ i < 264192 ∧
      (callBy x r s).role = 1 ∧ ckvAlg v.toNat ≤ 3 ∧ ckvStage v.toNat ≤ 6 ∧ ckvTenant v.toNat = ckvTenant (ckvOf (begun x s) i) ∧
      ckvFrozen (ckvOf s i) = false) ∧
  (∃ (i j : Nat), j ≠ i) :=
  ⟨⟨xo, rq 0x1201 0 0, ask 0x1201 0 0 up, 0, served (by decide +kernel), by decide +kernel⟩,
   ⟨xo, rq 0x1202 (0) (0), ask 0x1202 (0) (0) ({ up with cip := { ckv := [(0, 16)] } }), 0, 0, served (by decide +kernel), by decide +kernel⟩,
   ⟨xo, rq 0x1202 0 0, ask 0x1202 0 0 up, 0, 0, served (by decide +kernel), by decide +kernel⟩,
   ⟨0, 1, by decide +kernel⟩⟩

theorem witness_ChannelInstructions :
  (∃ (s : State) (tid : _), (threadOf s tid).stepping = false) ∧
  (∃ (s : State) (core slot v : Nat), v = bits (slotsOf s core) (4 * slot) 4 ∧ 8 ≤ v ∧ threadReady s (core * 8 + v % 8) = true) ∧
  (∃ (s : State) (core slot t : _), slotThread s core slot = some t) ∧
  (∃ (s : State) (tid : Nat) (n : _), slotsTo s tid = some n) ∧
  (∃ (tid i w : Nat) (s : State), wfChWr tid i w = true ∧ canRun s tid = true) ∧
  (∃ (tid i w : Nat) (s : State), wfChWr tid i w = true ∧ canRun s tid = false) ∧
  (∃ (tid ch n rd : Nat) (nb : _) (s : State) (q : Machine.Part), wfChCmt tid ch n rd nb = true ∧ canRun s tid = true ∧
      part? s (partOfChan s ch) = some q ∧ mayCommit s tid ch = true ∧ q.running = true ∧ chanRoom s ch = true ∧ (chanOf s ch).commits = []) ∧
  (∃ (tid ch n rd : Nat) (s : State) (q : Machine.Part), wfChCmt tid ch n rd true = true ∧ canRun s tid = true ∧
      part? s (partOfChan s ch) = some q ∧ mayCommit s tid ch = true ∧ q.running = true ∧ chanRoom s ch = false) ∧
  (∃ (tid ch n rd : Nat) (s : State) (q : Machine.Part), wfChCmt tid ch n rd false = true ∧ canRun s tid = true ∧
      part? s (partOfChan s ch) = some q ∧ mayCommit s tid ch = true ∧ q.running = true ∧ chanRoom s ch = false) ∧
  (∃ (tid ch n rd : Nat) (nb : _) (s : State) (q : Machine.Part), wfChCmt tid ch n rd nb = true ∧ canRun s tid = true ∧
      part? s (partOfChan s ch) = some q ∧ mayCommit s tid ch = true ∧ q.running = false) ∧
  (∃ (tid : Nat) (s : State) (ch n rd : Nat), wfChCmtResume tid = true ∧ coreIssues s tid = true ∧ (threadOf s tid).state = 3 ∧
      (threadOf s tid).wait = some (.commit ch n rd) ∧ chanRoom s ch = true ∧ (chanOf s ch).commits.head? = some tid) ∧
  (∃ (tid ch rd : Nat) (s : State), wfChRd tid ch rd = true ∧ canRun s tid = true ∧ (rd < 10 ∨ 17 < rd) ∧ (partOf s tid).owns ch = true ∧
      (chanOf s ch).msgs ≠ []) ∧
  (∃ (tid ch rd : Nat) (s : State), wfChRd tid ch rd = true ∧ canRun s tid = true ∧ (rd < 10 ∨ 17 < rd) ∧ (partOf s tid).owns ch = true ∧
      (chanOf s ch).msgs = []) ∧
  (∃ (tid ch rd : Nat) (s : State), wfChTry tid ch rd = true ∧ canRun s tid = true ∧ (rd < 10 ∨ 17 < rd) ∧ (partOf s tid).owns ch = true ∧
      (chanOf s ch).msgs ≠ []) ∧
  (∃ (tid ch rd : Nat) (s : State), wfChTry tid ch rd = true ∧ canRun s tid = true ∧ (rd < 10 ∨ 17 < rd) ∧ (partOf s tid).owns ch = true ∧
      (chanOf s ch).msgs = []) ∧
  (∃ (tid base mask rd : Nat) (s : State) (i : Nat), wfChWaitany tid base mask rd = true ∧ canRun s tid = true ∧ (rd < 10 ∨ 17 < rd) ∧
      base % 64 = 0 ∧ (∀ j, j < 64 → bit mask j = true → (partOf s tid).owns (base + j) = true) ∧ anyReady s tid base mask = some i) ∧
  (∃ (tid : Nat) (s : State) (ch rd : Nat), wfChannelWaitWake tid = true ∧ coreIssues s tid = true ∧ (threadOf s tid).state = 3 ∧
      (threadOf s tid).wait = some (.read ch rd)) ∧
  (∃ (tid : Nat) (s : State) (base mask rd : Nat), wfChannelWaitWake tid = true ∧ coreIssues s tid = true ∧ (threadOf s tid).state = 3 ∧
      (threadOf s tid).wait = some (.any base mask rd)) ∧
  (∃ (tid ch rd : Nat) (s : State), wfChRd tid ch rd = true ∧ canRun s tid = true ∧ (rd < 10 ∨ 17 < rd) ∧ (partOf s tid).owns ch = false) ∧
  (∃ (ch rd : Nat) (s : State) (m : Msg) (l : List Msg), (∀ q, part? s (partOfChan s ch) = some q → faultChan q ≠ ch) ∧
      (chanOf s ch).msgs = m :: l ∧ (rd < 10 ∨ 17 < rd)) ∧
  (∃ (tid ch : Nat) (s : State), (∀ q, part? s (partOfChan s ch) = some q → faultChan q ≠ ch) ∧
      (ch ≠ mgmt0TxChan s ∨ partOfThread s tid ≠ partOfChan s ch)) ∧
  (∃ (tid ch : Nat) (s : State), (∀ q, part? s (partOfChan s ch) = some q → faultChan q ≠ ch) ∧ ch = mgmt0TxChan s ∧
      partOfThread s tid = partOfChan s ch) :=
  ⟨⟨up, 0, by decide +kernel⟩,
   ⟨runs [], 0, 0, 8, by decide +kernel⟩,
   ⟨runs [], 0, 0, 0, by decide +kernel⟩,
   ⟨runs [], 0, 1, by decide +kernel⟩,
   ⟨0, 0, 0, runs [], by decide +kernel⟩,
   ⟨0, 0, 0, up, by decide +kernel⟩,
   ⟨0, 5, 8, 0, false, runs [], work, by decide +kernel⟩,
   ⟨0, 5, 1, 0, runs [(5, brim)], work, by decide +kernel⟩,
   ⟨0, 5, 1, 0, runs [(5, brim)], work, by decide +kernel⟩,
   ⟨0, 4096, 1, 0, false,
      { up with skk := { parts := [(1, { work with vendor := true }), (2, { cores := [8] })], threads := [(0, { state := 2 })], chans := [(4096, { ext := true })] } }, { cores := [8] }, by decide +kernel⟩,
   ⟨0, party work [(0, { state := 3, wait := some (.commit 5 1 0) })] [(5, { commits := [0] })], 5, 1, 0, by decide +kernel⟩,
   ⟨0, 63, 0, runs [(63, { msgs := [{}] })], by decide +kernel⟩,
   ⟨0, 63, 0, runs [], by decide +kernel⟩,
   ⟨0, 63, 0, runs [(63, { msgs := [{}] })], by decide +kernel⟩,
   ⟨0, 63, 0, runs [], by decide +kernel⟩,
   ⟨0, 0, 2, 0, runs [(1, { msgs := [{}] })], 1, by decide +kernel⟩,
   ⟨0, party work [(0, { state := 3, wait := some (.read 5 0) })] [], 5, 0, by decide +kernel⟩,
   ⟨0, party work [(0, { state := 3, wait := some (.any 0 1 0) })] [], 0, 1, 0, by decide +kernel⟩,
   ⟨0, 64, 0, runs [], by decide +kernel⟩,
   ⟨5, 9, runs [(5, brim)], { words := [1] }, List.replicate 15 { words := [1] },
      (by intro q h; have e : part? (runs [(5, brim)]) (partOfChan (runs [(5, brim)]) 5) = some work := (by decide +kernel); rw [e] at h; cases h; decide), by decide +kernel, by decide⟩,
   ⟨0, 5, runs [(5, brim)],
      (by intro q h; have e : part? (runs [(5, brim)]) (partOfChan (runs [(5, brim)]) 5) = some work := (by decide +kernel); rw [e] at h; cases h; decide), by decide +kernel⟩,
   ⟨0, mgmt0TxChan { runs [] with nv := { mgmt0Part := 1 } }, { runs [] with nv := { mgmt0Part := 1 } },
      (by intro q h; have e : part? { runs [] with nv := { mgmt0Part := 1 } } (partOfChan { runs [] with nv := { mgmt0Part := 1 } } (mgmt0TxChan { runs [] with nv := { mgmt0Part := 1 } })) = some work := (by decide +kernel); rw [e] at h; cases h; decide +kernel), by decide +kernel⟩⟩

theorem witness_ThreadControl :
  (∃ (tid entry arg rd : Nat) (s : State), wfFork tid entry arg rd = true ∧ canRun s tid = true ∧ (partOf s tid).cluster = true ∧
      forkPick s (partOf s tid) = none) ∧
  (∃ (tid entry arg rd : Nat) (s : State) (c : Nat), wfFork tid entry arg rd = true ∧ canRun s tid = true ∧ (partOf s tid).cluster = true ∧
      forkPick s (partOf s tid) = some c ∧ c ≠ tid ∧ (threadOf s tid).stepping = false) ∧
  (∃ (tid entry arg rd : Nat) (s : State), wfFork tid entry arg rd = true ∧ canRun s tid = true ∧ (partOf s tid).cluster = false) ∧
  (∃ (tid x rd : Nat) (s : State), wfJoin tid x rd = true ∧ canRun s tid = true ∧ joinable s tid x = true ∧ (threadOf s x).state = 6) ∧
  (∃ (tid x rd : Nat) (s : State), wfJoin tid x rd = true ∧ canRun s tid = true ∧ joinable s tid x = true ∧ (threadOf s x).state ≠ 6) ∧
  (∃ (tid x rd : Nat) (s : State), wfJoin tid x rd = true ∧ canRun s tid = true ∧ joinable s tid x = false) ∧
  (∃ (tid : Nat) (s : State), wfThreadExit tid (2 ^ 63) = true ∧ canRun s tid = true) ∧
  (∃ (tid v : Nat) (s : State), wfThreadExit tid v = true ∧ canRun s tid = true ∧ v ≠ 2 ^ 63 ∧ isSuper s tid = true) ∧
  (∃ (tid v : Nat) (s : State), wfThreadExit tid v = true ∧ canRun s tid = true ∧ v ≠ 2 ^ 63 ∧ isSuper s tid = false ∧
      (threadOf s tid).held = [] ∧ (threadOf s tid).forked = true ∧ (threadOf s tid).detached = false ∧ (threadOf s tid).joiner = none) ∧
  (∃ (tid x : Nat) (s : State), wfTrelease tid x = true ∧ canRun s tid = true ∧ isSuper s tid = true ∧ sameParty s tid x = true ∧
      (threadOf s x).state = 0) ∧
  (∃ (tid x : Nat) (s : State), wfTrelease tid x = true ∧ canRun s tid = true ∧ isSuper s tid = true ∧
      (sameParty s tid x = false ∨ (threadOf s x).state ≠ 0)) ∧
  (∃ (tid x : Nat) (s : State), wfTrelease tid x = true ∧ canRun s tid = true ∧ isSuper s tid = false) ∧
  (∃ (tid x : Nat) (s : State), wfTreset tid x = true ∧ canRun s tid = true ∧ isSuper s tid = true ∧ sameParty s tid x = true ∧ x ≠ tid ∧
      (threadOf s x).held = []) ∧
  (∃ (tid x : Nat) (s : State), wfTreset tid x = true ∧ canRun s tid = true ∧ isSuper s tid = false) ∧
  (∃ (tid epc i : Nat) (v : Bool) (s : State), wfXtirzuIllegal tid epc i v = true ∧ canRun s tid = true ∧ xtirzuBad s tid i = true) ∧
  (∃ (tid epc i : Nat) (v : Bool) (s : State) (x : Xtirzu), wfXtirzuIllegal tid epc i v = true ∧ xtirzuBad s tid i = false ∧
      xtirzuOf i = some x) ∧
  (∃ (f7 rs2 rs1 f3 rd : _), f7 < 128 ∧ rs2 < 32 ∧ rs1 < 32 ∧ f3 < 8 ∧ rd < 32) ∧
  (∃ (tid rd v : Nat) (s : State), wfThreadControlCsr tid 0xDC0 false v rd = true ∧ canRun s tid = true) ∧
  (∃ (tid rd v : Nat) (s : State), wfThreadControlCsr tid 0x5C0 true v rd = true ∧ canRun s tid = true ∧ isSuper s tid = true) ∧
  (∃ (tid ch half v : Nat) (s : State), wfChannelEntryWrite tid ch half v = true ∧ canRun s tid = true ∧ isSuper s tid = true ∧
      (partOf s tid).owns ch = true ∧ ch ≠ faultChan (partOf s tid)) ∧
  (∃ (tid ch half v : Nat) (s : State), wfChannelEntryWrite tid ch half v = true ∧ canRun s tid = true ∧ isSuper s tid = true ∧
      (partOf s tid).owns ch = false) ∧
  (∃ (tid ch half v : Nat) (s : State), wfChannelEntryWrite tid ch half v = true ∧ canRun s tid = true ∧ isSuper s tid = false) ∧
  (∃ (s : State) (tid ch : _), (partOf s tid).owns ch = false) ∧
  (∃ (s : State) (tid ch : _), (partOf s tid).owns ch = true ∧ (chanOf s ch).msgs.length < 32) ∧
  (∃ (s : State) (tid : _), (partOf s tid).owns (faultChan (partOf s tid)) = true) ∧
  (∃ (v : _), bits v 0 2 ≠ 3) :=
  ⟨⟨0, 0, 0, 0, runs [], by decide +kernel⟩,
   ⟨0, 0, 0, 0, party work [(0, { state := 2 }), (1, { state := 1 })] [], 1, by decide +kernel⟩,
   ⟨0, 0, 0, 0, party { work with cluster := false } [(0, { state := 2 })] [], by decide +kernel⟩,
   ⟨0, 1, 0, party work [(0, { state := 2 }), (1, { state := 6, forked := true })] [], by decide +kernel⟩,
   ⟨0, 1, 0, party work [(0, { state := 2 }), (1, { state := 2, forked := true })] [], by decide +kernel⟩,
   ⟨0, 1023, 0, runs [], by decide +kernel⟩,
   ⟨0, runs [], by decide +kernel⟩,
   ⟨0, 0, runs [], by decide +kernel⟩,
   ⟨1, 0, party work [(0, { state := 2 }), (1, { state := 2, forked := true })] [], by decide +kernel⟩,
   ⟨0, 7, runs [], by decide +kernel⟩,
   ⟨0, 8, runs [], by decide +kernel⟩,
   ⟨1, 0, party work [(0, { state := 2 }), (1, { state := 2, forked := true })] [], by decide +kernel⟩,
   ⟨0, 7, runs [], by decide +kernel⟩,
   ⟨1, 0, party work [(0, { state := 2 }), (1, { state := 2, forked := true })] [], by decide +kernel⟩,
   ⟨0, 0, 0x700B, false, runs [], by decide +kernel⟩,
   ⟨0, 0, 0x0004A28B, false, runs [], .chRd 5 9, by decide +kernel⟩,
   ⟨0, 0, 0, 0, 0, by decide +kernel⟩,
   ⟨0, 0, 0, runs [], by decide +kernel⟩,
   ⟨0, 0, 0, runs [], by decide +kernel⟩,
   ⟨0, 63, 0, 0, runs [], by decide +kernel⟩,
   ⟨0, 64, 0, 0, runs [], by decide +kernel⟩,
   ⟨1, 0, 0, 0, party work [(0, { state := 2 }), (1, { state := 2 })] [], by decide +kernel⟩,
   ⟨up, 0, 0, by decide +kernel⟩,
   ⟨runs [], 0, 5, by decide +kernel⟩,
   ⟨runs [], 0, by decide +kernel⟩,
   ⟨0, by decide +kernel⟩⟩

theorem witness_ThreadFaultsAndDebug :
  (∃ (tid epc tval : Nat) (s : State), wfEcallCustomer tid epc tval = true ∧ canRun s tid = true ∧ (partOf s tid).vendor = false) ∧
  (∃ (tid code epc tval a : Nat) (s : State), wfThreadFault tid code epc tval a = true ∧ canRun s tid = true ∧ code ≠ 27) ∧
  (∃ (tid : Nat) (s : State), supervisorOf (partOf s tid) ≠ tid) ∧
  (∃ (p : Nat) (s : State) (q : Machine.Part), wfSentinelFire p = true ∧ part? s p = some q ∧ deadlocked s q = true ∧ q.sentinel = false) ∧
  (∃ (p : Nat) (s : State) (q : Machine.Part), wfSentinelFire p = true ∧ part? s p = some q ∧ deadlocked s q = false) ∧
  (∃ (p : Nat) (s : State) (q : Machine.Part), wfSentinelEscalate p = true ∧ part? s p = some q ∧ q.sentinel = true ∧ s.eft.headless = false ∧
      q.action = 1) ∧
  (∃ (p : Nat) (s : State) (q : Machine.Part), wfSentinelEscalate p = true ∧ part? s p = some q ∧ q.sentinel = false) ∧
  (∃ (tid : Nat) (s : State), wfDebugHalt tid = true ∧ debugged s tid = true ∧ (threadOf s tid).state = 2 ∧ (threadOf s tid).wait = none) ∧
  (∃ (tid : Nat) (s : State), wfDebugHalt tid = true ∧ debugged s tid = false) ∧
  (∃ (tid : Nat) (s : State), wfDebugResume tid = true ∧ debugged s tid = true ∧ (threadOf s tid).state = 4 ∧ (threadOf s tid).wait = none) ∧
  (∃ (tid : Nat) (s : State), wfDebugResume tid = true ∧ debugged s tid = false) ∧
  (∃ (tid pc : Nat) (s : State), wfDebugSingleStep tid (some pc) = true ∧ debugged s tid = true ∧ (threadOf s tid).state = 4 ∧
      (threadOf s tid).wait = none) ∧
  (∃ (tid : Nat) (n : Option Nat) (s : State), wfDebugSingleStep tid n = true ∧ debugged s tid = false) :=
  ⟨⟨0, 0, 0, runs [], by decide +kernel⟩,
   ⟨0, 0, 0, 0, 0, runs [], by decide +kernel⟩,
   ⟨1, up, by decide +kernel⟩,
   ⟨1, party work [(0, { state := 3, wait := some (.read 5 0) })] [], work, by decide +kernel⟩,
   ⟨1, runs [], work, by decide +kernel⟩,
   ⟨1, party { work with sentinel := true, action := 1 } [] [], { work with sentinel := true, action := 1 }, by decide +kernel⟩,
   ⟨1, runs [], work, by decide +kernel⟩,
   ⟨0, { (party { work with attached := true } [(0, { state := 2 })] []) with dbg := { scopes := 4 } }, by decide +kernel⟩,
   ⟨0, up, by decide +kernel⟩,
   ⟨0, { (party { work with attached := true } [(0, { state := 4 })] []) with dbg := { scopes := 4 } }, by decide +kernel⟩,
   ⟨0, up, by decide +kernel⟩,
   ⟨0, 0, { (party { work with attached := true } [(0, { state := 4 })] []) with dbg := { scopes := 4 } }, by decide +kernel⟩,
   ⟨0, none, up, by decide +kernel⟩⟩

theorem witness_ThreadWindows :
  (∃ (tid : Nat) (b : BitVec 512) (s : State), wfCipherSubmit tid b = true ∧ canRun s tid = true ∧
    let p := partOf s tid
    let v := b.toNat
    let ch := tid / 64 * 4096 + cqChannel v
    let w := s.modThread tid ({ · with cipherWin := v })
    p.owns ch = true ∧ chanRoom s ch = true) ∧
  (∃ (tid h a n o : Nat) (s : State) (x : Handle), wfCopyOut tid h a n o = true ∧ canRun s tid = true ∧ handleOf s tid h = some x ∧ 0 < n ∧
      n ≤ 9600 ∧ o + n ≤ x.pkt.bytes.length ∧ (partOf s tid).inRegion a n = true) ∧
  (∃ (tid h a : Nat) (s : State) (x : Handle), wfCopyMeta tid h a = true ∧ canRun s tid = true ∧ handleOf s tid h = some x ∧
      (partOf s tid).inRegion a 384 = true) ∧
  (∃ (tid h : Nat) (s : State) (x : Handle), wfFree tid h = true ∧ canRun s tid = true ∧ handleOf s tid h = some x) ∧
  (∃ (tid h : Nat) (s : State), wfFree tid h = true ∧ canRun s tid = true ∧ handleOf s tid h = none) ∧
  (∃ (tid h pipe port : Nat) (s : State) (x : Handle), wfInjectHandle tid h pipe port = true ∧ canRun s tid = true ∧
      handleOf s tid h = some x ∧ pipe < 9 ∧ port < 176 ∧ bpOn s (ownerKey 5 0) = false ∧ ctxRoom s pipe = true ∧
      admits s (ownerKey 5 0) (cellsOf x.pkt.bytes.length) = true) ∧
  (∃ (tid a n pipe port : Nat) (s : State), wfInjectBuffer tid a n pipe port = true ∧ canRun s tid = true ∧ 0 < n ∧ n ≤ 9600 ∧
      (partOf s tid).inRegion a n = true) ∧
  (∃ (tid i : Nat) (s : State), wfContextHold tid i = true ∧ canRun s tid = true ∧ (partOf s tid).vendor = true ∧ i < 264192 ∧
      i ∉ (threadOf s tid).held ∧ (threadOf s tid).held.length < 4 ∧ (∀ e ∈ s.skk.threads, i ∉ e.2.held) ∧
      (threadOf s tid).stepping = false) ∧
  (∃ (tid i : Nat) (s : State), wfContextRelease tid i = true ∧ canRun s tid = true ∧ (partOf s tid).vendor = true ∧
      i ∈ (threadOf s tid).held ∧ (threadOf s tid).stepping = false) ∧
  (∃ (tid i : Nat) (s : State), wfContextRead tid i = true ∧ canRun s tid = true ∧ (partOf s tid).vendor = true ∧ i < 264192 ∧
      (threadOf s tid).stepping = false) ∧
  (∃ (tid i : Nat) (d : BitVec 256) (s : State), wfContextWrite tid i d = true ∧ canRun s tid = true ∧ (partOf s tid).vendor = true ∧
      i ∈ (threadOf s tid).held ∧ ckvAlg d.toNat ≤ 3 ∧ ckvStage d.toNat ≤ 6 ∧ ckvTenant d.toNat = ckvTenant (ckvOf s i) ∧
      ckvFrozen (ckvOf s i) = true) ∧
  (∃ (tid i : Nat) (s : State), wfContextRead tid i = true ∧ canRun s tid = true ∧ (partOf s tid).vendor = false) ∧
  (∃ (ch : Nat), wfSkinkTimerFire ch = true) ∧
  (∃ (ch : Nat) (s : State), wfSkinkPeriodTick ch = true ∧ (chanOf s ch).kind = 2 ∧ (chanOf s ch).armed = true ∧ 1000 ≤ (chanOf s ch).period ∧
      (chanOf s ch).period ≤ 1000000000 ∧ chanRuns s ch = true ∧ (∀ m ∈ (chanOf s ch).msgs, m.kind ≠ 4) ∧ chanRoom s ch = true) ∧
  (∃ (ch : Nat) (s : State), wfSkinkPeriodTick ch = true ∧ (chanOf s ch).armed = false) :=
  ⟨⟨0, 0, runs [], by decide +kernel⟩,
   ⟨0, 7, 2 ^ 32, 2, 1, holds, { part := 1, pkt := { bytes := [1, 2, 3] } }, by decide +kernel⟩,
   ⟨0, 7, 2 ^ 32, holds, { part := 1, pkt := { bytes := [1, 2, 3] } }, by decide +kernel⟩,
   ⟨0, 7, holds, { part := 1, pkt := { bytes := [1, 2, 3] } }, by decide +kernel⟩,
   ⟨0, 0, holds, by decide +kernel⟩,
   ⟨0, 7, 8, 175, holds, { part := 1, pkt := { bytes := [1, 2, 3] } }, by decide +kernel⟩,
   ⟨0, 2 ^ 32, 9600, 0, 0, runs [], by decide +kernel⟩,
   ⟨0, 264191, vendor [1, 2, 3], by decide +kernel⟩,
   ⟨0, 3, vendor [1, 2, 3], by decide +kernel⟩,
   ⟨0, 264191, vendor [], by decide +kernel⟩,
   ⟨0, 3, 0, { vendor [3] with cip := { ckv := [(3, 16)] } }, by decide +kernel⟩,
   ⟨0, 0, runs [], by decide +kernel⟩,
   ⟨0, by decide +kernel⟩,
   ⟨5, runs [(5, { kind := 2, armed := true, period := 1000 })], by decide +kernel⟩,
   ⟨0, up, by decide +kernel⟩⟩

theorem witness_PartitionCommands :
  (∃ (x : XCall) (r : _) (s : State) (form cluster cores action tenant clusters channels handles ms mib p first : Nat), Served x 0x0B01 r s ∧
      wfPartCreate x form cluster cores action tenant clusters channels handles ms mib = true ∧
    let u := begun x s
    let mine := newCores form cluster cores clusters
    partBad form cluster cores action clusters channels handles ms mib = none ∧ u.skk.parts.length < 128 ∧ handles ≤ handlesFree u ∧
      (∀ e ∈ u.skk.parts, ∀ c ∈ e.2.cores, c ∉ mine) ∧ mib ≤ regionFree u ∧ leastBelow 256 (fun i => i ≠ 0 && (part? u i).isNone) = some p ∧
      lowestFit 0 4096 channels (chanRanges u mine) = some first) ∧
  (∃ (x : XCall) (r : _) (s : State) (p : Nat) (q : Machine.Part), Served x 0x0B02 r s ∧ wfPartDestroy x p = true ∧
      part? (begun x s) p = some q ∧ q.running = false) ∧
  (∃ (x : XCall) (r : _) (s : State) (p : Nat) (image : List Byte) (q : Machine.Part), Served x 0x0B03 r s ∧ wfImageLoad x p image = true ∧
      part? (begun x s) p = some q ∧ q.running = false ∧ svcHeader image = true ∧ at8 image 6 = (if q.vendor then 1 else 2) ∧
      trailerOk (begun x s) q.vendor image = true ∧ svcFits q image = true) ∧
  (∃ (x : XCall) (r : _) (s : State) (p : Nat) (q : Machine.Part), Served x 0x0B04 r s ∧ wfPartStart x p = true ∧
      part? (begun x s) p = some q ∧ q.running = false ∧ q.image.isSome = true) ∧
  (∃ (x : XCall) (r : _) (s : State) (p : Nat) (q : Machine.Part), Served x 0x0B04 r s ∧ wfPartStart x p = true ∧
      part? (begun x s) p = some q ∧ (q.running = true ∨ q.image = none)) ∧
  (∃ (x : XCall) (r : _) (s : State) (p : Nat), Served x 0x0B05 r s ∧ wfPartStop x p = true ∧ (part? (begun x s) p).isSome = true) ∧
  (∃ (x : XCall) (r : _) (s : State) (p : Nat), Served x 0x0B06 r s ∧ wfDebugAttach x p 0 = true ∧ (part? (begun x s) p).isSome = true ∧
      bit s.dbg.scopes 2 = true) ∧
  (∃ (x : XCall) (r : _) (s : State) (p : Nat), Served x 0x0B06 r s ∧ wfDebugAttach x p 1 = true ∧ (part? (begun x s) p).isSome = true) ∧
  (∃ (x : XCall) (r : _) (s : State) (p : Nat), Served x 0x0B06 r s ∧ wfDebugAttach x p 0 = true ∧ (part? (begun x s) p).isSome = true ∧
      bit s.dbg.scopes 2 = false ∧ bit s.dbg.scopes 0 = false) :=
  ⟨⟨xo, rq 0x0B01 0 0, ask 0x0B01 0 0 up, 1, 0, 3, 0, 0, 0, 64, 0, 1000, 2, 1, 0, served (by decide +kernel), by decide +kernel,
      by decide +kernel, by decide +kernel, Nat.zero_le _, by decide +kernel⟩,
   ⟨xo, rq 0x0B02 (0) (0), ask 0x0B02 (0) (0) (party { cores := [0] } [] []), 1, { cores := [0] }, served (by decide +kernel),
      by decide +kernel⟩,
   ⟨xo, rq 0x0B03 (0) (0), ask 0x0B03 (0) (0) (enrolled (party { cores := [0] } [] [])), 1, imageOne, { cores := [0] },
      served (by decide +kernel), by decide +kernel⟩,
   ⟨xo, rq 0x0B04 (0) (0), ask 0x0B04 (0) (0) (party { cores := [0], image := some {} } [] []), 1, { cores := [0], image := some {} },
      served (by decide +kernel), by decide +kernel⟩,
   ⟨xo, rq 0x0B04 (0) (0), ask 0x0B04 (0) (0) (party { cores := [0] } [] []), 1, { cores := [0] }, served (by decide +kernel),
      by decide +kernel⟩,
   ⟨xo, rq 0x0B05 (0) (0), ask 0x0B05 (0) (0) (party { cores := [0] } [] []), 1, served (by decide +kernel), by decide +kernel⟩,
   ⟨xo, rq 0x0B06 (0) (0), ask 0x0B06 (0) (0) ({ (party { cores := [0] } [] []) with dbg := { scopes := 4 } }), 1, served (by decide +kernel),
      by decide +kernel⟩,
   ⟨xo, rq 0x0B06 (0) (0), ask 0x0B06 (0) (0) (party { cores := [0] } [] []), 1, served (by decide +kernel), by decide +kernel⟩,
   ⟨xo, rq 0x0B06 (0) (0), ask 0x0B06 (0) (0) (party { cores := [0] } [] []), 1, served (by decide +kernel), by decide +kernel⟩⟩

theorem witness_MeterCommands :
  (∃ (s : State), s.phase ≠ .inReset) ∧
  (∃ (s : State), s.phase = .inReset) ∧
  (∃ (x : XCall) (r : _) (s : State) (tenant index : Nat), Served x 0x0C01 r s ∧ wfMeterRead x 0 tenant index = true ∧
      (callBy x r s).role = 1) ∧
  (∃ (x : XCall) (r : _) (s : State) (tenant minute : Nat) (e : Snapshot), Served x 0x0C01 r s ∧ wfMeterRead x 1 tenant minute = true ∧
      (callBy x r s).role = 1 ∧ mget? s.meter.ring (minute % 60) = some e ∧ e.minute = minute ∧ e.valid = true) ∧
  (∃ (x : XCall) (r : _) (s : State) (tenant minute : Nat), Served x 0x0C01 r s ∧ wfMeterRead x 1 tenant minute = true ∧
      (callBy x r s).role = 1 ∧ snapOf s minute = none) ∧
  (∃ (x : XCall) (r : _) (s : State) (tenant index : Nat), Served x 0x0C01 r s ∧ wfMeterRead x 2 tenant index = true ∧
      (callBy x r s).role = 1 ∧ index < 294912) ∧
  (∃ (x : XCall) (r : _) (s : State) (c : ExportCfg), Served x 0x0C02 r s ∧ wfMeterExportConfig x c = true ∧ exportBad (begun x s) c = none ∧
      c.mode ≠ 1) ∧
  (∃ (x : XCall) (r : _) (s : State) (c : ExportCfg), Served x 0x0C02 r s ∧ wfMeterExportConfig x c = true ∧ exportBad (begun x s) c = none ∧
      c.mode = 1) ∧
  (∃ (lost : List Nat) (s : State), wfMeterExport lost = true ∧ s.meter.due = false) ∧
  (∃ (lost : List Nat) (s : State) (e : Snapshot), wfMeterExport lost = true ∧ s.meter.due = true ∧ s.meter.export_.mode = 1 ∧
      snapOf s s.meter.lastMinute = some e ∧ s.phase = .running ∧ mgmtServiceUp s = true) ∧
  (∃ (lost : List Nat) (s : State) (e : Snapshot), wfMeterExport lost = true ∧ s.meter.due = true ∧ s.meter.export_.mode = 2 ∧
      snapOf s s.meter.lastMinute = some e ∧ s.phase = .running ∧ mgmtServiceUp s = true ∧
      (s.meter.export_.port ≠ 0xFFFF ∨ mgmt0OfService s = true)) ∧
  (∃ (lost : List Nat) (s : State) (e : Snapshot), wfMeterExport lost = true ∧ s.meter.due = true ∧ s.meter.export_.mode = 2 ∧
      snapOf s s.meter.lastMinute = some e ∧ s.phase = .running ∧ mgmtServiceUp s = true ∧ s.meter.export_.port = 0xFFFF ∧
      mgmt0OfService s = false) :=
  ⟨⟨up, by decide +kernel⟩,
   ⟨{ up with phase := .inReset }, by decide +kernel⟩,
   ⟨xo, rq 0x0C01 0 0, ask 0x0C01 0 0 up, 0, 0, served (by decide +kernel), by decide +kernel⟩,
   ⟨xo, rq 0x0C01 (0) (0), ask 0x0C01 (0) (0) ({ up with meter := { ring := [(1, { minute := 61 })] } }), 0, 61, { minute := 61 },
      served (by decide +kernel), by decide +kernel⟩,
   ⟨xo, rq 0x0C01 0 0, ask 0x0C01 0 0 up, 0, 0, served (by decide +kernel), by decide +kernel⟩,
   ⟨xo, rq 0x0C01 0 0, ask 0x0C01 0 0 up, 0, 0, served (by decide +kernel), by decide +kernel⟩,
   ⟨xo, rq 0x0C02 0 0, ask 0x0C02 0 0 up, {}, served (by decide +kernel), by decide +kernel⟩,
   ⟨xo, rq 0x0C02 0 0, ask 0x0C02 0 0 up, { mode := 1, log2 := 16 }, served (by decide +kernel), by decide +kernel⟩,
   ⟨[], up, by decide +kernel⟩,
   ⟨[], { (party work [] []) with skk := { parts := [(2, work)] }, meter := { ring := [(0, {})], due := true, export_ := { mode := 1 } } }, {},
      by decide +kernel⟩,
   ⟨[], { (party work [] []) with skk := { parts := [(2, work)] }, meter := { ring := [(0, {})], due := true, export_ := { mode := 2 } } }, {},
      by decide +kernel⟩,
   ⟨[], { (party work [] []) with nv := { mgmt0Part := 3 }, skk := { parts := [(2, work), (3, { work with cores := [1], first := 64 })] }, meter := { ring := [(0, {})], due := true, export_ := { mode := 2, port := 0xFFFF } } }, {}, by decide +kernel⟩⟩

theorem witness_MigrationCommands :
  (∃ (x : XCall) (r : _) (s : State) (fid len bm : Nat), Served x 0x1001 r s ∧ wfMigDirtyStart x fid len bm = true ∧
      (callBy x r s).inPort (fidPort fid) = true ∧ len % 8 = 0 ∧ bm % 8 = 0 ∧ vfThere (begun x s) fid = true ∧
    let d : DirtyLog := { len, bitmap := bm, by_ := (callBy x r s).fid }
    shadowFits (begun x s) fid d = true) ∧
  (∃ (x : XCall) (r : _) (s : State) (fid : Nat) (d : DirtyLog), Served x 0x1002 r s ∧ wfMigDirtyStop x fid = true ∧
      (callBy x r s).inPort (fidPort fid) = true ∧ vfThere (begun x s) fid = true ∧ (fnD (begun x s) fid).dirty = some d ∧ d.beyond = 0) ∧
  (∃ (x : XCall) (r : _) (s : State) (fid : Nat) (d : DirtyLog), Served x 0x1002 r s ∧ wfMigDirtyStop x fid = true ∧
      (callBy x r s).inPort (fidPort fid) = true ∧ vfThere (begun x s) fid = true ∧ (fnD (begun x s) fid).dirty = some d ∧ d.beyond ≠ 0) ∧
  (∃ (fid p : Nat) (s : State) (d : DirtyLog), wfDirtyBitWrite fid p = true ∧ (fnD s fid).dirty = some d ∧ p ∈ d.due) ∧
  (∃ (fid p : Nat) (s : State), wfDirtyBitWrite fid p = true ∧ (fnD s fid).dirty = none) ∧
  (∃ (x : XCall) (r : _) (s : State) (fid : Nat), Served x 0x1003 r s ∧ wfMigFreeze x fid = true ∧
      (callBy x r s).inPort (fidPort fid) = true ∧ vfThere (begun x s) fid = true ∧ (fnD (begun x s) fid).bound = true) ∧
  (∃ (fid : Nat) (s : State), wfMigFreezeDrainDone fid = true ∧ (fnD s fid).frozen = true ∧ vfDrained s fid = true) ∧
  (∃ (fid : Nat) (s : State), wfMigFreezeDrainDone fid = true ∧ vfDrained s fid = false) ∧
  (∃ (fid : Nat), wfMigFreezeTimeout fid = true) ∧
  (∃ (x : XCall) (r : _) (s : State) (k : Nat), Served x 0x1007 r s ∧ wfMigKeySet x k = true ∧ k < 262144 ∧ (keySlot s k).type = 2 ∧
      bit (keySlot s k).usage 7 = true ∧ (keySlot s k).owner = 0) ∧
  (∃ (x : XCall) (r : _) (s : State) (fid : Nat) (key : List Byte), Served x 0x1004 r s ∧ wfMigSave x fid = true ∧
      (callBy x r s).inPort (fidPort fid) = true ∧ alarmLatched (begun x s) = false ∧ vfThere (begun x s) fid = true ∧
      (fnD (begun x s) fid).frozen = true ∧ (fnD (begun x s) fid).saved = false ∧ migMaterial (begun x s) = some key ∧
    let u := begun x s
    let body := saveBody u fid
    64 + body.length + 8 + 16 ≤ (callBy x r s).room ∧
    let turn := migTurn (callBy x r s).fid (64 + body.length + 8 + 16) u
    turn.1 = true) ∧
  (∃ (x : XCall) (r : _) (s : State) (fid : Nat) (key : List Byte), Served x 0x1004 r s ∧ wfMigSave x fid = true ∧
      (callBy x r s).inPort (fidPort fid) = true ∧ alarmLatched (begun x s) = false ∧ vfThere (begun x s) fid = true ∧
      (fnD (begun x s) fid).frozen = true ∧ (fnD (begun x s) fid).saved = false ∧ migMaterial (begun x s) = some key ∧
    let n := 64 + (saveBody (begun x s) fid).length + 8 + 16
    n ≤ (callBy x r s).room ∧
    let turn := migTurn (callBy x r s).fid n (begun x s)
    turn.1 = false) ∧
  (∃ (s : State), bpOn s migOwner = true) ∧
  (let k := List.replicate 32 7; let kw := migDerive k labelKw 5; cipherOk 2 (migDerive k labelAuth 5) (migIv 5) (blob.take 288) [] (blob.drop 288) = true → cipherOk 9 kw [] [] (sliceB blob 64 224) [] = true → fit 216 (cipherRun 9 kw [] [] (sliceB blob 64 224)) = (Tlv.mk 1 0 (List.replicate 25 0)).bytes ++ List.replicate 8 0 →
    ∃ (x : XCall) (r : _) (s : State) (fid : Nat) (blob key : List Byte) (ts : List Tlv), Served x 0x1005 r s ∧
      wfMigRestore x fid blob = true ∧ (callBy x r s).inPort (fidPort fid) = true ∧ alarmLatched (begun x s) = false ∧
      vfThere (begun x s) fid = true ∧ (fnD (begun x s) fid).frozen = true ∧ migMaterial (begun x s) = some key ∧ blobOk blob = true ∧
    let turn := migTurn (callBy x r s).fid blob.length (begun x s)
    turn.1 = true ∧
    let u := migMoved blob.length turn.2
    let id := ofLe (sliceB blob 8 8)
    let n := ofLe (sliceB blob 0x1C 4)
    let kw := migDerive key labelKw id
    let g := grantsOf u fid
    let src := ofLe (sliceB blob 0x18 2)
    cipherOk 2 (migDerive key labelAuth id) (migIv id) (blob.take (64 + n)) [] (blob.drop (64 + n)) = true ∧
      cipherOk 9 kw [] [] (sliceB blob 64 n) [] = true ∧ at8 blob 6 = (if isNvme u fid then 2 else 1) ∧ id ∉ u.migSaves ∧
      readTlvs (n / 8 + 1) (fit (n - 8) (cipherRun 9 kw [] [] (sliceB blob 64 n))) = some ts ∧ ∃ (t1 : _), ts.find? (·.type = 1) = some t1 ∧
      grantShort (t1.ws.take 11) g.list = none ∧ (∀ t ∈ ts, tlvFits g t = true) ∧
      ∃ (v : _), restoreEntries g ((ts.filter (·.type = 11)).map (restoreEntry src fid)) u = some v) ∧
  (∃ (x : XCall) (r : _) (s : State) (fid : Nat), Served x 0x1006 r s ∧ wfMigThaw x fid = true ∧ (callBy x r s).inPort (fidPort fid) = true ∧
      vfThere (begun x s) fid = true ∧ (fnD (begun x s) fid).frozen = true ∧ (fnD (begun x s) fid).saved = false) ∧
  (∃ (x : XCall) (r : _) (s : State) (fid : Nat), Served x 0x1006 r s ∧ wfMigThaw x fid = true ∧ (callBy x r s).inPort (fidPort fid) = true ∧
      (fnD (begun x s) fid).saved = true) ∧
  (∃ (fid : Nat) (s : State) (n : Nat), (mget? s.cip.sas n).isSome = true ∧ (saOf s n).owner = fid) ∧
  (∃ (fid : Nat) (s : State) (n : Nat), (mget? s.cip.sas n).isSome = true ∧ (saOf s n).owner ≠ fid) :=
  ⟨⟨xo, rq 0x1001 0 0, ask 0x1001 0 0 up, 4, 8, 0, served (by decide +kernel), by decide +kernel⟩,
   ⟨xo, rq 0x1002 (0) (0), ask 0x1002 (0) (0) (up.modFn 4 ({ · with dirty := some {} })), 4, {}, served (by decide +kernel), by decide +kernel⟩,
   ⟨xo, rq 0x1002 (0) (0), ask 0x1002 (0) (0) (up.modFn 4 ({ · with dirty := some { beyond := 1 } })), 4, { beyond := 1 },
      served (by decide +kernel), by decide +kernel⟩,
   ⟨4, 64, up.modFn 4 ({ · with dirty := some { due := [64] } }), { due := [64] }, by decide +kernel⟩,
   ⟨0, 0, up, by decide +kernel⟩,
   ⟨xo, rq 0x1003 (0) (0), ask 0x1003 (0) (0) (up), 4, served (by decide +kernel), by decide +kernel⟩,
   ⟨4, frozen, by decide +kernel⟩,
   ⟨4, { frozen with reads := [{ fid := 4, purpose := .nvme 1 0 }] }, by decide +kernel⟩,
   ⟨0, by decide +kernel⟩,
   ⟨xo, rq 0x1007 (0) (0), ask 0x1007 (0) (0) (frozen), 0, served (by decide +kernel), by decide +kernel⟩,
   ⟨{ mbx := .fn 0, rspList := [(0, 8192)] }, roomy, frozen.modMbx (.fn 0) ({ · with queue := [roomy] }), 4, List.replicate 32 7,
      served (by decide +kernel), by decide +kernel⟩,
   ⟨{ mbx := .fn 0, rspList := [(0, 8192)] }, roomy, { frozen with pow := {} }.modMbx (.fn 0) ({ · with queue := [roomy] }), 4,
      List.replicate 32 7, served (by decide +kernel), by decide +kernel⟩,
   ⟨up.modOwner migOwner ({ · with causes := [1] }), by decide +kernel⟩,
   fun ht hk hc => ⟨xo, rq 0x1005 (0) (0), ask 0x1005 (0) (0) (frozen), 4, blob, List.replicate 32 7, [Tlv.mk 1 0 (List.replicate 25 0)],
      served (by decide +kernel), by decide +kernel, by decide +kernel, by decide +kernel, by decide +kernel, by decide +kernel,
      by decide +kernel, by decide +kernel, by decide +kernel, ht, hk, by decide +kernel, by decide +kernel,
      (by show readTlvs 29 (fit 216 (cipherRun 9 (migDerive (List.replicate 32 7) labelKw 5) [] [] (sliceB blob 64 224))) = _; rw [hc]; decide +kernel), Tlv.mk 1 0 (List.replicate 25 0), by decide +kernel, by decide +kernel, by decide +kernel, migMoved blob.length (migTurn 0 blob.length (begun xo (ask 0x1005 0 0 frozen))).2, rfl⟩,
   ⟨xo, rq 0x1006 (0) (0), ask 0x1006 (0) (0) (frozen), 4, served (by decide +kernel), by decide +kernel⟩,
   ⟨xo, rq 0x1006 (0) (0), ask 0x1006 (0) (0) (frozen.modFn 4 ({ · with saved := true })), 4, served (by decide +kernel), by decide +kernel⟩,
   ⟨0, { up with cip := { sas := [(0, {})] } }, 0, by decide +kernel⟩,
   ⟨0, { up with cip := { sas := [(0, { owner := 4 })] } }, 0, by decide +kernel⟩⟩

theorem witness_StepTakesFront :
  (∃ (s : State), s.pending = []) :=
  ⟨up, by decide +kernel⟩

theorem witness_EveryCommandRuns :
  (∃ (i : Instr), wellFormed i = true) ∧
  (∃ (i : Instr), wellFormed i = false) :=
  ⟨⟨.minuteBoundary, by decide +kernel⟩,
   ⟨.skinkTimerFire 65536, by decide +kernel⟩⟩

theorem witness_MemoryFormKept :
  (∃ s t : State, s.MemOk ∧ step s = .next t) :=
  ⟨{ up with pending := [.minuteBoundary] }, _, ⟨by decide, by decide, by decide⟩, rfl⟩

theorem witness_QueueKept :
  (∃ (i : Instr) (s t : State), exec i s = .next t) :=
  ⟨.minuteBoundary, up, _, rfl⟩

theorem witness_CountersKept :
  (∃ (i : Instr) (s t : State), mayReset i = false ∧ exec i s = .next t) :=
  ⟨.minuteBoundary, up, _, rfl, rfl⟩

theorem witness_MailboxChecks :
  (∃ (x : XCall) (r : _) (s : State) (op roles taken : Nat), (mbxOf s x.mbx).queue.head? = some r ∧ mbxReady s x.mbx = true ∧
      opRow op = some (roles, taken) ∧ r.opcode ≠ op) ∧
  (∃ (x : XCall) (r : _) (s : State) (op roles taken : Nat), (mbxOf s x.mbx).queue.head? = some r ∧ mbxReady s x.mbx = true ∧
      opRow op = some (roles, taken) ∧ r.opcode = op ∧ x.agree = true ∧ roles &&& roleOf (begun x s) x.mbx = 0) ∧
  (∃ (x : XCall) (r : _) (s : State) (op roles taken : Nat), (mbxOf s x.mbx).queue.head? = some r ∧ mbxReady s x.mbx = true ∧
      opRow op = some (roles, taken) ∧ r.opcode = op ∧ x.agree = false) ∧
  (∃ (x : XCall) (r : _) (s : State) (op roles taken : Nat), (mbxOf s x.mbx).queue.head? = some r ∧ mbxReady s x.mbx = true ∧
      opRow op = some (roles, taken) ∧ ∃ (d : _), r.opcode = op ∧ x.agree = true ∧ roles &&& roleOf (begun x s) x.mbx ≠ 0 ∧
      headerFault x.mbx r taken x = some d) :=
  ⟨⟨xo, rq 0x0101 0 0, ask 0x0101 0 0 up, 0x0102, 31, 0, by decide +kernel⟩,
   ⟨{ mbx := .fn 4 }, rq 0x0104 0 0, { up with mbxs := [(4, { enable := true, state := 1, queue := [rq 0x0104 0 0] })] }, 0x0104, 1, 0,
      by decide +kernel⟩,
   ⟨{ mbx := .fn 0, agree := false }, rq 0x0102 0 0, ask 0x0102 0 0 up, 0x0102, 31, 0, by decide +kernel⟩,
   ⟨xo, rq 0x0102 0x8000 0, ask 0x0102 0x8000 0 up, 0x0102, 31, 0, by decide +kernel, by decide +kernel, by decide +kernel, 2 ^ 31 + 4,
      by decide +kernel⟩⟩

theorem witness_AnswersTouchOnlyTheMailbox :
  (∃ (x : XCall) (m : MbxId), m ≠ x.mbx) :=
  ⟨xo, .board, by decide⟩

theorem witness_CrcAlgorithms :
  (∃ (tenant pseq : _), tenant < 65536 ∧ pseq < 65536) :=
  ⟨0, 0, by decide +kernel⟩

theorem witness_PartitionStarts :
  (∃ (x : XCall) (r : _) (s : State) (p : Nat) (q : Machine.Part) (image : ServiceImage), Served x 0x0B04 r s ∧ wfPartStart x p = true ∧
      part? (begun x s) p = some q ∧ q.running = false ∧ q.image = some image ∧ q.cores ≠ []) :=
  ⟨xo, rq 0x0B04 (0) (0), ask 0x0B04 (0) (0) (party { cores := [0], image := some {} } [] []), 1, { cores := [0], image := some {} }, {},
      served (by decide +kernel), by decide +kernel⟩

theorem witness_DeviceCaps :
  (∃ (x : XCall) (r : _) (s : State), Served x 0x0102 r s ∧ wfDevCaps x = true) :=
  ⟨xo, rq 0x0102 0 0, ask 0x0102 0 0 up, served (by decide +kernel), by decide +kernel⟩

end Sys2Proof.Tests
end

section
/-! SUPPORT. Commands as their meanings: a well-formed command runs, and a served mailbox command answers what its body answers. -/

namespace Sys2Proof.Machine

/-- A command that can be sent carries out its meaning. -/
theorem run_of_wf {wf : Bool} (hw : wf = true) (f : State → State) (s : State) : run wf f s = .next (f s) := by
  simp [run, hw]

@[simp] theorem State.modPkt_pkt (s : State) (f : PacketState → PacketState) : (s.modPkt f).pkt = f s.pkt := rfl

@[simp] theorem count_begun (x : XCall) (s : State) : (begun x s).count = s.count := by
  funext k a b
  simp [State.count]

section Served
variable {x : XCall} {op : Nat} {r : Req} {s t : State} {wf : Bool} {body : Call → State → State × Reply}

/-- A served command whose body answers OK with a payload (R350). -/
theorem run_replied (hw : wf = true) (h : Served x op r s) {p : List Fld} (hb : body (callBy x r s) (begun x s) = (t, okWith p)) :
    run wf (xop x op body) s = .next (replied x r p t) := by
  rw [run_of_wf hw, xop_served h, hb]
  rfl

/-- A served command whose body answers OK with a payload of records "to RLEN" (R350). -/
theorem run_repliedTo (hw : wf = true) (h : Served x op r s) {p : List Fld} {hdr unit : Nat}
    (hb : body (callBy x r s) (begun x s) = (t, okRecords p hdr unit)) :
    run wf (xop x op body) s = .next (repliedTo x r p hdr unit t) := by
  rw [run_of_wf hw, xop_served h, hb]
  rfl

/-- A served command whose body answers another status (R350). -/
theorem run_turnedAway (hw : wf = true) (h : Served x op r s) {st detail : Nat}
    (hb : body (callBy x r s) (begun x s) = (t, failsWith st detail)) :
    run wf (xop x op body) s = .next (turnedAway x r st detail t) := by
  rw [run_of_wf hw, xop_served h, hb]
  rfl

end Served

end Sys2Proof.Machine
end

section
/-! SUPPORT. A function's record and its mailbox, read after a change of them. -/

namespace Sys2Proof.Machine

theorem mget?_mmap {α : Type} (m : List (Nat × α)) (f : Nat → α → α) (k : Nat) : mget? (mmap m f) k = (mget? m k).map (f k) := by
  induction m with
  | nil => rfl
  | cons e m ih =>
    obtain ⟨a, b⟩ := e
    have hm : mmap ((a, b) :: m) f = (a, f a b) :: mmap m f := rfl
    rw [hm, mget?, mget?, ih]
    by_cases h : a = k
    · subst h
      simp
    · simp [h]

/-- A record that is there is found in its changed form. -/
theorem fn?_modFn_self {s : State} {i : Nat} {r : Fn} (h : fn? s i = some r) (f : Fn → Fn) : fn? (s.modFn i f) i = some (f r) := by
  have hthere : (i < 65536 && hostPortExists s (fidPort i)) = true := by
    by_contra hc
    simp [fn?, hc] at h
  have hm : s.modFn i f = { s with fns := mput s.fns i (f r) } := by simp [State.modFn, h]
  have hport : hostPortExists { s with fns := mput s.fns i (f r) } (fidPort i) = hostPortExists s (fidPort i) := rfl
  rw [hm, fn?, hport, if_pos hthere]
  simp

@[simp] theorem fn?_modMbx (s : State) (m : MbxId) (g : Mailbox → Mailbox) (i : Nat) : fn? (s.modMbx m g) i = fn? s i := by
  cases m <;> rfl

@[simp] theorem fn?_orphanCur (s : State) (m : MbxId) (i : Nat) : fn? (s.orphanCur m) i = fn? s i := by
  unfold State.orphanCur
  split
  · rw [fn?_modMbx]
    rfl
  · rfl

@[simp] theorem mbxOf_modMbx_self (s : State) (m : MbxId) (g : Mailbox → Mailbox) : mbxOf (s.modMbx m g) m = g (mbxOf s m) := by
  cases m <;> simp [mbxOf, State.modMbx, mupd]

end Sys2Proof.Machine
end

section
/-! PROOFS. What the host's accesses to a function reach: its exchange page, its notification registers, its rings and its mailbox (R66 to
R79, R89, R373 to R375). -/

namespace Sys2Proof.Machine

/-! ### Accesses to BAR0 and BAR2 of a function that answers them -/

section
variable {f : Nat} {s : State}

theorem barWrite_bar2 (hon : barOn s f = true) {size : Nat} (hsize : [1, 2, 4, 8].contains size = true) (off v : Nat) :
    barWrite f 2 off size v s = bar2Write f off size v s := by
  simp only [barWrite, hon, hsize, Bool.not_true, Bool.false_eq_true, if_false, if_true]

/-- A register word of a function that has no NVMe controller (R77). -/
theorem barWrite_register (hon : barOn s f = true) (hn : isNvme s f = false) {off : Nat} (hoff : off % 4 = 0) {v : Nat}
    (hv : v < 2 ^ 32) : barWrite f 0 off 4 v s = fnRegWrite f off v s := by
  simp only [barWrite, hon, hn, hoff, Nat.mod_eq_of_lt hv, decide_true, Bool.and_self, Bool.not_true, Bool.false_eq_true, if_false, if_true]

theorem bar2Write_page (hvf : isVf f = true) {off size : Nat} (hin : off + size ≤ 0x1000) (v : Nat) :
    bar2Write f off size v s = { s with exch := wrN s.exch (f * 4096 + off) (leBytes size v) } := by
  simp only [bar2Write, hvf, hin, if_true]

theorem bar2Write_notify (hvf : isVf f = true) {v : Nat} (hv : bit v 0 = true) : bar2Write f 0x1000 4 v s = notifyPf f s := by
  simp [bar2Write, hvf, hv]

theorem isVf_of_pf (hf : fidFn f = 0) : isVf f = false := by
  simp [isVf, hf]

/-- A PF that names one of its VFs notifies it (R374). -/
theorem fnRegWrite_notify (hf : fidFn f = 0) (hrole : fnRole s f = 1) {v : Nat} (h4 : 4 ≤ bits v 0 11)
    (hthere : (mget? s.fns (mkFid (fidPort f) (bits v 0 11))).isSome = true) :
    fnRegWrite f 0x200 v s = notifyVf (mkFid (fidPort f) (bits v 0 11)) s := by
  simp [fnRegWrite, hf, isVf_of_pf hf, hrole, h4, hthere]

/-- A word of a PF's pending bits takes the bits written (R375). -/
theorem fnRegWrite_pend (hf : fidFn f = 0) (hrole : fnRole s f = 1) {i : Nat} (hi : i < 64) (v : Nat) :
    fnRegWrite f (0x210 + 4 * i) v s = clearPend f i v s := by
  have hctl : ¬ 0x210 + 4 * i = 0x0C := by omega
  have hmbx : ¬ 0x210 + 4 * i < 0x128 := by omega
  have hnotify : ¬ 0x210 + 4 * i = 0x200 := by omega
  have hmask : ¬ 0x210 + 4 * i = 0x204 := by omega
  have hend : 0x210 + 4 * i < 0x310 := by omega
  simp [fnRegWrite, hf, hrole, hctl, hmbx, hnotify, hmask, hend]

end

/-! ### Leaving FENCED (R89) -/

/-- A ring as `FN_CTL` UNFENCE leaves it. -/
def Ring.unfenced (x : Ring) : Ring :=
  if x.state = 3 then { x with state := 0, enable := false, tx := [], partialDescs := [], bufs := [], tail := false } else x

theorem Ring.unfenced_state {x : Ring} (h : x.state = 3) : x.unfenced.state = 0 := by
  simp [Ring.unfenced, h]

/-- The function with each of its rings unfenced. -/
def Fn.unfenced (r : Fn) : Fn := { r with rings := mmap r.rings fun _ x => x.unfenced }

section
variable {f : Nat} {s : State}

theorem unfence_eq (hbme : (fnD s f).bme = true) (hn : isNvme s f = false) :
    unfence f s =
      if (mbxOf (s.modFn f Fn.unfenced) (.fn f)).state = 3 then
        ((s.modFn f Fn.unfenced).orphanCur (.fn f)).modMbx (.fn f) (fun b => { b with state := 0, enable := false, queue := [] })
      else s.modFn f Fn.unfenced := by
  rw [unfence, if_pos (by simp [hbme, hn])]
  rfl

/-- The record of a function that is unfenced: what its mailbox does besides leaves it as it is. -/
theorem fn?_unfence {r : Fn} (hfn : fn? s f = some r) (hbme : (fnD s f).bme = true) (hn : isNvme s f = false) :
    fn? (unfence f s) f = some r.unfenced := by
  have hmod : fn? (s.modFn f Fn.unfenced) f = some r.unfenced := fn?_modFn_self hfn _
  rw [unfence_eq hbme hn]
  split
  · rw [fn?_modMbx, fn?_orphanCur, hmod]
  · exact hmod

theorem ringOf_unfence_of_fenced {r : Fn} (hfn : fn? s f = some r) (hbme : (fnD s f).bme = true) (hn : isNvme s f = false) {i : Nat}
    (h3 : (ringOf s f i).state = 3) : (ringOf (unfence f s) f i).state = 0 := by
  have hold : ringOf s f i = mgetD r.rings i {} := by simp [ringOf, fnD, hfn]
  have hnew : ringOf (unfence f s) f i = mgetD r.unfenced.rings i {} := by simp [ringOf, fnD, fn?_unfence hfn hbme hn]
  rw [hold, mgetD] at h3
  rw [hnew, mgetD, Fn.unfenced, mget?_mmap]
  cases hx : mget? r.rings i with
  | none => simp [hx] at h3
  | some x =>
    rw [hx] at h3
    exact Ring.unfenced_state h3

theorem mbxOf_unfence (hbme : (fnD s f).bme = true) (hn : isNvme s f = false) : (mbxOf (unfence f s) (.fn f)).state ≠ 3 := by
  rw [unfence_eq hbme hn]
  split
  · simp
  · assumption

end

/-- A function that answers accesses is there. -/
theorem fn?_of_barOn {s : State} {f : Nat} (hon : barOn s f = true) : ∃ r, fn? s f = some r := by
  simp only [barOn, Bool.and_eq_true] at hon
  exact Option.isSome_iff_exists.mp hon.2

/-! ### Accesses to BAR4 (R77, R78) -/

/-- An access inside a window that allows it reaches the window's target. -/
theorem exec_bar4WindowTlp_hit {f off len i : Nat} {write stalled : Bool} {data : List Byte} {w : Win} {s : State}
    (hw : wfBar4WindowTlp f off len write data stalled = true) (hfn : hostFn s f = true) (hrun : s.phase = .running)
    (hmse : (fnD s f).mse = true) (hwin : winFor s f off len = some (i, w)) (hen : (if write then w.wrEn else w.rdEn) = true) :
    exec (.bar4WindowTlp f off len write data stalled) s = .next (winAccess f off len write data i w stalled s) := by
  show execBar4WindowTlp f off len write data stalled s = _
  rw [execBar4WindowTlp, run_of_wf hw]
  simp [hfn, hrun, hmse, hwin, hen]

/-- Settles O11: each command that can be sent does what its register, its page or its window does. -/
theorem functionAccess : Obligations.FunctionAccess := by
  unfold Obligations.FunctionAccess
  refine ⟨?_, ?_, ?_, ?_, ?_, ?_, ?_, ?_, ?_, ?_, ?_, ?_, ?_⟩
  · intro f bus v s hw hport hup hready hrun hfn hvf hfready
    show execPcieConfigRequest (.fid f) .id bus false v s = _
    rw [execPcieConfigRequest, run_of_wf hw]
    simp [hport, hup, hready, hrun, Option.isSome_iff_ne_none.mp hfn, hvf, hfready, cfgRead]
  · intro f bus v s hw hport hup hready hrun
    show execPcieConfigRequest (.fid f) .id bus false v s = _
    rw [execPcieConfigRequest, run_of_wf hw]
    simp [hport, hup, hready, hrun]
  · intro f bar off size v s hw
    show execRegisterWrite (.fid f) bar off size v s = _
    rw [execRegisterWrite, run_of_wf hw]
  · intro f size off v s hon hvf hin hsize
    rw [barWrite_bar2 hon hsize, bar2Write_page hvf hin]
  · intro f v s hon hvf hv hw
    refine (run_of_wf hw _ s).trans (congrArg _ ?_)
    rw [if_pos (by simp [hon, hvf]), barWrite_bar2 hon (by decide), bar2Write_notify hvf hv]
  · intro f v s hon hf hn hrole hw h4 hthere
    refine (run_of_wf hw _ s).trans (congrArg _ ?_)
    have ⟨_, hv⟩ : f < 65536 ∧ v < 2 ^ 32 := by simpa [wfPfExchNotify] using hw
    rw [if_pos hf, barWrite_register hon hn (by decide) hv, fnRegWrite_notify hf hrole h4 hthere]
  · intro f i v s hon hf hn hrole hi hw
    refine (run_of_wf hw _ s).trans (congrArg _ ?_)
    have ⟨_, hv⟩ : (f < 65536 ∧ i < 64) ∧ v < 2 ^ 32 := by simpa [wfExchPendClear] using hw
    rw [if_pos hf, barWrite_register hon hn (by omega) hv, fnRegWrite_pend hf hrole hi]
  · intro f vec s hw hon hvec
    refine (run_of_wf hw _ s).trans (congrArg _ ?_)
    rw [if_pos (by simp [hon, hvec])]
  · intro f s hw hon hbme hn
    obtain ⟨r, hfn⟩ := fn?_of_barOn hon
    refine ⟨unfence f s, (run_of_wf hw _ s).trans (congrArg _ (if_pos hon)), ?_, mbxOf_unfence hbme hn⟩
    exact fun i h3 => ringOf_unfence_of_fenced hfn hbme hn h3
  · intro v s hw hrec
    refine (run_of_wf hw _ s).trans (congrArg _ ?_)
    rw [if_pos hrec]
  · intro f off len data s i w hw hfn hrun hmse hwin hen ht
    rw [exec_bar4WindowTlp_hit hw hfn hrun hmse hwin hen]
    simp [winAccess, ht]
  · intro f off len data s i w hw hfn hrun hmse hwin hen ht
    rw [exec_bar4WindowTlp_hit hw hfn hrun hmse hwin hen]
    simp [winAccess, ht]
  · intro f off len data s hw hfn hrun hmse hwin
    show execBar4WindowTlp f off len false data false s = _
    rw [execBar4WindowTlp, run_of_wf hw]
    simp [hfn, hrun, hmse, hwin]

end Sys2Proof.Machine
end

section
/-! SUPPORT. Bit fields: what a change of one field leaves of the fields below it. -/

namespace Sys2Proof.Machine

theorem bits_mul_two_pow_le (n lo w : Nat) : bits n lo w * 2 ^ lo ≤ n :=
  calc bits n lo w * 2 ^ lo ≤ n / 2 ^ lo * 2 ^ lo := Nat.mul_le_mul_right _ (Nat.mod_le _ _)
    _ ≤ n := Nat.div_mul_le_self _ _

theorem setBits_mod_two_pow (n lo w v : Nat) : setBits n lo w v % 2 ^ lo = n % 2 ^ lo := by
  have hle : 2 ^ lo * bits n lo w ≤ n := Nat.mul_comm .. ▸ bits_mul_two_pow_le n lo w
  rw [setBits, Nat.add_mul_mod_self_right, Nat.mul_comm, Nat.sub_mul_mod hle]

/-- A field that ends at or below the one that is set reads as it did. -/
theorem bits_setBits_below (n : Nat) {lo i k : Nat} (w v : Nat) (h : i + k ≤ lo) : bits (setBits n lo w v) i k = bits n i k := by
  have hdvd : 2 ^ i * 2 ^ k ∣ 2 ^ lo := by
    rw [← Nat.pow_add]
    exact Nat.pow_dvd_pow 2 h
  rw [bits, bits, ← Nat.mod_mul_right_div_self, ← Nat.mod_mul_right_div_self, ← Nat.mod_mod_of_dvd (setBits n lo w v) hdvd,
    setBits_mod_two_pow, Nat.mod_mod_of_dvd n hdvd]

end Sys2Proof.Machine
end

section
/-! PROOFS. The commands that write the shadow Pad: one whose turn has come is carried out at once (R132, R220 to R223, R226). -/

namespace Sys2Proof.Machine

/-- A write of the shadow Pad that nothing holds back is carried out (R132, R223, R226). -/
theorem padCmd_of_free {op : PadOp} {s : State} (hop : op.shadowOnly = true) (hleap : leapPending s = false) (hheld : padHeld s = false)
    (hfree : padBlocked s op = false) : padCmd op s = padApply op s := by
  simp [padCmd, padTurn, hop, hleap, hheld, hfree]

/-- A write that is not structural waits for the packets in the action engines alone (R223). -/
theorem padBlocked_of_not_structural {op : PadOp} (hop : op.structural = false) (s : State) :
    padBlocked s op = padInEngines s (shadowBit s) := by
  simp [padBlocked, hop]

/-- The queued packets hold every structural write alike (R223). -/
theorem padBlocked_of_structural {op : PadOp} (hop : op.structural = true) (s : State) : padBlocked s op = padBlocked s .copy := by
  simp [padBlocked, hop, show PadOp.copy.structural = true from rfl]

theorem padApply_write_of_unused {pipes slot v : Nat} {s : State} (h : ∀ k ∈ pipesOf pipes, slotUsed (padOf s (shadowBit s)) 0 k slot = false) :
    padApply (.write 0 pipes slot v) s =
      (shadowWrite (fun p => (pipesOf pipes).foldl (fun p k => putSlot 0 k slot v p) p) s, ok) := by
  have hnone : (pipesOf pipes).any (fun k => slotUsed (padOf s (shadowBit s)) 0 k slot) = false := by
    simpa using h
  simp [padApply, hnone]

/-- The reserved bits of a group record are none of its mode's (R159). -/
theorem grpMode_clearBits (rec : Nat) : grpMode (clearBits rec [(26, 6)]) = grpMode rec := by
  rw [grpMode, grpMode, clearBits, List.foldl_cons, List.foldl_nil, bits_setBits_below rec 6 0 (by decide)]

theorem sprayFull_of_not_spray {rec : Nat} (h : grpMode rec ≠ 2) (s : State) (g : Nat) : sprayFull s g rec = false := by
  simp [sprayFull, h]

theorem padApply_group_of_not_spray {g rec : Nat} (h : grpMode rec ≠ 2) (members : List Nat) (s : State) :
    padApply (.group g rec members) s =
      (spraySlots g (shadowWrite (fun p => { p with groups := mput p.groups g { record := rec, members } }) s), ok) := by
  simp [padApply, sprayFull_of_not_spray h]

@[simp] theorem padOf_modPad_self (s : State) (b : Nat) (f : Pad → Pad) : padOf (s.modPad b f) b = f (padOf s b) := by
  by_cases h : b = 0 <;> simp [padOf, State.modPad, h]

theorem nodeMine_of_not_port {c : Call} (hc : c.role ≠ 2) (s : State) (level i : Nat) : nodeMine c s level i = true := by
  simp [nodeMine, hc]

theorem parentMine_of_not_port {c : Call} (hc : c.role ≠ 2) (s : State) (level parent : Nat) : parentMine c s level parent = true := by
  simp [parentMine, hc]

theorem baseMine_of_not_port {c : Call} (hc : c.role ≠ 2) (s : State) (dest base count : Nat) : baseMine c s dest base count = true := by
  simp [baseMine, hc]

/-! ### The forms of `QUEUE_MAP`, for callers that are no port managers (R209, R212, R213) -/

section
variable {c : Call} {s : State}

theorem queueMap_node (hc : c.role ≠ 2) {level prio pfc overhead weight deadline node parent : Nat}
    (hf : nodeFault level prio pfc overhead weight deadline node parent = none) :
    queueMap (.node level prio pfc overhead weight deadline node parent) c s = padCmd (.node level node
      (pack [(17, parent), (3, prio), (12, weight), (1, 0), (3, pfc), (10, deadline), (6, overhead)])) s := by
  simp [queueMap, nodeMine_of_not_port hc, parentMine_of_not_port hc, hf]

theorem queueMap_base_port (hc : c.role ≠ 2) {count dest base : Nat} (hcount : [1, 2, 4, 8, 16].contains count = true)
    (htype : destType dest = 1) (harg : destArg dest < 144) (hdest : dest < 2 ^ 24) (hbase : base + count ≤ 131072) :
    queueMap (.base count dest base) c s = padCmd (.qbase dest (base * 32 + count)) s := by
  simp only [queueMap, baseMine_of_not_port hc, hcount, htype, harg, Nat.not_le.mpr hdest, Nat.not_lt.mpr hbase, decide_true,
    decide_false, Bool.and_self, Bool.true_or, Bool.not_true, Bool.or_self, Bool.false_eq_true, if_false]

theorem queueMap_session (hc : c.role ≠ 2) {n trunc sample : Nat} (h1 : 1 ≤ n) (h7 : n ≤ 7)
    (htrunc : trunc = 0 ∨ (64 ≤ trunc ∧ trunc ≤ 9600)) (hsample : sample ≠ 0) (queue : Nat) :
    queueMap (.session n trunc sample queue) c s =
      padCmd (.mirror n trunc sample (if queue < 131072 then some queue else none)) s := by
  have hn : ¬ (n = 0 ∨ 7 < n) := by omega
  have ht : ¬ (¬ trunc = 0 ∧ (trunc < 64 ∨ 9600 < trunc)) := by omega
  simp [queueMap, hc, hn, ht, hsample]

end

/-- Settles O29: each command passes its checks, its turn has come, and the frame answers what the write answers. -/
theorem padWriteCommands : Obligations.PadWriteCommands := by
  unfold Obligations.PadWriteCommands
  intro x r s hleap hheld u done
  have soft (op : PadOp) (hop : op.shadowOnly = true) (hs : op.structural = false) (h : padInEngines u (shadowBit u) = false) :
      padCmd op u = padApply op u :=
    padCmd_of_free hop hleap hheld (by rw [padBlocked_of_not_structural hs, h])
  have hard (op : PadOp) (hop : op.shadowOnly = true) (hs : op.structural = true) (h : padBlocked u .copy = false) :
      padCmd op u = padApply op u :=
    padCmd_of_free hop hleap hheld (by rw [padBlocked_of_structural hs, h])
  have owner (hr : (callBy x r s).role = 1) : (callBy x r s).role ≠ 2 := by simp [hr]
  refine ⟨?_, ?_, ?_, ?_, ?_, ?_, ?_, ?_, ?_, ?_, ?_, ?_, ?_⟩
  · intro port rec h hw hport hrec hfree
    refine run_replied hw h (.trans ?_ (soft (.parse port _) rfl rfl hfree))
    simp [Nat.not_le.mpr hport, hrec, u]
  · intro port a h hw hport v hv hfree
    refine run_replied hw h (.trans ?_ (soft (.default_ port v) rfl rfl hfree))
    simp [Nat.not_le.mpr hport, hv, v, u]
  · intro pipes slot e h hw hlive hp hslot hgood hfree hunused
    refine run_replied hw h (.trans ?_ ((soft (.write 0 pipes slot e.toNat) rfl rfl hfree).trans (padApply_write_of_unused hunused)))
    simp [slotFault, Nat.not_le.mpr hp, Nat.not_le.mpr hslot, isLive, hlive, hgood, u]
  · intro pipes kind slot h hw hlive hf hfree
    refine run_replied hw h (.trans ?_ (soft (.clear kind pipes slot) rfl rfl hfree))
    simp [hf, isLive, hlive, u]
  · intro c h hw hf hfree
    refine run_replied hw h (.trans ?_ (soft (.ucode c) rfl rfl hfree))
    simp [show ucodeFault (begun x s) c = none from hf, u]
  · intro i rec h hw hi v hmode hrate hr hfree
    refine run_replied hw h (.trans ?_ (soft (.policer i v) rfl rfl hfree))
    have hbad : ¬ (polMode v = 3 ∨ (polMode v = 1 ∧ polPir v < polCir v)) := by
      rintro (h3 | ⟨h1, hlt⟩)
      · exact hmode h3
      · exact absurd (hrate h1) (Nat.not_le.mpr hlt)
    simp [hr, Nat.not_le.mpr hi, hbad, v, u]
  · intro level rt node cir cbs pir pbs h hw hlevel hrt hnode hr hfree
    refine run_replied hw h (.trans ?_ (hard (.rates level node rt _) rfl rfl hfree))
    simp [nodeMine_of_not_port (owner hr), Nat.not_le.mpr hlevel, Nat.not_le.mpr hrt, Nat.not_le.mpr hnode, u]
  · intro level prio pfc oh weight dl node parent h hw hf hr hfree
    exact run_replied hw h ((queueMap_node (owner hr) hf).trans (hard _ rfl rfl hfree))
  · intro count dest base h hw hcount htype harg hdest hbase hr hfree
    exact run_replied hw h ((queueMap_base_port (owner hr) hcount htype harg hdest hbase).trans (soft _ rfl rfl hfree))
  · intro n trunc sample q h hw h1 h7 htrunc hsample hr hfree
    exact run_replied hw h ((queueMap_session (owner hr) h1 h7 htrunc hsample q).trans (hard _ rfl rfl hfree))
  · intro g rec members h hw hf hmode hfree
    have hclean : grpMode (clearBits rec [(26, 6)]) ≠ 2 := by rwa [grpMode_clearBits]
    refine run_replied hw h (.trans ?_ ((soft (.group g _ _) rfl rfl hfree).trans (padApply_group_of_not_spray hclean _ u)))
    simp [hf, sprayFull_of_not_spray hmode, u]
  · intro h hw hfree
    exact ⟨_, run_replied hw h (hard .copy rfl rfl hfree), padOf_modPad_self u (shadowBit u) _, rfl⟩
  · intro h hw hfree
    exact ⟨_, run_replied hw h (hard .discard rfl rfl hfree), padOf_modPad_self u (shadowBit u) _, rfl⟩

end Sys2Proof.Machine
end

section
/-! PROOFS. The table commands' bodies, for callers that are no port managers (R136 to R146, R153, R157, R170). -/

namespace Sys2Proof.Machine

/-! ### What the counting and the regrouping of a table command leave as it was -/

@[simp] theorem countAll_pkt (k : CtrKind) (table : Nat) (s : State) : (countAll k table s).pkt = s.pkt :=
  foldl_keeps (·.pkt) _ (fun s _ => by simp) _ s

@[simp] theorem regroup_nhs (s : State) : (regroup s).pkt.nhs = s.pkt.nhs :=
  foldl_keeps (fun s => s.pkt.nhs) _ (by intros; rfl) _ s

/-! ### Insertion -/

theorem insertDirect_vns (i n : Nat) (s : State) : (insertDirect 1 i n s).pkt.vns = putRec s.pkt.vns i n 0 := by
  by_cases hv : (mget? s.pkt.vns i).isSome <;> simp [insertDirect, hv]

theorem insertDirect_nhs (i n : Nat) (s : State) : (insertDirect 6 i n s).pkt.nhs = mput s.pkt.nhs i n := by
  by_cases hv : (mget? s.pkt.nhs i).isSome <;> simp [insertDirect, hv]

theorem insertCuckoo_of_placed {table pipes n : Nat} {s t : State} (h : insertAll table n (entryPipes table pipes n) s = (t, true)) :
    insertCuckoo table pipes n s = (t, ok) := by
  simp [insertCuckoo, h]

theorem insertCuckoo_of_failed {table pipes n : Nat} {s t : State} (h : insertAll table n (entryPipes table pipes n) s = (t, false)) :
    insertCuckoo table pipes n s = (tablesBack s t, fails stNoResource) := by
  simp [insertCuckoo, h]

/-- Only a port manager's L2 insertions are held to the owner's grant (R136, R148). -/
theorem overGrant_l2_not_port (s t : State) (n : Nat) : overGrant s t 2 n false = false := by
  unfold overGrant
  split <;> simp

theorem insertForeign_of_not_port {c : Call} (hc : c.role ≠ 2) (table : Nat) (e : TblEntry) (s : State) :
    insertForeign table e c s = false := by
  simp [insertForeign, hc]

theorem insertForeign_of_ownerTable {c : Call} {table : Nat} (hc : c.role = 2) (ht : ownerTable table = true) (e : TblEntry) (s : State) :
    insertForeign table e c s = true := by
  simp [insertForeign, hc, ht]

section
variable {c : Call} {table pipes pipe i : Nat} {v : BitVec 512} {s : State}

theorem tableFault_vn (hi : i < 1048576) (pipes : Nat) : tableFault 1 pipes i = none := by
  simp [tableFault, hi]

theorem tableFault_l2 (hp : pipes < 512) (i : Nat) : tableFault 2 pipes i = none := by
  simp [tableFault, hp]

theorem tblInsert_vn (hc : c.role ≠ 2) (hi : i < 1048576) :
    tblInsert 1 pipes i (.record v) c s = (insertDirect 1 i (entryClean 1 v.toNat) s, ok) := by
  simp [tblInsert, insertForeign_of_not_port hc, tableFault_vn hi, entryOk, keyOk]

/-- An entry of a cuckoo table that passes the checks: the insertion, unless it takes the entry's owner past the grant. -/
theorem tblInsert_cuckoo (hc : c.role ≠ 2) (hcuckoo : table ≠ 1 ∧ table ≠ 6) (hf : tableFault table pipes i = none)
    (he : entryOk table (.record v) = true) (ht : tenantFault s table (entryClean table v.toNat) = none) :
    tblInsert table pipes i (.record v) c s =
      if overGrant s (insertCuckoo table pipes (entryClean table v.toNat) s).1 table (entryClean table v.toNat) false then
        (s, fails stNoResource)
      else insertCuckoo table pipes (entryClean table v.toNat) s := by
  simp [tblInsert, insertForeign_of_not_port hc, hf, he, hcuckoo, ht, hc]

theorem tblInsert_l2 (hc : c.role ≠ 2) (hp : pipes < 512) (he : entryOk 2 (.record v) = true)
    (ht : tenantFault s 2 (entryClean 2 v.toNat) = none) :
    tblInsert 2 pipes i (.record v) c s = insertCuckoo 2 pipes (entryClean 2 v.toNat) s := by
  rw [tblInsert_cuckoo hc (by decide) (tableFault_l2 hp i) he ht, overGrant_l2_not_port, if_neg Bool.false_ne_true]

theorem tblInsert_denied {e : TblEntry} (hc : c.role = 2) (ht : ownerTable table = true) :
    tblInsert table pipes i e c s = (s, fails stDenied) := by
  simp [tblInsert, insertForeign_of_ownerTable hc ht]

/-! ### Deletion and lookup -/

theorem tblDelete_vn (hc : c.role ≠ 2) (hi : i < 1048576) (hv : (mget? s.pkt.vns i).isSome = true) :
    tblDelete 1 pipes i (.record v) c s =
      (countAll .tblDelete 1 (s.modPkt (fun p => { p with vns := mdel p.vns i })), ok) := by
  have hv' : (mget? s.pkt.vns i).isNone = false := by simpa using hv
  simp [tblDelete, tableFault_vn hi, keyOk, hc, hv']

theorem tblLookup_l2 {n : Nat} (hc : c.role ≠ 2) (hp : pipe < 9) (hn : (tblOf s 2 pipe).find l2Kind (keyOf l2Kind v.toNat) = some n) :
    tblLookup 2 pipe i (.record v) c s = okWith [.arr (leBytes 24 n)] := by
  have hk : tblKind 2 = l2Kind := rfl
  have hl : lookPipe 2 pipe = pipe := rfl
  have hb : entryBytes 2 = 24 := rfl
  simp [tblLookup, tableFault_l2, keyOk, hc, hk, hl, hb, hn, Nat.not_le.mpr hp]

theorem tblLookup_vn_absent (hc : c.role ≠ 2) (hp : pipe < 9) (hi : i < 1048576) (hv : mget? s.pkt.vns i = none) :
    tblLookup 1 pipe i (.record v) c s = fails stNotFound := by
  simp [tblLookup, tableFault_vn hi, keyOk, hc, hv, Nat.not_le.mpr hp]

end

/-! ### Rehash -/

/-- The flow table as a rehash begins: the seed it had is the old generation's, and a free value is the new one's (R157). -/
def flowRehashBegun (s : State) : Cuckoo :=
  { s.pkt.flow with
    old := some s.pkt.flow.seed, seed := Config.freeNat s.free, gen := 1 - s.pkt.flow.gen, moved := 0, unplaced := 0 }

/-- What `TBL_REHASH` of the flow table answers about a table of which every entry has been placed (R157). -/
def rehashPayload (t : Cuckoo) : List Fld := [u8 (b2n t.old.isSome), u32 (t.oldEntries flowKind).length, u32 t.unplaced]

theorem rehashReply_of_placed {t : Cuckoo} (h : t.unplaced = 0) : rehashReply t flowKind = okWith (rehashPayload t) := by
  simp [rehashReply, h, okWith, rehashPayload]

/-! ### Port statistics -/

@[simp] theorem macCounters_begun (x : XCall) (s : State) (port : Nat) : macCounters (begun x s) port = macCounters s port := by
  simp [macCounters, portParts]

@[simp] theorem parseCounters_begun (x : XCall) (s : State) (port : Nat) : parseCounters (begun x s) port = parseCounters s port := by
  simp [parseCounters, pipeOfPort]

/-- Settles O31: each command's body on the state it begins in, and the frame's answer. -/
theorem tableCommands : Obligations.TableCommands := by
  unfold Obligations.TableCommands
  refine ⟨?_, ?_, ?_, ?_, ?_, ?_, ?_, ?_, ?_, ?_, ?_, ?_, ?_⟩
  · intro x r s pipes i v h hw hi hr
    exact run_replied hw h (tblInsert_vn (by simp [hr]) hi)
  · exact fun i n s => ⟨insertDirect_vns i n s, insertDirect_nhs i n s⟩
  · intro x r s pipes i v t h hw hp n he hr ht hins
    exact run_replied hw h ((tblInsert_l2 (by simp [hr]) hp he ht).trans (insertCuckoo_of_placed hins))
  · intro x r s pipes i v t h hw hp n he hr ht hins
    exact run_turnedAway hw h ((tblInsert_l2 (by simp [hr]) hp he ht).trans (insertCuckoo_of_failed hins))
  · intro x r s table pipes i e h hw hr ht
    exact run_turnedAway hw h (tblInsert_denied hr ht)
  · intro x r s pipes i v h hw hi hr hv
    exact ⟨_, run_replied hw h (tblDelete_vn (by simp [hr]) hi (by simpa using hv)), by simp⟩
  · intro x r s pipe i v n h hw hp hr hn
    have hn' : (tblOf (begun x s) 2 pipe).find l2Kind (keyOf l2Kind v.toNat) = some n := by simpa [tblOf] using hn
    exact run_replied hw h (by rw [reads, tblLookup_l2 (by simp [hr]) hp hn'])
  · intro x r s pipe i v h hw hp hi hr hv
    exact run_turnedAway hw h (by rw [reads, tblLookup_vn_absent (by simp [hr]) hp hi (by simpa using hv)]; rfl)
  · intro x r s pipe value cursor h hw hp hr
    refine run_replied hw h ?_
    simp [hr, filterMine, tblCounters, Nat.not_le.mpr hp]
  · intro x r s value h hw hr
    refine run_replied hw h ?_
    simp [hr, filterMine, filterBad]
  · intro x r s h hw hflag hold
    refine ⟨((begun x s).draw.2).setTbl 3 0 (flowRehashBegun (begun x s)), rehashPayload (flowRehashBegun (begun x s)),
      run_replied hw h ?_, ?_⟩
    · rw [← rehashReply_of_placed rfl]
      simp [hflag, hold, tblOf, tblKind, lookPipe, State.draw, flowRehashBegun]
    · simp [State.setTbl, flowRehashBegun]
  · intro x r s port h hw hp hr
    exact run_repliedTo hw h (by simp [reads, hr, Nat.not_le.mpr hp, Nat.not_le.mpr (Nat.lt_trans hp (by decide : 144 < 176))])
  · intro x r s port h hw hp hr
    exact run_repliedTo hw h (by simp [reads, hr, Nat.not_le.mpr hp])

end Sys2Proof.Machine
end

section
/-! SUPPORT. The clock: what leaves device time and the tick of the timebase oscillator as they were (R18, R32). -/

namespace Sys2Proof.Machine

/-- Device time (R18) and the epochs of the 1 µs tick (R32). -/
def State.clock (s : State) : Nat × Nat := (s.time, s.tick)

theorem State.clock_eq {s t : State} (ht : s.time = t.time) (hk : s.tick = t.tick) : s.clock = t.clock := by
  rw [State.clock, State.clock, ht, hk]

theorem State.time_of_clock {s t : State} (h : s.clock = t.clock) : s.time = t.time := congrArg Prod.fst h
theorem State.tick_of_clock {s t : State} (h : s.clock = t.clock) : s.tick = t.tick := congrArg Prod.snd h

@[simp] theorem State.emit_clock (s : State) (o : Output) : (s.emit o).clock = s.clock := rfl
@[simp] theorem State.drawBelow_clock (s : State) (n : Nat) : (s.drawBelow n).2.clock = s.clock := rfl
@[simp] theorem State.modCip_clock (s : State) (f : CipherState → CipherState) : (s.modCip f).clock = s.clock := rfl
@[simp] theorem State.modSto_clock (s : State) (f : StorageState → StorageState) : (s.modSto f).clock = s.clock := rfl
@[simp] theorem State.modPkt_clock (s : State) (f : PacketState → PacketState) : (s.modPkt f).clock = s.clock := rfl
@[simp] theorem State.modChan_clock (s : State) (c : Nat) (f : Channel → Channel) : (s.modChan c f).clock = s.clock := rfl
@[simp] theorem State.modThread_clock (s : State) (t : Nat) (f : Thread → Thread) : (s.modThread t f).clock = s.clock := rfl
@[simp] theorem State.modOwner_clock (s : State) (o : Nat) (f : Owner → Owner) : (s.modOwner o f).clock = s.clock := rfl
@[simp] theorem State.bump_clock (s : State) (k : CtrKind) (a b n : Nat) : (s.bump k a b n).clock = s.clock :=
  State.clock_eq (by simp) (by simp)
@[simp] theorem State.modRing_clock (s : State) (i r : Nat) (f : Ring → Ring) : (s.modRing i r f).clock = s.clock :=
  State.clock_eq (by simp) (by simp)
@[simp] theorem State.hostWr_clock (s : State) (i a : Nat) (bs : List Byte) : (s.hostWr i a bs).clock = s.clock :=
  State.clock_eq (by simp) (by simp)
@[simp] theorem State.hostRd_clock (s : State) (i a n : Nat) (p : ReadFor) : (s.hostRd i a n p).clock = s.clock :=
  State.clock_eq (by simp) (by simp)
@[simp] theorem State.sendMsix_clock (s : State) (i v : Nat) : (s.sendMsix i v).clock = s.clock :=
  State.clock_eq (by simp) (by simp)
@[simp] theorem State.event_clock (s : State) (c : Nat) (u : Subject) (a : Nat) : (s.event c u a).clock = s.clock :=
  State.clock_eq (by simp) (by simp)

/-- A fold whose every step keeps the clock keeps it. -/
theorem foldl_clock {α : Type} {f : State → α → State} (h : ∀ s x, (f s x).clock = s.clock) (l : List α) (s : State) :
    (l.foldl f s).clock = s.clock :=
  foldl_keeps State.clock f h l s

/-! ### Rings and completions -/

@[simp] theorem announce_clock (fid c : Nat) (s : State) : (announce fid c s).clock = s.clock := by
  unfold announce
  dsimp only
  split <;> simp

@[simp] theorem moderate_clock (fid c : Nat) (s : State) : (moderate fid c s).clock = s.clock := by
  unfold moderate
  dsimp only
  split <;> simp

@[simp] theorem cplWrite_clock (fid c : Nat) (es : List Cpl) (s : State) : (cplWrite fid c es s).clock = s.clock := by
  unfold cplWrite
  split
  · rfl
  · simp [foldl_clock]

@[simp] theorem txFlush_clock (fid r : Nat) (s : State) : (txFlush fid r s).clock = s.clock := by
  unfold txFlush
  dsimp only
  split
  · rw [cplWrite_clock]
    split <;> simp
  · rfl

@[simp] theorem txNote_clock (src : Source) (f : TxPkt → TxPkt) (s : State) : (txNote src f s).clock = s.clock := by
  cases src <;> simp [txNote]

@[simp] theorem dropPkt_clock (k : Pkt) (reason : Nat) (s : State) : (dropPkt k reason s).clock = s.clock := by
  simp [dropPkt, txDrop]

@[simp] theorem readBufs_clock (fid r : Nat) (s : State) : (readBufs fid r s).clock = s.clock := by
  unfold readBufs
  dsimp only
  split <;> simp

@[simp] theorem kick_clock (fid r : Nat) (s : State) : (kick fid r s).clock = s.clock := by
  unfold kick
  dsimp only
  split
  · split <;> simp
  · split <;> simp

@[simp] theorem kickAll_clock (fid : Nat) (s : State) : (kickAll fid s).clock = s.clock :=
  foldl_clock (by simp) _ s

/-! ### Buffer owners (R201, R204, R206) -/

@[simp] theorem bumpOwner_clock (k pool : CtrKind) (o : Nat) (s : State) : (bumpOwner k pool o s).clock = s.clock := by
  unfold bumpOwner
  dsimp only
  split <;> simp

@[simp] theorem pauseSync_clock (o : Nat) (s : State) : (pauseSync o s).clock = s.clock := by
  unfold pauseSync
  dsimp only
  split
  · rfl
  · split
    · rfl
    · split
      · rw [State.bump_clock, State.emit_clock]
        rfl
      · rw [apply_ite State.clock, foldl_clock (by simp), State.emit_clock]
        exact ite_self _

@[simp] theorem bpAct_clock (o : Nat) (on : Bool) (s : State) : (bpAct o on s).clock = s.clock := by
  unfold bpAct
  split
  · exact pauseSync_clock o s
  · split
    · exact kickAll_clock _ s
    · rfl

@[simp] theorem bpAssert_clock (cause o : Nat) (s : State) : (bpAssert cause o s).clock = s.clock := by
  unfold bpAssert
  dsimp only
  split
  · rfl
  · split <;> simp

@[simp] theorem bpRelease_clock (s : State) : (bpRelease s).clock = s.clock :=
  foldl_clock (by simp) _ s

@[simp] theorem bpSweep_clock (s : State) : (bpSweep s).clock = s.clock := by
  rw [bpSweep, bpRelease_clock, foldl_clock (by simp)]

/-! ### The backends' segments (R10, R264) and the storage domain's tick (R248, R273) -/

@[simp] theorem storageCharge_clock (n : Nat) (s : State) : (storageCharge n s).clock = s.clock := by
  simp [storageCharge, noteAdmitted]

@[simp] theorem toIngress_clock (k : Pkt) (s : State) : (toIngress k s).clock = s.clock := by
  unfold toIngress
  split <;> simp

@[simp] theorem tcpFrame_clock (k : Backend) (c : Conn) (ack : Nat) (p : List Byte) (s : State) :
    (tcpFrame k c ack p s).2.clock = s.clock := rfl

@[simp] theorem State.modConn_clock (s : State) (b q : Nat) (f : Conn → Conn) : (s.modConn b q f).clock = s.clock := rfl

@[simp] theorem connSend_clock (b q : Nat) (bs : List Byte) (s : State) : (connSend b q bs s).clock = s.clock :=
  foldl_clock (by simp) _ s

@[simp] theorem backSend_clock (b tag op lba len : Nat) (data : List Byte) (s : State) :
    (backSend b tag op lba len data s).clock = s.clock := by
  simp [backSend]

@[simp] theorem backGo_clock (b : BackCmd) (s : State) : (backGo b s).clock = s.clock := by
  unfold backGo
  split
  · rfl
  · simp

@[simp] theorem backPump_clock (s : State) : (backPump s).clock = s.clock :=
  foldl_clock (by simp) _ s

@[simp] theorem lockAdd_clock (l : List Lock) (s : State) : (lockAdd l s).clock = s.clock := by
  simp [lockAdd]

@[simp] theorem rebuildPump_clock (fuel h : Nat) (s : State) : (rebuildPump fuel h s).clock = s.clock := by
  induction fuel generalizing s with
  | zero => rfl
  | succ fuel ih =>
    unfold rebuildPump
    split
    · rfl
    · split
      · rfl
      · simp [ih]

@[simp] theorem rebuildStart_clock (h : Nat) (reps : List Nat) (s : State) : (rebuildStart h reps s).clock = s.clock := by
  unfold rebuildStart
  split
  · rfl
  · simp

@[simp] theorem autoRebuild_clock (h : Nat) (s : State) : (autoRebuild h s).clock = s.clock := by
  unfold autoRebuild
  split
  · split <;> simp
  · rfl

@[simp] theorem storageTick_clock (s : State) : (storageTick s).clock = s.clock := by
  rw [storageTick, foldl_clock (by simp), backPump_clock]

/-! ### The cipher engine's queues (R294) -/

theorem startOne_clock {s t : State} (h : startOne s = some t) : t.clock = s.clock := by
  unfold startOne at h
  dsimp only at h
  split at h
  · cases h
  · split at h
    · cases h
    · cases h
      split <;> simp [touchCache]

@[simp] theorem pumpCipher_clock (fuel : Nat) (s : State) : (pumpCipher fuel s).clock = s.clock := by
  induction fuel generalizing s with
  | zero => rfl
  | succ fuel ih =>
    unfold pumpCipher
    dsimp only
    split
    next t h => rw [ih, startOne_clock h]; simp
    next => simp

/-! ### What a change of device time sets off (R18, R226, R323, R378) -/

@[simp] theorem minuteBoundary_clock (s : State) : (minuteBoundary s).clock = s.clock := by
  unfold minuteBoundary
  dsimp only
  split
  · split
    · rfl
    · rw [State.bump_clock]; rfl
  · split <;> rfl

@[simp] theorem endWait_clock (tid rd v : Nat) (s : State) : (endWait tid rd v s).clock = s.clock := rfl

@[simp] theorem wakeSup_clock (ch : Nat) (s : State) : (wakeSup ch s).clock = s.clock := by
  unfold wakeSup
  split
  · rfl
  · dsimp only
    split
    · rfl
    · split
      · split <;> rfl
      · split <;> rfl
      · rfl
      · rfl

@[simp] theorem timerFire_clock (ch : Nat) (s : State) : (timerFire ch s).clock = s.clock := by
  unfold timerFire
  dsimp only
  split
  · simp [chPush]
  · rfl

@[simp] theorem leapTrigger_clock (spread : Nat) (s : State) : (leapTrigger spread s).clock = s.clock := by
  rw [leapTrigger, State.event_clock]; rfl

@[simp] theorem fireTimed_clock (old : Nat) (s : State) : (fireTimed old s).clock = s.clock := by
  unfold fireTimed
  dsimp only
  split
  · split_ifs <;> simp [foldl_clock]
  · split_ifs <;> simp [foldl_clock]

theorem moveTime_clock (t : Nat) (s : State) : (moveTime t s).clock = (t % 2 ^ 64, s.tick) := by
  rw [moveTime, fireTimed_clock]
  split <;> rfl

@[simp] theorem moveTime_time (t : Nat) (s : State) : (moveTime t s).time = t % 2 ^ 64 :=
  congrArg Prod.fst (moveTime_clock t s)

@[simp] theorem moveTime_tick (t : Nat) (s : State) : (moveTime t s).tick = s.tick :=
  congrArg Prod.snd (moveTime_clock t s)

end Sys2Proof.Machine
end

section
/-! PROOFS. The commands that move device time (R18, R32, R470). -/

namespace Sys2Proof.Machine

@[simp] theorem countLapse_clock (old el : List (Nat × Nat)) (s : State) (r : EpochReq) : (countLapse old el s r).clock = s.clock := by
  simp [countLapse]

@[simp] theorem countIdle_clock (reqs : List EpochReq) (s : State) (e : Nat × Nat) : (countIdle reqs s e).clock = s.clock := by
  unfold countIdle
  split <;> simp

theorem lapses_clock (old el : List (Nat × Nat)) (reqs : List EpochReq) (grants : List (Nat × Nat)) (s : State) :
    (grants.foldl (countIdle reqs) (reqs.foldl (countLapse old el) s)).clock = s.clock := by
  rw [foldl_clock (by simp), foldl_clock (by simp)]

/-- An epoch is the tick of 1 µs: what it does to the grants leaves device time to the move that ends it (R32). -/
theorem exec_arbiterEpoch {core sds : List EpochReq} {cn sn : Nat} {s : State} (hrun : s.phase ≠ .inReset)
    (hw : wfArbiterEpoch core sds cn sn = true) :
    ∃ u, exec (.arbiterEpoch core sds cn sn) s = .next (moveTime (u.time + 1000) (storageTick (pumpCipher u.cip.reqs.length u))) ∧
      u.clock = (s.time, s.tick + 1) := by
  refine ⟨_, by
    show execArbiterEpoch core sds cn sn s = _
    rw [execArbiterEpoch, run_of_wf hw, if_neg hrun], ?_⟩
  rw [apply_ite State.clock, State.emit_clock, ite_self]
  exact Prod.ext (State.time_of_clock (lapses_clock ..)) (congrArg (· + 1) (State.tick_of_clock (lapses_clock ..)))

/-- Settles O1: each command ends in a move of device time, which leaves the tick alone, or in an answer. -/
theorem timeMoves : Obligations.TimeMoves := by
  unfold Obligations.TimeMoves
  refine ⟨?_, ?_, ?_, ?_, ?_, ?_⟩
  · intro core sds cn sn s hrun hw
    obtain ⟨u, hu, hclock⟩ := exec_arbiterEpoch hrun hw
    have htime : u.time = s.time := congrArg Prod.fst hclock
    have htick : u.tick = s.tick + 1 := congrArg Prod.snd hclock
    have hends : (storageTick (pumpCipher u.cip.reqs.length u)).clock = u.clock := by simp
    refine ⟨_, hu, ?_, ?_⟩
    · rw [moveTime_tick, State.tick_of_clock hends, htick]
    · rw [moveTime_time, htime]
  · intro d s hrun hw
    refine ⟨_, by
      show execPtpStep d s = _
      rw [execPtpStep, run_of_wf hw, if_neg hrun], ?_, ?_⟩
    · rw [State.event_time, moveTime_time]
    · rw [State.event_tick, moveTime_tick]
  · intro s hrun hpins
    show execPpsInEdge s = _
    rw [execPpsInEdge, run_of_wf (wf := wfPpsInEdge) rfl, if_neg (by simp [hrun, hpins])]
    rfl
  · intro x r s h hw
    exact run_replied hw h rfl
  · intro x r s v h hw
    exact run_replied hw h rfl
  · intro x r s v h hw
    exact run_replied hw h rfl

end Sys2Proof.Machine
end

section
/-! PROOFS. The state right after reset (R17, R18, R83, R403). -/

namespace Sys2Proof.Machine

theorem reset_memOk : State.reset.MemOk := ⟨rfl, rfl, rfl⟩

/-- Settles O52: every field is at the value that its declaration gives it, and the memories and counters list nothing. -/
theorem resetState : Obligations.ResetState := by
  unfold Obligations.ResetState
  refine ⟨rfl, rfl, rfl, rfl, rfl, rfl, rfl, rfl, rfl, rfl, rfl, rfl, ?_, ?_, reset_memOk⟩
  · exact fun a => ⟨rfl, rfl, rfl⟩
  · exact fun k a b => rfl

end Sys2Proof.Machine
end

section
/-! PROOFS. A write of the shadow Pad leaves the active Pad, and which Pad is active (R17, R220 to R223). -/

namespace Sys2Proof.Machine

/-- What a write of the shadow Pad leaves as it was: the active Pad and its number, the generation, the packets that the Pads serve, the
counters and what the device has given the outside. -/
structure ActiveKept (s t : State) : Prop where
  pad : padOf t s.pkt.leap.active = padOf s s.pkt.leap.active
  active : t.pkt.leap.active = s.pkt.leap.active
  gen : t.pkt.leap.gen = s.pkt.leap.gen
  queues : t.pkt.queues = s.pkt.queues
  ctxs : t.pkt.ctxs = s.pkt.ctxs
  ctr : t.ctr = s.ctr
  out : t.out = s.out

theorem ActiveKept.refl (s : State) : ActiveKept s s := ⟨rfl, rfl, rfl, rfl, rfl, rfl, rfl⟩

theorem ActiveKept.trans {s t u : State} (h : ActiveKept s t) (k : ActiveKept t u) : ActiveKept s u where
  pad := by rw [← h.pad, ← h.active, k.pad]
  active := k.active.trans h.active
  gen := k.gen.trans h.gen
  queues := k.queues.trans h.queues
  ctxs := k.ctxs.trans h.ctxs
  ctr := k.ctr.trans h.ctr
  out := k.out.trans h.out

/-- The shadow Pad is the other one. -/
theorem modPad_shadow_activeKept (s : State) (f : Pad → Pad) : ActiveKept s (s.modPad (shadowBit s) f) := by
  by_cases h : s.pkt.leap.active = 0
  · have hshadow : shadowBit s ≠ 0 := by simp [shadowBit, h]
    rw [State.modPad, if_neg hshadow]
    exact ⟨by simp [padOf, h], rfl, rfl, rfl, rfl, rfl, rfl⟩
  · have hshadow : shadowBit s = 0 := Nat.sub_eq_zero_of_le (Nat.pos_of_ne_zero h)
    rw [State.modPad, if_pos hshadow]
    exact ⟨by simp [padOf, h], rfl, rfl, rfl, rfl, rfl, rfl⟩

/-- The shadow Pad's mark (R221) is no part of a Pad. -/
theorem markShadow_activeKept (s : State) (n : Nat) :
    ActiveKept s (s.modPkt (fun p => { p with leap := { p.leap with shadow := n } })) :=
  ⟨rfl, rfl, rfl, rfl, rfl, rfl, rfl⟩

/-- The spray slots (R164) are no part of a Pad. -/
theorem modSpraySlot_activeKept (s : State) (f : PacketState → List (Nat × Nat)) :
    ActiveKept s (s.modPkt (fun p => { p with spraySlot := f p })) :=
  ⟨rfl, rfl, rfl, rfl, rfl, rfl, rfl⟩

theorem trimSpray_activeKept (s : State) : ActiveKept s (trimSpray s) := modSpraySlot_activeKept s _

theorem spraySlots_activeKept (g : Nat) (s : State) : ActiveKept s (spraySlots g s) := by
  unfold spraySlots
  dsimp only
  split
  · split
    · exact modSpraySlot_activeKept s _
    · exact .refl s
  · split
    · exact modSpraySlot_activeKept s _
    · exact .refl s

theorem shadowWrite_activeKept (f : Pad → Pad) (s : State) : ActiveKept s (shadowWrite f s) :=
  (modPad_shadow_activeKept s f).trans (markShadow_activeKept _ 3)

theorem padApply_activeKept {op : PadOp} (hop : op.shadowOnly = true) (s : State) : ActiveKept s (padApply op s).1 := by
  cases op with
  | copy | discard =>
    exact (modPad_shadow_activeKept s _).trans ((markShadow_activeKept _ _).trans (trimSpray_activeKept _))
  | parse | default_ | clear | ucode | policer | node | rates | qbase | mirror => exact shadowWrite_activeKept _ s
  | write =>
    dsimp only [padApply]
    split
    · exact .refl s
    · exact shadowWrite_activeKept _ s
  | group =>
    dsimp only [padApply]
    split
    · exact .refl s
    · exact (shadowWrite_activeKept _ s).trans (spraySlots_activeKept _ _)
  | liveWrite | liveClear | leap => cases hop

/-- Settles O27: every Pad-scoped write but the live ones and Leap itself writes the shadow Pad alone. -/
theorem activePadUnchanged : Obligations.ActivePadUnchanged := by
  unfold Obligations.ActivePadUnchanged
  intro op s t rep hop ht
  have hkept := padApply_activeKept hop s
  rw [ht] at hkept
  exact ⟨hkept.pad, hkept.active, hkept.gen, hkept.queues, hkept.ctxs, hkept.ctr, hkept.out⟩

end Sys2Proof.Machine
end

section
/-! PROOFS. Allotments, functions and tenants (R15, R69, R70, R366 to R371). -/

namespace Sys2Proof.Machine

theorem inPort_of_owner {c : Call} (h : c.role = 1) (port : Nat) : c.inPort port = true := by simp [Call.inPort, h]

theorem lt_of_hostPortExists {s : State} {n : Nat} (h : hostPortExists s n = true) : n < 32 := by
  simp only [hostPortExists, Bool.and_eq_true, decide_eq_true_eq] at h
  exact h.1

theorem find?_range_none {n : Nat} {p : Nat → Bool} (h : ∀ i, i < n → p i = false) : (List.range n).find? p = none := by
  simpa using h

theorem mem_ranged {i : Nat} : i ∈ ranged ↔ 7 ≤ i ∧ i ≤ 11 := by
  simp only [ranged, List.mem_cons, List.not_mem_nil, or_false]
  omega

/-- What a list over the contiguous pools holds for one of them. -/
theorem getD_map_ranged {α : Type} (f : Nat → α) (d : α) {i : Nat} (hi : i ∈ ranged) : (ranged.map f).getD (i - 7) d = f i := by
  simp only [ranged, List.mem_cons, List.not_mem_nil, or_false] at hi
  rcases hi with rfl | rfl | rfl | rfl | rfl <;> rfl

theorem not_isNone {α : Type} {o : Option α} (h : o.isSome = true) : ¬ o.isNone = true :=
  Bool.eq_false_iff.mp (Option.isNone_eq_false_iff.mpr h)

/-- A function that no window of its port names has none of them in use (R70). -/
theorem no_window {s : State} {fid : Nat}
    (h : ∀ i, i < 256 → (winOf s (fidPort fid) i).state = 0 ∨ (winOf s (fidPort fid) i).fn ≠ fidFn fid) :
    ¬ (List.range 256).any (fun i => (winOf s (fidPort fid) i).state ≠ 0 && (winOf s (fidPort fid) i).fn = fidFn fid) = true := by
  simp only [List.any_eq_true, List.mem_range, Bool.and_eq_true, decide_eq_true_eq]
  rintro ⟨i, hi, hstate, hfn⟩
  exact (h i hi).elim hstate (absurd hfn)

/-- Tenant IDs that no other port holds (R367). -/
theorem tenants_free {s : State} {port tenBase tenCount : Nat}
    (h : 0 < tenCount → tenBase ≠ 0 ∧ ∀ p, p < 32 → p ≠ port → 0 < (allotOf s p).tenCount →
      (allotOf s p).tenBase + (allotOf s p).tenCount ≤ tenBase ∨ tenBase + tenCount ≤ (allotOf s p).tenBase) :
    ¬ (0 < tenCount && (tenBase = 0 || ((List.range 32).filter (· ≠ port)).any (fun p =>
        let a := allotOf s p
        0 < a.tenCount && a.tenBase < tenBase + tenCount && tenBase < a.tenBase + a.tenCount))) = true := by
  simp only [Bool.and_eq_true, Bool.or_eq_true, decide_eq_true_eq, List.any_eq_true, List.mem_filter, List.mem_range]
  rintro ⟨hcount, hzero | ⟨p, ⟨hp, hne⟩, ⟨hsome, hlo⟩, hhi⟩⟩
  · exact (h hcount).1 hzero
  · have := (h hcount).2 p hp hne hsome
    omega

/-- Settles O14: each command's checks pass, or stop it, in their order, and the frame answers what its body answers. -/
theorem tenancyCommands : Obligations.TenancyCommands := by
  unfold Obligations.TenancyCommands
  refine ⟨⟨?_, ?_, ?_, ?_, ?_, ?_⟩, ?_⟩
  · intro x r s port tenant tenBase tenCount counts h hw u place v hport howner hspan hvfs hten hcount hrange hfit
    refine run_replied hw h ?_
    rw [show begun x s = u from rfl]
    dsimp only
    rw [if_neg (Nat.not_le.mpr hport), if_neg (by simpa using howner), if_neg (tenants_free hten), if_neg (Nat.not_lt.mpr hspan),
      find?_range_none (fun i hi => congrArg not (hcount i hi).1)]
    dsimp only
    rw [find?_range_none]
    · dsimp only
      rw [if_neg]
      · rfl
      · rw [List.any_eq_true]
        rintro ⟨i, hi, hleaves⟩
        rw [getD_map_ranged _ _ hi, (hrange i hi).2] at hleaves
        cases hleaves
    · intro i hi
      simp only [Bool.or_eq_false_iff, Bool.and_eq_false_imp, Bool.and_eq_true, decide_eq_true_eq, decide_eq_false_iff_not, Nat.not_lt]
      refine ⟨⟨⟨(hcount i hi).2, fun _ => hvfs⟩, fun _ => congrArg not hfit⟩, fun hi => ?_⟩
      rw [getD_map_ranged _ _ (mem_ranged.mpr hi)]
      simpa using (hrange i (mem_ranged.mpr hi)).1
  · intro x r s port h hw hport hin u a
    refine run_replied hw h ?_
    rw [show begun x s = u from rfl]
    simp [reads, hin, Nat.not_le.mpr hport, a]
  · intro x r s port pf vf counts fn h hw u g first f v hin hthere hpf hvf1 hvf hfree hcreate hfn hone hfits hgrant hcells
    refine run_replied hw h ?_
    rw [show begun x s = u from rfl]
    dsimp only
    rw [if_neg (by simp [hin]), if_neg (Nat.not_le.mpr (lt_of_hostPortExists hthere)), if_neg (by simp [hthere]),
      if_neg (by simpa using hpf.resolve_left), if_neg (by simp; omega), if_neg (by simpa using hfree), hcreate]
    dsimp only
    rw [hfn]
    dsimp only
    rw [if_neg (by simp [hone]), find?_range_none]
    · rfl
    · intro i hi
      simp only [Bool.or_eq_false_iff, Bool.and_eq_false_imp, decide_eq_true_eq]
      refine ⟨⟨congrArg not (hfits i hi), fun _ => congrArg not hcells⟩, fun hi6 => ?_⟩
      obtain ⟨j, rfl⟩ := Nat.exists_eq_add_of_le' hi6
      rw [show j + 6 - 6 = j + 7 - 7 by omega, getD_map_ranged _ _ (mem_ranged.mpr (by omega))]
      exact Option.isNone_eq_false_iff.mpr (hgrant j (by omega))
  · intro x r s fid h hw hin hvf hthere hwin
    refine ⟨_, run_replied (p := []) hw h (by
      rw [if_neg (by simp [hin]), if_neg (by simp [hvf]), if_neg (not_isNone hthere), if_neg (no_window hwin)]
      rfl), mget?_mdel_self .., mget?_mdel_self .., ?_⟩
    intro i hi
    rw [rd8_zeroN, if_neg (by omega)]
  · intro x r s fid h hw hrole hthere u
    refine run_replied hw h ?_
    have hfound : fn? u fid ≠ none := Option.isSome_iff_ne_none.mp hthere
    rw [show begun x s = u from rfl]
    simp [reads, hrole, hfound]
  · intro x r s fid tenant h hw hin hvf hthere hten hrole hbound
    refine run_replied hw h ?_
    rw [if_neg (by simp [hin, hrole]), if_neg (by simp [hvf]), if_neg (not_isNone hthere), if_neg hten, if_neg (by simp [hbound])]
    rfl
  · intro x r s fid tenant h hw hrole hvf hthere hten hbound
    refine run_turnedAway hw h ?_
    rw [if_neg (by simp [inPort_of_owner hrole, hrole]), if_neg (by simp [hvf]), if_neg (not_isNone hthere), if_neg hten, if_pos hbound]
    rfl

end Sys2Proof.Machine
end

section
/-! PROOFS. The turns of a pipeline's action engines (R40, R171, R173, R176, R187, R194, R284). -/

namespace Sys2Proof.Machine

/-- Where no packet can end, the settling of a pipeline changes nothing. -/
theorem settlePipe_of_none {pipe : Nat} {s : State} (h : firstEnded [] (ctxsOf s pipe) = none) (fuel : Nat) :
    settlePipe pipe fuel s = s := by
  cases fuel with
  | zero => rfl
  | succ n => rw [settlePipe, h]

/-- A turn in which no packet ends. The count of checks starts at one where a punt of the turn is not to pass, so what it holds above one is
the number of punts that failed, each of them a fault of the pipeline (R284). -/
theorem engineTurn_of_none {pipe : Nat} {ok : Bool} {f : State → State} {s t : State}
    (ht : f (s.modPkt ({ · with puntCheck := b2n (!ok) })) = t) (h : firstEnded [] (ctxsOf t pipe) = none) :
    engineTurn ⟨pipe, ok⟩ f s = resumeHosts pipe s
      ((List.range (t.pkt.puntCheck - 1)).foldl
        (fun v _ => domFault (.pipeline (physOf v 0 pipe)) 6 2 (v.bump .pcwBad 2 pipe 1)) (t.modPkt ({ · with puntCheck := 0 }))) := by
  rw [engineTurn, ht, settlePipe_of_none h]

/-- What an engine does with a word whose check bits are clean, for the context that it picks (R176, R187, R194). -/
theorem stepEngine_clean {pipe engine : Nat} {s : State} {c : Ctx} (h : pickCtx s engine false (ctxsOf s pipe) = some c) :
    stepEngine pipe engine .clean s =
      if 256 ≤ c.steps then faultEnd c 3 (fetchAddr s c.pkt c.pc) s
      else if isExport (fetchAddr s c.pkt c.pc) then runExport c (fetchAddr s c.pkt c.pc) s
      else (fetchWord s c.pkt (fetchAddr s c.pkt c.pc)).elim (faultEnd c 4 (fetchAddr s c.pkt c.pc) s)
        (fun w => runWord c (fetchAddr s c.pkt c.pc) w s) := by
  rw [stepEngine, h]
  cases hw : fetchWord s c.pkt (fetchAddr s c.pkt c.pc) <;> simp [hw]

/-- The context that ends first: none of those seen before it, and none of those that the list has before it, is of its flow. -/
theorem firstEnded_some {before l : List Ctx} {c : Ctx} {p : Bool} (h : firstEnded before l = some (c, p)) :
    ∃ l1 l2, l = l1 ++ c :: l2 ∧ c.ending = some p ∧ c.ops = [] ∧ ∀ b ∈ before ++ l1, sameFlow b.pkt c.pkt = false := by
  induction l generalizing before with
  | nil => cases h
  | cons x r ih =>
    rw [firstEnded] at h
    split at h
    case h_1 q hq =>
      obtain ⟨rfl, rfl⟩ := Prod.mk.inj (Option.some.inj h)
      obtain ⟨hready, hending⟩ := Option.ite_none_right_eq_some.mp hq
      simp only [Bool.and_eq_true, List.isEmpty_iff, Bool.not_eq_true', List.any_eq_false, Bool.not_eq_true] at hready
      exact ⟨[], r, rfl, hending, hready.1, by simpa using hready.2⟩
    case h_2 =>
      obtain ⟨l1, l2, rfl, hending, hops, hflow⟩ := ih h
      exact ⟨x :: l1, l2, rfl, hending, hops, by simpa using hflow⟩

/-- Settles O25: each command is a turn of the engines, and what the turn does follows the context that it picks or the operation that
completes. -/
theorem enginesRun : Obligations.EnginesRun := by
  unfold Obligations.EnginesRun
  refine ⟨?_, ?_, ?_, ?_, ?_, ?_, ?_, ?_, ?_, ?_, ?_, ?_, ?_⟩
  · exact fun pipe ok s hw => run_of_wf hw _ s
  · exact fun pipe engine ecc ok s hw => run_of_wf hw _ s
  · exact fun pipe id kind ok s hw => run_of_wf hw _ s
  · intro pipe s k rest e hin hfree hserves hfirst
    rw [takeHeader, hin, hfree]
    simp [hserves, hfirst]
  · intro pipe engine s c w hpick hsteps hword hfetch
    rw [stepEngine_clean hpick, if_neg (Nat.not_le.mpr hsteps), if_neg (by simp [hword]), hfetch, Option.elim_some]
  · intro pipe engine s c hpick hsteps hexport
    rw [stepEngine_clean hpick, if_neg (Nat.not_le.mpr hsteps), if_pos hexport]
  · intro pipe engine s c hpick hsteps
    rw [stepEngine_clean hpick, if_pos hsteps, faultEnd]
  · intro pipe engine s c hpick
    rw [stepEngine, hpick]
  · intro pipe id s c seed f hop
    rw [opComplete, hop]
  · intro pipe id s c t key hop
    rw [opComplete, hop]
  · exact fun l c p h => firstEnded_some h
  · intro pipe f s n t u hnone hbad
    rw [engineTurn_of_none (t := t) rfl hnone, hbad, Nat.add_sub_cancel_left]
  · intro pipe f s t hnone hgood
    rw [engineTurn_of_none (t := t) rfl hnone, hgood]
    rfl

end Sys2Proof.Machine
end

section
/-! PROOFS. What a MAC makes of a received frame: the checks in their order, and the packet at the input of its port's pipeline (R51, R52, R173,
R424). -/

namespace Sys2Proof.Machine

/-! ### What a pipeline's service and its buffers rest on -/

@[simp] theorem unitOf_bump (s : State) (k : CtrKind) (a b n : Nat) : unitOf (s.bump k a b n) = unitOf s := by
  funext kind phys
  simp [unitOf]

@[simp] theorem physOf_bump (s : State) (k : CtrKind) (a b n kind logical : Nat) :
    physOf (s.bump k a b n) kind logical = physOf s kind logical := by
  rw [physOf, unitOf_bump, ← physOf]

@[simp] theorem domServes_bump (s : State) (k : CtrKind) (a b n : Nat) (d : Dom) : domServes (s.bump k a b n) d = domServes s d := by
  simp [domServes, domOf]

@[simp] theorem pipeServes_bump (s : State) (k : CtrKind) (a b n pipe : Nat) : pipeServes (s.bump k a b n) pipe = pipeServes s pipe := by
  simp [pipeServes]

@[simp] theorem ingressBytes_bump (s : State) (k : CtrKind) (a b n pipe port : Nat) :
    ingressBytes (s.bump k a b n) pipe port = ingressBytes s pipe port := by
  simp [ingressBytes]

@[simp] theorem State.count_modPkt (s : State) (f : PacketState → PacketState) : (s.modPkt f).count = s.count := rfl

/-- A bump raises its own counter. -/
theorem State.count_bump_self (s : State) (k : CtrKind) (a b n : Nat) : (s.bump k a b n).count k a b = s.count k a b + n := by
  rw [State.count_bump, if_pos rfl]

/-- A bump leaves the counters of another kind. -/
theorem State.count_bump_of_kind_ne (s : State) {k k' : CtrKind} (h : k ≠ k') (a a' b b' n : Nat) :
    (s.bump k a b n).count k' a' b' = s.count k' a' b' := by
  rw [State.count_bump, if_neg (fun hc => h (congrArg Ctr.kind hc)), Nat.add_zero]

/-- A pipeline in service takes a packet behind those that wait at its input. -/
theorem toIngress_ingress {k : Pkt} {s : State} (h : pipeServes s k.pipe = true) :
    mgetD (toIngress k s).pkt.ingress k.pipe [] = mgetD s.pkt.ingress k.pipe [] ++ [k] := by
  simp [toIngress, h, mupd]

/-- A packet's way to the input of a pipeline in service counts nothing. -/
theorem toIngress_count {k : Pkt} {s : State} (h : pipeServes s k.pipe = true) : (toIngress k s).count = s.count := by
  simp [toIngress, h]

/-! ### A frame that the MAC hands on -/

/-- The packet that a port's frame becomes, time-stamped when it is a PTP event message (R54). -/
def framePkt (port : Nat) (p : EthPort) (bs : List Byte) (ok : Bool) (s : State) : Pkt :=
  { bytes := bs, src := .eth port, inPort := port, pipe := pipeOfOctet p.octet, macsecOk := ok, rxLen := bs.length,
    rxTs := if isPtpEvent (parseFrame parseReset true bs) bs then some s.time else none }

/-- A frame that the port's buffer holds is counted and goes to the pipeline's input (R51, R173). -/
theorem ethAccept_of_room {port : Nat} {p : EthPort} {bs : List Byte} {s : State} (ok : Bool)
    (hroom : ingressBytes s (pipeOfOctet p.octet) port + bs.length ≤ 65536) :
    ethAccept port p bs ok s =
      toIngress (framePkt port p bs ok s) ((s.bump .portRxFrames port 0 1).bump .portRxBytes port 0 bs.length) := by
  simp [ethAccept, framePkt, Nat.not_lt.mpr hroom]

/-! ### The checks of the MAC, in their order -/

/-- Without MACsec a frame goes to the pipeline as it came. -/
theorem macsecRx_of_off {port octet : Nat} {s : State} (h : macsecOn s port octet = false) (bs : List Byte) :
    macsecRx port octet bs s = (.pass bs false, s) := by
  simp [macsecRx, h]

section Up
variable {port : Nat} {s : State} {p : EthPort} (hport : mget? s.ports port = some p) (hup : p.state = 2) (hrun : s.phase = .running)
include hport hup hrun

/-- A port that is up drops a frame that an uncorrectable FEC codeword touches. -/
theorem ethReceive_of_badFec (frame : List Byte) (fcs : Nat) : ethReceive port frame fcs false s = s.bump .portFec port 0 1 := by
  simp [ethReceive, hport, hup, hrun]

/-- A port that is up drops a frame whose FCS is not that of its bytes. -/
theorem ethReceive_of_badFcs {frame : List Byte} {fcs : Nat} (hfcs : fcs ≠ crcOf 1 frame) :
    ethReceive port frame fcs true s = s.bump .portFcs port 0 1 := by
  simp [ethReceive, hport, hup, hrun, hfcs]

/-- Without MACsec, a frame with a good FCS is dropped for its length, ends in the MAC as a control frame, or is handed on. -/
theorem ethReceive_of_goodFcs {frame : List Byte} {fcs : Nat} (hfcs : fcs = crcOf 1 frame) (hoff : macsecOn s port p.octet = false) :
    ethReceive port frame fcs true s =
      if frame.length + 4 < 64 ∨ p.mtu < frame.length + 4 then s.bump .portLength port 0 1
      else if atBe frame 12 2 = 0x8808 then s
      else ethAccept port p frame false s := by
  simp [ethReceive, hport, hup, hrun, hfcs, hoff, macsecRx_of_off hoff]

end Up

/-- Settles O23: the port is up, so the outcome of a frame is that of the first of the MAC's checks that it fails, or the packet at its pipeline's
input. -/
theorem framesReceived : Obligations.FramesReceived := by
  unfold Obligations.FramesReceived
  refine ⟨?_, ?_, ?_, ?_⟩
  · intro port frame fcs s p hw hport hup hrun hfcs hoff hmin hmtu htype hroom hserves
    have hlen : ¬ (frame.length + 4 < 64 ∨ p.mtu < frame.length + 4) := by omega
    refine ⟨_, framePkt port p frame false s, run_of_wf hw _ s, ?_⟩
    rw [ethReceive_of_goodFcs hport hup hrun hfcs hoff, if_neg hlen, if_neg htype, ethAccept_of_room false hroom]
    have hin : pipeServes ((s.bump .portRxFrames port 0 1).bump .portRxBytes port 0 frame.length)
        (framePkt port p frame false s).pipe = true := by
      simpa [framePkt] using hserves
    refine ⟨(toIngress_ingress hin).trans (by simp [framePkt]), rfl, rfl, rfl, rfl, rfl, ?_, ?_⟩
    · rw [toIngress_count hin, State.count_bump_of_kind_ne _ (by decide), State.count_bump_self]
    · rw [toIngress_count hin, State.count_bump_self, State.count_bump_of_kind_ne _ (by decide)]
  · intro port frame fcs s p hw hport hup hrun hfcs
    exact (run_of_wf hw _ s).trans (congrArg _ (ethReceive_of_badFcs hport hup hrun hfcs))
  · intro port frame fcs s p hw hport hup hrun
    exact (run_of_wf hw _ s).trans (congrArg _ (ethReceive_of_badFec hport hup hrun frame fcs.toNat))
  · intro port frame fcs s p hw hport hup hrun hfcs hoff hlen
    refine (run_of_wf hw _ s).trans (congrArg _ ?_)
    rw [ethReceive_of_goodFcs hport hup hrun hfcs hoff, if_pos hlen]

end Sys2Proof.Machine
end

section
/-! PROOFS. What `SYS_RST_N` held low loses and keeps (R83, R391, R403, R474). -/

namespace Sys2Proof.Machine

/-- Settles O15: of the state that the reset leaves, every field but those carried over is at the value of a new device. -/
theorem resetLosesState : Obligations.ResetLosesState := by
  unfold Obligations.ResetLosesState
  refine ⟨?_, ?_, ?_, ?_⟩
  · exact fun s => run_of_wf (wf := wfSysRstNAssert) rfl loseAll s
  · intro s
    exact ⟨rfl, rfl, rfl, rfl, rfl, rfl, rfl, rfl, rfl, rfl, rfl, rfl, rfl, rfl, rfl, rfl, rfl, rfl, rfl⟩
  · exact fun s => ⟨rfl, rfl, rfl⟩
  · intro ch br os s hw hheld
    show execSysRstNRelease ch br os s = _
    rw [execSysRstNRelease, run_of_wf hw, if_pos (by simpa [or_assoc] using hheld)]

end Sys2Proof.Machine
end

section
/-! PROOFS. The windows' commands (R75 to R79). -/

namespace Sys2Proof.Machine

@[simp] theorem winOf_modWin_self (s : State) (port i : Nat) (f : Win → Win) : winOf (s.modWin port i f) port i = f (winOf s port i) := by
  simp [winOf, State.modWin, mupd]

/-- An entry as `WINDOW_SET` writes it (R76, R78). -/
def Win.set (w : WinCfg) (o : Win) : Win := { o with
  state := 1, rdEn := w.rd = 1, wrEn := w.wr = 1, sizeLog2 := w.sizeLog2, fn := w.fn, tenant := w.tenant
  tgtType := w.tgtType, version := (o.version + 1) % 256, barOff := w.barOff, tgtAddr := w.tgtAddr }

/-- A served command whose body starts and waits (R351). -/
theorem run_held {x : XCall} {op : Nat} {r : Req} {s t : State} {wf : Bool} {body : Call → State → State × Reply} {w : Wait}
    (hw : wf = true) (h : Served x op r s) (hb : body (callBy x r s) (begun x s) = (t, .wait w)) :
    run wf (xop x op body) s = .next (held x r w t) := by
  rw [run_of_wf hw, xop_served h, hb]
  rfl

/-- Settles O13: each command passes its checks, and the frame answers or holds what its body answers. -/
theorem windowCommands : Obligations.WindowCommands := by
  unfold Obligations.WindowCommands
  refine ⟨?_, ?_, ?_, ?_, ?_, ?_⟩
  · intro x r s w h hw hin hfault hgrant hrole
    refine ⟨(begun x s).modWin w.port w.index (Win.set w), run_replied hw h ?_, winOf_modWin_self ..⟩
    rw [if_neg (by simp [hin]), hfault]
    dsimp only
    rw [if_neg (by simp [hgrant, hrole]), if_neg (by simp [hrole])]
    rfl
  · intro x r s n i h hw hin hport hstate hidle
    refine run_replied (p := []) hw h ?_
    simp [hin, hport, hstate, hidle, ok, okWith]
  · intro x r s n i h hw hin hport hstate hbusy
    refine run_held hw h ?_
    simp [hin, hport, hstate, hbusy]
  · intro n i s
    simp [windowFree]
  · intro n i s hw hstate
    show execWindowDrainDone n i s = _
    rw [execWindowDrainDone, run_of_wf hw]
    simp only [hstate, if_true]
  · intro n i s hw hwait
    show execWindowRetireTimeout n i s = _
    rw [execWindowRetireTimeout, run_of_wf hw, if_neg (by simp [hwait])]

end Sys2Proof.Machine
end

section
/-! SUPPORT. What the device gives its host, an event and a fault record, as relations between the state before and the state after: said once
for every relation that takes no notice of outputs, counters, dirty logs, pending messages and event rings. -/

namespace Sys2Proof.Machine

/-- A relation between a state and a later one which does not see what a host write, a message, an event or a record changes. -/
structure HostFrame (R : State → State → Prop) : Prop where
  same : ∀ {s t : State}, t.fns = s.fns → t.octMode = s.octMode → t.phase = s.phase → t.eft.ownerPort = s.eft.ownerPort → t.hps = s.hps →
    t.mbxs = s.mbxs → R s t
  trans : ∀ {s t u : State}, R s t → R t u → R s u
  wake : ∀ (s : State) (port : Nat), R s (s.wakeLink port)
  fn : ∀ (s : State) (i : Nat) {f : Fn → Fn}, (∀ r, (f r).rings = r.rings) → R s (s.modFn i f)
  mbx : ∀ (s : State) (i : Nat) {f : Mailbox → Mailbox},
    (∀ b, (f b).state = b.state ∧ (f b).err = b.err ∧ (f b).queue = b.queue) → R s (s.modMbx (.fn i) f)

namespace HostFrame
variable {R : State → State → Prop} (hR : HostFrame R)
include hR

theorem refl (s : State) : R s s := hR.same rfl rfl rfl rfl rfl rfl

/-- A fold each of whose steps stands in the relation. -/
theorem foldl {α : Type} {f : State → α → State} (h : ∀ s x, R s (f s x)) (l : List α) (s : State) : R s (l.foldl f s) := by
  induction l generalizing s with
  | nil => exact hR.refl s
  | cons x l ih => exact hR.trans (h s x) (ih _)

theorem emit (s : State) (o : Output) : R s (s.emit o) := hR.same rfl rfl rfl rfl rfl rfl

theorem boardMbx (s : State) (b : Mailbox) : R s { s with boardMbx := b } := hR.same rfl rfl rfl rfl rfl rfl

theorem flt (s : State) (f : FaultState) : R s { s with flt := f } := hR.same rfl rfl rfl rfl rfl rfl

theorem bump (s : State) (k : CtrKind) (a b n : Nat) : R s (s.bump k a b n) :=
  hR.same (by simp) (by simp) (by simp) (by simp) (by simp) (by simp)

theorem hostWr (s : State) (i a : Nat) (bs : List Byte) : R s (s.hostWr i a bs) := by
  have hsent : R s ((writeTlps s i a bs).foldl State.emit (s.wakeLink (fidPort i))) :=
    hR.trans (hR.wake s _) (hR.foldl hR.emit _ _)
  unfold State.hostWr
  split
  · dsimp only
    split
    · exact hsent
    · exact hR.trans hsent (hR.fn _ i fun _ => rfl)
  · exact hR.refl s

theorem pmeSet (s : State) (i : Nat) : R s (s.pmeSet i) := by
  have hset : R s (s.modFn i ({ · with pmeStatus := true })) := hR.fn s i fun _ => rfl
  unfold State.pmeSet
  dsimp only
  split
  · exact hR.trans hset (hR.trans (hR.wake _ _) (hR.emit _ _))
  · exact hset

theorem sendMsix (s : State) (i v : Nat) : R s (s.sendMsix i v) := by
  have hheld : R s (s.modFn i (fun f => { f with vecPending := mput f.vecPending v () })) := hR.fn s i fun _ => rfl
  unfold State.sendMsix
  dsimp only
  split
  · exact hR.refl s
  · split
    · exact hR.trans hheld (hR.pmeSet _ i)
    · split
      · exact hR.trans (hR.wake s _) (hR.emit _ _)
      · exact hheld

theorem hostRdNow (s : State) (i a n : Nat) : R s (s.hostRdNow i a n) := by
  unfold State.hostRdNow
  dsimp only
  split
  · exact hR.trans (hR.wake s _) (hR.foldl (fun _ _ => hR.emit _ _) _ _)
  · exact hR.refl s

theorem eventMark (s : State) (i n : Nat) (e : Option EventRing) :
    R s (s.modMbx (.fn i) ({ · with eventSeq := n, events := e })) :=
  hR.mbx s i fun _ => ⟨rfl, rfl, rfl⟩

theorem ringEvent (s : State) (i time code : Nat) (u : Subject) (arg : Nat) : R s (s.ringEvent i time code u arg) := by
  have hput (t : State) (a a' v n : Nat) (bs bs' : List Byte) (e : Option EventRing) :
      R t ((((t.hostWr i a bs).hostWr i a' bs').modMbx (.fn i) ({ · with eventSeq := n, events := e })).sendMsix i v) :=
    hR.trans (hR.hostWr t i a bs) (hR.trans (hR.hostWr _ i a' bs') (hR.trans (hR.eventMark _ i n e) (hR.sendMsix _ i v)))
  have hlost (t : State) (n : Nat) (e : Option EventRing) :
      R t ((t.modMbx (.fn i) ({ · with eventSeq := n, events := e })).bump .eventLost i 0 1) :=
    hR.trans (hR.eventMark t i n e) (hR.bump _ _ _ _ _)
  have hread (a n : Nat) : R s ((s.hostRdNow i a 8).drawBelow n).2 :=
    hR.trans (hR.hostRdNow s i a 8) (hR.same rfl rfl rfl rfl rfl rfl)
  unfold State.ringEvent
  dsimp only
  split
  · exact hR.refl s
  · split
    · dsimp only
      split
      · exact hR.trans (hread _ _) (hlost _ _ _)
      · exact hR.trans (hread _ _) (hput _ _ _ _ _ _ _ _)
    · dsimp only
      split
      · exact hlost s _ _
      · exact hput s _ _ _ _ _ _ _

theorem boardRec (s : State) (time code : Nat) (u : Subject) (arg : Nat) : R s (s.boardRec time code u arg) := by
  unfold State.boardRec
  dsimp only
  split
  · exact hR.refl s
  · split
    · exact hR.trans (hR.boardMbx s _) (hR.bump _ _ _ _ _)
    · split
      · exact hR.same rfl rfl rfl rfl rfl rfl
      · exact hR.same rfl rfl rfl rfl rfl rfl

theorem deliver (s : State) (time code : Nat) (u : Subject) (arg : Nat) : R s (s.deliver time code u arg) := by
  have hrings (l : List (Nat × Mailbox)) : R s (l.foldl (fun (s : State) (x : Nat × Mailbox) => match x with
      | (fid, m) => match m.events with
        | some e => if e.takes code && hears s fid u then s.ringEvent fid time code u arg else s
        | none => s) s) := by
    refine hR.foldl (fun t x => ?_) l s
    dsimp only
    split
    · split
      · exact hR.ringEvent t _ _ _ _ _
      · exact hR.refl t
    · exact hR.refl t
  unfold State.deliver
  dsimp only
  split
  · split
    · exact hR.trans (hrings _) (hR.boardRec _ _ _ _ _)
    · exact hrings _
  · exact hrings _

theorem event (s : State) (code : Nat) (u : Subject) (arg : Nat) : R s (s.event code u arg) := by
  unfold State.event
  split
  · exact hR.same rfl rfl rfl rfl rfl rfl
  · exact hR.deliver s _ _ _ _

theorem record (s : State) (k u c a t d : Nat) : R s (s.record k u c a t d) := by
  unfold State.record
  exact hR.trans (hR.flt s _) (hR.trans (hR.bump _ _ _ _ _) (hR.event _ _ _ _))

theorem composeFault (s : State) (i : Nat) : R s (s.composeFault i) := hR.record s _ _ _ _ _ _

end HostFrame

end Sys2Proof.Machine
end

section
/-! SUPPORT. A function's rings, read after a change of its record and after what the device gives its host. -/

namespace Sys2Proof.Machine

/-! ### Bit 0 of a register -/

theorem setBits_bit0_div (n v k : Nat) : setBits n 0 1 v / 2 ^ (k + 1) = n / 2 ^ (k + 1) := by
  have h : setBits n 0 1 v / 2 = n / 2 := by
    simp only [setBits, bits, Nat.pow_zero, Nat.div_one, Nat.pow_one, Nat.mul_one]
    omega
  rw [Nat.pow_succ', ← Nat.div_div_eq_div_mul, ← Nat.div_div_eq_div_mul, h]

@[simp] theorem bits_setBits_bit0 (n v k w : Nat) : bits (setBits n 0 1 v) (k + 1) w = bits n (k + 1) w := by
  rw [bits, setBits_bit0_div, bits]

@[simp] theorem bit_setBits_bit0 (n v k : Nat) : bit (setBits n 0 1 v) (k + 1) = bit n (k + 1) := by
  rw [bit, setBits_bit0_div, bit]

@[simp] theorem bit0_setBits_one (n : Nat) : bit (setBits n 0 1 1) 0 = true := by
  simp only [bit, setBits, bits, Nat.pow_zero, Nat.div_one, Nat.pow_one, Nat.mul_one, beq_iff_eq]
  omega

@[simp] theorem bit0_setBits_zero (n : Nat) : bit (setBits n 0 1 0) 0 = false := by
  simp only [bit, setBits, bits, Nat.pow_zero, Nat.div_one, Nat.pow_one, Nat.mul_one, beq_eq_false_iff_ne]
  omega

/-- A bit that is set in a word reads 1. -/
theorem bit_or_two_pow (n k : Nat) : bit (n ||| 2 ^ k) k = true := by
  have h : (n ||| 2 ^ k).testBit k = true := by simp
  simpa [bit, Nat.testBit_eq_decide_div_mod_eq] using h

/-! ### A function's record -/

theorem mgetD_mupd_self {α : Type} (m : List (Nat × α)) (k : Nat) (d : α) (f : α → α) : mgetD (mupd m k d f) k d = f (mgetD m k d) := by
  simp [mupd]

theorem mgetD_mupd_ne {α : Type} (m : List (Nat × α)) {k j : Nat} (d : α) (f : α → α) (h : j ≠ k) : mgetD (mupd m k d f) j d = mgetD m j d := by
  rw [mupd, mgetD_mput_ne _ _ _ h]

theorem fn?_congr {s t : State} (hfns : t.fns = s.fns) (hoct : t.octMode = s.octMode) (hphase : t.phase = s.phase)
    (howner : t.eft.ownerPort = s.eft.ownerPort) : fn? t = fn? s := by
  funext i
  unfold fn? hostPortExists octetMode
  rw [hfns, hoct, hphase, howner]

/-- A changed record is found where there is a record, and the others as they were. -/
theorem fn?_modFn (s : State) (i j : Nat) (f : Fn → Fn) : fn? (s.modFn i f) j = if j = i then (fn? s i).map f else fn? s j := by
  by_cases h : j = i
  · subst h
    rw [if_pos rfl]
    cases hr : fn? s j with
    | none => simp [State.modFn, hr]
    | some r => rw [fn?_modFn_self hr, Option.map_some]
  · rw [if_neg h]
    cases hr : fn? s i with
    | none => simp [State.modFn, hr]
    | some r =>
      have hm : s.modFn i f = { s with fns := mput s.fns i (f r) } := by simp [State.modFn, hr]
      have hport : hostPortExists { s with fns := mput s.fns i (f r) } (fidPort j) = hostPortExists s (fidPort j) := rfl
      rw [hm, fn?, fn?, hport, mget?_mput_ne _ _ h]

theorem fnD_modFn_self {s : State} {i : Nat} (h : (fn? s i).isSome = true) (f : Fn → Fn) : fnD (s.modFn i f) i = f (fnD s i) := by
  obtain ⟨r, hr⟩ := Option.isSome_iff_exists.mp h
  simp [fnD, fn?_modFn_self hr, hr]

@[simp] theorem fn?_isSome_modFn (s : State) (i j : Nat) (f : Fn → Fn) : (fn? (s.modFn i f) j).isSome = (fn? s j).isSome := by
  rw [fn?_modFn]
  split
  · next h => simp [h]
  · rfl

/-! ### Rings -/

/-- The rings of each function that is there. -/
def State.rings (s : State) (i : Nat) : Option (List (Nat × Ring)) := (fn? s i).map (·.rings)

theorem ringOf_eq (s : State) (i r : Nat) : ringOf s i r = mgetD ((s.rings i).getD []) r {} := by
  rw [ringOf, fnD, State.rings]
  cases fn? s i <;> rfl

theorem ringOf_congr {s t : State} (h : t.rings = s.rings) (i r : Nat) : ringOf t i r = ringOf s i r := by
  rw [ringOf_eq, ringOf_eq, h]

/-- What the device gives its host changes no ring. -/
theorem rings_hostFrame : HostFrame (fun s t => t.rings = s.rings) where
  same := fun hfns hoct hphase howner _ _ => by
    funext i
    rw [State.rings, State.rings, fn?_congr hfns hoct hphase howner]
  trans := fun h k => k.trans h
  wake := fun s port => by
    funext i
    rw [State.rings, State.rings, fn?_congr (s := s) (by simp) (by simp) (by simp) (by simp)]
  fn := fun s i f hf => by
    funext j
    rw [State.rings, State.rings, fn?_modFn]
    split
    · next h => subst h; cases fn? s j <;> simp [hf]
    · rfl
  mbx := fun s i f _ => by
    funext j
    rw [State.rings, State.rings, fn?_modMbx]

@[simp] theorem ringOf_hostWr (s : State) (i a : Nat) (bs : List Byte) (j r : Nat) : ringOf (s.hostWr i a bs) j r = ringOf s j r :=
  ringOf_congr (rings_hostFrame.hostWr s i a bs) j r

@[simp] theorem ringOf_composeFault (s : State) (i j r : Nat) : ringOf (s.composeFault i) j r = ringOf s j r :=
  ringOf_congr (rings_hostFrame.composeFault s i) j r

theorem ringOf_modRing_self {s : State} {i : Nat} (h : (fn? s i).isSome = true) (r : Nat) (f : Ring → Ring) :
    ringOf (s.modRing i r f) i r = f (ringOf s i r) := by
  rw [ringOf, State.modRing, fnD_modFn_self h, mgetD_mupd_self, ← ringOf]

theorem fn?_of_ringOn {s : State} {i r : Nat} (h : ringOn s i r = true) : (fn? s i).isSome = true := by
  simp only [ringOn, barOn, Bool.and_eq_true] at h
  exact h.1.1.2

end Sys2Proof.Machine
end

section
/-! PROOFS. The ring registers, doorbells and indices (R94 to R102, R112 to R116). -/

namespace Sys2Proof.Machine

/-! ### `RING_CTL` by the state of the ring -/

section
variable {fid ring : Nat} {s : State}

/-- A write of `RING_CTL` with ENABLE to an IDLE ring starts it from the configuration written (R96, R101). -/
theorem ringCtlWrite_enable (hidle : (ringOf s fid ring).state = 0) (v : Nat) :
    ringCtlWrite fid ring (setBits v 0 1 1) s =
      ringEnable fid ring (s.modRing fid ring ({ · with cplRing := bits v 2 14, spread := bit v 16, vlanStrip := bit v 17 })) := by
  simp [ringCtlWrite, hidle]

theorem ringCtlWrite_disable (hactive : (ringOf s fid ring).state = 1) (v : Nat) :
    ringCtlWrite fid ring (setBits v 0 1 0) s = ringDisable fid ring s := by
  simp [ringCtlWrite, hactive]

theorem ringCtlWrite_reset (hfenced : (ringOf s fid ring).state = 3) (hbme : (fnD s fid).bme = true) :
    ringCtlWrite fid ring 2 s =
      s.modRing fid ring ({ · with state := 0, enable := false, tx := [], partialDescs := [], bufs := [], tail := false }) := by
  simp [ringCtlWrite, hfenced, hbme, show bit 2 1 = true from rfl]

/-- A ring that is started runs from zero indices (R95, R96). -/
def Ring.started (x : Ring) : Ring := { x with
  state := 1, enable := true, ci := 0, lastRead := 0, done := 0, cplCi := 0, unann := 0, timerAt := none
  idxReading := false, idxAgain := false, partialDescs := [], bufs := [], short := [], tx := [], tail := false }

theorem ringOf_ringEnable (hfn : (fn? s fid).isSome = true) (hok : ringCfgOk s fid ring (ringOf s fid ring) = true) :
    ringOf (ringEnable fid ring s) fid ring = (ringOf s fid ring).started := by
  have hstarted : ringOf (s.modRing fid ring Ring.started) fid ring = (ringOf s fid ring).started := ringOf_modRing_self hfn _ _
  rw [ringEnable]
  dsimp only
  rw [if_pos hok]
  split
  · exact (ringOf_hostWr ..).trans hstarted
  · exact hstarted

/-! ### Doorbells and index words -/

theorem indexDue_iff : indexDue s fid ring = true ↔ (ringOf s fid ring).state = 1 ∧ (ringOf s fid ring).type ≠ 2 ∧
    (fnD s fid).frozen = false ∧ (ringOf s fid ring).idxReading = false ∧ canIssue s fid = true := by
  simp [indexDue, and_assoc]

/-- A doorbell that finds the ring ready for it reads the index word (R98). -/
theorem ringWrite_doorbell (hdue : indexDue s fid ring = true) :
    ringWrite fid ring 0x24 0 s =
      (s.modRing fid ring ({ · with idxReading := true })).hostRd fid (ringOf s fid ring).idxAddr 8 (.index ring) := by
  obtain ⟨hactive, htype, hfrozen, hidle, hissue⟩ := indexDue_iff.mp hdue
  simp [ringWrite, readIndex, hactive, htype, hfrozen, hidle, hissue]

/-- With no read but the one that has ended, nothing waits for its tag. -/
theorem endReads_only {r : Read} {p : Read → Bool} (hreads : s.reads = [r]) (hlive : r.dead = false) (hp : p r = true) :
    s.endReads p = { s with reads := [] } := by
  simp [State.endReads, State.pumpReads, hreads, hlive, hp]

/-- The read of an index word ends, the only one that is out (R97, R98). -/
theorem exec_indexWordReadDone_only {of : IdxOf} {q : Nat} {r : Read} (hw : wfIndexWordReadDone fid of q = true) (hreads : s.reads = [r])
    (hfid : r.fid = fid) (hfor : r.purpose = idxPurpose of) (hlive : r.dead = false) (htag : r.tag.isSome = true) :
    exec (.indexWordReadDone fid of q) s = .next (indexDone fid of q { s with reads := [] }) := by
  show execIndexWordReadDone fid of q s = _
  rw [execIndexWordReadDone, run_of_wf hw]
  dsimp only
  rw [if_neg (by simp [liveRead, hreads, hfid, hfor, hlive, htag]), endReads_only hreads hlive (by simp [hfid, hfor])]

/-- An ACTIVE ring, of which no further read is owed, takes up a valid index and is fenced by an invalid one (R97, R101). -/
theorem ringIndexDone_active (hactive : (ringOf s fid ring).state = 1) (honce : (ringOf s fid ring).idxAgain = false) (q : Nat) :
    ringIndexDone fid ring q s =
      if idxValid q (ringOf s fid ring).lastRead (ringOf s fid ring).done (ringOf s fid ring).log2 then
        kick fid ring ((s.modRing fid ring ({ · with idxReading := false, idxAgain := false })).modRing fid ring ({ · with lastRead := q }))
      else fenceRing fid ring 0 (s.modRing fid ring ({ · with idxReading := false, idxAgain := false })) := by
  rw [ringIndexDone]
  cases h : idxValid q (ringOf s fid ring).lastRead (ringOf s fid ring).done (ringOf s fid ring).log2 <;> simp [hactive, honce]

/-! ### Fences -/

/-- An ACTIVE ring that is fenced holds the cause of its fence (R101). -/
theorem ringOf_fenceRing (hactive : (ringOf s fid ring).state = 1) (cause : Nat) :
    ringOf (fenceRing fid ring cause s) fid ring =
      { ringOf s fid ring with state := 3, err := (ringOf s fid ring).err ||| 2 ^ cause, timerAt := none } := by
  rw [ringOf, fnD] at hactive ⊢
  cases hr : fn? s fid with
  | none => simp [hr, mgetD, mget?] at hactive
  | some r =>
    rw [hr, Option.getD_some, mgetD] at hactive
    cases hx : mget? r.rings ring with
    | none => simp [hx] at hactive
    | some x =>
      rw [hx, Option.getD_some] at hactive
      have hkill (t : State) : fn? (t.killFenced fid) fid = fn? t fid := rfl
      simp [fenceRing, hkill, fn?_modFn, hr, mgetD, mget?_mmap, hx, hactive, ringOf, fnD]

theorem length_reads_killReads_le (s : State) (p : Read → Bool) : (s.killReads p).reads.length ≤ s.reads.length := by
  simpa [State.killReads] using List.length_filter_le _ s.reads

theorem length_reads_fenceRing_le (cause : Nat) : (fenceRing fid ring cause s).reads.length ≤ s.reads.length := by
  refine (length_reads_killReads_le _ _).trans ?_
  rw [State.modFn_reads]

@[simp] theorem fenceRing_flt (cause : Nat) : (fenceRing fid ring cause s).flt = s.flt := by
  simp [fenceRing, State.killFenced, State.killReads]

end

@[simp] theorem State.composeFault_reads (s : State) (fid : Nat) : (s.composeFault fid).reads = s.reads := by
  simp [State.composeFault]

@[simp] theorem State.composeFault_nextSeq (s : State) (fid : Nat) : (s.composeFault fid).flt.nextSeq = s.flt.nextSeq + 1 := by
  simp [State.composeFault, State.record]

/-- Settles O9: each write reaches its register in the ring's state, and each index word's end its ring. -/
theorem ringCommands : Obligations.RingCommands := by
  unfold Obligations.RingCommands
  refine ⟨?_, ?_, ?_, ?_, ?_, ?_, ?_, ?_, ?_⟩
  · intro fid ring value s hw hon hidle u hok
    have hfn : (fn? u fid).isSome = true := by
      simpa [u, State.modRing] using fn?_of_ringOn hon
    refine ⟨ringEnable fid ring u, ?_, ?_⟩
    · show execRingEnable fid ring value s = _
      rw [execRingEnable, run_of_wf hw, if_pos (by simp [hon, hidle]), ringCtlWrite_enable hidle]
    · rw [ringOf_ringEnable hfn hok]
      exact ⟨rfl, rfl, rfl, rfl, rfl⟩
  · intro fid ring value s hw hon hactive
    show execRingDisable fid ring value s = _
    rw [execRingDisable, run_of_wf hw, if_pos (by simp [hon, hactive]), ringCtlWrite_disable hactive]
  · intro fid ring s htype hsources hunann
    simp [ringDisable, htype, hsources, hunann]
  · intro fid ring s hw hon hfenced hbme
    show execRingReset fid ring s = _
    rw [execRingReset, run_of_wf hw, if_pos (by simp [hon, hfenced]), ringCtlWrite_reset hfenced hbme]
  · intro fid ring s hw hon hactive htype hfrozen hidle hissue
    show execRingDb fid ring true s = _
    rw [execRingDb, run_of_wf hw, if_neg (by simp [hon]), if_neg (by simp),
      ringWrite_doorbell (indexDue_iff.mpr ⟨hactive, htype, hfrozen, hidle, hissue⟩)]
  · intro fid ring q s r hw hreads hfid hfor hlive htag _ honce hactive u
    rw [exec_indexWordReadDone_only hw hreads hfid hfor hlive htag]
    exact congrArg _ (ringIndexDone_active (s := { s with reads := [] }) hactive honce q)
  · intro fid ring c s hw hon htype
    show execCplCi fid ring c s = _
    rw [execCplCi, run_of_wf hw, if_pos hon, cplCiWrite]
    simp [htype]
  · intro fid ring s hw htype hactive htimer hunann hfrozen
    show execCplModTimerExpire fid ring s = _
    rw [execCplModTimerExpire, run_of_wf hw]
    simp [htype, hactive, htimer, hunann, hfrozen]
  · intro fid ring s hw hon hdue
    refine ⟨(fenceRing fid ring 2 s).composeFault fid, ?_, ?_⟩
    · show execRingDb fid ring false s = _
      rw [execRingDb, run_of_wf hw, if_neg (by simp [hon]), if_pos (by simp [hdue])]
    · rw [ringOf_composeFault, ringOf_fenceRing (indexDue_iff.mp hdue).1, State.composeFault_reads, State.composeFault_nextSeq, fenceRing_flt]
      exact ⟨rfl, bit_or_two_pow _ 2, length_reads_fenceRing_le 2, rfl⟩

end Sys2Proof.Machine
end

section
/-! PROOFS. The mailbox registers, doorbells and indices, and the event and telemetry rings (R345 to R347, R353, R357, R358, R362). -/

namespace Sys2Proof.Machine

/-! ### A mailbox, read after a change and after what the device gives its host -/

/-- What a function's mailbox holds besides its event ring's indices: its state, its error bits and the requests that wait. -/
def State.mbxCore (s : State) (i : Nat) : Nat × Nat × List Req :=
  ((mbxOf s (.fn i)).state, (mbxOf s (.fn i)).err, (mbxOf s (.fn i)).queue)

theorem mbxCore_congr {s t : State} (h : t.mbxs = s.mbxs) : t.mbxCore = s.mbxCore := by
  funext i
  simp only [State.mbxCore, mbxOf, h]

theorem mbxOf_modMbx_ne (s : State) {i j : Nat} (h : j ≠ i) (f : Mailbox → Mailbox) : mbxOf (s.modMbx (.fn i) f) (.fn j) = mbxOf s (.fn j) :=
  mgetD_mupd_ne s.mbxs {} f h

/-- What the device gives its host changes no mailbox but for its event ring. -/
theorem mbxCore_hostFrame : HostFrame (fun s t => t.mbxCore = s.mbxCore) where
  same := fun _ _ _ _ _ hmbxs => mbxCore_congr hmbxs
  trans := fun h k => k.trans h
  wake := fun s port => mbxCore_congr (by simp)
  fn := fun s i f _ => mbxCore_congr (by simp)
  mbx := fun s i f hf => by
    funext j
    by_cases h : j = i
    · subst h
      obtain ⟨hstate, herr, hqueue⟩ := hf (mbxOf s (.fn j))
      simp [State.mbxCore, hstate, herr, hqueue]
    · simp only [State.mbxCore, mbxOf_modMbx_ne s h]

@[simp] theorem mbxCore_composeFault (s : State) (i : Nat) : (s.composeFault i).mbxCore = s.mbxCore := mbxCore_hostFrame.composeFault s i

@[simp] theorem mbxOf_hostWr (s : State) (i a : Nat) (bs : List Byte) (j : Nat) : mbxOf (s.hostWr i a bs) (.fn j) = mbxOf s (.fn j) := by
  simp [mbxOf]

@[simp] theorem mbxOf_hostRd (s : State) (i a n : Nat) (p : ReadFor) (j : Nat) : mbxOf (s.hostRd i a n p) (.fn j) = mbxOf s (.fn j) := by
  simp [mbxOf]

@[simp] theorem msixSize_modMbx (s : State) (m : MbxId) (f : Mailbox → Mailbox) (i : Nat) : msixSize (s.modMbx m f) i = msixSize s i := by
  rw [msixSize, msixSize, isNvme, isNvme, fnD, fnD, fn?_modMbx]

/-! ### `MBX_CTL` by the state of the mailbox -/

section
variable {fid : Nat} {s : State}

/-- A write of `MBX_CTL` with ENABLE to an IDLE mailbox starts it from the configuration written (R345). -/
theorem mbxCtlWrite_enable (hidle : (mbxOf s (.fn fid)).state = 0) (v : Nat) :
    mbxCtlWrite fid (setBits v 0 1 1) s = mbxEnable fid (s.modMbx (.fn fid) ({ · with poll := bit v 1, vector := bits v 2 11 })) := by
  simp [mbxCtlWrite, hidle]

theorem mbxCtlWrite_disable (hactive : (mbxOf s (.fn fid)).state = 1) (v : Nat) :
    mbxCtlWrite fid (setBits v 0 1 0) s = mbxDisable (.fn fid) s := by
  simp [mbxCtlWrite, hactive]

/-- A mailbox that is started runs from zero indices (R347). -/
theorem mbxOf_mbxEnable (hlo : 4 ≤ (mbxOf s (.fn fid)).log2) (hhi : (mbxOf s (.fn fid)).log2 ≤ 8)
    (hvec : (mbxOf s (.fn fid)).vector < msixSize s fid) :
    ∃ b : Mailbox, mbxOf (mbxEnable fid s) (.fn fid) =
      { b with state := 1, enable := true, lastRead := 0, done := 0, fetched := 0, idxReading := false, idxAgain := false, queue := [] } := by
  refine ⟨mbxOf ((s.killReads (readsMbx fid)).orphanCur (.fn fid)) (.fn fid), ?_⟩
  rw [mbxEnable]
  dsimp only
  rw [if_neg (by simp; omega), mbxOf_hostWr, mbxOf_modMbx_self]

/-- A mailbox in which no command runs is IDLE once what waited has its answer (R347). -/
theorem mbxDisable_of_no_cur (hcur : (mbxOf s (.fn fid)).cur = none) :
    mbxDisable (.fn fid) s = (answerAll (.fn fid) stAborted s).modMbx (.fn fid) ({ · with state := 0, enable := false }) := by
  simp [mbxDisable, hcur]

/-! ### Doorbells and index words -/

theorem mbxListens_iff : mbxListens s fid = true ↔ hasMbx s fid = true ∧ (mbxOf s (.fn fid)).state = 1 ∧ canIssue s fid = true ∧
    (fnD s fid).frozen = false ∧ s.eft.basking = false := by
  simp [mbxListens, and_assoc]

/-- A doorbell that the mailbox takes, with no read of its index word out, has the word read (R98, R117). -/
theorem mbxDoorbell_reads (hlistens : mbxListens s fid = true) (honce : (mbxOf s (.fn fid)).idxReading = false) :
    mbxDoorbell fid s =
      (s.modMbx (.fn fid) ({ · with idxReading := true })).hostRd fid ((mbxOf s (.fn fid)).idxAddr + 8) 8 .mbxIndex := by
  obtain ⟨_, hactive, hissue, _, _⟩ := mbxListens_iff.mp hlistens
  simp [mbxDoorbell, mbxReadIndex, hlistens, hactive, hissue, honce]

/-- An ACTIVE mailbox, of which no further read is owed, takes up a valid index and is fenced by an invalid one (R97, R117). -/
theorem mbxIndexDone_active (hactive : (mbxOf s (.fn fid)).state = 1) (honce : (mbxOf s (.fn fid)).idxAgain = false) (q : Nat) :
    mbxIndexDone fid q s =
      if idxValid q (mbxOf s (.fn fid)).lastRead (mbxOf s (.fn fid)).done (mbxOf s (.fn fid)).log2 then
        mbxKick fid ((s.modMbx (.fn fid) ({ · with idxReading := false, idxAgain := false })).modMbx (.fn fid) ({ · with lastRead := q }))
      else fenceMbx fid 0 (s.modMbx (.fn fid) ({ · with idxReading := false, idxAgain := false })) := by
  rw [mbxIndexDone]
  cases idxValid q (mbxOf s (.fn fid)).lastRead (mbxOf s (.fn fid)).done (mbxOf s (.fn fid)).log2 <;> simp [hactive, honce]

@[simp] theorem mbxOf_mbxKick (s : State) (fid i : Nat) : mbxOf (mbxKick fid s) (.fn i) = mbxOf s (.fn i) := by
  unfold mbxKick
  dsimp only
  split <;> simp

/-- The requests of the slots that a read brings, in their order (R346). -/
theorem mbxOf_mbxSlotsDone (hactive : (mbxOf s (.fn fid)).state = 1) (n : Nat) (data : List Byte) :
    mbxOf (mbxSlotsDone fid n data s) (.fn fid) = { mbxOf s (.fn fid) with
      fetched := add32 (mbxOf s (.fn fid)).fetched n
      queue := (mbxOf s (.fn fid)).queue ++
        (List.range n).map fun i => ({ slot := BitVec.ofNat 512 (ofLe ((data.drop (64 * i)).take 64)) } : Req) } := by
  simp [mbxSlotsDone, hactive]

/-! ### Fences -/

/-- An ACTIVE mailbox that is fenced holds the cause of its fence, and its requests (R102, R117). -/
theorem mbxCore_fenceMbx (hactive : (mbxOf s (.fn fid)).state = 1) (cause : Nat) :
    (fenceMbx fid cause s).mbxCore fid = (3, (mbxOf s (.fn fid)).err ||| 2 ^ cause, (mbxOf s (.fn fid)).queue) := by
  have hkill (t : State) : mbxOf (t.killFenced fid) (.fn fid) = mbxOf t (.fn fid) := rfl
  simp [fenceMbx, hactive, State.mbxCore, hkill]

@[simp] theorem fenceMbx_flt (cause : Nat) : (fenceMbx fid cause s).flt = s.flt := by
  unfold fenceMbx
  dsimp only
  split
  · simp [State.killFenced, State.killReads]
  · rfl

end

/-- A request whose opcode the catalogue does not list is answered BAD_OPCODE (R353). -/
theorem xcs_of_no_row {x : XCall} {r : Req} {s : State} {isOp : Nat → Bool} {body : Call → State → State × Reply}
    (hfront : (mbxOf s x.mbx).queue.head? = some r) (hready : mbxReady s x.mbx = true) (hop : isOp r.opcode = true)
    (hrow : opRow r.opcode = none) : xcs x isOp body s = turnedAway x r stBadOpcode 0 (begun x s) := by
  cases hq : (mbxOf s x.mbx).queue with
  | nil => simp [hq] at hfront
  | cons a l =>
    obtain rfl : a = r := by simpa [hq] using hfront
    simp [xcs, hq, hready, hop, hrow, begun, turnedAway]

/-- Settles O10: each write reaches its register in the mailbox's state, each read's end its mailbox, and each command its answer. -/
theorem mailboxCommands : Obligations.MailboxCommands := by
  unfold Obligations.MailboxCommands
  refine ⟨?_, ?_, ?_, ?_, ?_, ?_, ?_, ?_, ?_, ?_, ?_⟩
  · intro fid value s hw hon hmbx hidle hlo hhi hvec
    let u := s.modMbx (.fn fid) ({ · with poll := bit value 1, vector := bits value 2 11 })
    obtain ⟨b, hb⟩ := mbxOf_mbxEnable (s := u) (fid := fid) (by simpa [u] using hlo) (by simpa [u] using hhi) (by simpa [u] using hvec)
    refine ⟨mbxEnable fid u, ?_, ?_⟩
    · show execMbxEnable fid value s = _
      rw [execMbxEnable, run_of_wf hw, if_pos (by simp [hon, hmbx, hidle]), mbxCtlWrite_enable hidle]
    · rw [hb]
      exact ⟨rfl, rfl, rfl, rfl⟩
  · intro fid value s hw hon hmbx hactive hcur
    show execMbxDisable fid value s = _
    rw [execMbxDisable, run_of_wf hw, if_pos (by simp [hon, hmbx, hactive]), mbxCtlWrite_disable hactive, mbxDisable_of_no_cur hcur]
  · intro fid v s hw hon hlistens honce
    show execMbxDb fid v 4 true s = _
    rw [execMbxDb, run_of_wf hw, if_neg (by simp [hon]), if_neg (by simp), mbxDoorbell_reads hlistens honce]
  · intro fid q s r hw hreads hfid hfor hlive htag hactive honce b u
    rw [exec_indexWordReadDone_only hw hreads hfid hfor hlive htag]
    exact congrArg _ (mbxIndexDone_active (s := { s with reads := [] }) hactive honce q)
  · intro fid n data s hactive b c
    have hc : c = _ := mbxOf_mbxSlotsDone hactive n data
    rw [hc]
    exact ⟨rfl, List.take_left .., by simp [b]⟩
  · intro mbx s hheadless hsafe hcur hw
    show execMbxHeadlessAnswer mbx s = _
    rw [execMbxHeadlessAnswer, run_of_wf hw, if_pos (by simp [hheadless, hsafe]), finishCur, hcur]
  · intro x r s hfront hready hrow hw
    show execUnassignedOpcode x s = _
    rw [execUnassignedOpcode, run_of_wf hw, xcs_of_no_row hfront hready (by simp [hrow]) hrow]
  · intro x r s mask log2 vector ringAddr indexAddr fid h hw hx hmask hlo hhi hvec u
    refine run_replied hw h ?_
    have hfid : (callBy x r s).fid = fid := by rw [callBy, hx]
    rw [if_neg hmask, if_neg (by simp; omega), callBy_mbx, hx, hfid, if_neg (by simp [hvec])]
    rfl
  · intro x r s vector log2 ringAddr indexAddr h hw
    exact run_replied hw h rfl
  · intro x r s ms log2 ringAddr indexAddr h hw
    exact run_replied hw h rfl
  · intro fid v s hw hon hlistens honce
    have hactive := (mbxListens_iff.mp hlistens).2.1
    have hcore : ((fenceMbx fid 2 s).composeFault fid).mbxCore fid = _ :=
      (congrFun (mbxCore_composeFault _ fid) fid).trans (mbxCore_fenceMbx hactive 2)
    simp only [State.mbxCore, Prod.mk.injEq] at hcore
    obtain ⟨hstate, herr, hqueue⟩ := hcore
    refine ⟨(fenceMbx fid 2 s).composeFault fid, ?_, hstate, ?_, hqueue, ?_⟩
    · show execMbxDb fid v 4 false s = _
      rw [execMbxDb, run_of_wf hw, if_neg (by simp [hon]), if_pos (by simp [hlistens, honce])]
    · rw [herr]
      exact bit_or_two_pow _ 2
    · rw [State.composeFault_nextSeq, fenceMbx_flt]

end Sys2Proof.Machine
end

section
/-! SUPPORT. Host ports: a TLP to send takes a port out of L1, and nothing else that the shared operations do touches a host port's record
(R64, R92). -/

namespace Sys2Proof.Machine

/-- The host ports' records but for L1. -/
def State.links (s : State) (n : Nat) : HostPort := { hostPort s n with l1 := false }

theorem links_congr {s t : State} (h : t.hps = s.hps) : t.links = s.links := by
  funext n
  simp only [State.links, hostPort, h]

@[simp] theorem State.wakeLink_links (s : State) (port : Nat) : (s.wakeLink port).links = s.links := by
  funext n
  unfold State.wakeLink
  split
  · by_cases h : n = port
    · simp [State.links, hostPort, mupd, h]
    · simp [State.links, hostPort, mgetD_mupd_ne _ _ _ h]
  · rfl

/-- What the device gives its host changes no host port's record but for L1. -/
theorem links_hostFrame : HostFrame (fun s t => t.links = s.links) where
  same := fun _ _ _ _ hhps _ => links_congr hhps
  trans := fun h k => k.trans h
  wake := State.wakeLink_links
  fn := fun s i f _ => links_congr (by simp)
  mbx := fun s i f _ => links_congr (by simp)

/-- What the device gives its host takes no port into L1. -/
theorem l1_hostFrame (n : Nat) : HostFrame (fun s t => (hostPort s n).l1 = false → (hostPort t n).l1 = false) where
  same := fun _ _ _ _ hhps _ h => by rwa [hostPort, hhps]
  trans := fun h k hs => k (h hs)
  wake := fun s port h => by
    unfold State.wakeLink
    split
    · by_cases hn : n = port
      · simp [hostPort, mupd, hn]
      · rwa [hostPort, mgetD_mupd_ne _ _ _ hn]
    · exact h
  fn := fun s i f _ h => by rwa [hostPort, State.modFn_hps]
  mbx := fun s i f _ h => by rwa [hostPort, State.modMbx_hps]

/-- A port that is not in L1 is in its record's other fields alone. -/
theorem hostPort_of_links {s t : State} {n : Nat} (h : t.links n = s.links n) (hs : (hostPort s n).l1 = false)
    (ht : (hostPort t n).l1 = false) : hostPort t n = hostPort s n := by
  have hself {u : State} (hu : (hostPort u n).l1 = false) : u.links n = hostPort u n := by rw [State.links, ← hu]
  rw [← hself ht, h, hself hs]

@[simp] theorem State.emit_links (s : State) (o : Output) : (s.emit o).links = s.links := rfl
@[simp] theorem State.drawBelow_links (s : State) (n : Nat) : (s.drawBelow n).2.links = s.links := rfl
@[simp] theorem State.modCip_links (s : State) (f : CipherState → CipherState) : (s.modCip f).links = s.links := rfl
@[simp] theorem State.modSto_links (s : State) (f : StorageState → StorageState) : (s.modSto f).links = s.links := rfl
@[simp] theorem State.modPkt_links (s : State) (f : PacketState → PacketState) : (s.modPkt f).links = s.links := rfl
@[simp] theorem State.modOwner_links (s : State) (o : Nat) (f : Owner → Owner) : (s.modOwner o f).links = s.links := rfl
@[simp] theorem State.modCtrl_links (s : State) (i : Nat) (f : Ctrl → Ctrl) : (s.modCtrl i f).links = s.links := rfl
@[simp] theorem State.modConn_links (s : State) (b q : Nat) (f : Conn → Conn) : (s.modConn b q f).links = s.links := rfl
@[simp] theorem State.modCmd_links (s : State) (n : Nat) (f : NvCmd → NvCmd) : (s.modCmd n f).links = s.links := rfl
@[simp] theorem State.killReads_links (s : State) (p : Read → Bool) : (s.killReads p).links = s.links := rfl
@[simp] theorem State.bump_links (s : State) (k : CtrKind) (a b n : Nat) : (s.bump k a b n).links = s.links := links_congr (by simp)
@[simp] theorem State.modFn_links (s : State) (i : Nat) (f : Fn → Fn) : (s.modFn i f).links = s.links := links_congr (by simp)
@[simp] theorem State.modRing_links (s : State) (i r : Nat) (f : Ring → Ring) : (s.modRing i r f).links = s.links := links_congr (by simp)
@[simp] theorem State.modMbx_links (s : State) (m : MbxId) (f : Mailbox → Mailbox) : (s.modMbx m f).links = s.links := links_congr (by simp)
@[simp] theorem State.hostWr_links (s : State) (i a : Nat) (bs : List Byte) : (s.hostWr i a bs).links = s.links :=
  links_hostFrame.hostWr s i a bs
@[simp] theorem State.sendMsix_links (s : State) (i v : Nat) : (s.sendMsix i v).links = s.links := links_hostFrame.sendMsix s i v
@[simp] theorem State.event_links (s : State) (c : Nat) (u : Subject) (a : Nat) : (s.event c u a).links = s.links :=
  links_hostFrame.event s c u a

/-- A fold whose every step keeps the ports keeps them. -/
theorem foldl_links {α : Type} {f : State → α → State} (h : ∀ s x, (f s x).links = s.links) (l : List α) (s : State) :
    (l.foldl f s).links = s.links :=
  foldl_keeps State.links f h l s

@[simp] theorem State.issueRead_links (s : State) (r : Read) : (s.issueRead r).links = s.links := by
  unfold State.issueRead
  split
  · exact (links_congr (s := s.wakeLink (fidPort r.fid)) (by simp)).trans (State.wakeLink_links s _)
  · rfl

@[simp] theorem State.hostRd_links (s : State) (i a n : Nat) (p : ReadFor) : (s.hostRd i a n p).links = s.links := by
  unfold State.hostRd
  split
  · exact foldl_links State.issueRead_links _ _
  · rfl

/-! ### Rings and completions (R98, R110, R112) -/

@[simp] theorem announce_links (fid c : Nat) (s : State) : (announce fid c s).links = s.links := by
  rw [announce, apply_ite State.links]
  simp

@[simp] theorem moderate_links (fid c : Nat) (s : State) : (moderate fid c s).links = s.links := by
  rw [moderate, apply_ite State.links]
  simp

@[simp] theorem cplWrite_links (fid c : Nat) (es : List Cpl) (s : State) : (cplWrite fid c es s).links = s.links := by
  rw [cplWrite, apply_ite State.links]
  simp [foldl_links]

@[simp] theorem txFlush_links (fid r : Nat) (s : State) : (txFlush fid r s).links = s.links := by
  rw [txFlush, apply_ite State.links]
  simp only [cplWrite_links, apply_ite State.links, State.modRing_links, ite_self]

@[simp] theorem txNote_links (src : Source) (f : TxPkt → TxPkt) (s : State) : (txNote src f s).links = s.links := by
  cases src <;> simp [txNote]

@[simp] theorem dropPkt_links (k : Pkt) (reason : Nat) (s : State) : (dropPkt k reason s).links = s.links := by
  simp [dropPkt, txDrop]

@[simp] theorem readBufs_links (fid r : Nat) (s : State) : (readBufs fid r s).links = s.links := by
  rw [readBufs, apply_ite State.links]
  simp

@[simp] theorem kick_links (fid r : Nat) (s : State) : (kick fid r s).links = s.links := by
  simp [kick, apply_ite State.links]

@[simp] theorem kickAll_links (fid : Nat) (s : State) : (kickAll fid s).links = s.links :=
  foldl_links (by simp) _ s

/-! ### Buffer owners and the copies on the egress queues (R45, R204, R207, R208) -/

@[simp] theorem bumpOwner_links (k pool : CtrKind) (o : Nat) (s : State) : (bumpOwner k pool o s).links = s.links := by
  simp [bumpOwner, apply_ite State.links]

@[simp] theorem pauseSync_links (o : Nat) (s : State) : (pauseSync o s).links = s.links := by
  have hsync (ps : List (Nat × EthPort)) : ({ s with ports := ps } : State).links = s.links := rfl
  unfold pauseSync
  dsimp only
  split
  · rfl
  · simp [apply_ite State.links, foldl_links, hsync]

@[simp] theorem bpAct_links (o : Nat) (on : Bool) (s : State) : (bpAct o on s).links = s.links := by
  simp [bpAct, apply_ite State.links]

@[simp] theorem bpAssert_links (cause o : Nat) (s : State) : (bpAssert cause o s).links = s.links := by
  simp [bpAssert, apply_ite State.links]

@[simp] theorem bpSweep_links (s : State) : (bpSweep s).links = s.links := by
  rw [bpSweep, bpRelease, foldl_links (by simp), foldl_links (by simp)]

@[simp] theorem freeCells_links (o n : Nat) (s : State) : (freeCells o n s).links = s.links := by
  simp [freeCells]

@[simp] theorem dropRef_links (n : Nat) (s : State) : (dropRef n s).links = s.links := by
  unfold dropRef
  split
  · rfl
  · simp [apply_ite State.links]

@[simp] theorem dropHead_links (q : Nat) (c : Copy) (reason : Nat) (s : State) : (dropHead q c reason s).links = s.links := by
  simp [dropHead, leaveQueue, txDrop, apply_ite State.links]

@[simp] theorem dropWhere_links (pass : Nat → Copy → Bool) (reason : Nat) (s : State) : (dropWhere pass reason s).links = s.links :=
  foldl_links (fun s q => by simp [dropCopies, foldl_links]) _ s

/-! ### Backend commands (R206, R264) -/

@[simp] theorem toIngress_links (k : Pkt) (s : State) : (toIngress k s).links = s.links := by
  simp [toIngress, apply_ite State.links]

@[simp] theorem tcpFrame_links (k : Backend) (c : Conn) (ack : Nat) (p : List Byte) (s : State) :
    (tcpFrame k c ack p s).2.links = s.links := rfl

@[simp] theorem backSend_links (b tag op lba len : Nat) (data : List Byte) (s : State) :
    (backSend b tag op lba len data s).links = s.links := by
  simp [backSend, connSend, foldl_links]

@[simp] theorem backGo_links (b : BackCmd) (s : State) : (backGo b s).links = s.links := by
  simp [backGo, storageCharge, noteAdmitted, apply_ite State.links]

@[simp] theorem backDrop_links (p : BackCmd → Bool) (s : State) : (backDrop p s).links = s.links := by
  rw [backDrop, backPump, foldl_links (by simp), apply_ite State.links]
  simp

/-! ### Controllers (R84, R256) -/

@[simp] theorem nvRelease_links (seq : Nat) (s : State) : (nvRelease seq s).links = s.links := by
  unfold nvRelease
  split
  · rfl
  · simp [shutdownCheck, lockRelease, ckvDrop, apply_ite State.links]

@[simp] theorem cmdOff_links (c : NvCmd) (s : State) : (cmdOff c s).links = s.links := by
  simp [cmdOff, apply_ite State.links]

@[simp] theorem nvmeReset_links (fid : Nat) (s : State) : (nvmeReset fid s).links = s.links := by
  simp [nvmeReset, ctrlOff, foldl_links, apply_ite State.links]

/-! ### Answers (R346, R350) -/

@[simp] theorem scatter_links (fid : Nat) (l : List (Nat × Nat)) (bs : List Byte) (s : State) : (scatter fid l bs s).links = s.links := by
  induction l generalizing bs s with
  | nil => rfl
  | cons e l ih =>
    rw [scatter, ih, State.hostWr_links]

@[simp] theorem putResponse_links (m : MbxId) (r : Req) (rspList : List (Nat × Nat)) (status detail full : Nat) (body : List Byte) (s : State) :
    (putResponse m r rspList status detail full body s).links = s.links := by
  have hready (i : I3c) : ({ s with i3c := i } : State).links = s.links := rfl
  cases m with
  | board => simp [putResponse, hready, apply_ite State.links]
  | fn fid => simp [putResponse, apply_ite State.links]

@[simp] theorem answerAll_links (m : MbxId) (status : Nat) (s : State) : (answerAll m status s).links = s.links := by
  simp [answerAll, respond, foldl_links]

@[simp] theorem finishCur_links (m : MbxId) (status detail : Nat) (payload : List Fld) (s : State) :
    (finishCur m status detail payload s).links = s.links := by
  unfold finishCur
  split
  · rfl
  · dsimp only
    split <;> simp [respond]

@[simp] theorem finishWait_links (w : Wait → Bool) (status detail : Nat) (payload : List Fld) (s : State) :
    (finishWait w status detail payload s).links = s.links :=
  foldl_links (by simp) _ s

@[simp] theorem detachPump_links (s : State) : (detachPump s).links = s.links :=
  foldl_links (by simp) _ s

@[simp] theorem State.orphanCur_links (s : State) (m : MbxId) : (s.orphanCur m).links = s.links := by
  unfold State.orphanCur
  split
  · rw [State.modMbx_links]
    rfl
  · rfl

/-! ### Function resets (R84) -/

@[simp] theorem ctxThaw_links (fid : Nat) (s : State) : (ctxThaw fid s).links = s.links :=
  foldl_links (by intros; rfl) _ s

@[simp] theorem resetFn_links (fid : Nat) (s : State) : (resetFn fid s).links = s.links := by
  simp [resetFn, apply_ite State.links]

@[simp] theorem resetUnprov_links (port pf : Nat) (s : State) : (resetUnprov port pf s).links = s.links := rfl

@[simp] theorem domClear_links (d : Dom) (s : State) : (domClear d s).links = s.links := by
  rw [domClear, apply_ite State.links]
  exact ite_self _

@[simp] theorem regroup_links (s : State) : (regroup s).links = s.links :=
  foldl_links (by intros; rfl) _ s

end Sys2Proof.Machine
end

section
/-! PROOFS. Function and port resets, power states, links, and the end of an outstanding read (R82 to R92). -/

namespace Sys2Proof.Machine

theorem fn?_of_hostFn {s : State} {f : Nat} (h : hostFn s f = true) : (fn? s f).isSome = true := by
  simp only [hostFn, Bool.and_eq_true] at h
  exact h.1.1.1.1

/-! ### Function resets (R83, R86, R88) -/

section
variable {f : Nat} {s : State}

/-- An FLR of a function that has no VFs (R83, R86). -/
theorem flr_of_no_vfs (hflr : (fnD s f).inFlr = false) (h1 : fidFn f ≠ 1) (h2 : fidFn f ≠ 2) :
    flr f s = (resetFn f s).modFn f ({ · with inFlr := true }) := by
  simp [flr, hflr, h1, h2]

/-- An FLR of PF1 or PF2 resets its VFs first (R83, R86). -/
theorem flr_of_vfs (hflr : (fnD s f).inFlr = false) (hpf : fidFn f = 1 ∨ fidFn f = 2) :
    flr f s = (resetFn f (resetVfs f s)).modFn f ({ · with inFlr := true }) := by
  simp [flr, hflr, hpf]

/-- VF Enable of PF1 or PF2 is set for the number of VFs given (R88). -/
theorem fnD_vfEnableSet (hfn : (fn? s f).isSome = true) (hpf : fidFn f = 1 ∨ fidFn f = 2) (hoff : (fnD s f).vfEnable = false) (n : Nat) :
    fnD (vfEnableSet f (s.modFn f ({ · with numVfs := n }))) f = { fnD s f with vfEnable := true, numVfs := n } := by
  have hnum : fnD (s.modFn f ({ · with numVfs := n })) f = { fnD s f with numVfs := n } := fnD_modFn_self hfn _
  rw [vfEnableSet, if_pos (by simp [hpf, hnum, hoff]), fnD_modFn_self (by simpa using hfn), hnum]

end

/-! ### Port resets and links (R65, R83, R85, R88) -/

section
variable {n : Nat} {s : State}

/-- A host port whose link has gone down, with what the store holds for it (R65, R85). -/
def HostPort.down (h r : HostPort) : HostPort := { h.takeUp r with linkUp := false, ready := false, l1 := false, bus := 0 }

/-- A port that is reset is host absent, and its functions' resets leave its record as it was (R83, R85). -/
theorem links_portReset (n : Nat) (s : State) : ∃ r, (portReset n s).links n = (hostPort s n).down r := by
  unfold portReset
  dsimp only
  generalize hv : resetUnprov n 1 (resetUnprov n 2 _) = v
  have hlinks : v.links n = s.links n := by
    rw [← hv, resetUnprov_links, resetUnprov_links, foldl_links (by simp), dropWhere_links]
  refine ⟨mgetD v.nv.hostRec n {}, ?_⟩
  rw [apply_ite State.links, State.event_links, ite_self, regroup_links, domClear_links, State.links, hostPort, mgetD_mupd_self]
  exact congrArg (HostPort.down · _) hlinks

theorem linkUp_portReset (n : Nat) (s : State) : (hostPort (portReset n s) n).linkUp = false := by
  obtain ⟨r, h⟩ := links_portReset n s
  exact congrArg HostPort.linkUp h

theorem ready_portReset (n : Nat) (s : State) : (hostPort (portReset n s) n).ready = false := by
  obtain ⟨r, h⟩ := links_portReset n s
  exact congrArg HostPort.ready h

theorem bus_portReset (n : Nat) (s : State) : (hostPort (portReset n s) n).bus = 0 := by
  obtain ⟨r, h⟩ := links_portReset n s
  exact congrArg HostPort.bus h

theorem perst_portReset (n : Nat) (s : State) : (hostPort (portReset n s) n).perst = (hostPort s n).perst := by
  obtain ⟨r, h⟩ := links_portReset n s
  exact (congrArg HostPort.perst h :)

/-- An event leaves a port that is not in L1 as it was. -/
theorem hostPort_event (h : (hostPort s n).l1 = false) (c : Nat) (u : Subject) (a : Nat) : hostPort (s.event c u a) n = hostPort s n :=
  hostPort_of_links (by rw [State.event_links]) h ((l1_hostFrame n).event s c u a h)

/-- The functions of a list initialise: each that is there is ready (R88). -/
theorem ready_foldl {l : List Nat} {g : Fn → Fn} (hg : ∀ r, (g r).ready = true) {s : State} {f : Nat} (hfn : (fn? s f).isSome = true)
    (h : f ∈ l ∨ (fnD s f).ready = true) : (fnD (l.foldl (fun s i => s.modFn i g) s) f).ready = true := by
  induction l generalizing s with
  | nil => simpa using h
  | cons i l ih =>
    refine ih (by simpa using hfn) ?_
    by_cases hi : f = i
    · subst hi
      exact .inr (by rw [fnD_modFn_self hfn, hg])
    · refine h.imp (fun hm => (List.mem_cons.mp hm).resolve_left hi) (fun hr => ?_)
      rwa [fnD, fn?_modFn, if_neg hi]

end

/-! ### The end of a read (R82, R90) -/

section
variable {n tag : Nat} {s : State} {r : Read}

theorem exec_pcieReadCompletion_some {data : List Byte} (hw : wfPcieReadCompletion n tag (some data) = true) (hread : readOf s n tag = some r) :
    exec (.pcieReadCompletion n tag (some data)) s = .next (goodRead n tag r data s) := by
  show execPcieReadCompletion n tag (some data) s = _
  rw [execPcieReadCompletion, run_of_wf hw, hread]

theorem goodRead_dead (hdead : r.dead = true) (data : List Byte) : goodRead n tag r data s = dropRead n tag r s := by
  simp [goodRead, hdead]

theorem goodRead_mbxSlots (hlive : r.dead = false) {k : Nat} (hfor : r.purpose = .mbxSlots k) (data : List Byte) :
    goodRead n tag r data s = mbxSlotsDone r.fid k data (dropRead n tag r s) := by
  simp [goodRead, hlive, hfor]

theorem goodRead_mbxIndex (hlive : r.dead = false) (hfor : r.purpose = .mbxIndex) (data : List Byte) :
    goodRead n tag r data s = mbxIndexDone r.fid (ofLe (data.take 4)) (dropRead n tag r s) := by
  simp [goodRead, hlive, hfor]

end

/-- Settles O12: each access reaches a function or a port that is there, and each read's end what the read serves. -/
theorem functionResets : Obligations.FunctionResets := by
  unfold Obligations.FunctionResets
  refine ⟨?_, ?_, ?_, ?_, ?_, ?_, ?_, ?_, ?_, ?_, ?_, ?_, ?_, ?_, ?_, ?_, ?_, ?_, ?_, ?_, ?_⟩
  · intro f s hw hon
    show execBmeClear f s = _
    rw [execBmeClear, run_of_wf hw, if_pos hon]
  · intro f s hw hon
    show execMseClear f s = _
    rw [execMseClear, run_of_wf hw, if_pos hon]
  · intro f s hw hon hflr h1 h2
    show execFlr f s = _
    rw [execFlr, run_of_wf hw, if_pos hon, flr_of_no_vfs hflr h1 h2]
  · intro f s hw hon hflr hpf
    show execFlr f s = _
    rw [execFlr, run_of_wf hw, if_pos hon, flr_of_vfs hflr hpf]
  · intro f n s hw hon hpf hoff
    refine ⟨_, ?_, fnD_vfEnableSet (fn?_of_hostFn hon) hpf hoff n⟩
    show execVfEnableSet f n s = _
    rw [execVfEnableSet, run_of_wf hw, if_pos (by simp [hon, hpf, hoff])]
  · intro f s hw hon hvfs
    show execVfEnableClear f s = _
    rw [execVfEnableClear, run_of_wf hw, if_pos hon, vfEnableClear, if_pos hvfs]
  · intro f s hw hon
    show execD3hotEnter f s = _
    rw [execD3hotEnter, run_of_wf hw, if_pos hon, d3Enter]
  · intro f s hw hon hd3
    show execD0Return f s = _
    rw [execD0Return, run_of_wf hw, if_pos (by simp [hon, hd3]), d0Return]
  · intro n s hw hport hup
    refine ⟨portReset n s, ?_, linkUp_portReset n s, ready_portReset n s⟩
    show execD3coldEnter n s = _
    rw [execD3coldEnter, run_of_wf hw, if_pos (by simp [hport, hup])]
  · intro n ns s hw hns hpins hport
    let u : State := { s with hps := mupd s.hps n {} ({ · with perst := true }) }
    refine ⟨portReset n u, ?_, linkUp_portReset n u, ?_⟩
    · have hthere : hostPortExists u n = true := hport
      show execHpPerstNAssert n ns s = _
      rw [execHpPerstNAssert, run_of_wf hw, if_neg (by simp [hns, hpins])]
      exact congrArg _ (if_pos hthere)
    · rw [perst_portReset, hostPort, mgetD_mupd_self]
  · intro n s hw hpins
    refine ⟨{ s with hps := mupd s.hps n {} ({ · with perst := false }) }, ?_, ?_⟩
    · show execHpPerstNDeassert n s = _
      rw [execHpPerstNDeassert, run_of_wf hw, if_pos hpins]
    · rw [hostPort, mgetD_mupd_self, ← hostPort]
  · intro n s hw hport hup
    show execHotReset n s = _
    rw [execHotReset, run_of_wf hw, if_pos (by simp [hport, hup])]
  · exact fun n s => ⟨linkUp_portReset n s, bus_portReset n s⟩
  · intro n width gt flit s hw hport henabled hperst hdown hup hpins hrun hform htrain hwidth hgt hflit
    let h : HostPort := { hostPort s n with linkUp := true, ready := false, width, gt, flit, l1 := false }
    let u : State := { s with hps := mput s.hps n h }
    have hu : hostPort u n = h := mgetD_mput_self ..
    refine ⟨u.event 0x0303 (.hostPort n) 0, ?_, (hostPort_event (by rw [hu]) _ _ _).trans hu⟩
    show execDlUp n width gt flit s = _
    rw [execDlUp, run_of_wf hw]
    dsimp only
    rw [if_neg]
    have hrate : ¬ (64 ≤ gt ∧ flit = false) := fun h => hflit.elim (Nat.not_lt.mpr h.1) (by simp [h.2])
    simp [hport, henabled, hperst, hdown, hup, hpins, hrun, hform, htrain, hwidth, hgt, hrate]
  · intro n s hw hup
    let u : State := { s with hps := mupd s.hps n {} ({ · with ready := true }) }
    refine ⟨(portFids u n).foldl (fun s f => s.modFn f ({ · with ready := true, inFlr := false })) u, ?_, ?_, ?_⟩
    · show execFunctionReady n s = _
      rw [execFunctionReady, run_of_wf hw, if_neg (by simp [hup])]
    · rw [hostPort, foldl_keeps State.hps _ (by simp), mgetD_mupd_self]
    · exact fun f hf hfn => ready_foldl (fun _ => rfl) hfn (.inl hf)
  · intro n s hw hup haspm
    show execL1Enter n true s = _
    rw [execL1Enter, run_of_wf hw, if_pos (by simpa [hup] using haspm)]
  · intro n tag data s r hw hread hdead
    rw [exec_pcieReadCompletion_some hw hread, goodRead_dead hdead]
  · intro n tag data s r k hw hread hlive hfor
    rw [exec_pcieReadCompletion_some hw hread, goodRead_mbxSlots hlive hfor]
  · intro n tag data s r hw hread hlive hfor
    rw [exec_pcieReadCompletion_some hw hread, goodRead_mbxIndex hlive hfor]
  · intro n tag s r hw hread
    show execPcieReadCompletion n tag none s = _
    rw [execPcieReadCompletion, run_of_wf hw, hread]
  · intro n tag s r hw hread hcto
    show execCompletionTimeout n tag s = _
    rw [execCompletionTimeout, run_of_wf hw, hread]
    dsimp only
    rw [if_neg (by simp [hcto])]

end Sys2Proof.Machine
end

section
/-! PROOFS. The NVMe front end: `CC` and doorbells, fetch, start, the posting point and the aggregation time (R230 to R235, R244 to R248, R252,
R257, R259). -/

namespace Sys2Proof.Machine

/-! ### The submission queues, and what leaves them as they were -/

/-- What a fetch moves: the number that the next command takes, and every controller's submission queues (R232). -/
def State.sqSide (s : State) : Nat × (Nat → List (Nat × NvSq)) := (s.sto.nextSeq, fun f => (ctrlOf s f).sqs)

theorem sqSide_congr {s t : State} (h : t.sto = s.sto) : t.sqSide = s.sqSide := by
  simp only [State.sqSide, ctrlOf, h]

theorem sqOf_of_sqSide {s t : State} (h : t.sqSide.2 = s.sqSide.2) (f q : Nat) : sqOf t f q = sqOf s f q :=
  congrArg (fun m : List (Nat × NvSq) => mgetD m q {}) (congrFun h f)

theorem ctrlOf_modCtrl_self (s : State) (f : Nat) (g : Ctrl → Ctrl) : ctrlOf (s.modCtrl f g) f = g (ctrlOf s f) :=
  mgetD_mupd_self s.sto.ctrls f {} g

theorem sqOf_modSq_self (s : State) (f q : Nat) (g : NvSq → NvSq) : sqOf (s.modSq f q g) f q = g (sqOf s f q) := by
  rw [sqOf, State.modSq, ctrlOf_modCtrl_self, mgetD_mupd_self, ← sqOf]

theorem modCtrl_sqSide (s : State) (f : Nat) {g : Ctrl → Ctrl} (hg : ∀ c, (g c).sqs = c.sqs) : (s.modCtrl f g).sqSide = s.sqSide := by
  refine Prod.ext rfl (funext fun i => ?_)
  by_cases h : i = f
  · subst h
    exact (congrArg Ctrl.sqs (ctrlOf_modCtrl_self s i g)).trans (hg _)
  · exact congrArg Ctrl.sqs (mgetD_mupd_ne s.sto.ctrls {} g h)

@[simp] theorem State.hostRdNow_sqSide (s : State) (i a n : Nat) : (s.hostRdNow i a n).sqSide = s.sqSide := sqSide_congr (by simp)
@[simp] theorem State.modCip_sqSide (s : State) (g : CipherState → CipherState) : (s.modCip g).sqSide = s.sqSide := sqSide_congr rfl
@[simp] theorem ckvDrop_sqSide (l : List Nat) (s : State) : (ckvDrop l s).sqSide = s.sqSide := State.modCip_sqSide ..
@[simp] theorem State.modCmd_sqSide (s : State) (n : Nat) (g : NvCmd → NvCmd) : (s.modCmd n g).sqSide = s.sqSide := rfl

@[simp] theorem lockRelease_sqSide (n : Nat) (s : State) : (lockRelease n s).sqSide = s.sqSide := rfl

theorem modCmds_sqSide (s : State) (g : List NvCmd → List NvCmd) : (s.modSto (fun t => { t with cmds := g t.cmds })).sqSide = s.sqSide := rfl

@[simp] theorem shutdownCheck_sqSide (f : Nat) (s : State) : (shutdownCheck f s).sqSide = s.sqSide := by
  rw [shutdownCheck, apply_ite State.sqSide, modCtrl_sqSide _ _ (by simp), ite_self]

@[simp] theorem nvRelease_sqSide (seq : Nat) (s : State) : (nvRelease seq s).sqSide = s.sqSide := by
  unfold nvRelease
  split
  · rfl
  · simp only [shutdownCheck_sqSide, State.modCip_sqSide, ckvDrop_sqSide, lockRelease_sqSide]
    exact modCmds_sqSide s (·.filter (·.seq ≠ seq))

@[simp] theorem nvDone_sqSide (seq sct sc : Nat) (dnr : Option Bool) (s : State) : (nvDone seq sct sc dnr s).sqSide = s.sqSide := by
  have hend (d : Nat) (u : State) : (match cmd? u seq with
      | some c => if c.orphan then nvRelease seq u else u.modCmd seq ({ · with phase := .done, status := nvStatus sct sc d })
      | none => u).sqSide = u.sqSide := by
    split
    · simp [apply_ite State.sqSide]
    · rfl
  cases dnr with
  | none => exact hend _ (s.drawBelow 2).2
  | some b => exact hend _ s

@[simp] theorem lockAdd_sqSide (l : List Lock) (s : State) : (lockAdd l s).sqSide = s.sqSide :=
  (sqSide_congr (by simp [lockAdd])).trans (rfl : (s.modSto (fun t => { t with locks := t.locks ++ l })).sqSide = s.sqSide)

/-- A command enters flight with the next number (R232). -/
theorem enterCmd_sqSide (c : NvCmd) (err : Option (Nat × Nat)) (s : State) :
    (enterCmd c err s).sqSide = (s.sqSide.1 + 1, s.sqSide.2) := by
  unfold enterCmd
  dsimp only
  split
  · exact nvDone_sqSide ..
  · rw [apply_ite State.sqSide, lockAdd_sqSide, ite_self]
    rfl

theorem enterSecond_sqSide (a c : NvCmd) (s : State) : (enterSecond a c s).sqSide = (s.sqSide.1 + 1, s.sqSide.2) := by
  unfold enterSecond
  dsimp only
  split
  · simp only [nvDone_sqSide]
    rfl
  · split
    · simp only [nvDone_sqSide]
      rfl
    · simp only [nvDone_sqSide]
      rfl
    · simp only [lockAdd_sqSide, State.modCmd_sqSide]
      rfl

theorem takeTurn_sqSide (f q : Nat) (s : State) : (takeTurn f q s).sqSide = s.sqSide := by
  unfold takeTurn
  dsimp only
  split
  · rfl
  · exact modCtrl_sqSide _ _ (by simp)

theorem withPtrs_sqSide (c : NvCmd) (lists : List (List Byte)) (mdList : List Byte) (s : State) :
    (withPtrs c lists mdList s).2.sqSide = s.sqSide := by
  unfold withPtrs
  split
  · rfl
  · exact foldl_keeps State.sqSide _ (by simp) _ s

/-- The end of a fetch: the entry, its pointers read, takes its place in flight, behind a first half `half` that waits or
without one; `next`: an entry stands behind it. -/
def enterFetched (f q : Nat) (half : Option NvCmd) (next : Bool) (p : NvCmd × State) : State :=
  let (c, s) := p
  let s := if q ≠ 0 && c.opc = 9 && c.ad then c.segs.foldl (fun s e => s.hostRdNow f e.1 e.2) s else s
  let more := next && 1 < (grantsOf s f).cmds
  let s := match half with
    | some h => if c.fuse = 2 then s else nvDone h.seq 0 0xA none s
    | none => s
  if c.fuse = 3 then enterCmd c (some (0, 2)) s
  else if c.fuse = 2 then
    match half with
    | some h => enterSecond h c s
    | none => enterCmd c (some (0, 0xA)) s
  else if c.fuse = 1 then
    let s := s.modSto (fun t => { t with cmds := t.cmds ++ [c], nextSeq := t.nextSeq + 1 })
    if more then s else nvDone c.seq 0 0xA none s
  else if c.admin && c.opc = 8 && 8 ≤ ((inFlight s f).filter (fun k => k.admin && k.opc = 8)).length then
    enterCmd c (some (1, 3)) s
  else enterCmd c (fetchError s c) s

theorem enterFetched_sqSide (f q : Nat) (half : Option NvCmd) (next : Bool) (p : NvCmd × State) :
    (enterFetched f q half next p).sqSide = (p.2.sqSide.1 + 1, p.2.sqSide.2) := by
  obtain ⟨c, s⟩ := p
  -- the range list read, and a first half without a second given its status, move nothing
  have hread : (if q ≠ 0 && c.opc = 9 && c.ad then c.segs.foldl (fun s e => s.hostRdNow f e.1 e.2) s else s).sqSide = s.sqSide := by
    rw [apply_ite State.sqSide, foldl_keeps State.sqSide _ (by simp) _ s, ite_self]
  have hhalf (u : State) : (match half with
      | some h => if c.fuse = 2 then u else nvDone h.seq 0 0xA none u
      | none => u).sqSide = u.sqSide := by
    split
    · rw [apply_ite State.sqSide, nvDone_sqSide, ite_self]
    · rfl
  have hboth := (hhalf _).trans hread
  unfold enterFetched
  dsimp only at hboth ⊢
  generalize (match half with
      | some h => if c.fuse = 2 then _ else nvDone h.seq 0 0xA none _
      | none => _) = u at hboth ⊢
  rw [← hboth]
  split
  · exact enterCmd_sqSide ..
  · split
    · split
      · exact enterSecond_sqSide ..
      · exact enterCmd_sqSide ..
    · split
      · rw [apply_ite State.sqSide, nvDone_sqSide, ite_self]
        rfl
      · rw [apply_ite State.sqSide, enterCmd_sqSide, enterCmd_sqSide, ite_self]

/-- The state with an entry read and the head moved on, from which a fetch goes on. -/
def sqEntryRead (f q : Nat) (s : State) : State :=
  (takeTurn f q (s.hostRdNow f ((sqOf s f q).base + 64 * (sqOf s f q).head) 64)).modSq f q
    (fun x => { x with head := (x.head + 1) % x.size })

theorem fetchCmd_eq {f q : Nat} {s : State} (e : Nat) (lists : List (List Byte)) (mdl : List Byte) (rs : List (Nat × Nat))
    (hcan : canFetch s f q = true) :
    ∃ half next c, fetchCmd f q e lists mdl rs true s = enterFetched f q half next (withPtrs c lists mdl (sqEntryRead f q s)) := by
  refine ⟨halfOf s f q, ((sqOf s f q).head + 1) % (sqOf s f q).size ≠ (sqOf s f q).tail, ?_⟩
  apply Exists.intro
  unfold fetchCmd
  rw [if_neg (by simp [hcan]), if_neg (by simp)]
  rfl

theorem sqEntryRead_nextSeq (f q : Nat) (s : State) : (sqEntryRead f q s).sqSide.1 = s.sto.nextSeq :=
  congrArg Prod.fst ((takeTurn_sqSide ..).trans (State.hostRdNow_sqSide s f _ 64))

theorem sqEntryRead_head (f q : Nat) (s : State) :
    (sqOf (sqEntryRead f q s) f q).head = ((sqOf s f q).head + 1) % (sqOf s f q).size := by
  rw [sqEntryRead, sqOf_modSq_self,
    sqOf_of_sqSide (congrArg Prod.snd ((takeTurn_sqSide ..).trans (State.hostRdNow_sqSide s f _ 64)))]

/-- A fetch takes the next number and moves its own queue's head (R232). -/
theorem fetchCmd_sqSide {f q : Nat} {s : State} (e : Nat) (lists : List (List Byte)) (mdl : List Byte) (rs : List (Nat × Nat))
    (hcan : canFetch s f q = true) :
    (fetchCmd f q e lists mdl rs true s).sqSide = (s.sto.nextSeq + 1, (sqEntryRead f q s).sqSide.2) := by
  obtain ⟨half, next, c, h⟩ := fetchCmd_eq e lists mdl rs hcan
  rw [h, enterFetched_sqSide, withPtrs_sqSide, sqEntryRead_nextSeq]

/-! ### A fetch that is not issued -/

theorem mem_mput_self {α : Type} (m : List (Nat × α)) (k : Nat) (v : α) : (k, v) ∈ mput m k v := by
  induction m with
  | nil => simp [mput]
  | cons e m ih =>
    unfold mput
    split
    · simp
    · split
      · simp
      · exact List.mem_cons_of_mem _ ih

theorem nvmeFenced_modSq (s : State) (f q : Nat) : nvmeFenced (s.modSq f q ({ · with fenced := true })) f = true := by
  rw [nvmeFenced, State.modSq, ctrlOf_modCtrl_self]
  exact Bool.or_eq_true_iff.mpr (.inr (List.any_eq_true.mpr ⟨_, mem_mput_self .., rfl⟩))

theorem nvmeFenced_congr {s t : State} (h : t.sto = s.sto) (f : Nat) : nvmeFenced t f = nvmeFenced s f := by
  simp only [nvmeFenced, ctrlOf, h]

theorem fetchCmd_uncomposed {f q : Nat} {s : State} (e : Nat) (lists : List (List Byte)) (mdl : List Byte) (rs : List (Nat × Nat))
    (hcan : canFetch s f q = true) :
    fetchCmd f q e lists mdl rs false s = (s.modSq f q ({ · with fenced := true })).composeFault f := by
  unfold fetchCmd
  rw [if_neg (by simp [hcan]), if_pos (by simp)]

theorem fetchCmd_of_cannot {f q : Nat} {s : State} (e : Nat) (lists : List (List Byte)) (mdl : List Byte) (rs : List (Nat × Nat)) (dma : Bool)
    (hcan : canFetch s f q = false) : fetchCmd f q e lists mdl rs dma s = s := by
  unfold fetchCmd
  rw [if_pos (by simp [hcan])]

/-- Settles O34: each command's branch as its guards choose it; a fetch moves the head before anything that keeps the queues. -/
theorem nvmeFrontEnd : Obligations.NvmeFrontEnd := by
  unfold Obligations.NvmeFrontEnd
  refine ⟨?enable, ?disable, ?shutdown, ?unprov, ?sqDoorbell, ?cqDoorbell, ?fetched, ?notFetched, ?start, ?starts, ?posting, ?heldSent,
    ?noneHeld, ?fetchFault⟩
  case enable =>
    intro f v s hw hv hn hb
    show execNvmeCcEnable _ v s = _
    rw [execNvmeCcEnable, run_of_wf hw, if_pos hv, ccOf, if_pos (by simp [hn, hb])]
  case disable =>
    intro f v s hw hv hn hb
    show execNvmeCcDisable _ v s = _
    rw [execNvmeCcDisable, run_of_wf hw, if_neg (by simp [hv]), ccOf, if_pos (by simp [hn, hb])]
  case shutdown =>
    intro f v s hw hv hn hb
    show execNvmeCcShutdown _ v s = _
    rw [execNvmeCcShutdown, run_of_wf hw, if_neg hv, ccOf, if_pos (by simp [hn, hb])]
  case unprov =>
    intro p n v s hw hv hl hp hu hm
    show execNvmeCcEnable _ v s = _
    rw [execNvmeCcEnable, run_of_wf hw, if_pos hv, ccOf, if_pos (by simp [hl, hp, hu, hm]), hv]
  case sqDoorbell =>
    intro f q v s hw hn hb
    show execNvmeSqDoorbell f q v s = _
    rw [execNvmeSqDoorbell, run_of_wf hw, if_pos (by simp [hn, hb])]
  case cqDoorbell =>
    intro f q v s hw hn hb
    show execNvmeCqDoorbell f q v s = _
    rw [execNvmeCqDoorbell, run_of_wf hw, if_pos (by simp [hn, hb])]
  case fetched =>
    intro f q e lists mdl rs s hw hcan
    have hside := fetchCmd_sqSide e.toNat lists mdl rs hcan
    refine ⟨_, run_of_wf hw _ s, congrArg Prod.fst hside, ?_⟩
    have hq : (fetchCmd f q e.toNat lists mdl rs true s).sqSide.2 = (sqEntryRead f q s).sqSide.2 := by rw [hside]
    rw [sqOf_of_sqSide hq, sqEntryRead_head]
  case notFetched =>
    intro f q e lists mdl rs dma s hw hcan
    show execNvmeCommandFetch f q e lists mdl rs dma s = _
    rw [execNvmeCommandFetch, run_of_wf hw, fetchCmd_of_cannot _ _ _ _ _ hcan]
  case start =>
    intro f q cid dma s c hw hc h2 hh h9
    show execNvmeCommandStart f q ⟨cid, dma⟩ s = _
    rw [execNvmeCommandStart, run_of_wf hw]
    dsimp only
    rw [hc]
    dsimp only
    have hg : (c.fuse = 2 || isHalf c || (c.opc = 9 && !c.ad)) = false := by simpa [h2, hh] using h9
    rw [hg, Bool.false_or]
    cases mayStart s c <;> cases dma <;> rfl
  case starts =>
    intro c s hv ho hp
    unfold startCmd
    rw [hv, hp]
    exact if_pos (by simpa using ho)
  case posting =>
    intro f q cid dma s c hw hc hf hr hi hroom hq
    show execNvmePostingPoint f q ⟨cid, dma⟩ s = _
    rw [execNvmePostingPoint, run_of_wf hw]
    dsimp only
    rw [hc]
    dsimp only
    rw [if_neg (by simp [hf, hr, hi, hroom, hq])]
    cases dma <;> rfl
  case heldSent =>
    intro f q s hw hh
    show execNvmeCoalescingTimeExpire f q s = _
    rw [execNvmeCoalescingTimeExpire, run_of_wf hw]
    exact congrArg _ (if_neg hh)
  case noneHeld =>
    intro f q s hw hh
    show execNvmeCoalescingTimeExpire f q s = _
    rw [execNvmeCoalescingTimeExpire, run_of_wf hw]
    exact congrArg _ (if_pos hh)
  case fetchFault =>
    intro f q e lists mdl rs s hw hcan
    have hsto : ((s.modSq f q ({ · with fenced := true })).composeFault f).sto =
        (s.modSq f q ({ · with fenced := true })).sto := State.record_sto ..
    have hsq : sqOf ((s.modSq f q ({ · with fenced := true })).composeFault f) f q = { sqOf s f q with fenced := true } :=
      (sqOf_of_sqSide (congrArg Prod.snd (sqSide_congr hsto)) f q).trans (sqOf_modSq_self s f q _)
    refine ⟨(s.modSq f q ({ · with fenced := true })).composeFault f, ?_, ?_, ?_, ?_, ?_, ?_⟩
    · show execNvmeCommandFetch f q e lists mdl rs false s = _
      rw [execNvmeCommandFetch, run_of_wf hw, fetchCmd_uncomposed _ _ _ _ hcan]
    · rw [hsq]
    · rw [nvmeFenced_congr hsto, nvmeFenced_modSq]
    · rw [hsq]
    · rw [hsto]
      rfl
    · rw [State.composeFault_nextSeq]
      rfl

end Sys2Proof.Machine
end

section
/-! PROOFS. The host's packets, the ports' choice of a queue, late heads and telemetry samples (R99, R104, R205, R214 to R217). -/

namespace Sys2Proof.Machine

/-! ### The only read that is out (R81, R82) -/

section
variable {s : State} {r : Read} (hreads : s.reads = [r]) {p : Read → Bool}
include hreads

theorem liveRead_only (hlive : r.dead = false) (hp : p r = true) : liveRead s p = true := by
  simp [liveRead, hreads, hlive, hp]

theorem readsOut_only (htag : r.tag.isSome = true) : readsOut s p = true := by
  simp [readsOut, hreads, htag]

theorem asked_only (hlive : r.dead = false) (hp : p r = true) :
    ((s.reads.filter (fun r => p r && !r.dead)).map (·.len)).foldl (· + ·) 0 = r.len := by
  simp [hreads, hlive, hp]

end

/-! ### A packet of one descriptor (R99, R104) -/

theorem packetWhole_of_eop {d : Nat} (heop : txEop d = true) : packetWhole [d] = true := by
  simp [packetWhole, heop]

theorem packetCount_of_eop {d : Nat} (heop : txEop d = true) : packetCount [d] = 1 := by
  simp [packetCount, List.findIdx?_cons, heop]

@[simp] theorem txTotal_singleton (d : Nat) : txTotal [d] = txLen d := by
  simp [txTotal]

/-- The only read that is out brings an ACTIVE ring one whole packet: its descriptor is consumed and the packet sent, its data read unless it
completes FORMAT. -/
theorem hostTx_only {fid ring d : Nat} {data : List Byte} {s : State} {r : Read} (hreads : s.reads = [r]) (hfid : r.fid = fid)
    (hfor : r.purpose = .desc ring) (hlive : r.dead = false) (htag : r.tag.isSome = true) (hlen : 32 ≤ r.len)
    (htype : (ringOf s fid ring).type = 0) (hactive : (ringOf s fid ring).state = 1) (hnone : (ringOf s fid ring).partialDescs = [])
    (heop : txEop d = true)
    (hdata : txBad [d] = true ∨ data.length = txLen d ∧ tagRoom { s with reads := [] } fid = true) :
    hostTx fid ring [d] data true s = txSend fid ring [d] data
      ((if txBad [d] = true then { s with reads := [] } else readData fid [d] { s with reads := [] }).modRing fid ring
        ({ · with ci := add32 (ringOf s fid ring).ci 1 })) := by
  have hmine : (decide (r.fid = fid) && decide (r.purpose = .desc ring)) = true := by simp [hfid, hfor]
  have hgo : ¬ (txBad [d] = false ∧ (data.length ≠ txLen d ∨ tagRoom { s with reads := [] } fid = false)) := by
    rcases hdata with hbad | ⟨hfit, hroom⟩
    · simp [hbad]
    · simp [hfit, hroom]
  simp [hostTx, endReads_only hreads hlive, liveRead_only hreads hlive, readsOut_only hreads htag, asked_only hreads hlive, hmine,
    htype, hactive, hnone, packetWhole_of_eop heop, packetCount_of_eop heop, Nat.not_lt.mpr hlen, hgo]

/-! ### The choice of a queue (R214) -/

/-- A port in service whose chosen head leaves takes it off its queue, and charges it where it was sent. -/
theorem schedule_left {l0 : Nat} {bufs : List Nat} {ok dma : Bool} {s v : State} {c : Cand} {b : Stored} {sent : Bool}
    (hrun : s.phase = .running) (hserves : pipeServes (purgePort l0 s) (pipeOfPort (purgePort l0 s) l0) = true)
    (hchoice : chooseQueue l0 (purgePort l0 s) = some c) (hstored : stored? (purgePort l0 s) c.copy.pkt = some b)
    (hleft : (if l0 < 144 then
        .left (sendOrFence l0 c.queue c.copy b ok dma (purgePort l0 s)).1 (sendOrFence l0 c.queue c.copy b ok dma (purgePort l0 s)).2
      else deliverHost c.queue c.copy b bufs ok dma (purgePort l0 s)) = Delivery.left v sent) :
    schedule l0 bufs ok dma s =
      leaveQueue c.queue c.copy (popHead c.queue (if sent = true then chargeSend l0 c v else v)) := by
  simp [schedule, hrun, hserves, hchoice, hstored, hleft]

theorem sendOrFence_composed (l0 q : Nat) (c : Copy) (b : Stored) (ok : Bool) (s : State) :
    sendOrFence l0 q c b ok true s = sendEth l0 q c b ok s := rfl

/-! ### A frame that an Ethernet port sends (R51, R57) -/

/-- Without MACsec a frame goes to the wire as it is. -/
theorem macsecTx_of_off {port octet : Nat} {s : State} (h : macsecOn s port octet = false) (bs : List Byte) :
    macsecTx port octet bs s = (some bs, s) := by
  simp [macsecTx, h]

@[simp] theorem countMember_out (v : Via) (len : Nat) (s : State) : (countMember v len s).out = s.out := by
  unfold countMember
  dsimp only
  split
  · split <;> simp
  · simp

@[simp] theorem meterOut_out (tenant cls bytes : Nat) (s : State) : (meterOut tenant cls bytes s).out = s.out := by
  simp [meterOut]

/-- A committed mirror copy that asks for no time stamp gives the outside nothing more. -/
theorem copySent_out_of_mirror {c : Copy} {b : Stored} (hmirror : c.mirror = true) (hts : b.tsOut = false)
    (l0 q tenant len : Nat) (s : State) : (copySent l0 q c b tenant len s).out = s.out := by
  unfold copySent
  cases c.via <;> simp [hmirror, hts]

/-- A copy that passes the port's checks goes out unprotected, with the FCS of its bytes. -/
theorem sendEth_good {l0 q : Nat} {c : Copy} {b : Stored} {s : State} {p : EthPort}
    (hpcw : pcwGood b.pkt c b.pkt.tenant (mkDest 1 l0) true = true) (hport : mget? s.ports l0 = some p)
    (hoff : macsecOn s l0 p.octet = false) (hmtu : (wireBytes s l0 c b.pkt).length + 4 ≤ p.mtu) :
    sendEth l0 q c b true s =
      (copySent l0 q c b b.pkt.tenant (wireBytes s l0 c b.pkt).length
        (((s.emit (.ethTx l0 (wireBytes s l0 c b.pkt) (crcOf 1 (wireBytes s l0 c b.pkt)))).bump .portTxFrames l0 0 1).bump
          .portTxBytes l0 0 (wireBytes s l0 c b.pkt).length), true) := by
  simp [sendEth, hport, hpcw, Nat.not_lt.mpr hmtu, macsecTx_of_off hoff]

/-! ### Telemetry (R217) -/

/-- A sample leaves its ring's producer index, consumer index and sequence number past the records in time. -/
theorem sampleRing_telem {ring : Nat} {s : State} {t : QSample} (ht : mget? s.pkt.telem ring = some t) (consumer n : Nat) :
    mget? (sampleRing ring consumer n s).pkt.telem ring = some { t with
      pi := t.pi + (t.queues.take n).length, ci := if tagRoom s t.fid = true then consumer else t.ci
      seq := (t.seq + (t.queues.take n).length) % 2 ^ 32 } := by
  unfold sampleRing
  rw [ht]
  exact mget?_mput_self ..

/-- Settles O26: a read that brings one whole packet passes each of `hostTx`'s checks; a chosen head goes by the port's kind; a mirror copy's
bookkeeping leaves the output; the telemetry record is the last thing a sample writes. -/
theorem hostAndEgress : Obligations.HostAndEgress := by
  unfold Obligations.HostAndEgress
  refine ⟨?packet, ?ethernet, ?composed, ?host, ?frame, ?late, ?sample⟩
  case packet =>
    intro fid ring d data s r hw hreads hfid hfor hlive htag hlen htype hactive hnone _ heop u hdata
    exact (run_of_wf hw _ s).trans
      (congrArg _ (hostTx_only hreads hfid hfor hlive htag hlen htype hactive hnone heop hdata))
  case ethernet =>
    intro l0 bufs ok dma s c b hw hrun hl0 u hserves hchoice hstored
    refine (run_of_wf hw _ s).trans (congrArg _ ?_)
    exact schedule_left hrun hserves hchoice hstored (if_pos hl0)
  case composed => exact sendOrFence_composed
  case host =>
    intro l0 bufs ok dma s c b v sent hw hrun hl0 u hserves hchoice hstored hleft
    refine (run_of_wf hw _ s).trans (congrArg _ ?_)
    exact schedule_left hrun hserves hchoice hstored ((if_neg (Nat.not_lt.mpr hl0)).trans hleft)
  case frame =>
    intro l0 q c b s p hpcw hport hoff hts hmtu hmirror
    rw [sendEth_good hpcw hport hoff hmtu, copySent_out_of_mirror hmirror hts, State.bump_out, State.bump_out]
    rfl
  case late =>
    intro q s c hw hhead hlate
    show execDeadlineHeadCheck q s = _
    rw [execDeadlineHeadCheck, run_of_wf hw]
    simp [hhead, hlate]
  case sample =>
    intro ring consumer n s t hw hrun ht
    refine ⟨sampleRing ring consumer n s, ?_, sampleRing_telem ht consumer n⟩
    show execQueueTelemetrySample ring consumer n s = _
    rw [execQueueTelemetrySample, run_of_wf hw, if_neg (not_not_intro hrun)]

end Sys2Proof.Machine
end

section
/-! PROOFS. Leaping, the turns of Pad-scoped commands that wait, the commands that read the Pads, and the live rule commands (R132, R133,
R198, R221, R223 to R226). -/

namespace Sys2Proof.Machine

/-! ### The Pads of a state whose request has left its queue -/

@[simp] theorem padOf_begun (x : XCall) (s : State) (b : Nat) : padOf (begun x s) b = padOf s b := by simp [padOf]
@[simp] theorem shadowBit_begun (x : XCall) (s : State) : shadowBit (begun x s) = shadowBit s := by simp [shadowBit]
@[simp] theorem leapGen_begun (x : XCall) (s : State) : leapGen (begun x s) = leapGen s := by simp [leapGen]
@[simp] theorem leapPending_begun (x : XCall) (s : State) : leapPending (begun x s) = leapPending s := by simp [leapPending]
@[simp] theorem vacatedCells_begun (x : XCall) (s : State) (b : Nat) : vacatedCells (begun x s) b = vacatedCells s b := by
  simp [vacatedCells]

/-! ### `PAD_LEAP` (R224 to R227) -/

/-- Live commands and Leaps wait for no packets: one that no other command holds up is carried out (R132, R226). -/
theorem padCmd_of_not_shadowOnly {op : PadOp} {s : State} (hop : op.shadowOnly = false) (hheld : padHeld s = false) :
    padCmd op s = padApply op s := by
  simp [padCmd, padTurn, hop, hheld]

theorem leapRefused_iff (force : Bool) (s : State) (expect : Nat) :
    leapRefused force s expect = true ↔
      expect ≠ leapGen s ∨ (s.pkt.leap.shadow = 0 ∧ force = false) ∨ leapPending s = true := by
  simp [leapRefused, or_assoc]

/-- A shadow Pad that has been written may become active at the generation that it is expected at (R224). -/
theorem leapRefused_begun {s : State} {expect : Nat} (hgen : expect = leapGen s) (hshadow : s.pkt.leap.shadow ≠ 0)
    (hleap : leapPending s = false) (force : Bool) (x : XCall) : leapRefused force (begun x s) expect = false := by
  simp [← Bool.not_eq_true, leapRefused_iff, hgen, hshadow, hleap]

section
variable {force : Bool} {s : State} {mode expect time : Nat}

theorem padLeap_of_refused (hmode : mode ≤ 2) (h : leapRefused force s expect = true) :
    padLeap mode expect time force s = (s, failsWith stState (if mode = 2 then s.chain.addr else 0)) := by
  have h4 : ¬ 4 ≤ mode := by omega
  have h3 : mode ≠ 3 := by omega
  simp only [padLeap, h4, h3, h, if_false, if_true]
  by_cases h2 : mode = 2
  · simp only [h2, if_true]
  · simp only [h2, if_false, fails, failsWith]

theorem padLeap_now (h : leapRefused force s expect = false) :
    padLeap 0 expect time force s =
      (leapTrigger (Config.freeNat s.free % 2001) { s with free := s.free + 1 }, okWith [u16 ((leapGen s + 1) % 65536)]) := by
  simp [padLeap, h, State.drawBelow]

theorem padLeap_timed (h : leapRefused force s expect = false) (hsoon : s.time + 10000 ≤ time) (hlate : time ≤ s.time + 3600 * 10 ^ 9) :
    padLeap 1 expect time force s =
      (s.modPkt (fun p => { p with leap := { p.leap with pending := some time, chain := false } }),
        okWith [u16 ((leapGen s + 1) % 65536)]) := by
  have htime : ¬ (time < s.time + 10000 ∨ s.time + 3600000000000 < time) := by omega
  simp [padLeap, h, htime]

theorem padLeap_chain (h : leapRefused force s expect = false) (hsoon : s.time + 1000000 ≤ time) (hlate : time ≤ s.time + 3600 * 10 ^ 9)
    (hchain : s.chain.state = 2) :
    padLeap 2 expect time force s =
      (armChain time (s.modPkt (fun p => { p with leap := { p.leap with pending := some time, chain := true } })), .wait .chainLeap) := by
  have htime : ¬ (time < s.time + 1000000 ∨ s.time + 3600000000000 < time) := by omega
  simp [padLeap, h, htime, hchain]

end

/-! ### The turn of a command that waits (R132, R223) -/

/-- A command that a reset took from its mailbox still holds the Pads (R84, R132). -/
theorem mem_padWaits_of_ghost {s : State} {m : MbxId} {n : Nat} {op : PadOp} (h : (m, Wait.padWrite n op) ∈ s.ghosts) : n ∈ padWaits s := by
  have hstarted : Wait.padWrite n op ∈ started s :=
    List.mem_append_right _ (List.mem_map.mpr ⟨_, h, rfl⟩)
  exact List.mem_filterMap.mpr ⟨_, hstarted, rfl⟩

/-- The command in a mailbox's hands is its oldest, unless one that a reset took from it came before. -/
theorem padWaiting_of_cur {s : State} {m : MbxId} {r : Req} {i : Nat} {op : PadOp} (hcur : (mbxOf s m).cur = some (r, .padWrite i op))
    (hghosts : ∀ n op', (m, Wait.padWrite n op') ∈ s.ghosts → i ≤ n) : padWaiting s m = some (i, op) := by
  simp only [padWaiting, hcur, Option.map_some, Option.toList_some, List.singleton_append, List.filterMap_cons, List.foldl_cons]
  refine List.foldlRecOn (motive := (· = some (i, op))) _ _ rfl ?_
  rintro _ rfl next hmem
  obtain ⟨w, hw, hnext⟩ := List.mem_filterMap.mp hmem
  obtain ⟨⟨m', w'⟩, hg, rfl⟩ := List.mem_map.mp hw
  obtain ⟨hin, hm⟩ := List.mem_filter.mp hg
  obtain rfl : m' = m := by simpa using hm
  cases w' with
  | padWrite n op' =>
    cases hnext
    exact congrArg some (if_neg (Nat.not_lt.mpr (hghosts n op' hin)))
  | _ => cases hnext

theorem padWaiting_of_oldest {s : State} {m : MbxId} {r : Req} {i : Nat} {op : PadOp} (hcur : (mbxOf s m).cur = some (r, .padWrite i op))
    (hfirst : (padWaits s).any (· < i) = false) : padWaiting s m = some (i, op) := by
  refine padWaiting_of_cur hcur fun n op' hg => ?_
  have hle : ∀ k ∈ padWaits s, i ≤ k := by simpa using hfirst
  exact hle n (mem_padWaits_of_ghost hg)

section
variable {m : MbxId} {s : State} {i : Nat} {op : PadOp} {out : Bool} (hmine : padWaiting s m = some (i, op))
include hmine

theorem padResume_of_older (hbefore : (padWaits s).any (· < i) = true) : padResume m out s = s := by
  simp only [padResume, hmine, hbefore, if_true]

variable (hfirst : (padWaits s).any (· < i) = false)
include hfirst

theorem padResume_of_done {t : State} {st d : Nat} {p : List Fld} {hdr unit : Nat}
    (hturn : padTurn op s = some (t, .done st d p hdr unit)) :
    padResume m out s = finishWait (· = .padWrite i op) st d p t := by
  simp [padResume, hmine, hfirst, hturn]

theorem padResume_of_timedOut (hturn : padTurn op s = none) :
    padResume m true s = finishWait (· = .padWrite i op) stBusy 0 [] s := by
  simp [padResume, hmine, hfirst, hturn]

end

/-! ### Live rules (R133) -/

theorem mgetD_putRec_self (m : List (Nat × Nat)) (k v reset : Nat) : mgetD (putRec m k v reset) k reset = v := by
  by_cases h : v = reset <;> simp [putRec, h]

theorem mgetD_putRec_ne (m : List (Nat × Nat)) {k j : Nat} (v reset : Nat) (h : j ≠ k) :
    mgetD (putRec m k v reset) j reset = mgetD m j reset := by
  unfold putRec
  split
  · exact mgetD_mdel_ne m reset h
  · exact mgetD_mput_ne m v reset h

theorem ruleRec_putSlot (p : Pad) (k j slot v : Nat) :
    ruleRec (putSlot 0 k slot v p) j slot = if j = k then v else ruleRec p j slot := by
  split
  · next h => rw [h]; exact mgetD_putRec_self ..
  · next h => exact mgetD_putRec_ne _ _ _ (by omega)

/-- One slot written on the pipelines of a list reads as written on each of them, and as before on the others. -/
theorem ruleRec_foldl_putSlot (l : List Nat) (slot v k : Nat) (p : Pad) :
    ruleRec (l.foldl (fun p k => putSlot 0 k slot v p) p) k slot = if k ∈ l then v else ruleRec p k slot := by
  induction l generalizing p with
  | nil => simp
  | cons a l ih =>
    rw [List.foldl_cons, ih, ruleRec_putSlot]
    by_cases hl : k ∈ l <;> simp [hl]

/-- Both Pads changed alike. -/
theorem padOf_modPad_both (s : State) (f : Pad → Pad) (b : Nat) : padOf ((s.modPad 0 f).modPad 1 f) b = f (padOf s b) := by
  by_cases h : b = 0 <;> simp [padOf, State.modPad, h]

/-- A live write of a rule without a binding, whose slot is free in both Pads. -/
theorem liveWrite_of_free {pipes slot e : Nat} {s : State} (hunbound : bits (ruleWord e 42) 0 8 = 0)
    (hfree : ∀ k ∈ pipesOf pipes, slotUsed s.pkt.padA 0 k slot = false ∧ slotUsed s.pkt.padB 0 k slot = false) :
    liveWrite pipes slot e s =
      let f (p : Pad) : Pad := (pipesOf pipes).foldl (fun p k => putSlot 0 k slot e p) p
      ((s.modPad 0 f).modPad 1 f, ok) := by
  have hnone : (pipesOf pipes).any (fun k => [0, 1].any (fun b => slotUsed (padOf s b) 0 k slot)) = false := by
    simpa [padOf] using hfree
  simp only [liveWrite, hnone, hunbound, decide_true, Bool.true_or, Bool.not_true, Bool.false_eq_true, if_false]

/-- Settles O30: a Leap is refused or carried out as its checks say, a command that waits ends when its turn comes, a read only answers, and
a live write reaches both Pads. -/
theorem padLeapAndReads : Obligations.PadLeapAndReads := by
  unfold Obligations.PadLeapAndReads
  refine ⟨?now, ?timed, ?chain, ?refused, ?trigger, ?resumed, ?busy, ?older, ?state, ?rule, ?live, ?enrol, ?info, ?patch⟩
  case now =>
    intro x r s expect time h hw hgen hshadow hleap hheld
    refine run_replied hw h ((padCmd_of_not_shadowOnly rfl hheld).trans ?_)
    exact (padLeap_now (leapRefused_begun hgen hshadow hleap _ x)).trans (by simp)
  case timed =>
    intro x r s expect time h hw hgen hshadow hleap hheld hsoon hlate
    refine run_replied hw h ((padCmd_of_not_shadowOnly rfl hheld).trans ?_)
    have hready := leapRefused_begun hgen hshadow hleap (bit r.flags 9) x
    exact (padLeap_timed hready (by simpa using hsoon) (by simpa using hlate)).trans (by simp)
  case chain =>
    intro x r s expect time h hw hgen hshadow hleap hheld hsoon hlate hchain
    refine run_held hw h ((padCmd_of_not_shadowOnly rfl hheld).trans ?_)
    have hready := leapRefused_begun hgen hshadow hleap (bit r.flags 9) x
    exact padLeap_chain hready (by simpa using hsoon) (by simpa using hlate) (by simpa using hchain)
  case refused =>
    intro x r s mode expect time h hw hmode hforce hheld hwhy
    refine run_turnedAway hw h ((padCmd_of_not_shadowOnly rfl hheld).trans ?_)
    refine (padLeap_of_refused hmode ?_).trans (by rw [begun_chain])
    simpa [leapRefused_iff, hforce] using hwhy
  case trigger =>
    intro spread s t hw hpending
    show execTimedLeapTrigger spread s = _
    rw [execTimedLeapTrigger, run_of_wf hw]
    simp only [hpending]
  case resumed =>
    intro m r i op s st d p h n t hw hcur hop hfirst hleap hfree happly
    have hturn : padTurn op s = some (t, .done st d p h n) := by simp [padTurn, hleap, hfree, happly]
    exact (run_of_wf hw _ s).trans (congrArg _ (padResume_of_done (padWaiting_of_oldest hcur hfirst) hfirst hturn))
  case busy =>
    intro m r i op s hw hcur hop hfirst hblocked
    have hmine := padWaiting_of_oldest hcur hfirst
    refine (run_of_wf hw _ s).trans (congrArg _ ?_)
    cases hleap : leapPending s with
    | true =>
      have hturn : padTurn op s = some (s, fails stBusy) := by simp [padTurn, hop, hleap]
      exact padResume_of_done hmine hfirst hturn
    | false => exact padResume_of_timedOut hmine hfirst (by simp [padTurn, hop, hleap, hblocked])
  case older =>
    intro m r i op out s hw hcur hghosts hbefore
    have hnone : ∀ w, (m, w) ∉ s.ghosts := fun w hg => by simpa using List.all_eq_true.mp hghosts _ hg
    have hmine := padWaiting_of_cur hcur fun n op' hg => absurd hg (hnone _)
    exact (run_of_wf hw _ s).trans (congrArg _ (padResume_of_older hmine hbefore))
  case state =>
    intro x r s h hw l
    refine run_replied hw h ?_
    simp [reads, l]
  case rule =>
    intro x r s pipe pad slot h hw hpipe hpad hslot hgood
    refine run_replied hw h ?_
    simp [Nat.not_le.mpr hpipe, Nat.not_le.mpr hpad, Nat.not_le.mpr hslot, slotRec, hgood]
  case live =>
    intro x r s pipes slot e h hw hlive hpipes hslot hgood hheld hunbound hfree
    refine ⟨_, run_replied hw h (.trans ?_ ((padCmd_of_not_shadowOnly (op := .liveWrite pipes slot e.toNat) rfl hheld).trans
      (liveWrite_of_free hunbound (by simpa using hfree)))), ?_, ?_⟩
    · simp [slotFault, Nat.not_le.mpr hpipes, Nat.not_le.mpr hslot, isLive, hlive, hgood]
    · intro b k hk
      rw [padOf_modPad_both, ruleRec_foldl_putSlot, if_pos hk]
    · simp [State.modPad]
  case enrol =>
    intro x r s i key h hw hi
    refine run_replied hw h ?_
    simp [Nat.not_le.mpr hi]
  case info =>
    intro x r s pipe pad h hw hpipe hpad
    exact ⟨_, run_replied hw h (congrArg (Prod.mk _) ((if_neg (Nat.not_le.mpr hpipe)).trans (if_neg (Nat.not_le.mpr hpad)))), rfl, rfl⟩
  case patch =>
    intro x r s pipe pad h hw hpipe hpad
    refine run_replied hw h ?_
    simp [reads, Nat.not_le.mpr hpipe, Nat.not_le.mpr hpad]

end Sys2Proof.Machine
end

section
/-! PROOFS. Learning, aging, rehash, groups and spray: their commands, and what their timers do (R147 to R152, R157, R161 to R168). -/

namespace Sys2Proof.Machine

/-! ### What a request that has left its queue leaves as it was -/

@[simp] theorem agingOf_begun (x : XCall) (s : State) (key : Nat) : agingOf (begun x s) key = agingOf s key := by simp [agingOf]
@[simp] theorem grpOf_begun (x : XCall) (s : State) (pad g : Nat) : grpOf (begun x s) pad g = grpOf s pad g := by simp [grpOf]

/-! ### Learning (R147) -/

theorem tblOf_mput_learnQ (s : State) (i : Nat) (l : List LearnEvent) (table pipe : Nat) :
    tblOf (s.modPkt (fun p => { p with learnQ := mput p.learnQ i l })) table pipe = tblOf s table pipe := rfl

/-- A static entry never moves: the service takes the event of its address and does no more (R143, R147). -/
theorem learnService_of_static {s : State} {pipe n : Nat} {e : LearnEvent} {rest : List LearnEvent} (hup : learnServiceUp s = true)
    (hq : mgetD (takeFallback s).pkt.learnQ pipe [] = e :: rest)
    (hfind : (tblOf (takeFallback s) 2 pipe).find l2Kind (l2Key e.mac e.vn) = some n) (hstatic : l2Static n = true) :
    learnService pipe s = (takeFallback s).modPkt (fun p => { p with learnQ := mput p.learnQ pipe rest }) := by
  simp only [learnService, hup, hq, tblOf_mput_learnQ, hfind, hstatic, Bool.not_true, Bool.false_eq_true, if_false, Bool.true_or, if_true]

/-! ### Aging (R150) -/

theorem agingSlice_of_disabled {table pipe : Nat} {s : State} (h : (agingOf s (agingKey table pipe)).ageS = 0) (n : Option Nat) :
    agingSlice table pipe n s = s := by
  simp [agingSlice, h]

/-- Whatever a slice finds and however far it comes, the next slice begins at its own start (R38, R150). -/
theorem agingOf_agingSlice {table pipe : Nat} {s : State} (hage : (agingOf s (agingKey table pipe)).ageS ≠ 0) (hrun : s.phase = .running)
    (n : Option Nat) :
    agingOf (agingSlice table pipe n s) (agingKey table pipe) =
      let a := agingOf s (agingKey table pipe)
      { a with cursor := (a.cursor + a.entries) % (tblKind table).size } := by
  have hon : ¬ ((agingOf s (agingKey table pipe)).ageS = 0 ∨ s.phase ≠ .running) := by simp [hage, hrun]
  simp only [agingSlice, Bool.or_eq_true, decide_eq_true_eq, hon, if_false]
  exact mgetD_mput_self ..

/-! ### Rehash (R157) -/

theorem rehashPass_of_idle {table pipe : Nat} {s : State} (h : (tblOf s table (lookPipe table pipe)).old = none) :
    rehashPass table pipe s = s := by
  simp [rehashPass, h]

/-! ### Groups (R161, R167, R168) -/

@[simp] theorem hwOf_modHw_self (s : State) (g pipe : Nat) (f : GroupHw → GroupHw) : hwOf (s.modHw g pipe f) g pipe = f (hwOf s g pipe) :=
  mgetD_mput_self ..

/-- The next packet of an idle bucket of a flowlet group chooses its member anew (R161). -/
theorem bucketExpire_flowlet {g pipe b : Nat} {s : State} (hmembers : (grpOf s s.pkt.leap.active g).members ≠ [])
    (hmode : grpMode (grpOf s s.pkt.leap.active g).record = 1)
    (hidle : bucketIdle s g pipe b (grpGap (grpOf s s.pkt.leap.active g).record) = true) (hold : (hwOf s g pipe).old = none) :
    bucketExpire g pipe b s = s.modHw g pipe (fun h => { h with cur := mdel h.cur b }) := by
  simp [bucketExpire, hmembers, hmode, hidle, hold]

@[simp] theorem startRotation_mon (g : Nat) (s : State) : (startRotation g s).pkt.mon = s.pkt.mon :=
  foldl_keeps (fun s => s.pkt.mon) _ (by intros; rfl) _ s

/-- A window that ends hands its byte counts on as the last window's and counts anew; its event and the rotation that follows leave the
monitors alone (R167). -/
theorem monitorWindow_mon {g : Nat} {s : State} {m : Monitor} (hm : mget? s.pkt.mon g = some m) (harmed : m.armed = true) :
    ∃ n, (monitorWindow g s).pkt.mon = mput s.pkt.mon g { m with overs := n, last := m.bytes, bytes := [] } := by
  have hon : (!m.armed) = false := by simp [harmed]
  simp only [monitorWindow, hm, hon, Bool.false_eq_true, if_false, apply_ite (fun s : State => s.pkt.mon), startRotation_mon,
    State.event_pkt, State.modPkt_pkt, ite_self]
  exact ⟨_, rfl⟩

/-- What `LB_MONITOR` answers: whether the group's seed is rotating, and the last window's bytes by member (R167, R168). -/
def monitorPayload (s : State) (g : Nat) : List Fld :=
  [u8 (b2n (rotating? s g))] ++ (List.range (grpOf s s.pkt.leap.active g).members.length).map
    (fun i => u64 (mgetD (mgetD s.pkt.mon g {}).last i 0))

/-! ### Spray (R165) -/

theorem sprayTimeout_of_empty {key : Nat} {s : State} (h : oldestHeld (mgetD s.pkt.sprayRx key {}) = none) : sprayTimeout key s = s := by
  simp only [sprayTimeout, h]

/-- A context that holds nothing when its time ends is let go. -/
theorem execSprayContextIdle_of_empty {unit stream : Nat} {s : State} {c : SprayCtx} (hw : wfSprayContextIdle unit stream = true)
    (hc : mget? s.pkt.sprayRx (unit * 65536 + stream) = some c) (hheld : c.held = []) :
    execSprayContextIdle unit stream s =
      .next (s.modPkt (fun p => { p with sprayRx := mdel p.sprayRx (unit * 65536 + stream) })) := by
  simp [execSprayContextIdle, run_of_wf hw, hc, hheld]

/-- Settles O32: each command's body on the state it begins in, and each timer by the lemma that says what it leaves. -/
theorem learningAndGroups : Obligations.LearningAndGroups := by
  unfold Obligations.LearningAndGroups
  refine ⟨?learnConfig, ?agingConfig, ?service, ?static, ?slice, ?disabled, ?rehash, ?idle, ?expire, ?flowlet, ?window, ?monitor, ?reseq,
    ?empty, ?context⟩
  case learnConfig =>
    intro x r s src excess share limit h hw hsrc hexcess hshare hlimit
    refine run_replied hw h ?_
    simp [Nat.not_le.mpr hsrc, Nat.not_le.mpr hexcess, Nat.not_le.mpr hshare, Nat.not_lt.mpr hlimit, ok, okWith]
  case agingConfig =>
    intro x r s ageS us n h hw hage hus hus' hn hn' hpow
    refine run_replied hw h ?_
    simp [Nat.not_lt.mpr hage, Nat.not_lt.mpr hus, Nat.not_lt.mpr hus', Nat.not_lt.mpr hn, Nat.not_lt.mpr hn', hpow, ok, okWith]
  case service => exact fun pipe s hw => run_of_wf hw _ s
  case static => exact fun pipe s e rest hup hq n hfind hstatic => learnService_of_static hup hq hfind hstatic
  case slice =>
    intro pipe n s hw hage hrun
    exact ⟨_, run_of_wf hw _ s, congrArg Aging.cursor (agingOf_agingSlice (table := 3) (pipe := pipe) hage hrun n)⟩
  case disabled =>
    intro pipe n s hw hage
    exact (run_of_wf hw _ s).trans (congrArg _ (agingSlice_of_disabled (table := 3) (pipe := pipe) hage n))
  case rehash => exact fun table pipe s hw => run_of_wf hw _ s
  case idle => exact fun table pipe s hold => rehashPass_of_idle hold
  case expire => exact fun g pipe b s hw => run_of_wf hw _ s
  case flowlet => exact fun g pipe b s hmembers hmode hidle hold => bucketExpire_flowlet hmembers hmode hidle hold
  case window =>
    intro g s m hw hm harmed
    obtain ⟨n, hmon⟩ := monitorWindow_mon hm harmed
    exact ⟨_, _, run_of_wf hw _ s, by rw [hmon, mget?_mput_self], rfl, rfl⟩
  case monitor =>
    intro x r s g ratio windows rotate h hw hg hmembers hmode
    refine ⟨_, monitorPayload s g, run_repliedTo hw h ?_, rfl⟩
    simp [Nat.not_le.mpr hg, hmembers, hmode, monitorPayload, rotating?]
  case reseq => exact fun unit stream s hw => run_of_wf hw _ s
  case empty => exact fun key s hnone => sprayTimeout_of_empty hnone
  case context =>
    intro unit stream s c hw hc hheld
    exact ⟨_, execSprayContextIdle_of_empty hw hc hheld, mget?_mdel_self ..⟩

end Sys2Proof.Machine
end

section
/-! SUPPORT. A thread's instruction in its slot: what it leaves of its thread, of the partition and of the device, and the access to the
context window (R314, R316, R326). -/

namespace Sys2Proof.Machine

/-! ### A thread and a channel, read after a change of it -/

@[simp] theorem threadOf_modThread_self (s : State) (tid : Nat) (f : Thread → Thread) : threadOf (s.modThread tid f) tid = f (threadOf s tid) :=
  mgetD_mput_self ..

@[simp] theorem chanOf_modChan_self (s : State) (ch : Nat) (f : Channel → Channel) : chanOf (s.modChan ch f) ch = f (chanOf s ch) :=
  mgetD_mput_self ..

@[simp] theorem chanRoom_modThread (s : State) (tid : Nat) (f : Thread → Thread) (ch : Nat) :
    chanRoom (s.modThread tid f) ch = chanRoom s ch := rfl

@[simp] theorem partOfThread_modThread (s : State) (tid : Nat) (f : Thread → Thread) (x : Nat) :
    partOfThread (s.modThread tid f) x = partOfThread s x := rfl

@[simp] theorem partOf_modThread (s : State) (tid : Nat) (f : Thread → Thread) (x : Nat) : partOf (s.modThread tid f) x = partOf s x := rfl

@[simp] theorem handleOf_modThread (s : State) (tid : Nat) (f : Thread → Thread) (x h : Nat) :
    handleOf (s.modThread tid f) x h = handleOf s x h := rfl

@[simp] theorem partRd_modThread (s : State) (tid : Nat) (f : Thread → Thread) (p a n : Nat) :
    partRd (s.modThread tid f) p a n = partRd s p a n := rfl

@[simp] theorem bpOn_modThread (s : State) (tid : Nat) (f : Thread → Thread) (o : Nat) : bpOn (s.modThread tid f) o = bpOn s o := rfl

@[simp] theorem ctxRoom_modThread (s : State) (tid : Nat) (f : Thread → Thread) (pipe : Nat) :
    ctxRoom (s.modThread tid f) pipe = ctxRoom s pipe := rfl

@[simp] theorem admits_modThread (s : State) (tid : Nat) (f : Thread → Thread) (o n : Nat) :
    admits (s.modThread tid f) o n = admits s o n := rfl

@[simp] theorem ckvOf_modThread (s : State) (tid : Nat) (f : Thread → Thread) (i : Nat) : ckvOf (s.modThread tid f) i = ckvOf s i := rfl

/-! ### The instruction in its slot -/

/-- A command whose thread issues leaves what the instruction leaves, and the slot is used. -/
theorem run_act {wf : Bool} {tid : Nat} {f : State → State} {s t : State} (hw : wf = true) (hrun : canRun s tid = true) (hf : f s = t) :
    run wf (act tid f) s = .next (issued tid s t) := by
  rw [run_of_wf hw, act, if_pos hrun, hf]

/-- A store that can wait is executed at once where its thread issues. -/
theorem run_actWin {wf : Bool} {tid : Nat} {f : State → State} {s t : State} (hw : wf = true) (hrun : canRun s tid = true) (hf : f s = t) :
    run wf (actWin tid f) s = .next (issued tid s t) := by
  rw [run_of_wf hw]
  simp only [actWin, hrun, if_true, hf]

/-- The end of an instruction touches of its thread only the state, the retired count and the marks of a trap and of a single step. -/
theorem threadOf_settle_view {α : Type} (g : Thread → α)
    (hg : ∀ t state instret trapped stepping, g { t with state, instret, trapped, stepping } = g t) (tid : Nat) (s : State) :
    g (threadOf (settle tid s) tid) = g (threadOf s tid) := by
  have htrap (t : Thread) : g { t with trapped := false } = g t := hg t t.state t.instret false t.stepping
  have hcount (t : Thread) (n : Nat) : g { t with instret := n } = g t := hg t t.state n t.trapped t.stepping
  have hstep (t : Thread) : g { t with state := 4, stepping := false } = g t := hg t 4 t.instret t.trapped false
  simp only [settle, apply_ite (fun s => g (threadOf s tid)), threadOf_modThread_self, htrap, hcount, hstep, ite_self]

/-- So a field apart from these is, after the slot, what the instruction left in it. -/
theorem threadOf_issued_view {α : Type} (g : Thread → α)
    (hg : ∀ t state instret trapped stepping, g { t with state, instret, trapped, stepping } = g t) (tid : Nat) (s t : State) :
    g (threadOf (issued tid s t) tid) = g (threadOf t tid) :=
  threadOf_settle_view g hg tid _

@[simp] theorem held_issued (tid : Nat) (s t : State) : (threadOf (issued tid s t) tid).held = (threadOf t tid).held :=
  threadOf_issued_view Thread.held (fun _ _ _ _ _ => rfl) tid s t

@[simp] theorem ckvStatus_issued (tid : Nat) (s t : State) : (threadOf (issued tid s t) tid).ckvStatus = (threadOf t tid).ckvStatus :=
  threadOf_issued_view Thread.ckvStatus (fun _ _ _ _ _ => rfl) tid s t

@[simp] theorem ckvData_issued (tid : Nat) (s t : State) : (threadOf (issued tid s t) tid).ckvData = (threadOf t tid).ckvData :=
  threadOf_issued_view Thread.ckvData (fun _ _ _ _ _ => rfl) tid s t

@[simp] theorem settle_cip (tid : Nat) (s : State) : (settle tid s).cip = s.cip := by
  simp only [settle, apply_ite State.cip, State.modThread_cip, ite_self]

@[simp] theorem ckvOf_issued (tid : Nat) (s t : State) (i : Nat) : ckvOf (issued tid s t) i = ckvOf t i :=
  congrArg (fun c : CipherState => mgetD c.ckv i 0) (settle_cip tid _)

/-! ### The access to the context window -/

/-- A vendor partition's thread may store to the context window. -/
theorem mapAllows_contextWindow {s : State} {tid : Nat} (hvendor : (partOf s tid).vendor = true) :
    mapAllows s tid contextWindow 4 .store = true := by
  simp [mapAllows, contextWindow, hvendor]

/-- No other thread may: the window lies below the regions and beside the other windows (R314). -/
theorem not_mapAllows_contextWindow {s : State} {tid : Nat} (hvendor : (partOf s tid).vendor = false) :
    mapAllows s tid contextWindow 4 .store = false := by
  simp [mapAllows, Part.inRegion, contextWindow, chanTable, cipherWindow, packetWindow, hvendor]

/-- A vendor thread's store to the context window names the context, and carries out its operation (R326). -/
theorem run_ctxAct {wf : Bool} {tid i : Nat} {f : State → State} {s t : State} (hw : wf = true) (hrun : canRun s tid = true)
    (hvendor : (partOf s tid).vendor = true) (hf : f (s.modThread tid ({ · with ckvIndex := i })) = t) :
    run wf (ctxAct tid i f) s = .next (issued tid s t) := by
  refine run_actWin hw hrun ?_
  rw [mapped, if_pos (mapAllows_contextWindow hvendor), hf]

/-- Another partition's store to the context window is an access fault. -/
theorem run_ctxAct_fault {wf : Bool} {tid i : Nat} {f : State → State} {s : State} (hw : wf = true) (hrun : canRun s tid = true)
    (hvendor : (partOf s tid).vendor = false) :
    run wf (ctxAct tid i f) s = .next (issued tid s (xexception tid 7 contextWindow s)) := by
  refine run_actWin hw hrun ?_
  rw [mapped, not_mapAllows_contextWindow hvendor]
  rfl

end Sys2Proof.Machine
end

section
/-! PROOFS. The packet window, the context window and the channels' timers (R173, R289, R296, R323 to R326). -/

namespace Sys2Proof.Machine

/-! ### Injection (R173, R206, R325) -/

/-- A packet that nothing holds back and that buffer admission takes enters its pipeline. -/
theorem injectTry_of_admitted {tid tenant pipe port : Nat} {bs : List Byte} {ts : Option Nat} {s : State} (hpipe : pipe < 9)
    (hport : port < 176) (hbp : bpOn s (ownerKey 5 0) = false) (hroom : ctxRoom s pipe = true)
    (hadmits : admits s (ownerKey 5 0) (cellsOf bs.length) = true) :
    injectTry tid tenant pipe port bs ts s = (winStatus tid 0 (injectPkt (partOfThread s tid) tenant pipe port bs ts s), true) := by
  simp [injectTry, Nat.not_le.mpr hpipe, Nat.not_le.mpr hport, hbp, hroom, hadmits]

/-! ### Contexts held (R289, R326) -/

/-- From its lowest bit up, a word in which a field is set has the field's new value in place of its old one. -/
theorem setBits_div_two_pow (n lo w v : Nat) : setBits n lo w v / 2 ^ lo = n / 2 ^ lo - bits n lo w + v % 2 ^ w := by
  rw [setBits, Nat.add_mul_div_right _ _ (Nat.two_pow_pos lo), Nat.mul_comm (bits n lo w), Nat.sub_mul_div]

/-- A bit that is set to 1 reads 1. -/
@[simp] theorem bit_setBits_one (n lo : Nat) : bit (setBits n lo 1 1) lo = true := by
  simp only [bit, setBits_div_two_pow, bits, Nat.pow_one, beq_iff_eq]
  omega

/-- A context that is frozen reads FROZEN (R289). -/
theorem ckvFrozen_ctxFreeze (i : Nat) (s : State) : ckvFrozen (ckvOf (ctxFreeze i true s) i) = true := by
  have hbit : ckvOf (ctxFreeze i true s) i = setBits (ckvOf s i) 4 1 1 :=
    mgetD_mupd_self s.cip.ckv i 0 (fun x => setBits x 4 1 (b2n true))
  rw [hbit, ckvFrozen, bit_setBits_one]

@[simp] theorem threadOf_ctxFreeze (i : Nat) (on : Bool) (s : State) (tid : Nat) : threadOf (ctxFreeze i on s) tid = threadOf s tid := rfl

@[simp] theorem threadOf_ctxRelease (i : Nat) (s : State) (tid : Nat) : threadOf (ctxRelease i s) tid = threadOf s tid := by
  simp only [ctxRelease, apply_ite (threadOf · tid), threadOf_ctxFreeze, ite_self]

@[simp] theorem ckvOf_ctxStatus (tid st : Nat) (s : State) (i : Nat) : ckvOf (ctxStatus tid st s) i = ckvOf s i := rfl

@[simp] theorem ckvOf_setCkv_self (s : State) (i x : Nat) : ckvOf (s.setCkv i x) i = x := mgetD_mput_self ..

/-- The stream's place that a write drops is no part of its context. -/
@[simp] theorem ckvOf_modCip_ckvPart (s : State) (f : CipherState → List (Nat × List Byte)) (i : Nat) :
    ckvOf (s.modCip (fun c => { c with ckvPart := f c })) i = ckvOf s i := rfl

/-- What a write makes of a context follows from the value written and what the context was (R286, R288). -/
theorem ckvOf_ckvWrite_congr {s t : State} {i : Nat} (h : ckvOf s i = ckvOf t i) (v : Nat) :
    ckvOf (ckvWrite i v s) i = ckvOf (ckvWrite i v t) i := by
  simp only [ckvWrite, apply_ite (ckvOf · i), ckvOf_modCip_ckvPart, ckvOf_setCkv_self, h]

/-- No thread holds a context that none held before a change of one thread that leaves it unheld. -/
theorem not_ctxHeld_modThread {s : State} {tid i : Nat} {f : Thread → Thread} (hall : ∀ e ∈ s.skk.threads, i ∉ e.2.held)
    (hself : i ∉ (f (threadOf s tid)).held) : ctxHeld (s.modThread tid f) i = false := by
  simp only [ctxHeld, List.any_eq_false, List.contains_iff_mem]
  intro e he
  rcases mem_mput he with rfl | hold
  · exact hself
  · exact hall e hold

/-! ### A period channel's tick (R323) -/

/-- An armed period channel that holds no tick and has room gets the next one. -/
theorem execSkinkPeriodTick_of_fresh {ch : Nat} {s : State} (hw : wfSkinkPeriodTick ch = true) (hkind : (chanOf s ch).kind = 2)
    (harmed : (chanOf s ch).armed = true) (hlow : 1000 ≤ (chanOf s ch).period) (hhigh : (chanOf s ch).period ≤ 1000000000)
    (hruns : chanRuns s ch = true) (hnone : ∀ m ∈ (chanOf s ch).msgs, m.kind ≠ 4) (hroom : chanRoom s ch = true) :
    execSkinkPeriodTick ch s = .next (chPush ch { words := [(chanOf s ch).ticks + 1, s.time], kind := 4 }
      (s.modChan ch ({ · with ticks := (chanOf s ch).ticks + 1 }))) := by
  have hroom' : chanRoom (s.modChan ch ({ · with ticks := (chanOf s ch).ticks + 1 })) ch = true := by
    simpa [chanRoom] using hroom
  refine (run_of_wf hw _ s).trans (congrArg _ ((if_neg ?_).trans (if_neg ?_)))
  · simp [hkind, harmed, Nat.not_lt.mpr hlow, Nat.not_lt.mpr hhigh, hruns]
  · simpa [hroom'] using hnone

/-- A channel that is not armed does not tick. -/
theorem execSkinkPeriodTick_of_unarmed {ch : Nat} {s : State} (hw : wfSkinkPeriodTick ch = true) (harmed : (chanOf s ch).armed = false) :
    execSkinkPeriodTick ch s = .next s := by
  simp [execSkinkPeriodTick, run_of_wf hw, harmed]

/-- Settles O46: each instruction's thread issues, and what it leaves is what its window's operation leaves of the state that its store
wrote; the context window's are reached by vendor threads alone. -/
theorem threadWindows : Obligations.ThreadWindows := by
  unfold Obligations.ThreadWindows
  refine ⟨?cipher, ?copyOut, ?copyMeta, ?free, ?freeNone, ?injectHandle, ?injectBuffer, ?hold, ?release, ?read, ?write, ?fault, ?timer, ?tick,
    ?unarmed⟩
  case cipher =>
    intro tid b s hw hrun
    dsimp only
    intro howns hroom
    exact run_actWin hw hrun (by simp [howns, hroom])
  case copyOut =>
    intro tid h a n o s x hw hrun hx hn hn' ho hregion
    exact run_act hw hrun (by simp [hx, Nat.ne_of_gt hn, Nat.not_lt.mpr hn', Nat.not_lt.mpr ho, hregion])
  case copyMeta =>
    intro tid h a s x hw hrun hx hregion
    exact run_act hw hrun (by simp [hx, hregion])
  case free =>
    intro tid h s x hw hrun hx
    exact run_act hw hrun (by simp [hx])
  case freeNone =>
    intro tid h s hw hrun hx
    exact run_act hw hrun (by simp [hx])
  case injectHandle =>
    intro tid h pipe port s x hw hrun hx hpipe hport hbp hroom hadmits
    refine run_actWin hw hrun ?_
    simp [hx, injectTry_of_admitted, hpipe, hport, hbp, hroom, hadmits] <;> rfl
  case injectBuffer =>
    intro tid a n pipe port s hw hrun hn hn' hregion
    exact run_actWin hw hrun (by simp [Nat.ne_of_gt hn, Nat.not_lt.mpr hn', hregion])
  case hold =>
    intro tid i s hw hrun hvendor hi hnew hroom hall _
    have hfree : ctxHeld (s.modThread tid ({ · with ckvIndex := i })) i = false := not_ctxHeld_modThread hall hnew
    refine ⟨_, run_ctxAct hw hrun hvendor ((if_neg ?index).trans ((if_neg ?mine).trans ((if_neg ?room).trans (if_neg ?free)))), ?_, ?_, ?_⟩
    case index => simp [ckvIndexOk, hi]
    case mine => simp [hnew]
    case room => simp [hroom]
    case free => simp [hfree]
    · simp [ctxStatus]
    · simp [ctxStatus]
    · simp [ckvFrozen_ctxFreeze]
  case release =>
    intro tid i s hw hrun hvendor hheld _
    refine ⟨_, run_ctxAct hw hrun hvendor (if_pos (by simpa using hheld)), ?_, ?_⟩
    · simp [ctxStatus]
    · simp [ctxStatus]
  case read =>
    intro tid i s hw hrun hvendor hi _
    refine ⟨_, run_ctxAct hw hrun hvendor (if_pos (by simpa [ckvIndexOk] using hi)), ?_, ?_⟩
    · simp [ctxStatus]
    · simp [ctxStatus]
  case write =>
    intro tid i d s hw hrun hvendor hheld halg hstage htenant hfrozen
    refine ⟨_, run_ctxAct hw hrun hvendor (if_pos ?_), ?_⟩
    · simp [hheld, halg, hstage, ckvWriteBad, htenant, hfrozen]
    · rw [ckvOf_issued, ckvOf_ctxStatus]
      exact ckvOf_ckvWrite_congr (by simp) d.toNat
  case fault => exact fun tid i s hw hrun hvendor => run_ctxAct_fault hw hrun hvendor
  case timer => exact fun ch s hw => run_of_wf hw _ s
  case tick =>
    exact fun ch s hw hkind harmed hlow hhigh hruns hnone hroom => execSkinkPeriodTick_of_fresh hw hkind harmed hlow hhigh hruns hnone hroom
  case unarmed => exact fun ch s hw harmed => execSkinkPeriodTick_of_unarmed hw harmed

end Sys2Proof.Machine
end

section
/-! PROOFS. Pools, reserves, telemetry rings and queue counters: each command's checks passed in their order (R200 to R202, R217, R219). -/

namespace Sys2Proof.Machine

/-! ### A pool record without its reserved bits (R200) -/

/-- Clearing a reserved field keeps every field below it (R5). -/
theorem bits_clearBits_below (n : Nat) {lo i k : Nat} (w : Nat) (h : i + k ≤ lo) : bits (clearBits n [(lo, w)]) i k = bits n i k := by
  rw [clearBits, List.foldl_cons, List.foldl_nil, bits_setBits_below n w 0 h]

/-- The reserved bits of a pool record do not bear on its TYPE. -/
theorem poolType_clearBits (rec : Nat) : poolType (clearBits rec [(36, 28)]) = poolType rec :=
  bits_clearBits_below rec 28 (by decide)

/-- The reserved bits of a pool record do not bear on the ranges of its fields. -/
theorem poolOk_clearBits (rec : Nat) : poolOk (clearBits rec [(36, 28)]) = poolOk rec := by
  have hsize : poolSize (clearBits rec [(36, 28)]) = poolSize rec := bits_clearBits_below rec 28 (by decide)
  have hwarn1 : poolWarn1 (clearBits rec [(36, 28)]) = poolWarn1 rec := bits_clearBits_below rec 28 (by decide)
  have hwarn2 : poolWarn2 (clearBits rec [(36, 28)]) = poolWarn2 rec := bits_clearBits_below rec 28 (by decide)
  rw [poolOk, poolOk, hsize, hwarn1, hwarn2]

/-! ### What a command that begins reads of the queues -/

@[simp] theorem ownerOf_begun (x : XCall) (s : State) (o : Nat) : ownerOf (begun x s) o = ownerOf s o := by
  simp [ownerOf]

@[simp] theorem headDelay_begun (x : XCall) (s : State) (q : Nat) : headDelay (begun x s) q = headDelay s q := by
  simp [headDelay]

@[simp] theorem queueCounters_begun (x : XCall) (s : State) (q : Nat) : queueCounters (begun x s) q = queueCounters s q := by
  simp [queueCounters]

/-- No queue of a list is past the last one. -/
theorem findIdx?_queue_eq_none {qs : List Nat} (h : ∀ q ∈ qs, q < 131072) : qs.findIdx? (131072 ≤ ·) = none := by
  simpa [List.findIdx?_eq_none_iff] using h

/-- An answer without a payload. -/
@[simp] theorem okWith_nil : okWith [] = ok := rfl

/-- Settles O33: each command's operands pass its checks, its figures fit, and the frame answers what the write answers. -/
theorem bufferCommands : Obligations.BufferCommands := by
  unfold Obligations.BufferCommands
  refine ⟨?pool, ?reserve, ?sample, ?stats⟩
  case pool =>
    intro x r s pool rec h hw hpool hok htype t hfit
    refine run_replied hw h ?_
    simp [Nat.not_le.mpr hpool, poolOk_clearBits, hok, poolType_clearBits, htype, hfit, t]
  case reserve =>
    intro x r s pool lossless id min headroom h hw hpool htype hlossless hid hmin hheadroom t hfit
    refine run_replied hw h ?_
    simp [Nat.not_le.mpr hpool, htype, b2n, Nat.not_le.mpr hlossless, ownerFound, hid, Nat.not_lt.mpr hmin, Nat.not_lt.mpr hheadroom,
      hfit, t]
  case sample =>
    intro x r s ring log2 iv count ra ia qs h hw hring hcount hcount' hlog hlog' hiv hiv' hqs hrole m hload
    refine run_replied hw h ?_
    have hnonzero : count ≠ 0 := by omega
    have hinterval : iv ≠ 0 := by omega
    simp [hrole, Nat.not_le.mpr hring, hnonzero, Nat.not_lt.mpr hlog, Nat.not_lt.mpr hlog', hinterval, Nat.not_lt.mpr hiv',
      Nat.not_lt.mpr hcount', findIdx?_queue_eq_none hqs, Nat.not_lt.mpr hload, m]
  case stats =>
    intro x r s q h hw hq hrole depth
    refine run_replied hw h ?_
    simp [hrole, Nat.not_le.mpr hq, depth]

end Sys2Proof.Machine
end

section
/-! PROOFS. The check values by their definition: a reflected register is the mirror image of a plain one, and a byte XORed in before eight
steps is the same as its bits taken one by one (R279, R282). -/

namespace Sys2Proof.Machine

/-! ### The mirror image of a register -/

theorem revBits_succ (w v : Nat) : revBits (w + 1) v = 2 * revBits w v + v / 2 ^ w % 2 := by
  simp [revBits, List.range_succ]

theorem testBit_revBits (w v i : Nat) : (revBits w v).testBit i = (decide (i < w) && v.testBit (w - 1 - i)) := by
  induction w generalizing i with
  | zero => simp [revBits]
  | succ w ih =>
    rw [revBits_succ]
    cases i with
    | zero => simp [Nat.testBit_eq_decide_div_mod_eq]
    | succ i =>
      have hhalf : (2 * revBits w v + v / 2 ^ w % 2) / 2 = revBits w v := by omega
      rw [Nat.testBit_succ, hhalf, ih, show w + 1 - 1 - (i + 1) = w - 1 - i by omega]
      simp

theorem revBits_revBits {w v : Nat} (h : v < 2 ^ w) : revBits w (revBits w v) = v := by
  refine Nat.eq_of_testBit_eq fun i => ?_
  rw [testBit_revBits, testBit_revBits]
  by_cases hi : i < w
  · simp [hi, show w - 1 - i < w by omega, show w - 1 - (w - 1 - i) = i by omega]
  · simp [hi, Nat.testBit_lt_two_pow (h.trans_le (Nat.pow_le_pow_right (by decide) (Nat.le_of_not_lt hi)))]

theorem revBits_xor (w a b : Nat) : revBits w (a ^^^ b) = revBits w a ^^^ revBits w b := by
  refine Nat.eq_of_testBit_eq fun i => ?_
  simp only [Nat.testBit_xor, testBit_revBits]
  cases decide (i < w) <;> simp

/-- A step down of the register is a step up of its mirror image. -/
theorem revBits_half (w v : Nat) (h : v < 2 ^ w) : revBits w (v / 2) = revBits w v * 2 % 2 ^ w := by
  refine Nat.eq_of_testBit_eq fun i => ?_
  rw [testBit_revBits, Nat.testBit_mod_two_pow, Nat.testBit_div_two, Nat.mul_comm]
  cases i with
  | zero => 
    by_cases hw : 0 < w
    · simp [hw, show w - 1 + 1 = w by omega, Nat.testBit_lt_two_pow h]
    · simp [hw]
  | succ i =>
    have hdouble : (2 * revBits w v).testBit (i + 1) = (revBits w v).testBit i := by
      rw [Nat.testBit_succ, Nat.mul_div_cancel_left _ (by decide)]
    rw [hdouble, testBit_revBits]
    by_cases hi : i + 1 < w
    · simp [hi, show i < w by omega, show w - 1 - (i + 1) + 1 = w - 1 - i by omega]
    · simp [hi]

theorem revBits_top {w : Nat} (hw : 0 < w) (v : Nat) : revBits w v / 2 ^ (w - 1) % 2 = v % 2 := by
  have h := testBit_revBits w v (w - 1)
  simp only [show w - 1 < w by omega, decide_true, Bool.true_and, Nat.sub_self, Nat.testBit_eq_decide_div_mod_eq, Nat.pow_zero,
    Nat.div_one, decide_eq_decide] at h
  have := Nat.mod_two_eq_zero_or_one (revBits w v / 2 ^ (w - 1))
  have := Nat.mod_two_eq_zero_or_one v
  omega

/-! ### A reflected register, bit by bit -/

/-- A reflected register takes message bits least significant first. -/
def crcMirror (poly : Nat) : Nat → List Bool → Nat
  | reg, [] => reg
  | reg, b :: l => crcMirror poly (if decide (reg % 2 = 1) = b then reg / 2 else reg / 2 ^^^ poly) l

theorem crcMirror_append (poly : Nat) (l l' : List Bool) (reg : Nat) :
    crcMirror poly reg (l ++ l') = crcMirror poly (crcMirror poly reg l) l' := by
  induction l generalizing reg with
  | nil => rfl
  | cons b l ih => exact ih _

theorem crcMirror_lt {w poly : Nat} (hp : poly < 2 ^ w) (l : List Bool) {reg : Nat} (h : reg < 2 ^ w) : crcMirror poly reg l < 2 ^ w := by
  induction l generalizing reg with
  | nil => exact h
  | cons b l ih =>
    have hhalf : reg / 2 < 2 ^ w := (Nat.div_le_self ..).trans_lt h
    refine ih ?_
    split
    · exact hhalf
    · exact Nat.xor_lt_two_pow hhalf hp

/-- The plain register runs as the mirror image of the reflected one. -/
theorem crcPlain_revBits {w poly : Nat} (hw : 0 < w) (hp : poly < 2 ^ w) (l : List Bool) {reg : Nat} (h : reg < 2 ^ w) :
    crcPlain w (revBits w poly) (revBits w reg) l = revBits w (crcMirror poly reg l) := by
  induction l generalizing reg with
  | nil => rfl
  | cons b l ih =>
    have hhalf : reg / 2 < 2 ^ w := (Nat.div_le_self ..).trans_lt h
    simp only [crcPlain, crcMirror, revBits_top hw, ← revBits_half w reg h]
    split
    · exact ih hhalf
    · rw [← revBits_xor]
      exact ih (Nat.xor_lt_two_pow hhalf hp)

/-- The low `k` bits of a number, least significant first. -/
def lowBits (k n : Nat) : List Bool := (List.range k).map (bit n)

theorem lowBits_succ (k n : Nat) : lowBits (k + 1) n = bit n 0 :: lowBits k (n / 2) := by
  simp only [lowBits, List.range_succ_eq_map, List.map_cons, List.map_map, List.cons.injEq, true_and]
  refine List.map_congr_left fun i _ => ?_
  simp [bit, Nat.pow_succ', Nat.div_div_eq_div_mul]

/-- Bits XORed in ahead of as many steps count as bits taken one at each step. -/
theorem foldl_crcReflBit_xor (poly k n reg : Nat) (h : n < 2 ^ k) :
    (List.range k).foldl (fun r _ => crcReflBit poly r) (reg ^^^ n) = crcMirror poly reg (lowBits k n) := by
  induction k generalizing n reg with
  | zero =>
    obtain rfl : n = 0 := by simpa using h
    simp [lowBits, crcMirror]
  | succ k ih =>
    have hstep : crcReflBit poly (reg ^^^ n) = (if decide (reg % 2 = 1) = bit n 0 then reg / 2 else reg / 2 ^^^ poly) ^^^ n / 2 := by
      have hhalf : (reg ^^^ n) / 2 = reg / 2 ^^^ n / 2 := Nat.xor_div_two
      have hlow : (reg ^^^ n) % 2 = 1 ↔ ¬ (decide (reg % 2 = 1) = bit n 0) := by
        have hbit : bit n 0 = decide (n % 2 = 1) := by simp [bit, beq_eq_decide]
        rw [hbit, decide_eq_decide, Nat.xor_mod_two_eq]
        omega
      by_cases hb : decide (reg % 2 = 1) = bit n 0
      · rw [crcReflBit, if_neg (fun h1 => hlow.mp h1 hb), if_pos hb, hhalf]
      · rw [crcReflBit, if_pos (hlow.mpr hb), if_neg hb, hhalf, Nat.xor_right_comm]
    rw [List.range_succ_eq_map, List.foldl_cons, List.foldl_map, hstep, ih _ _ (by omega), lowBits_succ]
    rfl

theorem crcRefl_eq (poly reg : Nat) (bs : List Byte) : crcRefl poly reg bs = crcMirror poly reg (bitsRef bs) := by
  induction bs generalizing reg with
  | nil => rfl
  | cons b bs ih =>
    have hbyte : crcReflByte poly reg b = crcMirror poly reg (lowBits 8 b.toNat) := foldl_crcReflBit_xor poly 8 b.toNat reg b.isLt
    rw [show bitsRef (b :: bs) = lowBits 8 b.toNat ++ bitsRef bs from rfl, crcMirror_append, ← hbyte]
    exact ih _

/-- A run over bytes is the mirror image of the plain run over their bits. -/
theorem crcRefl_eq_revBits {w poly reg : Nat} (hw : 0 < w) (hp : poly < 2 ^ w) (h : reg < 2 ^ w) (bs : List Byte) :
    crcRefl poly reg bs = revBits w (crcPlain w (revBits w poly) (revBits w reg) (bitsRef bs)) := by
  rw [crcPlain_revBits hw hp _ h, revBits_revBits (crcMirror_lt hp _ h), crcRefl_eq]

/-! ### An unreflected register of 16 bits, bit by bit -/

/-- A step of the unreflected register of R279's code 2. -/
def crcFwdBit (poly r : Nat) : Nat := if r / 2 ^ 15 % 2 = 1 then (r * 2 % 2 ^ 16) ^^^ poly else r * 2 % 2 ^ 16

/-- The low `k` bits of a number, most significant first. -/
def highBits (k n : Nat) : List Bool := (List.range k).map (fun i => bit n (k - 1 - i))

theorem highBits_succ (k n : Nat) : highBits (k + 1) n = bit n k :: highBits k (n % 2 ^ k) := by
  simp only [highBits, List.range_succ_eq_map, List.map_cons, List.map_map]
  congr 1
  refine List.map_congr_left fun i hi => ?_
  have hk : i < k := List.mem_range.mp hi
  have hlow : (n % 2 ^ k).testBit (k - 1 - i) = n.testBit (k - 1 - i) := by
    rw [Nat.testBit_mod_two_pow]
    simp [show k - 1 - i < k by omega]
  simpa [Nat.testBit_eq_decide_div_mod_eq, bit, beq_eq_decide, show k - (i + 1) = k - 1 - i by omega] using hlow.symm

theorem bitsPlain_cons (b : Byte) (bs : List Byte) : bitsPlain (b :: bs) = highBits 8 b.toNat ++ bitsPlain bs := rfl

theorem crcPlain_append (w poly : Nat) (l l' : List Bool) (reg : Nat) :
    crcPlain w poly reg (l ++ l') = crcPlain w poly (crcPlain w poly reg l) l' := by
  induction l generalizing reg with
  | nil => rfl
  | cons b l ih => exact ih _

/-- Bits XORed into the top of the register ahead of as many steps count as bits taken one at each step. -/
theorem foldl_crcFwdBit_xor (poly k n reg : Nat) (hk : k ≤ 16) (h : n < 2 ^ k) :
    (List.range k).foldl (fun r _ => crcFwdBit poly r) (reg ^^^ n * 2 ^ (16 - k)) = crcPlain 16 poly reg (highBits k n) := by
  induction k generalizing n reg with
  | zero =>
    obtain rfl : n = 0 := by simpa using h
    simp [highBits, crcPlain]
  | succ k ih =>
    have htop : (reg ^^^ n * 2 ^ (16 - (k + 1))) / 2 ^ 15 % 2 = 1 ↔ ¬ (decide (reg / 2 ^ 15 % 2 = 1) = bit n k) := by
      have hn : (n * 2 ^ (16 - (k + 1))).testBit 15 = n.testBit k := by
        rw [Nat.testBit_mul_two_pow, show 15 - (16 - (k + 1)) = k by omega]
        simp
      have hx := Nat.testBit_xor reg (n * 2 ^ (16 - (k + 1))) 15
      rw [hn] at hx
      simp only [Nat.testBit_eq_decide_div_mod_eq] at hx
      rw [← decide_eq_true_iff (p := _ % 2 = 1), hx, bit, beq_eq_decide]
      cases decide (reg / 2 ^ 15 % 2 = 1) <;> cases decide (n / 2 ^ k % 2 = 1) <;> decide
    have hup : (reg ^^^ n * 2 ^ (16 - (k + 1))) * 2 % 2 ^ 16 = reg * 2 % 2 ^ 16 ^^^ n % 2 ^ k * 2 ^ (16 - k) := by
      have hn : n * 2 ^ (16 - (k + 1)) * 2 % 2 ^ 16 = n % 2 ^ k * 2 ^ (16 - k) := by
        rw [Nat.mul_assoc, ← Nat.pow_succ, show (16 - (k + 1)).succ = 16 - k by omega]
        conv_lhs => rw [show 2 ^ 16 = 2 ^ k * 2 ^ (16 - k) by rw [← Nat.pow_add]; congr 1; omega]
        rw [Nat.mul_mod_mul_right]
      rw [← hn, ← Nat.xor_mod_two_pow]
      exact congrArg (· % 2 ^ 16) (by simpa [Nat.shiftLeft_eq] using Nat.shiftLeft_xor_distrib (i := 1) (a := reg))
    have hstep : crcFwdBit poly (reg ^^^ n * 2 ^ (16 - (k + 1))) =
        (if decide (reg / 2 ^ 15 % 2 = 1) = bit n k then reg * 2 % 2 ^ 16 else reg * 2 % 2 ^ 16 ^^^ poly) ^^^ n % 2 ^ k * 2 ^ (16 - k) := by
      by_cases hb : decide (reg / 2 ^ 15 % 2 = 1) = bit n k
      · rw [crcFwdBit, if_neg (fun h1 => htop.mp h1 hb), if_pos hb, hup]
      · rw [crcFwdBit, if_pos (htop.mpr hb), if_neg hb, hup, Nat.xor_right_comm]
    rw [List.range_succ_eq_map, List.foldl_cons, List.foldl_map, hstep, ih _ _ (by omega) (Nat.mod_lt _ (Nat.two_pow_pos k)), highBits_succ]
    rfl

theorem crcFwd16_eq (poly reg : Nat) (bs : List Byte) : crcFwd16 poly reg bs = crcPlain 16 poly reg (bitsPlain bs) := by
  induction bs generalizing reg with
  | nil => rfl
  | cons b bs ih =>
    rw [bitsPlain_cons, crcPlain_append, ← foldl_crcFwdBit_xor poly 8 b.toNat reg (by decide) b.isLt]
    exact ih _

/-! ### The Path Check Word (R282) -/

theorem crcRun_append (reg : Nat) (bs bs' : List Byte) : crcRun 0 reg (bs ++ bs') = crcRun 0 (crcRun 0 reg bs) bs' :=
  List.foldl_append

/-- A code-0 run from a preset of 32 bits, with the final XOR. -/
theorem crcDone_crcRun (reg : Nat) (h : reg < 2 ^ 32) (bs : List Byte) :
    crcDone 0 (crcRun 0 reg bs) = revBits 32 (crcPlain 32 0x1EDC6F41 (revBits 32 reg) (bitsRef bs)) ^^^ 0xFFFFFFFF :=
  congrArg (· ^^^ 0xFFFFFFFF) (crcRefl_eq_revBits (w := 32) (poly := 0x82F63B78) (by decide) (by decide) h bs)

/-- Settles O58: a reflected run is the mirror image of the plain one, code 2 takes its bits in their order, and the Path Check Word is a
code-0 run over the data and the destination word from its own preset. -/
theorem crcAlgorithms : Obligations.CrcAlgorithms := by
  have hvalues := Tests.test_crc_check_values
  simp only [show List.range 4 = [0, 1, 2, 3] from rfl, List.map_cons, List.map_nil, List.cons.injEq, and_true] at hvalues
  obtain ⟨h0, h1, h2, h3⟩ := hvalues
  refine ⟨?code0, ?code1, ?code2, ?code3, h0, h1, h2, h3, ?pathWord⟩
  case code0 => exact fun bs => crcDone_crcRun 0xFFFFFFFF (by decide) bs
  case code1 =>
    exact fun bs => congrArg (· ^^^ 0xFFFFFFFF)
      (crcRefl_eq_revBits (w := 32) (poly := 0xEDB88320) (reg := 0xFFFFFFFF) (by decide) (by decide) (by decide) bs)
  case code2 => exact fun bs => (crcFwd16_eq 0x8BB7 0 bs).trans (Nat.xor_zero _).symm
  case code3 =>
    exact fun bs => congrArg (· ^^^ 0xFFFFFFFFFFFFFFFF)
      (crcRefl_eq_revBits (w := 64) (poly := 0x9A6C9329AC4BC9B5) (reg := 2 ^ 64 - 1) (by decide) (by decide) (by decide) bs)
  case pathWord =>
    intro tenant pseq dest bs ht hp
    have hpreset : 0xFFFFFFFF ^^^ (tenant * 65536 + pseq) < 2 ^ 32 := Nat.xor_lt_two_pow (by decide) (by omega)
    simp only [pcw, Nat.mod_eq_of_lt ht, Nat.mod_eq_of_lt hp]
    rw [← crcRun_append]
    exact crcDone_crcRun _ hpreset _

end Sys2Proof.Machine
end

section
/-! PROOFS. A Leap (R225, R226, R228). -/

namespace Sys2Proof.Machine

/-- Settles O28: the Leap changes its own record and the store's copy of the new active Pad's records, and its event neither. -/
theorem leapSwapsPads : Obligations.LeapSwapsPads := by
  intro spread s hactive t
  have hpkt : t.pkt = { s.pkt with leap := { s.pkt.leap with
      active := 1 - s.pkt.leap.active, gen := (s.pkt.leap.gen + 1) % 65536, shadow := 1, pending := none, chain := false
      last := s.time, spread } } := by
    simp only [t, leapTrigger, State.event_pkt]
    rfl
  have hnv : t.nv = { s.nv with parseRecs := (padOf s (shadowBit s)).parse, defaults := (padOf s (shadowBit s)).defaults } := by
    simp only [t, leapTrigger, State.event_nv]
    rfl
  have hshadow : shadowBit t = s.pkt.leap.active := by
    rw [shadowBit, hpkt]
    exact Nat.sub_sub_self hactive
  have hpads (b : Nat) : padOf t b = padOf s b := by
    rw [padOf, padOf, hpkt]
  have hactive' : t.pkt.leap.active = shadowBit s := by
    rw [hpkt]
    rfl
  exact ⟨hactive', hshadow, by rw [hpkt], by rw [hpkt], by rw [hpkt], by rw [hpkt], hpads, by rw [hnv], by rw [hnv]⟩

end Sys2Proof.Machine
end

section
/-! PROOFS. The checks before a mailbox command's body (R350 to R353), what `DEV_CAPS` answers (R355), a step, and that every command that can be
sent runs. -/

namespace Sys2Proof.Machine

/-- A request that its mailbox may start and whose opcode the catalogue has: the firmware's agreement, the role and the slot are checked in
this order, before the body runs (R350 to R353). -/
theorem xop_checks {x : XCall} {r : Req} {s : State} {op roles taken : Nat} (hq : (mbxOf s x.mbx).queue.head? = some r)
    (hready : mbxReady s x.mbx = true) (hrow : opRow op = some (roles, taken)) (hop : r.opcode = op)
    (body : Call → State → State × Reply) :
    (x.agree = false → xop x op body s = turnedAway x r stDenied 0 (roleFault x.mbx (begun x s))) ∧
    (x.agree = true → roles &&& roleOf (begun x s) x.mbx = 0 → xop x op body s = turnedAway x r stDenied 0 (begun x s)) ∧
    (∀ d, x.agree = true → roles &&& roleOf (begun x s) x.mbx ≠ 0 → headerFault x.mbx r taken x = some d →
      xop x op body s = turnedAway x r stBadParam d (begun x s)) := by
  obtain ⟨l, hl⟩ := List.head?_eq_some_iff.mp hq
  have hb : s.modMbx x.mbx ({ · with queue := l }) = begun x s := by simp [begun, hl]
  refine ⟨fun ha => ?_, fun ha hrole => ?_, fun d ha hrole hfault => ?_⟩
  all_goals
    unfold xop xcs
    simp only [hl, hready, hop, decide_true, Bool.not_true, Bool.or_self, Bool.false_eq_true, if_false, hb, hrow, ha]
  · rfl
  · rw [if_pos hrole]
    rfl
  · rw [if_neg hrole, hfault]
    rfl

/-- A command of another opcode than the oldest request's leaves the state (R353). -/
theorem xop_of_other_opcode {x : XCall} {r : Req} {s : State} {op : Nat} (hq : (mbxOf s x.mbx).queue.head? = some r) (hop : r.opcode ≠ op)
    (body : Call → State → State × Reply) : xop x op body s = s := by
  obtain ⟨l, hl⟩ := List.head?_eq_some_iff.mp hq
  simp [xop, xcs, hl, hop]

/-- Settles O56: the checks of the mailbox engine and of the firmware, one after the other. -/
theorem mailboxChecks : Obligations.MailboxChecks := by
  intro x r s op roles taken body hq hready hrow
  have hchecks (hop : r.opcode = op) := xop_checks hq hready hrow hop body
  refine ⟨fun hop => xop_of_other_opcode hq hop body, fun hop => ?_, fun hop => (hchecks hop).1, fun d hop => ?_⟩
  · exact (hchecks hop).2.1
  · exact (hchecks hop).2.2 d

/-- Settles O60: the body only answers, and the bitmap is the byte 0xFF below 31 zero bytes. -/
theorem deviceCaps : Obligations.DeviceCaps := by
  intro x r s h hw
  have hbitmap : ofLe (leBytes 32 0xFF) = 0xFF := by decide +kernel
  refine ⟨run_replied hw h rfl, fun i hi => ?_, fun i hi _ => ?_⟩
  · rw [hbitmap]
    interval_cases i <;> rfl
  · have hsmall : (0xFF : Nat) / 2 ^ i = 0 :=
      Nat.div_eq_of_lt (Nat.lt_of_lt_of_le (by decide) (Nat.pow_le_pow_right (by decide) hi))
    rw [hbitmap, bit, hsmall]
    rfl

/-- Settles O50: `step` by the front of its queue. -/
theorem stepTakesFront : Obligations.StepTakesFront := by
  refine ⟨fun c rest s => rfl, fun s hs => ?_⟩
  rw [step, hs]

/-- The destination register and the numbers of an instruction fit their operands. -/
def Xtirzu.Fits : Xtirzu → Prop
  | .chWr idx _ => idx < 8
  | .chCmt rd _ n _ => rd < 32 ∧ 1 ≤ n ∧ n ≤ 8
  | .chRd rd _ | .chTry rd _ | .chWaitany rd _ _ | .fork rd _ _ | .join rd _ => rd < 32
  | .threadExit _ | .trelease _ | .treset _ => True

/-- What an Xtirzu word encodes fits (R317). -/
theorem xtirzuOf_fits {i : Nat} {x : Xtirzu} (h : xtirzuOf i = some x) : x.Fits := by
  have hrd : bits i 7 5 < 32 := Nat.mod_lt _ (by decide)
  unfold xtirzuOf at h
  dsimp only at h
  split at h
  · cases h
  · split at h
    case h_1 =>
      split at h
      · cases h; assumption
      · cases h
    case h_2 =>
      split at h
      · cases h; exact ⟨hrd, by omega, by omega⟩
      · cases h
    all_goals
      cases h
    all_goals
      simp [Xtirzu.Fits, hrd]

theorem xreg_lt (s : State) (tid r : Nat) : xreg s tid r < 2 ^ 64 := by
  unfold xreg
  split
  · decide
  · exact Nat.mod_lt _ (by decide)

/-- A word that encodes an instruction runs it: its operands come from registers, so it can be sent. -/
theorem xtirzuRun_total {tid i : Nat} {x : Xtirzu} (htid : tid < 1024) (h : xtirzuOf i = some x) (s : State) :
    ∃ t, xtirzuRun tid x s = .next t := by
  have hfits := xtirzuOf_fits h
  have hreg (r : Nat) : xreg s tid r < 18446744073709551616 := xreg_lt s tid r
  have hchan (r : Nat) : xreg s tid r % 65536 < 65536 := Nat.mod_lt _ (by decide)
  cases x with
  | chWr idx rs1 => exact ⟨_, run_of_wf (by simp [wfChWr, htid, hreg, show idx < 8 from hfits]) _ s⟩
  | chCmt rd rs1 n nb =>
    obtain ⟨hrd, hn, hn'⟩ := hfits
    exact ⟨_, run_of_wf (by simp [wfChCmt, htid, hchan, hrd, hn, hn']) _ s⟩
  | chRd rd rs1 => exact ⟨_, run_of_wf (by simp [wfChRd, htid, hchan, show rd < 32 from hfits]) _ s⟩
  | chTry rd rs1 => exact ⟨_, run_of_wf (by simp [wfChTry, htid, hchan, show rd < 32 from hfits]) _ s⟩
  | chWaitany rd rs1 rs2 => exact ⟨_, run_of_wf (by simp [wfChWaitany, htid, hchan, hreg, show rd < 32 from hfits]) _ s⟩
  | fork rd rs1 rs2 => exact ⟨_, run_of_wf (by simp [wfFork, htid, hreg, show rd < 32 from hfits]) _ s⟩
  | join rd rs1 => exact ⟨_, run_of_wf (by simp [wfJoin, htid, hreg, show rd < 32 from hfits]) _ s⟩
  | threadExit rs1 => exact ⟨_, run_of_wf (by simp [wfThreadExit, htid, hreg]) _ s⟩
  | trelease rs1 => exact ⟨_, run_of_wf (by simp [wfTrelease, htid, hreg]) _ s⟩
  | treset rs1 => exact ⟨_, run_of_wf (by simp [wfTreset, htid, hreg]) _ s⟩

/-- A word that its thread gets an illegal-instruction exception for, or that encodes no instruction, is a run of its own check. -/
theorem execXtirzuIllegal_of_bad {tid epc i : Nat} {v : Bool} {s : State}
    (h : (wfXtirzuIllegal tid epc i v && !xtirzuBad s tid i) = false ∨ xtirzuOf i = none) :
    execXtirzuIllegal tid epc i v s = run (wfXtirzuIllegal tid epc i v) (act tid fun s =>
      if xtirzuBad s tid i then exception tid 2 epc i 0 v s else s) s := by
  unfold execXtirzuIllegal
  obtain h | h := h
  · rw [h]
  · rw [h]
    cases wfXtirzuIllegal tid epc i v && !xtirzuBad s tid i <;> rfl

/-- Each command's meaning is a run of its own check, on the state at hand. -/
theorem exec_eq_run (i : Instr) (s : State) : ∃ f, exec i s = run (wellFormed i) f s := by
  cases i with
  | xtirzuIllegal tid epc instr v =>
    by_cases hgood : (wfXtirzuIllegal tid epc instr v && !xtirzuBad s tid instr) = true
    · cases hx : xtirzuOf instr with
      | none => exact ⟨_, execXtirzuIllegal_of_bad (.inr hx)⟩
      | some x =>
        have hw : wfXtirzuIllegal tid epc instr v = true := (Bool.and_eq_true_iff.mp hgood).1
        have htid : tid < 1024 := by
          simp only [wfXtirzuIllegal, Bool.and_eq_true, decide_eq_true_eq] at hw
          exact hw.1.1
        obtain ⟨t, ht⟩ := xtirzuRun_total htid hx s
        have hrun : execXtirzuIllegal tid epc instr v s = xtirzuRun tid x s := by
          rw [execXtirzuIllegal, hgood, hx]
        exact ⟨fun _ => t, hrun.trans (ht.trans (run_of_wf hw (fun _ => t) s).symm)⟩
    · exact ⟨_, execXtirzuIllegal_of_bad (.inl (by simpa using hgood))⟩
  | _ => exact (fun ⟨f, hf⟩ => ⟨f, congrFun hf s⟩ : (∃ f, exec _ = run (wellFormed _) f) → _) ⟨_, rfl⟩

/-- Settles O51: a run of the check that a command is well formed answers a next state where the check passes, and else stops by name. -/
theorem everyCommandRuns : Obligations.EveryCommandRuns := by
  intro i s
  obtain ⟨f, hf⟩ := exec_eq_run i s
  rw [hf]
  exact ⟨fun hw => ⟨f s, run_of_wf hw f s⟩, fun hw => by simp [run, hw]⟩

end Sys2Proof.Machine
end

section
/-! SUPPORT. The end of a command's wait: what its answer leaves of the state, said once for all that is neither a mailbox nor what the device
gives its host (R346, R350, R351). -/

namespace Sys2Proof.Machine

/-- The state but for the mailboxes, what the device has given the outside, and what goes with it: the functions' pending messages and dirty logs,
the host ports' L1, and what the Board reads. -/
def State.inner (s : State) : State :=
  { s with mbxs := [], boardMbx := {}, ghosts := [], out := [], fns := [], hps := [], i3c := {} }

@[simp] theorem State.emit_inner (s : State) (o : Output) : (s.emit o).inner = s.inner := rfl

@[simp] theorem State.wakeLink_inner (s : State) (port : Nat) : (s.wakeLink port).inner = s.inner := by
  unfold State.wakeLink
  split <;> rfl

@[simp] theorem State.modFn_inner (s : State) (i : Nat) (f : Fn → Fn) : (s.modFn i f).inner = s.inner := by
  unfold State.modFn
  split <;> rfl

@[simp] theorem State.modMbx_inner (s : State) (m : MbxId) (f : Mailbox → Mailbox) : (s.modMbx m f).inner = s.inner := by
  cases m <;> rfl

@[simp] theorem begun_inner (x : XCall) (s : State) : (begun x s).inner = s.inner := State.modMbx_inner s _ _

@[simp] theorem State.hostWr_inner (s : State) (i a : Nat) (bs : List Byte) : (s.hostWr i a bs).inner = s.inner := by
  have hsent : ((writeTlps s i a bs).foldl State.emit (s.wakeLink (fidPort i))).inner = s.inner :=
    (foldl_keeps State.inner _ State.emit_inner _ _).trans (State.wakeLink_inner s _)
  unfold State.hostWr
  split
  · dsimp only
    split
    · exact hsent
    · exact (State.modFn_inner _ i _).trans hsent
  · rfl

@[simp] theorem State.pmeSet_inner (s : State) (i : Nat) : (s.pmeSet i).inner = s.inner := by
  simp [State.pmeSet, apply_ite State.inner]

@[simp] theorem State.sendMsix_inner (s : State) (i v : Nat) : (s.sendMsix i v).inner = s.inner := by
  simp [State.sendMsix, apply_ite State.inner]

@[simp] theorem scatter_inner (fid : Nat) (l : List (Nat × Nat)) (bs : List Byte) (s : State) : (scatter fid l bs s).inner = s.inner := by
  induction l generalizing bs s with
  | nil => rfl
  | cons e l ih => rw [scatter, ih, State.hostWr_inner]

@[simp] theorem putResponse_inner (m : MbxId) (r : Req) (rspList : List (Nat × Nat)) (status detail full : Nat) (body : List Byte) (s : State) :
    (putResponse m r rspList status detail full body s).inner = s.inner := by
  have hready (i : I3c) : ({ s with i3c := i } : State).inner = s.inner := rfl
  cases m with
  | board => simp [putResponse, hready, apply_ite State.inner]
  | fn fid => simp [putResponse, apply_ite State.inner]

@[simp] theorem respond_inner (m : MbxId) (r : Req) (rspList : List (Nat × Nat)) (status detail : Nat) (p : List Byte) (hdr unit : Nat)
    (s : State) : (respond m r rspList status detail p hdr unit s).inner = s.inner :=
  putResponse_inner _ _ _ _ _ _ _ _

@[simp] theorem answerAll_inner (m : MbxId) (status : Nat) (s : State) : (answerAll m status s).inner = s.inner := by
  rw [answerAll, foldl_keeps State.inner _ (fun _ _ => respond_inner _ _ _ _ _ _ _ _ _), State.modMbx_inner]

@[simp] theorem finishCur_inner (m : MbxId) (status detail : Nat) (payload : List Fld) (s : State) :
    (finishCur m status detail payload s).inner = s.inner := by
  unfold finishCur
  split
  · rfl
  · simp [apply_ite State.inner]

@[simp] theorem finishWait_inner (w : Wait → Bool) (status detail : Nat) (payload : List Fld) (s : State) :
    (finishWait w status detail payload s).inner = s.inner :=
  foldl_keeps State.inner _ (fun _ _ => finishCur_inner _ _ _ _ _) _ s

/-! ### Commands that wait (R351) -/

/-- A command that can be sent, by what its meaning leaves. -/
theorem run_next {wf : Bool} {f : State → State} {s t : State} (hw : wf = true) (hf : f s = t) : run wf f s = .next t := by
  rw [run_of_wf hw, hf]

section Served
variable {x : XCall} {op : Nat} {r : Req} {s t : State} {wf : Bool} {body : Call → State → State × Reply}

/-- A served command whose work finds no place yet: its request stays the oldest of its mailbox. -/
theorem run_kept (hw : wf = true) (h : Served x op r s) (hb : body (callBy x r s) (begun x s) = (t, .hold)) :
    run wf (xop x op body) s = .next (t.modMbx x.mbx ({ · with queue := r :: (mbxOf s x.mbx).queue.tail })) := by
  rw [run_of_wf hw, xop_served h, hb]

end Served

end Sys2Proof.Machine
end

section
/-! PROOFS. The Spawn Chain: its frames, its links, its enumeration, and the commands and time-outs of messages and armed Leaps (R227, R447 to
R457). -/

namespace Sys2Proof.Machine

/-! ### Frames (R448 to R457) -/

section
variable {s : State} {f : BitVec 64}

/-- A frame of this type, at a unit that has received frames before. -/
theorem run_chainRecv {wf : Bool} (hw : wf = true) (hon : chainOn s = true) (hok : frameOk f = true) (hup : s.chain.state = 2)
    (hseen : s.chain.seen = true) {type : Nat} (htype : fType f = type) (act : State → State) :
    run wf (chainRecv type f act) s = .next (act s) := by
  have hchain : s.modChain (fun c => { c with seen := true, state := if c.state = 0 then 1 else c.state }) = s := by
    have hsame : ({ s.chain with seen := true, state := if s.chain.state = 0 then 1 else s.chain.state } : Chain) = s.chain := by
      simp only [hup, Nat.reduceEqDiff, if_false, ← hseen]
      rw [← hup]
    rw [State.modChain, hsame]
  rw [run_of_wf hw, chainRecv, hchain]
  simp [hon, hok, htype]

/-- A frame whose CRC does not match is discarded and counted (R448). -/
theorem run_chainRecv_of_badCrc {wf : Bool} (hw : wf = true) (hon : chainOn s = true) (hbad : frameOk f = false) (type : Nat)
    (act : State → State) : run wf (chainRecv type f act) s = .next (s.bump .chainCrcError 0 0 1) := by
  rw [run_of_wf hw]
  simp [chainRecv, hon, hbad]

end

/-- Settles O20: each frame's act, at a unit whose chain is up, and none for a frame whose CRC fails. -/
theorem chainFrames : Obligations.ChainFrames := by
  unfold Obligations.ChainFrames
  refine ⟨fun f s hon hok hup hseen => ⟨?keep, ?enum, ?close, ?reset, ?armHigh, ?armRefused, ?cancel, ?lend, ?fault, ?dataOn, ?dataBack, ?wake,
    ?reserved⟩, fun f s hon hbad => ?badCrc⟩
  case keep => exact fun htype => run_chainRecv rfl hon hok hup hseen htype _
  case enum =>
    intro htype hhead hoffer
    refine (run_chainRecv rfl hon hok hup hseen htype _).trans (congrArg _ ?_)
    simp [hhead, Nat.not_le.mpr hoffer]
  case close =>
    intro htype hhead a ha
    refine (run_chainRecv rfl hon hok hup hseen htype _).trans (congrArg _ ?_)
    simp [hhead, ha]
  case reset =>
    intro htype hother
    exact (run_chainRecv rfl hon hok hup hseen htype _).trans (congrArg _ (if_neg (by simp [hother])))
  case armHigh =>
    intro htype hother hpart
    refine (run_chainRecv rfl hon hok hup hseen htype _).trans (congrArg _ ?_)
    simp [hother, hpart]
  case armRefused =>
    intro htype hother hpart u hrefused
    refine (run_chainRecv rfl hon hok hup hseen htype _).trans (congrArg _ ?_)
    have hup' : u.chain.state = 2 := hup
    simp only [hother, hpart, Bool.false_eq_true, ne_eq, not_true_eq_false, if_false]
    rw [show (if u.chain.state = 2 then _ else _) = _ from if_pos hup', hrefused]
    rfl
  case cancel =>
    intro htype hother
    exact (run_chainRecv rfl hon hok hup hseen htype _).trans (congrArg _ (if_neg (by simp [hother])))
  case lend =>
    intro htype hother hme hlent
    refine (run_chainRecv rfl hon hok hup hseen htype _).trans (congrArg _ ?_)
    simp [hother, hme, hlent]
  case fault =>
    intro htype hother
    exact (run_chainRecv rfl hon hok hup hseen htype _).trans (congrArg _ (if_neg (by simp [hother])))
  case dataOn =>
    intro htype hother hme
    refine (run_chainRecv rfl hon hok hup hseen htype _).trans (congrArg _ ?_)
    simp [hother, hme]
  case dataBack =>
    intro htype hown hpart
    refine (run_chainRecv rfl hon hok hup hseen htype _).trans (congrArg _ ?_)
    simp [hown, hpart]
  case wake =>
    intro htype hother
    exact (run_chainRecv rfl hon hok hup hseen htype _).trans (congrArg _ (if_neg (by simp [hother])))
  case reserved =>
    intro htype
    refine run_next (wf := wfReservedFrameType f) rfl ?_
    simp [hon, hok, htype]
  case badCrc =>
    have hall (type : Nat) (act : State → State) := run_chainRecv_of_badCrc (wf := true) rfl hon hbad type act
    refine ⟨hall _ _, hall _ _, hall _ _, hall _ _, hall _ _, hall _ _, hall _ _, hall _ _, hall _ _, hall _ _, ?_⟩
    refine run_next (wf := wfReservedFrameType f) rfl ?_
    simp [hon, hbad]

/-! ### Links, enumeration, messages -/

/-- A unit that re-forms is FORMING, and its borrowed credits are dropped (R452). -/
theorem chainReform_inner (s : State) : (chainReform s).inner =
    { s.inner with
      chain := { s.chain with state := 1, rx := [], armHi := [], offered := none }, pow := { s.pow with borrowed := [] } } :=
  finishWait_inner _ _ _ _ _

theorem length_messageParts (bs : List Byte) : (messageParts bs).length = partsOf bs.length := by
  have hpos : 1 ≤ partsOf bs.length := by
    unfold partsOf
    split <;> omega
  simp only [messageParts, List.length_cons, List.length_map, List.length_range]
  omega

/-- Each part of a message leaves as one frame. -/
theorem length_out_foldl_chainSend {α : Type} (type dst : Nat) (part data : α → Nat) (l : List α) {s : State} (hpins : pinsIn s = true) :
    (l.foldl (fun s e => s.chainSend type dst false (part e) (data e)) s).out.length = s.out.length + l.length := by
  induction l generalizing s with
  | nil => rfl
  | cons e l ih =>
    have hsent : s.chainSend type dst false (part e) (data e) =
        s.emit (.chainTx (mkFrame type s.chain.addr dst false false 0 (part e) (data e))) := if_pos hpins
    rw [List.foldl_cons, hsent, ih (by exact hpins)]
    simp only [State.emit, List.length_append, List.length_cons, List.length_nil]
    omega

/-- Settles O21: the chain's interface is on, so each event has its effect; a message's parts leave one by one and the command waits. -/
theorem chainCommands : Obligations.ChainCommands := by
  unfold Obligations.ChainCommands
  refine ⟨?keep, ?bitTimeout, ?codeword, ?lost, ?reform, ?enumRetry, ?armTimeout, ?sendTimeout, ?state, ?send⟩
  case keep => exact fun s hon => (run_of_wf rfl _ s).trans (congrArg _ (if_pos hon))
  case bitTimeout => exact fun s hon => (run_of_wf rfl _ s).trans (congrArg _ (if_pos hon))
  case codeword => exact fun s hon => (run_of_wf rfl _ s).trans (congrArg _ (if_pos hon))
  case lost =>
    intro s hon hstate
    have hlost : linkLost s = (chainReform s).chainSend 3 0 true 0 0 := if_pos (by simp [hon, hstate])
    exact ⟨(run_of_wf rfl _ s).trans (congrArg _ hlost), (run_of_wf rfl _ s).trans (congrArg _ hlost)⟩
  case reform =>
    exact fun s => ⟨(congrArg (·.chain.state) (chainReform_inner s) :), (congrArg (·.pow.borrowed) (chainReform_inner s) :)⟩
  case enumRetry =>
    intro s hon hhead hstate
    exact (run_of_wf rfl _ s).trans (congrArg _ (if_pos (by simp [hon, hhead, hstate])))
  case armTimeout =>
    intro s hwait
    refine run_next (wf := wfChainArmTimeout) rfl ?_
    simp [hwait]
  case sendTimeout => exact fun s => run_of_wf rfl _ s
  case state => exact fun x r s h hw => run_replied hw h (by simp [reads])
  case send =>
    intro x r s dest data h hw hdest hlen hlen' hup hpins
    refine ⟨_, run_held (t := (messageParts data).zipIdx.foldl (fun s e =>
      s.chainSend 8 dest false ((messageParts data).length - 1 - e.2) e.1) (begun x s)) hw h ?_, ?_⟩
    · simp [Nat.not_lt.mpr hdest, Nat.not_lt.mpr hlen, Nat.not_lt.mpr hlen', hup]
    · rw [length_out_foldl_chainSend _ _ _ _ _ (by simpa [pinsIn] using hpins), List.length_zipIdx, length_messageParts, begun_out]

end Sys2Proof.Machine
end

section
/-! PROOFS. The I3C target (R441 to R445): a Target Reset Pattern that JTAG hides from the device. -/

namespace Sys2Proof.Machine

/-- A device whose pins JTAG has taken (R460), its supplies up, and whose I3C target has had its write length set (R443). -/
def pinsTakenState : State :=
  { pins := { vddRet := true, pwrSeen := true }, dbg := { pinsTaken := true }, i3c := { mwl := 64 } }

/-- Refutes O19: the clause about the Target Reset Pattern leaves out that the pins are in functional use; while JTAG has taken them the
pattern is not seen, and the target keeps what a reset would restore. -/
theorem not_i3cTarget : ¬ Obligations.I3cTarget := by
  unfold Obligations.I3cTarget
  rintro ⟨-, -, -, -, -, -, -, -, -, -, -, -, -, -, -, -, hpattern, -, -⟩
  obtain ⟨t, hexec, hi3c, -, -⟩ := hpattern pinsTakenState rfl rfl (.inl rfl)
  have hunseen : exec .targetResetPattern pinsTakenState = .next pinsTakenState := rfl
  obtain rfl : pinsTakenState = t := Host.Outcome.next.inj (hunseen.symm.trans hexec)
  have hmwl : pinsTakenState.i3c.mwl = 1088 := congrArg I3c.mwl hi3c
  exact absurd hmwl (by decide)

end Sys2Proof.Machine
end

section
/-! PROOFS. The Eft's faults and its return, the fault log, and the scrubbers (R260, R357, R419, R420, R426 to R428, R430 to R432). -/

namespace Sys2Proof.Machine

/-! ### The Eft (R430) -/

@[simp] theorem State.chainSend_phase (s : State) (type dst : Nat) (bcast : Bool) (part data : Nat) :
    (s.chainSend type dst bcast part data).phase = s.phase := by
  simp [State.chainSend, apply_ite State.phase]

/-- The safe state is entered from every other, and `FAULT_N` says so (R432, R433). -/
theorem safeState_enters {s : State} (h : s.phase ≠ .safe) (dkind unit : Nat) :
    (safeState dkind unit s).phase = .safe ∧ (safeState dkind unit s).pins.faultN = true := by
  simp [safeState, h, State.updFaultN]

theorem nextSeq_record (s : State) (k u c a t d : Nat) : (s.record k u c a t d).flt.nextSeq = s.flt.nextSeq + 1 := by
  simp [State.record]

/-- A fault of the Eft when none has restarted it within 10 s: headless, with a record (R430, R431). -/
theorem eftFault_first {s : State} (h : s.eft.faultAt = none) (source stage : Nat) :
    eftFault source stage s = { s.record 8 0 source 1 1 stage with
      eft := { (s.record 8 0 source 1 1 stage).eft with headless := true, faultAt := some s.tick } } := by
  simp [eftFault, h]

/-- A second fault within 10 s (R431). -/
theorem eftFault_second {s : State} {at_ : Nat} (h : s.eft.faultAt = some at_) (hsoon : s.tick < at_ + 10000000) (source stage : Nat) :
    eftFault source stage s = safeState 8 0 (s.record 8 0 source 6 5 stage) := by
  simp [eftFault, h, hsoon]

theorem alive_of_running {s : State} (h : s.phase = .running) : alive s = true := by
  simp [alive, h]

/-! ### Clearing the fault log (R428) -/

theorem domOf_setDom_self {d : Dom} {r : DomRec} (h : r ≠ {}) (s : State) : domOf (s.setDom d r) d = r := by
  have hnone : (s.flt.doms.filter (·.1 ≠ d)).find? (·.1 = d) = none := by simp
  rw [domOf, State.setDom, if_neg h]
  simp only [List.find?_append, hnone]
  simp

theorem domOf_setDom_ne {d e : Dom} (h : e ≠ d) (s : State) (r : DomRec) : domOf (s.setDom d r) e = domOf s e := by
  have hfilter : (s.flt.doms.filter (·.1 ≠ d)).find? (·.1 = e) = s.flt.doms.find? (·.1 = e) := by
    rw [List.find?_filter]
    congr 1
    funext p
    by_cases hp : p.1 = e <;> simp [hp, h]
  have htail : (if r = {} then [] else [(d, r)] : List (Dom × DomRec)).find? (·.1 = e) = none := by
    split <;> simp [h.symm]
  simp only [domOf, State.setDom, List.find?_append, hfilter, htail, Option.or_none]

theorem domOf_domClear_fenced {d : Dom} {s : State} (h : (domOf s d).state = .fenced) : (domOf (domClear d s) d).state = .clear := by
  have hne : ({ domOf s d with state := .clear } : DomRec) ≠ {} := fun h => DomState.noConfusion (congrArg DomRec.state h)
  rw [domClear, if_pos h]
  exact congrArg DomRec.state (domOf_setDom_self hne s)

theorem domOf_domClear_other {d e : Dom} (h : e ≠ d) (s : State) : domOf (domClear d s) e = domOf s e := by
  unfold domClear
  split
  · exact domOf_setDom_ne h s _
  · rfl

theorem domOf_domClear_clear {d e : Dom} {s : State} (h : (domOf s e).state = .clear) : (domOf (domClear d s) e).state = .clear := by
  by_cases he : e = d
  · subst he
    rwa [domClear, if_neg (by simp [h])]
  · rwa [domOf_domClear_other he]

/-- Each FENCED domain of a list is in CLEAR after all of them have been cleared. -/
theorem domOf_foldl_domClear {d : Dom} (l : List (Dom × DomRec)) {s : State}
    (h : (domOf s d).state = .clear ∨ ((domOf s d).state = .fenced ∧ ∃ e ∈ l, e.1 = d)) :
    (domOf (l.foldl (fun s e => domClear e.1 s) s) d).state = .clear := by
  induction l generalizing s with
  | nil => simpa using h
  | cons e l ih =>
    refine ih ?_
    obtain hclear | ⟨hfenced, e', he', rfl⟩ := h
    · exact .inl (domOf_domClear_clear hclear)
    · by_cases he : e'.1 = e.1
      · exact .inl (he ▸ domOf_domClear_fenced (he ▸ hfenced))
      · refine .inr ⟨by rwa [domOf_domClear_other he], e', ?_, rfl⟩
        exact (List.mem_cons.mp he').resolve_left (fun h => he (congrArg Prod.fst h))

theorem log_domClear (d : Dom) (s : State) : (domClear d s).flt.log = s.flt.log := by
  unfold domClear
  split <;> rfl

/-- A domain that is not RUNNING is in the list of those that are not. -/
theorem mem_doms_of_domOf {s : State} {d : Dom} (h : (domOf s d).state ≠ .running) : (d, domOf s d) ∈ s.flt.doms := by
  cases hfind : s.flt.doms.find? (·.1 = d) with
  | none => simp [domOf, hfind] at h
  | some e =>
    obtain rfl : e.1 = d := by simpa using List.find?_some hfind
    have hdom : domOf s e.1 = e.2 := by simp [domOf, hfind]
    rw [hdom]
    exact List.mem_of_find?_eq_some hfind

/-- The log without the records that `FAULT_CLEAR` removes (R428). -/
def dropRecords (n : Nat) (s : State) : State := { s with flt := { s.flt with log := s.flt.log.filter (fun e => n < e.seq) } }

/-- The domains that a removed record fenced start to clear (R428). -/
def clearFenced (n : Nat) (s : State) : State :=
  (s.flt.doms.filter (fun e => e.2.state = .fenced && e.2.fencedBy ≤ n)).foldl (fun s e => domClear e.1 s) s

/-- The regulator may be written again once its fault's record is removed (R26). -/
def retryAvs (n : Nat) (s : State) : State :=
  if s.pow.avsFault && s.pow.avsSeq ≤ n then { s with pow := { s.pow with avsRetry := true } } else s

theorem retryAvs_flt (n : Nat) (s : State) : (retryAvs n s).flt = s.flt := by
  unfold retryAvs
  split <;> rfl

theorem log_clearFenced (n : Nat) (s : State) : (clearFenced n s).flt.log = s.flt.log :=
  foldl_keeps (·.flt.log) (fun s (e : Dom × DomRec) => domClear e.1 s) (fun s e => log_domClear e.1 s) _ _

theorem domOf_clearFenced {n : Nat} {s : State} {d : Dom} (h : (domOf s d).state = .fenced) (hn : (domOf s d).fencedBy ≤ n) :
    (domOf (clearFenced n s) d).state = .clear := by
  refine domOf_foldl_domClear _ (.inr ⟨h, (d, domOf s d), ?_, rfl⟩)
  rw [List.mem_filter]
  exact ⟨mem_doms_of_domOf (by simp [h]), by simp [h, hn]⟩

/-- Settles O5: the Eft's first fault and its second, its return, and the two commands over the log. -/
theorem eftFaultsAndLog : Obligations.EftFaultsAndLog := by
  unfold Obligations.EftFaultsAndLog
  refine ⟨⟨?first, ?second, ?back⟩, ?read, ?clear⟩
  case first =>
    intro stage s hrun hnone hw
    have hexec : exec (.eftLockstepMismatch stage) s = .next (eftFault 7 stage s) :=
      run_next hw (if_pos (by simp [alive_of_running hrun, hrun]))
    refine ⟨_, hexec, ?_⟩
    rw [eftFault_first hnone]
    exact ⟨rfl, (State.record_phase ..).trans hrun, rfl, nextSeq_record ..⟩
  case second =>
    intro stage s at_ hrun hat hsoon hw
    have hexec : exec (.eftLockstepMismatch stage) s = .next (eftFault 7 stage s) :=
      run_next hw (if_pos (by simp [alive_of_running hrun, hrun]))
    refine ⟨_, hexec, ?_⟩
    rw [eftFault_second hat hsoon]
    exact safeState_enters (by simp [hrun]) 8 0
  case back =>
    intro s hheadless hsafe
    refine run_next (wf := wfEftRestartDone) rfl ?_
    simp only [hheadless, hsafe, Bool.not_true, Bool.false_or, decide_false, Bool.false_eq_true, if_false]
  case read => exact fun x r s n h hw => run_repliedTo hw h rfl
  case clear =>
    intro x r s n h hw
    refine ⟨retryAvs n (clearFenced n (dropRecords n (begun x s))), run_replied hw h rfl, ?_, fun d hfenced hold => ?_⟩
    · rw [retryAvs_flt, log_clearFenced]
      rfl
    · rw [domOf, retryAvs_flt]
      exact domOf_clearFenced (s := dropRecords n (begun x s)) hfenced hold

/-! ### The scrubbers (R419, R420) -/

/-- A scrubber at work does what its word asks. -/
theorem exec_scrubStep {m : ScrubMem} {u : Nat} {s : State} (h : scrubbing s m u = true) (a : Nat) (found : ScrubResult) :
    exec (.scrubStep m u a found) s = .next (match found with
      | .clean => s
      | .corrected => scrubCorrected m u s
      | .uncorrectable => scrubPoison m u a s) :=
  run_next (wf := wfScrubStep m u a found) rfl (if_neg (by simp [h]))

theorem unitOf_modUnit_self (s : State) (kind phys : Nat) (f : WearUnit → WearUnit) :
    unitOf (s.modUnit kind phys f) kind phys = f (unitOf s kind phys) := by
  simp [unitOf, State.modUnit]

/-- A corrected error counts once against its bank (R419). -/
theorem count_scrubCorrected (m : ScrubMem) (u : Nat) (s : State) :
    (scrubCorrected m u s).count .corrected (scrubDkind m) u = s.count .corrected (scrubDkind m) u + 1 := by
  have hbump : (s.bump .corrected (scrubDkind m) u 1).count .corrected (scrubDkind m) u = s.count .corrected (scrubDkind m) u + 1 := by
    rw [State.count_bump, if_pos rfl]
  unfold scrubCorrected
  dsimp only
  split
  · exact hbump
  · exact hbump

/-- It feeds the wear signals of its unit (R435). -/
theorem corrTotal_scrubCorrected {m : ScrubMem} {k : Nat} (hk : scrubKind m = some k) (u : Nat) (s : State) :
    (unitOf (scrubCorrected m u s) k u).corrTotal = (unitOf s k u).corrTotal + 1 := by
  have hunit : scrubCorrected m u s = (s.bump .corrected (scrubDkind m) u 1).unitCorrected k u := by simp [scrubCorrected, hk]
  rw [hunit, State.unitCorrected, unitOf_modUnit_self, unitOf, State.bump_wear]
  rfl

/-- A lost slot of Pad A's first pipelines is marked in its rules (R420). -/
theorem ruleLost_loseRule {k : Nat} (hk : k < 2 ^ 20) (s : State) : ruleLost (mgetD (loseRule k s).pkt.padA.rules k 0) = true := by
  have hpad : k / 2 ^ 20 % 2 = 0 := by rw [Nat.div_eq_of_lt hk]
  have hpadA : (loseRule k s).pkt.padA = { s.pkt.padA with rules := mput s.pkt.padA.rules k (2 ^ 1536 + 2 ^ 1504) } := by
    unfold loseRule
    dsimp only
    rw [State.modPad, if_pos hpad, Nat.mod_eq_of_lt hk]
  rw [hpadA, mgetD_mput_self]
  decide +kernel

/-- Settles O7: what each word asks of a scrubber at work; one that is not does nothing. -/
theorem scrubbing_obligation : Obligations.Scrubbing := by
  unfold Obligations.Scrubbing
  refine ⟨fun m u a s h => exec_scrubStep h a .clean, fun m u a s h => ?corrected, fun m u a s h => exec_scrubStep h a .uncorrectable,
    fun u a s h hsafe => ?bootBlock, fun m u a found s h => ?idle, fun u k s h hk => ?rule⟩
  case corrected =>
    exact ⟨_, exec_scrubStep h a .corrected, count_scrubCorrected m u s, fun k hk => corrTotal_scrubCorrected hk u s⟩
  case bootBlock => exact ⟨_, exec_scrubStep h a .uncorrectable, (safeState_enters (by simpa using hsafe) 9 u).1⟩
  case idle => exact run_next (wf := wfScrubStep m u a found) rfl (if_pos (by simp [h]))
  case rule => exact ⟨_, exec_scrubStep h k .uncorrectable, ruleLost_loseRule hk _⟩

end Sys2Proof.Machine
end

section
/-! PROOFS. The partitions' commands, and what a start gives the threads (R313, R328, R336, R340 to R342). -/

namespace Sys2Proof.Machine

/-! ### A partition, a thread and a channel, read after a change of another -/

theorem threadOf_modThread_ne {s : State} {t u : Nat} (h : u ≠ t) (f : Thread → Thread) : threadOf (s.modThread t f) u = threadOf s u :=
  mgetD_mput_ne _ _ _ h

@[simp] theorem part?_modThread (s : State) (t : Nat) (f : Thread → Thread) (p : Nat) : part? (s.modThread t f) p = part? s p := rfl

@[simp] theorem part?_modChan (s : State) (c : Nat) (f : Channel → Channel) (p : Nat) : part? (s.modChan c f) p = part? s p := rfl

@[simp] theorem part?_begun (x : XCall) (s : State) (p : Nat) : part? (begun x s) p = part? s p := by simp [part?]

@[simp] theorem threadOf_modPart (s : State) (p : Nat) (f : Part → Part) (t : Nat) : threadOf (s.modPart p f) t = threadOf s t := by
  unfold State.modPart
  split <;> rfl

theorem part?_modPart_self {s : State} {p : Nat} {q : Part} (h : part? s p = some q) (f : Part → Part) :
    part? (s.modPart p f) p = some (f q) := by
  rw [State.modPart, h, part?]
  exact mget?_mput_self ..

/-- A fold that sets each thread of a list by its number leaves each of them as it was set. -/
theorem threadOf_foldl_set (g : Nat → Thread) {l : List Nat} {s : State} {t : Nat} (h : t ∈ l ∨ threadOf s t = g t) :
    threadOf (l.foldl (fun s t => s.modThread t (fun _ => g t)) s) t = g t := by
  induction l generalizing s with
  | nil => simpa using h
  | cons u l ih =>
    refine ih ?_
    by_cases ht : t = u
    · subst ht
      exact .inr (threadOf_modThread_self s t _)
    · exact h.imp (fun hm => (List.mem_cons.mp hm).resolve_left ht) (fun hs => (threadOf_modThread_ne ht _).trans hs)

theorem part?_foldl_set (g : Nat → Thread) (l : List Nat) (s : State) (p : Nat) :
    part? (l.foldl (fun s t => s.modThread t (fun _ => g t)) s) p = part? s p :=
  foldl_keeps (part? · p) (fun s t => s.modThread t (fun _ => g t)) (fun _ _ => rfl) l s

/-! ### What a start gives the threads (R328) -/

/-- A thread's record when its partition `p` starts. -/
def startThread (p : Nat) (q : Part) (t : Nat) : Thread :=
  if t = supervisorOf q then
    { state := 2, mode := if q.vendor then 3 else 1, pc := (q.image.getD {}).entry
      regs := [(2, 2 ^ 32 + q.regionMib * 2 ^ 20), (10, p), (11, q.regionMib * 2 ^ 20)] }
  else { state := if q.cluster then 1 else 0, mode := if q.vendor then 3 else 1 }

/-- The threads of a partition that starts. -/
def startThreads (p : Nat) (q : Part) (s : State) : State := q.threads.foldl (fun s t => s.modThread t (fun _ => startThread p q t)) s

/-- The issue tables of a partition that starts are those of a reset (R316). -/
def resetSlots (q : Part) (s : State) : State :=
  { s with skk := { s.skk with slots := q.cores.foldl (fun m c => mdel m c) s.skk.slots } }

section
variable {s : State} {p : Nat} {q : Part} (hq : part? s p = some q)
include hq

theorem partStart_eq : partStart p s = (resetSlots q (startThreads p q s)).modPart p (fun q => { q with running := true }) := by
  rw [partStart, hq]
  rfl

theorem threadOf_partStart {t : Nat} (ht : t ∈ q.threads) : threadOf (partStart p s) t = startThread p q t := by
  rw [partStart_eq hq, threadOf_modPart]
  exact threadOf_foldl_set (startThread p q) (.inl ht)

theorem part?_partStart : part? (partStart p s) p = some { q with running := true } := by
  have hstarted : part? (resetSlots q (startThreads p q s)) p = some q := (part?_foldl_set _ _ s p).trans hq
  rw [partStart_eq hq]
  exact part?_modPart_self hstarted _

end

/-- The supervisor is a thread of its partition: the first of its first core. -/
theorem supervisorOf_mem_threads {q : Part} (h : q.cores ≠ []) : supervisorOf q ∈ q.threads := by
  obtain ⟨c, l, hc⟩ := List.exists_cons_of_ne_nil h
  simp only [Part.threads, supervisorOf, hc, List.headD_cons, List.mem_flatMap, List.mem_map, List.mem_range]
  exact ⟨c, List.mem_cons_self .., 0, by decide, by omega⟩

/-- A stopped partition with an image starts. -/
theorem exec_partStart {x : XCall} {r : Req} {s : State} {p : Nat} {q : Part} (h : Served x 0x0B04 r s) (hw : wfPartStart x p = true)
    (hq : part? (begun x s) p = some q) (hstopped : q.running = false) (himage : q.image.isSome = true) :
    exec (.partStart x p) s = .next (replied x r [] (partStart p (begun x s))) := by
  refine run_replied hw h ?_
  simp only [hq, hstopped, Option.isNone_eq_false_iff.mpr himage, Bool.or_self, Bool.false_eq_true, if_false]
  rfl

/-- What the supervisor starts with (R328). -/
theorem startThread_supervisor (p : Nat) (q : Part) : startThread p q (supervisorOf q) =
    { state := 2, mode := if q.vendor then 3 else 1, pc := (q.image.getD {}).entry
      regs := [(2, 2 ^ 32 + q.regionMib * 2 ^ 20), (10, p), (11, q.regionMib * 2 ^ 20)] } :=
  if_pos rfl

/-- Three registers, read back. -/
theorem mgetD_three (a b c : Nat) :
    mgetD [(2, a), (10, b), (11, c)] 10 0 = b ∧ mgetD [(2, a), (10, b), (11, c)] 11 0 = c ∧ mgetD [(2, a), (10, b), (11, c)] 2 0 = a :=
  ⟨rfl, rfl, rfl⟩

/-- Settles O59: each thread of the partition has the record that a start gives it. -/
theorem partitionStarts : Obligations.PartitionStarts := by
  intro x r s p q image h hw hq hstopped himage hcores
  have hthread {t : Nat} (ht : t ∈ q.threads) := threadOf_partStart hq ht
  refine ⟨_, exec_partStart h hw hq hstopped (by simp [himage]), by rw [part?_partStart hq]; rfl, ?_⟩
  rw [hthread (supervisorOf_mem_threads hcores), startThread_supervisor]
  obtain ⟨hpart, hsize, htop⟩ := mgetD_three (2 ^ 32 + q.regionMib * 2 ^ 20) p (q.regionMib * 2 ^ 20)
  refine ⟨rfl, by rw [himage]; rfl, hpart, hsize, htop, fun t ht hne => ?_⟩
  rw [hthread ht, startThread, if_neg hne]

/-! ### The partitions' commands -/

theorem mgetD_filter_of_not {α : Type} {m : List (Nat × α)} {f : Nat × α → Bool} {k : Nat}
    (h : ∀ e ∈ m, e.1 = k → f e = false) (d : α) :
    mgetD (m.filter f) k d = d := by
  induction m with
  | nil => rfl
  | cons e m ih =>
    have ih := ih fun e he => h e (List.mem_cons_of_mem _ he)
    rw [List.filter_cons]
    split
    next hf =>
      have hk : e.1 ≠ k := fun hk => by simp [h e (List.mem_cons_self ..) hk] at hf
      simpa [mgetD, mget?, hk] using ih
    next => exact ih

/-- Settles O47: each command's checks passed in their order, and what it leaves of the partition. -/
theorem partitionCommands : Obligations.PartitionCommands := by
  unfold Obligations.PartitionCommands
  refine ⟨?create, ?destroy, ?load, ?start, ?startRefused, ?stop, ?attach, ?detach, ?attachDenied⟩
  case create =>
    intro x r s form cluster cores action tenant clusters channels handles ms mib p first h hw u mine hgood hroom hhandles hcores hregion hid
      hfirst q k
    refine run_replied hw h ?_
    have htaken : (u.skk.parts.any fun e => e.2.cores.any mine.contains) = false := by
      simp only [List.any_eq_false, List.contains_iff_mem, Bool.not_eq_true]
      exact hcores
    have hcond : (decide (128 ≤ u.skk.parts.length) || decide (handlesFree u < handles) ||
        (u.skk.parts.any fun e => e.2.cores.any mine.contains) || decide (regionFree u < mib)) = false := by
      simp only [htaken, Nat.not_le.mpr hroom, Nat.not_lt.mpr hhandles, Nat.not_lt.mpr hregion, decide_false, Bool.or_self]
    simp only [hgood]
    rw [if_neg (ne_true_of_eq_false hcond), hid, hfirst]
  case destroy =>
    intro x r s p q h hw hq hstopped
    refine ⟨_, run_replied hw h (by simp only [hq, hstopped, Bool.false_eq_true, if_false]; rfl), ?_, ?_, ?_⟩
    · exact mget?_mdel_self ..
    · intro a ha
      refine (rd8_zeroN _ _ _ _).trans (if_neg ?_)
      omega
    · intro t ht
      exact mgetD_filter_of_not (fun e _ he => by simp [he, ht]) _
  case load =>
    intro x r s p image q h hw hq hstopped hheader htype htrailer hfits put v
    refine run_replied hw h ?_
    simp only [hq, hstopped, hheader, htype, htrailer, hfits, Bool.not_true, ne_eq, not_true_eq_false, decide_false, Bool.or_self,
      Bool.false_eq_true, if_false]
    rfl
  case start => exact fun x r s p q h hw hq hstopped himage => exec_partStart h hw hq hstopped himage
  case startRefused =>
    intro x r s p q h hw hq hrefused
    refine run_turnedAway hw h ?_
    have hcond : (q.running || q.image.isNone) = true := by simpa using hrefused
    simp only [hq, hcond, if_true]
    rfl
  case stop =>
    intro x r s p h hw hthere
    refine run_replied hw h ?_
    simp only [Option.isNone_eq_false_iff.mpr hthere, Bool.false_eq_true, if_false]
    rfl
  case attach =>
    intro x r s p h hw hthere hscope u k
    refine run_replied hw h ?_
    rw [if_neg (ne_true_of_eq_false (Option.isNone_eq_false_iff.mpr hthere)), if_neg (by decide), if_neg (by decide),
      begun_dbg, hscope]
    rfl
  case detach =>
    intro x r s p h hw hthere
    refine run_replied hw h ?_
    rw [if_neg (ne_true_of_eq_false (Option.isNone_eq_false_iff.mpr hthere)), if_neg (by decide), if_pos rfl]
    rfl
  case attachDenied =>
    intro x r s p h hw hthere htwo hzero
    refine run_turnedAway hw h ?_
    rw [if_neg (ne_true_of_eq_false (Option.isNone_eq_false_iff.mpr hthere)), if_neg (by decide), if_neg (by decide),
      begun_dbg, htwo, hzero]
    rfl

end Sys2Proof.Machine
end

section
/-! PROOFS. The channels of a thread (R318 to R322). -/

namespace Sys2Proof.Machine

/-! ### A thread and a channel, read after a change of another -/

@[simp] theorem chanOf_modThread (s : State) (t : Nat) (f : Thread → Thread) (c : Nat) : chanOf (s.modThread t f) c = chanOf s c := rfl

@[simp] theorem threadOf_modChan (s : State) (c : Nat) (f : Channel → Channel) (t : Nat) : threadOf (s.modChan c f) t = threadOf s t := rfl

theorem chanOf_modChan_ne {s : State} {c d : Nat} (h : d ≠ c) (f : Channel → Channel) : chanOf (s.modChan c f) d = chanOf s d :=
  mgetD_mput_ne _ _ _ h

@[simp] theorem partOfChan_modThread (s : State) (t : Nat) (f : Thread → Thread) (c : Nat) :
    partOfChan (s.modThread t f) c = partOfChan s c := rfl

@[simp] theorem partOfChan_modChan (s : State) (d : Nat) (f : Channel → Channel) (c : Nat) :
    partOfChan (s.modChan d f) c = partOfChan s c := rfl

@[simp] theorem chanOf_settle (tid : Nat) (s : State) (c : Nat) : chanOf (settle tid s) c = chanOf s c := by
  simp only [settle, apply_ite (chanOf · c), chanOf_modThread, ite_self]

@[simp] theorem chanOf_issued (tid : Nat) (s t : State) (c : Nat) : chanOf (issued tid s t) c = chanOf t c := chanOf_settle tid _ c

/-- Of another thread an instruction's end changes nothing. -/
theorem threadOf_settle_ne {tid u : Nat} (h : u ≠ tid) (s : State) : threadOf (settle tid s) u = threadOf s u := by
  simp only [settle, apply_ite (threadOf · u), threadOf_modThread_ne h, ite_self]

theorem threadOf_issued_ne {tid u : Nat} (h : u ≠ tid) (s t : State) : threadOf (issued tid s t) u = threadOf t u :=
  threadOf_settle_ne h _

/-- A thread that is not READY is not touched by its instruction's end but for its count and the mark of a trap. -/
theorem state_settle {tid : Nat} {s : State} (h : (threadOf s tid).state ≠ 2) : (threadOf (settle tid s) tid).state = (threadOf s tid).state := by
  simp only [settle, h, decide_false, Bool.and_false, Bool.false_eq_true, if_false]
  simp only [apply_ite (fun s => (threadOf s tid).state), threadOf_modThread_self, ite_self]

theorem state_issued {tid : Nat} {t : State} (h : (threadOf t tid).state ≠ 2) (s : State) :
    (threadOf (issued tid s t) tid).state = (threadOf t tid).state :=
  state_settle (s := { t with skk := { t.skk with cycles := _ } }) h

@[simp] theorem cycles_settle (tid : Nat) (s : State) : (settle tid s).skk.cycles = s.skk.cycles := by
  have hthread (s : State) (f : Thread → Thread) : (s.modThread tid f).skk.cycles = s.skk.cycles := rfl
  simp only [settle, apply_ite (fun s : State => s.skk.cycles), hthread, ite_self]

/-! ### Slots (R316) -/

/-- The threads of a core, from the one that a slot's bits name, or for a slot of one's own past it. -/
def slotOrder (core v : Nat) : List Nat :=
  let order := (List.range 8).map (fun j => core * 8 + (v + j) % 8)
  if v < 8 then order.drop 1 ++ order.take 1 else order

theorem slotThread_eq (s : State) (core slot : Nat) :
    slotThread s core slot = (slotOrder core (bits (slotsOf s core) (4 * slot) 4)).find? (threadReady s) := rfl

theorem mem_slotOrder {core v t : Nat} (h : t ∈ slotOrder core v) : t / 8 = core := by
  have horder : t ∈ (List.range 8).map (fun j => core * 8 + (v + j) % 8) := by
    unfold slotOrder at h
    dsimp only at h
    split at h
    · rw [List.mem_append] at h
      exact h.elim List.mem_of_mem_drop List.mem_of_mem_take
    · exact h
  obtain ⟨j, -, rfl⟩ := List.mem_map.mp horder
  omega

theorem slotThread_spec {s : State} {core slot t : Nat} (h : slotThread s core slot = some t) : threadReady s t = true ∧ t / 8 = core := by
  rw [slotThread_eq] at h
  exact ⟨List.find?_some h, mem_slotOrder (List.mem_of_find?_eq_some h)⟩

/-- A slot with its valid bit set issues the thread that its bits name, when that is ready. -/
theorem slotThread_of_valid {s : State} {core slot v : Nat} (hv : v = bits (slotsOf s core) (4 * slot) 4) (hvalid : 8 ≤ v)
    (hready : threadReady s (core * 8 + v % 8) = true) : slotThread s core slot = some (core * 8 + v % 8) := by
  have horder : slotOrder core v = (core * 8 + v % 8) :: (List.range 7).map (fun j => core * 8 + (v + (j + 1)) % 8) := by
    simp [slotOrder, Nat.not_lt.mpr hvalid, List.range_succ_eq_map (n := 7)]
  rw [slotThread_eq, ← hv, horder, List.find?_cons_of_pos hready]

/-- The slots up to the next that issues a thread: the last of them issues it, and none before (R316). -/
theorem slotsTo_spec {s : State} {tid n : Nat} (h : slotsTo s tid = some n) :
    1 ≤ n ∧ n ≤ 16 ∧ slotThread s (tidCore tid) ((mgetD s.skk.cycles (tidCore tid) 0 + (n - 1)) % 16) = some tid ∧
      ∀ i, i + 1 < n → slotThread s (tidCore tid) ((mgetD s.skk.cycles (tidCore tid) 0 + i) % 16) ≠ some tid := by
  simp only [slotsTo, Option.map_eq_some_iff] at h
  obtain ⟨i, hfind, rfl⟩ := h
  obtain ⟨hi, hmem, hbefore⟩ := List.find?_range_eq_some.mp hfind
  refine ⟨by omega, ?_, by simpa using hi, fun j hj => ?_⟩
  · have := List.mem_range.mp hmem
    omega
  · simpa using hbefore j (by omega)

theorem cycles_issued {s : State} {tid n : Nat} (h : slotsTo s tid = some n) (t : State) :
    mgetD (issued tid s t).skk.cycles (tidCore tid) 0 = mgetD t.skk.cycles (tidCore tid) 0 + n := by
  simp [issued, h, mupd]

/-! ### Commits (R318, R320) -/

section
variable {s : State} {tid ch : Nat} {q : Part} (hq : part? s (partOfChan s ch) = some q) (hmay : mayCommit s tid ch = true)
include hq hmay

/-- A commit that finds room and no commit before it delivers (R318). -/
theorem chCmt_of_room (hrun : q.running = true) (hroom : chanRoom s ch = true) (hfirst : (chanOf s ch).commits = []) (n rd : Nat) (nb : Bool) :
    chCmt tid ch n rd nb s = commitNow tid ch n rd s := by
  simp [chCmt, hq, hmay, hrun, hroom, hfirst]

/-- A commit that does not wait answers 1 where there is no room. -/
theorem chCmt_of_full (hrun : q.running = true) (hfull : chanRoom s ch = false) (n rd : Nat) (nb : Bool) : chCmt tid ch n rd nb s =
    if nb = true then setRd tid rd 1 s
    else block tid (.commit ch n rd) (s.modChan ch (fun c => { c with commits := c.commits ++ [tid] })) := by
  simp [chCmt, hq, hmay, hrun, hfull]

/-- A commit to a stopped partition's channel answers 2. -/
theorem chCmt_of_stopped (hstopped : q.running = false) (n rd : Nat) (nb : Bool) : chCmt tid ch n rd nb s = setRd tid rd 2 s := by
  simp [chCmt, hq, hmay, hstopped]

end

/-! ### Receiving (R319) -/

theorem rdBad_of_out {rd : Nat} (h : rd < 10 ∨ 17 < rd) : rdBad rd = false := by
  simp only [rdBad, Bool.and_eq_false_iff, decide_eq_false_iff_not]
  omega

/-- CH.RD and CH.TRY on a channel of the thread's own partition. -/
theorem chRd_of_owned {s : State} {tid ch rd : Nat} (hrd : rd < 10 ∨ 17 < rd) (howns : (partOf s tid).owns ch = true) (try_ : Bool) :
    chRd tid ch rd try_ s =
      if (chanOf s ch).msgs ≠ [] then receive tid ch rd s
      else if try_ = true then setRd tid rd 0 s
      else block tid (.read ch rd) s := by
  simp [chRd, rdBad_of_out hrd, howns]

/-- CH.WAITANY on channels of the thread's own partition, one of which holds a message. -/
theorem chWaitany_of_ready {s : State} {tid base mask rd i : Nat} (hrd : rd < 10 ∨ 17 < rd) (hbase : base % 64 = 0)
    (howns : ∀ j, j < 64 → bit mask j = true → (partOf s tid).owns (base + j) = true) (hready : anyReady s tid base mask = some i) :
    chWaitany tid base mask rd s = receive tid (base + i) rd (s.modThread tid ({ · with rr := some i })) := by
  have hnone : (List.range 64).find? (fun i => bit mask i && !(partOf s tid).owns (base + i)) = none := by
    simpa using howns
  simp [chWaitany, rdBad_of_out hrd, hbase, hnone, hready, receiveAny]

theorem regs_setReg (t : Thread) (r v : Nat) : (t.setReg r v).regs = if r = 0 then t.regs else mput t.regs r (v % 2 ^ 64) := by
  unfold Thread.setReg
  split <;> rfl

theorem regs_setRd (s : State) (tid rd v : Nat) :
    (threadOf (setRd tid rd v s) tid).regs = if rd = 0 then (threadOf s tid).regs else mput (threadOf s tid).regs rd (v % 2 ^ 64) := by
  rw [setRd, threadOf_modThread_self, regs_setReg]

theorem regs_endWait (s : State) (tid rd v : Nat) :
    (threadOf (endWait tid rd v s) tid).regs = if rd = 0 then (threadOf s tid).regs else mput (threadOf s tid).regs rd (v % 2 ^ 64) := by
  rw [endWait, threadOf_modThread_self]
  exact regs_setReg ..

/-- A thread's registers after a fold that writes its first argument registers. -/
theorem regs_foldl_setRd (ws : Nat → Nat) (n : Nat) (s : State) (tid : Nat) :
    (∀ i, i < n → mgetD (threadOf ((List.range n).foldl (fun s i => setRd tid (10 + i) (ws i) s) s) tid).regs (10 + i) 0 = ws i % 2 ^ 64) := by
  induction n with
  | zero => intro i hi; omega
  | succ n ih =>
    intro i hi
    rw [List.range_succ, List.foldl_append, List.foldl_cons, List.foldl_nil, regs_setRd, if_neg (by omega)]
    by_cases hin : i = n
    · subst hin
      exact mgetD_mput_self ..
    · exact (mgetD_mput_ne _ _ _ (by omega)).trans (ih i (by omega))

/-- A message on a channel that is no fault channel wakes no supervisor (R335). -/
theorem wakeSup_of_ne {s : State} {ch : Nat} (h : ∀ q, part? s (partOfChan s ch) = some q → faultChan q ≠ ch) : wakeSup ch s = s := by
  unfold wakeSup
  split
  · rfl
  next q hq => simp [h q hq]

/-- Nothing waits behind the messages of a channel that is no fault channel (R333). -/
theorem faultRead_of_ne {s : State} {ch : Nat} (h : ∀ q, part? s (partOfChan s ch) = some q → faultChan q ≠ ch) : faultRead ch s = s := by
  unfold faultRead
  dsimp only
  split
  · rfl
  next q hq => simp [h q hq]

/-- The eight words of a message in the thread's argument registers (R319). -/
def wordsRead (tid : Nat) (m : Msg) (s : State) : State := (List.range 8).foldl (fun s i => setRd tid (10 + i) (m.words.getD i 0) s) s

theorem chanOf_wordsRead (tid : Nat) (m : Msg) (s : State) (c : Nat) : chanOf (wordsRead tid m s) c = chanOf s c :=
  foldl_keeps (chanOf · c) (fun s i => setRd tid (10 + i) (m.words.getD i 0) s) (fun _ _ => rfl) _ s

theorem regs_wordsRead (tid : Nat) (m : Msg) (s : State) {i : Nat} (hi : i < 8) :
    mgetD (threadOf (wordsRead tid m s) tid).regs (10 + i) 0 = m.words.getD i 0 % 2 ^ 64 :=
  regs_foldl_setRd (m.words.getD · 0) 8 s tid i hi

theorem parts_endWait (tid rd v : Nat) (s : State) : (endWait tid rd v s).skk.parts = s.skk.parts := rfl

theorem parts_wordsRead (tid : Nat) (m : Msg) (s : State) : (wordsRead tid m s).skk.parts = s.skk.parts :=
  foldl_keeps (·.skk.parts) (fun s i => setRd tid (10 + i) (m.words.getD i 0) s) (fun _ _ => rfl) _ s

section
variable {s : State} {tid ch : Nat} (hno : ∀ q, part? s (partOfChan s ch) = some q → faultChan q ≠ ch)
include hno

theorem receive_eq {m : Msg} {l : List Msg} (hmsgs : (chanOf s ch).msgs = m :: l) (rd : Nat) :
    receive tid ch rd s = endWait tid rd (msgInfo ch m) (wordsRead tid m (s.modChan ch ({ · with msgs := l }))) := by
  have hreceive : receive tid ch rd s =
      faultRead ch (endWait tid rd (msgInfo ch m) (wordsRead tid m (s.modChan ch ({ · with msgs := l })))) := by
    rw [receive, hmsgs]
    rfl
  rw [hreceive]
  refine faultRead_of_ne ?_
  have hparts : (endWait tid rd (msgInfo ch m) (wordsRead tid m (s.modChan ch ({ · with msgs := l })))).skk.parts = s.skk.parts :=
    (parts_endWait ..).trans (parts_wordsRead ..)
  simpa only [part?, partOfChan, hparts] using hno

theorem receive_spec {m : Msg} {l : List Msg} (hmsgs : (chanOf s ch).msgs = m :: l) {rd : Nat} (hrd : rd < 10 ∨ 17 < rd) :
    (chanOf (receive tid ch rd s) ch).msgs = l ∧
      (∀ i, i < 8 → mgetD (threadOf (receive tid ch rd s) tid).regs (10 + i) 0 = m.words.getD i 0 % 2 ^ 64) ∧
      (rd ≠ 0 → mgetD (threadOf (receive tid ch rd s) tid).regs rd 0 = msgInfo ch m % 2 ^ 64) := by
  rw [receive_eq hno hmsgs]
  refine ⟨?_, fun i hi => ?_, fun hrd0 => ?_⟩
  · rw [endWait, chanOf_modThread, chanOf_wordsRead, chanOf_modChan_self]
  · have hword := regs_wordsRead tid m (s.modChan ch ({ · with msgs := l })) hi
    rw [regs_endWait]
    split
    · exact hword
    · rw [mgetD_mput_ne _ _ _ (by omega), hword]
  · rw [regs_endWait, if_neg hrd0, mgetD_mput_self]

/-- A commit on another channel than MGMT0's joins its message, and the thread's staging is empty (R318). -/
theorem commitNow_spec (hmgmt : ch ≠ mgmt0TxChan s ∨ partOfThread s tid ≠ partOfChan s ch) (n rd : Nat) :
    (chanOf (commitNow tid ch n rd s) ch).msgs = (chanOf s ch).msgs ++ [stagedMsg s tid n] ∧
      (threadOf (commitNow tid ch n rd s) tid).staging = [] := by
  have hpush : commitNow tid ch n rd s = chPush ch (stagedMsg s tid n)
      ((s.modThread tid (fun t => { t.setReg rd 0 with state := 2, wait := none, staging := [] })).modChan ch
        (fun c => { c with commits := c.commits.filter (· ≠ tid) })) := by
    refine if_neg ?_
    simp only [Bool.and_eq_true, decide_eq_true_eq, not_and_or]
    exact hmgmt
  rw [hpush, chPush, wakeSup_of_ne (by exact hno)]
  exact ⟨by simp, by simp⟩

end

/-- Settles O43: each instruction's outcome in the case at hand, and what a receive and a commit leave. -/
theorem channelInstructions : Obligations.ChannelInstructions := by
  unfold Obligations.ChannelInstructions
  refine ⟨⟨?settles, ?valid, fun s core slot t => slotThread_spec, ?slots, ?write, ?idle, ?commit, ?commitTry, ?commitWaits, ?commitStopped,
    ?resume, ?read, ?readWaits, ?poll, ?pollNone, ?waitany, ?wakeRead, ?wakeAny, ?readForeign⟩,
    fun tid ch rd s hno => ⟨?received, ?joined, ?sent⟩⟩
  case settles =>
    intro s tid hstep
    simp only [settle, hstep, Bool.false_and, Bool.false_eq_true, if_false, Bool.or_eq_true, decide_eq_true_eq]
    rfl
  case valid => exact fun s core slot v hv hvalid hready => slotThread_of_valid hv hvalid hready
  case slots =>
    intro s tid n h at_
    obtain ⟨h1, h16, hlast, hbefore⟩ := slotsTo_spec h
    exact ⟨h1, h16, hlast, hbefore, cycles_issued h⟩
  case write => exact fun tid i w s hw hrun => run_act hw hrun rfl
  case idle => exact fun tid i w s hw hrun => run_next hw (if_neg (by simp [hrun]))
  case commit =>
    intro tid ch n rd nb s q hw hrun hq hmay hgo hroom hfirst
    exact run_act hw hrun (chCmt_of_room hq hmay hgo hroom hfirst n rd nb)
  case commitTry =>
    intro tid ch n rd s q hw hrun hq hmay hgo hfull
    exact run_act hw hrun ((chCmt_of_full hq hmay hgo hfull n rd true).trans (if_pos rfl))
  case commitWaits =>
    intro tid ch n rd s q hw hrun hq hmay hgo hfull
    refine ⟨_, run_act hw hrun ((chCmt_of_full hq hmay hgo hfull n rd false).trans (if_neg (by decide))), ?_, ?_, ?_⟩
    · rw [state_issued (by simp [block])]
      simp [block]
    · exact (threadOf_issued_view Thread.wait (fun _ _ _ _ _ => rfl) tid s _).trans (by simp [block])
    · simp [block]
  case commitStopped =>
    intro tid ch n rd nb s q hw hrun hq hmay hstopped
    exact run_act hw hrun (chCmt_of_stopped hq hmay hstopped n rd nb)
  case resume =>
    intro tid s ch n rd hw hissues hstate hwait hroom hfirst
    show execChCmtResume tid s = _
    rw [execChCmtResume, run_of_wf hw]
    simp [hstate, hwait, hissues, hroom, hfirst]
  case read =>
    intro tid ch rd s hw hrun hrd howns hmsgs
    exact run_act hw hrun ((chRd_of_owned hrd howns false).trans (if_pos hmsgs))
  case readWaits =>
    intro tid ch rd s hw hrun hrd howns hmsgs
    exact run_act hw hrun ((chRd_of_owned hrd howns false).trans (if_neg (not_not.mpr hmsgs)))
  case poll =>
    intro tid ch rd s hw hrun hrd howns hmsgs
    exact run_act hw hrun ((chRd_of_owned hrd howns true).trans (if_pos hmsgs))
  case pollNone =>
    intro tid ch rd s hw hrun hrd howns hmsgs
    exact run_act hw hrun ((chRd_of_owned hrd howns true).trans (if_neg (not_not.mpr hmsgs)))
  case waitany =>
    intro tid base mask rd s i hw hrun hrd hbase howns hready
    exact run_act hw hrun (chWaitany_of_ready hrd hbase howns hready)
  case wakeRead =>
    intro tid s ch rd hw hissues hstate hwait
    refine run_next hw ?_
    simp [hissues, hstate, hwait]
  case wakeAny =>
    intro tid s base mask rd hw hissues hstate hwait
    refine run_next hw ?_
    simp [hissues, hstate, hwait]
  case readForeign =>
    intro tid ch rd s hw hrun hrd hforeign
    refine run_act hw hrun ?_
    simp [chRd, rdBad_of_out hrd, hforeign]
  case received => exact fun m l hmsgs hrd => receive_spec hno hmsgs hrd
  case joined => exact fun n hmgmt => commitNow_spec hno hmgmt n rd
  case sent =>
    intro n hch hpart
    refine if_pos ?_
    simp only [Bool.and_eq_true, decide_eq_true_eq]
    exact ⟨hch, hpart⟩

end Sys2Proof.Machine
end

section
/-! PROOFS. Threads start, join, exit and are reset; Xtirzu words; the thread-control registers and the channel table (R314, R317, R321,
R327 to R331). -/

namespace Sys2Proof.Machine

/-! ### FORK and JOIN (R329, R330) -/

/-- The thread that a FORK starts. -/
def forkChild (s : State) (tid entry arg rd c : Nat) : Thread :=
  { state := 2, pc := entry, regs := mput [(11, c)] 10 arg, mode := (threadOf s tid).mode, forked := true
    detached := rd = 0, cause := (threadOf s c).cause }

/-- FORK in a cluster partition with a free thread. -/
theorem forkThread_of_pick {s : State} {tid c : Nat} (hcluster : (partOf s tid).cluster = true) (hpick : forkPick s (partOf s tid) = some c)
    (entry arg rd : Nat) : forkThread tid entry arg rd s = setRd tid rd c (s.modThread c (fun _ => forkChild s tid entry arg rd c)) := by
  simp only [forkThread, hcluster, hpick, Bool.not_true, Bool.false_eq_true, if_false]
  rfl

/-- The new thread, once the forking thread's slot is over. -/
theorem threadOf_forked {s : State} {tid c : Nat} (hne : c ≠ tid) (entry arg rd : Nat) :
    threadOf (issued tid s (setRd tid rd c (s.modThread c (fun _ => forkChild s tid entry arg rd c)))) c =
      forkChild s tid entry arg rd c := by
  rw [threadOf_issued_ne hne, setRd, threadOf_modThread_ne hne, threadOf_modThread_self]

theorem regs_forkChild (c arg : Nat) : mgetD (mput [(11, c)] 10 arg) 10 0 = arg ∧ mgetD (mput [(11, c)] 10 arg) 11 0 = c :=
  ⟨mgetD_mput_self .., mgetD_mput_ne _ _ _ (by decide)⟩

/-! ### THREAD.EXIT and TRESET (R330, R331) -/

/-- The exit of a forked thread that nobody has joined yet leaves it to be joined. -/
theorem threadExit_of_forked {s : State} {tid v : Nat} (hv : v ≠ 2 ^ 63) (hsuper : isSuper s tid = false) (hheld : (threadOf s tid).held = [])
    (hforked : (threadOf s tid).forked = true) (hdetached : (threadOf s tid).detached = false) (hjoiner : (threadOf s tid).joiner = none) :
    threadExit tid v s =
      s.modThread tid ({ · with state := 6, exit := v, staging := [], held := [], stepping := false }) := by
  simp only [threadExit, hv, hsuper, hheld, hforked, hdetached, hjoiner, Bool.false_eq_true, if_false, List.foldl_nil, Option.isNone_none,
    Bool.not_false, Bool.and_self, if_true]

/-- A thread that leaves its wait keeps the contexts that it holds. -/
theorem held_leaveWait (t : Nat) (s : State) : (threadOf (leaveWait t s) t).held = (threadOf s t).held := by
  unfold leaveWait
  split
  · rfl
  next y rd hwait =>
    by_cases h : t = y
    · subst h
      rw [threadOf_modThread_self]
    · rw [threadOf_modThread_ne h]
  · rfl

/-! ### Xtirzu words (R317) -/

/-- The fields of a word put together from them. -/
theorem bits_encoding {f7 rs2 rs1 f3 rd i : Nat} (h7 : f7 < 128) (h2 : rs2 < 32) (h1 : rs1 < 32) (h3 : f3 < 8) (hrd : rd < 32)
    (hi : i = f7 * 2 ^ 25 + rs2 * 2 ^ 20 + rs1 * 2 ^ 15 + f3 * 2 ^ 12 + rd * 2 ^ 7 + 0x0B) :
    bits i 25 7 = f7 ∧ bits i 20 5 = rs2 ∧ bits i 15 5 = rs1 ∧ bits i 7 5 = rd ∧ bits i 0 7 = 0x0B ∧ bits i 12 3 = f3 := by
  simp only [bits]
  omega

theorem bit_three_of_lt {n : Nat} (h : n < 16) : bit n 3 = decide (8 ≤ n) := by
  interval_cases n <;> rfl

/-! ### The channel table (R314, R321) -/

/-- An entry's words lie in the channel table. -/
theorem entry_within {ch half : Nat} (hhalf : half < 2) : chanTable ≤ chanTable + 16 * (ch % 4096) + 8 * half ∧
    chanTable + 16 * (ch % 4096) + 8 * half + 8 ≤ chanTable + 0x10000 := by
  omega

/-- The supervisor may store there, and no other thread: neither the windows nor the regions begin so low (R314). -/
theorem mapAllows_entry {s : State} {tid ch half : Nat} (hhalf : half < 2) :
    mapAllows s tid (chanTable + 16 * (ch % 4096) + 8 * half) 8 .store = isSuper s tid := by
  have hlow : ¬ 2 ^ 32 ≤ chanTable + 16 * (ch % 4096) + 8 * half := by
    unfold chanTable
    omega
  have hcipher : ¬ cipherWindow ≤ chanTable + 16 * (ch % 4096) + 8 * half := by
    unfold chanTable cipherWindow
    omega
  have hpacket : ¬ packetWindow ≤ chanTable + 16 * (ch % 4096) + 8 * half := by
    unfold chanTable packetWindow
    omega
  have hcontext : ¬ contextWindow ≤ chanTable + 16 * (ch % 4096) + 8 * half := by
    unfold chanTable contextWindow
    omega
  have hregion (q : Part) : q.inRegion (chanTable + 16 * (ch % 4096) + 8 * half) 8 = false := by
    simp only [Part.inRegion, hlow, decide_false, Bool.false_and]
  obtain ⟨hbase, hend⟩ := entry_within (ch := ch) hhalf
  simp only [mapAllows, hregion, hcipher, hpacket, hcontext, hbase, hend]
  simp

/-- A thread's store to the channel table. -/
theorem run_entryWrite {wf : Bool} {tid ch half : Nat} {f : State → State} {s : State} (hw : wf = true) (hrun : canRun s tid = true)
    (hhalf : half < 2) : run wf (act tid (mapped tid (chanTable + 16 * (ch % 4096) + 8 * half) 8 .store f)) s =
      .next (issued tid s (if isSuper s tid = true then f s else xexception tid 7 (chanTable + 16 * (ch % 4096) + 8 * half) s)) := by
  refine run_act hw hrun ?_
  rw [mapped, mapAllows_entry hhalf]
  rfl

theorem entry_half_of_wf {tid ch half v : Nat} (hw : wfChannelEntryWrite tid ch half v = true) : half < 2 := by
  simp only [wfChannelEntryWrite, Bool.and_eq_true, decide_eq_true_eq] at hw
  omega

/-- The entry that a load reads, with the fault channel's fixed fields in their place (R321). -/
def entryChan (s : State) (tid ch : Nat) : Channel :=
  if faultChan (partOf s tid) = ch then { chanOf s ch with kind := 0, ext := true, armed := false, peer := 0, period := 0, arg := 0 }
  else chanOf s ch

theorem entryRead_of_owned {s : State} {tid ch : Nat} (h : (partOf s tid).owns ch = true) : entryRead s tid ch =
    pack [(2, (entryChan s tid ch).kind), (1, b2n (entryChan s tid ch).ext), (1, b2n (entryChan s tid ch).armed),
      (8, (entryChan s tid ch).peer), (4, 0), (5, (entryChan s tid ch).msgs.length), (11, 0), (32, (entryChan s tid ch).period),
      (64, (entryChan s tid ch).arg)] :=
  if_neg (by simp [h])

theorem msgs_entryChan (s : State) (tid ch : Nat) : (entryChan s tid ch).msgs = (chanOf s ch).msgs := by
  unfold entryChan
  split <;> rfl

/-- The number of messages stands in bits 20 to 16 of an entry's record. -/
theorem bits_pack_count (kind ext armed peer n period arg : Nat) (h : n < 32) :
    bits (pack [(2, kind), (1, ext), (1, armed), (8, peer), (4, 0), (5, n), (11, 0), (32, period), (64, arg)]) 16 5 = n := by
  simp only [pack, bits]
  omega

theorem fixed_pack (n : Nat) : bit (pack [(2, 0), (1, 1), (1, 0), (8, 0), (4, 0), (5, n), (11, 0), (32, 0), (64, 0)]) 2 = true ∧
    bits (pack [(2, 0), (1, 1), (1, 0), (8, 0), (4, 0), (5, n), (11, 0), (32, 0), (64, 0)]) 4 8 = 0 := by
  simp only [pack, bits, bit, beq_iff_eq]
  omega

theorem msgs_entryWrite {v : Nat} (h : bits v 0 2 ≠ 3) (c : Channel) : (entryWrite 0 v c).msgs = [] := by
  simp only [entryWrite, Nat.zero_ne_one, h, if_false, apply_ite Channel.msgs, ite_self]

/-- Settles O44: each instruction's outcome in the case at hand, each word by its fields, and each store to the channel table by who stores. -/
theorem threadControl : Obligations.ThreadControl := by
  unfold Obligations.ThreadControl
  refine ⟨?forkFull, ?fork, ?forkCore, ?joinEnded, ?join, ?joinNone, ?exitBad, ?exitSuper, ?exit, ?release, ?releaseBad, ?releaseDenied, ?reset,
    ?resetDenied, ?wordBad, ?word, ?example_, ?encoding, ?thid, ?tsel, ?entry, ?entryForeign, ?entryDenied, ?readForeign, ?readCount, ?readFault,
    fun v c hv => msgs_entryWrite hv c⟩
  case forkFull =>
    intro tid entry arg rd s hw hrun hcluster hpick
    exact run_act hw hrun (by simp [forkThread, hcluster, hpick])
  case fork =>
    intro tid entry arg rd s c hw hrun hcluster hpick hne _
    obtain ⟨harg, hself⟩ := regs_forkChild c arg
    refine ⟨_, run_act hw hrun (forkThread_of_pick hcluster hpick entry arg rd), ?_⟩
    rw [threadOf_forked hne]
    exact ⟨rfl, rfl, harg, hself, rfl, rfl⟩
  case forkCore =>
    intro tid entry arg rd s hw hrun hcore
    exact run_act hw hrun (by simp [forkThread, hcore])
  case joinEnded =>
    intro tid x rd s hw hrun hjoin hended
    exact run_act hw hrun (by simp [joinThread, hjoin, hended])
  case join =>
    intro tid x rd s hw hrun hjoin hruns
    exact run_act hw hrun (by simp [joinThread, hjoin, hruns])
  case joinNone =>
    intro tid x rd s hw hrun hjoin
    exact run_act hw hrun (by simp [joinThread, hjoin])
  case exitBad => exact fun tid s hw hrun => run_act hw hrun (by rw [threadExit, if_pos rfl])
  case exitSuper =>
    intro tid v s hw hrun hv hsuper
    exact run_act hw hrun (by rw [threadExit, if_neg hv, if_pos hsuper])
  case exit =>
    intro tid v s hw hrun hv hsuper hheld hforked hdetached hjoiner
    refine ⟨_, run_act hw hrun (threadExit_of_forked hv hsuper hheld hforked hdetached hjoiner), ?_, ?_, ?_⟩
    · rw [state_issued] <;> simp
    · exact (threadOf_issued_view Thread.exit (fun _ _ _ _ _ => rfl) tid s _).trans (by simp)
    · exact (threadOf_issued_view Thread.staging (fun _ _ _ _ _ => rfl) tid s _).trans (by simp)
  case release =>
    intro tid x s hw hrun hsuper hparty hstopped
    exact run_act hw hrun (by simp [hsuper, hparty, hstopped])
  case releaseBad =>
    intro tid x s hw hrun hsuper hbad
    have hcond : (!sameParty s tid x || decide ((threadOf s x).state ≠ 0)) = true := by simpa using hbad
    exact run_act hw hrun ((if_neg (by simp [hsuper])).trans (if_pos hcond))
  case releaseDenied =>
    intro tid x s hw hrun hsuper
    exact run_act hw hrun (if_pos (by simp [hsuper]))
  case reset =>
    intro tid x s hw hrun hsuper hparty hne hheld
    exact run_act hw hrun (by simp [hsuper, hparty, hne, held_leaveWait, hheld])
  case resetDenied =>
    intro tid x s hw hrun hsuper
    exact run_act hw hrun (if_pos (by simp [hsuper]))
  case wordBad =>
    intro tid epc i v s hw hrun hbad
    refine (execXtirzuIllegal_of_bad (.inl (by simp [hbad]))).trans (run_act hw hrun ?_)
    rw [if_pos hbad]
  case word =>
    intro tid epc i v s x hw hgood hx
    show execXtirzuIllegal tid epc i v s = _
    rw [execXtirzuIllegal, hw, hgood, hx]
    rfl
  case example_ => decide
  case encoding =>
    intro f7 rs2 rs1 f3 rd h7 h2 h1 h3 hrd
    obtain ⟨e25, e20, e15, e7, e0, e12⟩ := bits_encoding h7 h2 h1 h3 hrd rfl
    rw [xtirzuOf]
    simp only [e25, e20, e15, e7, e0, e12, ne_eq, not_true_eq_false, if_false]
    split <;> grind [bit_three_of_lt]
  case thid =>
    intro tid rd v s hw hrun
    exact run_act hw hrun rfl
  case tsel =>
    intro tid rd v s hw hrun hsuper
    exact run_act hw hrun (by simp [hsuper, tcsrRead, tcsrWrite])
  case entry =>
    intro tid ch half v s hw hrun hsuper howns hne
    refine (run_entryWrite hw hrun (entry_half_of_wf hw)).trans ?_
    rw [if_pos hsuper, if_neg (by simpa [howns] using Ne.symm hne)]
  case entryForeign =>
    intro tid ch half v s hw hrun hsuper hforeign
    refine (run_entryWrite hw hrun (entry_half_of_wf hw)).trans ?_
    rw [if_pos hsuper, if_pos (by simp [hforeign])]
  case entryDenied =>
    intro tid ch half v s hw hrun hsuper
    refine (run_entryWrite hw hrun (entry_half_of_wf hw)).trans ?_
    rw [if_neg (by simp [hsuper])]
  case readForeign => exact fun s tid ch hforeign => if_pos (by simp [hforeign])
  case readCount =>
    intro s tid ch howns hfew
    rw [entryRead_of_owned howns, msgs_entryChan, bits_pack_count _ _ _ _ _ _ _ hfew]
  case readFault =>
    intro s tid howns
    rw [entryRead_of_owned howns, entryChan, if_pos rfl]
    exact fixed_pack _

end Sys2Proof.Machine
end

section
/-! PROOFS. Thread faults, the sentinel and the debugger (R315, R332 to R337). -/

namespace Sys2Proof.Machine

/-- A thread other than the one whose wait ends is as it was. -/
theorem threadOf_endWait_ne {t u : Nat} (h : u ≠ t) (rd v : Nat) (s : State) : threadOf (endWait t rd v s) u = threadOf s u := by
  rw [endWait, threadOf_modThread_ne h]

/-- Waking a supervisor leaves a thread that does not wait where it is, and its cause. -/
theorem state_cause_wakeSup {s : State} {u : Nat} (hstate : (threadOf s u).state ≠ 3) (ch : Nat) :
    (threadOf (wakeSup ch s) u).state = (threadOf s u).state ∧ (threadOf (wakeSup ch s) u).cause = (threadOf s u).cause := by
  unfold wakeSup
  split
  · exact ⟨rfl, rfl⟩
  next p hp =>
    dsimp only
    split
    · exact ⟨rfl, rfl⟩
    next hwaits =>
      have hne : u ≠ supervisorOf p := by
        rintro rfl
        exact hwaits (by simp [hstate])
      have hends (rd v : Nat) (s : State) := threadOf_endWait_ne hne rd v s
      split
      · split
        · exact ⟨rfl, rfl⟩
        · rw [hends]; exact ⟨rfl, rfl⟩
      · split
        · exact ⟨rfl, rfl⟩
        · rw [hends]; exact ⟨rfl, rfl⟩
      next target rd _ =>
        rw [hends]
        by_cases htarget : u = target
        · subst htarget
          rw [threadOf_modThread_self]
          exact ⟨rfl, rfl⟩
        · rw [threadOf_modThread_ne htarget]
          exact ⟨rfl, rfl⟩
      · exact ⟨rfl, rfl⟩

/-- So does the post of a fault message. -/
theorem state_cause_faultPost {s : State} {u : Nat} (hstate : (threadOf s u).state ≠ 3) (p : Nat) (m : Msg) :
    (threadOf (faultPost p m s) u).state = (threadOf s u).state ∧ (threadOf (faultPost p m s) u).cause = (threadOf s u).cause := by
  unfold faultPost
  split
  · exact ⟨rfl, rfl⟩
  next q _ =>
    split
    · exact state_cause_wakeSup (s := s.modChan (faultChan q) _) hstate _
    · rw [threadOf_modPart]
      exact ⟨rfl, rfl⟩

/-- A faulting thread other than the supervisor is in `FAULTED` with its code (R332). -/
theorem threadFault_spec {s : State} {tid : Nat} (hsuper : supervisorOf (partOf s tid) ≠ tid) (code epc tval addr : Nat) :
    (threadOf (threadFault tid code epc tval addr s) tid).state = 5 ∧ (threadOf (threadFault tid code epc tval addr s) tid).cause = code := by
  rw [threadFault, if_neg hsuper]
  refine (fun h : _ ∧ _ => ⟨h.1.trans ?_, h.2.trans ?_⟩) (state_cause_faultPost (u := tid) ?_ _ _)
  all_goals simp

/-- A thread that waits for nothing leaves no wait. -/
theorem leaveWait_of_none {s : State} {t : Nat} (h : (threadOf s t).wait = none) : leaveWait t s = s := by
  rw [leaveWait, h]

/-- Settles O45: each clause is its command's branch; what a fault leaves is `threadFault_spec`. -/
theorem threadFaultsAndDebug : Obligations.ThreadFaultsAndDebug := by
  unfold Obligations.ThreadFaultsAndDebug
  refine ⟨⟨?ecall, ?fault, fun tid code epc tval a s h => threadFault_spec h code epc tval a, ?fire, ?fireNot, ?escalate, ?escalateNot⟩,
    ?halt, ?haltNot, ?resume, ?resumeNot, ?step, ?stepNot⟩
  case ecall =>
    intro tid epc tval s hw hrun hvendor
    exact run_act hw hrun (by simp [hvendor])
  case fault =>
    intro tid code epc tval a s hw hrun hcode
    exact run_act hw hrun (by simp [hcode])
  case fire =>
    intro p s q hw hp hdead hsent
    show execSentinelFire p s = _
    refine run_next hw ?_
    simp [hp, hdead, hsent]
  case fireNot =>
    intro p s q hw hp hdead
    show execSentinelFire p s = _
    refine run_next hw ?_
    simp [hp, hdead]
  case escalate =>
    intro p s q hw hp hsent hheadless haction
    show execSentinelEscalate p s = _
    refine run_next hw ?_
    simp [hp, hsent, hheadless, haction]
  case escalateNot =>
    intro p s q hw hp hsent
    show execSentinelEscalate p s = _
    refine run_next hw ?_
    simp [hp, hsent]
  case halt =>
    intro tid s hw hdebug hstate hwait
    show execDebugHalt tid s = _
    refine run_next hw ?_
    simp [hdebug, hstate, leaveWait_of_none hwait]
  case haltNot =>
    intro tid s hw hdebug
    show execDebugHalt tid s = _
    refine run_next hw ?_
    simp [hdebug]
  case resume =>
    intro tid s hw hdebug hstate hwait
    show execDebugResume tid s = _
    refine run_next hw ?_
    simp [hdebug, hstate, resumeThread, hwait]
  case resumeNot =>
    intro tid s hw hdebug
    show execDebugResume tid s = _
    refine run_next hw ?_
    simp [hdebug]
  case step =>
    intro tid pc s hw hdebug hstate hwait
    show execDebugSingleStep tid (some pc) s = _
    refine run_next hw ?_
    simp [hdebug, hstate, hwait]
  case stepNot =>
    intro tid n s hw hdebug
    show execDebugSingleStep tid n s = _
    refine run_next hw ?_
    simp [hdebug]

end Sys2Proof.Machine
end

section
/-! PROOFS. The debug port and the console (R414, R458 to R460). -/

namespace Sys2Proof.Machine

/-- With the pins taken nothing that they carry is heard. -/
theorem pinsIn_of_taken {s : State} (h : s.dbg.pinsTaken = true) : pinsIn s = false := by simp [pinsIn, h]

/-- Settles O22: each instruction is its branch; a taken pin fails the check that every command over pins makes. -/
theorem debugAccess : Obligations.DebugAccess := by
  unfold Obligations.DebugAccess
  refine ⟨fun s => rfl, fun s => ⟨_, _, rfl, rfl, rfl⟩, fun s => ⟨rfl, rfl, rfl, rfl, rfl⟩, ?bypass,
    fun s => ⟨_, _, rfl, Nat.mod_lt _ (by decide), rfl, rfl⟩, ?token, ?tokenBad, fun s => rfl, ?locked, ?write, ?input, ?inputLocked, ?taken⟩
  case bypass =>
    intro c s hw hother
    refine (run_next hw ?_ : execBypass c s = _)
    rw [if_neg (by rw [hother]; decide)]
    rfl
  case token =>
    intro tok s hw hok
    refine ⟨_, (run_next hw (if_pos hok) : execDbgToken tok s = _), rfl, ?_⟩
    exact bit_or_two_pow _ _
  case tokenBad =>
    intro tok s hw hok
    exact (run_next hw (if_neg (by simp [hok])) : execDbgToken tok s = _)
  case locked =>
    intro sc a v w s hw hscope hdevice
    refine (run_next hw ?_ : execDbgDmi sc w a v s = _)
    simp [hscope, hdevice, jtagRead]
  case write =>
    intro sc a v s hw hscope
    refine (run_next hw ?_ : execDbgDmi sc true a v s = _)
    simp [hscope]
  case input =>
    intro c s hw hpins hscope
    exact (run_next hw (if_pos (by simpa [hpins] using hscope)) : execUartRxInput c s = _)
  case inputLocked =>
    intro c s hw heft hdevice
    exact (run_next hw (if_neg (by simp [heft, hdevice])) : execUartRxInput c s = _)
  case taken =>
    intro s htaken
    have hpins : pinsIn s = false := pinsIn_of_taken htaken
    refine ⟨by simp [i3cOn, hpins], by simp [chainOn, hpins], ?_, ?_, ?_, ?_, ?_, ?_, ?_, ?_⟩
    · exact (run_next (wf := wfPpsInEdge) rfl (if_pos (by simp [hpins])) : execPpsInEdge s = _)
    · exact fun ns hw => (run_next hw (if_pos (by simp [hpins])) : execWakeNAssert ns s = _)
    · exact fun ns low hw => (run_next hw (if_pos (by simp [hpins])) : execAlarmNAssert ns low s = _)
    · exact fun n ns hw => (run_next hw (if_pos (by simp [hpins])) : execHpPerstNAssert n ns s = _)
    · exact fun n hw => (run_next hw (if_neg (by simp [hpins])) : execHpPerstNDeassert n s = _)
    · exact fun n w g f hw => (run_next hw (if_pos (by simp [hpins])) : execDlUp n w g f s = _)
    · exact fun n o f hw => (run_next hw (if_pos (by simp [hpins])) : execLinkTrainingDone n o f s = _)
    · exact fun c hw => (run_next hw (if_neg (by simp [hpins])) : execUartRxInput c s = _)

end Sys2Proof.Machine
end

section
/-! PROOFS. The meters (R376 to R381). -/

namespace Sys2Proof.Machine

/-- The Owner reads every tenant's meters. -/
theorem meterInScope_of_owner {c : Call} (hrole : c.role = 1) (s : State) (tenant : Nat) : meterInScope s c tenant = true := by
  simp [meterInScope, hrole]

@[simp] theorem meterNow_begun (x : XCall) (s : State) (tenant : Nat) : meterNow (begun x s) tenant = meterNow s tenant := by
  simp [meterNow]

@[simp] theorem snapOf_begun (x : XCall) (s : State) (minute : Nat) : snapOf (begun x s) minute = snapOf s minute := by
  simp [snapOf]

theorem snapOf_setDue (s : State) (due : Bool) (minute : Nat) :
    snapOf { s with meter := { s.meter with due } } minute = snapOf s minute := rfl

theorem snapOf_of_valid {s : State} {minute : Nat} {e : Snapshot} (hget : mget? s.meter.ring (minute % 60) = some e)
    (hminute : e.minute = minute) (hvalid : e.valid = true) : snapOf s minute = some e := by
  rw [snapOf, hget]
  exact if_pos (by simp [hminute, hvalid])

section Export
variable {s : State} {e : Snapshot} (hdue : s.meter.due = true) (hsnap : snapOf s s.meter.lastMinute = some e) (hrun : s.phase = .running)
  (hup : mgmtServiceUp s = true)
include hdue hsnap hrun hup

/-- A minute's records, once the snapshot is there and the service runs, go by the mode (R380, R381). -/
theorem meterExport_of_due (hmode : s.meter.export_.mode ≠ 0) (lost : List Nat) : meterExport lost s =
    (let recs := (exportTenants s.meter).map (exportRecord e.recs)
     let u : State := { s with meter := { s.meter with due := false } }
     if s.meter.export_.mode = 1 then recs.foldl (fun s r => exportToRing e.minute r s) u
     else if s.meter.export_.port = 0xFFFF && !mgmt0OfService s then u.bump .exportLoss 0 0 recs.length
     else exportByUdp e.minute lost (recs.length + 1) 0 recs u) := by
  have hserved : ¬ (decide (s.phase ≠ .running) || !mgmtServiceUp s) = true := by simp [hrun, hup]
  unfold meterExport
  dsimp only
  rw [if_neg (by simp [hdue]), if_neg hmode, snapOf_setDue, hsnap]
  exact if_neg hserved

end Export

/-- Settles O48: each form of a read, each way that the records are sent. -/
theorem meterCommands : Obligations.MeterCommands := by
  unfold Obligations.MeterCommands
  refine ⟨?minute, ?minuteReset, ?now, ?past, ?none, ?counter, ?config, ?configRing, ?notDue, ?ring, ?udp, ?foreign⟩
  case minute => exact fun s h => (run_next (wf := wfMinuteBoundary) rfl (if_neg h) : execMinuteBoundary s = _)
  case minuteReset => exact fun s h => (run_next (wf := wfMinuteBoundary) rfl (if_pos h) : execMinuteBoundary s = _)
  case now =>
    intro x r s tenant index h hw hrole
    exact run_repliedTo hw h (by simp [reads, meterInScope_of_owner hrole])
  case past =>
    intro x r s tenant minute e h hw hrole hget hminute hvalid
    exact run_repliedTo hw h (by simp [reads, meterInScope_of_owner hrole, snapOf_of_valid hget hminute hvalid])
  case none =>
    intro x r s tenant minute h hw hrole hsnap
    exact run_turnedAway hw h (by simp [reads, meterInScope_of_owner hrole, hsnap, fails, failsWith])
  case counter =>
    intro x r s tenant index h hw hrole hindex
    exact run_repliedTo hw h (by simp [reads, meterInScope_of_owner hrole, hindex])
  case config =>
    intro x r s c h hw hgood hmode
    exact run_replied hw h (by simp [hgood, hmode])
  case configRing =>
    intro x r s c h hw hgood hmode
    exact run_replied hw h (by simp [hgood, hmode])
  case notDue =>
    intro lost s hw hdue
    refine (run_next hw ?_ : execMeterExport lost s = _)
    simp [meterExport, hdue]
  case ring =>
    intro lost s e hw hdue hmode hsnap hrun hup
    refine (run_next hw ?_ : execMeterExport lost s = _)
    rw [meterExport_of_due hdue hsnap hrun hup (by simp [hmode])]
    exact if_pos hmode
  case udp =>
    intro lost s e hw hdue hmode hsnap hrun hup hport
    refine (run_next hw ?_ : execMeterExport lost s = _)
    rw [meterExport_of_due hdue hsnap hrun hup (by simp [hmode])]
    simp only [hmode, List.length_map]
    have hcarried : ¬ (decide (s.meter.export_.port = 0xFFFF) && !mgmt0OfService s) = true := by simpa [← imp_iff_not_or] using hport
    exact if_neg hcarried
  case foreign =>
    intro lost s e hw hdue hmode hsnap hrun hup hport hforeign
    refine (run_next hw ?_ : execMeterExport lost s = _)
    rw [meterExport_of_due hdue hsnap hrun hup (by simp [hmode])]
    simp [hmode, hport, hforeign]

end Sys2Proof.Machine
end

section
/-! PROOFS. Migration: the tenants that a restore reads stay as they are (R388). -/

namespace Sys2Proof.Machine

/-- A change of a function that leaves its binding leaves every tenant. -/
theorem tenantOf_modFn (s : State) (i : Nat) {f : Fn → Fn} (h : ∀ r, (f r).bound = r.bound ∧ (f r).tenant = r.tenant) :
    tenantOf (s.modFn i f) = tenantOf s := by
  funext j
  obtain ⟨hbound, htenant⟩ : (fnD (s.modFn i f) j).bound = (fnD s j).bound ∧ (fnD (s.modFn i f) j).tenant = (fnD s j).tenant := by
    simp only [fnD, fn?_modFn]
    split
    next hji =>
      subst hji
      cases fn? s j with
      | none => exact ⟨rfl, rfl⟩
      | some r => exact h r
    · exact ⟨rfl, rfl⟩
  simp only [tenantOf, hbound, htenant, allotOf, State.modFn_allots]

theorem tenantOf_modRing (s : State) (i r : Nat) (f : Ring → Ring) : tenantOf (s.modRing i r f) = tenantOf s :=
  tenantOf_modFn s i fun _ => ⟨rfl, rfl⟩

@[simp] theorem tenantOf_emit (s : State) (o : Output) : tenantOf (s.emit o) = tenantOf s := rfl

@[simp] theorem tenantOf_drawBelow (s : State) (n : Nat) : tenantOf (s.drawBelow n).2 = tenantOf s := rfl

@[simp] theorem tenantOf_modCip (s : State) (f : CipherState → CipherState) : tenantOf (s.modCip f) = tenantOf s := rfl

@[simp] theorem tenantOf_modSto (s : State) (f : StorageState → StorageState) : tenantOf (s.modSto f) = tenantOf s := rfl

@[simp] theorem tenantOf_modPkt (s : State) (f : PacketState → PacketState) : tenantOf (s.modPkt f) = tenantOf s := rfl

@[simp] theorem tenantOf_modCtrl (s : State) (i : Nat) (f : Ctrl → Ctrl) : tenantOf (s.modCtrl i f) = tenantOf s := rfl

@[simp] theorem tenantOf_modMbx (s : State) (m : MbxId) (f : Mailbox → Mailbox) : tenantOf (s.modMbx m f) = tenantOf s := by
  cases m <;> rfl

@[simp] theorem tenantOf_bump (s : State) (k : CtrKind) (a b n : Nat) : tenantOf (s.bump k a b n) = tenantOf s := by
  unfold State.bump
  split <;> rfl

@[simp] theorem tenantOf_wakeLink (s : State) (port : Nat) : tenantOf (s.wakeLink port) = tenantOf s := by
  unfold State.wakeLink
  split <;> rfl

@[simp] theorem tenantOf_hostWr (s : State) (i a : Nat) (bs : List Byte) : tenantOf (s.hostWr i a bs) = tenantOf s := by
  have hsent : tenantOf ((writeTlps s i a bs).foldl State.emit (s.wakeLink (fidPort i))) = tenantOf s :=
    (foldl_keeps tenantOf _ tenantOf_emit _ _).trans (tenantOf_wakeLink s _)
  unfold State.hostWr
  split
  · dsimp only
    split
    · exact hsent
    · refine (tenantOf_modFn _ i ?_).trans hsent
      exact fun _ => ⟨rfl, rfl⟩
  · rfl

@[simp] theorem tenantOf_hostRdNow (s : State) (i a n : Nat) : tenantOf (s.hostRdNow i a n) = tenantOf s := by
  unfold State.hostRdNow
  dsimp only
  split
  · rw [foldl_keeps tenantOf _ (fun _ _ => tenantOf_emit _ _), tenantOf_wakeLink]
  · rfl

@[simp] theorem tenantOf_pmeSet (s : State) (i : Nat) : tenantOf (s.pmeSet i) = tenantOf s := by
  simp [State.pmeSet, apply_ite tenantOf, tenantOf_modFn]

@[simp] theorem tenantOf_sendMsix (s : State) (i v : Nat) : tenantOf (s.sendMsix i v) = tenantOf s := by
  simp [State.sendMsix, apply_ite tenantOf, tenantOf_modFn]

@[simp] theorem tenantOf_ringEvent (s : State) (i time code : Nat) (u : Subject) (arg : Nat) :
    tenantOf (s.ringEvent i time code u arg) = tenantOf s := by
  unfold State.ringEvent
  dsimp only
  split
  · rfl
  · split_ifs <;> simp

@[simp] theorem tenantOf_boardRec (s : State) (time code : Nat) (u : Subject) (arg : Nat) : tenantOf (s.boardRec time code u arg) = tenantOf s := by
  unfold State.boardRec
  split
  · rfl
  · dsimp only
    split_ifs
    · exact tenantOf_bump ..
    · rfl
    · rfl

@[simp] theorem tenantOf_deliver (s : State) (time code : Nat) (u : Subject) (arg : Nat) : tenantOf (s.deliver time code u arg) = tenantOf s := by
  have hring (l : List (Nat × Mailbox)) : tenantOf (l.foldl (fun s (fid, m) =>
      match m.events with
      | some e => if e.takes code && hears s fid u then s.ringEvent fid time code u arg else s
      | none => s) s) = tenantOf s := by
    refine foldl_keeps tenantOf _ (fun s e => ?_) l s
    dsimp only
    split
    · split_ifs <;> simp
    · rfl
  unfold State.deliver
  dsimp only
  split
  · split_ifs
    · exact (tenantOf_boardRec ..).trans (hring _)
    · exact hring _
  · exact hring _

@[simp] theorem tenantOf_event (s : State) (code : Nat) (u : Subject) (arg : Nat) : tenantOf (s.event code u arg) = tenantOf s := by
  unfold State.event
  split
  · rfl
  · exact tenantOf_deliver ..

@[simp] theorem tenantOf_setVolState (h new : Nat) (s : State) : tenantOf (setVolState h new s) = tenantOf s := by
  unfold setVolState
  split
  · split_ifs <;> simp
  · rfl

@[simp] theorem tenantOf_volSettle (h : Nat) (s : State) : tenantOf (volSettle h s) = tenantOf s := by
  unfold volSettle
  split <;> simp

@[simp] theorem tenantOf_volOpen (h : Nat) (s : State) : tenantOf (volOpen h s) = tenantOf s := by
  unfold volOpen
  split
  · split_ifs <;> simp
  · rfl

@[simp] theorem tenantOf_volRetry (h : Nat) (s : State) : tenantOf (volRetry h s) = tenantOf s := by
  unfold volRetry
  split
  · split_ifs
    · exact tenantOf_volOpen ..
    · rfl
  · rfl

@[simp] theorem tenantOf_volReopen (slot : Nat) (s : State) : tenantOf (volReopen slot s) = tenantOf s := by
  refine foldl_keeps tenantOf _ (fun s e => ?_) _ s
  split_ifs <;> simp

@[simp] theorem tenantOf_restoreKey (g : Grants) (tenant : Nat) (t : Tlv) (s : State) : tenantOf (restoreKey g tenant t s) = tenantOf s :=
  tenantOf_volReopen ..

@[simp] theorem tenantOf_restoreFn (fid : Nat) (t : Tlv) (s : State) : tenantOf (restoreFn fid t s) = tenantOf s := by
  simp [restoreFn, apply_ite tenantOf, tenantOf_modFn]

@[simp] theorem tenantOf_restoreCtrl (fid : Nat) (t : Tlv) (s : State) : tenantOf (restoreCtrl fid t s) = tenantOf s := by
  unfold restoreCtrl
  dsimp only
  rw [foldl_keeps tenantOf _ (fun _ _ => by simp), tenantOf_modCtrl]

/-- No TLV of a blob rebinds a function. -/
@[simp] theorem tenantOf_restoreTlv (src fid tenant : Nat) (g : Grants) (t : Tlv) (s : State) :
    tenantOf (restoreTlv src fid tenant g t s) = tenantOf s := by
  unfold restoreTlv
  split
  · exact tenantOf_restoreFn ..
  · exact tenantOf_modRing ..
  · exact tenantOf_modFn _ _ fun _ => ⟨rfl, rfl⟩
  · split
    · exact tenantOf_restoreCtrl ..
    · rfl
  · split <;> rfl
  · rfl
  · rfl
  · exact tenantOf_restoreKey ..
  all_goals rfl

/-- So the tenant that each TLV is given is the one before the first. -/
theorem foldl_restoreTlv (src fid tenant : Nat) (g : Grants) (ts : List Tlv) (s : State) (h : tenantOf s fid = tenant) :
    ts.foldl (fun s t => restoreTlv src fid (tenantOf s fid) g t s) s = ts.foldl (fun s t => restoreTlv src fid tenant g t s) s := by
  induction ts generalizing s with
  | nil => rfl
  | cons t ts ih =>
    rw [List.foldl_cons, List.foldl_cons, h]
    exact ih _ (by rw [tenantOf_restoreTlv, h])

/-! ### The commands (R382 to R389) -/

section Turn
variable {x : XCall} {r : Req} {s : State} {fid : Nat} (h : Served x 0x1004 r s) (hw : wfMigSave x fid = true)
  (hport : (callBy x r s).inPort (fidPort fid) = true) (halarm : alarmLatched (begun x s) = false) (hthere : vfThere (begun x s) fid = true)
  (hfrozen : (fnD (begun x s) fid).frozen = true) (hsaved : (fnD (begun x s) fid).saved = false) {key : List Byte}
  (hkey : migMaterial (begun x s) = some key)
  (hroom : 64 + (saveBody (begun x s) fid).length + 8 + 16 ≤ (callBy x r s).room)
include h hw hport halarm hthere hfrozen hsaved hkey hroom

/-- A save whose turn has come (R386). -/
theorem exec_migSave_of_turn {u : State}
    (hturn : migTurn (callBy x r s).fid (64 + (saveBody (begun x s) fid).length + 8 + 16) (begun x s) = (true, u)) :
    let body := saveBody (begun x s) fid
    let w := migMoved (64 + body.length + 8 + 16) u
    let id := Config.freeNat w.free % 2 ^ 64
    let v : State := { w with free := w.free + 1 }
    exec (.migSave x fid) s = .next (replied x r [.arr (blobSeal key id (blobHeader v fid id (body.length + 8)) body)]
      ((saInvalidate fid v).modFn fid ({ · with saved := true }))) := by
  refine run_replied hw h ?_
  simp only [hport, halarm, hthere, hfrozen, hsaved, hkey, Nat.not_lt.mpr hroom, hturn]
  rfl

/-- A save whose turn has not come stays the oldest request of its mailbox. -/
theorem exec_migSave_of_held {u : State}
    (hturn : migTurn (callBy x r s).fid (64 + (saveBody (begun x s) fid).length + 8 + 16) (begun x s) = (false, u)) :
    exec (.migSave x fid) s = .next (u.modMbx x.mbx ({ · with queue := r :: (mbxOf s x.mbx).queue.tail })) := by
  refine run_kept hw h ?_
  simp only [hport, halarm, hthere, hfrozen, hsaved, hkey, Nat.not_lt.mpr hroom, hturn]
  rfl

end Turn

/-- A blob whose parts all fit is installed whole (R388). -/
theorem restoreAll_of_fit {fid saveId src : Nat} {ts : List Tlv} {s v : State} {t1 : Tlv} (hfirst : ts.find? (·.type = 1) = some t1)
    (hgrants : grantShort (t1.ws.take 11) (grantsOf s fid).list = none) (hfits : ∀ t ∈ ts, tlvFits (grantsOf s fid) t = true)
    (hentries : restoreEntries (grantsOf s fid) ((ts.filter (·.type = 11)).map (restoreEntry src fid)) s = some v) :
    restoreAll fid saveId src ts s =
      (let w := (ts.foldl (fun u t => restoreTlv src fid (tenantOf v fid) (grantsOf s fid) t u) v).modFn fid ({ · with saved := false })
       ({ w with migSaves := (saveId :: w.migSaves).take 4096 }, ok)) := by
  have hnone : ts.any (fun t => !tlvFits (grantsOf s fid) t) = false := by simpa using hfits
  simp only [restoreAll, hfirst, hgrants, hnone, hentries, foldl_restoreTlv src fid _ _ ts v rfl, State.modFn_migSaves]
  rfl

/-- Settles O49: each command's branch as its checks choose it, and each owned association by its entry. -/
theorem migrationCommands : Obligations.MigrationCommands := by
  unfold Obligations.MigrationCommands
  refine ⟨⟨?start, ?stop, ?stopPartial, ?bit, ?bitNone, ?freeze, ?drained, ?draining, ?timeout, ?keySet, ?save, ?saveHeld, ?turn, ?restore, ?thaw,
    ?thawSaved⟩, ?sas⟩
  case start =>
    intro x r s fid len bm h hw hport hlen hbm hthere d hfits
    refine run_replied hw h ?_
    simp [hport, hlen, hbm, hthere, d, hfits, d]
  case stop =>
    intro x r s fid d h hw hport hthere hdirty hbeyond
    exact run_replied hw h (by simp [hport, hthere, hdirty, hbeyond])
  case stopPartial =>
    intro x r s fid d h hw hport hthere hdirty hbeyond
    exact run_turnedAway hw h (by simp [hport, hthere, hdirty, hbeyond])
  case bit =>
    intro fid p s d hw hdirty hdue
    refine (run_next hw ?_ : execDirtyBitWrite fid p s = _)
    simp [hdirty, hdue]
  case bitNone =>
    intro fid p s hw hdirty
    refine (run_next hw ?_ : execDirtyBitWrite fid p s = _)
    simp [hdirty]
  case freeze =>
    intro x r s fid h hw hport hthere hbound
    exact run_held hw h (by simp [hport, hthere, hbound])
  case drained =>
    intro fid s hw hfrozen hdrained
    exact (run_next hw (if_neg (by simp [hfrozen, hdrained])) : execMigFreezeDrainDone fid s = _)
  case draining =>
    intro fid s hw hdrained
    exact (run_next hw (if_pos (by simp [hdrained])) : execMigFreezeDrainDone fid s = _)
  case timeout => exact fun fid s hw => (run_next hw rfl : execMigFreezeTimeout fid s = _)
  case keySet =>
    intro x r s k h hw hlt htype husage howner
    have hslot : keySlot (begun x s) k = keySlot s k := by simp [keySlot]
    exact run_replied hw h (by simp [hslot, hlt, htype, husage, howner])
  case save =>
    intro x r s fid key h hw hport halarm hthere hfrozen hsaved hkey u body hroom turn hturn
    exact exec_migSave_of_turn h hw hport halarm hthere hfrozen hsaved hkey hroom (Prod.ext hturn rfl)
  case saveHeld =>
    intro x r s fid key h hw hport halarm hthere hfrozen hsaved hkey n hroom turn hturn
    exact exec_migSave_of_held h hw hport halarm hthere hfrozen hsaved hkey hroom (Prod.ext hturn rfl)
  case turn => exact fun fid n s hbp => if_pos hbp
  case restore =>
    intro x r s fid blob key ts h hw hport halarm hthere hfrozen hkey hok turn hturn u id n kw g src hseal hwrap hkind hnew hread t1 hfirst hgrants
      hfits v hentries w
    have hturn' : migTurn (callBy x r s).fid blob.length (begun x s) = (true, turn.2) := Prod.ext hturn rfl
    refine run_replied hw h ?_
    simp only [hport, halarm, hthere, hfrozen, hkey, hok, hturn', Bool.not_true, Bool.or_self, Bool.false_eq_true, if_false]
    refine (if_neg ?sealed).trans ((if_neg ?kind).trans ((if_neg ?new).trans ?_))
    case sealed => simp [hseal, hwrap, kw, n, id]
    case kind => simp [hkind, u]
    case new => simpa using hnew
    rw [hread]
    exact restoreAll_of_fit hfirst hgrants hfits hentries
  case thaw =>
    intro x r s fid h hw hport hthere hfrozen hsaved
    exact run_replied hw h (by simp [hport, hthere, hfrozen, hsaved])
  case thawSaved =>
    intro x r s fid h hw hport hsaved
    exact run_turnedAway hw h (by simp [hport, hsaved, fails, failsWith])
  case sas =>
    intro fid s n hthere
    obtain ⟨a, ha⟩ := Option.isSome_iff_exists.mp hthere
    simp only [saOf, saInvalidate, State.modCip, mgetD, mget?_mmap, ha, Option.map_some, Option.getD_some]
    exact ⟨fun howner => if_pos howner, fun hother => if_neg hother⟩

end Sys2Proof.Machine
end

section
/-! PROOFS. What almost every function keeps: the rules of the view. -/
namespace Sys2Proof.Machine

/-- The Eft's registers but for the events that it holds back. -/
def Eft.quiet (e : Eft) : Eft := { e with deferred := [] }

@[simp] theorem Eft.quiet_deferred (e : Eft) (l : List (Nat × Nat × Subject × Nat)) : Eft.quiet { e with deferred := l } = e.quiet := by
  simp only [Eft.quiet]

/-- What a function of the model keeps unless it is about it: the commands behind this one, what the device as a whole is doing, the
reference clocks that have stopped, the Eft's registers but for the events held back, and the byte memories. -/
def State.core (s : State) : List Instr × Phase × Nat × Eft × List Host.Cell × List Host.Cell × List Host.Cell :=
  (s.pending, s.phase, s.pins.clkStopped, s.eft.quiet, s.exch, s.region, s.pkt.scratch)

/-- The view of a state given by its fields. (Proved by rewriting, so that `simp` gives it a proof under a binder too.) -/
@[simp] theorem State.core_mk (pending phase pins time tick ppsLocked ptpLocked pow flt wear nv eft octMode lanes ports hps fns unprov mbxs
    boardMbx allots wins exch ghosts region reads pkt sto cip skk meter migKey migSaves i3c chain dbg ctr free out) :
    (State.mk pending phase pins time tick ppsLocked ptpLocked pow flt wear nv eft octMode lanes ports hps fns unprov mbxs boardMbx allots wins
      exch ghosts region reads pkt sto cip skk meter migKey migSaves i3c chain dbg ctr free out).core =
      (pending, phase, pins.clkStopped, eft.quiet, exch, region, pkt.scratch) := by
  rw [State.core]

@[simp] theorem State.core_fold (s : State) : (s.pending, s.phase, s.pins.clkStopped, s.eft.quiet, s.exch, s.region, s.pkt.scratch) = s.core := by
  rw [State.core]

@[simp] theorem foldl_core {α : Type} {f : State → α → State} (h : ∀ s x, (f s x).core = s.core) (l : List α) (s : State) :
    (l.foldl f s).core = s.core := foldl_keeps State.core f h l s

@[simp] theorem ite_core (p : Prop) [Decidable p] (s t : State) : (if p then s else t).core = if p then s.core else t.core := apply_ite ..

@[simp] theorem State.modPkt_core {s : State} {f : PacketState → PacketState} (h : ∀ p, (f p).scratch = p.scratch) :
    (s.modPkt f).core = s.core := by
  simp [State.modPkt, h]

/-- A state that comes with something else, as a match gives it. -/
theorem core_of_snd {α : Type} {p : α × State} {a : α} {t : State}
    {c : List Instr × Phase × Nat × Eft × List Host.Cell × List Host.Cell × List Host.Cell}
    (h : p.2.core = c) (e : p = (a, t)) : t.core = c := by
  rwa [e] at h

theorem core_of_fst {α : Type} {p : State × α} {a : α} {t : State}
    {c : List Instr × Phase × Nat × Eft × List Host.Cell × List Host.Cell × List Host.Cell}
    (h : p.1.core = c) (e : p = (t, a)) : t.core = c := by
  rwa [e] at h

@[simp] theorem State.modSlot_core (s : State) (i : Nat) (f : Slot → Slot) : (State.modSlot s i f).core = s.core := by
  simp [State.modSlot]

@[simp] theorem State.emit_core (s : State) (o : Output) : (State.emit s o).core = s.core := by
  simp [State.emit]

@[simp] theorem State.chainSend_core (s : State) (type dst : Nat) (bcast : Bool) (part data : Nat) :
    (State.chainSend s type dst bcast part data).core = s.core := by
  simp [State.chainSend]

@[simp] theorem bootLog_core (s : State) : (bootLog s).core = s.core := by
  simp [bootLog]

@[simp] theorem State.drawBelow_core (s : State) (n : Nat) : (State.drawBelow s n).2.core = s.core := by
  simp [State.drawBelow]

@[simp] theorem State.wakeLink_core (s : State) (port : Nat) : (State.wakeLink s port).core = s.core := by
  simp [State.wakeLink]

@[simp] theorem State.hostRdNow_core (s : State) (fid addr len : Nat) : (State.hostRdNow s fid addr len).core = s.core := by
  simp [State.hostRdNow]

@[simp] theorem State.bump_core (s : State) (kind : CtrKind) (a b n : Nat) : (State.bump s kind a b n).core = s.core := by
  simp [State.bump]

@[simp] theorem State.modMbx_core (s : State) (m : MbxId) (f : Mailbox → Mailbox) : (State.modMbx s m f).core = s.core := by
  unfold State.modMbx
  split <;> simp

@[simp] theorem State.modFn_core (s : State) (fid : Nat) (f : Fn → Fn) : (State.modFn s fid f).core = s.core := by
  unfold State.modFn
  split <;> simp

@[simp] theorem State.hostWr_core (s : State) (fid addr : Nat) (bs : List Byte) : (State.hostWr s fid addr bs).core = s.core := by
  unfold State.hostWr
  dsimp only
  repeat' split
  all_goals simp

@[simp] theorem State.pmeSet_core (s : State) (fid : Nat) : (State.pmeSet s fid).core = s.core := by
  simp [State.pmeSet]

@[simp] theorem State.sendMsix_core (s : State) (fid v : Nat) : (State.sendMsix s fid v).core = s.core := by
  simp [State.sendMsix]

@[simp] theorem State.ringEvent_core (s : State) (fid time code : Nat) (subj : Subject) (arg : Nat) :
    (State.ringEvent s fid time code subj arg).core = s.core := by
  unfold State.ringEvent
  dsimp only
  repeat' split
  all_goals simp

@[simp] theorem State.boardRec_core (s : State) (time code : Nat) (subj : Subject) (arg : Nat) :
    (State.boardRec s time code subj arg).core = s.core := by
  unfold State.boardRec
  split <;> simp

@[simp] theorem State.deliver_core (s : State) (time code : Nat) (subj : Subject) (arg : Nat) :
    (State.deliver s time code subj arg).core = s.core := State.deliver_view State.core (by simp) (by simp) s time code subj arg

@[simp] theorem State.event_core (s : State) (code : Nat) (subj : Subject) (arg : Nat) : (State.event s code subj arg).core = s.core := by
  simp [State.event]

@[simp] theorem State.modCip_core (s : State) (f : CipherState → CipherState) : (State.modCip s f).core = s.core := by
  simp [State.modCip]

@[simp] theorem State.modSto_core (s : State) (f : StorageState → StorageState) : (State.modSto s f).core = s.core := by
  simp [State.modSto]

@[simp] theorem setVolState_core (h new : Nat) (s : State) : (setVolState h new s).core = s.core := by
  unfold setVolState
  split <;> simp

@[simp] theorem lockVolumes_core (p : Nat → Bool) (s : State) : (lockVolumes p s).core = s.core := by
  simp [lockVolumes]

@[simp] theorem State.record_core (s : State) (dkind unit source action state detail : Nat) :
    (State.record s dkind unit source action state detail).core = s.core := by
  simp [State.record]

@[simp] theorem alarmAdds_core (s : State) : (alarmAdds s).core = s.core := by
  simp [alarmAdds]

@[simp] theorem cipherAlarm_core (src : Nat) (s : State) : (cipherAlarm src s).core = s.core := by
  unfold cipherAlarm
  split <;> simp

@[simp] theorem alarmLevels_core (s : State) : (alarmLevels s).core = s.core := by
  simp [alarmLevels]

@[simp] theorem State.draw_core (s : State) : (State.draw s).2.core = s.core := by
  simp [State.draw]

@[simp] theorem bootCipher_core (s : State) : (bootCipher s).core = s.core := by
  simp [bootCipher]

@[simp] theorem State.modPad_core (s : State) (b : Nat) (f : Pad → Pad) : (State.modPad s b f).core = s.core := by
  simp [State.modPad]

@[simp] theorem compFault_core (s : State) : (compFault s).core = s.core := by
  simp [compFault]

@[simp] theorem installPatches_core (sl : Slot) (pads : List Nat) (s : State) : (installPatches sl pads s).core = s.core := by
  simp [installPatches]

@[simp] theorem bootPacket_core (s : State) : (bootPacket s).core = s.core := by
  simp [bootPacket, State.draw, State.drawBelow]

@[simp] theorem State.modPart_core (s : State) (p : Nat) (f : Part → Part) : (State.modPart s p f).core = s.core := by
  unfold State.modPart
  split <;> simp

@[simp] theorem State.modThread_core (s : State) (tid : Nat) (f : Thread → Thread) : (State.modThread s tid f).core = s.core := by
  simp [State.modThread]

@[simp] theorem endWait_core (tid rd v : Nat) (s : State) : (endWait tid rd v s).core = s.core := by
  simp [endWait]

@[simp] theorem commitsFail_core (q : Part) (s : State) : (commitsFail q s).core = s.core := by
  refine foldl_core (fun s e => ?_) _ s
  refine foldl_core (fun s tid => ?_) _ s
  split <;> simp

@[simp] theorem ctxFreeze_core (i : Nat) (on : Bool) (s : State) : (ctxFreeze i on s).core = s.core := by
  simp [ctxFreeze]

@[simp] theorem ctxRelease_core (i : Nat) (s : State) : (ctxRelease i s).core = s.core := by
  simp [ctxRelease]

@[simp] theorem pauseSync_core (o : Nat) (s : State) : (pauseSync o s).core = s.core := by
  unfold pauseSync
  dsimp only
  split <;> simp

@[simp] theorem State.issueRead_core (s : State) (w : Read) : (State.issueRead s w).core = s.core := by
  simp [State.issueRead]

@[simp] theorem State.pumpReads_core (s : State) : (State.pumpReads s).core = s.core := by
  simp [State.pumpReads]

@[simp] theorem State.hostRd_core (s : State) (fid addr len : Nat) (purpose : ReadFor) : (State.hostRd s fid addr len purpose).core = s.core := by
  simp [State.hostRd]

@[simp] theorem readBufs_core (fid r : Nat) (s : State) : (readBufs fid r s).core = s.core := by
  simp [readBufs]

@[simp] theorem kick_core (fid r : Nat) (s : State) : (kick fid r s).core = s.core := by
  simp [kick]

@[simp] theorem kickAll_core (fid : Nat) (s : State) : (kickAll fid s).core = s.core := by
  simp [kickAll]

@[simp] theorem bpAct_core (o : Nat) (on : Bool) (s : State) : (bpAct o on s).core = s.core := by
  simp [bpAct]

@[simp] theorem State.modOwner_core (s : State) (o : Nat) (f : Owner → Owner) : (State.modOwner s o f).core = s.core := by
  simp [State.modOwner]

@[simp] theorem bpRelease_core (s : State) : (bpRelease s).core = s.core := by
  simp [bpRelease]

@[simp] theorem bumpOwner_core (k pool : CtrKind) (o : Nat) (s : State) : (bumpOwner k pool o s).core = s.core := by
  simp [bumpOwner]

@[simp] theorem bpAssert_core (cause o : Nat) (s : State) : (bpAssert cause o s).core = s.core := by
  simp [bpAssert]

@[simp] theorem bpSweep_core (s : State) : (bpSweep s).core = s.core := by
  simp [bpSweep]

@[simp] theorem freeCells_core (o n : Nat) (s : State) : (freeCells o n s).core = s.core := by
  simp [freeCells]

@[simp] theorem handleFree_core (h : Nat) (s : State) : (handleFree h s).core = s.core := by
  unfold handleFree
  split <;> simp

@[simp] theorem partStop_core (p : Nat) (s : State) : (partStop p s).core = s.core := by
  unfold partStop
  split <;> simp

@[simp] theorem partStart_core (p : Nat) (s : State) : (partStart p s).core = s.core := by
  unfold partStart
  split <;> simp

@[simp] theorem State.putVol_core (s : State) (h : Nat) (v : Volume) : (State.putVol s h v).core = s.core := by
  simp [State.putVol]

@[simp] theorem volSettle_core (h : Nat) (s : State) : (volSettle h s).core = s.core := by
  unfold volSettle
  split <;> simp

@[simp] theorem volOpen_core (h : Nat) (s : State) : (volOpen h s).core = s.core := by
  unfold volOpen
  split <;> simp

@[simp] theorem nextTag_core (s : State) : (nextTag s).2.core = s.core := by
  simp [nextTag]

@[simp] theorem noteAdmitted_core (a : Nat) (s : State) : (noteAdmitted a s).core = s.core := by
  simp [noteAdmitted]

@[simp] theorem storageCharge_core (n : Nat) (s : State) : (storageCharge n s).core = s.core := by
  simp [storageCharge]

@[simp] theorem tcpFrame_core (k : Backend) (c : Conn) (ack : Nat) (payload : List Byte) (s : State) :
    (tcpFrame k c ack payload s).2.core = s.core := by
  simp [tcpFrame]

@[simp] theorem State.modBack_core (s : State) (b : Nat) (f : Backend → Backend) : (State.modBack s b f).core = s.core := by
  simp [State.modBack]

@[simp] theorem State.modConn_core (s : State) (b q : Nat) (f : Conn → Conn) : (State.modConn s b q f).core = s.core := by
  simp [State.modConn]

@[simp] theorem State.modRing_core (s : State) (fid r : Nat) (f : Ring → Ring) : (State.modRing s fid r f).core = s.core := by
  simp [State.modRing]

@[simp] theorem announce_core (fid c : Nat) (s : State) : (announce fid c s).core = s.core := by
  simp [announce]

@[simp] theorem moderate_core (fid c : Nat) (s : State) : (moderate fid c s).core = s.core := by
  simp [moderate]

@[simp] theorem cplWrite_core (fid c : Nat) (es : List Cpl) (s : State) : (cplWrite fid c es s).core = s.core := by
  simp [cplWrite]

@[simp] theorem txFlush_core (fid r : Nat) (s : State) : (txFlush fid r s).core = s.core := by
  simp [txFlush]

@[simp] theorem txNote_core (src : Source) (f : TxPkt → TxPkt) (s : State) : (txNote src f s).core = s.core := by
  unfold txNote
  split <;> simp

@[simp] theorem txDrop_core (src : Source) (reason : Nat) (s : State) : (txDrop src reason s).core = s.core := by
  simp [txDrop]

@[simp] theorem dropPkt_core (k : Pkt) (reason : Nat) (s : State) : (dropPkt k reason s).core = s.core := by
  simp [dropPkt]

@[simp] theorem toIngress_core (k : Pkt) (s : State) : (toIngress k s).core = s.core := by
  simp [toIngress]

@[simp] theorem connSend_core (b q : Nat) (bs : List Byte) (s : State) : (connSend b q bs s).core = s.core := by
  simp [connSend]

@[simp] theorem backSend_core (b tag op lba len : Nat) (data : List Byte) (s : State) : (backSend b tag op lba len data s).core = s.core := by
  simp [backSend]

@[simp] theorem backGo_core (b : BackCmd) (s : State) : (backGo b s).core = s.core := by
  simp [backGo]

@[simp] theorem backPump_core (s : State) : (backPump s).core = s.core := by
  simp [backPump]

@[simp] theorem noteRefused_core (a : Nat) (s : State) : (noteRefused a s).core = s.core := by
  simp [noteRefused]

@[simp] theorem backIssue_core (backend rep op : Nat) (for_ : BackFor) (off len lba : Nat) (data : List Byte) (s : State) :
    (backIssue backend rep op for_ off len lba data s).core = s.core := by
  simp [backIssue]

@[simp] theorem zeroNext_core (h i off : Nat) (s : State) : (zeroNext h i off s).core = s.core := by
  unfold zeroNext
  split <;> simp

@[simp] theorem volZero_core (h : Nat) (s : State) : (volZero h s).core = s.core := by
  unfold volZero
  split <;> simp

@[simp] theorem volBoot_core (h : Nat) (s : State) : (volBoot h s).core = s.core := by
  unfold volBoot
  split <;> simp

@[simp] theorem backConnect_core (b : Nat) (nqn : List Byte) (s : State) : (backConnect b nqn s).core = s.core := by
  simp [backConnect]

@[simp] theorem bootStorage_core (s : State) : (bootStorage s).core = s.core := by
  simp [bootStorage]

@[simp] theorem startVendor_core (f : Part → Bool) (s : State) : (startVendor f s).core = s.core := by
  simp [startVendor]

@[simp] theorem wakeSkink_core (s : State) : (wakeSkink s).core = s.core := by
  simp [wakeSkink]

@[simp] theorem State.modCtrl_core (s : State) (fid : Nat) (f : Ctrl → Ctrl) : (State.modCtrl s fid f).core = s.core := by
  simp [State.modCtrl]

@[simp] theorem lockRelease_core (seq : Nat) (s : State) : (lockRelease seq s).core = s.core := by
  simp [lockRelease]

@[simp] theorem ckvDrop_core (l : List Nat) (s : State) : (ckvDrop l s).core = s.core := by
  simp [ckvDrop]

@[simp] theorem shutdownCheck_core (fid : Nat) (s : State) : (shutdownCheck fid s).core = s.core := by
  simp [shutdownCheck]

@[simp] theorem nvRelease_core (seq : Nat) (s : State) : (nvRelease seq s).core = s.core := by
  unfold nvRelease
  split <;> simp

@[simp] theorem State.modCmd_core (s : State) (seq : Nat) (f : NvCmd → NvCmd) : (State.modCmd s seq f).core = s.core := by
  simp [State.modCmd]

@[simp] theorem nvDone_core (seq sct sc : Nat) (dnr : Option Bool) (s : State) : (nvDone seq sct sc dnr s).core = s.core := by
  unfold nvDone
  dsimp only
  repeat' split
  all_goals simp

@[simp] theorem nvOk_core (seq : Nat) (s : State) : (nvOk seq s).core = s.core := by
  simp [nvOk]

@[simp] theorem asyncPump_core (fid : Nat) (s : State) : (asyncPump fid s).core = s.core := by
  unfold asyncPump
  dsimp only
  split <;> simp

@[simp] theorem asyncEvent_core (fid t i l : Nat) (s : State) : (asyncEvent fid t i l s).core = s.core := by
  simp [asyncEvent]

@[simp] theorem minuteBoundary_core (s : State) : (minuteBoundary s).core = s.core := by
  simp [minuteBoundary]

@[simp] theorem wakeSup_core (ch : Nat) (s : State) : (wakeSup ch s).core = s.core := by
  unfold wakeSup
  dsimp only
  repeat' split
  all_goals simp

@[simp] theorem State.modChan_core (s : State) (ch : Nat) (f : Channel → Channel) : (State.modChan s ch f).core = s.core := by
  simp [State.modChan]

@[simp] theorem chPush_core (ch : Nat) (m : Msg) (s : State) : (chPush ch m s).core = s.core := by
  simp [chPush]

@[simp] theorem timerFire_core (ch : Nat) (s : State) : (timerFire ch s).core = s.core := by
  simp [timerFire]

@[simp] theorem leapTrigger_core (spread : Nat) (s : State) : (leapTrigger spread s).core = s.core := by
  simp [leapTrigger]

@[simp] theorem fireTimed_core (old : Nat) (s : State) : (fireTimed old s).core = s.core := by
  unfold fireTimed
  dsimp only
  split <;> simp

@[simp] theorem moveTime_core (t : Nat) (s : State) : (moveTime t s).core = s.core := by
  simp [moveTime]

@[simp] theorem countLapse_core (old : List (Nat × Nat)) (el : List (Nat × Nat)) (s : State) (r : EpochReq) :
    (countLapse old el s r).core = s.core := by
  simp [countLapse]

@[simp] theorem countIdle_core (reqs : List EpochReq) (s : State) (e : Nat × Nat) : (countIdle reqs s e).core = s.core := by
  simp [countIdle]

@[simp] theorem lockAdd_core (l : List Lock) (s : State) : (lockAdd l s).core = s.core := by
  simp [lockAdd]

@[simp] theorem rebuildPump_core (a a1 : Nat) (s : State) : (rebuildPump a a1 s).core = s.core := by
  induction a generalizing s with
  | zero => rfl
  | succ fuel ih =>
    rw [rebuildPump]
    split
    · rfl
    · dsimp only
      split_ifs <;> simp [ih]

@[simp] theorem rebuildStart_core (h : Nat) (reps : List Nat) (s : State) : (rebuildStart h reps s).core = s.core := by
  unfold rebuildStart
  split <;> simp

@[simp] theorem autoRebuild_core (h : Nat) (s : State) : (autoRebuild h s).core = s.core := by
  unfold autoRebuild
  split <;> simp

@[simp] theorem storageTick_core (s : State) : (storageTick s).core = s.core := by
  simp [storageTick]

@[simp] theorem touchCache_core (k : Nat) (s : State) : (touchCache k s).core = s.core := by
  simp [touchCache]

theorem startOne_core (s : State) : ∀ {t}, startOne s = some t → t.core = s.core := by
  unfold startOne
  dsimp only
  repeat' split
  all_goals simp

@[simp] theorem pumpCipher_core (a : Nat) (s : State) : (pumpCipher a s).core = s.core := by
  induction a generalizing s with
  | zero => rfl
  | succ fuel ih =>
    rw [pumpCipher]
    split
    next t h => simp [ih, startOne_core _ h]
    · simp

@[simp] theorem avsWrite_core (v : Nat) (s : State) : (avsWrite v s).core = s.core := by
  simp [avsWrite]

@[simp] theorem State.modUnit_core (s : State) (kind phys : Nat) (f : WearUnit → WearUnit) : (State.modUnit s kind phys f).core = s.core := by
  simp [State.modUnit]

@[simp] theorem State.setDom_core (s : State) (d : Dom) (r : DomRec) : (State.setDom s d r).core = s.core := by
  simp [State.setDom]

@[simp] theorem State.updFaultN_core (s : State) : (State.updFaultN s).core = s.core := by
  simp [State.updFaultN]

@[simp] theorem regrowBegin_core (kind phys spare source : Nat) (s : State) : (regrowBegin kind phys spare source s).core = s.core := by
  unfold regrowBegin
  split <;> simp

@[simp] theorem autoRegrow_core (kind phys source : Nat) (s : State) : (autoRegrow kind phys source s).core = s.core := by
  unfold autoRegrow
  repeat' split
  all_goals simp

@[simp] theorem markWorn_core (kind phys : Nat) (s : State) : (markWorn kind phys s).core = s.core := by
  simp [markWorn]

@[simp] theorem governorLoop_core (s : State) : (governorLoop s).core = s.core := by
  unfold governorLoop
  split <;> simp

@[simp] theorem noteBaseline_core (cluster : Bool) (unit rate : Nat) (s : State) : (noteBaseline cluster unit rate s).core = s.core := by
  simp [noteBaseline]

@[simp] theorem backDrop_core (p : BackCmd → Bool) (s : State) : (backDrop p s).core = s.core := by
  simp [backDrop]

@[simp] theorem cmdOff_core (c : NvCmd) (s : State) : (cmdOff c s).core = s.core := by
  simp [cmdOff]

@[simp] theorem nvmeFence_core (fid : Nat) (s : State) : (nvmeFence fid s).core = s.core := by
  simp [nvmeFence]

@[simp] theorem State.killReads_core (s : State) (p : Read → Bool) : (State.killReads s p).core = s.core := by
  simp [State.killReads]

@[simp] theorem State.killFenced_core (s : State) (fid : Nat) : (State.killFenced s fid).core = s.core := by
  simp [State.killFenced]

@[simp] theorem fenceFn_core (cause : Option Nat) (fid : Nat) (s : State) : (fenceFn cause fid s).core = s.core := by
  simp [fenceFn]

@[simp] theorem fencePort_core (s : State) (n : Nat) : (fencePort s n).core = s.core := by
  simp [fencePort]

@[simp] theorem dropRef_core (n : Nat) (s : State) : (dropRef n s).core = s.core := by
  unfold dropRef
  split <;> simp

@[simp] theorem leaveQueue_core (q : Nat) (c : Copy) (s : State) : (leaveQueue q c s).core = s.core := by
  simp [leaveQueue]

@[simp] theorem dropHead_core (q : Nat) (c : Copy) (reason : Nat) (s : State) : (dropHead q c reason s).core = s.core := by
  simp [dropHead]

@[simp] theorem dropCopies_core (q : Nat) (pass : Copy → Bool) (reason : Nat) (s : State) : (dropCopies q pass reason s).core = s.core := by
  simp [dropCopies]

@[simp] theorem dropWhere_core (pass : Nat → Copy → Bool) (reason : Nat) (s : State) : (dropWhere pass reason s).core = s.core := by
  simp [dropWhere]

@[simp] theorem pipelineFencedDrop_core (k : Nat) (s : State) : (pipelineFencedDrop k s).core = s.core := by
  simp [pipelineFencedDrop]

@[simp] theorem finalFence_core (d : Dom) (source action detail : Nat) (s : State) : (finalFence d source action detail s).core = s.core := by
  unfold finalFence
  repeat' split
  all_goals simp

@[simp] theorem resumeHosts_core (pipe : Nat) (old s : State) : (resumeHosts pipe old s).core = s.core := by
  simp [resumeHosts]

@[simp] theorem State.meterAdd_core (s : State) (tenant idx n : Nat) : (State.meterAdd s tenant idx n).core = s.core := by
  simp [State.meterAdd]

@[simp] theorem meterIn_core (tenant cls bytes : Nat) (s : State) : (meterIn tenant cls bytes s).core = s.core := by
  simp [meterIn]

@[simp] theorem pipelineContain_core (k : Nat) (s : State) : (pipelineContain k s).core = s.core := by
  simp [pipelineContain]

@[simp] theorem clusterContain_core (c : Nat) (s : State) : (clusterContain c s).core = s.core := by
  simp [clusterContain]

@[simp] theorem aesContain_core (iru : Bool) (u : Nat) (s : State) : (aesContain iru u s).core = s.core := by
  simp [aesContain]

@[simp] theorem keyStoreContain_core (s : State) : (keyStoreContain s).core = s.core := by
  simp [keyStoreContain]

@[simp] theorem nvmeFatal_core (fid : Nat) (s : State) : (nvmeFatal fid s).core = s.core := by
  simp [nvmeFatal]

@[simp] theorem storageContain_core (s : State) : (storageContain s).core = s.core := by
  simp [storageContain]

@[simp] theorem containDom_core (d : Dom) (s : State) : (containDom d s).core = s.core := by
  cases d <;> simp [containDom]

@[simp] theorem originalFault_core (d : Dom) (source detail : Nat) (s : State) : (originalFault d source detail s).core = s.core := by
  simp [originalFault]

@[simp] theorem spareWarn_core (before s : State) : (spareWarn before s).core = s.core := by
  simp [spareWarn]

@[simp] theorem State.setTbl_core (s : State) (t pipe : Nat) (c : Cuckoo) : (State.setTbl s t pipe c).core = s.core := by
  unfold State.setTbl
  split_ifs <;> simp

@[simp] theorem tblPressure_core (t pipe : Nat) (s : State) : (tblPressure t pipe s).core = s.core := by
  simp [tblPressure]

@[simp] theorem pipelineRegrown_core (k : Nat) (s : State) : (pipelineRegrown k s).core = s.core := by
  simp [pipelineRegrown]

@[simp] theorem coreRegrown_core (x0 x1 : Nat) (s : State) : (coreRegrown x0 x1 s).core = s.core := by
  simp [coreRegrown]

@[simp] theorem regrowEnd_core (kind : Nat) (ok : Bool) (s : State) : (regrowEnd kind ok s).core = s.core := by
  unfold regrowEnd
  split
  · rfl
  · dsimp only
    split_ifs
    all_goals
      repeat' split
      all_goals simp

@[simp] theorem spareFault_core (d : Dom) (source detail : Nat) (s : State) : (spareFault d source detail s).core = s.core := by
  unfold spareFault
  dsimp only
  split <;> simp

@[simp] theorem restartVendor_core (c : Nat) (s : State) : (restartVendor c s).core = s.core := by
  simp [restartVendor]

@[simp] theorem resumeDom_core (d : Dom) (s : State) : (resumeDom d s).core = s.core := by
  unfold resumeDom
  split <;> simp

@[simp] theorem State.unitCorrected_core (s : State) (kind phys : Nat) : (State.unitCorrected s kind phys).core = s.core := by
  simp [State.unitCorrected]

@[simp] theorem scrubCorrected_core (mem : ScrubMem) (unit : Nat) (s : State) : (scrubCorrected mem unit s).core = s.core := by
  unfold scrubCorrected
  split <;> simp

@[simp] theorem poisonPacket_core (n : Nat) (s : State) : (poisonPacket n s).core = s.core := by
  simp [poisonPacket]

@[simp] theorem loseRule_core (addr : Nat) (s : State) : (loseRule addr s).core = s.core := by
  simp [loseRule]

@[simp] theorem tblWorked_core (t pipe : Nat) (c' : Cuckoo) (s : State) : (tblWorked t pipe c' s).core = s.core := by
  simp [tblWorked]

@[simp] theorem ckvFree_core (key : Nat) (s : State) : (ckvFree key s).core = s.core := by
  simp [ckvFree]

@[simp] theorem tblDel_core (t pipe key : Nat) (s : State) : (tblDel t pipe key s).core = s.core := by
  simp [tblDel]

@[simp] theorem loseL2_core (addr : Nat) (s : State) : (loseL2 addr s).core = s.core := by
  unfold loseL2
  dsimp only
  split <;> simp

@[simp] theorem State.modKey_core (s : State) (k : Nat) (f : KeySlot → KeySlot) : (State.modKey s k f).core = s.core := by
  simp [State.modKey]

@[simp] theorem faultPost_core (p : Nat) (m : Msg) (s : State) : (faultPost p m s).core = s.core := by
  unfold faultPost
  split <;> simp

@[simp] theorem threadFault_core (tid code epc tval addr : Nat) (s : State) : (threadFault tid code epc tval addr s).core = s.core := by
  simp [threadFault]

@[simp] theorem xfault_core (tid code addr : Nat) (s : State) : (xfault tid code addr s).core = s.core := by
  simp [xfault]

@[simp] theorem State.modLane_core (s : State) (l : Nat) (f : Lane → Lane) : (State.modLane s l f).core = s.core := by
  simp [State.modLane]

@[simp] theorem dropPortQueues_core (port : Nat) (s : State) : (dropPortQueues port s).core = s.core := by
  simp [dropPortQueues]

@[simp] theorem State.modPort_core (s : State) (n : Nat) (f : EthPort → EthPort) : (State.modPort s n f).core = s.core := by
  unfold State.modPort
  split <;> simp

@[simp] theorem State.modHw_core (s : State) (g pipe : Nat) (f : GroupHw → GroupHw) : (State.modHw s g pipe f).core = s.core := by
  simp [State.modHw]

@[simp] theorem regroup_core (s : State) : (regroup s).core = s.core := by
  simp [regroup]

@[simp] theorem portDown_core (n cause newState : Nat) (s : State) : (portDown n cause newState s).core = s.core := by
  simp [portDown]

@[simp] theorem portFail_core (n : Nat) (s : State) : (portFail n s).core = s.core := by
  simp [portFail]

@[simp] theorem laneFail_core (l : Nat) (s : State) : (laneFail l s).core = s.core := by
  unfold laneFail
  dsimp only
  repeat' split
  all_goals simp

@[simp] theorem portComesUp_core (n : Nat) (p : EthPort) (s : State) : (portComesUp n p s).core = s.core := by
  simp [portComesUp]

@[simp] theorem trainFailed_core (p : EthPort) (failed : Nat) (s : State) : (trainFailed p failed s).core = s.core := by
  simp [trainFailed]

@[simp] theorem saDrop_core (n cause : Nat) (s : State) : (saDrop n cause s).core = s.core := by
  simp [saDrop]

@[simp] theorem secDrop_core (port n cause : Nat) (s : State) : (secDrop port n cause s).core = s.core := by
  simp [secDrop]

@[simp] theorem secFail_core (port n cause validate : Nat) (bs : List Byte) (s : State) : (secFail port n cause validate bs s).2.core = s.core := by
  simp [secFail]

@[simp] theorem State.modSa_core (s : State) (n : Nat) (f : Sa → Sa) : (State.modSa s n f).core = s.core := by
  simp [State.modSa]

@[simp] theorem saExhaust_core (n : Nat) (s : State) : (saExhaust n s).core = s.core := by
  simp [saExhaust]

@[simp] theorem saAccept_core (n q : Nat) (s : State) : (saAccept n q s).core = s.core := by
  simp [saAccept]

@[simp] theorem macsecRx_core (port octet : Nat) (bs : List Byte) (s : State) : (macsecRx port octet bs s).2.core = s.core := by
  unfold macsecRx
  dsimp only
  repeat' split
  all_goals simp

@[simp] theorem ethAccept_core (port : Nat) (p : EthPort) (bs : List Byte) (ok : Bool) (s : State) : (ethAccept port p bs ok s).core = s.core := by
  simp [ethAccept]

@[simp] theorem ethReceive_core (port : Nat) (frame : List Byte) (fcs : Nat) (fecOk : Bool) (s : State) :
    (ethReceive port frame fcs fecOk s).core = s.core := by
  unfold ethReceive
  split
  · rfl
  next p _ =>
    have hsec := macsecRx_core port p.octet frame s
    generalize macsecRx port p.octet frame s = x at hsec ⊢
    obtain ⟨r, u⟩ := x
    cases r <;> simp only [ite_core, State.bump_core, ethAccept_core, hsec, ite_self]

@[simp] theorem stormDrop_core (port prio : Nat) (s : State) : (stormDrop port prio s).core = s.core := by
  simp [stormDrop]

@[simp] theorem hwDeliver_core (s : State) (ch : Nat) (m : Msg) : (hwDeliver s ch m).1.core = s.core := by
  unfold hwDeliver
  dsimp only
  split_ifs <;> simp

@[simp] theorem drawEncap_core (s : State) : (drawEncap s).2.core = s.core := by
  simp [drawEncap]

@[simp] theorem pickBucket_core (k : Pkt) (g : Nat) (gr : Group) (s : State) : (pickBucket k g gr s).2.core = s.core := by
  unfold pickBucket
  dsimp only
  repeat' split
  all_goals simp

@[simp] theorem chooseMember_core (k : Pkt) (g : Nat) (s : State) : (chooseMember k g s).2.core = s.core := by
  unfold chooseMember
  dsimp only
  repeat' split
  all_goals simp

@[simp] theorem takeShim_core (k : Pkt) (v : Via) (s : State) : (takeShim k v s).2.core = s.core := by
  unfold takeShim
  split <;> simp

@[simp] theorem resolve_core (k : Pkt) (dest : Nat) (s : State) : (resolve k dest s).2.core = s.core := by
  unfold resolve
  split
  · rfl
  · split
    next h => simp [core_of_snd (chooseMember_core ..) h]
    next h => simp [core_of_snd (chooseMember_core ..) h]
  · split <;> simp

@[simp] theorem police_core (pad i len colour : Nat) (s : State) : (police pad i len colour s).2.core = s.core := by
  unfold police
  dsimp only
  split <;> simp

@[simp] theorem noteOverrun_core (a : Nat) (s : State) : (noteOverrun a s).core = s.core := by
  simp [noteOverrun]

@[simp] theorem chargeIngress_core (o n : Nat) (hr : Bool) (s : State) : (chargeIngress o n hr s).core = s.core := by
  simp [chargeIngress]

@[simp] theorem txCommit_core (src : Source) (s : State) : (txCommit src s).core = s.core := by
  simp [txCommit]

@[simp] theorem punt_core (k : Pkt) (reason : Nat) (copy : Bool) (s : State) : (punt k reason copy s).core = s.core := by
  have hc := police_core k.pad (524279 + k.pipe) k.rxLen k.colour s
  unfold punt
  generalize police k.pad (524279 + k.pipe) k.rxLen k.colour s = x at hc
  obtain ⟨c, u⟩ := x
  simp only [ite_core, State.bump_core, dropPkt_core, hc, bpSweep_core, chargeIngress_core, noteAdmitted_core, noteRefused_core,
    noteOverrun_core, txCommit_core, hwDeliver_core, ite_self, State.modPkt_core, State.core_mk, State.core_fold, implies_true]

@[simp] theorem crossed_core (k : Pkt) (dest : Nat) (s : State) : (crossed k dest s).core = s.core := by
  simp [crossed]

@[simp] theorem mirrorCopies_core (k : Pkt) (ms : List Nat) (s : State) : (mirrorCopies k ms s).2.core = s.core := by
  refine List.foldlRecOn (motive := fun x : List CopyReq × State => x.2.core = s.core) ms _ rfl fun x hx m _ => ?_
  dsimp only
  split
  · split
    · split
      · split <;> simp [hx]
      · simp [hx]
    · exact hx
  · exact hx

@[simp] theorem noteMark_core (a : Nat) (s : State) : (noteMark a s).core = s.core := by
  simp [noteMark]

@[simp] theorem markPunt_core (k : Pkt) (s : State) : (markPunt k s).2.core = s.core := by
  simp [markPunt]

@[simp] theorem countMirrors_core (pipe : Nat) (rs : List CopyReq) (s : State) : (countMirrors pipe rs s).core = s.core := by
  simp [countMirrors]

@[simp] theorem countRefused_core (o : Nat) (rs : List CopyReq) (s : State) : (countRefused o rs s).core = s.core := by
  simp [countRefused]

@[simp] theorem txCopies_core (src : Source) (n cls colour : Nat) (s : State) : (txCopies src n cls colour s).core = s.core := by
  simp [txCopies]

@[simp] theorem putCopy_core (n : Nat) (k : Pkt) (r : CopyReq) (s : State) : (putCopy n k r s).core = s.core := by
  simp [putCopy]

@[simp] theorem enqueue_core (k : Pkt) (rs : List CopyReq) (tsOut : Bool) (s : State) : (enqueue k rs tsOut s).core = s.core := by
  unfold enqueue
  dsimp only
  split <;> simp

@[simp] theorem puntEdited_core (k : Pkt) (reason : Nat) (ms : List CopyReq) (s : State) : (puntEdited k reason ms s).core = s.core := by
  simp [puntEdited]

@[simp] theorem releaseHeld_core (h : Held) (s : State) : (releaseHeld h s).core = s.core := by
  simp [releaseHeld]

@[simp] theorem releaseRun_core (key a : Nat) (s : State) : (releaseRun key a s).core = s.core := by
  induction a generalizing s with
  | zero => rfl
  | succ fuel ih =>
    rw [releaseRun]
    dsimp only
    split <;> simp [ih]

@[simp] theorem sprayAdvance_core (key to_ : Nat) (s : State) : (sprayAdvance key to_ s).core = s.core := by
  simp only [sprayAdvance, releaseRun_core, foldl_core, releaseHeld_core, implies_true, State.modPkt_core, State.bump_core]

@[simp] theorem sprayReset_core (key seq : Nat) (s : State) : (sprayReset key seq s).core = s.core := by
  simp [sprayReset]

@[simp] theorem sprayNext_core (key seq : Nat) (k : Pkt) (rs : List CopyReq) (tsOut : Bool) (s : State) :
    (sprayNext key seq k rs tsOut s).core = s.core := by
  simp [sprayNext]

@[simp] theorem sprayTimeout_core (key : Nat) (s : State) : (sprayTimeout key s).core = s.core := by
  unfold sprayTimeout
  split <;> simp

@[simp] theorem sprayRoom_core (n a : Nat) (s : State) : (sprayRoom n a s).core = s.core := by
  induction a generalizing s with
  | zero => rfl
  | succ fuel ih =>
    rw [sprayRoom]
    split
    · rfl
    · dsimp only
      split <;> simp [ih]

@[simp] theorem sprayHold_core (key seq : Nat) (k : Pkt) (rs : List CopyReq) (tsOut : Bool) (s : State) :
    (sprayHold key seq k rs tsOut s).core = s.core := by
  simp [sprayHold]

@[simp] theorem resequence_core (k : Pkt) (shim : Nat) (rs : List CopyReq) (tsOut : Bool) (s : State) :
    (resequence k shim rs tsOut s).core = s.core := by
  simp [resequence]

@[simp] theorem sendOut_core (k : Pkt) (rs : List CopyReq) (tsOut : Bool) (s : State) : (sendOut k rs tsOut s).core = s.core := by
  unfold sendOut
  split <;> simp

@[simp] theorem sendCopies_core (k : Pkt) (rs : List CopyReq) (reason : Nat) (tsOut : Bool) (s : State) :
    (sendCopies k rs reason tsOut s).core = s.core := by
  simp [sendCopies]

@[simp] theorem endPkt_core (k : Pkt) (i : EndInfo) (s : State) : (endPkt k i s).core = s.core := by
  unfold endPkt
  dsimp only
  repeat' split
  all_goals simp

@[simp] theorem finishPkt_core (c : Ctx) (punt : Bool) (s : State) : (finishPkt c punt s).core = s.core := by
  simp [finishPkt]

@[simp] theorem endCtx_core (pipe id : Nat) (s : State) : (endCtx pipe id s).core = s.core := by
  simp [endCtx]

@[simp] theorem settlePipe_core (pipe a : Nat) (s : State) : (settlePipe pipe a s).core = s.core := by
  induction a generalizing s with
  | zero => rfl
  | succ fuel ih =>
    rw [settlePipe]
    split <;> simp [ih]

@[simp] theorem defaultAction_core (k : Pkt) (s : State) : (defaultAction k s).core = s.core := by
  unfold defaultAction
  dsimp only
  split <;> simp

@[simp] theorem startCtx_core (k : Pkt) (engine entry : Nat) (s : State) : (startCtx k engine entry s).core = s.core := by
  simp [startCtx]

@[simp] theorem ruleOutcome_core (k : Pkt) (slot r engine : Nat) (s : State) : (ruleOutcome k slot r engine s).core = s.core := by
  unfold ruleOutcome
  split <;> simp

@[simp] theorem acceptHeader_core (k : Pkt) (engine : Nat) (s : State) : (acceptHeader k engine s).core = s.core := by
  unfold acceptHeader
  dsimp only
  repeat' split
  all_goals simp

@[simp] theorem takeHeader_core (pipe : Nat) (s : State) : (takeHeader pipe s).core = s.core := by
  unfold takeHeader
  split <;> simp

@[simp] theorem flowLook_core (key : Nat) (s : State) : (flowLook key s).2.core = s.core := by
  unfold flowLook
  split <;> simp

@[simp] theorem lookupDone_core (c : Ctx) (tbl key : Nat) (s : State) : (lookupDone c tbl key s).2.core = s.core := by
  unfold lookupDone
  dsimp only
  split
  case h_4 =>
    split
    next h => simp [core_of_snd (flowLook_core ..) h]
    next h => simp [core_of_snd (flowLook_core ..) h]
  all_goals simp

@[simp] theorem policeDone_core (c : Ctx) (i colour : Nat) (s : State) : (policeDone c i colour s).2.core = s.core := by
  simp [policeDone]

@[simp] theorem writeState_core (e v : Nat) (s : State) : (writeState e v s).core = s.core := by
  simp [writeState]

@[simp] theorem State.setCkv_core (s : State) (i x2 : Nat) : (State.setCkv s i x2).core = s.core := by
  simp [State.setCkv]

@[simp] theorem ckvBind_core (i tenant owner seq : Nat) (s : State) : (ckvBind i tenant owner seq s).core = s.core := by
  simp [ckvBind]

@[simp] theorem flowCkv_core (key tenant seq : Nat) (s : State) : (flowCkv key tenant seq s).2.core = s.core := by
  unfold flowCkv
  repeat' split
  all_goals simp

@[simp] theorem ckvSave_core (i next : Nat) (r : CkvRun) (s : State) : (ckvSave i next r s).core = s.core := by
  simp [ckvSave]

theorem ckvSegment_core {k : Pkt} {op cur : Nat} {key : Option Nat} {s t : State} {n : Nat} {bs : List Byte}
    (h : ckvSegment k op cur key s = some (n, bs, t)) : t.core = s.core := by
  unfold ckvSegment at h
  dsimp only at h
  split at h
  · cases h; rfl
  · split at h
    next hflow =>
      cases h
      exact core_of_snd (flowCkv_core ..) hflow
    next hflow =>
      have hs := core_of_snd (flowCkv_core ..) hflow
      split at h
      · cases h
      · split at h
        · cases h; exact hs
        · split at h
          · cases h; simpa using hs
          · cases h; simpa using hs

@[simp] theorem mfaultEnd_core (k : Pkt) (code addr : Nat) (s : State) : (mfaultEnd k code addr s).core = s.core := by
  simp [mfaultEnd]

@[simp] theorem clobber_core (i : Nat) (c : Ctx) (s : State) : (clobber i c s).2.core = s.core := by
  unfold clobber
  split
  · rfl
  · dsimp only
    rw [State.drawBelow_core]
    refine List.foldlRecOn (motive := fun x : Ctx × State => x.2.core = s.core) (List.range 8) _ (State.drawBelow_core s (2 ^ 32)) ?_
    exact fun x hx j _ => hx

@[simp] theorem putCtx_core (pipe : Nat) (c : Ctx) (s : State) : (putCtx pipe c s).core = s.core := by
  simp [putCtx]

@[simp] theorem excess_core (pipe : Nat) (host : Bool) (src : Nat) (s : State) : (excess pipe host src s).core = s.core := by
  simp [excess]

@[simp] theorem tblPlace_core (t pipe e : Nat) (s : State) : (tblPlace t pipe e s).1.core = s.core := by
  unfold tblPlace
  dsimp only
  repeat' split
  all_goals simp

@[simp] theorem fallbackLearn_core (pipe mac vn : Nat) (host : Bool) (src : Nat) (s : State) :
    (fallbackLearn pipe mac vn host src s).1.core = s.core := by
  unfold fallbackLearn
  split
  next h => simp [core_of_fst (tblPlace_core ..) h]
  next h => simp [core_of_fst (tblPlace_core ..) h]

@[simp] theorem learn.learnNew_core (k : Pkt) (mac : Nat) (host : Bool) (src : Nat) (s : State) :
    (learn.learnNew k mac host src s).1.core = s.core := by
  unfold learn.learnNew
  dsimp only
  split_ifs <;> simp

@[simp] theorem learn_core (k : Pkt) (s : State) : (learn k s).1.core = s.core := by
  unfold learn
  dsimp only
  repeat' split
  all_goals simp

@[simp] theorem findL2_core (k : Pkt) (s : State) : (findL2 k s).2.core = s.core := by
  unfold findL2
  dsimp only
  repeat' split
  all_goals simp

@[simp] theorem findDest_core (k : Pkt) (flow : Bool) (s : State) : (findDest k flow s).2.core = s.core := by
  unfold findDest
  dsimp only
  split
  · rfl
  · split
    · split
      next h => exact core_of_snd (flowLook_core ..) h
      next h => split <;> simp [core_of_snd (flowLook_core ..) h]
    · simp

@[simp] theorem tryEdit_core (e : Edit) (x : Ctx × State × Option Nat) : (tryEdit e x).2.1.core = x.2.1.core := by
  unfold tryEdit
  dsimp only
  split
  · rfl
  · split_ifs <;> rfl

@[simp] theorem lbResolve_core (c : Ctx) (s : State) : (lbResolve c s).2.core = s.core := by
  unfold lbResolve
  split
  · split
    next h => exact core_of_snd (chooseMember_core ..) h
    next h => exact core_of_snd (chooseMember_core ..) h
  · split <;> rfl

@[simp] theorem cntAdd_core (pipe idx bytes : Nat) (s : State) : (cntAdd pipe idx bytes s).core = s.core := by
  simp [cntAdd]

@[simp] theorem decap_core (c : Ctx) (s : State) : (decap c s).2.1.core = s.core := by
  unfold decap
  dsimp only
  split <;> simp

@[simp] theorem saTake_core (n : Nat) (s : State) : (saTake n s).2.core = s.core := by
  unfold saTake
  dsimp only
  split_ifs <;> simp

@[simp] theorem cipherSubmit_core (r : CipherReq) (s : State) : (cipherSubmit r s).core = s.core := by
  simp [cipherSubmit]

@[simp] theorem cryIssue_core (op : Nat) (routine : Bool) (c : Ctx) (s : State) : (cryIssue op routine c s).2.core = s.core := by
  unfold cryIssue
  dsimp only
  split_ifs <;> simp

@[simp] theorem csumVerify_core (c : Ctx) (kind : Nat) (s : State) : (csumVerify c kind s).2.core = s.core := by
  unfold csumVerify
  dsimp only
  repeat' split
  all_goals simp

@[simp] theorem bucketExpire_core (g pipe b : Nat) (s : State) : (bucketExpire g pipe b s).core = s.core := by
  unfold bucketExpire
  dsimp only
  repeat' split
  all_goals simp

@[simp] theorem startRotation_core (g : Nat) (s : State) : (startRotation g s).core = s.core := by
  simp [startRotation]

@[simp] theorem monitorWindow_core (g : Nat) (s : State) : (monitorWindow g s).core = s.core := by
  unfold monitorWindow
  split <;> simp

@[simp] theorem dropRemote_core (key : Nat) (s : State) : (dropRemote key s).core = s.core := by
  refine foldl_core (fun s x => ?_) _ _
  split <;> simp

@[simp] theorem agingSlice_core (table pipe : Nat) (examined : Option Nat) (s : State) : (agingSlice table pipe examined s).core = s.core := by
  simp [agingSlice]

@[simp] theorem shareHome_core (pipe mac vn : Nat) (host : Bool) (src : Nat) (s : State) : (shareHome pipe mac vn host src s).core = s.core := by
  simp [shareHome]

@[simp] theorem takeFallback_core (s : State) : (takeFallback s).core = s.core := by
  simp [takeFallback]

@[simp] theorem installHome_core (pipe mac vn : Nat) (host : Bool) (src : Nat) (s : State) :
    (installHome pipe mac vn host src s).1.core = s.core := by
  unfold installHome
  dsimp only
  split
  next h => simp [core_of_fst (tblPlace_core ..) h]
  next h => simp [core_of_fst (tblPlace_core ..) h]

@[simp] theorem learnService_core (pipe : Nat) (s : State) : (learnService pipe s).core = s.core := by
  unfold learnService
  split
  · rfl
  · extract_lets t
    split
    · simp [t]
    · extract_lets u same
      have hu : u.core = s.core := by
        simp [u, t]
      split
      · exact hu
      · split
        · simp [hu]
        · split
          next h => simp [core_of_fst (installHome_core ..) h, hu]
          next h => simp [core_of_fst (installHome_core ..) h, hu]

@[simp] theorem rehashPass_core (table pipe : Nat) (s : State) : (rehashPass table pipe s).core = s.core := by
  simp [rehashPass]

@[simp] theorem popHead_core (q : Nat) (s : State) : (popHead q s).core = s.core := by
  unfold popHead
  split <;> simp

@[simp] theorem noteDoom_core (s : State) (l0 q : Nat) (c : Copy) (why : Nat) : (noteDoom s l0 q c why).core = s.core := by
  simp [noteDoom]

@[simp] theorem noteDelay_core (q : Nat) (s : State) : (noteDelay q s).core = s.core := by
  unfold noteDelay
  split <;> simp

@[simp] theorem purgeQueue_core (q a : Nat) (s : State) : (purgeQueue q a s).core = s.core := by
  induction a generalizing s with
  | zero => rfl
  | succ fuel ih =>
    rw [purgeQueue]
    repeat' split
    all_goals simp [ih]

@[simp] theorem purgePort_core (l0 : Nat) (s : State) : (purgePort l0 s).core = s.core := by
  simp [purgePort]

@[simp] theorem txSa_core (octet : Nat) (s : State) : (txSa octet s).2.core = s.core := by
  unfold txSa
  dsimp only
  split <;> simp

@[simp] theorem macsecTx_core (port octet : Nat) (bs : List Byte) (s : State) : (macsecTx port octet bs s).2.core = s.core := by
  unfold macsecTx
  split
  · rfl
  · split
    next h => simp [core_of_snd (txSa_core ..) h]
    next h =>
      split_ifs <;> simp [core_of_snd (txSa_core ..) h]

@[simp] theorem copyLost_core (q : Nat) (c : Copy) (k : Pkt) (reason : Nat) (s : State) : (copyLost q c k reason s).core = s.core := by
  simp [copyLost]

@[simp] theorem countMember_core (v : Via) (len : Nat) (s : State) : (countMember v len s).core = s.core := by
  unfold countMember
  dsimp only
  split <;> simp

@[simp] theorem meterOut_core (tenant cls bytes : Nat) (s : State) : (meterOut tenant cls bytes s).core = s.core := by
  simp [meterOut]

@[simp] theorem copySent_core (l0 q : Nat) (c : Copy) (b : Stored) (tenant len : Nat) (s : State) :
    (copySent l0 q c b tenant len s).core = s.core := by
  unfold copySent
  split <;> simp

@[simp] theorem State.composeFault_core (s : State) (fid : Nat) : (State.composeFault s fid).core = s.core := by
  simp [State.composeFault]

@[simp] theorem fenceRing_core (fid r cause : Nat) (s : State) : (fenceRing fid r cause s).core = s.core := by
  simp [fenceRing]

@[simp] theorem State.endReads_core (s : State) (p : Read → Bool) : (State.endReads s p).core = s.core := by
  simp [State.endReads]

theorem takeRead_core (fid ring : Nat) (bufs : List Nat) (s : State) : ∀ {t}, takeRead fid ring bufs s = some t → t.core = s.core := by
  unfold takeRead
  dsimp only
  repeat' split
  all_goals simp

@[simp] theorem passShort_core (fid ring a : Nat) (s : State) : (passShort fid ring a s).core = s.core := by
  induction a generalizing s with
  | zero => rfl
  | succ fuel ih =>
    rw [passShort]
    split <;> simp [ih]

@[simp] theorem shortBufs_core (fid ring : Nat) (l : List (Nat × Nat)) (s : State) : (shortBufs fid ring l s).core = s.core := by
  simp [shortBufs]

@[simp] theorem fillBufs_core (fid : Nat) (a : List (Nat × Nat)) (a2 : List Byte) (s : State) : (fillBufs fid a a2 s).core = s.core := by
  induction a generalizing a2 s with
  | nil => rfl
  | cons e r ih => simp [fillBufs, ih]

@[simp] theorem chargeNode_core (pad level i size : Nat) (s : State) : (chargeNode pad level i size s).core = s.core := by
  simp [chargeNode]

@[simp] theorem chargeSend_core (l0 : Nat) (c : Cand) (s : State) : (chargeSend l0 c s).core = s.core := by
  simp [chargeSend]

@[simp] theorem sampleRing_core (ring consumer inTime : Nat) (s : State) : (sampleRing ring consumer inTime s).core = s.core := by
  unfold sampleRing
  split <;> simp

@[simp] theorem exportToRing_core (minute : Nat) (rec : List Byte) (s : State) : (exportToRing minute rec s).core = s.core := by
  unfold exportToRing
  dsimp only
  split <;> simp

@[simp] theorem exportFrame_core (c : ExportCfg) (payload : List Byte) (s : State) : (exportFrame c payload s).2.core = s.core := by
  simp [exportFrame]

@[simp] theorem mgmt0Send_core (frame : List Byte) (s : State) : (mgmt0Send frame s).core = s.core := by
  unfold mgmt0Send
  dsimp only
  split <;> simp

@[simp] theorem exportSend_core (c : ExportCfg) (payload : List Byte) (s : State) : (exportSend c payload s).core = s.core := by
  simp [exportSend]

@[simp] theorem exportByUdp_core (minute : Nat) (lost : List Nat) (a a3 : Nat) (a4 : List (List Byte)) (s : State) :
    (exportByUdp minute lost a a3 a4 s).core = s.core := by
  induction a generalizing a3 a4 s with
  | zero => rfl
  | succ fuel ih =>
    rw [exportByUdp]
    dsimp only
    split_ifs <;> simp [ih]

@[simp] theorem meterExport_core (lost : List Nat) (s : State) : (meterExport lost s).core = s.core := by
  unfold meterExport
  dsimp only
  repeat' split
  all_goals simp

@[simp] theorem trimSpray_core (s : State) : (trimSpray s).core = s.core := by
  simp [trimSpray]

@[simp] theorem shadowWrite_core (f : Pad → Pad) (s : State) : (shadowWrite f s).core = s.core := by
  simp [shadowWrite]

@[simp] theorem spraySlots_core (g : Nat) (s : State) : (spraySlots g s).core = s.core := by
  unfold spraySlots
  dsimp only
  repeat' split
  all_goals simp

@[simp] theorem liveWrite_core (pipes slot e : Nat) (s : State) : (liveWrite pipes slot e s).1.core = s.core := by
  unfold liveWrite
  dsimp only
  split_ifs <;> simp

@[simp] theorem liveClear_core (pipes slot : Nat) (s : State) : (liveClear pipes slot s).1.core = s.core := by
  simp [liveClear]

@[simp] theorem armChain_core (time : Nat) (s : State) : (armChain time s).core = s.core := by
  simp [armChain]

@[simp] theorem padLeap_core (mode expect time : Nat) (force : Bool) (s : State) : (padLeap mode expect time force s).1.core = s.core := by
  unfold padLeap
  split_ifs <;> simp

@[simp] theorem padApply_core (op : PadOp) (s : State) : (padApply op s).1.core = s.core := by
  cases op with
  | write => simp only [padApply]; split <;> simp
  | group => simp only [padApply]; split <;> simp
  | _ => simp [padApply]

theorem padTurn_core {op : PadOp} {s t : State} {r : Reply} (h : padTurn op s = some (t, r)) : t.core = s.core := by
  unfold padTurn at h
  split at h
  · cases h; rfl
  · split at h
    · cases h
    · exact core_of_fst (padApply_core op s) (Option.some.inj h)

@[simp] theorem scatter_core (fid : Nat) (a : List (Nat × Nat)) (a2 : List Byte) (s : State) : (scatter fid a a2 s).core = s.core := by
  induction a generalizing a2 s with
  | nil => rfl
  | cons e r ih => simp [scatter, ih]

@[simp] theorem putResponse_core (m : MbxId) (r : Req) (rspList : List (Nat × Nat)) (status detail full : Nat) (body : List Byte) (s : State) :
    (putResponse m r rspList status detail full body s).core = s.core := by
  unfold putResponse
  dsimp only
  split <;> simp

@[simp] theorem respond_core (m : MbxId) (r : Req) (rspList : List (Nat × Nat)) (status detail : Nat) (payload : List Byte)
    (hdr unit : Nat) (s : State) : (respond m r rspList status detail payload hdr unit s).core = s.core := by
  simp [respond]

@[simp] theorem answerAll_core (m : MbxId) (status : Nat) (s : State) : (answerAll m status s).core = s.core := by
  simp [answerAll]

@[simp] theorem finishCur_core (m : MbxId) (status detail : Nat) (payload : List Fld) (s : State) :
    (finishCur m status detail payload s).core = s.core := by
  unfold finishCur
  split <;> simp

@[simp] theorem finishWait_core (w : Wait → Bool) (status detail : Nat) (payload : List Fld) (s : State) :
    (finishWait w status detail payload s).core = s.core := by
  simp [finishWait]

@[simp] theorem rewait_core (w w' : Wait) (s : State) : (rewait w w' s).core = s.core := by
  simp [rewait]

@[simp] theorem padResume_core (m : MbxId) (timedOut : Bool) (s : State) : (padResume m timedOut s).core = s.core := by
  unfold padResume
  split
  · rfl
  · dsimp only
    split
    · rfl
    · split
      next h => simp [padTurn_core h]
      next h => simp [padTurn_core h]
      next h => simp [padTurn_core h]
      next h => simp [padTurn_core h]
      · split <;> simp

@[simp] theorem CfgOf.capId_core (c : CfgOf) (k : Cap) (s : State) : (CfgOf.capId c k s).2.core = s.core := by
  unfold CfgOf.capId
  dsimp only
  repeat' split
  all_goals simp

@[simp] theorem cfgRead_core (s : State) (c : CfgOf) (reg : CfgReg) : (cfgRead s c reg).2.core = s.core := by
  unfold cfgRead
  split <;> simp

@[simp] theorem State.flushMsix_core (s : State) (fid : Nat) : (State.flushMsix s fid).core = s.core := by
  simp [State.flushMsix]

@[simp] theorem bmeClear_core (fid : Nat) (s : State) : (bmeClear fid s).core = s.core := by
  simp [bmeClear]

@[simp] theorem d3Enter_core (fid : Nat) (s : State) : (d3Enter fid s).core = s.core := by
  simp [d3Enter]

@[simp] theorem d0Return_core (fid : Nat) (s : State) : (d0Return fid s).core = s.core := by
  simp [d0Return]

@[simp] theorem resetUnprov_core (port pf : Nat) (s : State) : (resetUnprov port pf s).core = s.core := by
  simp [resetUnprov]

@[simp] theorem ctrlOff_core (fid : Nat) (s : State) : (ctrlOff fid s).core = s.core := by
  simp [ctrlOff]

@[simp] theorem nvmeReset_core (fid : Nat) (s : State) : (nvmeReset fid s).core = s.core := by
  simp [nvmeReset]

@[simp] theorem ctxThaw_core (fid : Nat) (s : State) : (ctxThaw fid s).core = s.core := by
  simp [ctxThaw]

@[simp] theorem State.orphanCur_core (s : State) (m : MbxId) : (State.orphanCur s m).core = s.core := by
  unfold State.orphanCur
  split <;> simp

@[simp] theorem detachPump_core (s : State) : (detachPump s).core = s.core := by
  simp [detachPump]

@[simp] theorem resetFn_core (fid : Nat) (s : State) : (resetFn fid s).core = s.core := by
  simp [resetFn]

@[simp] theorem resetVfs_core (fid : Nat) (s : State) : (resetVfs fid s).core = s.core := by
  simp [resetVfs]

@[simp] theorem flr_core (fid : Nat) (s : State) : (flr fid s).core = s.core := by
  simp [flr]

@[simp] theorem vfEnableSet_core (fid : Nat) (s : State) : (vfEnableSet fid s).core = s.core := by
  simp [vfEnableSet]

@[simp] theorem vfEnableClear_core (fid : Nat) (s : State) : (vfEnableClear fid s).core = s.core := by
  simp [vfEnableClear]

@[simp] theorem cfgWrite_core (fid : Nat) (reg : CfgReg) (v : Nat) (s : State) : (cfgWrite fid reg v s).core = s.core := by
  unfold cfgWrite
  split <;> simp

@[simp] theorem State.modUnprov_core (s : State) (port pf vf : Nat) (f : Unprov → Unprov) : (State.modUnprov s port pf vf f).core = s.core := by
  simp [State.modUnprov]

@[simp] theorem domClear_core (d : Dom) (s : State) : (domClear d s).core = s.core := by
  simp [domClear]

@[simp] theorem portReset_core (n : Nat) (s : State) : (portReset n s).core = s.core := by
  simp [portReset]

@[simp] theorem State.modWin_core (s : State) (port i : Nat) (f : Win → Win) : (State.modWin s port i f).core = s.core := by
  simp [State.modWin]

@[simp] theorem drainEnd_core (fid r : Nat) (wrote : Bool) (s : State) : (drainEnd fid r wrote s).core = s.core := by
  simp [drainEnd]

@[simp] theorem drainRing_core (fid r : Nat) (s : State) : (drainRing fid r s).core = s.core := by
  simp [drainRing]

@[simp] theorem dropRead_core (port tag : Nat) (r : Read) (s : State) : (dropRead port tag r s).core = s.core := by
  unfold dropRead
  split <;> simp

@[simp] theorem readIndex_core (fid r : Nat) (s : State) : (readIndex fid r s).core = s.core := by
  simp [readIndex]

@[simp] theorem ringIndexDone_core (fid ring q : Nat) (s : State) : (ringIndexDone fid ring q s).core = s.core := by
  simp [ringIndexDone]

@[simp] theorem bufsDone_core (port tag : Nat) (r : Read) (n : Nat) (data : List Byte) (s : State) :
    (bufsDone port tag r n data s).core = s.core := by
  simp [bufsDone]

@[simp] theorem fenceMbx_core (fid cause : Nat) (s : State) : (fenceMbx fid cause s).core = s.core := by
  simp [fenceMbx]

@[simp] theorem mbxKick_core (fid : Nat) (s : State) : (mbxKick fid s).core = s.core := by
  simp [mbxKick]

@[simp] theorem mbxReadIndex_core (fid : Nat) (s : State) : (mbxReadIndex fid s).core = s.core := by
  simp [mbxReadIndex]

@[simp] theorem mbxIndexDone_core (fid q : Nat) (s : State) : (mbxIndexDone fid q s).core = s.core := by
  simp [mbxIndexDone]

@[simp] theorem mbxSlotsDone_core (fid n : Nat) (data : List Byte) (s : State) : (mbxSlotsDone fid n data s).core = s.core := by
  simp [mbxSlotsDone]

@[simp] theorem goodRead_core (port tag : Nat) (r : Read) (data : List Byte) (s : State) : (goodRead port tag r data s).core = s.core := by
  unfold goodRead
  repeat' split
  all_goals simp

@[simp] theorem nvmeReadFailed_core (fid qid cid : Nat) (s : State) : (nvmeReadFailed fid qid cid s).core = s.core := by
  unfold nvmeReadFailed
  repeat' split
  all_goals simp

@[simp] theorem failRead_core (r : Read) (aerBit : Nat) (s : State) : (failRead r aerBit s).core = s.core := by
  unfold failRead
  repeat' split
  all_goals simp

@[simp] theorem ringEnable_core (fid r : Nat) (s : State) : (ringEnable fid r s).core = s.core := by
  simp [ringEnable]

@[simp] theorem markRingCopies_core (fid ring : Nat) (s : State) : (markRingCopies fid ring s).core = s.core := by
  simp [markRingCopies]

@[simp] theorem ringDisable_core (fid r : Nat) (s : State) : (ringDisable fid r s).core = s.core := by
  simp [ringDisable]

@[simp] theorem ringCtlWrite_core (fid r v : Nat) (s : State) : (ringCtlWrite fid r v s).core = s.core := by
  unfold ringCtlWrite
  dsimp only
  split <;> simp

@[simp] theorem cplResume_core (fid c : Nat) (s : State) : (cplResume fid c s).core = s.core := by
  simp [cplResume]

@[simp] theorem cplCiWrite_core (fid r c : Nat) (s : State) : (cplCiWrite fid r c s).core = s.core := by
  simp [cplCiWrite]

@[simp] theorem ringWrite_core (fid r off v : Nat) (s : State) : (ringWrite fid r off v s).core = s.core := by
  unfold ringWrite
  split <;> simp

@[simp] theorem indexDone_core (fid : Nat) (of : IdxOf) (q : Nat) (s : State) : (indexDone fid of q s).core = s.core := by
  unfold indexDone
  split <;> simp

@[simp] theorem abortRead_core (fid ring : Nat) (descs : List Nat) (s : State) : (abortRead fid ring descs s).core = s.core := by
  simp [abortRead]

@[simp] theorem txSend_core (fid ring : Nat) (ds : List Nat) (bs : List Byte) (s : State) : (txSend fid ring ds bs s).core = s.core := by
  simp [txSend]

@[simp] theorem readData_core (fid : Nat) (ds : List Nat) (s : State) : (readData fid ds s).core = s.core := by
  simp [readData]

@[simp] theorem hostTx_core (fid ring : Nat) (descs : List Nat) (data : List Byte) (composed : Bool) (s : State) :
    (hostTx fid ring descs data composed s).core = s.core := by
  simp [hostTx]

@[simp] theorem unfence_core (fid : Nat) (s : State) : (unfence fid s).core = s.core := by
  simp [unfence]

@[simp] theorem notifyPf_core (fid : Nat) (s : State) : (notifyPf fid s).core = s.core := by
  simp [notifyPf]

@[simp] theorem msixWrite_core (fid word v : Nat) (s : State) : (msixWrite fid word v s).core = s.core := by
  simp [msixWrite]

@[simp] theorem ccEnable_core (fid v : Nat) (s : State) : (ccEnable fid v s).core = s.core := by
  simp [ccEnable]

@[simp] theorem ccShutdown_core (fid v : Nat) (s : State) : (ccShutdown fid v s).core = s.core := by
  simp [ccShutdown]

@[simp] theorem ccWrite_core (fid value : Nat) (s : State) : (ccWrite fid value s).core = s.core := by
  simp [ccWrite]

@[simp] theorem logError_core (fid sqid cid status lba nsid : Nat) (s : State) : (logError fid sqid cid status lba nsid s).core = s.core := by
  simp [logError]

@[simp] theorem badDoorbell_core (fid info : Nat) (s : State) : (badDoorbell fid info s).core = s.core := by
  simp [badDoorbell]

@[simp] theorem State.modSq_core (s : State) (fid q : Nat) (f : NvSq → NvSq) : (State.modSq s fid q f).core = s.core := by
  simp [State.modSq]

@[simp] theorem sqDoorbell_core (fid q v : Nat) (s : State) : (sqDoorbell fid q v s).core = s.core := by
  unfold sqDoorbell
  dsimp only
  repeat' split
  all_goals simp

@[simp] theorem State.modCq_core (s : State) (fid q : Nat) (f : NvCq → NvCq) : (State.modCq s fid q f).core = s.core := by
  simp [State.modCq]

@[simp] theorem cqDoorbell_core (fid q v : Nat) (s : State) : (cqDoorbell fid q v s).core = s.core := by
  unfold cqDoorbell
  dsimp only
  repeat' split
  all_goals simp

@[simp] theorem nvmeRegWrite_core (fid off size v : Nat) (s : State) : (nvmeRegWrite fid off size v s).core = s.core := by
  simp [nvmeRegWrite]

@[simp] theorem mbxDoorbell_core (fid : Nat) (s : State) : (mbxDoorbell fid s).core = s.core := by
  simp [mbxDoorbell]

@[simp] theorem mbxEnable_core (fid : Nat) (s : State) : (mbxEnable fid s).core = s.core := by
  simp [mbxEnable]

@[simp] theorem mbxDisable_core (m : MbxId) (s : State) : (mbxDisable m s).core = s.core := by
  simp [mbxDisable]

@[simp] theorem mbxCtlWrite_core (fid v : Nat) (s : State) : (mbxCtlWrite fid v s).core = s.core := by
  unfold mbxCtlWrite
  split <;> simp

@[simp] theorem mbxWrite_core (fid off v : Nat) (s : State) : (mbxWrite fid off v s).core = s.core := by
  unfold mbxWrite
  split <;> simp

@[simp] theorem notifyVf_core (fid : Nat) (s : State) : (notifyVf fid s).core = s.core := by
  simp [notifyVf]

@[simp] theorem clearPend_core (pf i v : Nat) (s : State) : (clearPend pf i v s).core = s.core := by
  simp [clearPend]

@[simp] theorem fnRegWrite_core (fid off v : Nat) (s : State) : (fnRegWrite fid off v s).core = s.core := by
  simp [fnRegWrite]

theorem answerWith_core {x : XCall} {write : State → State} {s : State} (h : (write s).core = s.core) : (answerWith x write s).core = s.core := by
  unfold answerWith
  split
  · split
    · exact h
    · simp
  · exact h

@[simp] theorem roleFault_core (m : MbxId) (s : State) : (roleFault m s).core = s.core := by
  unfold roleFault
  split <;> simp

/-- A mailbox command changes nothing of the view, but where its body does. -/
theorem xcs_cases (x : XCall) (isOp : Nat → Bool) (body : Call → State → State × Reply) (s : State) :
    (xcs x isOp body s).core = s.core ∨ ∃ c t, t.core = s.core ∧ (xcs x isOp body s).core = (body c t).1.core := by
  unfold xcs
  dsimp only
  split
  · exact .inl rfl
  next r rest _ =>
    have hbegun : (s.modMbx x.mbx ({ · with queue := rest })).core = s.core := State.modMbx_core ..
    split
    · exact .inl rfl
    · split
      · exact .inl (by rw [answerWith_core (respond_core ..), State.modMbx_core])
      · split
        · exact .inl (by rw [answerWith_core (respond_core ..), roleFault_core, State.modMbx_core])
        · split
          · exact .inl (by rw [answerWith_core (respond_core ..), State.modMbx_core])
          · split
            · exact .inl (by rw [answerWith_core (respond_core ..), State.modMbx_core])
            · right
              set c : Call := { mbx := x.mbx, role := _, fid := _, flags := r.flags, plen := r.plen, room := roomOf x.mbx r x.rspList }
              refine ⟨c, _, hbegun, ?_⟩
              split
              next e => rw [answerWith_core (respond_core ..), e]
              next e => rw [answerWith_core (putResponse_core ..), e]
              next e => rw [State.modMbx_core, e]
              next e => rw [State.modMbx_core, e]

theorem xcs_core {x : XCall} {isOp : Nat → Bool} {body : Call → State → State × Reply} (h : ∀ c s, (body c s).1.core = s.core) (s : State) :
    (xcs x isOp body s).core = s.core := by
  obtain hs | ⟨c, t, ht, hs⟩ := xcs_cases x isOp body s
  · exact hs
  · rw [hs, h, ht]

theorem reads_core (f : Call → State → Reply) (c : Call) (s : State) : (reads f c s).1.core = s.core := rfl

theorem xop_core {x : XCall} {op : Nat} {body : Call → State → State × Reply} (h : ∀ c s, (body c s).1.core = s.core) (s : State) :
    (xop x op body s).core = s.core :=
  xcs_core h s

@[simp] theorem State.setPort_core (s : State) (n : Nat) (p : EthPort) : (State.setPort s n p).core = s.core := by
  simp [State.setPort]

@[simp] theorem yieldLanes_core (c : PortCfg) (s : State) : (yieldLanes c s).core = s.core := by
  simp [yieldLanes]

@[simp] theorem laneDiag_core (lane func pattern : Nat) (measured : List Nat) (s : State) :
    (laneDiag lane func pattern measured s).1.core = s.core := by
  unfold laneDiag
  dsimp only
  repeat' split
  all_goals simp

@[simp] theorem saDelete_core (p : Nat → Sa → Bool) (s : State) : (saDelete p s).core = s.core := by
  simp [saDelete]

@[simp] theorem macsecPowerDown_core (octet : Nat) (s : State) : (macsecPowerDown octet s).core = s.core := by
  simp [macsecPowerDown]

@[simp] theorem ownerGone_core (o : Nat) (s : State) : (ownerGone o s).core = s.core := by
  simp [ownerGone]

@[simp] theorem keyZeroise_core (k : Nat) (s : State) : (keyZeroise k s).core = s.core := by
  simp [keyZeroise]

@[simp] theorem forceErase_core (k : Nat) (s : State) : (forceErase k s).core = s.core := by
  simp [forceErase]

@[simp] theorem fnKeysDestroy_core (fid : Nat) (s : State) : (fnKeysDestroy fid s).core = s.core := by
  simp [fnKeysDestroy]

@[simp] theorem fnTablesDestroy_core (fid : Nat) (s : State) : (fnTablesDestroy fid s).core = s.core := by
  simp [fnTablesDestroy]

@[simp] theorem windowFree_core (port i : Nat) (s : State) : (windowFree port i s).core = s.core := by
  simp [windowFree]

@[simp] theorem countAll_core (k : CtrKind) (table : Nat) (s : State) : (countAll k table s).core = s.core := by
  simp [countAll]

@[simp] theorem insertRoute_core (table : Nat) (r : Route) (s : State) : (insertRoute table r s).1.core = s.core := by
  unfold insertRoute
  dsimp only
  split_ifs <;> simp

@[simp] theorem insertDirect_core (table index n : Nat) (s : State) : (insertDirect table index n s).core = s.core := by
  unfold insertDirect
  split <;> simp

@[simp] theorem insertAll_core (table n : Nat) (a : List Nat) (s : State) : (insertAll table n a s).1.core = s.core := by
  induction a generalizing s with
  | nil => rfl
  | cons p r ih =>
    rw [insertAll]
    split
    next h => simp [ih, core_of_fst (tblPlace_core ..) h]
    next h => simp [core_of_fst (tblPlace_core ..) h]

@[simp] theorem tablesBack_core (old s : State) : (tablesBack old s).core = s.core := by
  simp [tablesBack]

@[simp] theorem insertCuckoo_core (table pipes n : Nat) (s : State) : (insertCuckoo table pipes n s).1.core = s.core := by
  unfold insertCuckoo
  split
  next h =>
    have hall := core_of_fst (insertAll_core table n (entryPipes table pipes n) s) h
    exact hall
  next h =>
    have hall := core_of_fst (insertAll_core table n (entryPipes table pipes n) s) h
    rw [tablesBack_core, hall]

@[simp] theorem tblInsert_core (table pipes index : Nat) (e : TblEntry) (c : Call) (s : State) :
    (tblInsert table pipes index e c s).1.core = s.core := by
  unfold tblInsert
  dsimp only
  repeat' split
  all_goals simp

@[simp] theorem dropL2_core (pipe key : Nat) (s : State) : (dropL2 pipe key s).core = s.core := by
  unfold dropL2
  split <;> simp

@[simp] theorem dropKey_core (table pipes key : Nat) (s : State) : (dropKey table pipes key s).core = s.core := by
  simp [dropKey]

@[simp] theorem tblDelete_core (table pipes index : Nat) (e : TblEntry) (c : Call) (s : State) :
    (tblDelete table pipes index e c s).1.core = s.core := by
  unfold tblDelete
  dsimp only
  repeat' split
  all_goals simp

@[simp] theorem cursorFor_core (key : Nat) (s : State) : (cursorFor key s).2.core = s.core := by
  unfold cursorFor
  split <;> simp

@[simp] theorem iterPage_core (table pipe filter value start room : Nat) (s : State) :
    (iterPage table pipe filter value start room s).1.core = s.core := by
  unfold iterPage
  dsimp only
  split <;> simp

@[simp] theorem flushPipe_core (table filter value pipe : Nat) (s : State) : (flushPipe table filter value pipe s).1.core = s.core := by
  simp [flushPipe]

@[simp] theorem padCmd_core (op : PadOp) (s : State) : (padCmd op s).1.core = s.core := by
  have hwait (n : Nat) : (s.modPkt (fun p => { p with leap := { p.leap with waitSeq := n } })).core = s.core := by simp
  unfold padCmd
  dsimp only
  split
  · exact hwait _
  · cases h : padTurn op s with
    | none => exact hwait _
    | some x => exact padTurn_core (t := x.1) (r := x.2) h

@[simp] theorem queueMap_core (q : QMap) (c : Call) (s : State) : (queueMap q c s).1.core = s.core := by
  unfold queueMap
  repeat' split
  all_goals simp

@[simp] theorem volRebuild_core (handle mask : Nat) (s : State) : (volRebuild handle mask s).1.core = s.core := by
  unfold volRebuild
  dsimp only
  repeat' split
  all_goals simp

@[simp] theorem nsChanged_core (fid nsid : Nat) (s : State) : (nsChanged fid nsid s).core = s.core := by
  simp [nsChanged]

@[simp] theorem setBack_core (b st : Nat) (s : State) : (setBack b st s).core = s.core := by
  unfold setBack
  split <;> simp

@[simp] theorem connsFree_core (b : Nat) (s : State) : (connsFree b s).core = s.core := by
  simp [connsFree]

@[simp] theorem connsOpen_core (b : Nat) (l : Link) (s : State) : (connsOpen b l s).core = s.core := by
  refine foldl_core (fun s x => ?_) _ _
  split <;> simp

@[simp] theorem cipherTake_core (id : Nat) (s : State) : (cipherTake id s).core = s.core := by
  simp [cipherTake]

@[simp] theorem controlTurn_core (k len : Nat) (s : State) : (controlTurn k len s).2.core = s.core := by
  unfold controlTurn
  dsimp only
  repeat' split
  all_goals simp

@[simp] theorem volRetry_core (h : Nat) (s : State) : (volRetry h s).core = s.core := by
  unfold volRetry
  split <;> simp

@[simp] theorem volReopen_core (slot : Nat) (s : State) : (volReopen slot s).core = s.core := by
  simp [volReopen]

@[simp] theorem keyStore_core (slot type usage tenant : Nat) (key : List Byte) (s : State) :
    (keyStore slot type usage tenant key s).core = s.core := by
  simp [keyStore]

@[simp] theorem secKeyIn_core (octet k slot : Nat) (s : State) : (secKeyIn octet k slot s).2.core = s.core := by
  unfold secKeyIn
  split
  · rfl
  · split
    · simp
    · split
      next h => exact core_of_snd (controlTurn_core ..) h
      next h => split <;> simp [core_of_snd (controlTurn_core ..) h]

@[simp] theorem slotFails_core (slot : Nat) (s : State) : (slotFails slot s).core = s.core := by
  simp [slotFails]

@[simp] theorem espRun_core (r : CipherReq) (k : Pkt) (s : State) : (espRun r k s).2.2.core = s.core := by
  unfold espRun
  dsimp only
  split
  · simp
  · split
    · rfl
    · split
      · rfl
      · split <;> simp

@[simp] theorem failPair_core (c : NvCmd) (s : State) : (failPair c s).core = s.core := by
  unfold failPair
  repeat' split
  all_goals simp

@[simp] theorem nvFail_core (c : NvCmd) (sct sc : Nat) (dnr : Option Bool) (s : State) : (nvFail c sct sc dnr s).core = s.core := by
  simp [nvFail]

@[simp] theorem piFail_core (c : NvCmd) (i e : Nat) (s : State) : (piFail c i e s).core = s.core := by
  unfold piFail
  dsimp only
  split <;> simp

@[simp] theorem nvScatter_core (fid : Nat) (a : List (Nat × Nat)) (a2 : List Byte) (s : State) : (nvScatter fid a a2 s).core = s.core := by
  induction a generalizing a2 s with
  | nil => rfl
  | cons e r ih => simp [nvScatter, ih]

@[simp] theorem hostBlocks_core (c : NvCmd) (bs : List (List Byte × List Byte)) (s : State) : (hostBlocks c bs s).core = s.core := by
  simp [hostBlocks]

@[simp] theorem moverSubmit_core (c : NvCmd) (op : Nat) (s : State) : (moverSubmit c op s).core = s.core := by
  simp [moverSubmit]

@[simp] theorem compareFinish_core (c : NvCmd) (key : List Byte) (s : State) : (compareFinish c key s).core = s.core := by
  unfold compareFinish
  dsimp only
  repeat' split
  all_goals simp

@[simp] theorem slotWaitersEnd_core (slot : Nat) (s : State) : (slotWaitersEnd slot s).core = s.core := by
  simp [slotWaitersEnd]

@[simp] theorem confirmSlot_core (i : Nat) (s : State) : (confirmSlot i s).core = s.core := by
  simp [confirmSlot]

@[simp] theorem activateWords_core (i : Nat) (trial : Bool) (s : State) : (activateWords i trial s).core = s.core := by
  simp [activateWords]

@[simp] theorem fwLeap_core (slot : Nat) (s : State) : (fwLeap slot s).core = s.core := by
  simp [fwLeap]

@[simp] theorem stopAllPartitions_core (s : State) : (stopAllPartitions s).core = s.core := by
  simp [stopAllPartitions]

@[simp] theorem lendOut_core (l : LendReq) (s : State) : (lendOut l s).1.core = s.core := by
  unfold lendOut
  dsimp only
  split_ifs <;> simp

@[simp] theorem dirtyWrite_core (fid w : Nat) (s : State) : (dirtyWrite fid w s).core = s.core := by
  unfold dirtyWrite
  split <;> simp

@[simp] theorem dirtyFlush_core (fid : Nat) (s : State) : (dirtyFlush fid s).core = s.core := by
  unfold dirtyFlush
  split <;> simp

@[simp] theorem migTurn_core (fid len : Nat) (s : State) : (migTurn fid len s).2.core = s.core := by
  unfold migTurn
  split_ifs <;> simp

@[simp] theorem migMoved_core (len : Nat) (s : State) : (migMoved len s).core = s.core := by
  simp [migMoved]

@[simp] theorem saInvalidate_core (fid : Nat) (s : State) : (saInvalidate fid s).core = s.core := by
  simp [saInvalidate]

theorem restoreEntries_core (g : Grants) (es : List (Nat × Nat × Nat)) (s : State) :
    ∀ {t}, restoreEntries g es s = some t → t.core = s.core := by
  have h (l : List (Nat × Nat × Nat)) (a : Option State) {t : State} (hfold : l.foldl (fun a e => match a with
      | some s => match tblPlace e.1 e.2.1 e.2.2 s with
        | (s, true) => some s
        | (_, false) => none
      | none => none) a = some t) : ∃ u, a = some u ∧ t.core = u.core := by
    induction l generalizing a with
    | nil => exact ⟨t, hfold, rfl⟩
    | cons e l ih =>
      obtain ⟨u, hu, ht⟩ := ih _ hfold
      cases a with
      | none => cases hu
      | some v =>
        dsimp only at hu
        split at hu
        next hplace =>
          cases hu
          exact ⟨v, rfl, ht.trans (core_of_fst (tblPlace_core ..) hplace)⟩
        · cases hu
  intro t ht
  unfold restoreEntries at ht
  split at ht
  · cases ht
  · obtain ⟨u, hu, hcore⟩ := h _ _ ht
    cases hu
    exact hcore

@[simp] theorem restoreFn_core (fid : Nat) (t : Tlv) (s : State) : (restoreFn fid t s).core = s.core := by
  simp [restoreFn]

@[simp] theorem restoreCtrl_core (fid : Nat) (t : Tlv) (s : State) : (restoreCtrl fid t s).core = s.core := by
  simp [restoreCtrl]

@[simp] theorem restoreQueue_core (fid : Nat) (t : Tlv) (s : State) : (restoreQueue fid t s).core = s.core := by
  simp [restoreQueue]

@[simp] theorem restoreCtx_core (src fid i : Nat) (t : Tlv) (s : State) : (restoreCtx src fid i t s).core = s.core := by
  simp [restoreCtx]

@[simp] theorem restoreSa_core (g : Grants) (tenant fid : Nat) (t : Tlv) (s : State) : (restoreSa g tenant fid t s).core = s.core := by
  simp [restoreSa]

@[simp] theorem restoreKey_core (g : Grants) (tenant : Nat) (t : Tlv) (s : State) : (restoreKey g tenant t s).core = s.core := by
  simp [restoreKey]

@[simp] theorem modRestart_core (fid : Nat) (s : State) : (modRestart fid s).core = s.core := by
  simp [modRestart]

@[simp] theorem readIndices_core (fid : Nat) (s : State) : (readIndices fid s).core = s.core := by
  simp [readIndices]

@[simp] theorem ckvWrite_core (i v : Nat) (s : State) : (ckvWrite i v s).core = s.core := by
  simp only [ckvWrite, ite_core, State.modCip_core, State.setCkv_core, ite_self]

@[simp] theorem ccOf_core (fn : FnRef) (v : Nat) (s : State) : (ccOf fn v s).core = s.core := by
  unfold ccOf
  split <;> simp

@[simp] theorem takeTurn_core (fid qid : Nat) (s : State) : (takeTurn fid qid s).core = s.core := by
  simp [takeTurn]

@[simp] theorem withPtrs_core (c : NvCmd) (lists : List (List Byte)) (mdList : List Byte) (s : State) :
    (withPtrs c lists mdList s).2.core = s.core := by
  unfold withPtrs
  split <;> simp

@[simp] theorem enterCmd_core (c : NvCmd) (err : Option (Nat × Nat)) (s : State) : (enterCmd c err s).core = s.core := by
  unfold enterCmd
  split <;> simp

@[simp] theorem enterSecond_core (a c : NvCmd) (s : State) : (enterSecond a c s).core = s.core := by
  unfold enterSecond
  dsimp only
  repeat' split
  all_goals simp

@[simp] theorem fetchCmd_core (fid qid sqe : Nat) (lists : List (List Byte)) (mdList : List Byte) (dsm : List (Nat × Nat))
    (composed : Bool) (s : State) : (fetchCmd fid qid sqe lists mdList dsm composed s).core = s.core := by
  rw [fetchCmd]
  split
  · rfl
  split
  · simp
  extract_lets q half s1 s2 c ns c1 c2
  clear_value half
  have hread : s2.core = s.core := by simp [s2, s1]
  have hptrs : (withPtrs c2 lists mdList s2).2.core = s.core := (withPtrs_core ..).trans hread
  generalize withPtrs c2 lists mdList s2 = x at hptrs
  obtain ⟨d, s3⟩ := x
  dsimp -zeta only at hptrs ⊢
  extract_lets s4 more s5 s6
  have hranges : s4.core = s.core := by simp [s4, hptrs]
  have hhalf : s5.core = s.core := by
    simp only [s5]
    split
    · split <;> simp [hranges]
    · exact hranges
  split
  · simp [hhalf]
  split
  · split <;> simp [hhalf]
  split
  · simp [s6, hhalf]
  split <;> simp [hhalf]

@[simp] theorem moverTake_core (i seq : Nat) (s : State) : (moverTake i seq s).core = s.core := by
  unfold moverTake
  split <;> simp

@[simp] theorem readHost_core (c : NvCmd) (s : State) : (readHost c s).core = s.core := by
  simp [readHost]

@[simp] theorem startCmd_core (c : NvCmd) (s : State) : (startCmd c s).core = s.core := by
  unfold startCmd
  split
  · dsimp only
    split <;> simp
  · dsimp only
    split
    · split <;> simp
    · split
      · simp
      · rw [foldl_core (fun _ _ => by simp)]
        split <;> simp

@[simp] theorem cqNotify_core (fid q : Nat) (s : State) : (cqNotify fid q s).core = s.core := by
  simp [cqNotify]

@[simp] theorem storageMeter_core (c : NvCmd) (s : State) : (storageMeter c s).core = s.core := by
  simp [storageMeter]

@[simp] theorem ordPosted_core (c : NvCmd) (s : State) : (ordPosted c s).core = s.core := by
  simp [ordPosted]

@[simp] theorem postCmd_core (c : NvCmd) (s : State) : (postCmd c s).core = s.core := by
  simp [postCmd]

theorem admin_core {fid cid opc : Nat} {f : NvCmd → State → State} (h : ∀ c s, (f c s).core = s.core) (s : State) :
    (admin fid cid opc f s).core = s.core := by
  unfold admin
  split
  · exact h ..
  · rfl

@[simp] theorem abortCmd_core (sc : Nat) (c : NvCmd) (s : State) : (abortCmd sc c s).core = s.core := by
  simp [abortCmd]

@[simp] theorem smartPage_core (s : State) (fid : Nat) : (smartPage s fid).2.core = s.core := by
  unfold smartPage
  dsimp only
  refine List.foldlRecOn (motive := fun x : List Nat × State => x.2.core = s.core) (List.range 6) _ rfl ?_
  exact fun x hx j _ => hx

theorem logPage_core {s t : State} {fid lid : Nat} {bs : List Byte} (h : logPage s fid lid = some (bs, t)) : t.core = s.core := by
  unfold logPage at h
  dsimp only at h
  split at h
  case h_2 => exact core_of_snd (smartPage_core ..) (Option.some.inj h)
  case h_6 => cases h
  all_goals
    obtain ⟨-, rfl⟩ := Prod.mk.inj (Option.some.inj h)
    rfl

@[simp] theorem logRead_core (fid lid : Nat) (s : State) : (logRead fid lid s).core = s.core := by
  unfold logRead
  dsimp only
  split <;> simp

@[simp] theorem writeData_core (c : NvCmd) (data md : List Byte) (s : State) : (writeData c data md s).core = s.core := by
  unfold writeData
  split <;> simp

@[simp] theorem readEnd_core (c : NvCmd) (s : State) : (readEnd c s).core = s.core := by
  simp [readEnd]

@[simp] theorem readRep_core (h : Nat) (s : State) : (readRep h s).2.core = s.core := by
  unfold readRep
  repeat' split
  all_goals simp

@[simp] theorem readPart_core (c : NvCmd) (v : Volume) (rep off len : Nat) (s : State) : (readPart c v rep off len s).core = s.core := by
  simp [readPart]

@[simp] theorem readIssue_core (c : NvCmd) (s : State) : (readIssue c s).core = s.core := by
  unfold readIssue
  split
  · rfl
  · split
    next h => simp [core_of_snd (readRep_core ..) h]
    next h =>
      split
      · rfl
      · dsimp only
        split_ifs <;> simp [core_of_snd (readRep_core ..) h]

@[simp] theorem writeRange_core (c : NvCmd) (v : Volume) (i : Nat) (r : Nat × Nat) (s : State) : (writeRange c v i r s).core = s.core := by
  simp [writeRange]

@[simp] theorem intentTake_core (c : NvCmd) (s : State) : (intentTake c s).core = s.core := by
  unfold intentTake
  repeat' split
  all_goals simp

@[simp] theorem reconciled_core (h : Nat) (s : State) : (reconciled h s).core = s.core := by
  unfold reconciled
  split <;> simp

@[simp] theorem intentClear_core (c : NvCmd) (s : State) : (intentClear c s).core = s.core := by
  unfold intentClear
  split <;> simp

@[simp] theorem writeCheck_core (seq : Nat) (s : State) : (writeCheck seq s).core = s.core := by
  unfold writeCheck
  split <;> simp

@[simp] theorem readAgain_core (c : NvCmd) (b : BackCmd) (s : State) : (readAgain c b s).core = s.core := by
  unfold readAgain
  dsimp only
  repeat' split
  all_goals simp

@[simp] theorem backFailed_core (b : BackCmd) (s : State) : (backFailed b s).core = s.core := by
  unfold backFailed
  repeat' split
  all_goals simp

@[simp] theorem repMark_core (h i : Nat) (s : State) : (repMark h i s).core = s.core := by
  unfold repMark
  split <;> simp

@[simp] theorem degradeRep_core (h i : Nat) (s : State) : (degradeRep h i s).core = s.core := by
  unfold degradeRep
  split <;> simp

@[simp] theorem backBad_core (b : BackCmd) (s : State) : (backBad b s).core = s.core := by
  simp [backBad]

@[simp] theorem pduFrames_core (b : Nat) (p : PduIn) (s : State) : (pduFrames b p s).2.core = s.core := by
  refine List.foldlRecOn (motive := fun x : List (List Byte) × State × Nat => x.2.1.core = s.core) _ _ rfl fun x hx bs _ => ?_
  simpa using hx

@[simp] theorem pduPunt_core (b : Nat) (p : PduIn) (s : State) : (pduPunt b p s).core = s.core := by
  unfold pduPunt
  split <;> simp

@[simp] theorem pduMeter_core (b : Nat) (p : PduIn) (s : State) : (pduMeter b p s).core = s.core := by
  simp [pduMeter]

@[simp] theorem backLost_core (b : Nat) (s : State) : (backLost b s).core = s.core := by
  simp [backLost]

@[simp] theorem pduTaken_core (i : Nat) (p : PduIn) (errs : Nat) (s : State) : (pduTaken i p errs s).core = s.core := by
  simp [pduTaken]

@[simp] theorem recordDone_core (h n : Nat) (s : State) : (recordDone h n s).core = s.core := by
  unfold recordDone
  dsimp only
  split <;> simp

@[simp] theorem failMask_core (h failed : Nat) (reps : List Nat) (s : State) : (failMask h failed reps s).core = s.core := by
  simp [failMask]

@[simp] theorem copyOut_core (v : Volume) (src lba n : Nat) (dsts : List Nat) (data : List Byte) (s : State) :
    (copyOut v src lba n dsts data s).core = s.core := by
  simp [copyOut]

@[simp] theorem reconcileChunk_core (h failed : Nat) (data : List Byte) (s : State) : (reconcileChunk h failed data s).core = s.core := by
  unfold reconcileChunk
  dsimp only
  repeat' split
  all_goals simp

@[simp] theorem rebuildEnd_core (h : Nat) (s : State) : (rebuildEnd h s).core = s.core := by
  unfold rebuildEnd
  split <;> simp

@[simp] theorem rebuildChunk_core (h lba failed : Nat) (data : List Byte) (s : State) : (rebuildChunk h lba failed data s).core = s.core := by
  unfold rebuildChunk
  dsimp only
  repeat' split
  all_goals simp

@[simp] theorem settle_core (tid : Nat) (s : State) : (settle tid s).core = s.core := by
  simp [settle]

@[simp] theorem issued_core (tid : Nat) (s t : State) : (issued tid s t).core = t.core := by
  simp [issued]

theorem act_core {tid : Nat} {f : State → State} {s : State} (h : (f s).core = s.core) : (act tid f s).core = s.core := by
  simp [act, h]

@[simp] theorem setRd_core (tid rd v : Nat) (s : State) : (setRd tid rd v s).core = s.core := by
  simp [setRd]

@[simp] theorem mgmt0Commit_core (p : Nat) (m : Msg) (s : State) : (mgmt0Commit p m s).core = s.core := by
  simp [mgmt0Commit]

@[simp] theorem commitNow_core (tid ch n rd : Nat) (s : State) : (commitNow tid ch n rd s).core = s.core := by
  simp [commitNow]

@[simp] theorem block_core (tid : Nat) (w : TWait) (s : State) : (block tid w s).core = s.core := by
  simp [block]

@[simp] theorem chCmt_core (tid ch n rd : Nat) (nb : Bool) (s : State) : (chCmt tid ch n rd nb s).core = s.core := by
  unfold chCmt
  split <;> simp

@[simp] theorem exception_core (tid cause epc tval addr : Nat) (vectored : Bool) (s : State) :
    (exception tid cause epc tval addr vectored s).core = s.core := by
  simp [exception]

@[simp] theorem xexception_core (tid cause addr : Nat) (s : State) : (xexception tid cause addr s).core = s.core := by
  simp [xexception]

@[simp] theorem illegal_core (tid : Nat) (s : State) : (illegal tid s).core = s.core := by
  simp [illegal]

@[simp] theorem faultRead_core (ch : Nat) (s : State) : (faultRead ch s).core = s.core := by
  unfold faultRead
  dsimp only
  repeat' split
  all_goals simp

@[simp] theorem receive_core (tid ch rd : Nat) (s : State) : (receive tid ch rd s).core = s.core := by
  unfold receive
  split <;> simp

@[simp] theorem chRd_core (tid ch rd : Nat) (try_ : Bool) (s : State) : (chRd tid ch rd try_ s).core = s.core := by
  simp [chRd]

@[simp] theorem receiveAny_core (tid base mask rd : Nat) (s : State) : (receiveAny tid base mask rd s).core = s.core := by
  unfold receiveAny
  split <;> simp

@[simp] theorem chWaitany_core (tid base mask rd : Nat) (s : State) : (chWaitany tid base mask rd s).core = s.core := by
  unfold chWaitany
  repeat' split
  all_goals simp

@[simp] theorem forkThread_core (tid entry arg rd : Nat) (s : State) : (forkThread tid entry arg rd s).core = s.core := by
  unfold forkThread
  dsimp only
  repeat' split
  all_goals simp

@[simp] theorem threadHome_core (t : Nat) (s : State) : (threadHome t s).core = s.core := by
  simp [threadHome]

@[simp] theorem joinThread_core (tid target rd : Nat) (s : State) : (joinThread tid target rd s).core = s.core := by
  simp [joinThread]

@[simp] theorem joinDone_core (target v : Nat) (s : State) : (joinDone target v s).core = s.core := by
  unfold joinDone
  repeat' split
  all_goals simp

@[simp] theorem threadExit_core (tid value : Nat) (s : State) : (threadExit tid value s).core = s.core := by
  simp [threadExit]

@[simp] theorem leaveWait_core (t : Nat) (s : State) : (leaveWait t s).core = s.core := by
  unfold leaveWait
  split <;> simp

theorem tcsrWrite_core (tid csr v : Nat) (s : State) : ∀ {t}, tcsrWrite tid csr v s = some t → t.core = s.core := by
  unfold tcsrWrite
  split <;> simp

theorem mapped_core {tid addr n : Nat} {a : MapAccess} {f : State → State} {s : State} (h : (f s).core = s.core) :
    (mapped tid addr n a f s).core = s.core := by
  simp [mapped, h]

theorem actWin_core {tid : Nat} {f : State → State} (h : ∀ s, (f s).core = s.core) (s : State) : (actWin tid f s).core = s.core := by
  simp [actWin, h]

@[simp] theorem winStatus_core (tid st : Nat) (s : State) : (winStatus tid st s).core = s.core := by
  simp [winStatus]

@[simp] theorem injectPkt_core (part tenant pipe port : Nat) (bs : List Byte) (ts : Option Nat) (s : State) :
    (injectPkt part tenant pipe port bs ts s).core = s.core := by
  simp [injectPkt]

@[simp] theorem injectTry_core (tid tenant pipe port : Nat) (bs : List Byte) (ts : Option Nat) (s : State) :
    (injectTry tid tenant pipe port bs ts s).1.core = s.core := by
  unfold injectTry
  dsimp only
  split_ifs <;> simp

theorem ctxAct_core {tid index : Nat} {f : State → State} (h : ∀ s, (f s).core = s.core) (s : State) : (ctxAct tid index f s).core = s.core := by
  refine actWin_core (fun s => mapped_core ?_) s
  rw [h, State.modThread_core]

@[simp] theorem ctxStatus_core (tid st : Nat) (s : State) : (ctxStatus tid st s).core = s.core := by
  simp [ctxStatus]

@[simp] theorem ctxFails_core (tid : Nat) (s : State) : (ctxFails tid s).core = s.core := by
  simp [ctxFails]

@[simp] theorem resumeThread_core (tid : Nat) (s : State) : (resumeThread tid s).core = s.core := by
  unfold resumeThread
  dsimp only
  split <;> simp

@[simp] theorem State.modI3c_core (s : State) (f : I3c → I3c) : (State.modI3c s f).core = s.core := by
  simp [State.modI3c]

@[simp] theorem setEnables_core (direct : Bool) (events : Nat) (on : Bool) (s : State) : (setEnables direct events on s).core = s.core := by
  simp [setEnables]

@[simp] theorem i3cAnswer_core (f : State → List Byte) (s : State) : (i3cAnswer f s).core = s.core := by
  simp [i3cAnswer]

@[simp] theorem i3cReset_core (s : State) : (i3cReset s).core = s.core := by
  simp [i3cReset]

@[simp] theorem State.modChain_core (s : State) (f : Chain → Chain) : (State.modChain s f).core = s.core := by
  simp [State.modChain]

theorem chainRecv_core {type : Nat} {f : BitVec 64} {act : State → State} (h : ∀ s, (act s).core = s.core) (s : State) :
    (chainRecv type f act s).core = s.core := by
  simp [chainRecv, h]

@[simp] theorem chainClose_core (count addr : Nat) (s : State) : (chainClose count addr s).core = s.core := by
  simp [chainClose]

@[simp] theorem forward_core (f : BitVec 64) (s : State) : (forward f s).core = s.core := by
  simp [forward]

@[simp] theorem chainReform_core (s : State) : (chainReform s).core = s.core := by
  simp [chainReform]

@[simp] theorem leapDisarm_core (s : State) : (leapDisarm s).core = s.core := by
  simp [leapDisarm]

theorem leapArm_core (time : Nat) (s : State) : ∀ {t}, leapArm time s = some t → t.core = s.core := by
  unfold leapArm
  split <;> simp

@[simp] theorem controlMsg_core (part : Nat) (words : List Nat) (s : State) : (controlMsg part words s).core = s.core := by
  simp [controlMsg]

@[simp] theorem linkLost_core (s : State) : (linkLost s).core = s.core := by
  simp [linkLost]

@[simp] theorem State.modDbg_core (s : State) (f : Debug → Debug) : (State.modDbg s f).core = s.core := by
  simp [State.modDbg]

@[simp] theorem jtagRead_core (ir v : Nat) (s : State) : (jtagRead ir v s).core = s.core := by
  simp [jtagRead]

@[simp] theorem pinsLost_core (s : State) : (pinsLost s).core = s.core := by
  simp [pinsLost]

@[simp] theorem takePins_core (ir : Nat) (s : State) : (takePins ir s).core = s.core := by
  simp [takePins]

end Sys2Proof.Machine
end

section
/-! PROOFS. What every command keeps: the commands behind it, and the canonical form of the byte memories. -/

namespace Sys2Proof.Machine

/-- Of the view, what a fault keeps too: the commands behind this one and the byte memories. -/
def baseOf (c : List Instr × Phase × Nat × Eft × List Host.Cell × List Host.Cell × List Host.Cell) :
    List Instr × List Host.Cell × List Host.Cell × List Host.Cell := (c.1, c.2.2.2.2)

@[simp] theorem baseOf_mk (pending : List Instr) (phase : Phase) (clocks : Nat) (eft : Eft)
    (mems : List Host.Cell × List Host.Cell × List Host.Cell) : baseOf (pending, phase, clocks, eft, mems) = (pending, mems) := by
  rw [baseOf]

@[simp] theorem base_fold (s : State) : (s.pending, s.exch, s.region, s.pkt.scratch) = baseOf s.core := by
  rw [baseOf, State.core]

@[simp] theorem ite_base (p : Prop) [Decidable p] (c d : List Instr × Phase × Nat × Eft × List Host.Cell × List Host.Cell × List Host.Cell) :
    baseOf (if p then c else d) = if p then baseOf c else baseOf d := apply_ite ..

@[simp] theorem foldl_base {α : Type} {f : State → α → State} (h : ∀ s x, baseOf (f s x).core = baseOf s.core) (l : List α) (s : State) :
    baseOf (l.foldl f s).core = baseOf s.core := foldl_keeps (fun s : State => baseOf s.core) f h l s

theorem base_of_snd {α : Type} {p : α × State} {a : α} {t : State} {b : List Instr × List Host.Cell × List Host.Cell × List Host.Cell}
    (h : baseOf p.2.core = b) (e : p = (a, t)) : baseOf t.core = b := by
  rwa [e] at h

theorem base_of_fst {α : Type} {p : State × α} {a : α} {t : State} {b : List Instr × List Host.Cell × List Host.Cell × List Host.Cell}
    (h : baseOf p.1.core = b) (e : p = (t, a)) : baseOf t.core = b := by
  rwa [e] at h

/-- A view that keeps what another has: the same commands behind, and byte memories in canonical form where they were before. -/
structure KeepsBase (b c : List Instr × List Host.Cell × List Host.Cell × List Host.Cell) : Prop where
  queue : c.1 = b.1
  mem : memWf b.2.1 = true ∧ memWf b.2.2.1 = true ∧ memWf b.2.2.2 = true → memWf c.2.1 = true ∧ memWf c.2.2.1 = true ∧ memWf c.2.2.2 = true

@[simp] theorem KeepsBase.refl (b : List Instr × List Host.Cell × List Host.Cell × List Host.Cell) : KeepsBase b b := ⟨rfl, id⟩

section Memories
variable {b : List Instr × List Host.Cell × List Host.Cell × List Host.Cell} {queue : List Instr} {exch region scratch : List Host.Cell}

@[simp] theorem keepsBase_exch_wrN (a : Nat) (bs : List Byte) (h : KeepsBase b (queue, exch, region, scratch)) :
    KeepsBase b (queue, wrN exch a bs, region, scratch) :=
  ⟨h.queue, fun hb => ⟨memWf_wrN a bs (h.mem hb).1, (h.mem hb).2⟩⟩

@[simp] theorem keepsBase_exch_zeroN (a n : Nat) (h : KeepsBase b (queue, exch, region, scratch)) :
    KeepsBase b (queue, zeroN exch a n, region, scratch) :=
  ⟨h.queue, fun hb => ⟨memWf_zeroN a n (h.mem hb).1, (h.mem hb).2⟩⟩

@[simp] theorem keepsBase_region_wrN (a : Nat) (bs : List Byte) (h : KeepsBase b (queue, exch, region, scratch)) :
    KeepsBase b (queue, exch, wrN region a bs, scratch) :=
  ⟨h.queue, fun hb => ⟨(h.mem hb).1, memWf_wrN a bs (h.mem hb).2.1, (h.mem hb).2.2⟩⟩

@[simp] theorem keepsBase_region_zeroN (a n : Nat) (h : KeepsBase b (queue, exch, region, scratch)) :
    KeepsBase b (queue, exch, zeroN region a n, scratch) :=
  ⟨h.queue, fun hb => ⟨(h.mem hb).1, memWf_zeroN a n (h.mem hb).2.1, (h.mem hb).2.2⟩⟩

@[simp] theorem keepsBase_scratch_wrN (a : Nat) (bs : List Byte) (h : KeepsBase b (queue, exch, region, scratch)) :
    KeepsBase b (queue, exch, region, wrN scratch a bs) :=
  ⟨h.queue, fun hb => ⟨(h.mem hb).1, (h.mem hb).2.1, memWf_wrN a bs (h.mem hb).2.2⟩⟩

/-- A reset leaves no byte of the memories. -/
theorem keepsBase_empty (h : KeepsBase b (queue, exch, region, scratch)) : KeepsBase b (queue, [], [], []) :=
  ⟨h.queue, fun _ => ⟨rfl, rfl, rfl⟩⟩

@[simp] theorem keepsBase_ite {p : Prop} [Decidable p] {c d : List Instr × List Host.Cell × List Host.Cell × List Host.Cell}
    (hc : KeepsBase b c) (hd : KeepsBase b d) : KeepsBase b (if p then c else d) := by
  split
  · exact hc
  · exact hd

end Memories

theorem foldl_keepsBase {α : Type} {b : List Instr × List Host.Cell × List Host.Cell × List Host.Cell} {f : State → α → State}
    (hf : ∀ s x, KeepsBase b (baseOf s.core) → KeepsBase b (baseOf (f s x).core)) (l : List α) {s : State} (h : KeepsBase b (baseOf s.core)) :
    KeepsBase b (baseOf (l.foldl f s).core) := by
  induction l generalizing s with
  | nil => exact h
  | cons x l ih => exact ih (hf s x h)

/-- A command's meaning keeps, in every state, the commands behind it and the canonical form of the memories. -/
def Kept (g : State → Host.Outcome State Fault Refusal) : Prop := ∀ s t, g s = .next t → KeepsBase (baseOf s.core) (baseOf t.core)

theorem Kept.queue {g : State → Host.Outcome State Fault Refusal} (h : Kept g) {s t : State} (e : g s = .next t) : t.pending = s.pending :=
  (h s t e).queue

theorem Kept.mem {g : State → Host.Outcome State Fault Refusal} (h : Kept g) {s t : State} (e : g s = .next t) (hs : s.MemOk) : t.MemOk := by
  obtain ⟨hexch, hregion, hscratch⟩ := (h s t e).mem ⟨hs.exch, hs.region, hs.scratch⟩
  exact ⟨hexch, hregion, hscratch⟩

theorem kept_of_keeps {wf : Bool} {f : State → State} (h : ∀ s, KeepsBase (baseOf s.core) (baseOf (f s).core)) : Kept (run wf f) := by
  intro s t hrun
  unfold run at hrun
  split at hrun
  · cases hrun
    exact h s
  · cases hrun

theorem kept_of_base {wf : Bool} {f : State → State} (h : ∀ s, baseOf (f s).core = baseOf s.core) : Kept (run wf f) :=
  kept_of_keeps fun s => by rw [h s]; exact .refl _

theorem kept_of_core {wf : Bool} {f : State → State} (h : ∀ s, (f s).core = s.core) : Kept (run wf f) :=
  kept_of_base fun s => congrArg baseOf (h s)

end Sys2Proof.Machine
end

section
/-! PROOFS. Firmware: reset, staging, activation, confirmation, revocation and attestation (R361, R393 to R401, R412, R413). -/

namespace Sys2Proof.Machine

section Served
variable {x : XCall} {op : Nat} {r : Req} {s t : State} {body : Call → State → State × Reply}

/-- What a served command leaves whose body answers OK, before anything that follows the response. -/
theorem xop_replied (h : Served x op r s) {p : List Fld} (hb : body (callBy x r s) (begun x s) = (t, okWith p)) :
    xop x op body s = replied x r p t := by
  rw [xop_served h, hb]
  rfl

/-- What a served command leaves whose body starts and waits. -/
theorem xop_held (h : Served x op r s) {w : Wait} (hb : body (callBy x r s) (begun x s) = (t, .wait w)) : xop x op body s = held x r w t := by
  rw [xop_served h, hb]
  rfl

end Served

/-! ### What an answer keeps -/

@[simp] theorem replied_core (x : XCall) (r : Req) (p : List Fld) (s : State) : (replied x r p s).core = s.core := answerWith_core (by simp)

@[simp] theorem held_core (x : XCall) (r : Req) (w : Wait) (s : State) : (held x r w s).core = s.core := State.modMbx_core ..

@[simp] theorem held_eft (x : XCall) (r : Req) (w : Wait) (s : State) : (held x r w s).eft = s.eft := State.modMbx_eft ..

@[simp] theorem fenceMbx_nv (fid cause : Nat) (s : State) : (fenceMbx fid cause s).nv = s.nv := by
  unfold fenceMbx
  dsimp only
  split
  · simp [State.killFenced, State.killReads]
  · rfl

@[simp] theorem respond_nv (m : MbxId) (r : Req) (rspList : List (Nat × Nat)) (status detail : Nat) (p : List Byte) (hdr unit : Nat) (s : State) :
    (respond m r rspList status detail p hdr unit s).nv = s.nv := by
  have hinner := congrArg State.nv (respond_inner m r rspList status detail p hdr unit s)
  exact hinner

@[simp] theorem replied_nv (x : XCall) (r : Req) (p : List Fld) (s : State) : (replied x r p s).nv = s.nv := by
  unfold replied answerWith
  split
  · split <;> simp [State.composeFault]
  · simp

section Core
variable {s t : State}

theorem resetAfter_of_core (h : t.core = s.core) : t.eft.resetAfter = s.eft.resetAfter := congrArg (fun c => c.2.2.2.1.resetAfter) h

theorem resetPort_of_core (h : t.core = s.core) : t.eft.resetPort = s.eft.resetPort := congrArg (fun c => c.2.2.2.1.resetPort) h

theorem activating_of_core (h : t.core = s.core) : t.eft.activating = s.eft.activating := congrArg (fun c => c.2.2.2.1.activating) h

theorem trialLocked_of_core (h : t.core = s.core) : t.eft.trialLocked = s.eft.trialLocked := congrArg (fun c => c.2.2.2.1.trialLocked) h

end Core

/-! ### Slot words (R394) -/

theorem slotOf_modSlot_self {i : Nat} (h : i ≤ 1) (f : Slot → Slot) (s : State) : slotOf (s.modSlot i f) i = f (slotOf s i) := by
  obtain rfl | rfl : i = 0 ∨ i = 1 := by omega
  all_goals rfl

theorem slotOf_modSlot_other {i : Nat} (h : i ≤ 1) (f : Slot → Slot) (s : State) : slotOf (s.modSlot (1 - i) f) i = slotOf s i := by
  obtain rfl | rfl : i = 0 ∨ i = 1 := by omega
  all_goals rfl

@[simp] theorem slotOf_begun (x : XCall) (s : State) (i : Nat) : slotOf (begun x s) i = slotOf s i := by
  simp [slotOf]

@[simp] theorem onTrial_begun (x : XCall) (s : State) : onTrial (begun x s) = onTrial s := by
  simp [onTrial]

theorem revoke_modSlot (i : Nat) (f : Slot → Slot) (s : State) : (s.modSlot i f).nv.revoke = s.nv.revoke := by
  unfold State.modSlot
  split <;> rfl

theorem seqs_modSlot {f : Slot → Slot} (h : ∀ o, (f o).seq = o.seq) (i : Nat) (s : State) :
    (s.modSlot i f).nv.slotA.seq = s.nv.slotA.seq ∧ (s.modSlot i f).nv.slotB.seq = s.nv.slotB.seq := by
  unfold State.modSlot
  split <;> simp [h]

/-- A confirmed slot is CONFIRMED, whatever becomes of the other. -/
theorem state_confirmSlot {i : Nat} (h : i ≤ 1) (s : State) : (slotOf (confirmSlot i s) i).state = 6 := by
  unfold confirmSlot
  dsimp only
  split_ifs
  · rw [slotOf_modSlot_other h, slotOf_modSlot_self h]
  · rw [slotOf_modSlot_self h]

theorem restartEft_headless (s : State) : (restartEft s).eft.headless = true := by
  unfold restartEft
  split <;> rfl

/-- The state that no reset of a port is owed in. -/
theorem setResetPort_none {s : State} (h : s.eft.resetPort = none) : ({ s with eft := { s.eft with resetPort := none } } : State) = s := by
  rw [← h]

theorem afterResponse_of_none {s : State} (hafter : s.eft.resetAfter = false) (hport : s.eft.resetPort = none) : afterResponse s = s := by
  simp [afterResponse, hafter, hport]

theorem afterResponse_of_port {s : State} {n : Nat} (hafter : s.eft.resetAfter = false) (hport : s.eft.resetPort = some n) :
    afterResponse s = portReset n { s with eft := { s.eft with resetPort := none } } := by
  simp [afterResponse, hafter, hport]

theorem slotOf_congr {s t : State} (h : t.nv = s.nv) (i : Nat) : slotOf t i = slotOf s i := by
  simp [slotOf, h]

/-- The record of a drain that has ended. -/
theorem activating_abandoned (w : Wait → Bool) (status detail : Nat) (p : List Fld) (s : State) :
    (finishWait w status detail p { s with eft := { s.eft with activating := false } }).eft.activating = false :=
  activating_of_core (finishWait_core ..)

/-- `FW_ACTIVATE` without a full drain: the Eft restarts into the slot after the response (R398, R399). -/
theorem exec_fwActivate_eft {x : XCall} {r : Req} {s : State} {slot trial : Nat} (hr : Served x 0x0D02 r s)
    (hw : wfFwActivate x 0 slot trial = true) (hport : s.eft.resetPort = none) (hslot : slot ≤ 1) (htrial : trial ≤ 1)
    (hstate : [2, 5, 6].contains (slotOf s slot).state = true) (hrole : (callBy x r s).role = 1)
    (hfmt : 2 ≤ s.eft.running ∨ (slotOf s slot).stateFmt = (slotOf s s.eft.running).stateFmt) :
    ∃ u, exec (.fwActivate x 0 slot trial) s = .next (restartEft (activateWords slot (decide (trial = 1)) u)) ∧ u.nv = s.nv := by
  have hsame : ¬ (s.eft.running ≤ 1 ∧ ¬ (slotOf s slot).stateFmt = (slotOf s s.eft.running).stateFmt) := by
    rintro ⟨hrun, hne⟩
    exact hfmt.elim (by omega) hne
  let go := replied x r [] { begun x s with eft := { (begun x s).eft with resetPort := some (32 + slot + 2 * trial) } }
  have hgo : go.eft.resetPort = some (32 + slot + 2 * trial) := resetPort_of_core (replied_core ..)
  refine ⟨{ go with eft := { go.eft with resetPort := none } }, (run_next hw ?_ : execFwActivate x 0 slot trial s = _), by simp [go]⟩
  dsimp only
  rw [setResetPort_none hport, xop_replied hr (t := { begun x s with eft := { (begun x s).eft with resetPort := some (32 + slot + 2 * trial) } })
    (p := []) (by
      simp only [slotOf_begun, begun_eft, hrole, hstate]
      simp [hsame, show ¬ 1 < slot by omega, show ¬ 1 < trial by omega, ok])]
  show (match go.eft.resetPort with | some n => _ | none => _) = _
  rw [hgo]
  dsimp only
  rw [if_pos (by omega), show (32 + slot + 2 * trial) % 2 = slot by omega]
  congr 2
  exact decide_eq_decide.mpr (by omega)

/-- `FW_ACTIVATE` with a full drain waits for it (R400). -/
theorem exec_fwActivate_full {x : XCall} {r : Req} {s : State} {slot trial : Nat} (hr : Served x 0x0D02 r s)
    (hw : wfFwActivate x 1 slot trial = true) (hport : s.eft.resetPort = none) (hafter : s.eft.resetAfter = false) (hslot : slot ≤ 1)
    (htrial : trial ≤ 1) (hstate : [2, 5, 6].contains (slotOf s slot).state = true) (hrole : (callBy x r s).role = 1)
    (hfmt : 2 ≤ s.eft.running ∨ (slotOf s slot).stateFmt = (slotOf s s.eft.running).stateFmt) (hleap : leapPending (begun x s) = false)
    (hpad : padEdited (begun x s) = false) :
    exec (.fwActivate x 1 slot trial) s = .next (held x r (.fwDrain slot (decide (trial = 1)))
      { begun x s with eft := { (begun x s).eft with activating := true } }) := by
  have hsame : ¬ (s.eft.running ≤ 1 ∧ ¬ (slotOf s slot).stateFmt = (slotOf s s.eft.running).stateFmt) := by
    rintro ⟨hrun, hne⟩
    exact hfmt.elim (by omega) hne
  refine (run_next hw ?_ : execFwActivate x 1 slot trial s = _)
  dsimp only
  rw [setResetPort_none hport, xop_held hr (t := { begun x s with eft := { (begun x s).eft with activating := true } })
    (w := .fwDrain slot (decide (trial = 1))) (by
      simp only [slotOf_begun, begun_eft, hrole, hstate, hleap, hpad]
      simp [hsame, show ¬ 1 < slot by omega, show ¬ 1 < trial by omega])]
  simp only [held_eft, begun_eft, hport]
  exact afterResponse_of_none (by simp [hafter]) (by simp)

/-- Settles O18: each firmware command by the guards that its state meets; what follows a response is read off the Eft's registers, which an
answer keeps. -/
theorem firmwareCommands : Obligations.FirmwareCommands := by
  unfold Obligations.FirmwareCommands
  refine ⟨fun x r s hr hw => ⟨_, run_replied hw hr (by rfl), rfl, by simp⟩, fun x r s port hr hw => ?reset, ?portReset, ?stage, ?stageLast,
    ?unstage, fun x r s slot trial hr hw hport _ hslot htrial hstate hrole hfmt =>
      exec_fwActivate_eft hr hw hport hslot htrial hstate hrole hfmt,
    fun x r s slot trial hr hw hport hafter hslot htrial hstate hrole hfmt hleap hpad =>
      exec_fwActivate_full hr hw hport hafter hslot htrial hstate hrole hfmt hleap hpad, restartEft_headless, ?drained, ?holds, ?refused, ?late,
    fun x r s hr hw => run_replied hw hr (by simp [reads]), ?confirm, ?timer, ?revoke, ?quote⟩
  case reset =>
    refine (run_next hw ?_ : execDevReset x 0 port s = _)
    dsimp only
    rw [xop_replied hr (t := { begun x s with eft := { (begun x s).eft with resetAfter := true } }) (p := []) (by simp [ok])]
    have hafter := resetAfter_of_core (replied_core x r [] { begun x s with eft := { (begun x s).eft with resetAfter := true } })
    rw [afterResponse, if_pos hafter]
  case portReset =>
    intro x r s port hr hw hrole hmbx hexists hafter
    let go := replied x r [] { begun x s with eft := { (begun x s).eft with resetPort := some port } }
    have hgo : go.eft.resetPort = some port := resetPort_of_core (replied_core ..)
    have hgoAfter : go.eft.resetAfter = false := (resetAfter_of_core (replied_core ..)).trans (by simp [hafter])
    refine ⟨_, (run_next hw ?_ : execDevReset x 1 port s = _), linkUp_portReset port { go with eft := { go.eft with resetPort := none } }⟩
    dsimp only
    rw [xop_replied hr (t := { begun x s with eft := { (begun x s).eft with resetPort := some port } }) (p := [])
      (by
        have howner : (callBy x r s).owner = true := by simp [Call.owner, hrole]
        simp [howner, hexists, ok, hmbx])]
    exact afterResponse_of_port hgoAfter hgo
  case stage =>
    intro x r s slot total data hr hw hslot hrun htrial hpos hmax hlen hflag
    exact run_replied hw hr (by simp [hrun, htrial, callBy, hflag, ok, show ¬ 1 < slot by omega, show total ≠ 0 by omega,
      show ¬ 5242880 < total by omega, show ¬ total < data.length by omega])
  case stageLast =>
    intro x r s slot total data k hr hw hslot hrun htrial hpos hmax hlen hflag hkey hrev
    let staged := (begun x s).modSlot slot (fun o => { state := 1, seq := o.seq, img := data, total })
    have hslotOf : slotOf staged slot = { state := 1, seq := (slotOf s slot).seq, img := data, total } := by
      rw [slotOf_modSlot_self hslot, slotOf_begun]
    obtain ⟨hseqA, hseqB⟩ := seqs_modSlot (f := fun o => { state := 1, seq := o.seq, img := data, total }) (fun _ => rfl) slot (begun x s)
    have hk : (slotOf staged slot).key staged.nv.revoke = some k := by
      rw [hslotOf, revoke_modSlot, begun_nv]
      simp [Slot.key, Slot.rawKey, hkey, hrev]
    let t := staged.modSlot slot ({ · with state := 2, seq := max s.nv.slotA.seq s.nv.slotB.seq + 1 })
    have ht : slotOf t slot = { slotOf staged slot with state := 2, seq := max s.nv.slotA.seq s.nv.slotB.seq + 1 } := slotOf_modSlot_self hslot ..
    refine ⟨t, run_replied hw hr ?_, by rw [ht], by rw [ht, hslotOf], by rw [ht]⟩
    have hseqs : max staged.nv.slotA.seq staged.nv.slotB.seq + 1 = max s.nv.slotA.seq s.nv.slotB.seq + 1 := by
      rw [hseqA, hseqB, begun_nv]
    have hflags : bit (callBy x r s).flags 12 = true := hflag
    simp only [onTrial_begun, htrial, begun_eft, hflags, ne_eq]
    rw [if_neg (by omega), if_neg (by simp [hrun]), if_neg (by omega), if_neg (by omega)]
    simp only [not_true, if_false, Nat.zero_add, Nat.not_lt.mpr hlen, Bool.not_true, Bool.false_eq_true, decide_false, Bool.false_and,
      if_true]
    rw [show (slotOf ((begun x s).modSlot slot fun o => { state := 1, seq := o.seq, img := data, total }) slot).key
      ((begun x s).modSlot slot fun o => { state := 1, seq := o.seq, img := data, total }).nv.revoke = some k from hk]
    dsimp only
    rw [show max _ _ + 1 = _ from hseqs]
  case unstage =>
    intro x r s slot hr hw hslot hrun htrial
    exact run_replied hw hr (by simp [hrun, htrial, ok, show ¬ 1 < slot by omega])
  case drained =>
    intro s i trial hdrain hleap hpad hstore hengines hqueues
    refine ⟨_, (run_next (wf := wfFwActivateDrainDone) rfl ?_ : execFwActivateDrainDone s = _),
      activating_abandoned (· = .fwDrain i trial) stOk 0 [] (fwLeap i s)⟩
    simp [hdrain, hleap, hpad, hstore, padsHold, hengines, hqueues]
  case holds =>
    intro s hleap hpad hhold
    refine (run_next (wf := wfFwActivateDrainDone) rfl ?_ : execFwActivateDrainDone s = _)
    have hheld : padsHold s = true := by simpa [padsHold] using hhold
    split
    · rfl
    · simp [hleap, hpad, hheld]
  case refused =>
    intro s i trial hdrain hleap
    refine (run_next (wf := wfFwActivateDrainDone) rfl ?_ : execFwActivateDrainDone s = _)
    simp [hdrain, hleap, abandonFull]
  case late =>
    intro s i trial hdrain
    refine (run_next (wf := wfFwActivateDrainTimeout) rfl ?_ : execFwActivateDrainTimeout s = _)
    simp [hdrain, abandonFull, padsHold]
  case confirm =>
    intro s hphase htrial hlock heft
    have hslot : s.eft.running ≤ 1 := by simp [onTrial] at htrial; exact htrial.1
    exact ⟨_, (run_next (wf := wfTrialConfirm) rfl (if_pos (by simp [hphase, htrial, hlock, heft])) : execTrialConfirm s = _),
      state_confirmSlot hslot s⟩
  case timer =>
    intro s htrial hlock
    exact ⟨_, (run_next (wf := wfTrialTimerExpire) rfl (if_pos (by simp [htrial, hlock])) : execTrialTimerExpire s = _),
      trialLocked_of_core (State.event_core ..), by simp⟩
  case revoke =>
    intro x r s i hr hw hi hleft hflag
    exact run_replied hw hr (by simp [callBy, hflag, ok, hleft, show ¬ 3 < i by omega])
  case quote =>
    intro x r s nonce hr hw u body hroom
    refine run_replied hw hr ?_
    have hsize : ¬ (callBy x r s).room < body.length + 96 + 8 + (begun x s).nv.certChain.length := by
      rw [begun_nv]
      omega
    simp only [reads]
    rw [if_neg hsize, begun_nv]

end Sys2Proof.Machine
end

section
/-! PROOFS. What a fault and what the Eft's commands keep: everything of the view but the phase and the Eft's registers. -/

namespace Sys2Proof.Machine

@[simp] theorem bootOctets_base (s : State) : baseOf (bootOctets s).core = baseOf s.core := by
  unfold bootOctets
  dsimp only
  split <;> simp

@[simp] theorem releaseSlot_base (i reason : Nat) (s : State) : baseOf (releaseSlot i reason s).core = baseOf s.core := by
  simp [releaseSlot]

@[simp] theorem safeState_base (dkind unit : Nat) (s : State) : baseOf (safeState dkind unit s).core = baseOf s.core := by
  unfold safeState
  split <;> simp

@[simp] theorem eftFault_base (source stage : Nat) (s : State) : baseOf (eftFault source stage s).core = baseOf s.core := by
  simp [eftFault]

@[simp] theorem domFault_base (d : Dom) (source detail : Nat) (s : State) : baseOf (domFault d source detail s).core = baseOf s.core := by
  unfold domFault
  repeat' split
  all_goals simp

@[simp] theorem domEvent_base (d : Dom) (source detail : Nat) (s : State) : baseOf (domEvent d source detail s).core = baseOf s.core := by
  simp [domEvent]

@[simp] theorem scrubPoison_base (mem : ScrubMem) (unit addr : Nat) (s : State) :
    baseOf (scrubPoison mem unit addr s).core = baseOf s.core := by
  unfold scrubPoison
  dsimp only
  repeat' split
  all_goals simp

@[simp] theorem engineTurn_base (turn : PipeTurn) {f : State → State} (h : ∀ s, baseOf (f s).core = baseOf s.core) (s : State) :
    baseOf (engineTurn turn f s).core = baseOf s.core := by
  simp [engineTurn, h]

@[simp] theorem pcwMismatch_base (k : Pkt) (path : Nat) (s : State) : baseOf (pcwMismatch k path s).core = baseOf s.core := by
  simp [pcwMismatch]

@[simp] theorem sendEth_base (l0 q : Nat) (c : Copy) (b : Stored) (ok : Bool) (s : State) :
    baseOf (sendEth l0 q c b ok s).1.core = baseOf s.core := by
  unfold sendEth
  split
  · rfl
  rename_i p _
  dsimp only
  have htx := macsecTx_core l0 p.octet (wireBytes s l0 c b.pkt) s
  generalize macsecTx l0 p.octet (wireBytes s l0 c b.pkt) s = tx at htx ⊢
  obtain ⟨_ | wire, u⟩ := tx
  all_goals simp_all [apply_ite Prod.fst]

@[simp] theorem sendOrFence_base (l0 q : Nat) (c : Copy) (b : Stored) (ok composed : Bool) (s : State) :
    baseOf (sendOrFence l0 q c b ok composed s).1.core = baseOf s.core := by
  unfold sendOrFence
  dsimp only
  repeat' split
  all_goals simp

/-- The state that a delivery leaves, in the state it was tried in. -/
def Delivery.after (s : State) : Delivery → State
  | .left t _ => t
  | .stay => s
  | .kept t => t

theorem deliverHost_base (q : Nat) (c : Copy) (b : Stored) (bufs : List Nat) (ok composed : Bool) (s : State) :
    baseOf ((deliverHost q c b bufs ok composed s).after s).core = baseOf s.core := by
  unfold deliverHost
  extract_lets k fid lost
  have hlost (reason : Nat) (t : State) (h : baseOf t.core = baseOf s.core) : baseOf ((lost reason t).after s).core = baseOf s.core := by
    simp [lost, Delivery.after, h]
  split
  · exact hlost _ _ (by simp)
  split
  · exact hlost _ _ rfl
  split
  · simp [lost, Delivery.after]
  split
  · rfl
  rename_i t htake
  have hread := takeRead_core _ _ _ _ htake
  extract_lets x vlan bs owned idx tk fits room t' sent past freed
  clear_value tk fits room
  split
  · simp [Delivery.after, hread]
  split
  · simp [Delivery.after, hread]
  split
  · simp [Delivery.after, hread]
  split
  · simp [Delivery.after, hread]
  have hshort : t'.core = s.core := by simp [t', hread]
  split
  · exact hlost _ _ (by simp [hshort])
  · simp [Delivery.after, freed, sent, hshort]

@[simp] theorem schedule_base (l0 : Nat) (bufs : List Nat) (ok composed : Bool) (s : State) :
    baseOf (schedule l0 bufs ok composed s).core = baseOf s.core := by
  unfold schedule
  split
  · rfl
  dsimp only
  split
  · simp
  split
  · simp
  split
  · simp
  rename_i q _ _ b _
  have hhost := deliverHost_base q.queue q.copy b bufs ok composed (purgePort l0 s)
  split
  · simp
  · rename_i t hkept
    split at hkept
    · simp at hkept
    · simpa [hkept, Delivery.after] using hhost
  · rename_i t sent hleft
    split at hleft
    · cases hleft
      simp
    · simpa [hleft, Delivery.after] using hhost

@[simp] theorem settleAll_base (ok : Bool) {f : State → State} (h : ∀ s, baseOf (f s).core = baseOf s.core) (s : State) :
    baseOf (settleAll ok f s).core = baseOf s.core := by
  simp [settleAll, h]

@[simp] theorem stoPcwBad_base (c : NvCmd) (path : Nat) (s : State) : baseOf (stoPcwBad c path s).core = baseOf s.core := by
  simp [stoPcwBad]

@[simp] theorem readFinish_base (c : NvCmd) (key : List Byte) (bad : Option Nat) (s : State) :
    baseOf (readFinish c key bad s).core = baseOf s.core := by
  unfold readFinish
  dsimp only
  repeat' split
  all_goals simp

@[simp] theorem moverDone_base (r : CipherReq) (seq st : Nat) (bad : Option Nat) (s : State) :
    baseOf (moverDone r seq st bad s).core = baseOf s.core := by
  unfold moverDone
  dsimp only
  repeat' split
  all_goals simp

@[simp] theorem unitFaults_base (r : CipherReq) (s : State) : baseOf (unitFaults r s).core = baseOf s.core := by
  unfold unitFaults
  split <;> simp

@[simp] theorem restartEft_base (s : State) : baseOf (restartEft s).core = baseOf s.core := by
  unfold restartEft
  split <;> simp

@[simp] theorem abandonFull_base (i : Nat) (trial : Bool) (st : Nat) (s : State) : baseOf (abandonFull i trial st s).core = baseOf s.core := by
  simp [abandonFull]

@[simp] theorem readReady_base (c : NvCmd) (s : State) : baseOf (readReady c s).core = baseOf s.core := by
  unfold readReady
  repeat' split
  all_goals simp

@[simp] theorem backGood_base (b : BackCmd) (data : List Byte) (s : State) : baseOf (backGood b data s).core = baseOf s.core := by
  unfold backGood
  dsimp only
  repeat' split
  all_goals simp

@[simp] theorem backAnswer_base (b : BackCmd) (good : Bool) (data : List Byte) (s : State) :
    baseOf (backAnswer b good data s).core = baseOf s.core := by
  simp [backAnswer]

@[simp] theorem pduCheck_base (backend i : Nat) (p : PduIn) (s : State) : baseOf (pduCheck backend i p s).core = baseOf s.core := by
  unfold pduCheck
  dsimp only
  repeat' split
  all_goals simp

end Sys2Proof.Machine
end

section
/-! PROOFS. What the functions that write the byte memories keep. -/

namespace Sys2Proof.Machine

/-! ### The cold boot in its parts (R403) -/

/-- A TRIAL_RUN that a boot finds has failed (R395). -/
def failTrials (s : State) : State :=
  [0, 1].foldl (fun s i => if (slotOf s i).state = 4 then s.modSlot i ({ · with state := 5 }) else s) s

/-- The head of a chain starts to enumerate it. -/
def bootChain (s : State) : State :=
  let s := { s with chain := { s.chain with
    head := s.pins.chnHead
    state := if s.pins.chnHead then 1 else 0 } }
  if s.pins.chnHead then s.chainSend 1 0 true 0 1 else s

/-- The state at the choice of a slot. -/
def bootReady (s : State) : State :=
  let s := bootChain (failTrials
    { s with pins := { s.pins with sysRstN := true }, eft := { s.eft with bootDigest := Config.bootBlockDigest.toNat } })
  { bootLog s with wear := { units := s.nv.wearUnits, ageMicro := s.nv.ageMicro, hours := s.nv.hours } }

/-- A boot that ends in recovery mode. -/
def bootRecovery (s : State) : State :=
  let s := { s with
    phase := Phase.recovery
    eft := { s.eft with
      running := 0xFF, reason := 0xFF, portsUp := true
      rcvCause := if s.pins.bootRecoveryN then 1 else 2 } }
  let s := bootOctets s
  alarmLevels { s with hps := s.nv.hostRec }

/-- A boot that runs a slot. -/
def bootInto (i reason : Nat) (s : State) : State :=
  let s := releaseSlot i reason s
  let s := { s with phase := Phase.running }
  let s := bootCipher s
  let s := bootOctets s
  let s := { s with
    lanes := s.nv.failedLanes.map (fun e => (e.1, ({ failed := true } : Lane)))
    ports := mmap s.nv.portRec (fun _ p =>
      { p with state := if p.admin && octetMode s p.octet = 0 then 1 else 0 })
    hps := s.nv.hostRec }
  let s := installPatches (slotOf s i) [0, 1] (bootPacket s)
  let s := bootSkink i (bootStorage s)
  alarmLevels { s with eft := { s.eft with portsUp := true } }

theorem boot_eq (s : State) : boot s = match (if (bootReady s).pins.bootRecoveryN then selectSlot (bootReady s) else none) with
    | none => bootRecovery (bootReady s)
    | some (i, reason) => bootInto i reason (bootReady s) := rfl

section Keeps
variable {b : List Instr × List Host.Cell × List Host.Cell × List Host.Cell} {s : State}

@[simp] theorem partWr_keeps (p a : Nat) (bs : List Byte) (h : KeepsBase b (baseOf s.core)) : KeepsBase b (baseOf (partWr p a bs s).core) := by
  simp [partWr, h]

@[simp] theorem partZero_keeps (p : Nat) (h : KeepsBase b (baseOf s.core)) : KeepsBase b (baseOf (partZero p s).core) := by
  simp [partZero, h]

@[simp] theorem loadSvc_keeps (part : Nat) (l : List Byte) (h : KeepsBase b (baseOf s.core)) : KeepsBase b (baseOf (loadSvc part l s).core) := by
  unfold loadSvc
  rw [State.modPart_core]
  exact foldl_keepsBase (fun s g hs => partWr_keeps _ _ _ hs) _ (partZero_keeps _ h)

@[simp] theorem loadVendor_keeps (sl : Slot) (p : Nat) (h : KeepsBase b (baseOf s.core)) : KeepsBase b (baseOf (loadVendor sl p s).core) := by
  unfold loadVendor
  dsimp only
  repeat' split
  all_goals simp [h]

@[simp] theorem reloadVendor_keeps (slot : Nat) (h : KeepsBase b (baseOf s.core)) : KeepsBase b (baseOf (reloadVendor slot s).core) := by
  refine foldl_keepsBase (fun s e hs => ?_) _ h
  simp [hs]

@[simp] theorem bootSkink_keeps (slot : Nat) (h : KeepsBase b (baseOf s.core)) : KeepsBase b (baseOf (bootSkink slot s).core) := by
  simp [bootSkink, h]

@[simp] theorem loseAll_keeps (h : KeepsBase b (baseOf s.core)) : KeepsBase b (baseOf (loseAll s).core) := by
  simp only [loseAll, State.core_mk, baseOf_mk]
  exact keepsBase_empty (exch := s.exch) (region := s.region) (scratch := s.pkt.scratch) h

@[simp] theorem failTrials_core (s : State) : (failTrials s).core = s.core :=
  foldl_core (fun s i => by simp) _ s

@[simp] theorem bootChain_core (s : State) : (bootChain s).core = s.core := by
  simp [bootChain]

@[simp] theorem bootReady_base : baseOf (bootReady s).core = baseOf s.core := by
  simp [bootReady]

@[simp] theorem bootRecovery_base : baseOf (bootRecovery s).core = baseOf s.core := by
  simp [bootRecovery]

@[simp] theorem bootInto_keeps (i reason : Nat) (h : KeepsBase b (baseOf s.core)) : KeepsBase b (baseOf (bootInto i reason s).core) := by
  simp [bootInto, h]

@[simp] theorem boot_keeps (h : KeepsBase b (baseOf s.core)) : KeepsBase b (baseOf (boot s).core) := by
  rw [boot_eq]
  split <;> simp [h]

@[simp] theorem internalReset_keeps (h : KeepsBase b (baseOf s.core)) : KeepsBase b (baseOf (internalReset s).core) := by
  simp [internalReset, h]

@[simp] theorem finishWake_keeps (h : KeepsBase b (baseOf s.core)) : KeepsBase b (baseOf (finishWake s).core) := by
  simp [finishWake, h]

@[simp] theorem wakeSource_keeps (h : KeepsBase b (baseOf s.core)) : KeepsBase b (baseOf (wakeSource s).core) := by
  unfold wakeSource
  dsimp only
  repeat' split
  all_goals simp [h]

@[simp] theorem mgmt0Deliver_keeps (frame : List Byte) (h : KeepsBase b (baseOf s.core)) :
    KeepsBase b (baseOf (mgmt0Deliver frame s).core) := by
  unfold mgmt0Deliver
  extract_lets ch p span
  dsimp only
  split
  · rename_i e
    exact partWr_keeps _ _ _ (by simpa [core_of_fst (hwDeliver_core ..) e] using h)
  · rename_i e
    simpa [core_of_fst (hwDeliver_core ..) e] using h

@[simp] theorem scratchPut_keeps (pipe a v : Nat) (h : KeepsBase b (baseOf s.core)) : KeepsBase b (baseOf (scratchPut pipe a v s).core) := by
  simp [scratchPut, State.modPkt, h]

@[simp] theorem memDone_keeps (c : Ctx) (op a v : Nat) (key : Option Nat) (h : KeepsBase b (baseOf s.core)) :
    KeepsBase b (baseOf (memDone c op a v key s).2.core) := by
  unfold memDone
  dsimp only
  repeat' split
  all_goals simp [h]

@[simp] theorem opEffect_keeps (c : Ctx) (op : MOp) (h : KeepsBase b (baseOf s.core)) : KeepsBase b (baseOf (opEffect c op s).core) := by
  unfold opEffect
  split
  · simp [h]
  · simp [h]
  · simp [h]
  · split
    · next e => rwa [ckvSegment_core e]
    · exact h
  · exact h
  · exact h

@[simp] theorem flushOps_keeps (c : Ctx) (h : KeepsBase b (baseOf s.core)) : KeepsBase b (baseOf (flushOps c s).core) := by
  exact foldl_keepsBase (fun s o hs => opEffect_keeps _ _ hs) _ h

@[simp] theorem faultEnd_keeps (c : Ctx) (code addr : Nat) (h : KeepsBase b (baseOf s.core)) :
    KeepsBase b (baseOf (faultEnd c code addr s).core) := by
  simp [faultEnd, h]

@[simp] theorem runFwd_keeps (c : Ctx) (flow : Bool) (h : KeepsBase b (baseOf s.core)) :
    KeepsBase b (baseOf (runFwd c flow s).core) := by
  unfold runFwd
  dsimp only
  split
  · simp [h]
  split
  all_goals simp [h, apply_ite Prod.snd]

@[simp] theorem exportRun_keeps (i : Nat) (c : Ctx) (h : KeepsBase b (baseOf s.core)) :
    KeepsBase b (baseOf (exportRun i c s).2.1.core) := by
  unfold exportRun
  extract_lets k g ed just both look
  dsimp only
  split
  all_goals simp [ed, just, both, look, h, apply_ite Prod.fst, apply_ite Prod.snd]

@[simp] theorem runExport_keeps (c : Ctx) (i : Nat) (h : KeepsBase b (baseOf s.core)) :
    KeepsBase b (baseOf (runExport c i s).core) := by
  unfold runExport
  extract_lets pipe
  dsimp only
  split
  · simp [h]
  split
  · simp [h]
  split
  · simp [h]
  split
  · simp [h]
  have hrun (u : State) (hu : u.core = s.core) (c : Ctx) : KeepsBase b (baseOf (exportRun i c u).2.1.core) :=
    exportRun_keeps i c (by rwa [hu])
  split
  next c' t code e =>
    have ht := hrun _ (State.drawBelow_core s (exportWords i)) c
    rw [e] at ht
    exact faultEnd_keeps _ _ _ ht
  next c' t e =>
    have ht := hrun _ (State.drawBelow_core s (exportWords i)) c
    rw [e] at ht
    split
    · exact faultEnd_keeps _ _ _ ht
    · simpa using ht


@[simp] theorem runWord_keeps (c : Ctx) (addr w : Nat) (h : KeepsBase b (baseOf s.core)) :
    KeepsBase b (baseOf (runWord c addr w s).core) := by
  unfold runWord
  extract_lets k pipe cust
  split
  · simp [h]
  rename_i c1 c2 s1 _ _
  have hcnt : s1.core = s.core := by
    simp only [s1]
    split <;> simp
  clear_value s1 c2
  split
  rename_i c3 s2 hsum
  have hsum' : s2.core = s.core := core_of_snd (by split <;> simp [hcnt]) hsum
  split
  rename_i c4 s3 hlb
  have hlb' : s3.core = s.core := core_of_snd (by split <;> simp [hsum']) hlb
  extract_lets s4
  have hpunt : s4.core = s.core := by
    simp only [s4]
    split <;> simp [hlb']
  clear_value s4
  split
  rename_i c5 s5 hcry
  have hcry' : s5.core = s.core := core_of_snd (by split <;> simp [hpunt]) hcry
  split
  · simpa [hcry'] using h
  · split <;> simpa [hcry'] using h

@[simp] theorem stepEngine_keeps (pipe engine : Nat) (ecc : WordEcc) (h : KeepsBase b (baseOf s.core)) :
    KeepsBase b (baseOf (stepEngine pipe engine ecc s).core) := by
  unfold stepEngine
  dsimp only
  repeat' split
  all_goals simp [h]

@[simp] theorem ckvDone_keeps (c : Ctx) (op cur : Nat) (key : Option Nat) (h : KeepsBase b (baseOf s.core)) :
    KeepsBase b (baseOf (ckvDone c op cur key s).core) := by
  unfold ckvDone
  dsimp only
  split
  · exact h
  rename_i st l t e
  have ht : KeepsBase b (baseOf t.core) := by rwa [ckvSegment_core e]
  split <;> simp [ht]

@[simp] theorem opComplete_keeps (pipe id kind : Nat) (h : KeepsBase b (baseOf s.core)) :
    KeepsBase b (baseOf (opComplete pipe id kind s).core) := by
  unfold opComplete
  dsimp only
  repeat' split
  all_goals simp [h]

@[simp] theorem winAccess_keeps (fid off len : Nat) (write : Bool) (data : List Byte) (i : Nat) (w : Win) (stalled : Bool) (h : KeepsBase b
    (baseOf s.core)) :
    KeepsBase b (baseOf (winAccess fid off len write data i w stalled s).core) := by
  unfold winAccess
  dsimp only
  repeat' split
  all_goals simp [h]

@[simp] theorem bar2Write_keeps (fid off size v : Nat) (h : KeepsBase b (baseOf s.core)) :
    KeepsBase b (baseOf (bar2Write fid off size v s).core) := by
  unfold bar2Write
  dsimp only
  repeat' split
  all_goals simp [h]

@[simp] theorem barWrite_keeps (fid bar off size v : Nat) (h : KeepsBase b (baseOf s.core)) :
    KeepsBase b (baseOf (barWrite fid bar off size v s).core) := by
  unfold barWrite
  repeat' split
  all_goals simp [h]

@[simp] theorem afterResponse_keeps (h : KeepsBase b (baseOf s.core)) : KeepsBase b (baseOf (afterResponse s).core) := by
  unfold afterResponse
  repeat' split
  all_goals simp [h]

@[simp] theorem pipeDone_keeps (r : CipherReq) (pipe id st : Nat) (h : KeepsBase b (baseOf s.core)) :
    KeepsBase b (baseOf (pipeDone r pipe id st s).core) := by
  unfold pipeDone
  split
  · split
    · exact h
    · split
      rename_i st' l t e
      have ht : t.core = s.core := by
        have := congrArg (fun x : Nat × List Byte × State => x.2.2.core) e
        dsimp only at this
        rw [← this]
        split <;> simp
      extract_lets t1 t2 k c1 t3
      have ht1 : t1.core = s.core := by
        simp only [t1]
        split <;> simp [ht]
      have ht2 : t2.core = s.core := by simp [t2, ht1]
      have ht3 : t3.core = s.core := by simp [t3, ht2]
      clear_value t3 t2 c1
      split
      · simp [ht3, h]
      · simp [ht2, h]
  · exact h

@[simp] theorem threadDone_keeps (r : CipherReq) (tid ch st : Nat) (h : KeepsBase b (baseOf s.core)) :
    KeepsBase b (baseOf (threadDone r tid ch st s).core) := by
  unfold threadDone
  extract_lets p
  split
  · exact h
  rename_i l zero _
  have hzero (t : State) (ht : KeepsBase b (baseOf t.core)) : KeepsBase b (baseOf (zero t).core) := partWr_keeps _ _ _ ht
  split
  rename_i st' t e
  have ht : KeepsBase b (baseOf t.core) := by
    rw [show t = _ from (congrArg Prod.snd e).symm]
    split
    · split
      · simp [h]
      · exact hzero s h
    · simp [h, hzero]
    · exact h
  split
  rename_i n u e'
  have hu : u.core = t.core := core_of_snd (by split <;> simp) e'
  simp [hu, ht]

@[simp] theorem reqFinish_keeps (r : CipherReq) (st : Nat) (bad : Option Nat) (h : KeepsBase b (baseOf s.core)) :
    KeepsBase b (baseOf (reqFinish r st bad s).core) := by
  unfold reqFinish
  dsimp only
  repeat' split
  all_goals simp [h]

@[simp] theorem reqComplete_keeps (req : Nat) (hwFault : Bool) (pcwBad : Option Nat) (h : KeepsBase b (baseOf s.core)) :
    KeepsBase b (baseOf (reqComplete req hwFault pcwBad s).core) := by
  unfold reqComplete
  repeat' split
  all_goals simp [h]

@[simp] theorem restoreTlv_keeps (src fid tenant : Nat) (g : Grants) (v : Tlv) (h : KeepsBase b (baseOf s.core)) :
    KeepsBase b (baseOf (restoreTlv src fid tenant g v s).core) := by
  unfold restoreTlv
  repeat' split
  all_goals simp [h]

@[simp] theorem restoreAll_keeps (fid saveId src : Nat) (ts : List Tlv) (h : KeepsBase b (baseOf s.core)) :
    KeepsBase b (baseOf (restoreAll fid saveId src ts s).1.core) := by
  unfold restoreAll
  extract_lets g
  split
  · exact h
  split
  · exact h
  split
  · exact h
  split
  · exact h
  rename_i t ht
  have hfold (l : List Tlv) : KeepsBase b (baseOf (l.foldl (fun s v => restoreTlv src fid (tenantOf s fid) g v s) t).core) :=
    foldl_keepsBase (fun s v hs => restoreTlv_keeps _ _ _ _ _ hs) l (by rwa [restoreEntries_core _ _ _ ht])
  simp [hfold]

theorem xop_keeps {x : XCall} {op : Nat} {body : Call → State → State × Reply}
    (hbody : ∀ c s, KeepsBase b (baseOf s.core) → KeepsBase b (baseOf (body c s).1.core)) (h : KeepsBase b (baseOf s.core)) :
    KeepsBase b (baseOf (xop x op body s).core) := by
  obtain hs | ⟨c, t, ht, hs⟩ := xcs_cases x (· = op) body s
  · rwa [xop, hs]
  · rw [xop, hs]
    exact hbody c t (by rwa [ht])

theorem chainRecv_keeps {type : Nat} {f : BitVec 64} {g : State → State}
    (hg : ∀ s, KeepsBase b (baseOf s.core) → KeepsBase b (baseOf (g s).core)) (h : KeepsBase b (baseOf s.core)) :
    KeepsBase b (baseOf (chainRecv type f g s).core) := by
  unfold chainRecv
  split
  · exact h
  split
  · simpa using h
  split
  · exact h
  · exact hg _ (by simpa using h)

theorem act_keeps {tid : Nat} {f : State → State} (hf : KeepsBase b (baseOf s.core) → KeepsBase b (baseOf (f s).core))
    (h : KeepsBase b (baseOf s.core)) : KeepsBase b (baseOf (act tid f s).core) := by
  unfold act
  split
  · simpa using hf h
  · exact h

theorem engineTurn_keeps (turn : PipeTurn) {f : State → State}
    (hf : ∀ s, KeepsBase b (baseOf s.core) → KeepsBase b (baseOf (f s).core)) (h : KeepsBase b (baseOf s.core)) :
    KeepsBase b (baseOf (engineTurn turn f s).core) := by
  have hin := hf (s.modPkt fun p => { p with puntCheck := b2n (!turn.puntOk) }) (by simpa using h)
  simpa [engineTurn] using hin

theorem settleAll_keeps (ok : Bool) {f : State → State} (hf : KeepsBase b (baseOf s.core) → KeepsBase b (baseOf (f s).core))
    (h : KeepsBase b (baseOf s.core)) : KeepsBase b (baseOf (settleAll ok f s).core) := by
  simpa [settleAll] using hf h

end Keeps

end Sys2Proof.Machine
end

section
/-! PROOFS. Every command keeps the commands behind it and the canonical form of the byte memories (R75, R178, R372). -/

namespace Sys2Proof.Machine

theorem execSysRstNAssert_kept : Kept execSysRstNAssert := kept_of_keeps fun s => by simp

theorem execSysRstNRelease_kept (chnHead bootRecoveryN : Bool) (ownerStrap : Nat) : Kept (execSysRstNRelease chnHead bootRecoveryN ownerStrap) := by
  refine kept_of_keeps fun s => ?_
  split <;> simp

theorem execPwrOkRise_kept : Kept execPwrOkRise := kept_of_keeps fun s => by simp

theorem execPwrOkFall_kept : Kept execPwrOkFall := kept_of_keeps fun s => by simp

theorem execAlarmNAssert_kept (ns : Nat) (stillLow : Bool) : Kept (execAlarmNAssert ns stillLow) := kept_of_core fun s => by simp

theorem execSupplyGlitch_kept (rail : GuardedRail) (permille ns : Nat) : Kept (execSupplyGlitch rail permille ns) := kept_of_core fun s => by simp

theorem execTjThresholdCross_kept (sensor tj : Nat) : Kept (execTjThresholdCross sensor tj) := kept_of_core fun s => by simp

theorem execWakeNAssert_kept (ns : Nat) : Kept (execWakeNAssert ns) := kept_of_keeps fun s => by simp

theorem execPpsInEdge_kept : Kept execPpsInEdge := kept_of_core fun s => by simp

theorem execPtpStep_kept (delta : Int) : Kept (execPtpStep delta) := kept_of_core fun s => by simp

theorem execArbiterEpoch_kept (core sds : List EpochReq) (coreNow sdsNow : Nat) : Kept (execArbiterEpoch core sds coreNow sdsNow) :=
  kept_of_core fun s => by simp

theorem execHardLimitCross_kept (sdsRail : Bool) (now : Nat) : Kept (execHardLimitCross sdsRail now) := kept_of_core fun s => by simp

theorem execGovernorPeriod_kept (late : Bool) : Kept (execGovernorPeriod late) := kept_of_core fun s => by simp

theorem execAvsWriteDone_kept (ok : Bool) : Kept (execAvsWriteDone ok) := by
  refine kept_of_core fun s => ?_
  dsimp only
  repeat' split
  all_goals simp

theorem execSensorWindow_kept (cluster : Bool) (unit rate : Nat) : Kept (execSensorWindow cluster unit rate) := kept_of_core fun s => by simp

theorem execStallWatchdogFire_kept (dom : HsDom) (stall : Stall) : Kept (execStallWatchdogFire dom stall) := kept_of_base fun s => by simp

theorem execInvalidCodeword_kept (dom : HsDom) (stage : Nat) : Kept (execInvalidCodeword dom stage) := kept_of_base fun s => by simp

theorem execClearSelftestDone_kept (dom : Dom) (pass : Bool) : Kept (execClearSelftestDone dom pass) := kept_of_core fun s => by simp

theorem execProbationEnd_kept (dom : Dom) : Kept (execProbationEnd dom) := kept_of_core fun s => by simp

theorem execCheckerSelftest_kept (dom : Dom) (checker : Nat) (flagged : Bool) : Kept (execCheckerSelftest dom checker flagged) :=
  kept_of_base fun s => by simp

theorem execScrubStep_kept (mem : ScrubMem) (unit addr : Nat) (found : ScrubResult) : Kept (execScrubStep mem unit addr found) := by
  refine kept_of_base fun s => ?_
  repeat' split
  all_goals simp

theorem execEftLockstepMismatch_kept (stage : Nat) : Kept (execEftLockstepMismatch stage) := kept_of_base fun s => by simp

theorem execEftRestartDone_kept : Kept execEftRestartDone := kept_of_base fun s => by simp

theorem execWearEvaluation_kept (kind unit corr word row stall : Nat) (held24 : Bool) :
    Kept (execWearEvaluation kind unit corr word row stall held24) :=
  kept_of_core fun s => by simp

theorem execAgeHour_kept (tjMax : Int) : Kept (execAgeHour tjMax) := kept_of_core fun s => by simp

theorem execRegrowthDone_kept (kind : Nat) (ok : Bool) : Kept (execRegrowthDone kind ok) := kept_of_core fun s => by simp

theorem execLaneBerWindow_kept (lane ber10s ber10min : Nat) : Kept (execLaneBerWindow lane ber10s ber10min) := by
  refine kept_of_core fun s => ?_
  split <;> simp

theorem execLinkTrainingDone_kept (port : Nat) (ok : Bool) (failed : Nat) : Kept (execLinkTrainingDone port ok failed) :=
  kept_of_core fun s => by simp

theorem execReformTimeout_kept (port : Nat) : Kept (execReformTimeout port) := kept_of_core fun s => by simp

theorem execLinkLoss_kept (port : Nat) : Kept (execLinkLoss port) := kept_of_core fun s => by simp

theorem execEthFrameReceive_kept (port : Nat) (frame : List Byte) (fcs : BitVec 32) (fecOk : Bool) :
    Kept (execEthFrameReceive port frame fcs fecOk) :=
  kept_of_core fun s => by simp

theorem execPauseFrameReceive_kept (port : Nat) (pfc : Bool) (mask : Nat) (quanta : List Nat) : Kept (execPauseFrameReceive port pfc mask quanta) :=
  kept_of_core fun s => by simp

theorem execPauseQuantaExpire_kept (port prio : Nat) : Kept (execPauseQuantaExpire port prio) := kept_of_core fun s => by simp

theorem execPauseStormLimit_kept (port prio : Nat) : Kept (execPauseStormLimit port prio) := kept_of_core fun s => by simp

theorem execPauseStormClear_kept (port prio : Nat) : Kept (execPauseStormClear port prio) := kept_of_core fun s => by simp

theorem execMgmt0FrameReceive_kept (frame : List Byte) (fcs : BitVec 32) : Kept (execMgmt0FrameReceive frame fcs) := kept_of_keeps fun s => by simp

theorem execPipelineHeaderAccept_kept (turn : PipeTurn) : Kept (execPipelineHeaderAccept turn) := kept_of_base fun s => by simp

theorem execMicroword_kept (turn : PipeTurn) (engine : Nat) (ecc : WordEcc) : Kept (execMicroword turn engine ecc) := by
  refine kept_of_keeps fun s => engineTurn_keeps _ (fun s h => ?_) (.refl _)
  simp [h]

theorem execMicrocodeOpComplete_kept (turn : PipeTurn) (ctx kind : Nat) : Kept (execMicrocodeOpComplete turn ctx kind) := by
  refine kept_of_keeps fun s => engineTurn_keeps _ (fun s h => ?_) (.refl _)
  simp [h]

theorem execSprayReseqTimeout_kept (unit stream : Nat) : Kept (execSprayReseqTimeout unit stream) := kept_of_core fun s => by simp

theorem execSprayContextIdle_kept (unit stream : Nat) : Kept (execSprayContextIdle unit stream) := by
  refine kept_of_core fun s => ?_
  dsimp only
  split <;> simp

theorem execFlowletGapExpire_kept (group pipe bucket : Nat) : Kept (execFlowletGapExpire group pipe bucket) := kept_of_core fun s => by simp

theorem execLbImbalanceWindow_kept (group : Nat) : Kept (execLbImbalanceWindow group) := kept_of_core fun s => by simp

theorem execAgingSlice_kept (table pipe : Nat) (examined : Option Nat) : Kept (execAgingSlice table pipe examined) := kept_of_core fun s => by simp

theorem execLearnServiceEvent_kept (pipe : Nat) : Kept (execLearnServiceEvent pipe) := kept_of_core fun s => by simp

theorem execRehashDone_kept (table pipe : Nat) : Kept (execRehashDone table pipe) := kept_of_core fun s => by simp

theorem execEgressSchedule_kept (l0 : Nat) (bufs : List (BitVec 128)) (pcwOk composed : Bool) : Kept (execEgressSchedule l0 bufs pcwOk composed) :=
  kept_of_base fun s => by simp

theorem execDeadlineHeadCheck_kept (queue : Nat) : Kept (execDeadlineHeadCheck queue) := by
  refine kept_of_core fun s => ?_
  split <;> simp

theorem execQueueTelemetrySample_kept (ring consumer inTime : Nat) : Kept (execQueueTelemetrySample ring consumer inTime) :=
  kept_of_core fun s => by simp

theorem execMinuteBoundary_kept : Kept execMinuteBoundary := kept_of_core fun s => by simp

theorem execMeterExport_kept (lost : List Nat) : Kept (execMeterExport lost) := kept_of_core fun s => by simp

theorem execTimedLeapTrigger_kept (spread : Nat) : Kept (execTimedLeapTrigger spread) := by
  refine kept_of_core fun s => ?_
  split <;> simp

theorem execPadWriteResume_kept (mbx : MbxId) (timedOut : Bool) : Kept (execPadWriteResume mbx timedOut) := kept_of_core fun s => by simp

theorem execPcieConfigRequest_kept (fn : FnRef) (reg : CfgReg) (bus : Nat) (write : Bool) (value : Nat) :
    Kept (execPcieConfigRequest fn reg bus write value) := by
  refine kept_of_core fun s => ?_
  split <;> simp

theorem execBmeClear_kept (fid : Nat) : Kept (execBmeClear fid) := kept_of_core fun s => by simp

theorem execMseClear_kept (fid : Nat) : Kept (execMseClear fid) := kept_of_core fun s => by simp

theorem execFlr_kept (fid : Nat) : Kept (execFlr fid) := kept_of_core fun s => by simp

theorem execVfEnableSet_kept (fid numVfs : Nat) : Kept (execVfEnableSet fid numVfs) := kept_of_core fun s => by simp

theorem execVfEnableClear_kept (fid : Nat) : Kept (execVfEnableClear fid) := kept_of_core fun s => by simp

theorem execD3hotEnter_kept (fid : Nat) : Kept (execD3hotEnter fid) := kept_of_core fun s => by simp

theorem execD0Return_kept (fid : Nat) : Kept (execD0Return fid) := kept_of_core fun s => by simp

theorem execD3coldEnter_kept (port : Nat) : Kept (execD3coldEnter port) := kept_of_core fun s => by simp

theorem execHpPerstNAssert_kept (port ns : Nat) : Kept (execHpPerstNAssert port ns) := kept_of_core fun s => by simp

theorem execHpPerstNDeassert_kept (port : Nat) : Kept (execHpPerstNDeassert port) := kept_of_core fun s => by simp

theorem execHotReset_kept (port : Nat) : Kept (execHotReset port) := kept_of_core fun s => by simp

theorem execDlUp_kept (port width gt : Nat) (flit : Bool) : Kept (execDlUp port width gt flit) := kept_of_core fun s => by simp

theorem execL1Enter_kept (port : Nat) (aspm : Bool) : Kept (execL1Enter port aspm) := kept_of_core fun s => by simp

theorem execMsixUnmask_kept (fid vector : Nat) : Kept (execMsixUnmask fid vector) := kept_of_core fun s => by simp

theorem execBar4WindowTlp_kept (fid off len : Nat) (write : Bool) (data : List Byte) (stalled : Bool) :
    Kept (execBar4WindowTlp fid off len write data stalled) := by
  refine kept_of_keeps fun s => ?_
  dsimp only
  repeat' split
  all_goals simp

theorem execPcieReadCompletion_kept (port tag : Nat) (data : Option (List Byte)) : Kept (execPcieReadCompletion port tag data) := by
  refine kept_of_core fun s => ?_
  repeat' split
  all_goals simp

theorem execCompletionTimeout_kept (port tag : Nat) : Kept (execCompletionTimeout port tag) := by
  refine kept_of_core fun s => ?_
  split <;> simp

theorem execRingEnable_kept (fid ring value : Nat) : Kept (execRingEnable fid ring value) := kept_of_core fun s => by simp

theorem execRingDisable_kept (fid ring value : Nat) : Kept (execRingDisable fid ring value) := kept_of_core fun s => by simp

theorem execRingReset_kept (fid ring : Nat) : Kept (execRingReset fid ring) := kept_of_core fun s => by simp

theorem execRingDb_kept (fid ring : Nat) (composed : Bool) : Kept (execRingDb fid ring composed) := kept_of_core fun s => by simp

theorem execIndexWordReadDone_kept (fid : Nat) (of : IdxOf) (q : Nat) : Kept (execIndexWordReadDone fid of q) := kept_of_core fun s => by simp

theorem execHostTxPacket_kept (fid ring : Nat) (descs : List (BitVec 256)) (data : List Byte) (composed : Bool) :
    Kept (execHostTxPacket fid ring descs data composed) :=
  kept_of_core fun s => by simp

theorem execCplCi_kept (fid ring c : Nat) : Kept (execCplCi fid ring c) := kept_of_core fun s => by simp

theorem execCplModTimerExpire_kept (fid ring : Nat) : Kept (execCplModTimerExpire fid ring) := kept_of_core fun s => by simp

theorem execFnCtlUnfence_kept (fid : Nat) : Kept (execFnCtlUnfence fid) := kept_of_core fun s => by simp

theorem execRegisterWrite_kept (fn : FnRef) (bar off size value : Nat) : Kept (execRegisterWrite fn bar off size value) := by
  refine kept_of_keeps fun s => ?_
  split <;> simp

theorem execMbxEnable_kept (fid value : Nat) : Kept (execMbxEnable fid value) := kept_of_core fun s => by simp

theorem execMbxDisable_kept (fid value : Nat) : Kept (execMbxDisable fid value) := kept_of_core fun s => by simp

theorem execMbxDb_kept (fid value size : Nat) (composed : Bool) : Kept (execMbxDb fid value size composed) := kept_of_core fun s => by simp

theorem execMbxHeadlessAnswer_kept (mbx : MbxId) : Kept (execMbxHeadlessAnswer mbx) := kept_of_core fun s => by simp

theorem execUnassignedOpcode_kept (x : XCall) : Kept (execUnassignedOpcode x) := kept_of_core (xcs_core (reads_core _))

theorem execDevInfo_kept (x : XCall) : Kept (execDevInfo x) := kept_of_core (xop_core (reads_core _))

theorem execDevCaps_kept (x : XCall) : Kept (execDevCaps x) := kept_of_core (xop_core (reads_core _))

theorem execDevTimeGet_kept (x : XCall) : Kept (execDevTimeGet x) := kept_of_core (xop_core (reads_core _))

theorem execDevTimeSet_kept (x : XCall) (mode value : Nat) : Kept (execDevTimeSet x mode value) := by
  refine kept_of_core (xop_core fun c s => ?_)
  split <;> simp

theorem execDevReset_kept (x : XCall) (kind port : Nat) : Kept (execDevReset x kind port) := by
  refine kept_of_keeps fun s => afterResponse_keeps (xop_keeps (fun c s h => ?_) (.refl _))
  repeat' split
  all_goals simp [h]

theorem execPortConfig_kept (x : XCall) (p : PortCfg) : Kept (execPortConfig x p) := by
  refine kept_of_core (xop_core fun c s => ?_)
  dsimp only
  repeat' split
  all_goals simp

theorem execPortState_kept (x : XCall) (port : Nat) : Kept (execPortState x port) := kept_of_core (xop_core (reads_core _))

theorem execPortStats_kept (x : XCall) (port form : Nat) : Kept (execPortStats x port form) := kept_of_core (xop_core (reads_core _))

theorem execLaneDiag_kept (x : XCall) (lane func pattern : Nat) (measured : List Nat) : Kept (execLaneDiag x lane func pattern measured) := by
  refine kept_of_core fun s => ?_
  split
  · rfl
  · exact xop_core (fun _ s => laneDiag_core lane func pattern measured s) s

theorem execOctetMode_kept (x : XCall) (octet mode floors : Nat) : Kept (execOctetMode x octet mode floors) := by
  refine kept_of_core (xop_core fun c s => ?_)
  simp [apply_ite Prod.fst]

theorem execAllotSet_kept (x : XCall) (port tenant tenBase tenCount : Nat) (counts : List Nat) :
    Kept (execAllotSet x port tenant tenBase tenCount counts) := by
  refine kept_of_core (xop_core fun c s => ?_)
  dsimp only
  repeat' split
  all_goals simp

theorem execAllotGet_kept (x : XCall) (port : Nat) : Kept (execAllotGet x port) := kept_of_core (xop_core (reads_core _))

theorem execFnCreate_kept (x : XCall) (port pf vf : Nat) (counts : List Nat) : Kept (execFnCreate x port pf vf counts) := by
  refine kept_of_core (xop_core fun c s => ?_)
  beta_reduce
  iterate 6
    split
    · rfl
  split
  · rfl
  split
  · rfl
  split
  · rfl
  split
  rename_i t hdraw
  have ht : t.core = s.core := core_of_snd (State.draw_core s) hdraw
  extract_lets
  split
  · rfl
  · exact ht

theorem execFnDestroy_kept (x : XCall) (fid : Nat) : Kept (execFnDestroy x fid) := by
  refine kept_of_keeps fun s => xop_keeps (fun c s h => ?_) (.refl _)
  dsimp only
  repeat' split
  all_goals simp [h]

theorem execFnQuery_kept (x : XCall) (fid : Nat) : Kept (execFnQuery x fid) := kept_of_core (xop_core (reads_core _))

theorem execTenantBind_kept (x : XCall) (fid tenant : Nat) : Kept (execTenantBind x fid tenant) := by
  refine kept_of_core (xop_core fun c s => ?_)
  dsimp only
  split_ifs <;> simp

theorem execWindowSet_kept (x : XCall) (w : WinCfg) : Kept (execWindowSet x w) := by
  refine kept_of_core (xop_core fun c s => ?_)
  dsimp only
  repeat' split
  all_goals simp

theorem execWindowRetire_kept (x : XCall) (port index : Nat) : Kept (execWindowRetire x port index) := by
  refine kept_of_core (xop_core fun c s => ?_)
  dsimp only
  split_ifs <;> simp

theorem execWindowDrainDone_kept (port index : Nat) : Kept (execWindowDrainDone port index) := kept_of_core fun s => by simp

theorem execWindowRetireTimeout_kept (port index : Nat) : Kept (execWindowRetireTimeout port index) := kept_of_core fun s => by simp

theorem execTblInsert_kept (x : XCall) (table pipes index : Nat) (entry : TblEntry) : Kept (execTblInsert x table pipes index entry) :=
  kept_of_core (xop_core fun c s => by simp)

theorem execTblDelete_kept (x : XCall) (table pipes index : Nat) (entry : TblEntry) : Kept (execTblDelete x table pipes index entry) :=
  kept_of_core (xop_core fun c s => by simp)

theorem execTblLookup_kept (x : XCall) (table pipe index : Nat) (entry : TblEntry) : Kept (execTblLookup x table pipe index entry) :=
  kept_of_core (xop_core (reads_core _))

theorem execTblIter_kept (x : XCall) (table pipe form filter value cursor : Nat) : Kept (execTblIter x table pipe form filter value cursor) := by
  refine kept_of_core (xop_core fun c s => ?_)
  dsimp only
  repeat' split
  all_goals simp

theorem execTblFlush_kept (x : XCall) (table pipes filter value : Nat) : Kept (execTblFlush x table pipes filter value) := by
  refine kept_of_core (xop_core fun c s => ?_)
  dsimp only
  split_ifs <;> simp

theorem execTblRehash_kept (x : XCall) (table pipe : Nat) : Kept (execTblRehash x table pipe) := by
  refine kept_of_core (xop_core fun c s => ?_)
  dsimp only
  split_ifs <;> simp

theorem execLearnConfig_kept (x : XCall) (src srcHost excess share limit : Nat) : Kept (execLearnConfig x src srcHost excess share limit) := by
  refine kept_of_core (xop_core fun c s => ?_)
  dsimp only
  split_ifs <;> simp

theorem execAgingConfig_kept (x : XCall) (table pipes ageS sliceUs entries : Nat) : Kept (execAgingConfig x table pipes ageS sliceUs entries) := by
  refine kept_of_core (xop_core fun c s => ?_)
  dsimp only
  split_ifs <;> simp

theorem execLbGroupSet_kept (x : XCall) (group record : Nat) (members : List Nat) : Kept (execLbGroupSet x group record members) := by
  refine kept_of_core (xop_core fun c s => ?_)
  repeat' split
  all_goals simp

theorem execLbMonitor_kept (x : XCall) (group op ratio windows rotate : Nat) : Kept (execLbMonitor x group op ratio windows rotate) := by
  refine kept_of_core (xop_core fun c s => ?_)
  simp [apply_ite Prod.fst]

theorem execParseDepthSet_kept (x : XCall) (port : Nat) (record : BitVec 128) : Kept (execParseDepthSet x port record) := by
  refine kept_of_core (xop_core fun c s => ?_)
  repeat' split
  all_goals simp

theorem execPortDefaultSet_kept (x : XCall) (port : Nat) (action : BitVec 64) : Kept (execPortDefaultSet x port action) := by
  refine kept_of_core (xop_core fun c s => ?_)
  dsimp only
  split_ifs <;> simp

theorem execRuleWrite_kept (x : XCall) (pipes kind slot : Nat) (entry : BitVec 1536) : Kept (execRuleWrite x pipes kind slot entry) := by
  refine kept_of_core (xop_core fun c s => ?_)
  dsimp only
  repeat' split
  all_goals simp

theorem execRuleClear_kept (x : XCall) (pipes kind slot : Nat) : Kept (execRuleClear x pipes kind slot) := by
  refine kept_of_core (xop_core fun c s => ?_)
  repeat' split
  all_goals simp

theorem execRuleRead_kept (x : XCall) (pipe pad kind slot : Nat) : Kept (execRuleRead x pipe pad kind slot) := by
  refine kept_of_core (xop_core fun c s => ?_)
  dsimp only
  split_ifs <;> simp

theorem execUcodeLoad_kept (x : XCall) (u : UcodeReq) : Kept (execUcodeLoad x u) := by
  refine kept_of_core (xop_core fun c s => ?_)
  split <;> simp

theorem execUcodeKeyEnrol_kept (x : XCall) (index op : Nat) (key : List Byte) : Kept (execUcodeKeyEnrol x index op key) := by
  refine kept_of_core (xop_core fun c s => ?_)
  dsimp only
  split_ifs <;> simp

theorem execUcodeInfo_kept (x : XCall) (pipe pad : Nat) : Kept (execUcodeInfo x pipe pad) := kept_of_core (xop_core (reads_core _))

theorem execUcodePatchState_kept (x : XCall) (pipe pad : Nat) : Kept (execUcodePatchState x pipe pad) := kept_of_core (xop_core (reads_core _))

theorem execPadCopy_kept (x : XCall) : Kept (execPadCopy x) := kept_of_core (xop_core fun c s => by simp)

theorem execPadLeap_kept (x : XCall) (mode expect time : Nat) : Kept (execPadLeap x mode expect time) := kept_of_core (xop_core fun c s => by simp)

theorem execPadState_kept (x : XCall) : Kept (execPadState x) := kept_of_core (xop_core (reads_core _))

theorem execPadDiscard_kept (x : XCall) : Kept (execPadDiscard x) := kept_of_core (xop_core fun c s => by simp)

theorem execPoolConfig_kept (x : XCall) (pool : Nat) (record : BitVec 64) : Kept (execPoolConfig x pool record) := by
  refine kept_of_core (xop_core fun c s => ?_)
  dsimp only
  split_ifs <;> simp

theorem execReserveSet_kept (x : XCall) (okind pool lossless id min headroom : Nat) :
    Kept (execReserveSet x okind pool lossless id min headroom) := by
  refine kept_of_core (xop_core fun c s => ?_)
  simp [apply_ite Prod.fst]

theorem execPolicerSet_kept (x : XCall) (index : Nat) (record : BitVec 256) : Kept (execPolicerSet x index record) := by
  refine kept_of_core (xop_core fun c s => ?_)
  dsimp only
  split_ifs <;> simp

theorem execShaperSet_kept (x : XCall) (level resetTo node cir cbs pir pbs : Nat) : Kept (execShaperSet x level resetTo node cir cbs pir pbs) := by
  refine kept_of_core (xop_core fun c s => ?_)
  repeat' split
  all_goals simp

theorem execQueueMap_kept (x : XCall) (q : QMap) : Kept (execQueueMap x q) := kept_of_core (xop_core fun c s => by simp)

theorem execQueueSampleConfig_kept (x : XCall) (ring log2 interval count ringAddr indexAddr : Nat) (queues : List Nat) :
    Kept (execQueueSampleConfig x ring log2 interval count ringAddr indexAddr queues) := by
  refine kept_of_core (xop_core fun c s => ?_)
  dsimp only
  repeat' split
  all_goals simp

theorem execQueueStats_kept (x : XCall) (queue : Nat) : Kept (execQueueStats x queue) := by
  refine kept_of_core (xop_core fun c s => ?_)
  dsimp only
  split_ifs <;> simp

theorem execVolCreate_kept (x : XCall) (handle tenant slot size opts : Nat) (reps : List (Nat × Nat)) :
    Kept (execVolCreate x handle tenant slot size opts reps) := by
  refine kept_of_core (xop_core fun c s => ?_)
  dsimp only
  repeat' split
  all_goals simp

theorem execVolDestroy_kept (x : XCall) (handle : Nat) : Kept (execVolDestroy x handle) := by
  refine kept_of_core (xop_core fun c s => ?_)
  dsimp only
  split_ifs <;> simp

theorem execVolAttach_kept (x : XCall) (handle fid nsid format pitype rebuild : Nat) :
    Kept (execVolAttach x handle fid nsid format pitype rebuild) := by
  refine kept_of_core (xop_core fun c s => ?_)
  dsimp only
  repeat' split
  all_goals simp

theorem execVolDetach_kept (x : XCall) (handle fid : Nat) : Kept (execVolDetach x handle fid) := by
  refine kept_of_core (xop_core fun c s => ?_)
  dsimp only
  split <;> simp

theorem execBackendAdd_kept (x : XCall) (c : BackCfg) (found : BackFound) : Kept (execBackendAdd x c found) := by
  refine kept_of_core (xop_core fun c s => ?_)
  dsimp only
  repeat' split
  all_goals simp

theorem execBackendState_kept (x : XCall) (backend : Nat) : Kept (execBackendState x backend) := by
  refine kept_of_core (xop_core fun c s => ?_)
  dsimp only
  split_ifs <;> simp

theorem execVolReconcileState_kept (x : XCall) (handle : Nat) : Kept (execVolReconcileState x handle) := kept_of_core (xop_core (reads_core _))

theorem execKeyLoad_kept (x : XCall) (slot wrapSlot type usage tenant : Nat) (material : List Byte) :
    Kept (execKeyLoad x slot wrapSlot type usage tenant material) := by
  refine kept_of_core (xop_core fun c s => ?_)
  have hturn : (if wrapNamed wrapSlot then controlTurn (mbxControl c.fid) material.length s else (true, s)).2.core = s.core := by
    split <;> simp
  generalize (if wrapNamed wrapSlot then controlTurn (mbxControl c.fid) material.length s else (true, s)) = turn at hturn ⊢
  obtain ⟨_ | _, u⟩ := turn
  all_goals
    dsimp only at hturn ⊢
    repeat' split
    all_goals simp [hturn]

theorem execKeyErase_kept (x : XCall) (slot : Nat) : Kept (execKeyErase x slot) := by
  refine kept_of_core (xop_core fun c s => ?_)
  dsimp only
  split_ifs <;> simp

theorem execKeyEraseComplete_kept (slot : Nat) : Kept (execKeyEraseComplete slot) := kept_of_core fun s => by simp

theorem execSaCreate_kept (x : XCall) (c : SaCfg) : Kept (execSaCreate x c) := by
  refine kept_of_core (xop_core fun call s => ?_)
  have hturn : (if 2 ≤ c.kind then secKeyIn c.octet (mbxControl call.fid) c.slot s else (.there, s)).2.core = s.core := by
    split <;> simp
  generalize (if 2 ≤ c.kind then secKeyIn c.octet (mbxControl call.fid) c.slot s else (.there, s)) = turn at hturn ⊢
  obtain ⟨_ | _ | _, u⟩ := turn
  all_goals
    dsimp only at hturn ⊢
    repeat' split
    all_goals simp [hturn]

theorem execSaState_kept (x : XCall) (sa : Nat) : Kept (execSaState x sa) := by
  refine kept_of_core (xop_core fun c s => ?_)
  dsimp only
  split <;> simp

theorem execAlarmState_kept (x : XCall) : Kept (execAlarmState x) := kept_of_core (xop_core (reads_core _))

theorem execAlarmClear_kept (x : XCall) : Kept (execAlarmClear x) := by
  refine kept_of_core (xop_core fun c s => ?_)
  split <;> simp

theorem execKekRotate_kept (x : XCall) : Kept (execKekRotate x) := by
  refine kept_of_core (xop_core fun c s => ?_)
  dsimp only
  split_ifs <;> simp

theorem execKekRotationDone_kept : Kept execKekRotationDone := by
  refine kept_of_core fun s => ?_
  split
  · rfl
  extract_lets old
  have hturn : (if old.isEmpty then (true, s) else controlTurn 262144 (128 * old.length) s).2.core = s.core := by
    split <;> simp
  generalize (if old.isEmpty then (true, s) else controlTurn 262144 (128 * old.length) s) = turn at hturn ⊢
  obtain ⟨_ | _, u⟩ := turn
  all_goals simp_all

theorem execCipherRequestComplete_kept (req : Nat) (hwFault : Bool) (pcw : PcwSeen) : Kept (execCipherRequestComplete req hwFault pcw) := by
  refine kept_of_keeps fun s => settleAll_keeps _ (fun h => ?_) (.refl _)
  simp [h]

theorem execCipherBusyTimeout_kept (turn : ReqTurn) : Kept (execCipherBusyTimeout turn) := by
  refine kept_of_keeps fun s => settleAll_keeps _ (fun h => ?_) (.refl _)
  split <;> simp [h]

theorem execKeyCacheFill_kept (read : SlotRead) : Kept (execKeyCacheFill read) := by
  refine kept_of_core fun s => ?_
  dsimp only
  have hturn := controlTurn_core read.slot 240 s
  generalize controlTurn read.slot 240 s = turn at hturn ⊢
  obtain ⟨_ | _, u⟩ := turn
  all_goals simp_all

theorem execPartCreate_kept (x : XCall) (form cluster cores action tenant clusters channels handles sentinelMs regionMib : Nat) :
    Kept (execPartCreate x form cluster cores action tenant clusters channels handles sentinelMs regionMib) := by
  refine kept_of_core (xop_core fun c s => ?_)
  dsimp only
  repeat' split
  all_goals simp

theorem execPartDestroy_kept (x : XCall) (part : Nat) : Kept (execPartDestroy x part) := by
  refine kept_of_keeps fun s => xop_keeps (fun c s h => ?_) (.refl _)
  dsimp only
  repeat' split
  all_goals simp [h]

theorem execImageLoad_kept (x : XCall) (part : Nat) (image : List Byte) : Kept (execImageLoad x part image) := by
  refine kept_of_keeps fun s => xop_keeps (fun c s h => ?_) (.refl _)
  repeat' split
  all_goals simp [h]

theorem execPartStart_kept (x : XCall) (part : Nat) : Kept (execPartStart x part) := by
  refine kept_of_core (xop_core fun c s => ?_)
  repeat' split
  all_goals simp

theorem execPartStop_kept (x : XCall) (part : Nat) : Kept (execPartStop x part) := by
  refine kept_of_core (xop_core fun c s => ?_)
  split <;> simp

theorem execDebugAttach_kept (x : XCall) (part op : Nat) : Kept (execDebugAttach x part op) := by
  refine kept_of_core (xop_core fun c s => ?_)
  dsimp only
  split_ifs <;> simp

theorem execMeterRead_kept (x : XCall) (form tenant index : Nat) : Kept (execMeterRead x form tenant index) := kept_of_core (xop_core (reads_core _))

theorem execMeterExportConfig_kept (x : XCall) (c : ExportCfg) : Kept (execMeterExportConfig x c) := by
  refine kept_of_core (xop_core fun c s => ?_)
  split <;> simp

theorem execTelemConfig_kept (x : XCall) (intervalMs log2 ringAddr indexAddr : Nat) : Kept (execTelemConfig x intervalMs log2 ringAddr indexAddr) :=
  kept_of_core (xop_core fun c s => by simp)

theorem execEventSubscribe_kept (x : XCall) (mask log2 vector ringAddr indexAddr : Nat) :
    Kept (execEventSubscribe x mask log2 vector ringAddr indexAddr) := by
  refine kept_of_core (xop_core fun c s => ?_)
  dsimp only
  split_ifs <;> simp

theorem execFwStage_kept (x : XCall) (slot offset total : Nat) (data : List Byte) : Kept (execFwStage x slot offset total data) := by
  refine kept_of_core (xop_core fun c s => ?_)
  dsimp only
  repeat' split
  all_goals simp

theorem execFwActivate_kept (x : XCall) (type slot trial : Nat) : Kept (execFwActivate x type slot trial) := by
  refine kept_of_keeps fun s => ?_
  extract_lets e s1 go
  have hgo : KeepsBase (baseOf s.core) (baseOf go.core) := by
    refine xop_keeps (fun c s h => ?_) (by simp [s1])
    dsimp only
    repeat' split
    all_goals simp [h]
  clear_value go
  split
  · split <;> simp [hgo]
  · simp [hgo]

theorem execFwActivateDrainDone_kept : Kept execFwActivateDrainDone := by
  refine kept_of_keeps fun s => ?_
  dsimp only
  repeat' split
  all_goals simp

theorem execFwActivateDrainTimeout_kept : Kept execFwActivateDrainTimeout := by
  refine kept_of_base fun s => ?_
  split <;> simp

theorem execFwState_kept (x : XCall) : Kept (execFwState x) := kept_of_core (xop_core (reads_core _))

theorem execTrialConfirm_kept : Kept execTrialConfirm := kept_of_core fun s => by simp

theorem execTrialTimerExpire_kept : Kept execTrialTimerExpire := kept_of_base fun s => by simp

theorem execKeyRevoke_kept (x : XCall) (index : Nat) : Kept (execKeyRevoke x index) := by
  refine kept_of_core (xop_core fun c s => ?_)
  dsimp only
  split_ifs <;> simp

theorem execAttestQuote_kept (x : XCall) (nonce : List Byte) : Kept (execAttestQuote x nonce) := kept_of_core (xop_core (reads_core _))

theorem execBaskEnter_kept (x : XCall) : Kept (execBaskEnter x) := by
  refine kept_of_keeps fun s => xop_keeps (fun c s h => ?_) (.refl _)
  split <;> simp [h]

theorem execBaskDrainDone_kept : Kept execBaskDrainDone := by
  refine kept_of_keeps fun s => ?_
  split <;> simp

theorem execBaskDrainTimeout_kept (us : Nat) : Kept (execBaskDrainTimeout us) := kept_of_base fun s => by simp

theorem execFaultLogRead_kept (x : XCall) (seqFrom : Nat) : Kept (execFaultLogRead x seqFrom) := kept_of_core (xop_core (reads_core _))

theorem execFaultClear_kept (x : XCall) (seq : Nat) : Kept (execFaultClear x seq) := kept_of_core (xop_core fun c s => by simp)

theorem execRegrowState_kept (x : XCall) : Kept (execRegrowState x) := kept_of_core (xop_core (reads_core _))

theorem execRegrowStart_kept (x : XCall) (kind unit : Nat) : Kept (execRegrowStart x kind unit) := by
  refine kept_of_core (xop_core fun c s => ?_)
  dsimp only
  repeat' split
  all_goals simp

theorem execWearReport_kept (x : XCall) : Kept (execWearReport x) := kept_of_core (xop_core (reads_core _))

theorem execPowerBudgetSet_kept (x : XCall) (core coreHard sds sdsHard packageW : Nat) (note : BudgetNote) :
    Kept (execPowerBudgetSet x core coreHard sds sdsHard packageW note) := by
  refine kept_of_core (xop_core fun c s => ?_)
  dsimp only
  repeat' split
  all_goals simp

theorem execPowerState_kept (x : XCall) : Kept (execPowerState x) := kept_of_core (xop_core fun c s => by simp)

theorem execGovernorSet_kept (x : XCall) (margin stepUpMv stepDownHalfMv vminMv vmaxMv periodUs holdDown : Nat) :
    Kept (execGovernorSet x margin stepUpMv stepDownHalfMv vminMv vmaxMv periodUs holdDown) := by
  refine kept_of_core (xop_core fun c s => ?_)
  dsimp only
  split_ifs <;> simp

theorem execMigDirtyStart_kept (x : XCall) (fid len bitmap : Nat) : Kept (execMigDirtyStart x fid len bitmap) := by
  refine kept_of_core (xop_core fun c s => ?_)
  dsimp only
  split_ifs <;> simp

theorem execMigDirtyStop_kept (x : XCall) (fid : Nat) : Kept (execMigDirtyStop x fid) := by
  refine kept_of_core (xop_core fun c s => ?_)
  repeat' split
  all_goals simp

theorem execDirtyBitWrite_kept (fid page : Nat) : Kept (execDirtyBitWrite fid page) := by
  refine kept_of_core fun s => ?_
  split <;> simp

theorem execMigFreeze_kept (x : XCall) (fid : Nat) : Kept (execMigFreeze x fid) := by
  refine kept_of_core (xop_core fun c s => ?_)
  repeat' split
  all_goals simp

theorem execMigFreezeDrainDone_kept (fid : Nat) : Kept (execMigFreezeDrainDone fid) := kept_of_core fun s => by simp

theorem execMigFreezeTimeout_kept (fid : Nat) : Kept (execMigFreezeTimeout fid) := kept_of_core fun s => by simp

theorem execMigSave_kept (x : XCall) (fid : Nat) : Kept (execMigSave x fid) := by
  refine kept_of_core (xop_core fun c s => ?_)
  have hturn := migTurn_core c.fid (64 + (saveBody s fid).length + 8 + 16) s
  dsimp only
  generalize migTurn c.fid (64 + (saveBody s fid).length + 8 + 16) s = turn at hturn ⊢
  obtain ⟨_ | _, u⟩ := turn
  all_goals
    dsimp only at hturn ⊢
    repeat' split
    all_goals simp [hturn]

theorem execMigRestore_kept (x : XCall) (fid : Nat) (blob : List Byte) : Kept (execMigRestore x fid blob) := by
  refine kept_of_keeps fun s => xop_keeps (fun c s h => ?_) (.refl _)
  have hturn := migTurn_core c.fid blob.length s
  dsimp only
  generalize migTurn c.fid blob.length s = turn at hturn ⊢
  obtain ⟨_ | _, u⟩ := turn
  all_goals
    dsimp only at hturn ⊢
    repeat' split
    all_goals simp [hturn, h]

theorem execMigThaw_kept (x : XCall) (fid : Nat) : Kept (execMigThaw x fid) := by
  refine kept_of_core (xop_core fun c s => ?_)
  dsimp only
  split_ifs <;> simp

theorem execMigKeySet_kept (x : XCall) (slot : Nat) : Kept (execMigKeySet x slot) := by
  refine kept_of_core (xop_core fun c s => ?_)
  dsimp only
  split <;> simp

theorem execChainState_kept (x : XCall) : Kept (execChainState x) := kept_of_core (xop_core (reads_core _))

theorem execChainSend_kept (x : XCall) (dest len : Nat) (data : List Byte) : Kept (execChainSend x dest len data) := by
  refine kept_of_core (xop_core fun c s => ?_)
  dsimp only
  split_ifs <;> simp

theorem execChainSendTimeout_kept : Kept execChainSendTimeout := kept_of_core fun s => by simp

theorem execCkvCtxRead_kept (x : XCall) (index : Nat) : Kept (execCkvCtxRead x index) := kept_of_core (xop_core (reads_core _))

theorem execCkvCtxWrite_kept (x : XCall) (index : Nat) (context : BitVec 256) : Kept (execCkvCtxWrite x index context) := by
  refine kept_of_core (xop_core fun c s => ?_)
  dsimp only
  repeat' split
  all_goals simp

theorem execVfExchNotify_kept (fid value : Nat) : Kept (execVfExchNotify fid value) := kept_of_keeps fun s => by simp

theorem execPfExchNotify_kept (fid value : Nat) : Kept (execPfExchNotify fid value) := kept_of_keeps fun s => by simp

theorem execExchPendClear_kept (fid index value : Nat) : Kept (execExchPendClear fid index value) := kept_of_keeps fun s => by simp

theorem execRcvOwnerWrite_kept (value : Nat) : Kept (execRcvOwnerWrite value) := kept_of_core fun s => by simp

theorem execNvmeCcEnable_kept (fn : FnRef) (value : Nat) : Kept (execNvmeCcEnable fn value) := kept_of_core fun s => by simp

theorem execNvmeCcDisable_kept (fn : FnRef) (value : Nat) : Kept (execNvmeCcDisable fn value) := kept_of_core fun s => by simp

theorem execNvmeCcShutdown_kept (fn : FnRef) (value : Nat) : Kept (execNvmeCcShutdown fn value) := kept_of_core fun s => by simp

theorem execNvmeSqDoorbell_kept (fid qid value : Nat) : Kept (execNvmeSqDoorbell fid qid value) := kept_of_core fun s => by simp

theorem execNvmeCqDoorbell_kept (fid qid value : Nat) : Kept (execNvmeCqDoorbell fid qid value) := kept_of_core fun s => by simp

theorem execNvmeCommandFetch_kept (fid qid : Nat) (sqe : BitVec 512) (lists : List (List Byte)) (mdList : List Byte) (ranges : List (Nat × Nat))
    (composed : Bool) :
    Kept (execNvmeCommandFetch fid qid sqe lists mdList ranges composed) :=
  kept_of_core fun s => by simp

theorem execNvmeCommandStart_kept (fid qid : Nat) (cmd : Posting) : Kept (execNvmeCommandStart fid qid cmd) := by
  refine kept_of_core fun s => ?_
  split <;> simp

theorem execNvmePostingPoint_kept (fid qid : Nat) (entry : Posting) : Kept (execNvmePostingPoint fid qid entry) := by
  refine kept_of_core fun s => ?_
  split <;> simp

theorem execNvmeDeleteIoSq_kept (fid cid : Nat) : Kept (execNvmeDeleteIoSq fid cid) := by
  refine kept_of_core (admin_core fun c s => ?_)
  simp

theorem execNvmeCreateIoSq_kept (fid cid : Nat) : Kept (execNvmeCreateIoSq fid cid) := by
  refine kept_of_core (admin_core fun c s => ?_)
  simp

theorem execNvmeGetLogPage_kept (fid cid : Nat) : Kept (execNvmeGetLogPage fid cid) := by
  refine kept_of_core (admin_core fun c s => ?_)
  dsimp only
  split
  · simp
  · rename_i p t e
    have ht := logPage_core e
    simp [ht]

theorem execNvmeDeleteIoCq_kept (fid cid : Nat) : Kept (execNvmeDeleteIoCq fid cid) := by
  refine kept_of_core (admin_core fun c s => ?_)
  simp

theorem execNvmeCreateIoCq_kept (fid cid : Nat) : Kept (execNvmeCreateIoCq fid cid) := by
  refine kept_of_core (admin_core fun c s => ?_)
  simp

theorem execNvmeIdentify_kept (fid cid : Nat) : Kept (execNvmeIdentify fid cid) := by
  refine kept_of_core (admin_core fun c s => ?_)
  split <;> simp

theorem execNvmeAbort_kept (fid cid : Nat) : Kept (execNvmeAbort fid cid) := by
  refine kept_of_core fun s => ?_
  dsimp only
  repeat' split
  all_goals simp

theorem execNvmeSetFeatures_kept (fid cid : Nat) : Kept (execNvmeSetFeatures fid cid) := by
  refine kept_of_core (admin_core fun c s => ?_)
  dsimp only
  repeat' split
  all_goals simp

theorem execNvmeGetFeatures_kept (fid cid : Nat) : Kept (execNvmeGetFeatures fid cid) := by
  refine kept_of_core (admin_core fun c s => ?_)
  repeat' split
  all_goals simp

theorem execNvmeAsyncEventRequest_kept (fid cid : Nat) : Kept (execNvmeAsyncEventRequest fid cid) := by
  refine kept_of_core (admin_core fun c s => ?_)
  simp

theorem execNvmeAdminUnsupported_kept (fid cid : Nat) : Kept (execNvmeAdminUnsupported fid cid) := by
  refine kept_of_core fun s => ?_
  split <;> simp

theorem execNvmeFlush_kept (fid qid cid : Nat) : Kept (execNvmeFlush fid qid cid) := by
  refine kept_of_core fun s => ?_
  split <;> simp

theorem execNvmeWrite_kept (fid qid cid : Nat) (data md : List Byte) : Kept (execNvmeWrite fid qid cid data md) := by
  refine kept_of_core fun s => ?_
  split <;> simp

theorem execNvmeRead_kept (fid qid cid : Nat) : Kept (execNvmeRead fid qid cid) := by
  refine kept_of_core fun s => ?_
  split <;> simp

theorem execNvmeCompare_kept (fid qid cid : Nat) (data md : List Byte) : Kept (execNvmeCompare fid qid cid data md) := by
  refine kept_of_core fun s => ?_
  split <;> simp

theorem execNvmeWriteZeroes_kept (fid qid cid : Nat) : Kept (execNvmeWriteZeroes fid qid cid) := by
  refine kept_of_core fun s => ?_
  split <;> simp

theorem execNvmeDatasetManagement_kept (fid qid cid : Nat) : Kept (execNvmeDatasetManagement fid qid cid) := by
  refine kept_of_core fun s => ?_
  repeat' split
  all_goals simp

theorem execNvmeFusedCompareWrite_kept (fid qid cid : Nat) (data md wdata wmd : List Byte) :
    Kept (execNvmeFusedCompareWrite fid qid cid data md wdata wmd) := by
  refine kept_of_core fun s => ?_
  dsimp only
  repeat' split
  all_goals simp

theorem execNvmeIoUnsupported_kept (fid qid cid : Nat) : Kept (execNvmeIoUnsupported fid qid cid) := by
  refine kept_of_core fun s => ?_
  repeat' split
  all_goals simp

theorem execIntentRecordTake_kept (fid qid cid : Nat) : Kept (execIntentRecordTake fid qid cid) := by
  refine kept_of_core fun s => ?_
  split <;> simp

theorem execBackendResponse_kept (tag : Nat) (good : Bool) (data : List Byte) : Kept (execBackendResponse tag good data) := by
  refine kept_of_base fun s => ?_
  split <;> simp

theorem execBackendPduReceive_kept (backend : Nat) (p : PduIn) : Kept (execBackendPduReceive backend p) := by
  refine kept_of_base fun s => ?_
  repeat' split
  all_goals simp

theorem execBackendTimeout_kept (backend : Nat) : Kept (execBackendTimeout backend) := kept_of_core fun s => by simp

theorem execBackendConnectionLost_kept (backend : Nat) : Kept (execBackendConnectionLost backend) := kept_of_core fun s => by simp

theorem execBackendReconnect_kept (backend : Nat) (link : Option Link) : Kept (execBackendReconnect backend link) := by
  refine kept_of_core fun s => ?_
  split <;> simp

theorem execReconcileChunkDone_kept (vol failed : Nat) (data : List Byte) : Kept (execReconcileChunkDone vol failed data) :=
  kept_of_core fun s => by simp

theorem execRebuildChunkDone_kept (vol lba failed : Nat) (data : List Byte) : Kept (execRebuildChunkDone vol lba failed data) :=
  kept_of_core fun s => by simp

theorem execChWr_kept (tid idx word : Nat) : Kept (execChWr tid idx word) := kept_of_core fun s => act_core (by simp)

theorem execChCmt_kept (tid chan n rd : Nat) (nb : Bool) : Kept (execChCmt tid chan n rd nb) := kept_of_core fun s => act_core (by simp)

theorem execChCmtResume_kept (tid : Nat) : Kept (execChCmtResume tid) := by
  refine kept_of_core fun s => ?_
  split <;> simp

theorem execChRd_kept (tid chan rd : Nat) : Kept (execChRd tid chan rd) := kept_of_core fun s => act_core (by simp)

theorem execChTry_kept (tid chan rd : Nat) : Kept (execChTry tid chan rd) := kept_of_core fun s => act_core (by simp)

theorem execChWaitany_kept (tid base mask rd : Nat) : Kept (execChWaitany tid base mask rd) := kept_of_core fun s => act_core (by simp)

theorem execChannelWaitWake_kept (tid : Nat) : Kept (execChannelWaitWake tid) := by
  refine kept_of_core fun s => ?_
  repeat' split
  all_goals simp

theorem execFork_kept (tid entry arg rd : Nat) : Kept (execFork tid entry arg rd) := kept_of_core fun s => act_core (by simp)

theorem execJoin_kept (tid target rd : Nat) : Kept (execJoin tid target rd) := kept_of_core fun s => act_core (by simp)

theorem execThreadExit_kept (tid value : Nat) : Kept (execThreadExit tid value) := kept_of_core fun s => act_core (by simp)

theorem execTrelease_kept (tid target : Nat) : Kept (execTrelease tid target) := kept_of_core fun s => act_core (by simp)

theorem execTreset_kept (tid target : Nat) : Kept (execTreset tid target) := kept_of_core fun s => act_core (by simp)

theorem execThreadControlCsr_kept (tid csr : Nat) (write : Bool) (value rd : Nat) : Kept (execThreadControlCsr tid csr write value rd) := by
  refine kept_of_core fun s => act_core ?_
  dsimp only
  have hwrite {t : State} (e : tcsrWrite tid csr value s = some t) : t.core = s.core := tcsrWrite_core _ _ _ _ e
  repeat' split
  all_goals simp_all

theorem execChannelEntryWrite_kept (tid chan half value : Nat) : Kept (execChannelEntryWrite tid chan half value) := by
  refine kept_of_core fun s => act_core (mapped_core ?_)
  simp

theorem execEcallCustomer_kept (tid epc tval : Nat) : Kept (execEcallCustomer tid epc tval) := kept_of_core fun s => act_core (by simp)

theorem execThreadFault_kept (tid code epc tval addr : Nat) : Kept (execThreadFault tid code epc tval addr) :=
  kept_of_core fun s => act_core (by simp)

theorem execCipherSubmit_kept (tid : Nat) (request : BitVec 512) : Kept (execCipherSubmit tid request) := by
  refine kept_of_core (actWin_core fun s => ?_)
  simp

theorem execCopyOut_kept (tid handle addr len off : Nat) : Kept (execCopyOut tid handle addr len off) := by
  refine kept_of_keeps fun s => act_keeps (fun h => ?_) (.refl _)
  dsimp only
  split <;> simp [h]

theorem execCopyMeta_kept (tid handle addr : Nat) : Kept (execCopyMeta tid handle addr) := by
  refine kept_of_keeps fun s => act_keeps (fun h => ?_) (.refl _)
  dsimp only
  split <;> simp [h]

theorem execFree_kept (tid handle : Nat) : Kept (execFree tid handle) := by
  refine kept_of_core fun s => act_core ?_
  dsimp only
  split <;> simp

theorem execInjectHandle_kept (tid handle pipe port : Nat) : Kept (execInjectHandle tid handle pipe port) := by
  refine kept_of_core (actWin_core fun s => ?_)
  dsimp only
  split
  · simp
  · split
    · next e => simp [core_of_fst (injectTry_core ..) e]
    · next e => simp [core_of_fst (injectTry_core ..) e]

theorem execInjectBuffer_kept (tid addr len pipe port : Nat) : Kept (execInjectBuffer tid addr len pipe port) := by
  refine kept_of_core (actWin_core fun s => ?_)
  simp

theorem execContextHold_kept (tid index : Nat) : Kept (execContextHold tid index) := by
  refine kept_of_core (ctxAct_core fun s => ?_)
  simp

theorem execContextRelease_kept (tid index : Nat) : Kept (execContextRelease tid index) := by
  refine kept_of_core (ctxAct_core fun s => ?_)
  simp

theorem execContextRead_kept (tid index : Nat) : Kept (execContextRead tid index) := by
  refine kept_of_core (ctxAct_core fun s => ?_)
  simp

theorem execContextWrite_kept (tid index : Nat) (data : BitVec 256) : Kept (execContextWrite tid index data) := by
  refine kept_of_core (ctxAct_core fun s => ?_)
  simp

theorem execSkinkTimerFire_kept (chan : Nat) : Kept (execSkinkTimerFire chan) := kept_of_core fun s => by simp

theorem execSkinkPeriodTick_kept (chan : Nat) : Kept (execSkinkPeriodTick chan) := kept_of_core fun s => by simp

theorem execSentinelFire_kept (part : Nat) : Kept (execSentinelFire part) := by
  refine kept_of_core fun s => ?_
  split <;> simp

theorem execSentinelEscalate_kept (part : Nat) : Kept (execSentinelEscalate part) := by
  refine kept_of_core fun s => ?_
  split <;> simp

theorem execDebugHalt_kept (tid : Nat) : Kept (execDebugHalt tid) := kept_of_core fun s => by simp

theorem execDebugResume_kept (tid : Nat) : Kept (execDebugResume tid) := kept_of_core fun s => by simp

theorem execDebugSingleStep_kept (tid : Nat) (next : Option Nat) : Kept (execDebugSingleStep tid next) := by
  refine kept_of_core fun s => ?_
  dsimp only
  repeat' split
  all_goals simp

theorem execI3cPrivateWrite_kept (header : BitVec 512) (payload : List Byte) : Kept (execI3cPrivateWrite header payload) := by
  refine kept_of_keeps fun s => ?_
  split <;> simp

theorem execI3cPrivateRead_kept : Kept execI3cPrivateRead := by
  refine kept_of_core fun s => ?_
  repeat' split
  all_goals simp

theorem execEnec_kept (direct : Bool) (events : Nat) : Kept (execEnec direct events) := by
  refine kept_of_core fun s => ?_
  dsimp only
  repeat' split
  all_goals simp

theorem execDisec_kept (direct : Bool) (events : Nat) : Kept (execDisec direct events) := kept_of_core fun s => by simp

theorem execRstdaa_kept : Kept execRstdaa := kept_of_core fun s => by simp

theorem execEntdaa_kept (addr : Nat) : Kept (execEntdaa addr) := kept_of_core fun s => by simp

theorem execSetmwl_kept (direct : Bool) (len : Nat) : Kept (execSetmwl direct len) := kept_of_core fun s => by simp

theorem execSetmrl_kept (direct : Bool) (len : Nat) : Kept (execSetmrl direct len) := kept_of_core fun s => by simp

theorem execRstact_kept (direct : Bool) (action : Nat) : Kept (execRstact direct action) := kept_of_core fun s => by simp

theorem execSetnewda_kept (addr : Nat) : Kept (execSetnewda addr) := kept_of_core fun s => by simp

theorem execGetmwl_kept : Kept execGetmwl := kept_of_core fun s => by simp

theorem execGetmrl_kept : Kept execGetmrl := kept_of_core fun s => by simp

theorem execGetpid_kept : Kept execGetpid := kept_of_core fun s => by simp

theorem execGetbcr_kept : Kept execGetbcr := kept_of_core fun s => by simp

theorem execGetdcr_kept : Kept execGetdcr := kept_of_core fun s => by simp

theorem execGetstatus_kept : Kept execGetstatus := kept_of_core fun s => by simp

theorem execGetmxds_kept : Kept execGetmxds := kept_of_core fun s => by simp

theorem execI3cUnsupportedCcc_kept (code : Nat) (direct : Bool) : Kept (execI3cUnsupportedCcc code direct) := kept_of_core fun s => by simp

theorem execTargetResetPattern_kept : Kept execTargetResetPattern := by
  refine kept_of_keeps fun s => ?_
  repeat' split
  all_goals simp

theorem execHotJoinRequest_kept : Kept execHotJoinRequest := kept_of_core fun s => by simp

theorem execKeep_kept (frame : BitVec 64) : Kept (execKeep frame) := by
  refine kept_of_core (chainRecv_core fun s => ?_)
  simp

theorem execKeepSend_kept : Kept execKeepSend := kept_of_core fun s => by simp

theorem execEnum_kept (frame : BitVec 64) : Kept (execEnum frame) := by
  refine kept_of_core (chainRecv_core fun s => ?_)
  simp

theorem execClose_kept (frame : BitVec 64) : Kept (execClose frame) := by
  refine kept_of_core (chainRecv_core fun s => ?_)
  repeat' split
  all_goals simp

theorem execReset_kept (frame : BitVec 64) : Kept (execReset frame) := by
  refine kept_of_core (chainRecv_core fun s => ?_)
  simp

theorem execLeapArm_kept (frame : BitVec 64) : Kept (execLeapArm frame) := by
  refine kept_of_core (chainRecv_core fun s => ?_)
  dsimp only
  split
  · simp
  split
  · simp
  split
  · rename_i t e
    split at e
    · simp [leapArm_core _ _ e]
    · cases e
  · simp

theorem execLeapCancel_kept (frame : BitVec 64) : Kept (execLeapCancel frame) := by
  refine kept_of_core (chainRecv_core fun s => ?_)
  simp

theorem execLend_kept (frame : BitVec 64) : Kept (execLend frame) := by
  refine kept_of_core (chainRecv_core fun s => ?_)
  simp

theorem execFault_kept (frame : BitVec 64) : Kept (execFault frame) := by
  refine kept_of_core (chainRecv_core fun s => ?_)
  simp

theorem execData_kept (frame : BitVec 64) : Kept (execData frame) := by
  refine kept_of_core (chainRecv_core fun s => ?_)
  dsimp only
  repeat' split
  all_goals simp

theorem execWake_kept (frame : BitVec 64) : Kept (execWake frame) := by
  refine kept_of_keeps fun s => chainRecv_keeps (fun s h => ?_) (.refl _)
  simp [h]

theorem execReservedFrameType_kept (frame : BitVec 64) : Kept (execReservedFrameType frame) := kept_of_core fun s => by simp

theorem execChainBitTimeout_kept : Kept execChainBitTimeout := kept_of_core fun s => by simp

theorem execChainInLinkLost_kept : Kept execChainInLinkLost := kept_of_core fun s => by simp

theorem execChainOutLinkLost_kept : Kept execChainOutLinkLost := kept_of_core fun s => by simp

theorem execChainEnumRetry_kept : Kept execChainEnumRetry := kept_of_core fun s => by simp

theorem execChainArmTimeout_kept : Kept execChainArmTimeout := kept_of_core fun s => by simp

theorem execIdcode_kept : Kept execIdcode := kept_of_core fun s => by simp

theorem execSamplePreload_kept : Kept execSamplePreload := kept_of_core fun s => by simp

theorem execExtest_kept : Kept execExtest := kept_of_core fun s => by simp

theorem execExtestPulse_kept : Kept execExtestPulse := kept_of_core fun s => by simp

theorem execExtestTrain_kept : Kept execExtestTrain := kept_of_core fun s => by simp

theorem execClamp_kept : Kept execClamp := kept_of_core fun s => by simp

theorem execHighz_kept : Kept execHighz := kept_of_core fun s => by simp

theorem execDbgChallenge_kept : Kept execDbgChallenge := kept_of_core fun s => by simp

theorem execDbgToken_kept (token : List Byte) : Kept (execDbgToken token) := kept_of_core fun s => by simp

theorem execDbgStatus_kept : Kept execDbgStatus := kept_of_core fun s => by simp

theorem execDbgDmi_kept (scope : Nat) (write : Bool) (addr value : Nat) : Kept (execDbgDmi scope write addr value) := kept_of_core fun s => by simp

theorem execBypass_kept (code : Nat) : Kept (execBypass code) := kept_of_core fun s => by simp

theorem execUartRxInput_kept (char : Byte) : Kept (execUartRxInput char) := kept_of_core fun s => by simp

theorem execFunctionReady_kept (port : Nat) : Kept (execFunctionReady port) := kept_of_core fun s => by simp

theorem execReferenceClockStop_kept (pcie : Bool) (index : Nat) : Kept (execReferenceClockStop pcie index) := kept_of_base fun s => by simp

theorem execVddRetUp_kept : Kept execVddRetUp := kept_of_keeps fun s => by simp

theorem execVddRetRemove_kept : Kept execVddRetRemove := kept_of_keeps fun s => by simp

theorem execHdrExitPattern_kept : Kept execHdrExitPattern := kept_of_core fun s => by simp

theorem execChainInvalidCodeword_kept : Kept execChainInvalidCodeword := kept_of_core fun s => by simp

theorem execNvmeCoalescingTimeExpire_kept (fid cq : Nat) : Kept (execNvmeCoalescingTimeExpire fid cq) := kept_of_core fun s => by simp

theorem xtirzuRun_kept (tid : Nat) (x : Xtirzu) : Kept (xtirzuRun tid x) := by
  intro s t hrun
  cases x with
  | chWr idx rs1 => exact execChWr_kept tid idx _ s t hrun
  | chCmt rd rs1 n nb => exact execChCmt_kept tid _ n rd nb s t hrun
  | chRd rd rs1 => exact execChRd_kept tid _ rd s t hrun
  | chTry rd rs1 => exact execChTry_kept tid _ rd s t hrun
  | chWaitany rd rs1 rs2 => exact execChWaitany_kept tid _ _ rd s t hrun
  | fork rd rs1 rs2 => exact execFork_kept tid _ _ rd s t hrun
  | join rd rs1 => exact execJoin_kept tid _ rd s t hrun
  | threadExit rs1 => exact execThreadExit_kept tid _ s t hrun
  | trelease rs1 => exact execTrelease_kept tid _ s t hrun
  | treset rs1 => exact execTreset_kept tid _ s t hrun

theorem execXtirzuIllegal_kept (tid epc instr : Nat) (vectored : Bool) : Kept (execXtirzuIllegal tid epc instr vectored) := by
  intro s t hrun
  by_cases hgood : (wfXtirzuIllegal tid epc instr vectored && !xtirzuBad s tid instr) = true
  · cases hx : xtirzuOf instr with
    | none =>
      rw [execXtirzuIllegal_of_bad (.inr hx)] at hrun
      exact kept_of_core (fun s => act_core (by simp)) s t hrun
    | some x =>
      rw [execXtirzuIllegal, hgood, hx] at hrun
      exact xtirzuRun_kept tid x s t hrun
  · rw [execXtirzuIllegal_of_bad (.inl (Bool.eq_false_iff.mpr hgood))] at hrun
    exact kept_of_core (fun s => act_core (by simp)) s t hrun

/-- Whatever the command. -/
theorem exec_kept : ∀ i, Kept (exec i)
  | .sysRstNAssert => execSysRstNAssert_kept
  | .sysRstNRelease .. => execSysRstNRelease_kept _ _ _
  | .pwrOkRise => execPwrOkRise_kept
  | .pwrOkFall => execPwrOkFall_kept
  | .alarmNAssert .. => execAlarmNAssert_kept _ _
  | .supplyGlitch .. => execSupplyGlitch_kept _ _ _
  | .tjThresholdCross .. => execTjThresholdCross_kept _ _
  | .wakeNAssert .. => execWakeNAssert_kept _
  | .ppsInEdge => execPpsInEdge_kept
  | .ptpStep .. => execPtpStep_kept _
  | .arbiterEpoch .. => execArbiterEpoch_kept _ _ _ _
  | .hardLimitCross .. => execHardLimitCross_kept _ _
  | .governorPeriod .. => execGovernorPeriod_kept _
  | .avsWriteDone .. => execAvsWriteDone_kept _
  | .sensorWindow .. => execSensorWindow_kept _ _ _
  | .stallWatchdogFire .. => execStallWatchdogFire_kept _ _
  | .invalidCodeword .. => execInvalidCodeword_kept _ _
  | .clearSelftestDone .. => execClearSelftestDone_kept _ _
  | .probationEnd .. => execProbationEnd_kept _
  | .checkerSelftest .. => execCheckerSelftest_kept _ _ _
  | .scrubStep .. => execScrubStep_kept _ _ _ _
  | .eftLockstepMismatch .. => execEftLockstepMismatch_kept _
  | .eftRestartDone => execEftRestartDone_kept
  | .wearEvaluation .. => execWearEvaluation_kept _ _ _ _ _ _ _
  | .ageHour .. => execAgeHour_kept _
  | .regrowthDone .. => execRegrowthDone_kept _ _
  | .laneBerWindow .. => execLaneBerWindow_kept _ _ _
  | .linkTrainingDone .. => execLinkTrainingDone_kept _ _ _
  | .reformTimeout .. => execReformTimeout_kept _
  | .linkLoss .. => execLinkLoss_kept _
  | .ethFrameReceive .. => execEthFrameReceive_kept _ _ _ _
  | .pauseFrameReceive .. => execPauseFrameReceive_kept _ _ _ _
  | .pauseQuantaExpire .. => execPauseQuantaExpire_kept _ _
  | .pauseStormLimit .. => execPauseStormLimit_kept _ _
  | .pauseStormClear .. => execPauseStormClear_kept _ _
  | .mgmt0FrameReceive .. => execMgmt0FrameReceive_kept _ _
  | .pipelineHeaderAccept .. => execPipelineHeaderAccept_kept _
  | .microword .. => execMicroword_kept _ _ _
  | .microcodeOpComplete .. => execMicrocodeOpComplete_kept _ _ _
  | .sprayReseqTimeout .. => execSprayReseqTimeout_kept _ _
  | .sprayContextIdle .. => execSprayContextIdle_kept _ _
  | .flowletGapExpire .. => execFlowletGapExpire_kept _ _ _
  | .lbImbalanceWindow .. => execLbImbalanceWindow_kept _
  | .agingSlice .. => execAgingSlice_kept _ _ _
  | .learnServiceEvent .. => execLearnServiceEvent_kept _
  | .rehashDone .. => execRehashDone_kept _ _
  | .egressSchedule .. => execEgressSchedule_kept _ _ _ _
  | .deadlineHeadCheck .. => execDeadlineHeadCheck_kept _
  | .queueTelemetrySample .. => execQueueTelemetrySample_kept _ _ _
  | .minuteBoundary => execMinuteBoundary_kept
  | .meterExport .. => execMeterExport_kept _
  | .timedLeapTrigger .. => execTimedLeapTrigger_kept _
  | .padWriteResume .. => execPadWriteResume_kept _ _
  | .pcieConfigRequest .. => execPcieConfigRequest_kept _ _ _ _ _
  | .bmeClear .. => execBmeClear_kept _
  | .mseClear .. => execMseClear_kept _
  | .flr .. => execFlr_kept _
  | .vfEnableSet .. => execVfEnableSet_kept _ _
  | .vfEnableClear .. => execVfEnableClear_kept _
  | .d3hotEnter .. => execD3hotEnter_kept _
  | .d0Return .. => execD0Return_kept _
  | .d3coldEnter .. => execD3coldEnter_kept _
  | .hpPerstNAssert .. => execHpPerstNAssert_kept _ _
  | .hpPerstNDeassert .. => execHpPerstNDeassert_kept _
  | .hotReset .. => execHotReset_kept _
  | .dlUp .. => execDlUp_kept _ _ _ _
  | .l1Enter .. => execL1Enter_kept _ _
  | .msixUnmask .. => execMsixUnmask_kept _ _
  | .bar4WindowTlp .. => execBar4WindowTlp_kept _ _ _ _ _ _
  | .pcieReadCompletion .. => execPcieReadCompletion_kept _ _ _
  | .completionTimeout .. => execCompletionTimeout_kept _ _
  | .ringEnable .. => execRingEnable_kept _ _ _
  | .ringDisable .. => execRingDisable_kept _ _ _
  | .ringReset .. => execRingReset_kept _ _
  | .ringDb .. => execRingDb_kept _ _ _
  | .indexWordReadDone .. => execIndexWordReadDone_kept _ _ _
  | .hostTxPacket .. => execHostTxPacket_kept _ _ _ _ _
  | .cplCi .. => execCplCi_kept _ _ _
  | .cplModTimerExpire .. => execCplModTimerExpire_kept _ _
  | .fnCtlUnfence .. => execFnCtlUnfence_kept _
  | .registerWrite .. => execRegisterWrite_kept _ _ _ _ _
  | .mbxEnable .. => execMbxEnable_kept _ _
  | .mbxDisable .. => execMbxDisable_kept _ _
  | .mbxDb .. => execMbxDb_kept _ _ _ _
  | .mbxHeadlessAnswer .. => execMbxHeadlessAnswer_kept _
  | .unassignedOpcode .. => execUnassignedOpcode_kept _
  | .devInfo .. => execDevInfo_kept _
  | .devCaps .. => execDevCaps_kept _
  | .devTimeGet .. => execDevTimeGet_kept _
  | .devTimeSet .. => execDevTimeSet_kept _ _ _
  | .devReset .. => execDevReset_kept _ _ _
  | .portConfig .. => execPortConfig_kept _ _
  | .portState .. => execPortState_kept _ _
  | .portStats .. => execPortStats_kept _ _ _
  | .laneDiag .. => execLaneDiag_kept _ _ _ _ _
  | .octetMode .. => execOctetMode_kept _ _ _ _
  | .allotSet .. => execAllotSet_kept _ _ _ _ _ _
  | .allotGet .. => execAllotGet_kept _ _
  | .fnCreate .. => execFnCreate_kept _ _ _ _ _
  | .fnDestroy .. => execFnDestroy_kept _ _
  | .fnQuery .. => execFnQuery_kept _ _
  | .tenantBind .. => execTenantBind_kept _ _ _
  | .windowSet .. => execWindowSet_kept _ _
  | .windowRetire .. => execWindowRetire_kept _ _ _
  | .windowDrainDone .. => execWindowDrainDone_kept _ _
  | .windowRetireTimeout .. => execWindowRetireTimeout_kept _ _
  | .tblInsert .. => execTblInsert_kept _ _ _ _ _
  | .tblDelete .. => execTblDelete_kept _ _ _ _ _
  | .tblLookup .. => execTblLookup_kept _ _ _ _ _
  | .tblIter .. => execTblIter_kept _ _ _ _ _ _ _
  | .tblFlush .. => execTblFlush_kept _ _ _ _ _
  | .tblRehash .. => execTblRehash_kept _ _ _
  | .learnConfig .. => execLearnConfig_kept _ _ _ _ _ _
  | .agingConfig .. => execAgingConfig_kept _ _ _ _ _ _
  | .lbGroupSet .. => execLbGroupSet_kept _ _ _ _
  | .lbMonitor .. => execLbMonitor_kept _ _ _ _ _ _
  | .parseDepthSet .. => execParseDepthSet_kept _ _ _
  | .portDefaultSet .. => execPortDefaultSet_kept _ _ _
  | .ruleWrite .. => execRuleWrite_kept _ _ _ _ _
  | .ruleClear .. => execRuleClear_kept _ _ _ _
  | .ruleRead .. => execRuleRead_kept _ _ _ _ _
  | .ucodeLoad .. => execUcodeLoad_kept _ _
  | .ucodeKeyEnrol .. => execUcodeKeyEnrol_kept _ _ _ _
  | .ucodeInfo .. => execUcodeInfo_kept _ _ _
  | .ucodePatchState .. => execUcodePatchState_kept _ _ _
  | .padCopy .. => execPadCopy_kept _
  | .padLeap .. => execPadLeap_kept _ _ _ _
  | .padState .. => execPadState_kept _
  | .padDiscard .. => execPadDiscard_kept _
  | .poolConfig .. => execPoolConfig_kept _ _ _
  | .reserveSet .. => execReserveSet_kept _ _ _ _ _ _ _
  | .policerSet .. => execPolicerSet_kept _ _ _
  | .shaperSet .. => execShaperSet_kept _ _ _ _ _ _ _ _
  | .queueMap .. => execQueueMap_kept _ _
  | .queueSampleConfig .. => execQueueSampleConfig_kept _ _ _ _ _ _ _ _
  | .queueStats .. => execQueueStats_kept _ _
  | .volCreate .. => execVolCreate_kept _ _ _ _ _ _ _
  | .volDestroy .. => execVolDestroy_kept _ _
  | .volAttach .. => execVolAttach_kept _ _ _ _ _ _ _
  | .volDetach .. => execVolDetach_kept _ _ _
  | .backendAdd .. => execBackendAdd_kept _ _ _
  | .backendState .. => execBackendState_kept _ _
  | .volReconcileState .. => execVolReconcileState_kept _ _
  | .keyLoad .. => execKeyLoad_kept _ _ _ _ _ _ _
  | .keyErase .. => execKeyErase_kept _ _
  | .keyEraseComplete .. => execKeyEraseComplete_kept _
  | .saCreate .. => execSaCreate_kept _ _
  | .saState .. => execSaState_kept _ _
  | .alarmState .. => execAlarmState_kept _
  | .alarmClear .. => execAlarmClear_kept _
  | .kekRotate .. => execKekRotate_kept _
  | .kekRotationDone => execKekRotationDone_kept
  | .cipherRequestComplete .. => execCipherRequestComplete_kept _ _ _
  | .cipherBusyTimeout .. => execCipherBusyTimeout_kept _
  | .keyCacheFill .. => execKeyCacheFill_kept _
  | .partCreate .. => execPartCreate_kept _ _ _ _ _ _ _ _ _ _ _
  | .partDestroy .. => execPartDestroy_kept _ _
  | .imageLoad .. => execImageLoad_kept _ _ _
  | .partStart .. => execPartStart_kept _ _
  | .partStop .. => execPartStop_kept _ _
  | .debugAttach .. => execDebugAttach_kept _ _ _
  | .meterRead .. => execMeterRead_kept _ _ _ _
  | .meterExportConfig .. => execMeterExportConfig_kept _ _
  | .telemConfig .. => execTelemConfig_kept _ _ _ _ _
  | .eventSubscribe .. => execEventSubscribe_kept _ _ _ _ _ _
  | .fwStage .. => execFwStage_kept _ _ _ _ _
  | .fwActivate .. => execFwActivate_kept _ _ _ _
  | .fwActivateDrainDone => execFwActivateDrainDone_kept
  | .fwActivateDrainTimeout => execFwActivateDrainTimeout_kept
  | .fwState .. => execFwState_kept _
  | .trialConfirm => execTrialConfirm_kept
  | .trialTimerExpire => execTrialTimerExpire_kept
  | .keyRevoke .. => execKeyRevoke_kept _ _
  | .attestQuote .. => execAttestQuote_kept _ _
  | .baskEnter .. => execBaskEnter_kept _
  | .baskDrainDone => execBaskDrainDone_kept
  | .baskDrainTimeout .. => execBaskDrainTimeout_kept _
  | .faultLogRead .. => execFaultLogRead_kept _ _
  | .faultClear .. => execFaultClear_kept _ _
  | .regrowState .. => execRegrowState_kept _
  | .regrowStart .. => execRegrowStart_kept _ _ _
  | .wearReport .. => execWearReport_kept _
  | .powerBudgetSet .. => execPowerBudgetSet_kept _ _ _ _ _ _ _
  | .powerState .. => execPowerState_kept _
  | .governorSet .. => execGovernorSet_kept _ _ _ _ _ _ _ _
  | .migDirtyStart .. => execMigDirtyStart_kept _ _ _ _
  | .migDirtyStop .. => execMigDirtyStop_kept _ _
  | .dirtyBitWrite .. => execDirtyBitWrite_kept _ _
  | .migFreeze .. => execMigFreeze_kept _ _
  | .migFreezeDrainDone .. => execMigFreezeDrainDone_kept _
  | .migFreezeTimeout .. => execMigFreezeTimeout_kept _
  | .migSave .. => execMigSave_kept _ _
  | .migRestore .. => execMigRestore_kept _ _ _
  | .migThaw .. => execMigThaw_kept _ _
  | .migKeySet .. => execMigKeySet_kept _ _
  | .chainState .. => execChainState_kept _
  | .chainSend .. => execChainSend_kept _ _ _ _
  | .chainSendTimeout => execChainSendTimeout_kept
  | .ckvCtxRead .. => execCkvCtxRead_kept _ _
  | .ckvCtxWrite .. => execCkvCtxWrite_kept _ _ _
  | .vfExchNotify .. => execVfExchNotify_kept _ _
  | .pfExchNotify .. => execPfExchNotify_kept _ _
  | .exchPendClear .. => execExchPendClear_kept _ _ _
  | .rcvOwnerWrite .. => execRcvOwnerWrite_kept _
  | .nvmeCcEnable .. => execNvmeCcEnable_kept _ _
  | .nvmeCcDisable .. => execNvmeCcDisable_kept _ _
  | .nvmeCcShutdown .. => execNvmeCcShutdown_kept _ _
  | .nvmeSqDoorbell .. => execNvmeSqDoorbell_kept _ _ _
  | .nvmeCqDoorbell .. => execNvmeCqDoorbell_kept _ _ _
  | .nvmeCommandFetch .. => execNvmeCommandFetch_kept _ _ _ _ _ _ _
  | .nvmeCommandStart .. => execNvmeCommandStart_kept _ _ _
  | .nvmePostingPoint .. => execNvmePostingPoint_kept _ _ _
  | .nvmeDeleteIoSq .. => execNvmeDeleteIoSq_kept _ _
  | .nvmeCreateIoSq .. => execNvmeCreateIoSq_kept _ _
  | .nvmeGetLogPage .. => execNvmeGetLogPage_kept _ _
  | .nvmeDeleteIoCq .. => execNvmeDeleteIoCq_kept _ _
  | .nvmeCreateIoCq .. => execNvmeCreateIoCq_kept _ _
  | .nvmeIdentify .. => execNvmeIdentify_kept _ _
  | .nvmeAbort .. => execNvmeAbort_kept _ _
  | .nvmeSetFeatures .. => execNvmeSetFeatures_kept _ _
  | .nvmeGetFeatures .. => execNvmeGetFeatures_kept _ _
  | .nvmeAsyncEventRequest .. => execNvmeAsyncEventRequest_kept _ _
  | .nvmeAdminUnsupported .. => execNvmeAdminUnsupported_kept _ _
  | .nvmeFlush .. => execNvmeFlush_kept _ _ _
  | .nvmeWrite .. => execNvmeWrite_kept _ _ _ _ _
  | .nvmeRead .. => execNvmeRead_kept _ _ _
  | .nvmeCompare .. => execNvmeCompare_kept _ _ _ _ _
  | .nvmeWriteZeroes .. => execNvmeWriteZeroes_kept _ _ _
  | .nvmeDatasetManagement .. => execNvmeDatasetManagement_kept _ _ _
  | .nvmeFusedCompareWrite .. => execNvmeFusedCompareWrite_kept _ _ _ _ _ _ _
  | .nvmeIoUnsupported .. => execNvmeIoUnsupported_kept _ _ _
  | .intentRecordTake .. => execIntentRecordTake_kept _ _ _
  | .backendResponse .. => execBackendResponse_kept _ _ _
  | .backendPduReceive .. => execBackendPduReceive_kept _ _
  | .backendTimeout .. => execBackendTimeout_kept _
  | .backendConnectionLost .. => execBackendConnectionLost_kept _
  | .backendReconnect .. => execBackendReconnect_kept _ _
  | .reconcileChunkDone .. => execReconcileChunkDone_kept _ _ _
  | .rebuildChunkDone .. => execRebuildChunkDone_kept _ _ _ _
  | .chWr .. => execChWr_kept _ _ _
  | .chCmt .. => execChCmt_kept _ _ _ _ _
  | .chCmtResume .. => execChCmtResume_kept _
  | .chRd .. => execChRd_kept _ _ _
  | .chTry .. => execChTry_kept _ _ _
  | .chWaitany .. => execChWaitany_kept _ _ _ _
  | .channelWaitWake .. => execChannelWaitWake_kept _
  | .fork .. => execFork_kept _ _ _ _
  | .join .. => execJoin_kept _ _ _
  | .threadExit .. => execThreadExit_kept _ _
  | .trelease .. => execTrelease_kept _ _
  | .treset .. => execTreset_kept _ _
  | .xtirzuIllegal .. => execXtirzuIllegal_kept _ _ _ _
  | .threadControlCsr .. => execThreadControlCsr_kept _ _ _ _ _
  | .channelEntryWrite .. => execChannelEntryWrite_kept _ _ _ _
  | .ecallCustomer .. => execEcallCustomer_kept _ _ _
  | .threadFault .. => execThreadFault_kept _ _ _ _ _
  | .cipherSubmit .. => execCipherSubmit_kept _ _
  | .copyOut .. => execCopyOut_kept _ _ _ _ _
  | .copyMeta .. => execCopyMeta_kept _ _ _
  | .free .. => execFree_kept _ _
  | .injectHandle .. => execInjectHandle_kept _ _ _ _
  | .injectBuffer .. => execInjectBuffer_kept _ _ _ _ _
  | .contextHold .. => execContextHold_kept _ _
  | .contextRelease .. => execContextRelease_kept _ _
  | .contextRead .. => execContextRead_kept _ _
  | .contextWrite .. => execContextWrite_kept _ _ _
  | .skinkTimerFire .. => execSkinkTimerFire_kept _
  | .skinkPeriodTick .. => execSkinkPeriodTick_kept _
  | .sentinelFire .. => execSentinelFire_kept _
  | .sentinelEscalate .. => execSentinelEscalate_kept _
  | .debugHalt .. => execDebugHalt_kept _
  | .debugResume .. => execDebugResume_kept _
  | .debugSingleStep .. => execDebugSingleStep_kept _ _
  | .i3cPrivateWrite .. => execI3cPrivateWrite_kept _ _
  | .i3cPrivateRead => execI3cPrivateRead_kept
  | .enec .. => execEnec_kept _ _
  | .disec .. => execDisec_kept _ _
  | .rstdaa => execRstdaa_kept
  | .entdaa .. => execEntdaa_kept _
  | .setmwl .. => execSetmwl_kept _ _
  | .setmrl .. => execSetmrl_kept _ _
  | .rstact .. => execRstact_kept _ _
  | .setnewda .. => execSetnewda_kept _
  | .getmwl => execGetmwl_kept
  | .getmrl => execGetmrl_kept
  | .getpid => execGetpid_kept
  | .getbcr => execGetbcr_kept
  | .getdcr => execGetdcr_kept
  | .getstatus => execGetstatus_kept
  | .getmxds => execGetmxds_kept
  | .i3cUnsupportedCcc .. => execI3cUnsupportedCcc_kept _ _
  | .targetResetPattern => execTargetResetPattern_kept
  | .hotJoinRequest => execHotJoinRequest_kept
  | .keep .. => execKeep_kept _
  | .keepSend => execKeepSend_kept
  | .enum .. => execEnum_kept _
  | .close .. => execClose_kept _
  | .reset .. => execReset_kept _
  | .leapArm .. => execLeapArm_kept _
  | .leapCancel .. => execLeapCancel_kept _
  | .lend .. => execLend_kept _
  | .fault .. => execFault_kept _
  | .data .. => execData_kept _
  | .wake .. => execWake_kept _
  | .reservedFrameType .. => execReservedFrameType_kept _
  | .chainBitTimeout => execChainBitTimeout_kept
  | .chainInLinkLost => execChainInLinkLost_kept
  | .chainOutLinkLost => execChainOutLinkLost_kept
  | .chainEnumRetry => execChainEnumRetry_kept
  | .chainArmTimeout => execChainArmTimeout_kept
  | .idcode => execIdcode_kept
  | .samplePreload => execSamplePreload_kept
  | .extest => execExtest_kept
  | .extestPulse => execExtestPulse_kept
  | .extestTrain => execExtestTrain_kept
  | .clamp => execClamp_kept
  | .highz => execHighz_kept
  | .dbgChallenge => execDbgChallenge_kept
  | .dbgToken .. => execDbgToken_kept _
  | .dbgStatus => execDbgStatus_kept
  | .dbgDmi .. => execDbgDmi_kept _ _ _ _
  | .bypass .. => execBypass_kept _
  | .uartRxInput .. => execUartRxInput_kept _
  | .functionReady .. => execFunctionReady_kept _
  | .referenceClockStop .. => execReferenceClockStop_kept _ _
  | .vddRetUp => execVddRetUp_kept
  | .vddRetRemove => execVddRetRemove_kept
  | .hdrExitPattern => execHdrExitPattern_kept
  | .chainInvalidCodeword => execChainInvalidCodeword_kept
  | .nvmeCoalescingTimeExpire .. => execNvmeCoalescingTimeExpire_kept _ _

/-- Settles O54: the queue is of the view that every command keeps. -/
theorem queueKept : Obligations.QueueKept := by
  unfold Obligations.QueueKept
  exact fun i s t hexec => (exec_kept i).queue hexec

/-- Settles O53: a step takes the front command off the queue, which no memory is about, and every command keeps the memories' form. -/
theorem memoryFormKept : Obligations.MemoryFormKept := by
  unfold Obligations.MemoryFormKept
  intro s t hs hstep
  unfold step at hstep
  split at hstep
  · cases hstep
    exact hs
  · exact (exec_kept _).mem hstep ⟨hs.exch, hs.region, hs.scratch⟩

end Sys2Proof.Machine
end

section
/-! PROOFS. Boot, supplies, wake sources and Basking (R395, R403, R406, R408 to R410, R467 to R470). -/

namespace Sys2Proof.Machine

/-! ### What runs after a boot -/

/-- Of the view: what the device is doing, the slot it runs and why. -/
def runOf (c : List Instr × Phase × Nat × Eft × List Host.Cell × List Host.Cell × List Host.Cell) : Phase × Nat × Nat × Nat :=
  (c.2.1, c.2.2.2.1.running, c.2.2.2.1.reason, c.2.2.2.1.rcvCause)

@[simp] theorem runOf_mk (pending : List Instr) (phase : Phase) (clocks : Nat) (eft : Eft)
    (mems : List Host.Cell × List Host.Cell × List Host.Cell) :
    runOf (pending, phase, clocks, eft, mems) = (phase, eft.running, eft.reason, eft.rcvCause) := by
  rw [runOf]

@[simp] theorem run_fold (s : State) : (s.phase, s.eft.running, s.eft.reason, s.eft.rcvCause) = runOf s.core := rfl

@[simp] theorem run_quiet_fold (s : State) : (s.phase, s.eft.quiet.running, s.eft.quiet.reason, s.eft.quiet.rcvCause) = runOf s.core := rfl

@[simp] theorem ite_run (p : Prop) [Decidable p] (c d : List Instr × Phase × Nat × Eft × List Host.Cell × List Host.Cell × List Host.Cell) :
    runOf (if p then c else d) = if p then runOf c else runOf d := apply_ite ..

@[simp] theorem foldl_run {α : Type} {f : State → α → State} (h : ∀ s x, runOf (f s x).core = runOf s.core) (l : List α) (s : State) :
    runOf (l.foldl f s).core = runOf s.core := foldl_keeps (fun s : State => runOf s.core) f h l s

@[simp] theorem partWr_run (p a : Nat) (bs : List Byte) (s : State) : runOf (partWr p a bs s).core = runOf s.core := by
  simp [partWr]

@[simp] theorem partZero_run (p : Nat) (s : State) : runOf (partZero p s).core = runOf s.core := by
  simp [partZero]

@[simp] theorem loadSvc_run (part : Nat) (l : List Byte) (s : State) : runOf (loadSvc part l s).core = runOf s.core := by
  simp [loadSvc]

@[simp] theorem loadVendor_run (sl : Slot) (p : Nat) (s : State) : runOf (loadVendor sl p s).core = runOf s.core := by
  unfold loadVendor
  dsimp only
  repeat' split
  all_goals simp

@[simp] theorem reloadVendor_run (slot : Nat) (s : State) : runOf (reloadVendor slot s).core = runOf s.core := by
  simp [reloadVendor]

@[simp] theorem bootSkink_run (slot : Nat) (s : State) : runOf (bootSkink slot s).core = runOf s.core := by
  simp [bootSkink]

@[simp] theorem bootOctets_run (s : State) : runOf (bootOctets s).core = runOf s.core := by
  unfold bootOctets
  extract_lets modes s1 s2
  have hbad : runOf s2.core = runOf s.core := by simp [s2, s1]
  split
  · exact hbad
  · rw [State.event_core]
    exact hbad

theorem bootInto_run (i reason : Nat) (s : State) : runOf (bootInto i reason s).core = (.running, i, reason, s.eft.rcvCause) := by
  unfold bootInto
  extract_lets s1 s2 s3 s4 s5 s6 s7
  have hslot : runOf s2.core = (.running, i, reason, s.eft.rcvCause) := by
    simp only [s2, s1, releaseSlot]
    split <;> simp [Eft.quiet]
  have hoct : runOf s4.core = runOf s2.core := by simp [s4, s3]
  have hend : runOf s7.core = runOf s4.core := by simp [s7, s6, s5]
  rw [alarmLevels_core]
  exact (hend.trans hoct).trans hslot

theorem bootRecovery_run (s : State) :
    runOf (bootRecovery s).core = (.recovery, 0xFF, 0xFF, if s.pins.bootRecoveryN then 1 else 2) := by
  unfold bootRecovery
  extract_lets e s1 s2
  rw [alarmLevels_core]
  exact bootOctets_run s1

/-! ### The choice of a slot (R395) -/

/-- The choice turns on the two slot words and on the keys revoked. -/
theorem selectSlot_congr {s t : State} (hA : t.nv.slotA = s.nv.slotA) (hB : t.nv.slotB = s.nv.slotB) (hrev : t.nv.revoke = s.nv.revoke) :
    selectSlot t = selectSlot s := by
  have hslot (i : Nat) : slotOf t i = slotOf s i := by simp [slotOf, hA, hB]
  simp [selectSlot, candidates, prefers, hslot, hrev]

theorem failTrials_of_none {s : State} (hA : s.nv.slotA.state ≠ 4) (hB : s.nv.slotB.state ≠ 4) : failTrials s = s := by
  simp [failTrials, slotOf, hA, hB]

@[simp] theorem State.chainSend_pins (s : State) (type dst : Nat) (bcast : Bool) (part data : Nat) :
    (s.chainSend type dst bcast part data).pins = s.pins := by
  unfold State.chainSend
  split <;> rfl

@[simp] theorem State.chainSend_nv (s : State) (type dst : Nat) (bcast : Bool) (part data : Nat) :
    (s.chainSend type dst bcast part data).nv = s.nv := by
  unfold State.chainSend
  split <;> rfl

@[simp] theorem bootChain_pins (s : State) : (bootChain s).pins = s.pins := by
  unfold bootChain
  dsimp only
  split <;> simp

@[simp] theorem bootChain_nv (s : State) : (bootChain s).nv = s.nv := by
  unfold bootChain
  dsimp only
  split <;> simp

@[simp] theorem failTrials_pins (s : State) : (failTrials s).pins = s.pins :=
  foldl_keeps (fun s : State => s.pins) _ (fun s i => by split <;> simp) _ s

@[simp] theorem bootReady_pins (s : State) : (bootReady s).pins = { s.pins with sysRstN := true } := by
  simp [bootReady, bootLog]

theorem selectSlot_bootReady {s : State} (hA : s.nv.slotA.state ≠ 4) (hB : s.nv.slotB.state ≠ 4) : selectSlot (bootReady s) = selectSlot s := by
  have hnv : (bootReady s).nv = { s.nv with priorFaults := [] } := by
    simp [bootReady, bootLog, failTrials_of_none, hA, hB]
  exact selectSlot_congr (by rw [hnv]) (by rw [hnv]) (by rw [hnv])

/-- The slots that verify and are in one of some states. -/
theorem mem_candidates {s : State} {l : List Nat} {i : Nat} :
    i ∈ candidates s l ↔ (i = 0 ∨ i = 1) ∧ ((slotOf s i).key s.nv.revoke).isSome = true ∧ (slotOf s i).state ∈ l := by
  simp [candidates]

/-- The boot ends in recovery mode when the strap asks for it or no slot can run. -/
theorem boot_recovers {s : State} (h : s.pins.bootRecoveryN = false ∨ selectSlot (bootReady s) = none) :
    (boot s).phase = .recovery ∧ (boot s).eft.running = 0xFF ∧ (boot s).eft.rcvCause = if s.pins.bootRecoveryN then 1 else 2 := by
  have hboot : boot s = bootRecovery (bootReady s) := by
    rw [boot_eq, bootReady_pins]
    obtain h | h := h <;> simp [h]
  have hrun := bootRecovery_run (bootReady s)
  rw [← hboot, bootReady_pins] at hrun
  exact ⟨congrArg (·.1) hrun, congrArg (·.2.1) hrun, congrArg (·.2.2.2) hrun⟩

/-- The boot runs the slot that is chosen. -/
theorem boot_runs {s : State} {i reason : Nat} (hstrap : s.pins.bootRecoveryN = true) (hsel : selectSlot (bootReady s) = some (i, reason)) :
    (boot s).phase = .running ∧ (boot s).eft.running = i ∧ (boot s).eft.reason = reason := by
  have hboot : boot s = bootInto i reason (bootReady s) := by
    rw [boot_eq, bootReady_pins]
    simp [hstrap, hsel]
  have hrun := bootInto_run i reason (bootReady s)
  rw [← hboot] at hrun
  exact ⟨congrArg (·.1) hrun, congrArg (·.2.1) hrun, congrArg (·.2.2.1) hrun⟩

/-- The state that a cold boot starts from: all is lost, and the straps are sampled. -/
def strapped (ch br : Bool) (os : Nat) (s : State) : State :=
  { loseAll s with pins := { (loseAll s).pins with chnHead := ch, bootRecoveryN := br, ownerStrap := os } }

/-- A cold boot whose straps are sampled. -/
theorem exec_sysRstNRelease {ch br : Bool} {os : Nat} {s : State} (hw : wfSysRstNRelease ch br os = true) (hrst : s.pins.sysRstN = false)
    (hpwr : s.pins.pwrOk = true) (hret : s.pins.vddRet = true) (htherm : s.pins.thermtrip = false) :
    exec (.sysRstNRelease ch br os) s =
      .next (boot (strapped ch br os s)) :=
  (run_next hw (if_neg (by simp [hrst, hpwr, hret, htherm])) : execSysRstNRelease ch br os s = _)

theorem candidates_cases (s : State) (l : List Nat) :
    candidates s l = [] ∨ candidates s l = [0] ∨ candidates s l = [1] ∨ candidates s l = [0, 1] := by
  simp only [candidates, List.filter]
  split <;> split <;> simp

/-- The best of some candidates: the only one, or the one that is preferred (R395, step 2). -/
def bestOf (s : State) : List Nat → Option (Nat × Nat)
  | [] => none
  | [i] => some (i, 0)
  | _ => if (prefers s 0).1 then some (0, (prefers s 0).2) else some (1, (prefers s 0).2)

theorem selectSlot_eq (s : State) : selectSlot s = match candidates s [3] with
    | i :: _ => some (i, 1)
    | [] => match bestOf s (candidates s [6]) with
      | some c => some c
      | none => (bestOf s (candidates s [5])).map (fun c => (c.1, 5)) := rfl

theorem bestOf_mem {s : State} {l : List Nat} {c : Nat × Nat} (h : bestOf s (candidates s l) = some c) : c.1 ∈ candidates s l := by
  obtain e | e | e | e := candidates_cases s l <;> rw [e] at h ⊢
  · cases h
  · cases h
    simp
  · cases h
    simp
  · simp only [bestOf] at h
    split at h <;> cases h <;> simp

/-- What is chosen is a candidate: a TRIAL image where there is one, or else a CONFIRMED or a FAILED one. -/
theorem selectSlot_mem {s : State} {i reason : Nat} (h : selectSlot s = some (i, reason)) :
    (i ∈ candidates s [3] ∧ reason = 1) ∨ (candidates s [3] = [] ∧ (i ∈ candidates s [6] ∨ i ∈ candidates s [5])) := by
  rw [selectSlot_eq] at h
  split at h
  next j l e =>
    cases h
    simp [e]
  next e =>
    refine .inr ⟨e, ?_⟩
    split at h
    next c hbest =>
      cases h
      exact .inl (bestOf_mem hbest)
    · obtain ⟨c, hbest, hc⟩ := Option.map_eq_some_iff.mp h
      cases hc
      exact .inr (bestOf_mem hbest)

/-- Settles O16: what a boot runs is of the view that its later parts keep; a choice is a candidate. -/
theorem bootChoosesSlot : Obligations.BootChoosesSlot := by
  unfold Obligations.BootChoosesSlot
  refine ⟨?strap, ?chosen, ?none, ?verified, ?trial⟩
  case strap =>
    intro ch os s hw hrst hpwr hret htherm
    obtain ⟨hphase, hrun, hcause⟩ := boot_recovers (s := strapped ch false os s) (.inl rfl)
    exact ⟨_, exec_sysRstNRelease hw hrst hpwr hret htherm, hphase, hcause, hrun⟩
  case chosen =>
    intro ch os s i reason hw hrst hpwr hret htherm hA hB hsel
    exact ⟨_, exec_sysRstNRelease hw hrst hpwr hret htherm, boot_runs rfl ((selectSlot_bootReady (s := strapped ch true os s) hA hB).trans hsel)⟩
  case none =>
    intro ch os s hw hrst hpwr hret htherm hA hB hsel
    obtain ⟨hphase, -, hcause⟩ := boot_recovers (.inr ((selectSlot_bootReady (s := strapped ch true os s) hA hB).trans hsel))
    exact ⟨_, exec_sysRstNRelease hw hrst hpwr hret htherm, hphase, hcause⟩
  case verified =>
    intro s i reason hsel
    obtain ⟨hi, -⟩ | ⟨-, hi | hi⟩ := selectSlot_mem hsel <;> obtain ⟨-, hkey, hstate⟩ := mem_candidates.mp hi <;> simp_all
  case trial =>
    intro s i j reason hi hstate hkey hsel
    have hmem : i ∈ candidates s [3] := mem_candidates.mpr ⟨by omega, hkey, by simp [hstate]⟩
    obtain ⟨hj, hreason⟩ | ⟨hnone, -⟩ := selectSlot_mem hsel
    · obtain ⟨-, -, hstate⟩ := mem_candidates.mp hj
      exact ⟨by simpa using hstate, hreason⟩
    · simp [hnone] at hmem

end Sys2Proof.Machine
end

section
/-! PROOFS. Supplies, wake sources, reference clocks and Basking (R408 to R410, R444, R465 to R470). -/

namespace Sys2Proof.Machine

theorem bit_add_two_pow {n b : Nat} (h : bit n b = false) : bit (n + 2 ^ b) b = true := by
  have hpos : 0 < 2 ^ b := Nat.two_pow_pos b
  simp only [bit, beq_eq_false_iff_ne, beq_iff_eq, Nat.add_div_right n hpos] at h ⊢
  omega

/-- A partition's start is about neither the time nor what is kept in eMRAM and OTP. -/
theorem partStart_nv_time (p : Nat) (s : State) : ((partStart p s).nv, (partStart p s).time) = (s.nv, s.time) := by
  unfold partStart
  split
  · rfl
  · dsimp only
    rw [State.modPart_nv, State.modPart_time]
    exact foldl_keeps (fun s : State => (s.nv, s.time)) _ (fun s t => by simp) _ s

theorem wakeSkink_nv_time (s : State) : ((wakeSkink s).nv, (wakeSkink s).time) = (s.nv, s.time) :=
  foldl_keeps (fun s : State => (s.nv, s.time)) _ (fun s e => partStart_nv_time e.1 s) _ s

section Core
variable {s t : State}

theorem phase_of_core (h : t.core = s.core) : t.phase = s.phase := congrArg (fun c => c.2.1) h

theorem basking_of_core (h : t.core = s.core) : t.eft.basking = s.eft.basking := congrArg (fun c => c.2.2.2.1.basking) h

theorem wakeLatched_of_core (h : t.core = s.core) : t.eft.wakeLatched = s.eft.wakeLatched := congrArg (fun c => c.2.2.2.1.wakeLatched) h

theorem clkStopped_of_core (h : t.core = s.core) : t.pins.clkStopped = s.pins.clkStopped := congrArg (fun c => c.2.2.1) h

end Core

/-- A wake from retention resumes what was running (R410). -/
theorem finishWake_resumes {s : State} (hret : s.eft.retention = true) (halarm : alarmLatched s = false) :
    (finishWake s).phase = .running ∧ (finishWake s).nv = s.nv ∧ (finishWake s).time = s.time := by
  unfold finishWake
  rw [if_pos (by simp [hret, halarm])]
  exact ⟨phase_of_core (wakeSkink_core _), congrArg (·.1) (wakeSkink_nv_time _), congrArg (·.2) (wakeSkink_nv_time _)⟩

/-- The record of a clock that has stopped. -/
def clockGone (b : Nat) (s : State) : State :=
  if bit s.pins.clkStopped b then s else { s with pins := { s.pins with clkStopped := s.pins.clkStopped + 2 ^ b } }

/-- What a reference clock's stop does. -/
def clockStops (pcie : Bool) (index : Nat) (s : State) : State :=
  let s := clockGone (if pcie then 4 + index else index) s
  if s.phase = .basking then
    if !pcie && index = 0 then { s with eft := { s.eft with retention := false } } else s
  else if pcie then
    (List.range 4).foldl (fun s i =>
      let n := 4 * index + i
      if hostPortExists s n && (hostPort s n).linkUp && !(hostPort s n).sris then portReset n s else s) s
  else
    (s.ports.filter (fun e => (quadrantOctets index).contains e.2.octet && e.2.state = 2)).foldl (fun s e => portDown e.1 1 1 s) s

theorem bit_clockGone (b : Nat) (s : State) : bit (clockGone b s).pins.clkStopped b = true := by
  unfold clockGone
  split
  · assumption
  · rename_i h
    exact bit_add_two_pow (Bool.eq_false_iff.mpr h)

theorem clockGone_phase (b : Nat) (s : State) : (clockGone b s).phase = s.phase := by
  unfold clockGone
  split <;> rfl

theorem clkStopped_clockStops (pcie : Bool) (index : Nat) (s : State) :
    (clockStops pcie index s).pins.clkStopped = (clockGone (if pcie then 4 + index else index) s).pins.clkStopped := by
  unfold clockStops
  extract_lets t
  change _ = t.pins.clkStopped
  clear_value t
  split
  · split <;> rfl
  split
  · refine clkStopped_of_core ?_
    simp
  · refine clkStopped_of_core ?_
    simp

/-- The end of Basking's drain but for the rails: the response, then the links and the partitions (R408). -/
def baskOff (s : State) : State :=
  let s := finishWait (· = .bask) stOk 0 [] s
  let s := s.ports.foldl (fun s e => if e.2.state = 0 then s else portDown e.1 0 0 s) s
  let s := (List.range 32).foldl (fun s n => if (hostPort s n).linkUp then portReset n s else s) s
  stopAllPartitions s

/-- The device in Basking, its drain over. -/
def basked (s : State) : State :=
  { baskOff s with
    phase := Phase.basking
    pins := { (baskOff s).pins with baskReq := true }
    eft := { (baskOff s).eft with basking := false, retention := true, wakeLatched := false, waking := false } }

/-- Settles O17: each supply event and wake by the state of the device; the drain of Basking keeps what it is not about. -/
theorem suppliesWakeAndBasking : Obligations.SuppliesWakeAndBasking := by
  unfold Obligations.SuppliesWakeAndBasking
  refine ⟨⟨?rise, ?riseWakes, ?fall, ?fallBasking, ?wake, ?latch, ?retUp, ?retRemoveBasking, ?retRemove, ?clock, ?clockBasking,
    fun s hret halarm => ⟨_, rfl, finishWake_resumes hret halarm⟩, ?boots⟩, ?enter, ?drained, ?late⟩
  case rise =>
    intro s h
    have hno : ¬ (decide (s.phase = .basking) && s.eft.waking) = true := by
      obtain h | h := h <;> simp [h]
    exact (run_next (wf := wfPwrOkRise) rfl (if_neg hno) : execPwrOkRise s = _)
  case riseWakes =>
    intro s hphase hwaking
    exact (run_next (wf := wfPwrOkRise) rfl (if_pos (by simp [hphase, hwaking])) : execPwrOkRise s = _)
  case fall =>
    intro s hreq hphase
    refine (run_next (wf := wfPwrOkFall) rfl ?_ : execPwrOkFall s = _)
    simp [hreq, hphase]
  case fallBasking =>
    intro s hreq
    refine (run_next (wf := wfPwrOkFall) rfl ?_ : execPwrOkFall s = _)
    simp [hreq]
  case wake =>
    intro ns s hw hns hpins hphase hwaking hpwr
    refine (run_next hw ?_ : execWakeNAssert ns s = _)
    simp [show ¬ ns < 1000 by omega, hpins, wakeSource, hphase, hwaking, hpwr]
  case latch =>
    intro ns s hw hns hpins hphase hbask
    refine (run_next hw ?_ : execWakeNAssert ns s = _)
    simp [show ¬ ns < 1000 by omega, hpins, wakeSource, hphase, hbask]
  case retUp =>
    intro s hret
    exact ⟨_, (run_next (wf := wfVddRetUp) rfl (if_neg (by simp [hret])) : execVddRetUp s = _), rfl, rfl, rfl, rfl, rfl⟩
  case retRemoveBasking =>
    intro s hphase
    exact ⟨_, (run_next (wf := wfVddRetRemove) rfl (if_pos hphase) : execVddRetRemove s = _), rfl, rfl, rfl, rfl⟩
  case retRemove =>
    intro s hphase
    exact ⟨_, (run_next (wf := wfVddRetRemove) rfl (if_neg hphase) : execVddRetRemove s = _), rfl, rfl⟩
  case clock =>
    intro pcie i s hw
    exact ⟨_, (run_next hw rfl : execReferenceClockStop pcie i s = _), 
      (congrArg (bit · _) (clkStopped_clockStops pcie i s)).trans (bit_clockGone ..)⟩
  case clockBasking =>
    intro s hphase
    refine ⟨_, (run_next (wf := wfReferenceClockStop false 0) rfl rfl : execReferenceClockStop false 0 s = _), ?_⟩
    have hgone : (clockGone 0 s).phase = .basking := by rw [clockGone_phase, hphase]
    show (clockStops false 0 s).eft.retention = false
    simp [clockStops, hgone]
  case boots =>
    intro s h
    unfold finishWake
    rw [if_neg]
    obtain h | h := h <;> simp [h]
  case enter =>
    intro x r s hr hw hblock
    exact run_held hw hr (by simp [hblock])
  case drained =>
    intro s hbask hphase hlatch hfns hbusy
    have hoff : (baskOff s).core = s.core := by simp [baskOff]
    have hwake : ¬ (baskOff s).eft.wakeLatched = true := by simp [wakeLatched_of_core hoff, hlatch]
    refine ⟨basked s, (run_next (wf := wfBaskDrainDone) rfl ?_ : execBaskDrainDone s = _), rfl, rfl, rfl⟩
    rw [if_neg (by simp [hbask, hphase, hfns, hbusy])]
    extract_lets s1 s2 s3 s4 wake p e s5
    have hs4 : s4 = baskOff s := rfl
    have hno : ¬ wake = true := by
      simp only [wake]
      rwa [hs4]
    rw [if_neg hno]
    simp only [s5, p, e]
    rw [hs4]
    rfl
  case late =>
    intro us s hw hbask hphase
    refine ⟨_, (run_next hw (if_neg (by simp [hbask, hphase])) : execBaskDrainTimeout us s = _), ?_, ?_⟩
    · exact basking_of_core (s := { s with eft := { s.eft with basking := false, wakeLatched := false } }) (by simp)
    · exact (phase_of_core (s := { s with eft := { s.eft with basking := false, wakeLatched := false } }) (by simp)).trans hphase

end Sys2Proof.Machine
end

section
/-! PROOFS. NVMe admin and I/O commands (R233 to R240, R246, R250, R253, R260, R266, R269, R271). -/

namespace Sys2Proof.Machine

/-! ### Admin commands (R233, R236 to R239, R253, R260) -/

section Admin
variable {fid cid opc : Nat} {wf : Bool} {f : NvCmd → State → State} {s t : State} {c : NvCmd}

/-- An admin command whose turn has come, by what it leaves. -/
theorem run_admin (hw : wf = true) (hturn : adminTurn s fid cid (· = opc) = some c) (hf : f c s = t) :
    run wf (admin fid cid opc f) s = .next t := by
  rw [run_of_wf hw, admin, hturn]
  exact congrArg _ hf

end Admin

/-- Settles O35: each admin command whose turn has come, by the guards that its fields and the controller meet. -/
theorem nvmeAdmin : Obligations.NvmeAdmin := by
  unfold Obligations.NvmeAdmin
  refine ⟨?createSq, ?createCq, ?deleteCq, ?deleteSq, ?asyncEvent, ?setFeatures, ?getFeatures, ?identify, ?logPage, ?unsupported, ?abortNone,
    ?abort⟩
  case createSq =>
    intro f cid s c hw hturn q cq hq hgrant hnew hsize hcq hcqThere hbit
    have hq' : (decide (q = 0) || decide ((grantsOf s f).nvmeQp < q) || (mget? (ctrlOf s f).sqs q).isSome) = false := by
      simp [hq, hgrant, hnew]
    have hcq' : (decide (cq = 0) || (mget? (ctrlOf s f).cqs cq).isNone) = false := by
      simp [hcq, hcqThere]
    refine (run_admin hw hturn ?_ : execNvmeCreateIoSq f cid s = _)
    dsimp only
    rw [if_neg (ne_true_of_eq_false hq'), if_neg (by omega), if_neg (ne_true_of_eq_false hcq'), if_neg (by simp [hbit])]
  case createCq =>
    intro f cid s c hw hturn q hq hgrant hnew hbit hsize hiv new
    have hq' : (decide (q = 0) || decide ((grantsOf s f).nvmeQp < q) || (mget? (ctrlOf s f).cqs q).isSome) = false := by
      simp [hq, hgrant, hnew]
    refine (run_admin hw hturn ?_ : execNvmeCreateIoCq f cid s = _)
    dsimp only
    rw [if_neg (ne_true_of_eq_false hq'), if_neg (by simp [hbit]), if_neg (by omega), if_neg (by omega)]
  case deleteCq =>
    intro f cid s c hw hturn q hq hthere hfree
    have hq' : (decide (q = 0) || (mget? (ctrlOf s f).cqs q).isNone) = false := by
      simp [hq, hthere]
    refine (run_admin hw hturn ?_ : execNvmeDeleteIoCq f cid s = _)
    dsimp only
    rw [if_neg (ne_true_of_eq_false hq'), if_neg (ne_true_of_eq_false hfree)]
  case deleteSq =>
    intro f cid s c hw hturn q hq hthere hdel hempty
    have hq' : (decide (q = 0) || (mget? (ctrlOf s f).sqs q).isNone || (sqOf s f q).deleting) = false := by
      simp [hq, hthere, hdel]
    refine (run_admin hw hturn ?_ : execNvmeDeleteIoSq f cid s = _)
    dsimp only
    rw [if_neg (ne_true_of_eq_false hq'), hempty]
    rfl
  case asyncEvent =>
    intro f cid s c hw hturn hroom
    exact (run_admin hw hturn (if_neg (by omega)) : execNvmeAsyncEventRequest f cid s = _)
  case setFeatures =>
    intro f cid s c d g hw hturn hsave hset
    refine (run_admin hw hturn ?_ : execNvmeSetFeatures f cid s = _)
    rw [if_neg (by simp [hsave]), hset]
  case getFeatures =>
    intro f cid s c d hw hturn hsel hget
    refine (run_admin hw hturn ?_ : execNvmeGetFeatures f cid s = _)
    rw [if_neg (by simp [hsel]), hget]
  case identify =>
    intro f cid s c p hw hturn hid
    refine (run_admin hw hturn ?_ : execNvmeIdentify f cid s = _)
    rw [hid]
  case logPage =>
    intro f cid s c p u hw hturn hpage hoff hrae
    refine (run_admin hw hturn ?_ : execNvmeGetLogPage f cid s = _)
    dsimp only
    rw [hpage]
    dsimp only
    rw [if_neg (by omega), if_pos hrae]
  case unsupported =>
    intro f cid s c hw hturn
    refine (run_next hw ?_ : execNvmeAdminUnsupported f cid s = _)
    rw [hturn]
  case abortNone =>
    intro f cid s a hw ha hrdy hfence hnone
    refine (run_next hw ?_ : execNvmeAbort f cid s = _)
    simp only [ha, hrdy, hfence, hnone]
    rfl
  case abort =>
    intro f cid s a c hw ha hrdy hfence hc habort hpair
    refine (run_next hw ?_ : execNvmeAbort f cid s = _)
    simp only [ha, hrdy, hfence, hc, habort, hpair]
    rfl

/-! ### I/O commands (R234, R240, R246, R250, R266, R269, R271) -/

/-- Settles O36: each I/O command in the phase that its guards name. -/
theorem nvmeIo : Obligations.NvmeIo := by
  unfold Obligations.NvmeIo
  refine ⟨?flush, ?flushHeld, ?write, ?read, ?compare, ?zeroes, ?dsm, ?dsmNone, ?dsmWithoutAd, ?fused, ?unsupported⟩
  case flush =>
    intro f q cid s c hw hc hfuse hord hwait
    refine (run_next hw ?_ : execNvmeFlush f q cid s = _)
    simp only [hc]
    exact if_neg (by simp [hfuse, hord, hwait])
  case flushHeld =>
    intro f q cid s c k hw hc hk hwait
    have hany : s.sto.cmds.any (flushWaits s c) = true := List.any_eq_true.mpr ⟨k, hk, hwait⟩
    refine (run_next hw ?_ : execNvmeFlush f q cid s = _)
    simp only [hc]
    exact if_pos (by simp only [hany, Bool.or_true])
  case write =>
    intro f q cid d m s c hw hc hfuse hdue hok
    refine (run_next hw ?_ : execNvmeWrite f q cid d m s = _)
    simp only [hc]
    exact if_pos (by simp [hfuse, hdue, hok])
  case read =>
    intro f q cid s c hw hc
    refine (run_next hw ?_ : execNvmeRead f q cid s = _)
    rw [hc]
  case compare =>
    intro f q cid d m s c hw hc hfuse hdue hok t hissued
    refine (run_next hw ?_ : execNvmeCompare f q cid d m s = _)
    simp only [hc]
    rw [if_pos (by simp [hfuse, hdue, hok])]
    exact if_neg hissued
  case zeroes =>
    intro f q cid s c hw hc
    refine (run_next hw ?_ : execNvmeWriteZeroes f q cid s = _)
    rw [hc]
  case dsm =>
    intro f q cid s c hw hc hranges
    refine (run_next hw ?_ : execNvmeDatasetManagement f q cid s = _)
    simp only [hc]
    exact if_neg (by simp [hranges])
  case dsmNone =>
    intro f q cid s c hw hc hranges
    refine (run_next hw ?_ : execNvmeDatasetManagement f q cid s = _)
    simp only [hc]
    exact if_pos (by simp [hranges])
  case dsmWithoutAd =>
    intro f q cid s c hw hstarted hc had hfuse hord
    refine (run_next hw ?_ : execNvmeDatasetManagement f q cid s = _)
    simp only [hstarted, hc]
    rw [if_neg (by simp [had, hfuse, hord])]
    cases volAnswer s c <;> rfl
  case fused =>
    intro f q cid d m wd wm s c w hw hc hpair hfuse hdueC hdueW hokC hokW hgood md16 t hissued
    refine (run_next hw ?_ : execNvmeFusedCompareWrite f q cid d m wd wm s = _)
    simp only [hc, hpair]
    rw [if_pos (by simp [hfuse, hdueC, hdueW, hokC, hokW])]
    simp only [hgood]
    exact if_neg hissued
  case unsupported =>
    intro f q cid s c hw hq hc
    refine (run_next hw ?_ : execNvmeIoUnsupported f q cid s = _)
    rw [if_neg hq, hc]

end Sys2Proof.Machine
end

section
/-! PROOFS. The cipher alarm (R306 to R308). -/

namespace Sys2Proof.Machine

/-! ### What an asynchronous event of a controller is not about -/

/-- The pins, the sources of the cipher alarm and the namespaces. -/
def State.still (s : State) : Pins × Nat × List (Nat × Ns) := (s.pins, s.cip.sources, s.sto.nss)

@[simp] theorem State.drawBelow_still (s : State) (n : Nat) : (s.drawBelow n).2.still = s.still := rfl

@[simp] theorem State.modCtrl_still (s : State) (fid : Nat) (f : Ctrl → Ctrl) : (s.modCtrl fid f).still = s.still := rfl

@[simp] theorem State.modCmd_still (s : State) (seq : Nat) (f : NvCmd → NvCmd) : (s.modCmd seq f).still = s.still := rfl

@[simp] theorem shutdownCheck_still (fid : Nat) (s : State) : (shutdownCheck fid s).still = s.still := by
  unfold shutdownCheck
  dsimp only
  split <;> simp

@[simp] theorem nvRelease_still (seq : Nat) (s : State) : (nvRelease seq s).still = s.still := by
  unfold nvRelease
  split
  · rfl
  · rw [shutdownCheck_still]
    rfl

@[simp] theorem nvDone_still (seq sct sc : Nat) (dnr : Option Bool) (s : State) : (nvDone seq sct sc dnr s).still = s.still := by
  unfold nvDone
  dsimp only
  cases dnr
  all_goals
    dsimp only
    split
    · split <;> simp
    · simp

@[simp] theorem asyncEvent_still (fid t i l : Nat) (s : State) : (asyncEvent fid t i l s).still = s.still := by
  have hpump (s : State) : (asyncPump fid s).still = s.still := by
    unfold asyncPump
    dsimp only
    split
    · simp [nvOk]
    · rfl
  unfold asyncEvent
  dsimp only
  split_ifs <;> simp [hpump]

/-! ### The cipher alarm -/

@[simp] theorem State.modCip_cip (s : State) (f : CipherState → CipherState) : (s.modCip f).cip = f s.cip := rfl

@[simp] theorem setVolState_cip (h new : Nat) (s : State) : (setVolState h new s).cip = s.cip := by
  unfold setVolState
  split
  · split <;> simp [State.modSto]
  · rfl

@[simp] theorem lockVolumes_cip (p : Nat → Bool) (s : State) : (lockVolumes p s).cip = s.cip := by
  simp [lockVolumes, foldl_keeps (fun s : State => s.cip) (fun s (e : Nat × Volume) => setVolState e.1 4 s) (fun s e => setVolState_cip e.1 4 s)]

@[simp] theorem lockVolumes_pins (p : Nat → Bool) (s : State) : (lockVolumes p s).pins = s.pins := by
  have hset (s : State) (h : Nat) : (setVolState h 4 s).pins = s.pins := by
    unfold setVolState
    split
    · split <;> simp [State.modSto]
    · rfl
  simp [lockVolumes, foldl_keeps (fun s : State => s.pins) (fun s (e : Nat × Volume) => setVolState e.1 4 s) (fun s e => hset s e.1)]

@[simp] theorem alarmAdds_cip (s : State) : (alarmAdds s).cip = s.cip := rfl

/-- A source latches, whether it is the first or not (R306). -/
theorem cipherAlarm_sources (src : Nat) (s : State) : (cipherAlarm src s).cip.sources = s.cip.sources ||| 2 ^ src := by
  unfold cipherAlarm
  dsimp only
  split
  · split <;> simp
  · simp

@[simp] theorem cipherAlarm_pins (src : Nat) (s : State) : (cipherAlarm src s).pins = s.pins := by
  unfold cipherAlarm
  dsimp only
  split
  · split <;> simp
  · simp [alarmAdds]

/-- The first alarm destroys the KEKs and the cache, and invalidates what uses a key (R307). -/
theorem cipherAlarm_destroys {src : Nat} {s : State} (h : alarmLatched s = false) :
    let c := (cipherAlarm src s).cip
    c.kek = none ∧ c.oldKek = none ∧ c.cache = [] ∧ c.walking = false ∧
      c.times = (if bit s.cip.sources src then s.cip.times else mput s.cip.times src s.time) ∧
      c.sas = mmap s.cip.sas (fun _ a => { a with state := 4, keyReg := [] }) ∧ c.reqs = s.cip.reqs.map (fun r => { r with status := some 3 }) := by
  unfold cipherAlarm
  dsimp only
  rw [if_pos (by simp [h])]
  split <;> simp

/-- A further alarm leaves the slots and counts nothing. -/
theorem cipherAlarm_again {src : Nat} {s : State} (h : alarmLatched s = true) :
    (cipherAlarm src s).cip.slots = s.cip.slots ∧ (cipherAlarm src s).ctr = s.ctr := by
  unfold cipherAlarm
  dsimp only
  rw [if_neg (by simp [h])]
  simp [h, alarmAdds, State.bump, b2n]

theorem sourcesHeld_congr {s t : State} (h : t.pins = s.pins) : sourcesHeld t = sourcesHeld s := by
  unfold sourcesHeld hottest
  rw [h]

@[simp] theorem sourcesHeld_begun (x : XCall) (s : State) : sourcesHeld (begun x s) = sourcesHeld s := sourcesHeld_congr (begun_pins x s)

/-- A sensor has taken a reading. -/
def sensed (sensor tj : Nat) (s : State) : State :=
  { s with pins := { s.pins with tj := mput s.pins.tj sensor tj, thermtrip := s.pins.thermtrip || decide (398 ≤ tj) } }

/-- The controllers' temperature warnings, when the hottest sensor goes from one reading to another. -/
def tempEvents (was now : Nat) (s : State) : State :=
  (s.sto.ctrls.map (·.1)).foldl (fun s f =>
    let t := (ctrlOf s f).feats
    if (t.tempOver ≤ now && was < t.tempOver) || (now ≤ t.tempUnder && t.tempUnder < was) then asyncEvent f 1 1 2 s else s) s

theorem tempEvents_still (was now : Nat) (s : State) : (tempEvents was now s).still = s.still :=
  foldl_keeps State.still _ (fun s f => by dsimp only; split <;> simp) _ s

/-- Settles O41: a source's first alarm destroys, a further one is only recorded; a clear needs every source gone. -/
theorem cipherAlarmObligation : Obligations.CipherAlarm := by
  unfold Obligations.CipherAlarm
  refine ⟨?pin, ?pinShort, ?glitch, ?glitchShort, ?hot, ?first, ?again, ?state, ?refused, ?clear, ?held⟩
  case pin =>
    intro ns low s hw hpins hns hup
    refine (run_next hw ?_ : execAlarmNAssert ns low s = _)
    simp [hpins, hns, keyStoreUp, hup]
  case pinShort =>
    intro ns low s hw hpins hns
    refine (run_next hw ?_ : execAlarmNAssert ns low s = _)
    simp [hpins, show ¬ 100 ≤ ns by omega]
  case glitch =>
    intro rail p ns s hw hp hns hup
    exact (run_next hw (if_pos (by simp [hp, hns, keyStoreUp, hup])) : execSupplyGlitch rail p ns s = _)
  case glitchShort =>
    intro rail p ns s hw hshort
    have hno : ¬ (decide (120 < p) && decide (5 ≤ ns) && keyStoreUp s) = true := by
      simp only [Bool.and_eq_true, decide_eq_true_eq]
      omega
    exact (run_next hw (if_neg hno) : execSupplyGlitch rail p ns s = _)
  case hot =>
    intro i tj s hw htj hup
    have hpins : (tempEvents (hottest s) (hottest (sensed i tj s)) (cipherAlarm 1 (sensed i tj s))).pins = (sensed i tj s).pins :=
      (congrArg (fun v => v.1) (tempEvents_still ..)).trans (cipherAlarm_pins ..)
    have hsources : (tempEvents (hottest s) (hottest (sensed i tj s)) (cipherAlarm 1 (sensed i tj s))).cip.sources = s.cip.sources ||| 2 ^ 1 :=
      (congrArg (fun v => v.2.1) (tempEvents_still ..)).trans (cipherAlarm_sources ..)
    have hrun : execTjThresholdCross i tj s = .next (tempEvents (hottest s) (hottest (sensed i tj s)) (cipherAlarm 1 (sensed i tj s))) := by
      refine run_next hw ?_
      dsimp only
      rw [if_pos (by simp [htj, keyStoreUp, hup])]
      rfl
    refine ⟨_, hrun, ?_, ?_, ?_⟩
    · rw [hsources]
      exact bit_or_two_pow _ _
    · rw [hpins]
      simp [sensed]
    · intro htrip
      rw [hpins]
      simp [sensed, htrip]
  case first =>
    intro src s hsrc halarm t
    obtain ⟨hkek, hold, hcache, hwalk, htimes, hsas, hreqs⟩ := cipherAlarm_destroys (src := src) halarm
    have hnone : s.cip.sources = 0 := by simpa [alarmLatched] using halarm
    refine ⟨hkek, hold, hcache, hwalk, ?_, ?_, ?_, ?_⟩
    · rw [cipherAlarm_sources]
      exact bit_or_two_pow _ _
    · rw [htimes, hnone]
      simp [bit]
    · intro e he
      rw [hsas] at he
      obtain ⟨a, -, rfl⟩ := List.mem_map.mp he
      exact ⟨rfl, rfl⟩
    · intro r hr
      rw [hreqs] at hr
      obtain ⟨q, -, rfl⟩ := List.mem_map.mp hr
      rfl
  case again =>
    intro src s hsrc halarm
    obtain ⟨hslots, hctr⟩ := cipherAlarm_again (src := src) halarm
    exact ⟨hslots, by rw [State.count, hctr, State.count], cipherAlarm_sources src s⟩
  case state =>
    intro x r s hr hw
    exact run_replied hw hr (by simp [reads, State.count])
  case refused =>
    intro x r s hr hw hheld
    exact run_turnedAway hw hr (by simp [hheld, fails, failsWith])
  case clear =>
    intro x r s hr hw hheld u c new v
    refine run_replied hw hr ?_
    rw [if_neg (by simp [hheld])]
    rfl
  case held =>
    intro s
    rfl

end Sys2Proof.Machine
end

section
/-! PROOFS. The key store's commands (R297 to R301, R309). -/

namespace Sys2Proof.Machine

/-! ### What a turn of the cipher engine is not about -/

/-- The slots of the key store, and the KEK that they are sealed under. -/
def State.keys (s : State) : List (Nat × KeySlot) × Nat := (s.cip.slots, s.cip.kgen)

theorem startOne_keys {s t : State} (h : startOne s = some t) : t.keys = s.keys := by
  unfold startOne at h
  dsimp only at h
  split at h
  · cases h
  · split at h
    · cases h
    · cases h
      split <;> rfl

@[simp] theorem pumpCipher_keys (n : Nat) (s : State) : (pumpCipher n s).keys = s.keys := by
  induction n generalizing s with
  | zero => rfl
  | succ n ih =>
    unfold pumpCipher
    dsimp only
    split
    · next h => rw [ih, startOne_keys h]; rfl
    · rfl

theorem cipherSubmit_keys (r : CipherReq) (s : State) : (cipherSubmit r s).keys = s.keys := by
  rw [cipherSubmit, pumpCipher_keys]
  rfl

theorem cipherTake_keys (id : Nat) (s : State) : (cipherTake id s).keys = s.keys := by
  rw [cipherTake, pumpCipher_keys]
  rfl

theorem controlTurn_keys (k len : Nat) (s : State) : (controlTurn k len s).2.keys = s.keys := by
  unfold controlTurn
  extract_lets mine s1 s2
  have hsubmit : s2.keys = s.keys := by
    simp only [s2]
    split
    · rfl
    · rw [cipherSubmit_keys]
      rfl
  clear_value s2
  split
  · split
    · rw [cipherTake_keys, hsubmit]
    · exact hsubmit
  · exact hsubmit

theorem keySlot_of_keys {s t : State} (h : t.keys = s.keys) (k : Nat) : keySlot t k = keySlot s k := by
  rw [keySlot, keySlot, show t.cip.slots = s.cip.slots from congrArg (·.1) h]

theorem keyMaterial_of_keys {s t : State} (h : t.keys = s.keys) (wrap type : Nat) (m : List Byte) :
    keyMaterial t wrap type m = keyMaterial s wrap type m := by
  simp only [keyMaterial, keySlot_of_keys h]

/-! ### The walk of a KEK rotation -/

/-- A slot is sealed anew under the present KEK. -/
def reseal (s : State) (e : Nat × KeySlot) : State :=
  s.modCip (fun c => { c with writeCtr := c.writeCtr + 1, slots := mput c.slots e.1 { e.2 with kgen := c.kgen, writeCtr := c.writeCtr + 1 } })

theorem foldl_reseal_kgen (l : List (Nat × KeySlot)) (s : State) : (l.foldl reseal s).cip.kgen = s.cip.kgen :=
  foldl_keeps (fun s : State => s.cip.kgen) reseal (fun _ _ => rfl) l s

theorem keySlot_foldl_reseal {k : Nat} {l : List (Nat × KeySlot)} (h : ∀ e ∈ l, e.1 ≠ k) (s : State) :
    keySlot (l.foldl reseal s) k = keySlot s k := by
  induction l generalizing s with
  | nil => rfl
  | cons e l ih =>
    rw [List.foldl_cons, ih (fun e he => h e (List.mem_cons_of_mem _ he))]
    exact mgetD_mput_ne _ _ _ (h e List.mem_cons_self).symm

/-- The slots that the old KEK seals and that open. -/
def oldSlots (s : State) : List (Nat × KeySlot) := s.cip.slots.filter (fun e => e.2.type ≠ 0 && !e.2.bad && e.2.kgen ≠ s.cip.kgen)

/-- The walker's turn of the cipher engine. -/
def rotationTurn (s : State) : Bool × State :=
  if (oldSlots s).isEmpty then (true, s) else controlTurn 262144 (128 * (oldSlots s).length) s

theorem rotationTurn_keys (s : State) : (rotationTurn s).2.keys = s.keys := by
  unfold rotationTurn
  split
  · rfl
  · exact controlTurn_keys ..

/-- The rotation is over. -/
def rotated (old : List (Nat × KeySlot)) (s : State) : State :=
  (old.foldl reseal s).modCip (fun c => { c with oldKek := none, walking := false, resealed := old.length })

theorem exec_kekRotationDone {s t : State} (hwalk : s.cip.walking = true) (hserves : domServes s .keyStore = true)
    (hturn : rotationTurn s = (true, t)) :
    exec .kekRotationDone s =
      .next ((rotated (oldSlots s) t).event 0x0A04 (.dev ((oldSlots s).foldl reseal t).cip.kgen) (oldSlots s).length) := by
  refine (run_next (wf := wfKekRotationDone) rfl ?_ : execKekRotationDone s = _)
  rw [if_neg (by simp [hwalk, hserves])]
  extract_lets old
  rw [show (if old.isEmpty then (true, s) else controlTurn 262144 (128 * old.length) s) = (true, t) from hturn]
  rfl

/-! ### The commands -/

/-- The oldest request and those behind it. -/
theorem Served.queue {x : XCall} {op : Nat} {r : Req} {s : State} (h : Served x op r s) :
    r :: (mbxOf s x.mbx).queue.tail = (mbxOf s x.mbx).queue :=
  List.cons_head?_tail h.front

theorem keyInScope_of_owner {c : Call} (h : c.role = 1) (s : State) (k : Nat) : keyInScope s c k = true := by
  simp [keyInScope, h]

/-- Settles O39: each key command by the guards that its state meets; a turn of the cipher engine leaves the slots as they are. -/
theorem keyCommands : Obligations.KeyCommands := by
  unfold Obligations.KeyCommands
  refine ⟨?load, ?loadAlarmed, ?store, ?erase, ?eraseInUse, ?erased, ?latched, ?zeroised, ?fill, ?rotate, ?rotation, ?rotated⟩
  case load =>
    intro x r s slot wrap type usage tenant m key hr hw hbad hrole halarm hempty hwrap hkey
    have hgood : keyLoadBad slot wrap type usage (callBy x r s).plen m.length = none := hbad
    have hopen : ¬ (wrapNamed wrap && !(slotOpens (begun x s) wrap && decide ((keySlot (begun x s) wrap).type = 6)
        && bit (keySlot (begun x s) wrap).usage 6 && decide ((keySlot (begun x s) wrap).owner = keyHolder (begun x s) slot))) = true := by
      obtain rfl | ⟨hopens, htype, husage, howner⟩ := hwrap
      · simp [wrapNamed]
      · simp [hopens, htype, husage, howner]
    constructor
    · intro hplain
      have hnot : wrapNamed wrap = false := by simp [wrapNamed, hplain]
      refine run_replied hw hr ?_
      rw [if_neg (by simp [keyInScope_of_owner hrole, hrole]), hgood]
      dsimp only
      rw [if_neg (by simp [halarm]), if_neg (by simp [hempty]), if_neg hopen]
      simp only [hnot, Bool.false_eq_true, if_false, hkey]
    · intro hnamed t
      have hnot : wrapNamed wrap = true := by simpa [wrapNamed] using hnamed
      obtain ⟨b, v, hturn⟩ : ∃ b v, controlTurn (mbxControl (callBy x r s).fid) m.length (begun x s) = (b, v) := ⟨_, _, rfl⟩
      have ht : t = (b, v) := hturn
      have hkeys : (v.meterAdd 0 68 m.length).keys = (begun x s).keys := by
        rw [State.keys, State.meterAdd_cip, ← controlTurn_keys (mbxControl (callBy x r s).fid) m.length (begun x s), hturn]
        rfl
      rw [ht]
      cases b with
      | true =>
        refine run_replied hw hr ?_
        rw [if_neg (by simp [keyInScope_of_owner hrole, hrole]), hgood]
        dsimp only
        rw [if_neg (by simp [halarm]), if_neg (by simp [hempty]), if_neg hopen]
        simp only [hnot, if_true, hturn, keyMaterial_of_keys hkeys, hkey]
      | false =>
        have hkept : execKeyLoad x slot wrap type usage tenant m s =
            .next (v.modMbx x.mbx ({ · with queue := r :: (mbxOf s x.mbx).queue.tail })) := by
          refine run_kept hw hr ?_
          rw [if_neg (by simp [keyInScope_of_owner hrole, hrole]), hgood]
          dsimp only
          rw [if_neg (by simp [halarm]), if_neg (by simp [hempty]), if_neg hopen]
          simp only [hnot, if_true, hturn]
        refine hkept.trans ?_
        rw [Served.queue hr]
        rfl
  case loadAlarmed =>
    intro x r s slot wrap type usage tenant m hr hw hbad hrole halarm
    refine run_turnedAway hw hr ?_
    rw [if_neg (by simp [keyInScope_of_owner hrole, hrole])]
    rw [show keyLoadBad slot wrap type usage (callBy x r s).plen m.length = none from hbad]
    exact if_pos halarm
  case store =>
    intro slot type usage tenant key s t
    refine ⟨rfl, ?_, ?_, ?_, ?_, fun k hk => mgetD_mput_ne _ _ _ hk⟩
    all_goals simp [t, keyStore, keySlot]
  case erase =>
    intro x r s slot hr hw hslot hrole htype huse hlatch herasing
    refine run_replied hw hr ?_
    have hno : ¬ (keyInUse (begun x s) slot && !bit (callBy x r s).flags 9) = true := by
      intro h
      simp only [Bool.and_eq_true, Bool.not_eq_true'] at h
      exact absurd (huse h.1) (by simpa using h.2)
    rw [if_neg (by simp [keyInScope_of_owner hrole]), if_neg (by omega), if_neg htype, if_neg hno]
    dsimp only
    rw [if_neg (by simp [herasing])]
    rfl
  case eraseInUse =>
    intro x r s slot hr hw hslot hrole htype huse hflag
    refine run_turnedAway hw hr ?_
    rw [if_neg (by simp [keyInScope_of_owner hrole]), if_neg (by omega), if_neg htype, if_pos (by simp [huse, callBy, hflag])]
    rfl
  case erased =>
    intro slot s hw herasing hlatch
    refine (run_next hw ?_ : execKeyEraseComplete slot s = _)
    simp [herasing, hlatch]
  case latched =>
    intro slot s hw hlatch
    exact (run_next hw (if_pos (by simp [hlatch])) : execKeyEraseComplete slot s = _)
  case zeroised =>
    intro k s
    simp [keyZeroise, keySlot, cached]
  case fill =>
    intro slot tag s q hw hq hcls hslot hwaits hcached hserves htype t u
    have hwanted : s.cip.reqs.any (fun r => r.cls ≠ 3 && r.slot = slot && r.waits) = true :=
      List.any_eq_true.mpr ⟨q, hq, by simp [hcls, hslot, hwaits]⟩
    have htype' : (keySlot t.2 slot).type ≠ 0 := by rwa [keySlot_of_keys (controlTurn_keys ..)]
    refine (run_next hw ?_ : execKeyCacheFill ⟨slot, tag⟩ s = _)
    dsimp only
    rw [if_neg (by simp only [hwanted, hcached, hserves]; decide)]
    have ht : controlTurn slot 240 s = (t.1, t.2) := rfl
    rw [ht]
    cases t.1 with
    | false => rfl
    | true =>
      dsimp only
      rw [if_pos rfl, if_pos htype']
      simp only [u, Bool.and_eq_true]
  case rotate =>
    intro x r s hr hw hflag halarm hidle u c new
    refine run_replied hw hr ?_
    rw [if_neg (by simp [callBy, hflag]), if_neg (by simp [halarm]), if_neg (by simpa [rotating] using hidle)]
    rfl
  case rotation =>
    intro x r s hr hw hflag
    refine run_replied hw hr ?_
    rw [if_pos (by simp [callBy, hflag])]
    simp
  case rotated =>
    intro s hwalk hserves old hturn
    have hgo : (rotationTurn s).1 = true := by
      unfold rotationTurn
      split
      · rfl
      · next hne => exact hturn.resolve_left fun h => hne (by rw [show oldSlots s = [] from h]; rfl)
    have hkeys : (rotationTurn s).2.keys = s.keys := rotationTurn_keys s
    refine ⟨_, exec_kekRotationDone hwalk hserves (t := (rotationTurn s).2) (by rw [← hgo]), ?_, ?_, ?_, fun k hk => ?_⟩
    · rw [State.event_cip]
      rfl
    · rw [State.event_cip]
      rfl
    · rw [State.event_cip]
      exact (foldl_reseal_kgen _ _).trans (congrArg (·.2) hkeys)
    · have hother (e : Nat × KeySlot) (he : e ∈ oldSlots s) : e.1 ≠ k := by
        intro hek
        obtain ⟨hmem, hopen⟩ := List.mem_filter.mp he
        obtain h | h := hk e hmem hek <;> simp [h] at hopen
      rw [keySlot, State.event_cip]
      exact (keySlot_foldl_reseal hother _).trans (keySlot_of_keys hkeys k)

end Sys2Proof.Machine
end

section
/-! PROOFS. The volume service (R269, R270, R272 to R274, R285). -/

namespace Sys2Proof.Machine

/-! ### What a frame to a backend leaves of the storage service -/

theorem foldl_sto {α : Type} {f : State → α → State} (h : ∀ s x, (f s x).sto = s.sto) (l : List α) (s : State) : (l.foldl f s).sto = s.sto :=
  foldl_keeps State.sto f h l s

@[simp] theorem State.modOwner_sto (s : State) (o : Nat) (f : Owner → Owner) : (s.modOwner o f).sto = s.sto := rfl

@[simp] theorem pauseSync_sto (o : Nat) (s : State) : (pauseSync o s).sto = s.sto := by
  unfold pauseSync
  dsimp only
  split
  · rfl
  · split_ifs <;> simp [foldl_sto]

@[simp] theorem readBufs_sto (fid r : Nat) (s : State) : (readBufs fid r s).sto = s.sto := by
  unfold readBufs
  dsimp only
  split <;> simp

@[simp] theorem kick_sto (fid r : Nat) (s : State) : (kick fid r s).sto = s.sto := by
  unfold kick
  dsimp only
  split_ifs <;> simp

@[simp] theorem kickAll_sto (fid : Nat) (s : State) : (kickAll fid s).sto = s.sto := by
  simp [kickAll, foldl_sto]

@[simp] theorem bpAct_sto (o : Nat) (on : Bool) (s : State) : (bpAct o on s).sto = s.sto := by
  unfold bpAct
  split_ifs <;> simp

@[simp] theorem bumpOwner_sto (k pool : CtrKind) (o : Nat) (s : State) : (bumpOwner k pool o s).sto = s.sto := by
  unfold bumpOwner
  dsimp only
  split <;> simp

@[simp] theorem bpAssert_sto (cause o : Nat) (s : State) : (bpAssert cause o s).sto = s.sto := by
  unfold bpAssert
  dsimp only
  split_ifs <;> simp

@[simp] theorem bpRelease_sto (s : State) : (bpRelease s).sto = s.sto := by
  simp [bpRelease, foldl_sto]

@[simp] theorem bpSweep_sto (s : State) : (bpSweep s).sto = s.sto := by
  simp [bpSweep, foldl_sto]

@[simp] theorem storageCharge_sto (n : Nat) (s : State) : (storageCharge n s).sto = s.sto := by
  simp [storageCharge, noteAdmitted]

@[simp] theorem tcpFrame_sto (k : Backend) (c : Conn) (ack : Nat) (payload : List Byte) (s : State) :
    (tcpFrame k c ack payload s).2.sto = s.sto := rfl

@[simp] theorem announce_sto (fid c : Nat) (s : State) : (announce fid c s).sto = s.sto := by
  unfold announce
  dsimp only
  split <;> simp

@[simp] theorem moderate_sto (fid c : Nat) (s : State) : (moderate fid c s).sto = s.sto := by
  unfold moderate
  dsimp only
  split <;> simp

@[simp] theorem cplWrite_sto (fid c : Nat) (es : List Cpl) (s : State) : (cplWrite fid c es s).sto = s.sto := by
  unfold cplWrite
  dsimp only
  split <;> simp [foldl_sto]

@[simp] theorem txFlush_sto (fid r : Nat) (s : State) : (txFlush fid r s).sto = s.sto := by
  unfold txFlush
  dsimp only
  split_ifs <;> simp

@[simp] theorem txNote_sto (src : Source) (f : TxPkt → TxPkt) (s : State) : (txNote src f s).sto = s.sto := by
  cases src <;> simp [txNote]

@[simp] theorem dropPkt_sto (k : Pkt) (reason : Nat) (s : State) : (dropPkt k reason s).sto = s.sto := by
  simp [dropPkt, txDrop]

@[simp] theorem toIngress_sto (k : Pkt) (s : State) : (toIngress k s).sto = s.sto := by
  unfold toIngress
  split <;> simp

/-! ### What a backend command leaves of the intent log -/

/-- The open intent records. -/
def State.records (s : State) : List (Nat × Intent) := s.sto.intents

@[simp] theorem State.records_fold (s : State) : s.sto.intents = s.records := rfl

theorem foldl_records {α : Type} {f : State → α → State} (h : ∀ s x, (f s x).records = s.records) (l : List α) (s : State) :
    (l.foldl f s).records = s.records := foldl_keeps State.records f h l s

theorem records_of_sto {s t : State} (h : t.sto = s.sto) : t.records = s.records := congrArg StorageState.intents h

@[simp] theorem State.modConn_records (s : State) (b q : Nat) (f : Conn → Conn) : (s.modConn b q f).records = s.records := rfl

@[simp] theorem connSend_records (b q : Nat) (bs : List Byte) (s : State) : (connSend b q bs s).records = s.records := by
  refine foldl_records (fun s p => ?_) _ s
  exact (records_of_sto (toIngress_sto _ _)).trans rfl

@[simp] theorem backSend_records (b tag op lba len : Nat) (data : List Byte) (s : State) :
    (backSend b tag op lba len data s).records = s.records := by
  refine (connSend_records _ _ _ _).trans (records_of_sto ?_)
  simp

@[simp] theorem backGo_records (b : BackCmd) (s : State) : (backGo b s).records = s.records := by
  unfold backGo
  dsimp only
  split
  · rfl
  · exact (backSend_records ..).trans (congrArg StorageState.intents (storageCharge_sto b.need s) :)

@[simp] theorem backPump_records (s : State) : (backPump s).records = s.records := foldl_records (fun s b => backGo_records b s) _ s

@[simp] theorem backIssue_records (backend rep op : Nat) (for_ : BackFor) (off len lba : Nat) (data : List Byte) (s : State) :
    (backIssue backend rep op for_ off len lba data s).records = s.records := by
  have hpump (t : State) : (noteRefused storageOwner t).records = t.records := records_of_sto (bumpOwner_sto ..)
  unfold backIssue
  dsimp only
  split
  · rw [hpump, backPump_records]
    rfl
  · rw [backPump_records]
    rfl

@[simp] theorem writeRange_records (c : NvCmd) (v : Volume) (i : Nat) (r : Nat × Nat) (s : State) :
    (writeRange c v i r s).records = s.records := foldl_records (fun s _ => backIssue_records _ _ _ _ _ _ _ _ s) _ s

/-- A write that takes its turn leaves its record in the log (R268, R269). -/
theorem intentTake_records {c : NvCmd} {s : State} {v : Volume} {n : Nat} (hv : vol? s c.vol = some v) (hprim : v.primary.isSome = true)
    (hheld : storageHeld s = false)
    (hready : ∀ i ∈ (List.range v.reps.length).filter (fun i => (v.rep i).state ≠ 1), backReady s (v.rep i).backend = true)
    (hfree : leastBelow 65536 (fun i => (mget? s.sto.intents i).isNone) = some n) :
    (intentTake c s).records = mput s.records n (intentFor s c v ((List.range v.reps.length).filter (fun i => (v.rep i).state ≠ 1))) := by
  have hall := List.all_eq_true.mpr hready
  unfold intentTake
  rw [hv]
  dsimp only
  rw [if_neg (by cases hp : v.primary <;> simp_all), if_neg (by rw [hheld, hall]; decide), hfree]
  exact foldl_records (fun s i => foldl_records (fun s x => writeRange_records c v i x s) _ s) _ _

/-- Settles O37: each part of the volume service in the state that its guards name; a record that a write opens outlasts the backend commands
that it issues. -/
theorem volumeService : Obligations.VolumeService := by
  unfold Obligations.VolumeService
  refine ⟨?take, ?record, ?response, ?bad, ?pdu, ?headerDigest, ?digestsHold, ?dataDigest, ?timeout, ?inTime, ?lost, ?reconnect, ?retry,
    ?reconcile, ?nothingToCopy, ?rebuild, ?primaryLost⟩
  case take =>
    intro f q cid s c hw hc hserves
    refine (run_next hw ?_ : execIntentRecordTake f q cid s = _)
    rw [hc]
    exact if_pos hserves
  case record =>
    intro c s v n hv hprim hheld reps hready hfree
    show mget? (intentTake c s).records n = _
    rw [intentTake_records hv hprim hheld hready hfree, mget?_mput_self]
  case response =>
    intro tag good d s b hw hb
    refine (run_next hw ?_ : execBackendResponse tag good d s = _)
    rw [hb]
  case bad => exact fun b s => rfl
  case pdu =>
    intro b p s hw hready hserves
    refine (run_next hw ?_ : execBackendPduReceive b p s = _)
    refine (if_neg (by simp [hready, hserves])).trans ?_
    cases pduSeen s b p <;> rfl
  case headerDigest =>
    intro b i p s hbad
    exact if_pos (by simp [hbad])
  case digestsHold =>
    intro b i p s hhead hdata
    unfold pduCheck
    rw [if_neg (by simp [hhead]), if_pos hdata]
  case dataDigest =>
    intro b i p s hhead hdata htype
    unfold pduCheck
    rw [if_neg (by simp [hhead]), if_neg (by simp [hdata])]
    exact if_neg htype
  case timeout =>
    intro b s hw hready hlate
    exact (run_next hw (if_pos (by simp [hready, hlate])) : execBackendTimeout b s = _)
  case inTime =>
    intro b s hw hlate
    exact (run_next hw (if_neg (by simp [hlate])) : execBackendTimeout b s = _)
  case lost =>
    intro b s hw hready
    exact (run_next hw (if_pos hready) : execBackendConnectionLost b s = _)
  case reconnect =>
    intro b l s hw hthere hstate u
    have hnone : (mget? s.sto.backs b).isNone = false := by
      rw [Option.isNone_eq_false_iff, hthere]
    refine (run_next hw ?_ : execBackendReconnect b (some l) s = _)
    dsimp only
    rw [if_neg (by simp [hnone, hstate]), if_pos hstate]
  case retry =>
    intro b s hw hthere hstate
    have hnone : (mget? s.sto.backs b).isNone = false := by
      rw [Option.isNone_eq_false_iff, hthere]
    refine (run_next hw ?_ : execBackendReconnect b none s = _)
    dsimp only
    rw [if_neg (by simp [hnone, hstate]), if_pos hstate, if_neg (by simp [hstate])]
  case reconcile =>
    intro h failed d s hw
    exact run_next hw rfl
  case nothingToCopy =>
    intro h s v p n r failed d hv hp hhead hstate hroom hothers
    unfold reconcileChunk
    rw [hv]
    dsimp only
    rw [hp, hhead]
    dsimp only
    rw [hothers, if_neg (by simp [hstate, hroom])]
    exact if_pos List.isEmpty_nil
  case rebuild =>
    intro h lba failed d s hw
    exact run_next hw rfl
  case primaryLost =>
    intro h lba failed d s v e p hv he hp hfree hroom hfail hpace
    unfold rebuildChunk
    rw [hv]
    dsimp only
    rw [he, hp]
    dsimp only
    rw [if_neg (by simp [hfree, hroom, hpace]), if_pos hfail]

end Sys2Proof.Machine
end

section
/-! PROOFS. The commands over volumes and backends (R263, R264, R267, R273 to R275). -/

namespace Sys2Proof.Machine

/-! ### A backend's record -/

theorem mget?_modBack (s : State) (b : Nat) (f : Backend → Backend) : mget? (s.modBack b f).sto.backs b = some (f (backOf s b)) :=
  mget?_mput_self ..

theorem backOf_of_mget? {s : State} {b : Nat} {k : Backend} (h : mget? s.sto.backs b = some k) : backOf s b = k := by
  rw [backOf, mgetD, h]
  rfl

theorem backOf_of_sto {s t : State} (h : t.sto = s.sto) (b : Nat) : backOf t b = backOf s b := by
  rw [backOf, backOf, h]

/-- A backend takes the state that it is given (R264). -/
theorem mget?_setBack {b : Nat} {s : State} {k : Backend} (h : mget? s.sto.backs b = some k) (st : Nat) :
    mget? (setBack b st s).sto.backs b = some { k with state := st } := by
  unfold setBack
  rw [h]
  dsimp only
  split
  · next hst => rw [h, ← hst]
  · rw [State.event_sto]
    exact mget?_mput_self ..

/-- Connections added one after another to a backend. -/
theorem foldl_addConn {b : Nat} {f : State → Nat → State}
    (hf : ∀ s q k, mget? s.sto.backs b = some k → ∃ c, mget? (f s q).sto.backs b = some { k with conns := k.conns ++ [c] })
    (qs : List Nat) {s : State} {k : Backend} (h : mget? s.sto.backs b = some k) :
    ∃ cs, cs.length = qs.length ∧ mget? (qs.foldl f s).sto.backs b = some { k with conns := k.conns ++ cs } := by
  induction qs generalizing s k with
  | nil => exact ⟨[], rfl, by simpa using h⟩
  | cons q qs ih =>
    obtain ⟨c, hc⟩ := hf s q k h
    obtain ⟨cs, hlen, hcs⟩ := ih hc
    exact ⟨c :: cs, by simp [hlen], by simpa using hcs⟩

/-- A backend's connections open: one for each queue, over the link that was found (R264). -/
theorem connsOpen_backs (b : Nat) (l : Link) (s : State) : ∃ cs : List Conn, cs.length = (backOf s b).queues ∧
    mget? (connsOpen b l s).sto.backs b = some { backOf s b with conns := cs, via := l.port, macs := l.macs, own := l.addr } := by
  have hfree : mget? ((connsFree b s).modBack b ({ · with via := l.port, macs := l.macs, own := l.addr })).sto.backs b =
      some { backOf s b with conns := [], via := l.port, macs := l.macs, own := l.addr } := by
    rw [mget?_modBack, connsFree, backOf_of_mget? (mget?_modBack ..)]
    rfl
  unfold connsOpen
  dsimp only
  rw [backOf_of_mget? hfree]
  have hadd (f : State → Nat → State) (hf) := foldl_addConn (b := b) (f := f) hf (List.range (backOf s b).queues) hfree
  simp only [List.length_range] at hadd
  refine hadd _ fun t q k h => ?_
  have hk := backOf_of_mget? h
  split
  · exact ⟨_, by rw [mget?_modBack, ← hk]; rfl⟩
  · exact ⟨_, by rw [mget?_modBack, backOf_of_sto (State.bump_sto ..), hk]⟩

/-! ### Namespaces that come and go -/

@[simp] theorem nsChanged_nss (fid nsid : Nat) (s : State) : (nsChanged fid nsid s).sto.nss = s.sto.nss :=
  congrArg (fun v : Pins × Nat × List (Nat × Ns) => v.2.2) (asyncEvent_still ..)

section NoCommand
variable {s : State}

theorem cmd?_of_noCmds (h : s.sto.cmds = []) (seq : Nat) : cmd? s seq = none := by
  rw [cmd?, h]
  rfl

theorem nvDone_noCmds (h : s.sto.cmds = []) (seq sct sc : Nat) (dnr : Option Bool) : (nvDone seq sct sc dnr s).sto.cmds = [] := by
  have hdraw : (s.drawBelow 2).2.sto.cmds = [] := h
  unfold nvDone
  cases dnr with
  | none =>
    dsimp only
    rwa [cmd?_of_noCmds hdraw]
  | some b =>
    dsimp only
    rwa [cmd?_of_noCmds h]

theorem modCmd_noCmds (h : s.sto.cmds = []) (seq : Nat) (f : NvCmd → NvCmd) : (s.modCmd seq f).sto.cmds = [] := by
  simp [State.modCmd, State.modSto, h]

theorem asyncPump_noCmds (h : s.sto.cmds = []) (fid : Nat) : (asyncPump fid s).sto.cmds = [] := by
  unfold asyncPump
  dsimp only
  split
  · exact nvDone_noCmds (modCmd_noCmds (s := s.modCtrl fid _) h _ _) _ _ _ _
  · exact h

theorem asyncEvent_noCmds (h : s.sto.cmds = []) (fid t i l : Nat) : (asyncEvent fid t i l s).sto.cmds = [] := by
  unfold asyncEvent
  extract_lets c on
  split
  · exact h
  · exact asyncPump_noCmds (s := s.modCtrl fid _) h fid

/-- With no command in flight, a namespace that comes or goes starts none. -/
theorem nsChanged_noCmds (h : s.sto.cmds = []) (fid nsid : Nat) : (nsChanged fid nsid s).sto.cmds = [] :=
  asyncEvent_noCmds (s := s.modCtrl fid _) h ..

theorem foldl_nsChanged_noCmds (fid : Nat) (l : List (Nat × Ns)) (h : s.sto.cmds = []) :
    (l.foldl (fun s e => nsChanged fid (e.1 % 65536) s) s).sto.cmds = [] := by
  induction l generalizing s with
  | nil => exact h
  | cons e l ih => exact ih (nsChanged_noCmds h _ _)

end NoCommand

/-- A namespace by which a controller shows a volume. -/
def shown (h fid : Nat) (e : Nat × Ns) : Bool := e.1 / 65536 = fid && e.2.vol = h

/-- The state that `VOL_DETACH` leaves: the namespaces gone, and each of them notified (R275). -/
def detached (h fid : Nat) (s : State) : State :=
  (s.sto.nss.filter (shown h fid)).foldl (fun s e => nsChanged fid (e.1 % 65536) s)
    (s.modSto (fun t => { t with nss := t.nss.filter (fun e => !shown h fid e) }))

theorem detached_nss (h fid : Nat) (s : State) : (detached h fid s).sto.nss = s.sto.nss.filter (fun e => !shown h fid e) :=
  foldl_keeps (·.sto.nss) (fun s (e : Nat × Ns) => nsChanged fid (e.1 % 65536) s) (fun s e => nsChanged_nss fid _ s) _ _

theorem detached_noCmds {h fid : Nat} {s : State} (hidle : s.sto.cmds = []) : (detached h fid s).sto.cmds = [] :=
  foldl_nsChanged_noCmds (s := s.modSto _) fid _ hidle

/-! ### The commands -/

/-- The state that `BACKEND_ADD` leaves: a record, its connections open, READY (R263, R264). -/
def added (b : Nat) (l : Link) (k : Backend) (s : State) : State :=
  setBack b 1 (connsOpen b l (s.modSto (fun t => { t with backs := mput t.backs b k })))

theorem backOf_added (b : Nat) (l : Link) (k : Backend) (s : State) : ∃ cs : List Conn, cs.length = k.queues ∧
    backOf (added b l k s) b = { k with conns := cs, via := l.port, macs := l.macs, own := l.addr, state := 1 } := by
  have hk : backOf (s.modSto (fun t => { t with backs := mput t.backs b k })) b = k := backOf_of_mget? (mget?_mput_self ..)
  obtain ⟨cs, hlen, hcs⟩ := connsOpen_backs b l (s.modSto (fun t => { t with backs := mput t.backs b k }))
  rw [hk] at hlen hcs
  exact ⟨cs, hlen, backOf_of_mget? (mget?_setBack hcs 1)⟩

/-- A backend that is removed is in state 3. -/
theorem backendRemoved (b : Nat) {s : State} : (backOf ((setBack b 3 (connsFree b s)).emit (.disconnect b)) b).state = 3 := by
  have h : mget? (connsFree b s).sto.backs b = _ := mget?_modBack ..
  rw [backOf_of_sto (State.emit_sto ..), backOf_of_mget? (mget?_setBack h 3)]

/-- Settles O38: each command by the guards that its fields and the storage service meet. -/
theorem volumeCommands : Obligations.VolumeCommands := by
  unfold Obligations.VolumeCommands
  refine ⟨?create, ?destroy, ?attach, ?rebuild, ?detach, ?add, ?addTimeout, ?addRefused, ?report, ?remove, ?reconcile⟩
  case create =>
    intro x r s h tenant slot size opts reps hr hw u hbad habsent hnew hextent hreps htype htenant
    have hready : reps.all (fun p => backReady u p.1) = true := List.all_eq_true.mpr fun p hp => (hreps p hp).1
    have hroom : (List.range reps.length).find? (fun i => (backOf u (reps.getD i (0, 0)).1).info.blocks < (reps.getD i (0, 0)).2 + size) = none := by
      refine List.find?_eq_none.mpr fun i hi => ?_
      have hlt := List.mem_range.mp hi
      have hmem : reps.getD i (0, 0) ∈ reps := by
        rw [List.getD_eq_getElem _ _ hlt]
        exact List.getElem_mem hlt
      have hfits := (hreps _ hmem).2
      simp only [decide_eq_true_eq, not_lt]
      exact hfits
    have hkey : ¬(decide ((keySlot u slot).type = 0) || decide ((keySlot u slot).tenant ≠ tenant)) = true := by
      simp [htype, htenant]
    refine run_replied hw hr ?_
    dsimp only
    rw [hbad, habsent]
    dsimp only [Option.none_or]
    rw [if_neg (by rw [hnew, hextent]; decide), if_neg (by rw [hready]; decide), if_neg hkey, hroom]
    rfl
  case destroy =>
    intro x r s h hr hw hthere hfree hidle
    have hthere' : (vol? (begun x s) h).isNone = false := by
      rw [Option.isNone_eq_false_iff, hthere]
    have hgone (t : State) : vol? (t.modSto (fun t => { t with vols := mdel t.vols h, locks := t.locks.filter (·.vol ≠ h) })) h = none :=
      mget?_mdel_self _ h
    refine ⟨_, run_replied hw hr ?_, hgone (backDrop (·.for_ = .init h) (begun x s))⟩
    rw [if_neg (ne_true_of_eq_false hthere'), if_neg (by simpa [volAttached] using hfree), if_neg (by simpa using hidle)]
    rfl
  case attach =>
    intro x r s h f nsid fmt pi v hr hw hv hfn hnvme hns hnsid hfmt hfmt' hpi hpair htenant hnew
    have hns' (t : State) (n : Ns) : mget? (nsChanged f nsid (t.modSto (fun t => { t with nss := mput t.nss (f * 65536 + nsid) n }))).sto.nss
        (f * 65536 + nsid) = some n := by
      rw [nsChanged_nss]
      exact mget?_mput_self ..
    refine ⟨_, run_replied hw hr ?_, hns' (begun x s) _⟩
    have hfn' : fn? (begun x s) = fn? s := fn?_congr (by simp) (by simp) (by simp) (by simp)
    have hnvme' : isNvme (begun x s) f = true := by
      rw [← hnvme, isNvme, isNvme, fnD, fnD, hfn']
    rw [if_neg (by simp), hv]
    dsimp only
    rw [if_neg (by simp [hfn', hnvme', Option.isSome_iff_ne_none.mp hfn]), if_neg (by simp [hns, hnsid]), if_neg (by simp [hfmt, hfmt']),
      if_neg (by simp [hpi]; tauto), if_neg (by simp [htenant]), if_neg (by simp [hnew])]
    rfl
  case rebuild =>
    intro x r s h f nsid fmt pi mask v hr hw hmask hv hprim reps hreps
    have hin : reps.any (fun i => decide (v.reps.length ≤ i)) = false :=
      List.any_eq_false.mpr fun i hi => by simpa using (hreps i hi).1
    have hcan : reps.all (fun i => (rebuildable (begun x s) v).contains i) = true :=
      List.all_eq_true.mpr fun i hi => by simpa using (hreps i hi).2
    have hprim' : v.primary.isNone = false := by
      rw [Option.isNone_eq_false_iff, hprim]
    refine run_replied hw hr ?_
    rw [if_pos hmask, volRebuild, hv]
    dsimp only
    rw [if_neg (ne_true_of_eq_false hin), if_neg (by rw [hprim', hcan]; decide)]
    rfl
  case detach =>
    intro x r s h f hr hw hthere hidle
    have hgone : (s.sto.nss.filter (shown h f)).isEmpty = false := by
      obtain ⟨e, he, hf, hv⟩ := hthere
      exact Bool.eq_false_iff.mpr fun hnil => List.filter_eq_nil_iff.mp (List.isEmpty_iff.mp hnil) e he (by simp [shown, hf, hv])
    have hgone' : ((begun x s).sto.nss.filter (shown h f)).isEmpty = false := by
      rw [begun_sto, hgone]
    have hidle' := detached_noCmds (h := h) (fid := f) (s := begun x s) (by rw [begun_sto, hidle])
    have hwait : (detached h f (begun x s)).sto.cmds.any (fun c => c.vol = h && c.fid = f && !c.orphan) = false := by
      rw [hidle']
      rfl
    refine ⟨detached h f (begun x s), run_replied hw hr ?_, fun e he hmine => ?_⟩
    · refine (if_neg (ne_true_of_eq_false hgone')).trans ?_
      exact congrArg (Prod.mk _) (if_neg (ne_true_of_eq_false hwait))
    · rw [detached_nss] at he
      simpa [shown, hmine] using (List.mem_filter.mp he).2
  case add =>
    intro x r s c found b l hr hw hok hb hl hreason hhome
    obtain ⟨cs, hlen, hk⟩ := backOf_added b l (backNew c found c.home) (backConnect b c.nqn (begun x s))
    refine ⟨added b l (backNew c found c.home) (backConnect b c.nqn (begun x s)), run_replied hw hr ?_, by
      rw [hk]
      exact ⟨rfl, rfl, rfl, rfl, rfl, hlen⟩⟩
    dsimp only
    rw [hok, if_neg Bool.false_ne_true, hb]
    dsimp only
    rw [hl]
    dsimp only
    rw [hreason]
    dsimp only
    rw [if_neg hhome]
    rfl
  case addTimeout =>
    intro x r s c found b hr hw hok hb hl
    refine run_turnedAway hw hr ?_
    dsimp only
    rw [hok, if_neg Bool.false_ne_true, hb]
    dsimp only
    rw [hl]
    rfl
  case addRefused =>
    intro x r s c found b l n hr hw hok hb hl hreason
    refine run_turnedAway hw hr ?_
    dsimp only
    rw [hok, if_neg Bool.false_ne_true, hb]
    dsimp only
    rw [hl]
    dsimp only
    rw [hreason]
  case report =>
    intro x r s b hr hw hflag hthere
    have hthere' : (mget? (begun x s).sto.backs b).isNone = false := by
      rw [begun_sto, Option.isNone_eq_false_iff, hthere]
    refine run_replied hw hr ?_
    have hkeep : bit (callBy x r s).flags 11 = false := hflag
    dsimp only
    rw [hkeep, if_neg (by simp), if_neg (ne_true_of_eq_false hthere')]
    exact if_pos rfl
  case remove =>
    intro x r s b hr hw hflag hrole hthere hheld
    have hthere' : (mget? (begun x s).sto.backs b).isNone = false := by
      rw [begun_sto, Option.isNone_eq_false_iff, hthere]
    have hheld' : backHeld (begun x s) b = [] := by
      rw [← hheld, backHeld, backHeld, begun_sto]
    have hgo : bit (callBy x r s).flags 11 = true := hflag
    by_cases hstate : (backOf (begun x s) b).state = 3
    · refine ⟨begun x s, run_replied hw hr ?_, hstate⟩
      dsimp only
      rw [hgo, if_neg (by simp [hrole]), if_neg (ne_true_of_eq_false hthere'), if_neg (by simp), if_neg (by simp [hheld']), if_pos hstate]
    · refine ⟨_, run_replied hw hr ?_, backendRemoved b (s := begun x s)⟩
      dsimp only
      rw [hgo, if_neg (by simp [hrole]), if_neg (ne_true_of_eq_false hthere'), if_neg (by simp), if_neg (by simp [hheld']), if_neg hstate]
  case reconcile =>
    intro x r s h v hr hw hv
    have hv' : vol? (begun x s) h = some v := by
      rw [vol?, begun_sto]
      exact hv
    refine run_replied hw hr ?_
    rw [reads, hv', begun_sto]

end Sys2Proof.Machine
end

section
/-! PROOFS. The governor, the budgets and the comparator's hold (R21 to R26, R30, R31, R35 to R38, R455). -/

namespace Sys2Proof.Machine

/-! ### What leaves the power record as it was -/

@[simp] theorem noteBaseline_pow (cluster : Bool) (unit rate : Nat) (s : State) : (noteBaseline cluster unit rate s).pow = s.pow := by
  unfold noteBaseline
  split <;> rfl

@[simp] theorem regrowBegin_pow (kind phys spare source : Nat) (s : State) : (regrowBegin kind phys spare source s).pow = s.pow := by
  unfold regrowBegin
  split
  · dsimp only
    split <;> simp
  · simp

@[simp] theorem autoRegrow_pow (kind phys source : Nat) (s : State) : (autoRegrow kind phys source s).pow = s.pow := by
  unfold autoRegrow
  repeat' split
  all_goals simp

@[simp] theorem markWorn_pow (kind phys : Nat) (s : State) : (markWorn kind phys s).pow = s.pow := by
  simp [markWorn, apply_ite State.pow]

/-! ### The governor (R22 to R26) -/

theorem clamp_mem {lo hi : Nat} (h : lo ≤ hi) (x : Nat) : lo ≤ clamp x lo hi ∧ clamp x lo hi ≤ hi := by
  unfold clamp
  omega

/-- A loop writes one voltage, the present one or one within VMIN and VMAX, and the setpoint waits for the write's end (R23, R26). -/
theorem governorLoop_writes {s : State} (h : s.pow.vmin ≤ s.pow.vmax) :
    ∃ v, (governorLoop s).pow.avsPending = some v ∧ (governorLoop s).pow.vdd = s.pow.vdd ∧
      (v = s.pow.vdd ∨ (s.pow.vmin ≤ v ∧ v ≤ s.pow.vmax)) := by
  unfold governorLoop
  extract_lets p target
  split
  · exact ⟨p.vmin, rfl, rfl, .inr ⟨le_refl _, h⟩⟩
  · extract_lets above below up down surplus want refused newV s1 stuck rated reason arg src reached reported left s2
    have hv : newV = s.pow.vdd ∨ (s.pow.vmin ≤ newV ∧ newV ≤ s.pow.vmax) := by
      by_cases hr : refused = true
      · exact .inl (if_pos hr)
      · exact .inr (by rw [show newV = want from if_neg hr]; exact clamp_mem h _)
    have hvdd : s2.pow.vdd = s.pow.vdd := by
      have hreported : reported.pow.vdd = s.pow.vdd := by rw [State.event_pow]
      simp only [s2]
      repeat' split
      · rw [markWorn_pow, hreported]
      · exact hreported
      · rw [State.event_pow]
      · rfl
    exact ⟨newV, rfl, hvdd, hv⟩

/-- The third attempt that fails: an AVS fault with its record and event, and the setpoint as it was (R26). -/
theorem exec_avsWriteDone_gaveUp {v : Nat} {s : State} (hhead : s.eft.headless = false) (hpend : s.pow.avsPending = some v)
    (hfails : 2 ≤ s.pow.avsFails) :
    exec (.avsWriteDone false) s = .next ((({ s with pow := { s.pow with
      avsPending := none, avsFails := 0, avsFault := true, avsRetry := false, avsSeq := s.flt.nextSeq } } : State).record 11 0 11 0 0 0).event
      0x0F02 (.dev 0) s.flt.nextSeq) := by
  refine (run_next rfl ?_ : execAvsWriteDone false s = _)
  simp [hhead, hpend, show ¬ s.pow.avsFails + 1 < 3 by omega]

/-- Settles O2: each command by the guards that the governor's state meets; what a loop leaves is `governorLoop_writes`. -/
theorem governorLoopObligation : Obligations.GovernorLoop := by
  unfold Obligations.GovernorLoop
  refine ⟨?pipe, ?cluster, ?runs, ?missed, ?headless, ?done, ?again, ?gaveUp⟩
  case pipe =>
    intro u v s hphase hw
    refine (run_next hw ?_ : execSensorWindow false u v s = _)
    simp [hphase]
  case cluster =>
    intro u v s hphase hw
    refine (run_next hw ?_ : execSensorWindow true u v s = _)
    simp [hphase]
  case runs =>
    intro s hphase hhead hpend hfault hw hv
    obtain ⟨v, hwritten, hvdd, hin⟩ := governorLoop_writes hv
    have hruns : governorRuns s = true := by
      cases hf : s.pow.avsFault
      all_goals simp_all [governorRuns]
    refine ⟨governorLoop s, v, (run_next hw ?_ : execGovernorPeriod false s = _), hwritten, hvdd, hin⟩
    simp [hphase, hruns]
  case missed =>
    intro late s hphase hwhy hw
    have hnot : (late || !governorRuns s) = true := by
      obtain h | h | h | ⟨h, h'⟩ := hwhy
      all_goals simp_all [governorRuns]
    refine (run_next hw ?_ : execGovernorPeriod late s = _)
    rw [if_neg (by simp [hphase]), if_pos hnot]
  case headless =>
    intro b s hhead
    exact (run_next rfl (if_pos hhead) : execAvsWriteDone b s = _)
  case done =>
    intro v s hhead hpend
    refine (run_next rfl ?_ : execAvsWriteDone true s = _)
    simp [hhead, hpend]
  case again =>
    intro v s hhead hpend hfails
    refine (run_next rfl ?_ : execAvsWriteDone false s = _)
    simp [hhead, hpend, show s.pow.avsFails + 1 < 3 by omega]
  case gaveUp =>
    intro v s hhead hpend hfails
    exact ⟨_, exec_avsWriteDone_gaveUp hhead hpend hfails, by simp [nextSeq_record]⟩

/-! ### The comparator's hold (R35) -/

/-- A rail's current that crosses its hard limit: the hold, counted once and reported with its count. -/
theorem exec_hardLimitCross {rail : Bool} {now : Nat} {s : State} (hphase : s.phase ≠ .inReset)
    (hheld : (if rail then s.pow.sdsHold else s.pow.coreHold) = false) (hover : (if rail then s.pow.sdsHard else s.pow.coreHard) < now)
    (hw : wfHardLimitCross rail now = true) :
    exec (.hardLimitCross rail now) s =
      .next ((({ s with pow := if rail then { s.pow with sdsHold := true, sdsHoldFull := false }
        else { s.pow with coreHold := true, coreHoldFull := false } } : State).bump
        .hold (b2n rail) 0 1).event 0x0F01 (.dev (b2n rail)) (s.count .hold (b2n rail) 0 + 1)) := by
  refine (run_next hw ?_ : execHardLimitCross rail now s = _)
  dsimp only
  rw [if_neg (by simp [hphase, hheld, hover]), State.count_bump, if_pos rfl]
  rfl

/-! ### Budgets and limits (R22, R30, R31, R36, R455) -/

/-- The state whose budgets and limits a `POWER_BUDGET_SET` has set. -/
def budgeted (core coreHard sds sdsHard packageW : Nat) (s : State) : State :=
  { s with pow := { s.pow with core, coreHard, sds, sdsHard, packageW } }

/-- A `POWER_BUDGET_SET` whose checks have passed sets what it names, and then lends what goes with it. -/
theorem exec_powerBudgetSet {x : XCall} {r : Req} {s t : State} {core coreHard sds sdsHard pw floors : Nat} {lend : Option LendReq}
    (hr : Served x 0x0F01 r s) (hw : wfPowerBudgetSet x core coreHard sds sdsHard pw ⟨floors, lend⟩ = true) (hcore : core ≤ coreHard)
    (hcoreMax : coreHard ≤ 5400) (hsds : sds ≤ sdsHard) (hsdsMax : sdsHard ≤ 960) (hpwMin : 500 ≤ pw) (hpwMax : pw ≤ 1100)
    (hfloors : floors ≤ effectiveCore (budgeted core coreHard sds sdsHard pw (begun x s)).pow 6800)
    (hend : lend.elim (budgeted core coreHard sds sdsHard pw (begun x s), okWith [])
      (lendOut · (budgeted core coreHard sds sdsHard pw (begun x s))) = (t, okWith [])) :
    exec (.powerBudgetSet x core coreHard sds sdsHard pw ⟨floors, lend⟩) s = .next (replied x r [] t) := by
  refine run_replied hw hr ?_
  have hpw : (if pw = 0 then 1100 else pw) = pw := if_neg (by omega)
  simp only [hpw]
  rw [if_neg (by omega), if_neg (by simp; omega), if_neg (by omega), if_neg (by simp; omega), if_neg (by simp; omega),
    if_neg (by rw [not_lt]; exact hfloors)]
  cases lend <;> exact hend

/-- A lend that the chain can carry and the budget can spare (R36, R455). -/
theorem lendOut_lends {l : LendReq} {s : State} (hup : s.chain.state = 2) (hdest : l.dest < s.chain.units) (hother : l.dest ≠ s.chain.addr)
    (hback : l.giveBack = false)
    (hfits : l.credits ≤ s.pow.core + creditSum s.pow.borrowed - creditSum s.pow.lent - floorSum s s.pow.vdd false) :
    lendOut l s = (({ s with pow := { s.pow with lent := mupd s.pow.lent l.dest 0 (· + l.credits) } } : State).chainSend 6 l.dest false 0
      l.credits, okWith []) := by
  unfold lendOut
  dsimp only
  rw [if_neg (not_not_intro hup), if_neg (by simp [hdest, hother]), if_neg (by simp [hback]), if_neg (not_lt.mpr hfits)]
  simp [hback, ok]

/-- Settles O3: each command's checks passed in their order. -/
theorem budgetsAndHold : Obligations.BudgetsAndHold := by
  unfold Obligations.BudgetsAndHold
  refine ⟨?hold, ?budget, ?lend, ?state, ?governor⟩
  case hold =>
    intro rail now s hphase hheld hover hw
    exact exec_hardLimitCross hphase hheld hover hw
  case budget =>
    intro x r s core coreHard sds sdsHard pw floors hr hw hcore hcoreMax hsds hsdsMax hpwMin hpwMax p hfloors
    exact exec_powerBudgetSet hr hw hcore hcoreMax hsds hsdsMax hpwMin hpwMax hfloors rfl
  case lend =>
    intro x r s core coreHard sds sdsHard pw floors l hr hw hcore hcoreMax hsds hsdsMax hpwMin hpwMax p q hfloors hup hdest hother hback hfits
    exact exec_powerBudgetSet hr hw hcore hcoreMax hsds hsdsMax hpwMin hpwMax hfloors (lendOut_lends hup hdest hother hback hfits)
  case state =>
    intro x r s hr hw
    exact ⟨_, run_replied hw hr rfl⟩
  case governor =>
    intro x r s m up dn vmin vmax per hold hr hw hm hm' hup hdn hvmin hvmin' hvmax hvmax' hper hper' hhold hhold'
    refine run_replied hw hr ?_
    rw [if_neg (by simp; omega), if_neg (by simp; omega), if_neg (by simp; omega), if_neg (by simp; omega), if_neg (by simp; omega),
      if_neg (by simp; omega), if_neg (by simp; omega)]
    rfl

end Sys2Proof.Machine
end

section
/-! PROOFS. Detections and the recovery machine of a fault domain (R27 to R29, R418, R423, R425). -/

namespace Sys2Proof.Machine

theorem alive_of_phase {s : State} (hreset : s.phase ≠ .inReset) (hbask : s.phase ≠ .basking) : alive s = true := by
  simp [alive, hreset, hbask]

theorem watchdogUs_mem (s : State) (d : HsDom) : 10 ≤ watchdogUs s d ∧ watchdogUs s d ≤ 10000 := by
  unfold watchdogUs
  split <;> omega

/-- A fault of a RUNNING domain: a record, CONTAIN and FENCE, and the domain waits in CLEAR for its self-test (R423, R425). -/
theorem domFault_running {d : Dom} {s : State} (hdevice : ∀ n, d ≠ .device n) (heft : d ≠ .eft) (hpart : regrowPart s d = none)
    (hrun : (domOf s d).state = .running) (source detail : Nat) :
    domFault d source detail s =
      (containDom d (s.record (domCode d).1 (domCode d).2 source 1 1 detail)).setDom d { state := .clear } := by
  cases d with
  | device n => exact absurd rfl (hdevice n)
  | eft => exact absurd rfl heft
  | _ => simp only [domFault, hpart, hrun]

/-- Settles O4: each detection is an event or none by its guards, and a domain in CLEAR goes by its self-test. -/
theorem domainMachine : Obligations.DomainMachine := by
  unfold Obligations.DomainMachine
  refine ⟨?stall, ?excused, watchdogUs_mem, ?codeword, ?fault, ?checker, ?flagged, ?passed, ?failed, ?resumed⟩
  case stall =>
    intro d stage us waits s hreset hbask hw hlong hinside
    refine (run_next hw (if_pos ?_) : execStallWatchdogFire d ⟨stage, us, waits⟩ s = _)
    simp [alive_of_phase hreset hbask, hlong, hinside]
  case excused =>
    intro d stage us waits s hw hshort
    refine (run_next hw (if_neg ?_) : execStallWatchdogFire d ⟨stage, us, waits⟩ s = _)
    obtain h | h := hshort <;> simp [h]
  case codeword =>
    intro d stage s hreset hbask hw
    exact (run_next hw (if_pos (alive_of_phase hreset hbask)) : execInvalidCodeword d stage s = _)
  case fault =>
    intro d source detail s hdevice heft hpart hrun
    rw [domFault_running hdevice heft hpart hrun, domOf_setDom_self (by decide)]
  case checker =>
    intro d checker s hreset hbask hw
    refine (run_next hw (if_neg ?_) : execCheckerSelftest d checker false s = _)
    simp [alive_of_phase hreset hbask]
  case flagged =>
    intro d checker s hw
    exact (run_next hw (if_pos (by simp)) : execCheckerSelftest d checker true s = _)
  case passed =>
    intro d s hreset hbask hclear hw
    refine (run_next hw ?_ : execClearSelftestDone d true s = _)
    rw [if_neg (by simp [alive_of_phase hreset hbask, hclear]), if_pos rfl]
  case failed =>
    intro d s hreset hbask hclear hw
    refine (run_next hw ?_ : execClearSelftestDone d false s = _)
    rw [if_neg (by simp [alive_of_phase hreset hbask, hclear]), if_neg Bool.false_ne_true]
  case resumed =>
    intro d s hprob hw
    exact (run_next hw (if_pos hprob) : execProbationEnd d s = _)

end Sys2Proof.Machine
end

section
/-! PROOFS. The end of a request of the cipher engine, and the security associations (R34, R294 to R297, R302). -/

namespace Sys2Proof.Machine

/-! ### The end of a request (R295, R297) -/

section Request
variable {id : Nat} {hw : Bool} {bad : Option Nat} {s : State} {r : CipherReq}

/-- A request that has an end and is not held leaves the engine with it. -/
theorem reqComplete_ends {st : Nat} (hfind : s.cip.reqs.find? (·.id = id) = some r) (hend : reqEnd r hw = some st)
    (hgo : hw = true ∨ reqPaused s r = false) :
    reqComplete id hw bad s = reqFinish r st bad (if hw then unitFaults r s else s) := by
  have hnot : ¬ (!hw && reqPaused s r) = true := by
    obtain h | h := hgo <;> simp [h]
  simp only [reqComplete, hfind, hend]
  rw [if_neg hnot]

/-- A request that is held does not end (R34, R289). -/
theorem reqComplete_paused (hfind : s.cip.reqs.find? (·.id = id) = some r) (hpaused : reqPaused s r = true) :
    reqComplete id false bad s = s := by
  simp only [reqComplete, hfind]
  split
  · rfl
  · simp [hpaused]

end Request

/-! ### Security associations (R302) -/

/-- Settles O40: each request by what ends it; `SA_CREATE` with its checks passed, the key there and the two values drawn. -/
theorem cipherRequests : Obligations.CipherRequests := by
  unfold Obligations.CipherRequests
  refine ⟨?complete, ?answered, ?paused, ?decided, ?faulted, ?timeout, ?served, fun ok f s => rfl, ?create, ?cached, ?waits, ?state, ?deleted⟩
  case complete =>
    intro id hw bad ok s hwf
    exact (run_next hwf rfl : execCipherRequestComplete id hw ⟨bad, ok⟩ s = _)
  case answered =>
    intro id s r hfind hstatus hunit hgo
    obtain ⟨u, hu⟩ := Option.isSome_iff_exists.mp hunit
    exact reqComplete_ends hfind (by simp [reqEnd, hstatus, hu]) (.inr hgo)
  case paused =>
    intro id bad s r hfind hpaused
    exact reqComplete_paused hfind hpaused
  case decided =>
    intro id hw bad s r st hfind hstatus hgo
    rw [reqComplete_ends (st := st) hfind (by simp [reqEnd, hstatus]) hgo]
    simp [unitFaults, hstatus]
  case faulted =>
    intro id bad s r u hfind hstatus hunit
    rw [reqComplete_ends (st := 8) hfind (by simp [reqEnd, hstatus, hunit]) (.inl rfl)]
    simp [unitFaults, hstatus, hunit]
  case timeout =>
    intro id ok s r hwf hfind hcls hunit hstatus
    refine (run_next hwf ?_ : execCipherBusyTimeout ⟨id, ok⟩ s = _)
    simp [settleAll, hfind, hcls, hunit, hstatus]
  case served =>
    intro id ok s r hwf hfind hunit
    refine (run_next hwf ?_ : execCipherBusyTimeout ⟨id, ok⟩ s = _)
    simp [settleAll, hfind, Option.isNone_eq_false_iff.mpr hunit]
  case create =>
    intro x r s c n v hr hw u k hgood hrole halarm htype herasing husage htenant hsuite hnum hkey z new
    refine run_replied hw hr ?_
    have hin : (if 2 ≤ c.kind then secKeyIn c.octet (mbxControl (callBy x r s).fid) c.slot u else (.there, u)) = (.there, v) := by
      obtain ⟨hkind, rfl⟩ | ⟨hkind, hin⟩ := hkey
      · exact if_neg (by omega)
      · rw [if_pos hkind, hin]
    rw [if_neg (by simp [hrole]), show saBad (begun x s) c = none from hgood]
    dsimp only
    rw [if_neg (by simp [show alarmLatched (begun x s) = false from halarm]),
      if_neg (by
        simp only [Bool.or_eq_true, decide_eq_true_eq, Bool.not_eq_true', ne_eq]
        rintro (((h | h) | h) | h)
        · exact htype h
        · exact Bool.false_ne_true (herasing.symm.trans h)
        · exact Bool.false_ne_true (h.symm.trans husage)
        · exact h htenant),
      if_neg (not_not_intro (propext hsuite)), show saNumber (begun x s) c (keySlot (begun x s) c.slot).owner = some n from hnum]
    dsimp only
    rw [show (if 2 ≤ c.kind then secKeyIn c.octet (mbxControl (callBy x r s).fid) c.slot (begun x s) else (.there, begun x s)) = (.there, v) from hin]
    rfl
  case cached =>
    intro octet k slot s hon hserves hcached
    simp [secKeyIn, hon, hserves, hcached]
  case waits =>
    intro octet k slot s hoff
    simp [secKeyIn, hoff]
  case state =>
    intro x r s n hr hw hrole hthere hflag
    refine run_replied hw hr ?_
    obtain ⟨a, ha⟩ := Option.isSome_iff_exists.mp (begun_cip x s ▸ hthere)
    rw [if_neg (by simp [hrole, ha])]
    simp [hflag, saReport, saOf]
  case deleted =>
    intro x r s n hr hw hrole hthere hflag
    refine run_replied hw hr ?_
    obtain ⟨a, ha⟩ := Option.isSome_iff_exists.mp (begun_cip x s ▸ hthere)
    rw [if_neg (by simp [hrole, ha])]
    simp [hflag, saReport, saOf]

end Sys2Proof.Machine
end

section
/-! PROOFS. What a command's operations leave of the counters (R39, O11): no counter is lower after one of them. -/

namespace Sys2Proof.Machine

/-! ### The order of counters, and its rules -/

/-- Every counter of `m` stands at least as high as in `b`. -/
def Rises (b m : List (Ctr × Nat)) : Prop := ∀ c, ctrOf b c ≤ ctrOf m c

/-- The same, by a name that no rule is about. -/
def Risen (b m : List (Ctr × Nat)) : Prop := Rises b m

/-- `simp` leaves what stands behind that name alone. -/
@[congr] theorem risen_congr (b m : List (Ctr × Nat)) : Risen b m = Risen b m := rfl

/-- From `s` to `t` no counter falls, as a rule that rewrites: whether the counters of `t` have risen over some others is to be asked of `s` first.
`simp` so walks a composition of operations back to the state that it begins in. -/
abbrev Grows (s t : State) : Prop := ∀ ⦃b⦄, Rises b t.ctr ↔ Rises b s.ctr ∨ Risen b t.ctr

@[simp] theorem Rises.refl (b : List (Ctr × Nat)) : Rises b b := fun _ => le_refl _

theorem Rises.trans {a b c : List (Ctr × Nat)} (h : Rises a b) (h' : Rises b c) : Rises a c := fun k => (h k).trans (h' k)

theorem Grows.of {s t : State} (h : Rises s.ctr t.ctr) : Grows s t :=
  fun _ => ⟨.inr, fun hb => hb.elim (·.trans h) id⟩

theorem Grows.rises {s t : State} (h : Grows s t) : Rises s.ctr t.ctr := (@h s.ctr).mpr (.inl (.refl _))

theorem Grows.refl (s : State) : Grows s s := .of (.refl _)

theorem Grows.trans {s t u : State} (h : Grows s t) (h' : Grows t u) : Grows s u := .of (h.rises.trans h'.rises)

/-- A state that comes with something else, as a match gives it. -/
theorem Grows.of_snd {α : Type} {s t : State} {p : α × State} {a : α} (h : Grows s p.2) (e : p = (a, t)) : Grows s t := by
  rwa [e] at h

theorem Grows.of_fst {α : Type} {s t : State} {p : State × α} {a : α} (h : Grows s p.1) (e : p = (t, a)) : Grows s t := by
  rwa [e] at h

@[simp] theorem ite_rises (p : Prop) [Decidable p] (b : List (Ctr × Nat)) (s t : State) :
    Rises b (if p then s else t).ctr ↔ if p then Rises b s.ctr else Rises b t.ctr := by
  split <;> rfl

/-- From `s` to `t` no counter falls, where it is a side condition. (A name of its own, so that `simp` gives it a proof under a binder too.) -/
def NoneFalls (s t : State) : Prop := Rises s.ctr t.ctr

@[simp] theorem noneFalls_iff (s t : State) : NoneFalls s t ↔ Rises s.ctr t.ctr := ⟨id, id⟩

@[simp] theorem foldl_grows {α : Type} {f : State → α → State} (h : ∀ s x, NoneFalls s (f s x)) (l : List α) (s : State) :
    Grows s (l.foldl f s) := by
  induction l generalizing s with
  | nil => exact .refl s
  | cons x l ih => exact (Grows.of (h s x)).trans (ih _)

@[simp] theorem State.bump_grows (s : State) (kind : CtrKind) (a b n : Nat) : Grows s (s.bump kind a b n) := by
  refine .of fun ⟨k, i, j⟩ => ?_
  have h := s.count_bump kind k a i b j n
  unfold State.count at h
  omega

theorem State.modPkt_grows (s : State) (f : PacketState → PacketState) : Grows s (s.modPkt f) := .of (.refl s.ctr)

/-! ### Counters, free values, outputs, messages, events and fault records -/

@[simp] theorem State.flushMsix_grows (s : State) (fid : Nat) : Grows s (State.flushMsix s fid) := .of (by simp [State.flushMsix])

@[simp] theorem State.killReads_grows (s : State) (p : Read → Bool) : Grows s (State.killReads s p) := .of (by simp [State.killReads])

@[simp] theorem State.endReads_grows (s : State) (p : Read → Bool) : Grows s (State.endReads s p) := .of (by simp [State.endReads])

@[simp] theorem State.orphanCur_grows (s : State) (m : MbxId) : Grows s (State.orphanCur s m) := .of <| by
  unfold State.orphanCur
  split <;> simp

@[simp] theorem State.killFenced_grows (s : State) (fid : Nat) : Grows s (State.killFenced s fid) := .of (by simp [State.killFenced])

@[simp] theorem State.ringEvent_grows (s : State) (fid time code : Nat) (subj : Subject) (arg : Nat) :
    Grows s (State.ringEvent s fid time code subj arg) := .of <| by
  unfold State.ringEvent
  dsimp only
  repeat' split
  all_goals simp

@[simp] theorem State.boardRec_grows (s : State) (time code : Nat) (subj : Subject) (arg : Nat) :
    Grows s (State.boardRec s time code subj arg) := .of <| by
  unfold State.boardRec
  split <;> simp

@[simp] theorem State.deliver_grows (s : State) (time code : Nat) (subj : Subject) (arg : Nat) : Grows s (s.deliver time code subj arg) := .of <| by
  unfold State.deliver
  extract_lets t
  have ht : Grows s t := foldl_grows (fun s ⟨fid, m⟩ => by dsimp only; repeat' split <;> simp) _ s
  repeat' split
  all_goals simp [ht]

@[simp] theorem State.event_grows (s : State) (code : Nat) (subj : Subject) (arg : Nat) :
    Grows s (State.event s code subj arg) := .of (by simp [State.event])

@[simp] theorem State.record_grows (s : State) (dkind unit source action state detail : Nat) :
    Grows s (State.record s dkind unit source action state detail) := .of (by simp [State.record])

@[simp] theorem State.composeFault_grows (s : State) (fid : Nat) : Grows s (State.composeFault s fid) := .of (by simp [State.composeFault])

@[simp] theorem State.chainSend_grows (s : State) (type dst : Nat) (bcast : Bool) (part data : Nat) :
    Grows s (State.chainSend s type dst bcast part data) := .of (by simp [State.chainSend])

/-! ### Regrowable units -/

@[simp] theorem State.unitCorrected_grows (s : State) (kind phys : Nat) :
    Grows s (State.unitCorrected s kind phys) := .of (by simp [State.unitCorrected])

/-! ### The cipher engine, the key store and the cipher alarm -/

@[simp] theorem State.modKey_grows (s : State) (k : Nat) (f : KeySlot → KeySlot) : Grows s (State.modKey s k f) := .of (by simp [State.modKey])

@[simp] theorem touchCache_grows (k : Nat) (s : State) : Grows s (touchCache k s) := .of (by simp [touchCache])

@[simp] theorem keyZeroise_grows (k : Nat) (s : State) : Grows s (keyZeroise k s) := .of (by simp [keyZeroise])

@[simp] theorem State.modSa_grows (s : State) (n : Nat) (f : Sa → Sa) : Grows s (State.modSa s n f) := .of (by simp [State.modSa])

@[simp] theorem saDrop_grows (n cause : Nat) (s : State) : Grows s (saDrop n cause s) := .of (by simp [saDrop])

@[simp] theorem saExhaust_grows (n : Nat) (s : State) : Grows s (saExhaust n s) := .of (by simp [saExhaust])

@[simp] theorem saTake_grows (n : Nat) (s : State) : Grows s (saTake n s).2 := .of <| by
  unfold saTake
  dsimp only
  split_ifs <;> simp

@[simp] theorem saAccept_grows (n q : Nat) (s : State) : Grows s (saAccept n q s) := .of (by simp [saAccept])

theorem startOne_grows {s t : State} (h : startOne s = some t) : Grows s t := by
  unfold startOne at h
  dsimp only at h
  split at h
  · cases h
  · split at h
    · cases h
    · cases h
      exact .of (by simp)

@[simp] theorem pumpCipher_grows (steps : Nat) (s : State) : Grows s (pumpCipher steps s) := by
  induction steps generalizing s with
  | zero => exact .refl s
  | succ fuel ih =>
    refine .of ?_
    rw [pumpCipher]
    split
    next t h => simp [ih, startOne_grows h]
    · simp

@[simp] theorem cipherSubmit_grows (r : CipherReq) (s : State) : Grows s (cipherSubmit r s) := .of (by simp [cipherSubmit])

@[simp] theorem cipherTake_grows (id : Nat) (s : State) : Grows s (cipherTake id s) := .of (by simp [cipherTake])

@[simp] theorem controlTurn_grows (k len : Nat) (s : State) : Grows s (controlTurn k len s).2 := .of <| by
  unfold controlTurn
  dsimp only
  repeat' split
  all_goals simp

@[simp] theorem saDelete_grows (p : Nat → Sa → Bool) (s : State) : Grows s (saDelete p s) := .of (by simp [saDelete])

@[simp] theorem setVolState_grows (h new : Nat) (s : State) : Grows s (setVolState h new s) := .of <| by
  unfold setVolState
  split <;> simp

@[simp] theorem lockVolumes_grows (p : Nat → Bool) (s : State) : Grows s (lockVolumes p s) := .of (by simp [lockVolumes])

@[simp] theorem forceErase_grows (k : Nat) (s : State) : Grows s (forceErase k s) := .of (by simp [forceErase])

@[simp] theorem alarmAdds_grows (s : State) : Grows s (alarmAdds s) := .of (by simp [alarmAdds])

@[simp] theorem cipherAlarm_grows (src : Nat) (s : State) : Grows s (cipherAlarm src s) := .of <| by
  unfold cipherAlarm
  split <;> simp

@[simp] theorem aesContain_grows (iru : Bool) (u : Nat) (s : State) : Grows s (aesContain iru u s) := .of (by simp [aesContain])

@[simp] theorem keyStoreContain_grows (s : State) : Grows s (keyStoreContain s) := .of (by simp [keyStoreContain])

@[simp] theorem macsecPowerDown_grows (octet : Nat) (s : State) : Grows s (macsecPowerDown octet s) := .of (by simp [macsecPowerDown])

@[simp] theorem ckvDrop_grows (l : List Nat) (s : State) : Grows s (ckvDrop l s) := .of (by simp [ckvDrop])

@[simp] theorem fnKeysDestroy_grows (fid : Nat) (s : State) : Grows s (fnKeysDestroy fid s) := .of (by simp [fnKeysDestroy])

/-! ### Completion entries of the rings -/

@[simp] theorem announce_grows (fid c : Nat) (s : State) : Grows s (announce fid c s) := .of (by simp [announce])

@[simp] theorem moderate_grows (fid c : Nat) (s : State) : Grows s (moderate fid c s) := .of (by simp [moderate])

@[simp] theorem cplWrite_grows (fid c : Nat) (es : List Cpl) (s : State) : Grows s (cplWrite fid c es s) := .of (by simp [cplWrite])

@[simp] theorem txFlush_grows (fid r : Nat) (s : State) : Grows s (txFlush fid r s) := .of (by simp [txFlush])

/-! ### What a transmit ring fetches -/

@[simp] theorem readBufs_grows (fid r : Nat) (s : State) : Grows s (readBufs fid r s) := .of (by simp [readBufs])

@[simp] theorem kick_grows (fid r : Nat) (s : State) : Grows s (kick fid r s) := .of (by simp [kick])

@[simp] theorem kickAll_grows (fid : Nat) (s : State) : Grows s (kickAll fid s) := .of (by simp [kickAll])

@[simp] theorem resumeHosts_grows (pipe : Nat) (old s : State) : Grows s (resumeHosts pipe old s) := .of (by simp [resumeHosts])

/-! ### Channels as hardware writes them -/

@[simp] theorem endWait_grows (tid rd v : Nat) (s : State) : Grows s (endWait tid rd v s) := .of (by simp [endWait])

@[simp] theorem wakeSup_grows (ch : Nat) (s : State) : Grows s (wakeSup ch s) := .of <| by
  unfold wakeSup
  dsimp only
  repeat' split
  all_goals simp

@[simp] theorem chPush_grows (ch : Nat) (m : Msg) (s : State) : Grows s (chPush ch m s) := .of (by simp [chPush])

@[simp] theorem hwDeliver_grows (s : State) (ch : Nat) (m : Msg) : Grows s (hwDeliver s ch m).1 := .of <| by
  unfold hwDeliver
  dsimp only
  split_ifs <;> simp

/-! ### The two Lily Pads -/

@[simp] theorem leapTrigger_grows (spread : Nat) (s : State) : Grows s (leapTrigger spread s) := .of (by simp [leapTrigger])

theorem leapArm_grows {time : Nat} {s t : State} (h : leapArm time s = some t) : Grows s t := by
  unfold leapArm at h
  split at h
  all_goals cases h
  exact .of (by simp)

@[simp] theorem leapDisarm_grows (s : State) : Grows s (leapDisarm s) := .of (by simp [leapDisarm])

/-! ### The packet buffer, queues, meters, policers and tokens -/

@[simp] theorem meterIn_grows (tenant cls bytes : Nat) (s : State) : Grows s (meterIn tenant cls bytes s) := .of (by simp [meterIn])

@[simp] theorem meterOut_grows (tenant cls bytes : Nat) (s : State) : Grows s (meterOut tenant cls bytes s) := .of (by simp [meterOut])

@[simp] theorem txNote_grows (src : Source) (f : TxPkt → TxPkt) (s : State) : Grows s (txNote src f s) := .of <| by
  unfold txNote
  split <;> simp

@[simp] theorem txCopies_grows (src : Source) (n cls colour : Nat) (s : State) : Grows s (txCopies src n cls colour s) := .of (by simp [txCopies])

@[simp] theorem txCommit_grows (src : Source) (s : State) : Grows s (txCommit src s) := .of (by simp [txCommit])

@[simp] theorem txDrop_grows (src : Source) (reason : Nat) (s : State) : Grows s (txDrop src reason s) := .of (by simp [txDrop])

@[simp] theorem dropPkt_grows (k : Pkt) (reason : Nat) (s : State) : Grows s (dropPkt k reason s) := .of (by simp [dropPkt])

@[simp] theorem State.modOwner_grows (s : State) (o : Nat) (f : Owner → Owner) : Grows s (State.modOwner s o f) := .of (by simp [State.modOwner])

@[simp] theorem ownerGone_grows (o : Nat) (s : State) : Grows s (ownerGone o s) := .of (by simp [ownerGone])

@[simp] theorem bumpOwner_grows (k pool : CtrKind) (o : Nat) (s : State) : Grows s (bumpOwner k pool o s) := .of (by simp [bumpOwner])

@[simp] theorem noteAdmitted_grows (a : Nat) (s : State) : Grows s (noteAdmitted a s) := .of (by simp [noteAdmitted])

@[simp] theorem noteRefused_grows (a : Nat) (s : State) : Grows s (noteRefused a s) := .of (by simp [noteRefused])

@[simp] theorem noteMark_grows (a : Nat) (s : State) : Grows s (noteMark a s) := .of (by simp [noteMark])

@[simp] theorem noteOverrun_grows (a : Nat) (s : State) : Grows s (noteOverrun a s) := .of (by simp [noteOverrun])

@[simp] theorem pauseSync_grows (o : Nat) (s : State) : Grows s (pauseSync o s) := .of <| by
  unfold pauseSync
  dsimp only
  split <;> simp

@[simp] theorem bpAct_grows (o : Nat) (on : Bool) (s : State) : Grows s (bpAct o on s) := .of (by simp [bpAct])

@[simp] theorem bpAssert_grows (cause o : Nat) (s : State) : Grows s (bpAssert cause o s) := .of (by simp [bpAssert])

@[simp] theorem bpRelease_grows (s : State) : Grows s (bpRelease s) := .of (by simp [bpRelease])

@[simp] theorem bpSweep_grows (s : State) : Grows s (bpSweep s) := .of (by simp [bpSweep])

@[simp] theorem freeCells_grows (o n : Nat) (s : State) : Grows s (freeCells o n s) := .of (by simp [freeCells])

@[simp] theorem dropRef_grows (n : Nat) (s : State) : Grows s (dropRef n s) := .of <| by
  unfold dropRef
  split <;> simp

@[simp] theorem leaveQueue_grows (q : Nat) (c : Copy) (s : State) : Grows s (leaveQueue q c s) := .of (by simp [leaveQueue])

@[simp] theorem dropHead_grows (q : Nat) (c : Copy) (reason : Nat) (s : State) : Grows s (dropHead q c reason s) := .of (by simp [dropHead])

@[simp] theorem dropCopies_grows (q : Nat) (pass : Copy → Bool) (reason : Nat) (s : State) :
    Grows s (dropCopies q pass reason s) := .of (by simp [dropCopies])

@[simp] theorem chargeIngress_grows (o n : Nat) (hr : Bool) (s : State) : Grows s (chargeIngress o n hr s) := .of (by simp [chargeIngress])

@[simp] theorem countRefused_grows (o : Nat) (rs : List CopyReq) (s : State) : Grows s (countRefused o rs s) := .of (by simp [countRefused])

@[simp] theorem countMirrors_grows (pipe : Nat) (rs : List CopyReq) (s : State) : Grows s (countMirrors pipe rs s) := .of (by simp [countMirrors])

@[simp] theorem putCopy_grows (n : Nat) (k : Pkt) (r : CopyReq) (s : State) : Grows s (putCopy n k r s) := .of (by simp [putCopy])

@[simp] theorem enqueue_grows (k : Pkt) (rs : List CopyReq) (tsOut : Bool) (s : State) : Grows s (enqueue k rs tsOut s) := .of <| by
  unfold enqueue
  dsimp only
  split <;> simp

@[simp] theorem police_grows (pad i len colour : Nat) (s : State) : Grows s (police pad i len colour s).2 := .of <| by
  unfold police
  dsimp only
  split <;> simp

@[simp] theorem punt_grows (k : Pkt) (reason : Nat) (copy : Bool) (s : State) : Grows s (punt k reason copy s) := .of <| by
  have hc := police_grows k.pad (524279 + k.pipe) k.rxLen k.colour s
  unfold punt
  generalize police k.pad (524279 + k.pipe) k.rxLen k.colour s = x at hc
  obtain ⟨c, u⟩ := x
  change Grows s u at hc
  simp [hc]

/-! ### Tables, learning, load-balancing groups and spray -/

@[simp] theorem State.setTbl_grows (s : State) (t pipe : Nat) (c : Cuckoo) : Grows s (State.setTbl s t pipe c) := .of <| by
  unfold State.setTbl
  split_ifs <;> simp

@[simp] theorem tblPressure_grows (t pipe : Nat) (s : State) : Grows s (tblPressure t pipe s) := .of (by simp [tblPressure])

@[simp] theorem tblWorked_grows (t pipe : Nat) (c' : Cuckoo) (s : State) : Grows s (tblWorked t pipe c' s) := .of (by simp [tblWorked])

@[simp] theorem tblPlace_grows (t pipe e : Nat) (s : State) : Grows s (tblPlace t pipe e s).1 := .of <| by
  unfold tblPlace
  dsimp only
  repeat' split
  all_goals simp

@[simp] theorem ckvFree_grows (key : Nat) (s : State) : Grows s (ckvFree key s) := .of (by simp [ckvFree])

@[simp] theorem tblDel_grows (t pipe key : Nat) (s : State) : Grows s (tblDel t pipe key s) := .of (by simp [tblDel])

@[simp] theorem flowLook_grows (key : Nat) (s : State) : Grows s (flowLook key s).2 := .of <| by
  unfold flowLook
  split <;> simp

@[simp] theorem excess_grows (pipe : Nat) (host : Bool) (src : Nat) (s : State) : Grows s (excess pipe host src s) := .of (by simp [excess])

@[simp] theorem dropRemote_grows (key : Nat) (s : State) : Grows s (dropRemote key s) := by
  refine foldl_grows (fun s x => ?_) _ s
  split <;> simp

@[simp] theorem shareHome_grows (pipe mac vn : Nat) (host : Bool) (src : Nat) (s : State) :
    Grows s (shareHome pipe mac vn host src s) := .of (by simp [shareHome])

@[simp] theorem installHome_grows (pipe mac vn : Nat) (host : Bool) (src : Nat) (s : State) :
    Grows s (installHome pipe mac vn host src s).1 := .of <| by
  unfold installHome
  dsimp only
  split
  next h => simp [Grows.of_fst (tblPlace_grows ..) h]
  next h => simp [Grows.of_fst (tblPlace_grows ..) h]

@[simp] theorem fallbackLearn_grows (pipe mac vn : Nat) (host : Bool) (src : Nat) (s : State) :
    Grows s (fallbackLearn pipe mac vn host src s).1 := .of <| by
  unfold fallbackLearn
  split
  next h => simp [Grows.of_fst (tblPlace_grows ..) h]
  next h => simp [Grows.of_fst (tblPlace_grows ..) h]

@[simp] theorem learn.learnNew_grows (k : Pkt) (mac : Nat) (host : Bool) (src : Nat) (s : State) :
    Grows s (learn.learnNew k mac host src s).1 := .of <| by
  unfold learn.learnNew
  dsimp only
  split_ifs <;> simp

@[simp] theorem learn_grows (k : Pkt) (s : State) : Grows s (learn k s).1 := .of <| by
  unfold learn
  dsimp only
  repeat' split
  all_goals simp

@[simp] theorem takeFallback_grows (s : State) : Grows s (takeFallback s) := .of (by simp [takeFallback])

@[simp] theorem State.modHw_grows (s : State) (g pipe : Nat) (f : GroupHw → GroupHw) :
    Grows s (State.modHw s g pipe f) := .of (by simp [State.modHw])

@[simp] theorem pickBucket_grows (k : Pkt) (g : Nat) (gr : Group) (s : State) : Grows s (pickBucket k g gr s).2 := .of <| by
  unfold pickBucket
  dsimp only
  repeat' split
  all_goals simp

@[simp] theorem countMember_grows (v : Via) (len : Nat) (s : State) : Grows s (countMember v len s) := .of <| by
  unfold countMember
  dsimp only
  split <;> simp

@[simp] theorem chooseMember_grows (k : Pkt) (g : Nat) (s : State) : Grows s (chooseMember k g s).2 := .of <| by
  unfold chooseMember
  dsimp only
  repeat' split
  all_goals simp

@[simp] theorem takeShim_grows (k : Pkt) (v : Via) (s : State) : Grows s (takeShim k v s).2 := .of <| by
  unfold takeShim
  split <;> simp

@[simp] theorem regroup_grows (s : State) : Grows s (regroup s) := .of (by simp [regroup])

/-! ### How a packet leaves the ingress side -/

@[simp] theorem mirrorCopies_grows (k : Pkt) (ms : List Nat) (s : State) : Grows s (mirrorCopies k ms s).2 := by
  refine List.foldlRecOn (motive := fun x : List CopyReq × State => Grows s x.2) ms _ (.refl s) fun x hx m _ => .of ?_
  dsimp only
  split
  · split
    · split
      · split <;> simp [hx]
      · simp [hx]
    · exact hx.rises
  · exact hx.rises

@[simp] theorem releaseHeld_grows (h : Held) (s : State) : Grows s (releaseHeld h s) := .of (by simp [releaseHeld])

@[simp] theorem releaseRun_grows (key steps : Nat) (s : State) : Grows s (releaseRun key steps s) := by
  induction steps generalizing s with
  | zero => exact .refl _
  | succ fuel ih =>
    refine .of ?_
    rw [releaseRun]
    dsimp only
    split <;> simp [ih]

@[simp] theorem sprayAdvance_grows (key to_ : Nat) (s : State) : Grows s (sprayAdvance key to_ s) := by
  refine Grows.trans ?_ (releaseRun_grows ..)
  refine Grows.trans ?_ (foldl_grows (fun s x => ?_) _ _)
  · refine Grows.trans ?_ (State.modPkt_grows ..)
    exact State.bump_grows ..
  · exact (releaseHeld_grows x.2 s).rises

@[simp] theorem sprayTimeout_grows (key : Nat) (s : State) : Grows s (sprayTimeout key s) := .of <| by
  unfold sprayTimeout
  split <;> simp

@[simp] theorem sprayRoom_grows (n steps : Nat) (s : State) : Grows s (sprayRoom n steps s) := by
  induction steps generalizing s with
  | zero => exact .refl _
  | succ fuel ih =>
    refine .of ?_
    rw [sprayRoom]
    split
    · exact .refl _
    · dsimp only
      split <;> simp [ih]

@[simp] theorem sprayNext_grows (key seq : Nat) (k : Pkt) (rs : List CopyReq) (tsOut : Bool) (s : State) :
    Grows s (sprayNext key seq k rs tsOut s) := .of (by simp [sprayNext])

@[simp] theorem sprayHold_grows (key seq : Nat) (k : Pkt) (rs : List CopyReq) (tsOut : Bool) (s : State) :
    Grows s (sprayHold key seq k rs tsOut s) := .of (by simp [sprayHold])

@[simp] theorem sprayReset_grows (key seq : Nat) (s : State) : Grows s (sprayReset key seq s) := .of (by simp [sprayReset])

@[simp] theorem resequence_grows (k : Pkt) (shim : Nat) (rs : List CopyReq) (tsOut : Bool) (s : State) :
    Grows s (resequence k shim rs tsOut s) := .of (by simp [resequence])

@[simp] theorem sendOut_grows (k : Pkt) (rs : List CopyReq) (tsOut : Bool) (s : State) : Grows s (sendOut k rs tsOut s) := .of <| by
  unfold sendOut
  split <;> simp

@[simp] theorem sendCopies_grows (k : Pkt) (rs : List CopyReq) (reason : Nat) (tsOut : Bool) (s : State) :
    Grows s (sendCopies k rs reason tsOut s) := .of (by simp [sendCopies])

@[simp] theorem drawEncap_grows (s : State) : Grows s (drawEncap s).2 := .of (by simp [drawEncap])

@[simp] theorem resolve_grows (k : Pkt) (dest : Nat) (s : State) : Grows s (resolve k dest s).2 := .of <| by
  unfold resolve
  split
  · exact .refl _
  · split
    next h => simp [Grows.of_snd (chooseMember_grows ..) h]
    next h => simp [Grows.of_snd (chooseMember_grows ..) h]
  · split <;> simp

@[simp] theorem crossed_grows (k : Pkt) (dest : Nat) (s : State) : Grows s (crossed k dest s) := .of (by simp [crossed])

@[simp] theorem markPunt_grows (k : Pkt) (s : State) : Grows s (markPunt k s).2 := .of (by simp [markPunt])

@[simp] theorem puntEdited_grows (k : Pkt) (reason : Nat) (ms : List CopyReq) (s : State) :
    Grows s (puntEdited k reason ms s) := .of (by simp [puntEdited])

@[simp] theorem endPkt_grows (k : Pkt) (i : EndInfo) (s : State) : Grows s (endPkt k i s) := .of <| by
  unfold endPkt
  dsimp only
  repeat' split
  all_goals simp

@[simp] theorem defaultAction_grows (k : Pkt) (s : State) : Grows s (defaultAction k s) := .of <| by
  unfold defaultAction
  dsimp only
  split <;> simp

@[simp] theorem mfaultEnd_grows (k : Pkt) (code addr : Nat) (s : State) : Grows s (mfaultEnd k code addr s) := .of (by simp [mfaultEnd])

@[simp] theorem findL2_grows (k : Pkt) (s : State) : Grows s (findL2 k s).2 := .of <| by
  unfold findL2
  dsimp only
  repeat' split
  all_goals simp

@[simp] theorem findDest_grows (k : Pkt) (flow : Bool) (s : State) : Grows s (findDest k flow s).2 := .of <| by
  unfold findDest
  dsimp only
  split
  · exact .refl _
  · split
    · split
      next h => exact (Grows.of_snd (flowLook_grows ..) h).rises
      next h => split <;> simp [Grows.of_snd (flowLook_grows ..) h]
    · simp

/-! ### What the rest of the device does to the packet domain -/

@[simp] theorem dropWhere_grows (pass : Nat → Copy → Bool) (reason : Nat) (s : State) :
    Grows s (dropWhere pass reason s) := .of (by simp [dropWhere])

@[simp] theorem dropPortQueues_grows (port : Nat) (s : State) : Grows s (dropPortQueues port s) := .of (by simp [dropPortQueues])

@[simp] theorem stormDrop_grows (port prio : Nat) (s : State) : Grows s (stormDrop port prio s) := .of (by simp [stormDrop])

@[simp] theorem markRingCopies_grows (fid ring : Nat) (s : State) : Grows s (markRingCopies fid ring s) := .of (by simp [markRingCopies])

@[simp] theorem pipelineContain_grows (k : Nat) (s : State) : Grows s (pipelineContain k s) := .of (by simp [pipelineContain])

@[simp] theorem pipelineFencedDrop_grows (k : Nat) (s : State) : Grows s (pipelineFencedDrop k s) := .of (by simp [pipelineFencedDrop])

@[simp] theorem pipelineRegrown_grows (k : Nat) (s : State) : Grows s (pipelineRegrown k s) := .of (by simp [pipelineRegrown])

@[simp] theorem fnTablesDestroy_grows (fid : Nat) (s : State) : Grows s (fnTablesDestroy fid s) := .of (by simp [fnTablesDestroy])

/-! ### The ingress side up to the action engines -/

@[simp] theorem secDrop_grows (port n cause : Nat) (s : State) : Grows s (secDrop port n cause s) := .of (by simp [secDrop])

@[simp] theorem secFail_grows (port n cause validate : Nat) (bs : List Byte) (s : State) :
    Grows s (secFail port n cause validate bs s).2 := .of (by simp [secFail])

@[simp] theorem macsecRx_grows (port octet : Nat) (bs : List Byte) (s : State) : Grows s (macsecRx port octet bs s).2 := .of <| by
  unfold macsecRx
  dsimp only
  repeat' split
  all_goals simp

@[simp] theorem txSa_grows (octet : Nat) (s : State) : Grows s (txSa octet s).2 := .of <| by
  unfold txSa
  dsimp only
  split <;> simp

@[simp] theorem macsecTx_grows (port octet : Nat) (bs : List Byte) (s : State) : Grows s (macsecTx port octet bs s).2 := .of <| by
  unfold macsecTx
  split
  · exact .refl _
  · split
    next h => simp [Grows.of_snd (txSa_grows ..) h]
    next h =>
      split_ifs <;> simp [Grows.of_snd (txSa_grows ..) h]

@[simp] theorem toIngress_grows (k : Pkt) (s : State) : Grows s (toIngress k s) := .of (by simp [toIngress])

@[simp] theorem ethAccept_grows (port : Nat) (p : EthPort) (bs : List Byte) (ok : Bool) (s : State) :
    Grows s (ethAccept port p bs ok s) := .of (by simp [ethAccept])

@[simp] theorem ethReceive_grows (port : Nat) (frame : List Byte) (fcs : Nat) (fecOk : Bool) (s : State) :
    Grows s (ethReceive port frame fcs fecOk s) := .of <| by
  unfold ethReceive
  split
  · exact .refl _
  next p _ =>
    have hsec := macsecRx_grows port p.octet frame s
    generalize macsecRx port p.octet frame s = x at hsec ⊢
    obtain ⟨r, u⟩ := x
    change Grows s u at hsec
    cases r <;> simp [hsec]

@[simp] theorem startCtx_grows (k : Pkt) (engine entry : Nat) (s : State) : Grows s (startCtx k engine entry s) := .of (by simp [startCtx])

@[simp] theorem ruleOutcome_grows (k : Pkt) (slot r engine : Nat) (s : State) : Grows s (ruleOutcome k slot r engine s) := .of <| by
  unfold ruleOutcome
  split <;> simp

@[simp] theorem acceptHeader_grows (k : Pkt) (engine : Nat) (s : State) : Grows s (acceptHeader k engine s) := .of <| by
  unfold acceptHeader
  dsimp only
  repeat' split
  all_goals simp

@[simp] theorem takeHeader_grows (pipe : Nat) (s : State) : Grows s (takeHeader pipe s) := .of <| by
  unfold takeHeader
  split <;> simp

@[simp] theorem injectPkt_grows (part tenant pipe port : Nat) (bs : List Byte) (ts : Option Nat) (s : State) :
    Grows s (injectPkt part tenant pipe port bs ts s) := .of (by simp [injectPkt])

/-! ### Check-value contexts -/

@[simp] theorem State.setCkv_grows (s : State) (i v : Nat) : Grows s (State.setCkv s i v) := .of (by simp [State.setCkv])

@[simp] theorem ckvSave_grows (i next : Nat) (r : CkvRun) (s : State) : Grows s (ckvSave i next r s) := .of (by simp [ckvSave])

@[simp] theorem ckvBind_grows (i tenant owner seq : Nat) (s : State) : Grows s (ckvBind i tenant owner seq s) := .of (by simp [ckvBind])

@[simp] theorem flowCkv_grows (key tenant seq : Nat) (s : State) : Grows s (flowCkv key tenant seq s).2 := .of <| by
  unfold flowCkv
  repeat' split
  all_goals simp

theorem ckvSegment_grows {k : Pkt} {op cur : Nat} {key : Option Nat} {s t : State} {n : Nat} {bs : List Byte}
    (h : ckvSegment k op cur key s = some (n, bs, t)) : Grows s t := by
  unfold ckvSegment at h
  dsimp only at h
  split at h
  · cases h
    exact .refl s
  · split at h
    next hflow =>
      cases h
      exact .of_snd (flowCkv_grows ..) hflow
    next hflow =>
      have hs := Grows.of_snd (flowCkv_grows ..) hflow
      repeat' split at h
      all_goals cases h
      all_goals exact .of (by simp [hs])

/-! ### The connections to the backends -/

@[simp] theorem State.modBack_grows (s : State) (b : Nat) (f : Backend → Backend) : Grows s (State.modBack s b f) := .of (by simp [State.modBack])

@[simp] theorem tcpFrame_grows (k : Backend) (c : Conn) (ack : Nat) (payload : List Byte) (s : State) :
    Grows s (tcpFrame k c ack payload s).2 := .of (by simp [tcpFrame])

@[simp] theorem State.modConn_grows (s : State) (b q : Nat) (f : Conn → Conn) : Grows s (State.modConn s b q f) := .of (by simp [State.modConn])

@[simp] theorem connSend_grows (b q : Nat) (bs : List Byte) (s : State) : Grows s (connSend b q bs s) := .of (by simp [connSend])

@[simp] theorem backSend_grows (b tag op lba len : Nat) (data : List Byte) (s : State) :
    Grows s (backSend b tag op lba len data s) := .of (by simp [backSend])

@[simp] theorem backConnect_grows (b : Nat) (nqn : List Byte) (s : State) : Grows s (backConnect b nqn s) := .of (by simp [backConnect])

@[simp] theorem connsFree_grows (b : Nat) (s : State) : Grows s (connsFree b s) := .of (by simp [connsFree])

@[simp] theorem connsOpen_grows (b : Nat) (l : Link) (s : State) : Grows s (connsOpen b l s) := by
  refine (Grows.of ?_).trans (foldl_grows (fun s x => ?_) _ _)
  · simp
  · dsimp only
    split <;> simp

@[simp] theorem pduMeter_grows (b : Nat) (p : PduIn) (s : State) : Grows s (pduMeter b p s) := .of (by simp [pduMeter])

@[simp] theorem pduFrames_grows (b : Nat) (p : PduIn) (s : State) : Grows s (pduFrames b p s).2 := by
  refine List.foldlRecOn (motive := fun x : List (List Byte) × State × Nat => Grows s x.2.1) _ _ (.refl s) fun x hx bs _ => .of ?_
  simp [hx]

@[simp] theorem pduPunt_grows (b : Nat) (p : PduIn) (s : State) : Grows s (pduPunt b p s) := .of <| by
  unfold pduPunt
  split <;> simp

@[simp] theorem pduTaken_grows (i : Nat) (p : PduIn) (errs : Nat) (s : State) : Grows s (pduTaken i p errs s) := .of (by simp [pduTaken])

/-! ### The shared operations of storage -/

@[simp] theorem State.modCtrl_grows (s : State) (fid : Nat) (f : Ctrl → Ctrl) : Grows s (State.modCtrl s fid f) := .of (by simp [State.modCtrl])

@[simp] theorem State.modSq_grows (s : State) (fid q : Nat) (f : NvSq → NvSq) : Grows s (State.modSq s fid q f) := .of (by simp [State.modSq])

@[simp] theorem State.modCq_grows (s : State) (fid q : Nat) (f : NvCq → NvCq) : Grows s (State.modCq s fid q f) := .of (by simp [State.modCq])

@[simp] theorem State.modCmd_grows (s : State) (seq : Nat) (f : NvCmd → NvCmd) : Grows s (State.modCmd s seq f) := .of (by simp [State.modCmd])

@[simp] theorem shutdownCheck_grows (fid : Nat) (s : State) : Grows s (shutdownCheck fid s) := .of (by simp [shutdownCheck])

@[simp] theorem lockRelease_grows (seq : Nat) (s : State) : Grows s (lockRelease seq s) := .of (by simp [lockRelease])

@[simp] theorem nvRelease_grows (seq : Nat) (s : State) : Grows s (nvRelease seq s) := .of <| by
  unfold nvRelease
  split <;> simp

@[simp] theorem nvDone_grows (seq sct sc : Nat) (dnr : Option Bool) (s : State) : Grows s (nvDone seq sct sc dnr s) := .of <| by
  unfold nvDone
  dsimp only
  repeat' split
  all_goals simp

@[simp] theorem nvOk_grows (seq : Nat) (s : State) : Grows s (nvOk seq s) := .of (by simp [nvOk])

@[simp] theorem logError_grows (fid sqid cid status lba nsid : Nat) (s : State) :
    Grows s (logError fid sqid cid status lba nsid s) := .of (by simp [logError])

@[simp] theorem asyncPump_grows (fid : Nat) (s : State) : Grows s (asyncPump fid s) := .of <| by
  unfold asyncPump
  dsimp only
  split <;> simp

@[simp] theorem asyncEvent_grows (fid t i l : Nat) (s : State) : Grows s (asyncEvent fid t i l s) := .of (by simp [asyncEvent])

@[simp] theorem State.putVol_grows (s : State) (h : Nat) (v : Volume) : Grows s (State.putVol s h v) := .of (by simp [State.putVol])

@[simp] theorem volSettle_grows (h : Nat) (s : State) : Grows s (volSettle h s) := .of <| by
  unfold volSettle
  split <;> simp

@[simp] theorem volOpen_grows (h : Nat) (s : State) : Grows s (volOpen h s) := .of <| by
  unfold volOpen
  split <;> simp

@[simp] theorem volRetry_grows (h : Nat) (s : State) : Grows s (volRetry h s) := .of <| by
  unfold volRetry
  split <;> simp

@[simp] theorem volReopen_grows (slot : Nat) (s : State) : Grows s (volReopen slot s) := .of (by simp [volReopen])

@[simp] theorem storageCharge_grows (n : Nat) (s : State) : Grows s (storageCharge n s) := .of (by simp [storageCharge])

@[simp] theorem backGo_grows (b : BackCmd) (s : State) : Grows s (backGo b s) := .of (by simp [backGo])

@[simp] theorem backPump_grows (s : State) : Grows s (backPump s) := .of (by simp [backPump])

@[simp] theorem nextTag_grows (s : State) : Grows s (nextTag s).2 := .of (by simp [nextTag])

@[simp] theorem backIssue_grows (backend rep op : Nat) (for_ : BackFor) (off len lba : Nat) (data : List Byte) (s : State) :
    Grows s (backIssue backend rep op for_ off len lba data s) := .of (by simp [backIssue])

@[simp] theorem backDrop_grows (p : BackCmd → Bool) (s : State) : Grows s (backDrop p s) := .of (by simp [backDrop])

@[simp] theorem zeroNext_grows (h i off : Nat) (s : State) : Grows s (zeroNext h i off s) := .of <| by
  unfold zeroNext
  split <;> simp

@[simp] theorem volZero_grows (h : Nat) (s : State) : Grows s (volZero h s) := .of <| by
  unfold volZero
  split <;> simp

@[simp] theorem readPart_grows (c : NvCmd) (v : Volume) (rep off len : Nat) (s : State) :
    Grows s (readPart c v rep off len s) := .of (by simp [readPart])

@[simp] theorem failPair_grows (c : NvCmd) (s : State) : Grows s (failPair c s) := .of <| by
  unfold failPair
  repeat' split
  all_goals simp

@[simp] theorem nvFail_grows (c : NvCmd) (sct sc : Nat) (dnr : Option Bool) (s : State) : Grows s (nvFail c sct sc dnr s) := .of (by simp [nvFail])

@[simp] theorem readAgain_grows (c : NvCmd) (b : BackCmd) (s : State) : Grows s (readAgain c b s) := .of <| by
  unfold readAgain
  dsimp only
  repeat' split
  all_goals simp

@[simp] theorem intentClear_grows (c : NvCmd) (s : State) : Grows s (intentClear c s) := .of <| by
  unfold intentClear
  split <;> simp

@[simp] theorem reconciled_grows (h : Nat) (s : State) : Grows s (reconciled h s) := .of <| by
  unfold reconciled
  split <;> simp

@[simp] theorem writeCheck_grows (seq : Nat) (s : State) : Grows s (writeCheck seq s) := .of <| by
  unfold writeCheck
  split <;> simp

@[simp] theorem backFailed_grows (b : BackCmd) (s : State) : Grows s (backFailed b s) := .of <| by
  unfold backFailed
  repeat' split
  all_goals simp

@[simp] theorem repMark_grows (h i : Nat) (s : State) : Grows s (repMark h i s) := .of <| by
  unfold repMark
  split <;> simp

@[simp] theorem degradeRep_grows (h i : Nat) (s : State) : Grows s (degradeRep h i s) := .of <| by
  unfold degradeRep
  split <;> simp

@[simp] theorem setBack_grows (b st : Nat) (s : State) : Grows s (setBack b st s) := .of <| by
  unfold setBack
  split <;> simp

@[simp] theorem backLost_grows (b : Nat) (s : State) : Grows s (backLost b s) := .of (by simp [backLost])

@[simp] theorem lockAdd_grows (l : List Lock) (s : State) : Grows s (lockAdd l s) := .of (by simp [lockAdd])

@[simp] theorem rebuildPump_grows (steps h : Nat) (s : State) : Grows s (rebuildPump steps h s) := by
  induction steps generalizing s with
  | zero => exact .refl _
  | succ fuel ih =>
    refine .of ?_
    rw [rebuildPump]
    split
    · exact .refl _
    · dsimp only
      split_ifs <;> simp [ih]

@[simp] theorem rebuildStart_grows (h : Nat) (reps : List Nat) (s : State) : Grows s (rebuildStart h reps s) := .of <| by
  unfold rebuildStart
  split <;> simp

@[simp] theorem autoRebuild_grows (h : Nat) (s : State) : Grows s (autoRebuild h s) := .of <| by
  unfold autoRebuild
  split <;> simp

@[simp] theorem storageTick_grows (s : State) : Grows s (storageTick s) := .of (by simp [storageTick])

@[simp] theorem cmdOff_grows (c : NvCmd) (s : State) : Grows s (cmdOff c s) := .of (by simp [cmdOff])

@[simp] theorem ctrlOff_grows (fid : Nat) (s : State) : Grows s (ctrlOff fid s) := .of (by simp [ctrlOff])

@[simp] theorem nvmeReset_grows (fid : Nat) (s : State) : Grows s (nvmeReset fid s) := .of (by simp [nvmeReset])

@[simp] theorem nvmeFence_grows (fid : Nat) (s : State) : Grows s (nvmeFence fid s) := .of (by simp [nvmeFence])

@[simp] theorem nvmeFatal_grows (fid : Nat) (s : State) : Grows s (nvmeFatal fid s) := .of (by simp [nvmeFatal])

@[simp] theorem storageContain_grows (s : State) : Grows s (storageContain s) := .of (by simp [storageContain])

@[simp] theorem nvmeReadFailed_grows (fid qid cid : Nat) (s : State) : Grows s (nvmeReadFailed fid qid cid s) := .of <| by
  unfold nvmeReadFailed
  repeat' split
  all_goals simp

@[simp] theorem ccEnable_grows (fid v : Nat) (s : State) : Grows s (ccEnable fid v s) := .of (by simp [ccEnable])

@[simp] theorem ccShutdown_grows (fid v : Nat) (s : State) : Grows s (ccShutdown fid v s) := .of (by simp [ccShutdown])

@[simp] theorem ccWrite_grows (fid value : Nat) (s : State) : Grows s (ccWrite fid value s) := .of (by simp [ccWrite])

@[simp] theorem badDoorbell_grows (fid info : Nat) (s : State) : Grows s (badDoorbell fid info s) := .of (by simp [badDoorbell])

@[simp] theorem sqDoorbell_grows (fid q v : Nat) (s : State) : Grows s (sqDoorbell fid q v s) := .of <| by
  unfold sqDoorbell
  dsimp only
  repeat' split
  all_goals simp

@[simp] theorem cqDoorbell_grows (fid q v : Nat) (s : State) : Grows s (cqDoorbell fid q v s) := .of <| by
  unfold cqDoorbell
  dsimp only
  repeat' split
  all_goals simp

@[simp] theorem nvmeRegWrite_grows (fid off size v : Nat) (s : State) : Grows s (nvmeRegWrite fid off size v s) := .of (by simp [nvmeRegWrite])

/-! ### Partition regions as memory -/

@[simp] theorem partWr_grows (p a : Nat) (bs : List Byte) (s : State) : Grows s (partWr p a bs s) := .of (by simp [partWr])

@[simp] theorem partZero_grows (p : Nat) (s : State) : Grows s (partZero p s) := .of (by simp [partZero])

/-! ### Partitions started and stopped -/

@[simp] theorem ctxFreeze_grows (i : Nat) (on : Bool) (s : State) : Grows s (ctxFreeze i on s) := .of (by simp [ctxFreeze])

@[simp] theorem ctxRelease_grows (i : Nat) (s : State) : Grows s (ctxRelease i s) := .of (by simp [ctxRelease])

@[simp] theorem ctxThaw_grows (fid : Nat) (s : State) : Grows s (ctxThaw fid s) := .of (by simp [ctxThaw])

@[simp] theorem handleFree_grows (h : Nat) (s : State) : Grows s (handleFree h s) := .of <| by
  unfold handleFree
  split <;> simp

@[simp] theorem commitsFail_grows (q : Part) (s : State) : Grows s (commitsFail q s) := by
  refine foldl_grows (fun s e => (foldl_grows (fun s tid => ?_) _ s).rises) _ s
  split <;> simp

@[simp] theorem partStop_grows (p : Nat) (s : State) : Grows s (partStop p s) := .of <| by
  unfold partStop
  split <;> simp

@[simp] theorem partStart_grows (p : Nat) (s : State) : Grows s (partStart p s) := .of <| by
  unfold partStart
  split <;> simp

@[simp] theorem clusterContain_grows (c : Nat) (s : State) : Grows s (clusterContain c s) := .of (by simp [clusterContain])

@[simp] theorem startVendor_grows (f : Part → Bool) (s : State) : Grows s (startVendor f s) := .of (by simp [startVendor])

@[simp] theorem restartVendor_grows (c : Nat) (s : State) : Grows s (restartVendor c s) := .of (by simp [restartVendor])

@[simp] theorem coreRegrown_grows (c i : Nat) (s : State) : Grows s (coreRegrown c i s) := .of (by simp [coreRegrown])

@[simp] theorem controlMsg_grows (part : Nat) (words : List Nat) (s : State) : Grows s (controlMsg part words s) := .of (by simp [controlMsg])

@[simp] theorem mgmt0Deliver_grows (frame : List Byte) (s : State) : Grows s (mgmt0Deliver frame s) := .of <| by
  unfold mgmt0Deliver
  extract_lets ch p span
  dsimp only
  split
  all_goals
    rename_i e
    simp [Grows.of_fst (hwDeliver_grows ..) e]

@[simp] theorem mgmt0Send_grows (frame : List Byte) (s : State) : Grows s (mgmt0Send frame s) := .of <| by
  unfold mgmt0Send
  dsimp only
  split <;> simp

@[simp] theorem mgmt0Commit_grows (p : Nat) (m : Msg) (s : State) : Grows s (mgmt0Commit p m s) := .of (by simp [mgmt0Commit])

/-! ### Recovery machines, safe state and Regrowth -/

@[simp] theorem regrowBegin_grows (kind phys spare source : Nat) (s : State) : Grows s (regrowBegin kind phys spare source s) := .of <| by
  unfold regrowBegin
  split <;> simp

@[simp] theorem autoRegrow_grows (kind phys source : Nat) (s : State) : Grows s (autoRegrow kind phys source s) := .of <| by
  unfold autoRegrow
  repeat' split
  all_goals simp

@[simp] theorem fenceFn_grows (cause : Option Nat) (fid : Nat) (s : State) : Grows s (fenceFn cause fid s) := .of (by simp [fenceFn])

@[simp] theorem fenceMbx_grows (fid cause : Nat) (s : State) : Grows s (fenceMbx fid cause s) := .of (by simp [fenceMbx])

@[simp] theorem fencePort_grows (s : State) (n : Nat) : Grows s (fencePort s n) := .of (by simp [fencePort])

@[simp] theorem safeState_grows (dkind unit : Nat) (s : State) : Grows s (safeState dkind unit s) := .of <| by
  unfold safeState
  split <;> simp

@[simp] theorem containDom_grows (d : Dom) (s : State) : Grows s (containDom d s) := .of (by cases d <;> simp [containDom])

@[simp] theorem finalFence_grows (d : Dom) (source action detail : Nat) (s : State) : Grows s (finalFence d source action detail s) := .of <| by
  unfold finalFence
  repeat' split
  all_goals simp

@[simp] theorem spareWarn_grows (before s : State) : Grows s (spareWarn before s) := .of (by simp [spareWarn])

@[simp] theorem regrowEnd_grows (kind : Nat) (ok : Bool) (s : State) : Grows s (regrowEnd kind ok s) := .of <| by
  unfold regrowEnd
  split
  · exact .refl _
  · dsimp only
    split_ifs
    all_goals
      repeat' split
      all_goals simp

@[simp] theorem originalFault_grows (d : Dom) (source detail : Nat) (s : State) :
    Grows s (originalFault d source detail s) := .of (by simp [originalFault])

@[simp] theorem spareFault_grows (d : Dom) (source detail : Nat) (s : State) : Grows s (spareFault d source detail s) := .of <| by
  unfold spareFault
  dsimp only
  split <;> simp

@[simp] theorem eftFault_grows (source stage : Nat) (s : State) : Grows s (eftFault source stage s) := .of (by simp [eftFault])

@[simp] theorem domFault_grows (d : Dom) (source detail : Nat) (s : State) : Grows s (domFault d source detail s) := .of <| by
  unfold domFault
  repeat' split
  all_goals simp

@[simp] theorem domEvent_grows (d : Dom) (source detail : Nat) (s : State) : Grows s (domEvent d source detail s) := .of (by simp [domEvent])

@[simp] theorem domClear_grows (d : Dom) (s : State) : Grows s (domClear d s) := .of (by simp [domClear])

/-! ### The mailbox engine, and the frame of its commands -/

@[simp] theorem scatter_grows (fid : Nat) (l : List (Nat × Nat)) (bs : List Byte) (s : State) : Grows s (scatter fid l bs s) := by
  induction l generalizing bs s with
  | nil => exact .refl s
  | cons e r ih => exact .of (by simp [scatter, ih])

@[simp] theorem putResponse_grows (m : MbxId) (r : Req) (rspList : List (Nat × Nat)) (status detail full : Nat) (body : List Byte) (s : State) :
    Grows s (putResponse m r rspList status detail full body s) := .of <| by
  unfold putResponse
  dsimp only
  split <;> simp

@[simp] theorem respond_grows (m : MbxId) (r : Req) (rspList : List (Nat × Nat)) (status detail : Nat) (payload : List Byte)
    (hdr unit : Nat) (s : State) : Grows s (respond m r rspList status detail payload hdr unit s) := .of (by simp [respond])

@[simp] theorem answerAll_grows (m : MbxId) (status : Nat) (s : State) : Grows s (answerAll m status s) := .of (by simp [answerAll])

@[simp] theorem finishCur_grows (m : MbxId) (status detail : Nat) (payload : List Fld) (s : State) :
    Grows s (finishCur m status detail payload s) := .of <| by
  unfold finishCur
  split <;> simp

@[simp] theorem finishWait_grows (w : Wait → Bool) (status detail : Nat) (payload : List Fld) (s : State) :
    Grows s (finishWait w status detail payload s) := .of (by simp [finishWait])

@[simp] theorem detachPump_grows (s : State) : Grows s (detachPump s) := .of (by simp [detachPump])

@[simp] theorem roleFault_grows (m : MbxId) (s : State) : Grows s (roleFault m s) := .of <| by
  unfold roleFault
  split <;> simp

theorem answerWith_grows {x : XCall} {write : State → State} {s : State} (h : Grows s (write s)) : Grows s (answerWith x write s) := by
  unfold answerWith
  split
  · split
    · exact h
    · exact .of (by simp)
  · exact h

theorem xcs_grows {x : XCall} {isOp : Nat → Bool} {body : Call → State → State × Reply} (h : ∀ c s, Grows s (body c s).1) (s : State) :
    Grows s (xcs x isOp body s) := by
  unfold xcs
  dsimp only
  split
  · exact .refl s
  · have hbegun (f : Mailbox → Mailbox) : Grows s (s.modMbx x.mbx f) := .of (by simp)
    repeat' split
    · exact .refl s
    · exact (hbegun _).trans (answerWith_grows (respond_grows ..))
    · exact (hbegun _).trans ((roleFault_grows ..).trans (answerWith_grows (respond_grows ..)))
    · exact (hbegun _).trans (answerWith_grows (respond_grows ..))
    · exact (hbegun _).trans (answerWith_grows (respond_grows ..))
    next e => exact (hbegun _).trans ((Grows.of_fst (h ..) e).trans (answerWith_grows (respond_grows ..)))
    next e => exact (hbegun _).trans ((Grows.of_fst (h ..) e).trans (answerWith_grows (putResponse_grows ..)))
    next e => exact (hbegun _).trans ((Grows.of_fst (h ..) e).trans (.of (by simp)))
    next e => exact (hbegun _).trans ((Grows.of_fst (h ..) e).trans (.of (by simp)))

theorem xop_grows {x : XCall} {op : Nat} {body : Call → State → State × Reply} (h : ∀ c s, Rises s.ctr (body c s).1.ctr) (s : State) :
    Grows s (xop x op body s) :=
  xcs_grows (fun c s => .of (h c s)) s

theorem reads_grows (f : Call → State → Reply) (c : Call) (s : State) : Grows s (reads f c s).1 := .refl s

/-! ### What device time sets off -/

@[simp] theorem minuteBoundary_grows (s : State) : Grows s (minuteBoundary s) := .of (by simp [minuteBoundary])

@[simp] theorem timerFire_grows (ch : Nat) (s : State) : Grows s (timerFire ch s) := .of (by simp [timerFire])

@[simp] theorem fireTimed_grows (old : Nat) (s : State) : Grows s (fireTimed old s) := .of <| by
  unfold fireTimed
  dsimp only
  split <;> simp

/-! ### Time, governor and arbiter -/

@[simp] theorem moveTime_grows (t : Nat) (s : State) : Grows s (moveTime t s) := .of (by simp [moveTime])

@[simp] theorem avsWrite_grows (v : Nat) (s : State) : Grows s (avsWrite v s) := .of (by simp [avsWrite])

@[simp] theorem markWorn_grows (kind phys : Nat) (s : State) : Grows s (markWorn kind phys s) := .of (by simp [markWorn])

@[simp] theorem governorLoop_grows (s : State) : Grows s (governorLoop s) := .of <| by
  unfold governorLoop
  split <;> simp

@[simp] theorem noteBaseline_grows (cluster : Bool) (unit rate : Nat) (s : State) :
    Grows s (noteBaseline cluster unit rate s) := .of (by simp [noteBaseline])

@[simp] theorem countLapse_grows (old : List (Nat × Nat)) (el : List (Nat × Nat)) (s : State) (r : EpochReq) :
    Grows s (countLapse old el s r) := .of (by simp [countLapse])

@[simp] theorem countIdle_grows (reqs : List EpochReq) (s : State) (e : Nat × Nat) : Grows s (countIdle reqs s e) := .of (by simp [countIdle])

@[simp] theorem lendOut_grows (l : LendReq) (s : State) : Grows s (lendOut l s).1 := .of <| by
  unfold lendOut
  dsimp only
  split_ifs <;> simp

/-! ### Lanes, Ethernet ports and MGMT0 -/

@[simp] theorem portDown_grows (n cause newState : Nat) (s : State) : Grows s (portDown n cause newState s) := .of (by simp [portDown])

@[simp] theorem portFail_grows (n : Nat) (s : State) : Grows s (portFail n s) := .of (by simp [portFail])

@[simp] theorem laneFail_grows (l : Nat) (s : State) : Grows s (laneFail l s) := .of <| by
  unfold laneFail
  dsimp only
  repeat' split
  all_goals simp

@[simp] theorem portComesUp_grows (n : Nat) (p : EthPort) (s : State) : Grows s (portComesUp n p s) := .of (by simp [portComesUp])

@[simp] theorem trainFailed_grows (p : EthPort) (failed : Nat) (s : State) : Grows s (trainFailed p failed s) := .of (by simp [trainFailed])

@[simp] theorem State.setPort_grows (s : State) (n : Nat) (p : EthPort) : Grows s (State.setPort s n p) := .of (by simp [State.setPort])

@[simp] theorem yieldLanes_grows (c : PortCfg) (s : State) : Grows s (yieldLanes c s) := .of (by simp [yieldLanes])

@[simp] theorem laneDiag_grows (lane func pattern : Nat) (measured : List Nat) (s : State) :
    Grows s (laneDiag lane func pattern measured s).1 := .of <| by
  unfold laneDiag
  dsimp only
  repeat' split
  all_goals simp

/-! ### Fetch, fences and shutdown of the rings -/

@[simp] theorem fenceRing_grows (fid r cause : Nat) (s : State) : Grows s (fenceRing fid r cause s) := .of (by simp [fenceRing])

@[simp] theorem readIndex_grows (fid r : Nat) (s : State) : Grows s (readIndex fid r s) := .of (by simp [readIndex])

@[simp] theorem mbxReadIndex_grows (fid : Nat) (s : State) : Grows s (mbxReadIndex fid s) := .of (by simp [mbxReadIndex])

@[simp] theorem mbxDoorbell_grows (fid : Nat) (s : State) : Grows s (mbxDoorbell fid s) := .of (by simp [mbxDoorbell])

@[simp] theorem mbxKick_grows (fid : Nat) (s : State) : Grows s (mbxKick fid s) := .of (by simp [mbxKick])

@[simp] theorem mbxIndexDone_grows (fid q : Nat) (s : State) : Grows s (mbxIndexDone fid q s) := .of (by simp [mbxIndexDone])

@[simp] theorem mbxSlotsDone_grows (fid n : Nat) (data : List Byte) (s : State) :
    Grows s (mbxSlotsDone fid n data s) := .of (by simp [mbxSlotsDone])

@[simp] theorem ringEnable_grows (fid r : Nat) (s : State) : Grows s (ringEnable fid r s) := .of (by simp [ringEnable])

@[simp] theorem drainEnd_grows (fid r : Nat) (wrote : Bool) (s : State) : Grows s (drainEnd fid r wrote s) := .of (by simp [drainEnd])

@[simp] theorem drainRing_grows (fid r : Nat) (s : State) : Grows s (drainRing fid r s) := .of (by simp [drainRing])

@[simp] theorem ringDisable_grows (fid r : Nat) (s : State) : Grows s (ringDisable fid r s) := .of (by simp [ringDisable])

@[simp] theorem ringCtlWrite_grows (fid r v : Nat) (s : State) : Grows s (ringCtlWrite fid r v s) := .of <| by
  unfold ringCtlWrite
  dsimp only
  split <;> simp

@[simp] theorem ringIndexDone_grows (fid ring q : Nat) (s : State) : Grows s (ringIndexDone fid ring q s) := .of (by simp [ringIndexDone])

@[simp] theorem indexDone_grows (fid : Nat) (of : IdxOf) (q : Nat) (s : State) : Grows s (indexDone fid of q s) := .of <| by
  unfold indexDone
  split <;> simp

@[simp] theorem cplResume_grows (fid c : Nat) (s : State) : Grows s (cplResume fid c s) := .of (by simp [cplResume])

@[simp] theorem cplCiWrite_grows (fid r c : Nat) (s : State) : Grows s (cplCiWrite fid r c s) := .of (by simp [cplCiWrite])

/-! ### Function and port resets, a function's registers, and windows -/

@[simp] theorem resetFn_grows (fid : Nat) (s : State) : Grows s (resetFn fid s) := .of (by simp [resetFn])

@[simp] theorem resetUnprov_grows (port pf : Nat) (s : State) : Grows s (resetUnprov port pf s) := .of (by simp [resetUnprov])

@[simp] theorem resetVfs_grows (fid : Nat) (s : State) : Grows s (resetVfs fid s) := .of (by simp [resetVfs])

@[simp] theorem portReset_grows (n : Nat) (s : State) : Grows s (portReset n s) := .of (by simp [portReset])

@[simp] theorem bmeClear_grows (fid : Nat) (s : State) : Grows s (bmeClear fid s) := .of (by simp [bmeClear])

@[simp] theorem unfence_grows (fid : Nat) (s : State) : Grows s (unfence fid s) := .of (by simp [unfence])

@[simp] theorem notifyVf_grows (fid : Nat) (s : State) : Grows s (notifyVf fid s) := .of (by simp [notifyVf])

@[simp] theorem notifyPf_grows (fid : Nat) (s : State) : Grows s (notifyPf fid s) := .of (by simp [notifyPf])

@[simp] theorem clearPend_grows (pf i v : Nat) (s : State) : Grows s (clearPend pf i v s) := .of (by simp [clearPend])

@[simp] theorem mbxEnable_grows (fid : Nat) (s : State) : Grows s (mbxEnable fid s) := .of (by simp [mbxEnable])

@[simp] theorem mbxDisable_grows (m : MbxId) (s : State) : Grows s (mbxDisable m s) := .of (by simp [mbxDisable])

@[simp] theorem mbxCtlWrite_grows (fid v : Nat) (s : State) : Grows s (mbxCtlWrite fid v s) := .of <| by
  unfold mbxCtlWrite
  split <;> simp

@[simp] theorem mbxWrite_grows (fid off v : Nat) (s : State) : Grows s (mbxWrite fid off v s) := .of <| by
  unfold mbxWrite
  split <;> simp

@[simp] theorem ringWrite_grows (fid r off v : Nat) (s : State) : Grows s (ringWrite fid r off v s) := .of <| by
  unfold ringWrite
  split <;> simp

@[simp] theorem msixWrite_grows (fid word v : Nat) (s : State) : Grows s (msixWrite fid word v s) := .of (by simp [msixWrite])

@[simp] theorem fnRegWrite_grows (fid off v : Nat) (s : State) : Grows s (fnRegWrite fid off v s) := .of (by simp [fnRegWrite])

@[simp] theorem bar2Write_grows (fid off size v : Nat) (s : State) : Grows s (bar2Write fid off size v s) := .of <| by
  unfold bar2Write
  dsimp only
  repeat' split
  all_goals simp

@[simp] theorem barWrite_grows (fid bar off size v : Nat) (s : State) : Grows s (barWrite fid bar off size v s) := .of <| by
  unfold barWrite
  repeat' split
  all_goals simp

@[simp] theorem State.modUnprov_grows (s : State) (port pf vf : Nat) (f : Unprov → Unprov) :
    Grows s (State.modUnprov s port pf vf f) := .of (by simp [State.modUnprov])

@[simp] theorem winAccess_grows (fid off len : Nat) (write : Bool) (data : List Byte) (i : Nat) (w : Win) (stalled : Bool) (s : State) :
    Grows s (winAccess fid off len write data i w stalled s) := .of <| by
  unfold winAccess
  dsimp only
  repeat' split
  all_goals simp

/-! ### Firmware and microcode images -/

@[simp] theorem loadSvc_grows (part : Nat) (l : List Byte) (s : State) : Grows s (loadSvc part l s) := .of (by simp [loadSvc])

@[simp] theorem compFault_grows (s : State) : Grows s (compFault s) := .of (by simp [compFault])

@[simp] theorem installPatches_grows (sl : Slot) (pads : List Nat) (s : State) :
    Grows s (installPatches sl pads s) := .of (by simp [installPatches])

@[simp] theorem loadVendor_grows (sl : Slot) (p : Nat) (s : State) : Grows s (loadVendor sl p s) := .of <| by
  unfold loadVendor
  dsimp only
  repeat' split
  all_goals simp

@[simp] theorem fwLeap_grows (slot : Nat) (s : State) : Grows s (fwLeap slot s) := .of (by simp [fwLeap])

/-! ### Slots, trust and the Eft -/

@[simp] theorem releaseSlot_grows (i reason : Nat) (s : State) : Grows s (releaseSlot i reason s) := .of (by simp [releaseSlot])

@[simp] theorem reloadVendor_grows (slot : Nat) (s : State) : Grows s (reloadVendor slot s) := .of (by simp [reloadVendor])

@[simp] theorem confirmSlot_grows (i : Nat) (s : State) : Grows s (confirmSlot i s) := .of (by simp [confirmSlot])

@[simp] theorem activateWords_grows (i : Nat) (trial : Bool) (s : State) : Grows s (activateWords i trial s) := .of (by simp [activateWords])

@[simp] theorem restartEft_grows (s : State) : Grows s (restartEft s) := .of <| by
  unfold restartEft
  split <;> simp

@[simp] theorem abandonFull_grows (i : Nat) (trial : Bool) (st : Nat) (s : State) :
    Grows s (abandonFull i trial st s) := .of (by simp [abandonFull])

/-! ### The commands of the Lily Pads -/

@[simp] theorem shadowWrite_grows (f : Pad → Pad) (s : State) : Grows s (shadowWrite f s) := .of (by simp [shadowWrite])

@[simp] theorem spraySlots_grows (g : Nat) (s : State) : Grows s (spraySlots g s) := .of <| by
  unfold spraySlots
  dsimp only
  repeat' split
  all_goals simp

@[simp] theorem trimSpray_grows (s : State) : Grows s (trimSpray s) := .of (by simp [trimSpray])

@[simp] theorem liveWrite_grows (pipes slot e : Nat) (s : State) : Grows s (liveWrite pipes slot e s).1 := .of <| by
  unfold liveWrite
  dsimp only
  split_ifs <;> simp

@[simp] theorem liveClear_grows (pipes slot : Nat) (s : State) : Grows s (liveClear pipes slot s).1 := .of (by simp [liveClear])

@[simp] theorem armChain_grows (time : Nat) (s : State) : Grows s (armChain time s) := .of (by simp [armChain])

@[simp] theorem padLeap_grows (mode expect time : Nat) (force : Bool) (s : State) : Grows s (padLeap mode expect time force s).1 := .of <| by
  unfold padLeap
  split_ifs <;> simp

@[simp] theorem padApply_grows (op : PadOp) (s : State) : Grows s (padApply op s).1 := .of <| by
  cases op with
  | write => simp only [padApply]; split <;> simp
  | group => simp only [padApply]; split <;> simp
  | _ => simp [padApply]

theorem padTurn_grows {op : PadOp} {s t : State} {r : Reply} (h : padTurn op s = some (t, r)) : Grows s t := by
  unfold padTurn at h
  split at h
  · cases h
    exact .refl s
  · split at h
    · cases h
    · exact .of_fst (padApply_grows op s) (Option.some.inj h)

@[simp] theorem padCmd_grows (op : PadOp) (s : State) : Grows s (padCmd op s).1 := by
  have hwait (n : Nat) : Grows s (s.modPkt (fun p => { p with leap := { p.leap with waitSeq := n } })) := .of (by simp)
  unfold padCmd
  dsimp only
  split
  · exact hwait _
  · cases h : padTurn op s with
    | none => exact hwait _
    | some x => exact padTurn_grows (t := x.1) (r := x.2) h

@[simp] theorem rewait_grows (w w' : Wait) (s : State) : Grows s (rewait w w' s) := .of (by simp [rewait])

@[simp] theorem padResume_grows (m : MbxId) (timedOut : Bool) (s : State) : Grows s (padResume m timedOut s) := .of <| by
  unfold padResume
  split
  · exact .refl _
  · dsimp only
    split
    · exact .refl _
    · split
      next h => simp [padTurn_grows h]
      next h => simp [padTurn_grows h]
      next h => simp [padTurn_grows h]
      next h => simp [padTurn_grows h]
      · split <;> simp

@[simp] theorem queueMap_grows (q : QMap) (c : Call) (s : State) : Grows s (queueMap q c s).1 := .of <| by
  unfold queueMap
  repeat' split
  all_goals simp

/-! ### The action engines -/

@[simp] theorem putCtx_grows (pipe : Nat) (c : Ctx) (s : State) : Grows s (putCtx pipe c s) := .of (by simp [putCtx])

@[simp] theorem endCtx_grows (pipe id : Nat) (s : State) : Grows s (endCtx pipe id s) := .of (by simp [endCtx])

@[simp] theorem finishPkt_grows (c : Ctx) (punt : Bool) (s : State) : Grows s (finishPkt c punt s) := .of (by simp [finishPkt])

@[simp] theorem settlePipe_grows (pipe steps : Nat) (s : State) : Grows s (settlePipe pipe steps s) := by
  induction steps generalizing s with
  | zero => exact .refl _
  | succ fuel ih =>
    refine .of ?_
    rw [settlePipe]
    split <;> simp [ih]

theorem engineTurn_grows (turn : PipeTurn) {f : State → State} (h : ∀ s, Rises s.ctr (f s).ctr) (s : State) :
    Grows s (engineTurn turn f s) :=
  .of (by simp [engineTurn, fun s => Grows.of (h s)])

@[simp] theorem lookupDone_grows (c : Ctx) (tbl key : Nat) (s : State) : Grows s (lookupDone c tbl key s).2 := .of <| by
  unfold lookupDone
  dsimp only
  split
  case h_4 =>
    split
    next h => simp [Grows.of_snd (flowLook_grows ..) h]
    next h => simp [Grows.of_snd (flowLook_grows ..) h]
  all_goals simp

@[simp] theorem policeDone_grows (c : Ctx) (i colour : Nat) (s : State) : Grows s (policeDone c i colour s).2 := .of (by simp [policeDone])

@[simp] theorem writeState_grows (e v : Nat) (s : State) : Grows s (writeState e v s) := .of (by simp [writeState])

@[simp] theorem scratchPut_grows (pipe a v : Nat) (s : State) : Grows s (scratchPut pipe a v s) := .of (by simp [scratchPut, State.modPkt])

@[simp] theorem memDone_grows (c : Ctx) (op a v : Nat) (key : Option Nat) (s : State) : Grows s (memDone c op a v key s).2 := .of <| by
  unfold memDone
  dsimp only
  repeat' split
  all_goals simp

@[simp] theorem cryIssue_grows (op : Nat) (routine : Bool) (c : Ctx) (s : State) : Grows s (cryIssue op routine c s).2 := .of <| by
  unfold cryIssue
  dsimp only
  split_ifs <;> simp

@[simp] theorem csumVerify_grows (c : Ctx) (kind : Nat) (s : State) : Grows s (csumVerify c kind s).2 := .of <| by
  unfold csumVerify
  dsimp only
  repeat' split
  all_goals simp

@[simp] theorem lbResolve_grows (c : Ctx) (s : State) : Grows s (lbResolve c s).2 := by
  unfold lbResolve
  split
  · split
    next h => exact .of_snd (chooseMember_grows ..) h
    next h => exact .of_snd (chooseMember_grows ..) h
  · split <;> exact .refl s

@[simp] theorem cntAdd_grows (pipe idx bytes : Nat) (s : State) : Grows s (cntAdd pipe idx bytes s) := .of (by simp [cntAdd])

@[simp] theorem opEffect_grows (c : Ctx) (op : MOp) (s : State) : Grows s (opEffect c op s) := .of <| by
  unfold opEffect
  split
  · simp
  · simp
  · simp
  · split
    · next e => exact (ckvSegment_grows e).rises
    · exact .refl _
  · exact .refl _
  · exact .refl _

@[simp] theorem flushOps_grows (c : Ctx) (s : State) : Grows s (flushOps c s) := foldl_grows (fun s o => (opEffect_grows c o s).rises) _ s

@[simp] theorem faultEnd_grows (c : Ctx) (code addr : Nat) (s : State) : Grows s (faultEnd c code addr s) := .of (by simp [faultEnd])

@[simp] theorem runWord_grows (c : Ctx) (addr w : Nat) (s : State) : Grows s (runWord c addr w s) := .of <| by
  unfold runWord
  extract_lets k pipe cust
  split
  · simp
  rename_i c1 c2 s1 _ _
  have hcnt : Grows s s1 := .of <| by
    simp only [s1]
    split <;> simp
  clear_value s1 c2
  split
  rename_i c3 s2 hsum
  have hsum' : Grows s s2 := .of_snd (.of (by split <;> simp [hcnt])) hsum
  split
  rename_i c4 s3 hlb
  have hlb' : Grows s s3 := .of_snd (.of (by split <;> simp [hsum'])) hlb
  extract_lets s4
  have hpunt : Grows s s4 := .of <| by
    simp only [s4]
    split <;> simp [hlb']
  clear_value s4
  split
  rename_i c5 s5 hcry
  have hcry' : Grows s s5 := .of_snd (.of (by split <;> simp [hpunt])) hcry
  split
  · simp [hcry']
  · split <;> simp [hcry']

@[simp] theorem tryEdit_grows (e : Edit) (x : Ctx × State × Option Nat) : Grows x.2.1 (tryEdit e x).2.1 := by
  unfold tryEdit
  dsimp only
  split
  · exact .refl _
  · split_ifs <;> exact .refl _

@[simp] theorem decap_grows (c : Ctx) (s : State) : Grows s (decap c s).2.1 := .of <| by
  unfold decap
  dsimp only
  split <;> simp

@[simp] theorem exportRun_grows (i : Nat) (c : Ctx) (s : State) : Grows s (exportRun i c s).2.1 := .of <| by
  unfold exportRun
  extract_lets k g ed just both look
  dsimp only
  split
  all_goals simp [ed, just, both, look, apply_ite Prod.fst, apply_ite Prod.snd]

@[simp] theorem clobber_grows (i : Nat) (c : Ctx) (s : State) : Grows s (clobber i c s).2 := .of <| by
  unfold clobber
  split
  · exact .refl _
  · dsimp only
    rw [State.drawBelow_ctr]
    refine Grows.rises (List.foldlRecOn (motive := fun x : Ctx × State => Grows s x.2) (List.range 8) _ (.of ?_) fun x hx j _ => .of ?_)
    · rw [State.drawBelow_ctr]
      exact .refl _
    · rw [State.drawBelow_ctr]
      exact hx.rises

@[simp] theorem runFwd_grows (c : Ctx) (flow : Bool) (s : State) : Grows s (runFwd c flow s) := .of <| by
  unfold runFwd
  dsimp only
  split
  · simp
  split
  all_goals simp [apply_ite Prod.snd]

@[simp] theorem runExport_grows (c : Ctx) (i : Nat) (s : State) : Grows s (runExport c i s) := .of <| by
  unfold runExport
  extract_lets pipe
  dsimp only
  split
  · simp
  split
  · simp
  split
  · simp
  split
  · simp
  have hrun (c : Ctx) : Grows s (exportRun i c (s.drawBelow (exportWords i)).2).2.1 := .of (by simp)
  split
  next c' t code e =>
    have ht := hrun c
    rw [e] at ht
    exact ((show Grows s t from ht).trans (faultEnd_grows ..)).rises
  next c' t e =>
    have ht : Grows s t := by
      have ht := hrun c
      rwa [e] at ht
    split <;> simp [ht]

@[simp] theorem stepEngine_grows (pipe engine : Nat) (ecc : WordEcc) (s : State) : Grows s (stepEngine pipe engine ecc s) := .of <| by
  unfold stepEngine
  dsimp only
  repeat' split
  all_goals simp

@[simp] theorem ckvDone_grows (c : Ctx) (op cur : Nat) (key : Option Nat) (s : State) : Grows s (ckvDone c op cur key s) := .of <| by
  unfold ckvDone
  dsimp only
  split
  · exact .refl _
  rename_i st l t e
  split <;> simp [ckvSegment_grows e]

@[simp] theorem opComplete_grows (pipe id kind : Nat) (s : State) : Grows s (opComplete pipe id kind s) := .of <| by
  unfold opComplete
  dsimp only
  repeat' split
  all_goals simp

/-! ### Fault domains as commands -/

@[simp] theorem resumeDom_grows (d : Dom) (s : State) : Grows s (resumeDom d s) := .of <| by
  unfold resumeDom
  split <;> simp

/-! ### The storage data mover -/

@[simp] theorem piFail_grows (c : NvCmd) (i e : Nat) (s : State) : Grows s (piFail c i e s) := .of <| by
  unfold piFail
  dsimp only
  split <;> simp

@[simp] theorem stoPcwBad_grows (c : NvCmd) (path : Nat) (s : State) : Grows s (stoPcwBad c path s) := .of (by simp [stoPcwBad])

@[simp] theorem nvScatter_grows (fid : Nat) (l : List (Nat × Nat)) (bs : List Byte) (s : State) : Grows s (nvScatter fid l bs s) := by
  induction l generalizing bs s with
  | nil => exact .refl s
  | cons e r ih => exact .of (by simp [nvScatter, ih])

@[simp] theorem hostBlocks_grows (c : NvCmd) (bs : List (List Byte × List Byte)) (s : State) :
    Grows s (hostBlocks c bs s) := .of (by simp [hostBlocks])

@[simp] theorem moverSubmit_grows (c : NvCmd) (op : Nat) (s : State) : Grows s (moverSubmit c op s) := .of (by simp [moverSubmit])

@[simp] theorem writeData_grows (c : NvCmd) (data md : List Byte) (s : State) : Grows s (writeData c data md s) := .of <| by
  unfold writeData
  split <;> simp

@[simp] theorem readFinish_grows (c : NvCmd) (key : List Byte) (bad : Option Nat) (s : State) : Grows s (readFinish c key bad s) := .of <| by
  unfold readFinish
  dsimp only
  repeat' split
  all_goals simp

@[simp] theorem compareFinish_grows (c : NvCmd) (key : List Byte) (s : State) : Grows s (compareFinish c key s) := .of <| by
  unfold compareFinish
  dsimp only
  repeat' split
  all_goals simp

@[simp] theorem readReady_grows (c : NvCmd) (s : State) : Grows s (readReady c s) := .of <| by
  unfold readReady
  repeat' split
  all_goals simp

@[simp] theorem moverDone_grows (r : CipherReq) (seq st : Nat) (bad : Option Nat) (s : State) : Grows s (moverDone r seq st bad s) := .of <| by
  unfold moverDone
  dsimp only
  repeat' split
  all_goals simp

/-! ### The NVMe front end -/

@[simp] theorem ccOf_grows (fn : FnRef) (v : Nat) (s : State) : Grows s (ccOf fn v s) := .of <| by
  unfold ccOf
  split <;> simp

@[simp] theorem takeTurn_grows (fid qid : Nat) (s : State) : Grows s (takeTurn fid qid s) := .of (by simp [takeTurn])

@[simp] theorem enterCmd_grows (c : NvCmd) (err : Option (Nat × Nat)) (s : State) : Grows s (enterCmd c err s) := .of <| by
  unfold enterCmd
  split <;> simp

@[simp] theorem enterSecond_grows (a c : NvCmd) (s : State) : Grows s (enterSecond a c s) := .of <| by
  unfold enterSecond
  dsimp only
  repeat' split
  all_goals simp

@[simp] theorem withPtrs_grows (c : NvCmd) (lists : List (List Byte)) (mdList : List Byte) (s : State) :
    Grows s (withPtrs c lists mdList s).2 := .of <| by
  unfold withPtrs
  split <;> simp

@[simp] theorem fetchCmd_grows (fid qid sqe : Nat) (lists : List (List Byte)) (mdList : List Byte) (dsm : List (Nat × Nat))
    (composed : Bool) (s : State) : Grows s (fetchCmd fid qid sqe lists mdList dsm composed s) := .of <| by
  rw [fetchCmd]
  split
  · exact .refl _
  split
  · simp
  extract_lets q half s1 s2 c ns c1 c2
  clear_value half
  have hread : Grows s s2 := .of (by simp [s2, s1])
  have hptrs : Grows s (withPtrs c2 lists mdList s2).2 := hread.trans (withPtrs_grows ..)
  generalize withPtrs c2 lists mdList s2 = x at hptrs
  obtain ⟨d, s3⟩ := x
  dsimp -zeta only at hptrs ⊢
  extract_lets s4 more s5 s6
  have hranges : Grows s s4 := .of (by simp [s4, hptrs])
  have hhalf : Grows s s5 := .of <| by
    simp only [s5]
    split
    · split <;> simp [hranges]
    · exact hranges.rises
  split
  · simp [hhalf]
  split
  · split <;> simp [hhalf]
  split
  · simp [s6, hhalf]
  split <;> simp [hhalf]

@[simp] theorem moverTake_grows (i seq : Nat) (s : State) : Grows s (moverTake i seq s) := .of <| by
  unfold moverTake
  split <;> simp

@[simp] theorem readHost_grows (c : NvCmd) (s : State) : Grows s (readHost c s) := .of (by simp [readHost])

@[simp] theorem startCmd_grows (c : NvCmd) (s : State) : Grows s (startCmd c s) := .of <| by
  unfold startCmd
  split
  · dsimp only
    split <;> simp
  · dsimp only
    split
    · split <;> simp
    · split
      · simp
      · rw [foldl_grows (fun _ _ => by simp)]
        split <;> simp

@[simp] theorem cqNotify_grows (fid q : Nat) (s : State) : Grows s (cqNotify fid q s) := .of (by simp [cqNotify])

@[simp] theorem storageMeter_grows (c : NvCmd) (s : State) : Grows s (storageMeter c s) := .of (by simp [storageMeter])

@[simp] theorem ordPosted_grows (c : NvCmd) (s : State) : Grows s (ordPosted c s) := .of (by simp [ordPosted])

@[simp] theorem postCmd_grows (c : NvCmd) (s : State) : Grows s (postCmd c s) := .of (by simp [postCmd])

theorem admin_grows {fid cid opc : Nat} {f : NvCmd → State → State} (h : ∀ c s, Rises s.ctr (f c s).ctr) (s : State) :
    Grows s (admin fid cid opc f s) := by
  unfold admin
  split
  · exact .of (h _ s)
  · exact .refl s

@[simp] theorem abortCmd_grows (sc : Nat) (c : NvCmd) (s : State) : Grows s (abortCmd sc c s) := .of (by simp [abortCmd])

@[simp] theorem smartPage_grows (s : State) (fid : Nat) : Grows s (smartPage s fid).2 := by
  unfold smartPage
  exact List.foldlRecOn (motive := fun x : List Nat × State => Grows s x.2) (List.range 6) _ (.refl s) fun x hx j _ => hx

theorem logPage_grows {s t : State} {fid lid : Nat} {bs : List Byte} (h : logPage s fid lid = some (bs, t)) : Grows s t := by
  unfold logPage at h
  dsimp only at h
  split at h
  case h_2 => exact .of_snd (smartPage_grows ..) (Option.some.inj h)
  case h_6 => cases h
  all_goals
    obtain ⟨-, rfl⟩ := Prod.mk.inj (Option.some.inj h)
    exact .refl s

@[simp] theorem logRead_grows (fid lid : Nat) (s : State) : Grows s (logRead fid lid s) := .of <| by
  unfold logRead
  dsimp only
  split <;> simp

@[simp] theorem readEnd_grows (c : NvCmd) (s : State) : Grows s (readEnd c s) := .of (by simp [readEnd])

@[simp] theorem readRep_grows (h : Nat) (s : State) : Grows s (readRep h s).2 := .of <| by
  unfold readRep
  repeat' split
  all_goals simp

@[simp] theorem readIssue_grows (c : NvCmd) (s : State) : Grows s (readIssue c s) := .of <| by
  unfold readIssue
  split
  · exact .refl _
  · split
    next h => simp [Grows.of_snd (readRep_grows ..) h]
    next h =>
      split
      · exact .refl _
      · dsimp only
        split_ifs <;> simp [Grows.of_snd (readRep_grows ..) h]

/-! ### The volume service -/

@[simp] theorem writeRange_grows (c : NvCmd) (v : Volume) (i : Nat) (r : Nat × Nat) (s : State) :
    Grows s (writeRange c v i r s) := .of (by simp [writeRange])

@[simp] theorem intentTake_grows (c : NvCmd) (s : State) : Grows s (intentTake c s) := .of <| by
  unfold intentTake
  repeat' split
  all_goals simp

@[simp] theorem backGood_grows (b : BackCmd) (data : List Byte) (s : State) : Grows s (backGood b data s) := .of <| by
  unfold backGood
  dsimp only
  repeat' split
  all_goals simp

@[simp] theorem backBad_grows (b : BackCmd) (s : State) : Grows s (backBad b s) := .of (by simp [backBad])

@[simp] theorem backAnswer_grows (b : BackCmd) (good : Bool) (data : List Byte) (s : State) :
    Grows s (backAnswer b good data s) := .of (by simp [backAnswer])

@[simp] theorem pduCheck_grows (backend i : Nat) (p : PduIn) (s : State) : Grows s (pduCheck backend i p s) := .of <| by
  unfold pduCheck
  dsimp only
  repeat' split
  all_goals simp

@[simp] theorem recordDone_grows (h n : Nat) (s : State) : Grows s (recordDone h n s) := .of <| by
  unfold recordDone
  dsimp only
  split <;> simp

@[simp] theorem copyOut_grows (v : Volume) (src lba n : Nat) (dsts : List Nat) (data : List Byte) (s : State) :
    Grows s (copyOut v src lba n dsts data s) := .of (by simp [copyOut])

@[simp] theorem failMask_grows (h failed : Nat) (reps : List Nat) (s : State) : Grows s (failMask h failed reps s) := .of (by simp [failMask])

@[simp] theorem reconcileChunk_grows (h failed : Nat) (data : List Byte) (s : State) : Grows s (reconcileChunk h failed data s) := .of <| by
  unfold reconcileChunk
  dsimp only
  repeat' split
  all_goals simp

@[simp] theorem rebuildEnd_grows (h : Nat) (s : State) : Grows s (rebuildEnd h s) := .of <| by
  unfold rebuildEnd
  split <;> simp

@[simp] theorem rebuildChunk_grows (h lba failed : Nat) (data : List Byte) (s : State) : Grows s (rebuildChunk h lba failed data s) := .of <| by
  unfold rebuildChunk
  dsimp only
  repeat' split
  all_goals simp

@[simp] theorem nsChanged_grows (fid nsid : Nat) (s : State) : Grows s (nsChanged fid nsid s) := .of (by simp [nsChanged])

@[simp] theorem volRebuild_grows (handle mask : Nat) (s : State) : Grows s (volRebuild handle mask s).1 := .of <| by
  unfold volRebuild
  dsimp only
  repeat' split
  all_goals simp

/-! ### The cipher engine's completions and the key commands -/

@[simp] theorem espRun_grows (r : CipherReq) (k : Pkt) (s : State) : Grows s (espRun r k s).2.2 := .of <| by
  unfold espRun
  dsimp only
  split
  · simp
  · split
    · exact .refl _
    · split
      · exact .refl _
      · split <;> simp

@[simp] theorem pipeDone_grows (r : CipherReq) (pipe id st : Nat) (s : State) : Grows s (pipeDone r pipe id st s) := .of <| by
  unfold pipeDone
  split
  · split
    · exact .refl _
    · split
      rename_i st' l t e
      have ht : Grows s t := by
        have h := congrArg (fun x : Nat × List Byte × State => x.2.2) e
        dsimp only at h
        rw [← h]
        exact .of (by split <;> simp)
      extract_lets t1 t2 k c1 t3
      have ht1 : Grows s t1 := .of <| by
        simp only [t1]
        split <;> simp [ht]
      have ht2 : Grows s t2 := .of (by simp [t2, ht1])
      have ht3 : Grows s t3 := .of (by simp [t3, ht2])
      clear_value t3 t2 c1
      split
      · simp [ht3]
      · simp [ht2]
  · exact .refl _

@[simp] theorem threadDone_grows (r : CipherReq) (tid ch st : Nat) (s : State) : Grows s (threadDone r tid ch st s) := .of <| by
  unfold threadDone
  extract_lets p
  split
  · exact .refl _
  rename_i l zero _
  have hzero (t : State) : Grows t (zero t) := partWr_grows ..
  split
  rename_i st' t e
  have ht : Grows s t := .of <| by
    rw [show t = _ from (congrArg Prod.snd e).symm]
    split
    · split
      · simp
      · exact (hzero s).rises
    · simp [hzero]
    · exact .refl _
  split
  rename_i n u e'
  have hu : Grows t u := .of_snd (.of (by split <;> simp)) e'
  simp [hu, ht]

@[simp] theorem reqFinish_grows (r : CipherReq) (st : Nat) (bad : Option Nat) (s : State) : Grows s (reqFinish r st bad s) := .of <| by
  unfold reqFinish
  dsimp only
  repeat' split
  all_goals simp

@[simp] theorem unitFaults_grows (r : CipherReq) (s : State) : Grows s (unitFaults r s) := .of <| by
  unfold unitFaults
  split <;> simp

@[simp] theorem reqComplete_grows (req : Nat) (hwFault : Bool) (pcwBad : Option Nat) (s : State) :
    Grows s (reqComplete req hwFault pcwBad s) := .of <| by
  unfold reqComplete
  repeat' split
  all_goals simp

theorem settleAll_grows (ok : Bool) {f : State → State} (h : ∀ s, Rises s.ctr (f s).ctr) (s : State) : Grows s (settleAll ok f s) :=
  (Grows.of (h s)).trans (foldl_grows (fun s _ => (engineTurn_grows _ (fun _ => .refl _) s).rises) _ _)

@[simp] theorem slotFails_grows (slot : Nat) (s : State) : Grows s (slotFails slot s) := .of (by simp [slotFails])

@[simp] theorem slotWaitersEnd_grows (slot : Nat) (s : State) : Grows s (slotWaitersEnd slot s) := .of (by simp [slotWaitersEnd])

@[simp] theorem keyStore_grows (slot type usage tenant : Nat) (key : List Byte) (s : State) :
    Grows s (keyStore slot type usage tenant key s) := .of (by simp [keyStore])

@[simp] theorem secKeyIn_grows (octet k slot : Nat) (s : State) : Grows s (secKeyIn octet k slot s).2 := .of <| by
  unfold secKeyIn
  split
  · exact .refl _
  · split
    · simp
    · split
      next h => exact (Grows.of_snd (controlTurn_grows ..) h).rises
      next h => split <;> simp [Grows.of_snd (controlTurn_grows ..) h]

@[simp] theorem ckvWrite_grows (i v : Nat) (s : State) : Grows s (ckvWrite i v s) := .of <| by
  simp only [ckvWrite, ite_rises, State.modCip_ctr, State.setCkv_grows, Rises.refl, true_or, ite_self]

/-! ### Transmission from a host -/

@[simp] theorem txSend_grows (fid ring : Nat) (ds : List Nat) (bs : List Byte) (s : State) :
    Grows s (txSend fid ring ds bs s) := .of (by simp [txSend])

@[simp] theorem abortRead_grows (fid ring : Nat) (descs : List Nat) (s : State) : Grows s (abortRead fid ring descs s) := .of (by simp [abortRead])

@[simp] theorem readData_grows (fid : Nat) (ds : List Nat) (s : State) : Grows s (readData fid ds s) := .of (by simp [readData])

@[simp] theorem hostTx_grows (fid ring : Nat) (descs : List Nat) (data : List Byte) (composed : Bool) (s : State) :
    Grows s (hostTx fid ring descs data composed s) := .of (by simp [hostTx])

/-! ### The egress side -/

@[simp] theorem popHead_grows (q : Nat) (s : State) : Grows s (popHead q s) := .of <| by
  unfold popHead
  split <;> simp

@[simp] theorem noteDoom_grows (s : State) (l0 q : Nat) (c : Copy) (why : Nat) : Grows s (noteDoom s l0 q c why) := .of (by simp [noteDoom])

@[simp] theorem noteDelay_grows (q : Nat) (s : State) : Grows s (noteDelay q s) := .of <| by
  unfold noteDelay
  split <;> simp

@[simp] theorem purgeQueue_grows (q steps : Nat) (s : State) : Grows s (purgeQueue q steps s) := by
  induction steps generalizing s with
  | zero => exact .refl _
  | succ fuel ih =>
    refine .of ?_
    rw [purgeQueue]
    repeat' split
    all_goals simp [ih]

@[simp] theorem purgePort_grows (l0 : Nat) (s : State) : Grows s (purgePort l0 s) := .of (by simp [purgePort])

@[simp] theorem chargeNode_grows (pad level i size : Nat) (s : State) : Grows s (chargeNode pad level i size s) := .of (by simp [chargeNode])

@[simp] theorem chargeSend_grows (l0 : Nat) (c : Cand) (s : State) : Grows s (chargeSend l0 c s) := .of (by simp [chargeSend])

@[simp] theorem copySent_grows (l0 q : Nat) (c : Copy) (b : Stored) (tenant len : Nat) (s : State) :
    Grows s (copySent l0 q c b tenant len s) := .of <| by
  unfold copySent
  split <;> simp

@[simp] theorem copyLost_grows (q : Nat) (c : Copy) (k : Pkt) (reason : Nat) (s : State) :
    Grows s (copyLost q c k reason s) := .of (by simp [copyLost])

@[simp] theorem pcwMismatch_grows (k : Pkt) (path : Nat) (s : State) : Grows s (pcwMismatch k path s) := .of (by simp [pcwMismatch])

@[simp] theorem sendEth_grows (l0 q : Nat) (c : Copy) (b : Stored) (ok : Bool) (s : State) : Grows s (sendEth l0 q c b ok s).1 := .of <| by
  unfold sendEth
  split
  · exact .refl _
  rename_i p _
  dsimp only
  have htx := macsecTx_grows l0 p.octet (wireBytes s l0 c b.pkt) s
  generalize macsecTx l0 p.octet (wireBytes s l0 c b.pkt) s = tx at htx ⊢
  obtain ⟨_ | wire, u⟩ := tx
  all_goals simp_all [apply_ite Prod.fst]

@[simp] theorem fillBufs_grows (fid : Nat) (l : List (Nat × Nat)) (bs : List Byte) (s : State) : Grows s (fillBufs fid l bs s) := by
  induction l generalizing bs s with
  | nil => exact .refl s
  | cons e r ih => exact .of (by simp [fillBufs, ih])

@[simp] theorem passShort_grows (fid ring steps : Nat) (s : State) : Grows s (passShort fid ring steps s) := by
  induction steps generalizing s with
  | zero => exact .refl _
  | succ fuel ih =>
    refine .of ?_
    rw [passShort]
    split <;> simp [ih]

@[simp] theorem shortBufs_grows (fid ring : Nat) (l : List (Nat × Nat)) (s : State) : Grows s (shortBufs fid ring l s) := .of (by simp [shortBufs])

theorem takeRead_grows {fid ring : Nat} {bufs : List Nat} {s t : State} (h : takeRead fid ring bufs s = some t) : Grows s t := by
  unfold takeRead at h
  dsimp only at h
  repeat' split at h
  all_goals cases h
  all_goals exact .of (by simp)

theorem deliverHost_grows (q : Nat) (c : Copy) (b : Stored) (bufs : List Nat) (ok composed : Bool) (s : State) :
    Grows s ((deliverHost q c b bufs ok composed s).after s) := .of <| by
  unfold deliverHost
  extract_lets k fid lost cut
  have hlost (reason : Nat) (t : State) : Grows t ((lost reason t).after s) := .of (by simp [lost, Delivery.after])
  split
  · exact ((Grows.of (by simp)).trans (hlost _ _)).rises
  split
  · exact (hlost _ _).rises
  rename_i r _
  split
  · simp [lost, Delivery.after]
  split
  · exact .refl _
  rename_i t htake
  have hread := takeRead_grows htake
  have hshort (l : List (Nat × Nat)) : Grows s (shortBufs fid r l t) := hread.trans (shortBufs_grows ..)
  dsimp only
  generalize (if (ringOf t fid r).vlanStrip && has8100 cut then some (atBe cut 14 2) else none) = vlan
  generalize (if vlan.isSome then cut.take 12 ++ cut.drop 16 else cut) = bs
  generalize takeBufs _ _ _ _ = tk
  split
  · simp [Delivery.after, hread]
  split
  · simp [Delivery.after, hread]
  split
  · simp [Delivery.after, hread]
  split
  · simp [Delivery.after, hread]
  specialize hshort tk.short
  generalize shortBufs fid r tk.short t = t' at hshort ⊢
  split
  · refine (hshort.trans (Grows.trans (.of ?_) (hlost _ _))).rises
    simp
  · simp [Delivery.after, hshort]

@[simp] theorem sendOrFence_grows (l0 q : Nat) (c : Copy) (b : Stored) (ok composed : Bool) (s : State) :
    Grows s (sendOrFence l0 q c b ok composed s).1 := .of <| by
  unfold sendOrFence
  dsimp only
  repeat' split
  all_goals simp

@[simp] theorem schedule_grows (l0 : Nat) (bufs : List Nat) (ok composed : Bool) (s : State) : Grows s (schedule l0 bufs ok composed s) := .of <| by
  unfold schedule
  split
  · exact .refl _
  dsimp only
  split
  · simp
  split
  · simp
  split
  · simp
  rename_i q _ _ b _
  have hpurge : Grows s (purgePort l0 s) := purgePort_grows ..
  have hhost := hpurge.trans (deliverHost_grows q.queue q.copy b bufs ok composed (purgePort l0 s))
  split
  · simp
  · rename_i t hkept
    split at hkept
    · simp at hkept
    · rw [hkept] at hhost
      exact Grows.rises (t := t) hhost
  · rename_i t sent hleft
    split at hleft
    · cases hleft
      simp
    · rw [hleft] at hhost
      simp [show Grows s t from hhost]

@[simp] theorem sampleRing_grows (ring consumer inTime : Nat) (s : State) : Grows s (sampleRing ring consumer inTime s) := .of <| by
  unfold sampleRing
  split <;> simp

/-! ### Host ports and functions as commands -/

@[simp] theorem CfgOf.capId_grows (c : CfgOf) (k : Cap) (s : State) : Grows s (CfgOf.capId c k s).2 := .of <| by
  unfold CfgOf.capId
  dsimp only
  repeat' split
  all_goals simp

@[simp] theorem cfgRead_grows (s : State) (c : CfgOf) (reg : CfgReg) : Grows s (cfgRead s c reg).2 := .of <| by
  unfold cfgRead
  split <;> simp

@[simp] theorem flr_grows (fid : Nat) (s : State) : Grows s (flr fid s) := .of (by simp [flr])

@[simp] theorem vfEnableSet_grows (fid : Nat) (s : State) : Grows s (vfEnableSet fid s) := .of (by simp [vfEnableSet])

@[simp] theorem vfEnableClear_grows (fid : Nat) (s : State) : Grows s (vfEnableClear fid s) := .of (by simp [vfEnableClear])

@[simp] theorem d3Enter_grows (fid : Nat) (s : State) : Grows s (d3Enter fid s) := .of (by simp [d3Enter])

@[simp] theorem d0Return_grows (fid : Nat) (s : State) : Grows s (d0Return fid s) := .of (by simp [d0Return])

@[simp] theorem cfgWrite_grows (fid : Nat) (reg : CfgReg) (v : Nat) (s : State) : Grows s (cfgWrite fid reg v s) := .of <| by
  unfold cfgWrite
  split <;> simp

@[simp] theorem failRead_grows (r : Read) (aerBit : Nat) (s : State) : Grows s (failRead r aerBit s) := .of <| by
  unfold failRead
  repeat' split
  all_goals simp

@[simp] theorem dropRead_grows (port tag : Nat) (r : Read) (s : State) : Grows s (dropRead port tag r s) := .of <| by
  unfold dropRead
  split <;> simp

@[simp] theorem bufsDone_grows (port tag : Nat) (r : Read) (n : Nat) (data : List Byte) (s : State) :
    Grows s (bufsDone port tag r n data s) := .of (by simp [bufsDone])

@[simp] theorem goodRead_grows (port tag : Nat) (r : Read) (data : List Byte) (s : State) : Grows s (goodRead port tag r data s) := .of <| by
  unfold goodRead
  repeat' split
  all_goals simp

@[simp] theorem windowFree_grows (port i : Nat) (s : State) : Grows s (windowFree port i s) := .of (by simp [windowFree])

/-! ### Meters -/

@[simp] theorem exportToRing_grows (minute : Nat) (rec : List Byte) (s : State) : Grows s (exportToRing minute rec s) := .of <| by
  unfold exportToRing
  dsimp only
  split <;> simp

@[simp] theorem exportFrame_grows (c : ExportCfg) (payload : List Byte) (s : State) :
    Grows s (exportFrame c payload s).2 := .of (by simp [exportFrame])

@[simp] theorem exportSend_grows (c : ExportCfg) (payload : List Byte) (s : State) : Grows s (exportSend c payload s) := .of (by simp [exportSend])

@[simp] theorem exportByUdp_grows (minute : Nat) (lost : List Nat) (steps part : Nat) (rows : List (List Byte)) (s : State) :
    Grows s (exportByUdp minute lost steps part rows s) := by
  induction steps generalizing part rows s with
  | zero => exact .refl _
  | succ fuel ih =>
    refine .of ?_
    rw [exportByUdp]
    dsimp only
    split_ifs <;> simp [ih]

@[simp] theorem meterExport_grows (lost : List Nat) (s : State) : Grows s (meterExport lost s) := .of <| by
  unfold meterExport
  dsimp only
  repeat' split
  all_goals simp

/-! ### Migration -/

@[simp] theorem dirtyWrite_grows (fid w : Nat) (s : State) : Grows s (dirtyWrite fid w s) := .of <| by
  unfold dirtyWrite
  split <;> simp

@[simp] theorem dirtyFlush_grows (fid : Nat) (s : State) : Grows s (dirtyFlush fid s) := .of <| by
  unfold dirtyFlush
  split <;> simp

@[simp] theorem modRestart_grows (fid : Nat) (s : State) : Grows s (modRestart fid s) := .of (by simp [modRestart])

@[simp] theorem readIndices_grows (fid : Nat) (s : State) : Grows s (readIndices fid s) := .of (by simp [readIndices])

@[simp] theorem migTurn_grows (fid len : Nat) (s : State) : Grows s (migTurn fid len s).2 := .of <| by
  unfold migTurn
  split_ifs <;> simp

@[simp] theorem migMoved_grows (len : Nat) (s : State) : Grows s (migMoved len s) := .of (by simp [migMoved])

@[simp] theorem saInvalidate_grows (fid : Nat) (s : State) : Grows s (saInvalidate fid s) := .of (by simp [saInvalidate])

@[simp] theorem restoreFn_grows (fid : Nat) (t : Tlv) (s : State) : Grows s (restoreFn fid t s) := .of (by simp [restoreFn])

@[simp] theorem restoreCtrl_grows (fid : Nat) (t : Tlv) (s : State) : Grows s (restoreCtrl fid t s) := .of (by simp [restoreCtrl])

@[simp] theorem restoreQueue_grows (fid : Nat) (t : Tlv) (s : State) : Grows s (restoreQueue fid t s) := .of (by simp [restoreQueue])

@[simp] theorem restoreCtx_grows (src fid i : Nat) (t : Tlv) (s : State) : Grows s (restoreCtx src fid i t s) := .of (by simp [restoreCtx])

@[simp] theorem restoreSa_grows (g : Grants) (tenant fid : Nat) (t : Tlv) (s : State) :
    Grows s (restoreSa g tenant fid t s) := .of (by simp [restoreSa])

@[simp] theorem restoreKey_grows (g : Grants) (tenant : Nat) (t : Tlv) (s : State) : Grows s (restoreKey g tenant t s) := .of (by simp [restoreKey])

theorem restoreEntries_grows (g : Grants) (es : List (Nat × Nat × Nat)) {s t : State} (h : restoreEntries g es s = some t) : Grows s t := by
  have hfold (l : List (Nat × Nat × Nat)) (a : Option State) {t : State} (hl : l.foldl (fun a e => match a with
      | some s => match tblPlace e.1 e.2.1 e.2.2 s with
        | (s, true) => some s
        | (_, false) => none
      | none => none) a = some t) : ∃ u, a = some u ∧ Grows u t := by
    induction l generalizing a with
    | nil => exact ⟨t, hl, .refl t⟩
    | cons e l ih =>
      obtain ⟨u, hu, ht⟩ := ih _ hl
      cases a with
      | none => cases hu
      | some v =>
        dsimp only at hu
        split at hu
        next hplace =>
          cases hu
          exact ⟨v, rfl, (Grows.of_fst (tblPlace_grows ..) hplace).trans ht⟩
        · cases hu
  unfold restoreEntries at h
  split at h
  · cases h
  · obtain ⟨u, hu, ht⟩ := hfold _ _ h
    cases hu
    exact ht

@[simp] theorem restoreTlv_grows (src fid tenant : Nat) (g : Grants) (v : Tlv) (s : State) : Grows s (restoreTlv src fid tenant g v s) := .of <| by
  unfold restoreTlv
  repeat' split
  all_goals simp

@[simp] theorem restoreAll_grows (fid saveId src : Nat) (ts : List Tlv) (s : State) : Grows s (restoreAll fid saveId src ts s).1 := .of <| by
  unfold restoreAll
  extract_lets g
  split
  · exact .refl _
  split
  · exact .refl _
  split
  · exact .refl _
  split
  · exact .refl _
  rename_i t ht
  simp [restoreEntries_grows _ _ ht]

/-! ### What the Skink threads do -/

@[simp] theorem settle_grows (tid : Nat) (s : State) : Grows s (settle tid s) := .of (by simp [settle])

@[simp] theorem issued_grows (tid : Nat) (s t : State) : Grows t (issued tid s t) := .of (by simp [issued])

theorem act_grows {tid : Nat} {f : State → State} {s : State} (h : Rises s.ctr (f s).ctr) : Grows s (act tid f s) :=
  .of (by simp [act, Grows.of h])

theorem actWin_grows {tid : Nat} {f : State → State} (h : ∀ s, Rises s.ctr (f s).ctr) (s : State) : Grows s (actWin tid f s) :=
  .of (by simp [actWin, fun s => Grows.of (h s)])

@[simp] theorem block_grows (tid : Nat) (w : TWait) (s : State) : Grows s (block tid w s) := .of (by simp [block])

@[simp] theorem setRd_grows (tid rd v : Nat) (s : State) : Grows s (setRd tid rd v s) := .of (by simp [setRd])

@[simp] theorem faultPost_grows (p : Nat) (m : Msg) (s : State) : Grows s (faultPost p m s) := .of <| by
  unfold faultPost
  split <;> simp

@[simp] theorem threadFault_grows (tid code epc tval addr : Nat) (s : State) :
    Grows s (threadFault tid code epc tval addr s) := .of (by simp [threadFault])

@[simp] theorem xfault_grows (tid code addr : Nat) (s : State) : Grows s (xfault tid code addr s) := .of (by simp [xfault])

@[simp] theorem exception_grows (tid cause epc tval addr : Nat) (vectored : Bool) (s : State) :
    Grows s (exception tid cause epc tval addr vectored s) := .of (by simp [exception])

@[simp] theorem xexception_grows (tid cause addr : Nat) (s : State) : Grows s (xexception tid cause addr s) := .of (by simp [xexception])

@[simp] theorem illegal_grows (tid : Nat) (s : State) : Grows s (illegal tid s) := .of (by simp [illegal])

@[simp] theorem commitNow_grows (tid ch n rd : Nat) (s : State) : Grows s (commitNow tid ch n rd s) := .of (by simp [commitNow])

@[simp] theorem chCmt_grows (tid ch n rd : Nat) (nb : Bool) (s : State) : Grows s (chCmt tid ch n rd nb s) := .of <| by
  unfold chCmt
  split <;> simp

@[simp] theorem faultRead_grows (ch : Nat) (s : State) : Grows s (faultRead ch s) := .of <| by
  unfold faultRead
  dsimp only
  repeat' split
  all_goals simp

@[simp] theorem receive_grows (tid ch rd : Nat) (s : State) : Grows s (receive tid ch rd s) := .of <| by
  unfold receive
  split <;> simp

@[simp] theorem chRd_grows (tid ch rd : Nat) (try_ : Bool) (s : State) : Grows s (chRd tid ch rd try_ s) := .of (by simp [chRd])

@[simp] theorem receiveAny_grows (tid base mask rd : Nat) (s : State) : Grows s (receiveAny tid base mask rd s) := .of <| by
  unfold receiveAny
  split <;> simp

@[simp] theorem chWaitany_grows (tid base mask rd : Nat) (s : State) : Grows s (chWaitany tid base mask rd s) := .of <| by
  unfold chWaitany
  repeat' split
  all_goals simp

@[simp] theorem forkThread_grows (tid entry arg rd : Nat) (s : State) : Grows s (forkThread tid entry arg rd s) := .of <| by
  unfold forkThread
  dsimp only
  repeat' split
  all_goals simp

@[simp] theorem threadHome_grows (t : Nat) (s : State) : Grows s (threadHome t s) := .of (by simp [threadHome])

@[simp] theorem joinThread_grows (tid target rd : Nat) (s : State) : Grows s (joinThread tid target rd s) := .of (by simp [joinThread])

@[simp] theorem joinDone_grows (target v : Nat) (s : State) : Grows s (joinDone target v s) := .of <| by
  unfold joinDone
  repeat' split
  all_goals simp

@[simp] theorem threadExit_grows (tid value : Nat) (s : State) : Grows s (threadExit tid value s) := .of (by simp [threadExit])

@[simp] theorem leaveWait_grows (t : Nat) (s : State) : Grows s (leaveWait t s) := .of <| by
  unfold leaveWait
  split <;> simp

theorem tcsrWrite_grows {tid csr v : Nat} {s t : State} (h : tcsrWrite tid csr v s = some t) : Grows s t := by
  unfold tcsrWrite at h
  dsimp only at h
  repeat' split at h
  all_goals cases h
  all_goals exact .of (by simp)

theorem mapped_grows {tid addr n : Nat} {a : MapAccess} {f : State → State} {s : State} (h : Rises s.ctr (f s).ctr) :
    Grows s (mapped tid addr n a f s) :=
  .of (by simp [mapped, Grows.of h])

@[simp] theorem winStatus_grows (tid st : Nat) (s : State) : Grows s (winStatus tid st s) := .of (by simp [winStatus])

@[simp] theorem injectTry_grows (tid tenant pipe port : Nat) (bs : List Byte) (ts : Option Nat) (s : State) :
    Grows s (injectTry tid tenant pipe port bs ts s).1 := .of <| by
  unfold injectTry
  dsimp only
  split_ifs <;> simp

theorem ctxAct_grows {tid index : Nat} {f : State → State} (h : ∀ s, Rises s.ctr (f s).ctr) (s : State) : Grows s (ctxAct tid index f s) :=
  actWin_grows (fun s => (mapped_grows (by simp [fun s => Grows.of (h s)])).rises) s

@[simp] theorem ctxStatus_grows (tid st : Nat) (s : State) : Grows s (ctxStatus tid st s) := .of (by simp [ctxStatus])

@[simp] theorem ctxFails_grows (tid : Nat) (s : State) : Grows s (ctxFails tid s) := .of (by simp [ctxFails])

@[simp] theorem resumeThread_grows (tid : Nat) (s : State) : Grows s (resumeThread tid s) := .of <| by
  unfold resumeThread
  dsimp only
  split <;> simp

/-! ### The background scrubbers -/

@[simp] theorem scrubCorrected_grows (mem : ScrubMem) (unit : Nat) (s : State) : Grows s (scrubCorrected mem unit s) := .of <| by
  unfold scrubCorrected
  split <;> simp

@[simp] theorem poisonPacket_grows (n : Nat) (s : State) : Grows s (poisonPacket n s) := .of (by simp [poisonPacket])

@[simp] theorem loseRule_grows (addr : Nat) (s : State) : Grows s (loseRule addr s) := .of (by simp [loseRule])

@[simp] theorem loseL2_grows (addr : Nat) (s : State) : Grows s (loseL2 addr s) := .of <| by
  unfold loseL2
  dsimp only
  split <;> simp

@[simp] theorem scrubPoison_grows (mem : ScrubMem) (unit addr : Nat) (s : State) : Grows s (scrubPoison mem unit addr s) := .of <| by
  unfold scrubPoison
  dsimp only
  repeat' split
  all_goals simp

/-! ### I3C target and Spawn Chain -/

@[simp] theorem setEnables_grows (direct : Bool) (events : Nat) (on : Bool) (s : State) :
    Grows s (setEnables direct events on s) := .of (by simp [setEnables])

@[simp] theorem i3cAnswer_grows (f : State → List Byte) (s : State) : Grows s (i3cAnswer f s) := .of (by simp [i3cAnswer])

theorem chainRecv_grows {type : Nat} {f : BitVec 64} {act : State → State} (h : ∀ s, Rises s.ctr (act s).ctr) (s : State) :
    Grows s (chainRecv type f act s) :=
  .of (by simp [chainRecv, fun s => Grows.of (h s)])

@[simp] theorem forward_grows (f : BitVec 64) (s : State) : Grows s (forward f s) := .of (by simp [forward])

@[simp] theorem chainReform_grows (s : State) : Grows s (chainReform s) := .of (by simp [chainReform])

@[simp] theorem chainClose_grows (count addr : Nat) (s : State) : Grows s (chainClose count addr s) := .of (by simp [chainClose])

@[simp] theorem linkLost_grows (s : State) : Grows s (linkLost s) := .of (by simp [linkLost])

@[simp] theorem jtagRead_grows (ir v : Nat) (s : State) : Grows s (jtagRead ir v s) := .of (by simp [jtagRead])

@[simp] theorem pinsLost_grows (s : State) : Grows s (pinsLost s) := .of (by simp [pinsLost])

@[simp] theorem takePins_grows (ir : Nat) (s : State) : Grows s (takePins ir s) := .of (by simp [takePins])

/-! ### The tables' commands and their timers -/

@[simp] theorem insertAll_grows (table n : Nat) (l : List Nat) (s : State) : Grows s (insertAll table n l s).1 := by
  induction l generalizing s with
  | nil => exact .refl _
  | cons p r ih =>
    refine .of ?_
    rw [insertAll]
    split
    next h => simp [ih, Grows.of_fst (tblPlace_grows ..) h]
    next h => simp [Grows.of_fst (tblPlace_grows ..) h]

@[simp] theorem tablesBack_grows (old s : State) : Grows s (tablesBack old s) := .of (by simp [tablesBack])

@[simp] theorem countAll_grows (k : CtrKind) (table : Nat) (s : State) : Grows s (countAll k table s) := .of (by simp [countAll])

@[simp] theorem insertCuckoo_grows (table pipes n : Nat) (s : State) : Grows s (insertCuckoo table pipes n s).1 := .of <| by
  unfold insertCuckoo
  split
  next h => exact (Grows.of_fst (insertAll_grows table n (entryPipes table pipes n) s) h).rises
  next h => simp [Grows.of_fst (insertAll_grows table n (entryPipes table pipes n) s) h]

@[simp] theorem insertRoute_grows (table : Nat) (r : Route) (s : State) : Grows s (insertRoute table r s).1 := .of <| by
  unfold insertRoute
  dsimp only
  split_ifs <;> simp

@[simp] theorem insertDirect_grows (table index n : Nat) (s : State) : Grows s (insertDirect table index n s) := .of <| by
  unfold insertDirect
  split <;> simp

@[simp] theorem tblInsert_grows (table pipes index : Nat) (e : TblEntry) (c : Call) (s : State) :
    Grows s (tblInsert table pipes index e c s).1 := .of <| by
  unfold tblInsert
  dsimp only
  repeat' split
  all_goals simp

@[simp] theorem dropL2_grows (pipe key : Nat) (s : State) : Grows s (dropL2 pipe key s) := .of <| by
  unfold dropL2
  split <;> simp

@[simp] theorem dropKey_grows (table pipes key : Nat) (s : State) : Grows s (dropKey table pipes key s) := .of (by simp [dropKey])

@[simp] theorem tblDelete_grows (table pipes index : Nat) (e : TblEntry) (c : Call) (s : State) :
    Grows s (tblDelete table pipes index e c s).1 := .of <| by
  unfold tblDelete
  dsimp only
  repeat' split
  all_goals simp

@[simp] theorem cursorFor_grows (key : Nat) (s : State) : Grows s (cursorFor key s).2 := .of <| by
  unfold cursorFor
  split <;> simp

@[simp] theorem iterPage_grows (table pipe filter value start room : Nat) (s : State) :
    Grows s (iterPage table pipe filter value start room s).1 := .of <| by
  unfold iterPage
  dsimp only
  split <;> simp

@[simp] theorem flushPipe_grows (table filter value pipe : Nat) (s : State) :
    Grows s (flushPipe table filter value pipe s).1 := .of (by simp [flushPipe])

@[simp] theorem rehashPass_grows (table pipe : Nat) (s : State) : Grows s (rehashPass table pipe s) := .of (by simp [rehashPass])

@[simp] theorem learnService_grows (pipe : Nat) (s : State) : Grows s (learnService pipe s) := .of <| by
  unfold learnService
  split
  · exact .refl _
  · extract_lets t
    split
    · simp [t]
    · extract_lets u same
      have hu : Grows s u := .of (by simp [u, t])
      split
      · exact hu.rises
      · split
        · simp [hu]
        · split
          next h => simp [Grows.of_fst (installHome_grows ..) h, hu]
          next h => simp [Grows.of_fst (installHome_grows ..) h, hu]

@[simp] theorem agingSlice_grows (table pipe : Nat) (examined : Option Nat) (s : State) :
    Grows s (agingSlice table pipe examined s) := .of (by simp [agingSlice])

@[simp] theorem startRotation_grows (g : Nat) (s : State) : Grows s (startRotation g s) := .of (by simp [startRotation])

@[simp] theorem bucketExpire_grows (g pipe b : Nat) (s : State) : Grows s (bucketExpire g pipe b s) := .of <| by
  unfold bucketExpire
  dsimp only
  repeat' split
  all_goals simp

@[simp] theorem monitorWindow_grows (g : Nat) (s : State) : Grows s (monitorWindow g s) := .of <| by
  unfold monitorWindow
  split <;> simp

end Sys2Proof.Machine
end

section
/-! PROOFS. No command lowers a counter, but for those that may reset the device (R39, O11). -/

namespace Sys2Proof.Machine

/-- Under a command's meaning no counter falls. -/
def Grown (g : State → Host.Outcome State Fault Refusal) : Prop := ∀ s t, g s = .next t → Rises s.ctr t.ctr

theorem grown_of_rises {wf : Bool} {f : State → State} (h : ∀ s, Rises s.ctr (f s).ctr) : Grown (run wf f) := by
  intro s t hrun
  unfold run at hrun
  split at hrun
  · cases hrun
    exact h s
  · cases hrun

theorem grown_of {wf : Bool} {f : State → State} (h : ∀ s, Grows s (f s)) : Grown (run wf f) := grown_of_rises fun s => (h s).rises

theorem execAlarmNAssert_grown (ns : Nat) (stillLow : Bool) : Grown (execAlarmNAssert ns stillLow) := grown_of_rises fun s => by simp

theorem execSupplyGlitch_grown (rail : GuardedRail) (permille ns : Nat) : Grown (execSupplyGlitch rail permille ns) := grown_of_rises fun s => by simp

theorem execTjThresholdCross_grown (sensor tj : Nat) : Grown (execTjThresholdCross sensor tj) := grown_of_rises fun s => by simp

theorem execPpsInEdge_grown : Grown execPpsInEdge := grown_of_rises fun s => by simp

theorem execPtpStep_grown (delta : Int) : Grown (execPtpStep delta) := grown_of_rises fun s => by simp

theorem execArbiterEpoch_grown (core sds : List EpochReq) (coreNow sdsNow : Nat) : Grown (execArbiterEpoch core sds coreNow sdsNow) :=
  grown_of_rises fun s => by simp

theorem execHardLimitCross_grown (sdsRail : Bool) (now : Nat) : Grown (execHardLimitCross sdsRail now) := grown_of_rises fun s => by simp

theorem execGovernorPeriod_grown (late : Bool) : Grown (execGovernorPeriod late) := grown_of_rises fun s => by simp

theorem execAvsWriteDone_grown (ok : Bool) : Grown (execAvsWriteDone ok) := by
  refine grown_of_rises fun s => ?_
  dsimp only
  repeat' split
  all_goals simp

theorem execSensorWindow_grown (cluster : Bool) (unit rate : Nat) : Grown (execSensorWindow cluster unit rate) := grown_of_rises fun s => by simp

theorem execStallWatchdogFire_grown (dom : HsDom) (stall : Stall) : Grown (execStallWatchdogFire dom stall) := grown_of_rises fun s => by simp

theorem execInvalidCodeword_grown (dom : HsDom) (stage : Nat) : Grown (execInvalidCodeword dom stage) := grown_of_rises fun s => by simp

theorem execClearSelftestDone_grown (dom : Dom) (pass : Bool) : Grown (execClearSelftestDone dom pass) := grown_of_rises fun s => by simp

theorem execProbationEnd_grown (dom : Dom) : Grown (execProbationEnd dom) := grown_of_rises fun s => by simp

theorem execCheckerSelftest_grown (dom : Dom) (checker : Nat) (flagged : Bool) : Grown (execCheckerSelftest dom checker flagged) :=
  grown_of_rises fun s => by simp

theorem execScrubStep_grown (mem : ScrubMem) (unit addr : Nat) (found : ScrubResult) : Grown (execScrubStep mem unit addr found) := by
  refine grown_of_rises fun s => ?_
  repeat' split
  all_goals simp

theorem execEftLockstepMismatch_grown (stage : Nat) : Grown (execEftLockstepMismatch stage) := grown_of_rises fun s => by simp

theorem execEftRestartDone_grown : Grown execEftRestartDone := grown_of_rises fun s => by simp

theorem execWearEvaluation_grown (kind unit corr word row stall : Nat) (held24 : Bool) :
    Grown (execWearEvaluation kind unit corr word row stall held24) :=
  grown_of_rises fun s => by simp

theorem execAgeHour_grown (tjMax : Int) : Grown (execAgeHour tjMax) := grown_of_rises fun s => by simp

theorem execRegrowthDone_grown (kind : Nat) (ok : Bool) : Grown (execRegrowthDone kind ok) := grown_of_rises fun s => by simp

theorem execLaneBerWindow_grown (lane ber10s ber10min : Nat) : Grown (execLaneBerWindow lane ber10s ber10min) := by
  refine grown_of_rises fun s => ?_
  split <;> simp

theorem execLinkTrainingDone_grown (port : Nat) (ok : Bool) (failed : Nat) : Grown (execLinkTrainingDone port ok failed) :=
  grown_of_rises fun s => by simp

theorem execReformTimeout_grown (port : Nat) : Grown (execReformTimeout port) := grown_of_rises fun s => by simp

theorem execLinkLoss_grown (port : Nat) : Grown (execLinkLoss port) := grown_of_rises fun s => by simp

theorem execEthFrameReceive_grown (port : Nat) (frame : List Byte) (fcs : BitVec 32) (fecOk : Bool) :
    Grown (execEthFrameReceive port frame fcs fecOk) :=
  grown_of_rises fun s => by simp

theorem execPauseFrameReceive_grown (port : Nat) (pfc : Bool) (mask : Nat) (quanta : List Nat) : Grown (execPauseFrameReceive port pfc mask quanta) :=
  grown_of_rises fun s => by simp

theorem execPauseQuantaExpire_grown (port prio : Nat) : Grown (execPauseQuantaExpire port prio) := grown_of_rises fun s => by simp

theorem execPauseStormLimit_grown (port prio : Nat) : Grown (execPauseStormLimit port prio) := grown_of_rises fun s => by simp

theorem execPauseStormClear_grown (port prio : Nat) : Grown (execPauseStormClear port prio) := grown_of_rises fun s => by simp

theorem execMgmt0FrameReceive_grown (frame : List Byte) (fcs : BitVec 32) : Grown (execMgmt0FrameReceive frame fcs) := grown_of_rises fun s => by simp

theorem execPipelineHeaderAccept_grown (turn : PipeTurn) : Grown (execPipelineHeaderAccept turn) :=
  grown_of (engineTurn_grows _ fun s => by simp)

theorem execMicroword_grown (turn : PipeTurn) (engine : Nat) (ecc : WordEcc) : Grown (execMicroword turn engine ecc) :=
  grown_of (engineTurn_grows _ fun s => by simp)

theorem execMicrocodeOpComplete_grown (turn : PipeTurn) (ctx kind : Nat) : Grown (execMicrocodeOpComplete turn ctx kind) :=
  grown_of (engineTurn_grows _ fun s => by simp)

theorem execSprayReseqTimeout_grown (unit stream : Nat) : Grown (execSprayReseqTimeout unit stream) := grown_of_rises fun s => by simp

theorem execSprayContextIdle_grown (unit stream : Nat) : Grown (execSprayContextIdle unit stream) := by
  refine grown_of_rises fun s => ?_
  dsimp only
  split <;> simp

theorem execFlowletGapExpire_grown (group pipe bucket : Nat) : Grown (execFlowletGapExpire group pipe bucket) := grown_of_rises fun s => by simp

theorem execLbImbalanceWindow_grown (group : Nat) : Grown (execLbImbalanceWindow group) := grown_of_rises fun s => by simp

theorem execAgingSlice_grown (table pipe : Nat) (examined : Option Nat) :
    Grown (execAgingSlice table pipe examined) :=
  grown_of_rises fun s => by simp

theorem execLearnServiceEvent_grown (pipe : Nat) : Grown (execLearnServiceEvent pipe) := grown_of_rises fun s => by simp

theorem execRehashDone_grown (table pipe : Nat) : Grown (execRehashDone table pipe) := grown_of_rises fun s => by simp

theorem execEgressSchedule_grown (l0 : Nat) (bufs : List (BitVec 128)) (pcwOk composed : Bool) : Grown (execEgressSchedule l0 bufs pcwOk composed) :=
  grown_of_rises fun s => by simp

theorem execDeadlineHeadCheck_grown (queue : Nat) : Grown (execDeadlineHeadCheck queue) := by
  refine grown_of_rises fun s => ?_
  split <;> simp

theorem execQueueTelemetrySample_grown (ring consumer inTime : Nat) : Grown (execQueueTelemetrySample ring consumer inTime) :=
  grown_of_rises fun s => by simp

theorem execMinuteBoundary_grown : Grown execMinuteBoundary := grown_of_rises fun s => by simp

theorem execMeterExport_grown (lost : List Nat) : Grown (execMeterExport lost) := grown_of_rises fun s => by simp

theorem execTimedLeapTrigger_grown (spread : Nat) : Grown (execTimedLeapTrigger spread) := by
  refine grown_of_rises fun s => ?_
  split <;> simp

theorem execPadWriteResume_grown (mbx : MbxId) (timedOut : Bool) : Grown (execPadWriteResume mbx timedOut) := grown_of_rises fun s => by simp

theorem execPcieConfigRequest_grown (fn : FnRef) (reg : CfgReg) (bus : Nat) (write : Bool) (value : Nat) :
    Grown (execPcieConfigRequest fn reg bus write value) := by
  refine grown_of_rises fun s => ?_
  split <;> simp

theorem execBmeClear_grown (fid : Nat) : Grown (execBmeClear fid) := grown_of_rises fun s => by simp

theorem execMseClear_grown (fid : Nat) : Grown (execMseClear fid) := grown_of_rises fun s => by simp

theorem execFlr_grown (fid : Nat) : Grown (execFlr fid) := grown_of_rises fun s => by simp

theorem execVfEnableSet_grown (fid numVfs : Nat) : Grown (execVfEnableSet fid numVfs) := grown_of_rises fun s => by simp

theorem execVfEnableClear_grown (fid : Nat) : Grown (execVfEnableClear fid) := grown_of_rises fun s => by simp

theorem execD3hotEnter_grown (fid : Nat) : Grown (execD3hotEnter fid) := grown_of_rises fun s => by simp

theorem execD0Return_grown (fid : Nat) : Grown (execD0Return fid) := grown_of_rises fun s => by simp

theorem execD3coldEnter_grown (port : Nat) : Grown (execD3coldEnter port) := grown_of_rises fun s => by simp

theorem execHpPerstNAssert_grown (port ns : Nat) : Grown (execHpPerstNAssert port ns) := grown_of_rises fun s => by simp

theorem execHpPerstNDeassert_grown (port : Nat) : Grown (execHpPerstNDeassert port) := grown_of_rises fun s => by simp

theorem execHotReset_grown (port : Nat) : Grown (execHotReset port) := grown_of_rises fun s => by simp

theorem execDlUp_grown (port width gt : Nat) (flit : Bool) : Grown (execDlUp port width gt flit) := grown_of_rises fun s => by simp

theorem execL1Enter_grown (port : Nat) (aspm : Bool) : Grown (execL1Enter port aspm) := grown_of_rises fun s => by simp

theorem execMsixUnmask_grown (fid vector : Nat) : Grown (execMsixUnmask fid vector) := grown_of_rises fun s => by simp

theorem execBar4WindowTlp_grown (fid off len : Nat) (write : Bool) (data : List Byte) (stalled : Bool) :
    Grown (execBar4WindowTlp fid off len write data stalled) := by
  refine grown_of_rises fun s => ?_
  dsimp only
  repeat' split
  all_goals simp

theorem execPcieReadCompletion_grown (port tag : Nat) (data : Option (List Byte)) : Grown (execPcieReadCompletion port tag data) := by
  refine grown_of_rises fun s => ?_
  repeat' split
  all_goals simp

theorem execCompletionTimeout_grown (port tag : Nat) : Grown (execCompletionTimeout port tag) := by
  refine grown_of_rises fun s => ?_
  split <;> simp

theorem execRingEnable_grown (fid ring value : Nat) : Grown (execRingEnable fid ring value) := grown_of_rises fun s => by simp

theorem execRingDisable_grown (fid ring value : Nat) : Grown (execRingDisable fid ring value) := grown_of_rises fun s => by simp

theorem execRingReset_grown (fid ring : Nat) : Grown (execRingReset fid ring) := grown_of_rises fun s => by simp

theorem execRingDb_grown (fid ring : Nat) (composed : Bool) : Grown (execRingDb fid ring composed) := grown_of_rises fun s => by simp

theorem execIndexWordReadDone_grown (fid : Nat) (of : IdxOf) (q : Nat) : Grown (execIndexWordReadDone fid of q) := grown_of_rises fun s => by simp

theorem execHostTxPacket_grown (fid ring : Nat) (descs : List (BitVec 256)) (data : List Byte) (composed : Bool) :
    Grown (execHostTxPacket fid ring descs data composed) :=
  grown_of_rises fun s => by simp

theorem execCplCi_grown (fid ring c : Nat) : Grown (execCplCi fid ring c) := grown_of_rises fun s => by simp

theorem execCplModTimerExpire_grown (fid ring : Nat) : Grown (execCplModTimerExpire fid ring) := grown_of_rises fun s => by simp

theorem execFnCtlUnfence_grown (fid : Nat) : Grown (execFnCtlUnfence fid) := grown_of_rises fun s => by simp

theorem execRegisterWrite_grown (fn : FnRef) (bar off size value : Nat) : Grown (execRegisterWrite fn bar off size value) := by
  refine grown_of_rises fun s => ?_
  split <;> simp

theorem execMbxEnable_grown (fid value : Nat) : Grown (execMbxEnable fid value) := grown_of_rises fun s => by simp

theorem execMbxDisable_grown (fid value : Nat) : Grown (execMbxDisable fid value) := grown_of_rises fun s => by simp

theorem execMbxDb_grown (fid value size : Nat) (composed : Bool) : Grown (execMbxDb fid value size composed) := grown_of_rises fun s => by simp

theorem execMbxHeadlessAnswer_grown (mbx : MbxId) : Grown (execMbxHeadlessAnswer mbx) := grown_of_rises fun s => by simp

theorem execUnassignedOpcode_grown (x : XCall) : Grown (execUnassignedOpcode x) := grown_of (xcs_grows (reads_grows _))

theorem execDevInfo_grown (x : XCall) : Grown (execDevInfo x) := grown_of (xop_grows fun _ s => .refl s.ctr)

theorem execDevCaps_grown (x : XCall) : Grown (execDevCaps x) := grown_of (xop_grows fun _ s => .refl s.ctr)

theorem execDevTimeGet_grown (x : XCall) : Grown (execDevTimeGet x) := grown_of (xop_grows fun _ s => .refl s.ctr)

theorem execDevTimeSet_grown (x : XCall) (mode value : Nat) : Grown (execDevTimeSet x mode value) := by
  refine grown_of (xop_grows fun c s => ?_)
  split <;> simp

theorem execPortConfig_grown (x : XCall) (p : PortCfg) : Grown (execPortConfig x p) := by
  refine grown_of (xop_grows fun c s => ?_)
  dsimp only
  repeat' split
  all_goals simp

theorem execPortState_grown (x : XCall) (port : Nat) : Grown (execPortState x port) := grown_of (xop_grows fun _ s => .refl s.ctr)

theorem execPortStats_grown (x : XCall) (port form : Nat) : Grown (execPortStats x port form) := grown_of (xop_grows fun _ s => .refl s.ctr)

theorem execLaneDiag_grown (x : XCall) (lane func pattern : Nat) (measured : List Nat) : Grown (execLaneDiag x lane func pattern measured) := by
  refine grown_of fun s => ?_
  split
  · exact .refl s
  · exact xop_grows (fun _ s => (laneDiag_grows lane func pattern measured s).rises) s

theorem execOctetMode_grown (x : XCall) (octet mode floors : Nat) : Grown (execOctetMode x octet mode floors) := by
  refine grown_of (xop_grows fun c s => ?_)
  simp [apply_ite Prod.fst]

theorem execAllotSet_grown (x : XCall) (port tenant tenBase tenCount : Nat) (counts : List Nat) :
    Grown (execAllotSet x port tenant tenBase tenCount counts) := by
  refine grown_of (xop_grows fun c s => ?_)
  dsimp only
  repeat' split
  all_goals simp

theorem execAllotGet_grown (x : XCall) (port : Nat) : Grown (execAllotGet x port) := grown_of (xop_grows fun _ s => .refl s.ctr)

theorem execFnCreate_grown (x : XCall) (port pf vf : Nat) (counts : List Nat) : Grown (execFnCreate x port pf vf counts) := by
  refine grown_of (xop_grows fun c s => ?_)
  iterate 6
    split
    · exact .refl _
  split
  · exact .refl _
  split
  · exact .refl _
  split
  · exact .refl _
  split
  rename_i t hdraw
  have ht : Grows s t := .of_snd (.of (by simp)) hdraw
  extract_lets
  split
  · exact .refl _
  · exact ht.rises

theorem execFnDestroy_grown (x : XCall) (fid : Nat) : Grown (execFnDestroy x fid) := by
  refine grown_of (xop_grows fun c s => ?_)
  dsimp only
  repeat' split
  all_goals simp

theorem execFnQuery_grown (x : XCall) (fid : Nat) : Grown (execFnQuery x fid) := grown_of (xop_grows fun _ s => .refl s.ctr)

theorem execTenantBind_grown (x : XCall) (fid tenant : Nat) : Grown (execTenantBind x fid tenant) := by
  refine grown_of (xop_grows fun c s => ?_)
  dsimp only
  split_ifs <;> simp

theorem execWindowSet_grown (x : XCall) (w : WinCfg) : Grown (execWindowSet x w) := by
  refine grown_of (xop_grows fun c s => ?_)
  dsimp only
  repeat' split
  all_goals simp

theorem execWindowRetire_grown (x : XCall) (port index : Nat) : Grown (execWindowRetire x port index) := by
  refine grown_of (xop_grows fun c s => ?_)
  dsimp only
  split_ifs <;> simp

theorem execWindowDrainDone_grown (port index : Nat) : Grown (execWindowDrainDone port index) := grown_of_rises fun s => by simp

theorem execWindowRetireTimeout_grown (port index : Nat) : Grown (execWindowRetireTimeout port index) := grown_of_rises fun s => by simp

theorem execTblInsert_grown (x : XCall) (table pipes index : Nat) (entry : TblEntry) : Grown (execTblInsert x table pipes index entry) :=
  grown_of (xop_grows fun c s => by simp)

theorem execTblDelete_grown (x : XCall) (table pipes index : Nat) (entry : TblEntry) : Grown (execTblDelete x table pipes index entry) :=
  grown_of (xop_grows fun c s => by simp)

theorem execTblLookup_grown (x : XCall) (table pipe index : Nat) (entry : TblEntry) : Grown (execTblLookup x table pipe index entry) :=
  grown_of (xop_grows fun _ s => .refl s.ctr)

theorem execTblIter_grown (x : XCall) (table pipe form filter value cursor : Nat) : Grown (execTblIter x table pipe form filter value cursor) := by
  refine grown_of (xop_grows fun c s => ?_)
  dsimp only
  repeat' split
  all_goals simp

theorem execTblFlush_grown (x : XCall) (table pipes filter value : Nat) : Grown (execTblFlush x table pipes filter value) := by
  refine grown_of (xop_grows fun c s => ?_)
  dsimp only
  split_ifs <;> simp

theorem execTblRehash_grown (x : XCall) (table pipe : Nat) : Grown (execTblRehash x table pipe) := by
  refine grown_of (xop_grows fun c s => ?_)
  dsimp only
  split_ifs <;> simp

theorem execLearnConfig_grown (x : XCall) (src srcHost excess share limit : Nat) : Grown (execLearnConfig x src srcHost excess share limit) := by
  refine grown_of (xop_grows fun c s => ?_)
  dsimp only
  split_ifs <;> simp

theorem execAgingConfig_grown (x : XCall) (table pipes ageS sliceUs entries : Nat) : Grown (execAgingConfig x table pipes ageS sliceUs entries) := by
  refine grown_of (xop_grows fun c s => ?_)
  dsimp only
  split_ifs <;> simp

theorem execLbGroupSet_grown (x : XCall) (group record : Nat) (members : List Nat) : Grown (execLbGroupSet x group record members) := by
  refine grown_of (xop_grows fun c s => ?_)
  repeat' split
  all_goals simp

theorem execLbMonitor_grown (x : XCall) (group op ratio windows rotate : Nat) : Grown (execLbMonitor x group op ratio windows rotate) := by
  refine grown_of (xop_grows fun c s => ?_)
  simp [apply_ite Prod.fst]

theorem execParseDepthSet_grown (x : XCall) (port : Nat) (record : BitVec 128) : Grown (execParseDepthSet x port record) := by
  refine grown_of (xop_grows fun c s => ?_)
  repeat' split
  all_goals simp

theorem execPortDefaultSet_grown (x : XCall) (port : Nat) (action : BitVec 64) : Grown (execPortDefaultSet x port action) := by
  refine grown_of (xop_grows fun c s => ?_)
  dsimp only
  split_ifs <;> simp

theorem execRuleWrite_grown (x : XCall) (pipes kind slot : Nat) (entry : BitVec 1536) : Grown (execRuleWrite x pipes kind slot entry) := by
  refine grown_of (xop_grows fun c s => ?_)
  dsimp only
  repeat' split
  all_goals simp

theorem execRuleClear_grown (x : XCall) (pipes kind slot : Nat) : Grown (execRuleClear x pipes kind slot) := by
  refine grown_of (xop_grows fun c s => ?_)
  repeat' split
  all_goals simp

theorem execRuleRead_grown (x : XCall) (pipe pad kind slot : Nat) : Grown (execRuleRead x pipe pad kind slot) := by
  refine grown_of (xop_grows fun c s => ?_)
  dsimp only
  split_ifs <;> simp

theorem execUcodeLoad_grown (x : XCall) (u : UcodeReq) : Grown (execUcodeLoad x u) := by
  refine grown_of (xop_grows fun c s => ?_)
  split <;> simp

theorem execUcodeKeyEnrol_grown (x : XCall) (index op : Nat) (key : List Byte) : Grown (execUcodeKeyEnrol x index op key) := by
  refine grown_of (xop_grows fun c s => ?_)
  dsimp only
  split_ifs <;> simp

theorem execUcodeInfo_grown (x : XCall) (pipe pad : Nat) : Grown (execUcodeInfo x pipe pad) := grown_of (xop_grows fun _ s => .refl s.ctr)

theorem execUcodePatchState_grown (x : XCall) (pipe pad : Nat) : Grown (execUcodePatchState x pipe pad) := grown_of (xop_grows fun _ s => .refl s.ctr)

theorem execPadCopy_grown (x : XCall) : Grown (execPadCopy x) := grown_of (xop_grows fun c s => by simp)

theorem execPadLeap_grown (x : XCall) (mode expect time : Nat) : Grown (execPadLeap x mode expect time) := grown_of (xop_grows fun c s => by simp)

theorem execPadState_grown (x : XCall) : Grown (execPadState x) := grown_of (xop_grows fun _ s => .refl s.ctr)

theorem execPadDiscard_grown (x : XCall) : Grown (execPadDiscard x) := grown_of (xop_grows fun c s => by simp)

theorem execPoolConfig_grown (x : XCall) (pool : Nat) (record : BitVec 64) : Grown (execPoolConfig x pool record) := by
  refine grown_of (xop_grows fun c s => ?_)
  dsimp only
  split_ifs <;> simp

theorem execReserveSet_grown (x : XCall) (okind pool lossless id min headroom : Nat) :
    Grown (execReserveSet x okind pool lossless id min headroom) := by
  refine grown_of (xop_grows fun c s => ?_)
  simp [apply_ite Prod.fst]

theorem execPolicerSet_grown (x : XCall) (index : Nat) (record : BitVec 256) : Grown (execPolicerSet x index record) := by
  refine grown_of (xop_grows fun c s => ?_)
  dsimp only
  split_ifs <;> simp

theorem execShaperSet_grown (x : XCall) (level resetTo node cir cbs pir pbs : Nat) : Grown (execShaperSet x level resetTo node cir cbs pir pbs) := by
  refine grown_of (xop_grows fun c s => ?_)
  repeat' split
  all_goals simp

theorem execQueueMap_grown (x : XCall) (q : QMap) : Grown (execQueueMap x q) := grown_of (xop_grows fun c s => by simp)

theorem execQueueSampleConfig_grown (x : XCall) (ring log2 interval count ringAddr indexAddr : Nat) (queues : List Nat) :
    Grown (execQueueSampleConfig x ring log2 interval count ringAddr indexAddr queues) := by
  refine grown_of (xop_grows fun c s => ?_)
  dsimp only
  repeat' split
  all_goals simp

theorem execQueueStats_grown (x : XCall) (queue : Nat) : Grown (execQueueStats x queue) := by
  refine grown_of (xop_grows fun c s => ?_)
  dsimp only
  split_ifs <;> simp

theorem execVolCreate_grown (x : XCall) (handle tenant slot size opts : Nat) (reps : List (Nat × Nat)) :
    Grown (execVolCreate x handle tenant slot size opts reps) := by
  refine grown_of (xop_grows fun c s => ?_)
  dsimp only
  repeat' split
  all_goals simp

theorem execVolDestroy_grown (x : XCall) (handle : Nat) : Grown (execVolDestroy x handle) := by
  refine grown_of (xop_grows fun c s => ?_)
  dsimp only
  split_ifs <;> simp

theorem execVolAttach_grown (x : XCall) (handle fid nsid format pitype rebuild : Nat) :
    Grown (execVolAttach x handle fid nsid format pitype rebuild) := by
  refine grown_of (xop_grows fun c s => ?_)
  dsimp only
  repeat' split
  all_goals simp

theorem execVolDetach_grown (x : XCall) (handle fid : Nat) : Grown (execVolDetach x handle fid) := by
  refine grown_of (xop_grows fun c s => ?_)
  dsimp only
  split <;> simp

theorem execBackendAdd_grown (x : XCall) (c : BackCfg) (found : BackFound) : Grown (execBackendAdd x c found) := by
  refine grown_of (xop_grows fun c s => ?_)
  dsimp only
  repeat' split
  all_goals simp

theorem execBackendState_grown (x : XCall) (backend : Nat) : Grown (execBackendState x backend) := by
  refine grown_of (xop_grows fun c s => ?_)
  dsimp only
  split_ifs <;> simp

theorem execVolReconcileState_grown (x : XCall) (handle : Nat) : Grown (execVolReconcileState x handle) := grown_of (xop_grows fun _ s => .refl s.ctr)

theorem execKeyLoad_grown (x : XCall) (slot wrapSlot type usage tenant : Nat) (material : List Byte) :
    Grown (execKeyLoad x slot wrapSlot type usage tenant material) := by
  refine grown_of (xop_grows fun c s => ?_)
  have hturn : Grows s (if wrapNamed wrapSlot then controlTurn (mbxControl c.fid) material.length s else (true, s)).2 := .of (by split <;> simp)
  generalize (if wrapNamed wrapSlot then controlTurn (mbxControl c.fid) material.length s else (true, s)) = turn at hturn ⊢
  obtain ⟨_ | _, u⟩ := turn
  all_goals
    dsimp only at hturn ⊢
    repeat' split
    all_goals simp [hturn]

theorem execKeyErase_grown (x : XCall) (slot : Nat) : Grown (execKeyErase x slot) := by
  refine grown_of (xop_grows fun c s => ?_)
  dsimp only
  split_ifs <;> simp

theorem execKeyEraseComplete_grown (slot : Nat) : Grown (execKeyEraseComplete slot) := grown_of_rises fun s => by simp

theorem execSaCreate_grown (x : XCall) (c : SaCfg) : Grown (execSaCreate x c) := by
  refine grown_of (xop_grows fun call s => ?_)
  have hturn : Grows s (if 2 ≤ c.kind then secKeyIn c.octet (mbxControl call.fid) c.slot s else (.there, s)).2 := .of (by split <;> simp)
  generalize (if 2 ≤ c.kind then secKeyIn c.octet (mbxControl call.fid) c.slot s else (.there, s)) = turn at hturn ⊢
  obtain ⟨_ | _ | _, u⟩ := turn
  all_goals
    dsimp only at hturn ⊢
    repeat' split
    all_goals simp [hturn]

theorem execSaState_grown (x : XCall) (sa : Nat) : Grown (execSaState x sa) := by
  refine grown_of (xop_grows fun c s => ?_)
  dsimp only
  split <;> simp

theorem execAlarmState_grown (x : XCall) : Grown (execAlarmState x) := grown_of (xop_grows fun _ s => .refl s.ctr)

theorem execAlarmClear_grown (x : XCall) : Grown (execAlarmClear x) := by
  refine grown_of (xop_grows fun c s => ?_)
  split <;> simp

theorem execKekRotate_grown (x : XCall) : Grown (execKekRotate x) := by
  refine grown_of (xop_grows fun c s => ?_)
  dsimp only
  split_ifs <;> simp

theorem execKekRotationDone_grown : Grown execKekRotationDone := by
  refine grown_of_rises fun s => ?_
  split
  · exact .refl _
  extract_lets old
  have hturn : Grows s (if old.isEmpty then (true, s) else controlTurn 262144 (128 * old.length) s).2 := .of (by split <;> simp)
  generalize (if old.isEmpty then (true, s) else controlTurn 262144 (128 * old.length) s) = turn at hturn ⊢
  obtain ⟨_ | _, u⟩ := turn
  all_goals simp_all

theorem execCipherRequestComplete_grown (req : Nat) (hwFault : Bool) (pcw : PcwSeen) : Grown (execCipherRequestComplete req hwFault pcw) :=
  grown_of (settleAll_grows _ fun s => by simp)

theorem execCipherBusyTimeout_grown (turn : ReqTurn) : Grown (execCipherBusyTimeout turn) := by
  refine grown_of (settleAll_grows _ fun s => ?_)
  split <;> simp

theorem execKeyCacheFill_grown (read : SlotRead) : Grown (execKeyCacheFill read) := by
  refine grown_of_rises fun s => ?_
  dsimp only
  have hturn := controlTurn_grows read.slot 240 s
  generalize controlTurn read.slot 240 s = turn at hturn ⊢
  obtain ⟨_ | _, u⟩ := turn
  all_goals simp_all

theorem execPartCreate_grown (x : XCall) (form cluster cores action tenant clusters channels handles sentinelMs regionMib : Nat) :
    Grown (execPartCreate x form cluster cores action tenant clusters channels handles sentinelMs regionMib) := by
  refine grown_of (xop_grows fun c s => ?_)
  dsimp only
  repeat' split
  all_goals simp

theorem execPartDestroy_grown (x : XCall) (part : Nat) : Grown (execPartDestroy x part) := by
  refine grown_of (xop_grows fun c s => ?_)
  dsimp only
  repeat' split
  all_goals simp

theorem execImageLoad_grown (x : XCall) (part : Nat) (image : List Byte) : Grown (execImageLoad x part image) := by
  refine grown_of (xop_grows fun c s => ?_)
  repeat' split
  all_goals simp

theorem execPartStart_grown (x : XCall) (part : Nat) : Grown (execPartStart x part) := by
  refine grown_of (xop_grows fun c s => ?_)
  repeat' split
  all_goals simp

theorem execPartStop_grown (x : XCall) (part : Nat) : Grown (execPartStop x part) := by
  refine grown_of (xop_grows fun c s => ?_)
  split <;> simp

theorem execDebugAttach_grown (x : XCall) (part op : Nat) : Grown (execDebugAttach x part op) := by
  refine grown_of (xop_grows fun c s => ?_)
  dsimp only
  split_ifs <;> simp

theorem execMeterRead_grown (x : XCall) (form tenant index : Nat) :
    Grown (execMeterRead x form tenant index) :=
  grown_of (xop_grows fun _ s => .refl s.ctr)

theorem execMeterExportConfig_grown (x : XCall) (c : ExportCfg) : Grown (execMeterExportConfig x c) := by
  refine grown_of (xop_grows fun c s => ?_)
  split <;> simp

theorem execTelemConfig_grown (x : XCall) (intervalMs log2 ringAddr indexAddr : Nat) : Grown (execTelemConfig x intervalMs log2 ringAddr indexAddr) :=
  grown_of (xop_grows fun c s => by simp)

theorem execEventSubscribe_grown (x : XCall) (mask log2 vector ringAddr indexAddr : Nat) :
    Grown (execEventSubscribe x mask log2 vector ringAddr indexAddr) := by
  refine grown_of (xop_grows fun c s => ?_)
  dsimp only
  split_ifs <;> simp

theorem execFwStage_grown (x : XCall) (slot offset total : Nat) (data : List Byte) : Grown (execFwStage x slot offset total data) := by
  refine grown_of (xop_grows fun c s => ?_)
  dsimp only
  repeat' split
  all_goals simp

theorem execFwActivateDrainDone_grown : Grown execFwActivateDrainDone := by
  refine grown_of_rises fun s => ?_
  dsimp only
  repeat' split
  all_goals simp

theorem execFwActivateDrainTimeout_grown : Grown execFwActivateDrainTimeout := by
  refine grown_of_rises fun s => ?_
  split <;> simp

theorem execFwState_grown (x : XCall) : Grown (execFwState x) := grown_of (xop_grows fun _ s => .refl s.ctr)

theorem execTrialConfirm_grown : Grown execTrialConfirm := grown_of_rises fun s => by simp

theorem execTrialTimerExpire_grown : Grown execTrialTimerExpire := grown_of_rises fun s => by simp

theorem execKeyRevoke_grown (x : XCall) (index : Nat) : Grown (execKeyRevoke x index) := by
  refine grown_of (xop_grows fun c s => ?_)
  dsimp only
  split_ifs <;> simp

theorem execAttestQuote_grown (x : XCall) (nonce : List Byte) : Grown (execAttestQuote x nonce) := grown_of (xop_grows fun _ s => .refl s.ctr)

theorem execBaskEnter_grown (x : XCall) : Grown (execBaskEnter x) := by
  refine grown_of (xop_grows fun c s => ?_)
  split <;> simp

theorem execBaskDrainTimeout_grown (us : Nat) : Grown (execBaskDrainTimeout us) := grown_of_rises fun s => by simp

theorem execFaultLogRead_grown (x : XCall) (seqFrom : Nat) : Grown (execFaultLogRead x seqFrom) := grown_of (xop_grows fun _ s => .refl s.ctr)

theorem execFaultClear_grown (x : XCall) (seq : Nat) : Grown (execFaultClear x seq) := grown_of (xop_grows fun c s => by simp)

theorem execRegrowState_grown (x : XCall) : Grown (execRegrowState x) := grown_of (xop_grows fun _ s => .refl s.ctr)

theorem execRegrowStart_grown (x : XCall) (kind unit : Nat) : Grown (execRegrowStart x kind unit) := by
  refine grown_of (xop_grows fun c s => ?_)
  dsimp only
  repeat' split
  all_goals simp

theorem execWearReport_grown (x : XCall) : Grown (execWearReport x) := grown_of (xop_grows fun _ s => .refl s.ctr)

theorem execPowerBudgetSet_grown (x : XCall) (core coreHard sds sdsHard packageW : Nat) (note : BudgetNote) :
    Grown (execPowerBudgetSet x core coreHard sds sdsHard packageW note) := by
  refine grown_of (xop_grows fun c s => ?_)
  dsimp only
  repeat' split
  all_goals simp

theorem execPowerState_grown (x : XCall) : Grown (execPowerState x) := grown_of (xop_grows fun c s => by simp)

theorem execGovernorSet_grown (x : XCall) (margin stepUpMv stepDownHalfMv vminMv vmaxMv periodUs holdDown : Nat) :
    Grown (execGovernorSet x margin stepUpMv stepDownHalfMv vminMv vmaxMv periodUs holdDown) := by
  refine grown_of (xop_grows fun c s => ?_)
  dsimp only
  split_ifs <;> simp

theorem execMigDirtyStart_grown (x : XCall) (fid len bitmap : Nat) : Grown (execMigDirtyStart x fid len bitmap) := by
  refine grown_of (xop_grows fun c s => ?_)
  dsimp only
  split_ifs <;> simp

theorem execMigDirtyStop_grown (x : XCall) (fid : Nat) : Grown (execMigDirtyStop x fid) := by
  refine grown_of (xop_grows fun c s => ?_)
  repeat' split
  all_goals simp

theorem execDirtyBitWrite_grown (fid page : Nat) : Grown (execDirtyBitWrite fid page) := by
  refine grown_of_rises fun s => ?_
  split <;> simp

theorem execMigFreeze_grown (x : XCall) (fid : Nat) : Grown (execMigFreeze x fid) := by
  refine grown_of (xop_grows fun c s => ?_)
  repeat' split
  all_goals simp

theorem execMigFreezeDrainDone_grown (fid : Nat) : Grown (execMigFreezeDrainDone fid) := grown_of_rises fun s => by simp

theorem execMigFreezeTimeout_grown (fid : Nat) : Grown (execMigFreezeTimeout fid) := grown_of_rises fun s => by simp

theorem execMigSave_grown (x : XCall) (fid : Nat) : Grown (execMigSave x fid) := by
  refine grown_of (xop_grows fun c s => ?_)
  have hturn := migTurn_grows c.fid (64 + (saveBody s fid).length + 8 + 16) s
  dsimp only
  generalize migTurn c.fid (64 + (saveBody s fid).length + 8 + 16) s = turn at hturn ⊢
  obtain ⟨_ | _, u⟩ := turn
  all_goals
    dsimp only at hturn ⊢
    repeat' split
    all_goals simp [hturn]

theorem execMigRestore_grown (x : XCall) (fid : Nat) (blob : List Byte) : Grown (execMigRestore x fid blob) := by
  refine grown_of (xop_grows fun c s => ?_)
  have hturn := migTurn_grows c.fid blob.length s
  dsimp only
  generalize migTurn c.fid blob.length s = turn at hturn ⊢
  obtain ⟨_ | _, u⟩ := turn
  all_goals
    dsimp only at hturn ⊢
    repeat' split
    all_goals simp [hturn]

theorem execMigThaw_grown (x : XCall) (fid : Nat) : Grown (execMigThaw x fid) := by
  refine grown_of (xop_grows fun c s => ?_)
  dsimp only
  split_ifs <;> simp

theorem execMigKeySet_grown (x : XCall) (slot : Nat) : Grown (execMigKeySet x slot) := by
  refine grown_of (xop_grows fun c s => ?_)
  dsimp only
  split <;> simp

theorem execChainState_grown (x : XCall) : Grown (execChainState x) := grown_of (xop_grows fun _ s => .refl s.ctr)

theorem execChainSend_grown (x : XCall) (dest len : Nat) (data : List Byte) : Grown (execChainSend x dest len data) := by
  refine grown_of (xop_grows fun c s => ?_)
  dsimp only
  split_ifs <;> simp

theorem execChainSendTimeout_grown : Grown execChainSendTimeout := grown_of_rises fun s => by simp

theorem execCkvCtxRead_grown (x : XCall) (index : Nat) : Grown (execCkvCtxRead x index) := grown_of (xop_grows fun _ s => .refl s.ctr)

theorem execCkvCtxWrite_grown (x : XCall) (index : Nat) (context : BitVec 256) : Grown (execCkvCtxWrite x index context) := by
  refine grown_of (xop_grows fun c s => ?_)
  dsimp only
  repeat' split
  all_goals simp

theorem execVfExchNotify_grown (fid value : Nat) : Grown (execVfExchNotify fid value) := grown_of_rises fun s => by simp

theorem execPfExchNotify_grown (fid value : Nat) : Grown (execPfExchNotify fid value) := grown_of_rises fun s => by simp

theorem execExchPendClear_grown (fid index value : Nat) : Grown (execExchPendClear fid index value) := grown_of_rises fun s => by simp

theorem execRcvOwnerWrite_grown (value : Nat) : Grown (execRcvOwnerWrite value) := grown_of_rises fun s => by simp

theorem execNvmeCcEnable_grown (fn : FnRef) (value : Nat) : Grown (execNvmeCcEnable fn value) := grown_of_rises fun s => by simp

theorem execNvmeCcDisable_grown (fn : FnRef) (value : Nat) : Grown (execNvmeCcDisable fn value) := grown_of_rises fun s => by simp

theorem execNvmeCcShutdown_grown (fn : FnRef) (value : Nat) : Grown (execNvmeCcShutdown fn value) := grown_of_rises fun s => by simp

theorem execNvmeSqDoorbell_grown (fid qid value : Nat) : Grown (execNvmeSqDoorbell fid qid value) := grown_of_rises fun s => by simp

theorem execNvmeCqDoorbell_grown (fid qid value : Nat) : Grown (execNvmeCqDoorbell fid qid value) := grown_of_rises fun s => by simp

theorem execNvmeCommandFetch_grown (fid qid : Nat) (sqe : BitVec 512) (lists : List (List Byte)) (mdList : List Byte) (ranges : List (Nat × Nat))
    (composed : Bool) :
    Grown (execNvmeCommandFetch fid qid sqe lists mdList ranges composed) :=
  grown_of_rises fun s => by simp

theorem execNvmeCommandStart_grown (fid qid : Nat) (cmd : Posting) : Grown (execNvmeCommandStart fid qid cmd) := by
  refine grown_of_rises fun s => ?_
  split <;> simp

theorem execNvmePostingPoint_grown (fid qid : Nat) (entry : Posting) : Grown (execNvmePostingPoint fid qid entry) := by
  refine grown_of_rises fun s => ?_
  split <;> simp

theorem execNvmeDeleteIoSq_grown (fid cid : Nat) : Grown (execNvmeDeleteIoSq fid cid) := by
  refine grown_of (admin_grows fun c s => ?_)
  simp

theorem execNvmeCreateIoSq_grown (fid cid : Nat) : Grown (execNvmeCreateIoSq fid cid) := by
  refine grown_of (admin_grows fun c s => ?_)
  simp

theorem execNvmeGetLogPage_grown (fid cid : Nat) : Grown (execNvmeGetLogPage fid cid) := by
  refine grown_of (admin_grows fun c s => ?_)
  dsimp only
  split
  · simp
  · rename_i p t e
    have ht := logPage_grows e
    simp [ht]

theorem execNvmeDeleteIoCq_grown (fid cid : Nat) : Grown (execNvmeDeleteIoCq fid cid) := by
  refine grown_of (admin_grows fun c s => ?_)
  simp

theorem execNvmeCreateIoCq_grown (fid cid : Nat) : Grown (execNvmeCreateIoCq fid cid) := by
  refine grown_of (admin_grows fun c s => ?_)
  simp

theorem execNvmeIdentify_grown (fid cid : Nat) : Grown (execNvmeIdentify fid cid) := by
  refine grown_of (admin_grows fun c s => ?_)
  split <;> simp

theorem execNvmeAbort_grown (fid cid : Nat) : Grown (execNvmeAbort fid cid) := by
  refine grown_of_rises fun s => ?_
  dsimp only
  repeat' split
  all_goals simp

theorem execNvmeSetFeatures_grown (fid cid : Nat) : Grown (execNvmeSetFeatures fid cid) := by
  refine grown_of (admin_grows fun c s => ?_)
  dsimp only
  repeat' split
  all_goals simp

theorem execNvmeGetFeatures_grown (fid cid : Nat) : Grown (execNvmeGetFeatures fid cid) := by
  refine grown_of (admin_grows fun c s => ?_)
  repeat' split
  all_goals simp

theorem execNvmeAsyncEventRequest_grown (fid cid : Nat) : Grown (execNvmeAsyncEventRequest fid cid) := by
  refine grown_of (admin_grows fun c s => ?_)
  simp

theorem execNvmeAdminUnsupported_grown (fid cid : Nat) : Grown (execNvmeAdminUnsupported fid cid) := by
  refine grown_of_rises fun s => ?_
  split <;> simp

theorem execNvmeFlush_grown (fid qid cid : Nat) : Grown (execNvmeFlush fid qid cid) := by
  refine grown_of_rises fun s => ?_
  split <;> simp

theorem execNvmeWrite_grown (fid qid cid : Nat) (data md : List Byte) : Grown (execNvmeWrite fid qid cid data md) := by
  refine grown_of_rises fun s => ?_
  split <;> simp

theorem execNvmeRead_grown (fid qid cid : Nat) : Grown (execNvmeRead fid qid cid) := by
  refine grown_of_rises fun s => ?_
  split <;> simp

theorem execNvmeCompare_grown (fid qid cid : Nat) (data md : List Byte) : Grown (execNvmeCompare fid qid cid data md) := by
  refine grown_of_rises fun s => ?_
  split <;> simp

theorem execNvmeWriteZeroes_grown (fid qid cid : Nat) : Grown (execNvmeWriteZeroes fid qid cid) := by
  refine grown_of_rises fun s => ?_
  split <;> simp

theorem execNvmeDatasetManagement_grown (fid qid cid : Nat) : Grown (execNvmeDatasetManagement fid qid cid) := by
  refine grown_of_rises fun s => ?_
  repeat' split
  all_goals simp

theorem execNvmeFusedCompareWrite_grown (fid qid cid : Nat) (data md wdata wmd : List Byte) :
    Grown (execNvmeFusedCompareWrite fid qid cid data md wdata wmd) := by
  refine grown_of_rises fun s => ?_
  dsimp only
  repeat' split
  all_goals simp

theorem execNvmeIoUnsupported_grown (fid qid cid : Nat) : Grown (execNvmeIoUnsupported fid qid cid) := by
  refine grown_of_rises fun s => ?_
  repeat' split
  all_goals simp

theorem execIntentRecordTake_grown (fid qid cid : Nat) : Grown (execIntentRecordTake fid qid cid) := by
  refine grown_of_rises fun s => ?_
  split <;> simp

theorem execBackendResponse_grown (tag : Nat) (good : Bool) (data : List Byte) : Grown (execBackendResponse tag good data) := by
  refine grown_of_rises fun s => ?_
  split <;> simp

theorem execBackendPduReceive_grown (backend : Nat) (p : PduIn) : Grown (execBackendPduReceive backend p) := by
  refine grown_of_rises fun s => ?_
  repeat' split
  all_goals simp

theorem execBackendTimeout_grown (backend : Nat) : Grown (execBackendTimeout backend) := grown_of_rises fun s => by simp

theorem execBackendConnectionLost_grown (backend : Nat) : Grown (execBackendConnectionLost backend) := grown_of_rises fun s => by simp

theorem execBackendReconnect_grown (backend : Nat) (link : Option Link) : Grown (execBackendReconnect backend link) := by
  refine grown_of_rises fun s => ?_
  split <;> simp

theorem execReconcileChunkDone_grown (vol failed : Nat) (data : List Byte) : Grown (execReconcileChunkDone vol failed data) :=
  grown_of_rises fun s => by simp

theorem execRebuildChunkDone_grown (vol lba failed : Nat) (data : List Byte) : Grown (execRebuildChunkDone vol lba failed data) :=
  grown_of_rises fun s => by simp

theorem execChWr_grown (tid idx word : Nat) : Grown (execChWr tid idx word) := grown_of fun s => act_grows (by simp)

theorem execChCmt_grown (tid chan n rd : Nat) (nb : Bool) : Grown (execChCmt tid chan n rd nb) := grown_of fun s => act_grows (by simp)

theorem execChCmtResume_grown (tid : Nat) : Grown (execChCmtResume tid) := by
  refine grown_of_rises fun s => ?_
  split <;> simp

theorem execChRd_grown (tid chan rd : Nat) : Grown (execChRd tid chan rd) := grown_of fun s => act_grows (by simp)

theorem execChTry_grown (tid chan rd : Nat) : Grown (execChTry tid chan rd) := grown_of fun s => act_grows (by simp)

theorem execChWaitany_grown (tid base mask rd : Nat) : Grown (execChWaitany tid base mask rd) := grown_of fun s => act_grows (by simp)

theorem execChannelWaitWake_grown (tid : Nat) : Grown (execChannelWaitWake tid) := by
  refine grown_of_rises fun s => ?_
  repeat' split
  all_goals simp

theorem execFork_grown (tid entry arg rd : Nat) : Grown (execFork tid entry arg rd) := grown_of fun s => act_grows (by simp)

theorem execJoin_grown (tid target rd : Nat) : Grown (execJoin tid target rd) := grown_of fun s => act_grows (by simp)

theorem execThreadExit_grown (tid value : Nat) : Grown (execThreadExit tid value) := grown_of fun s => act_grows (by simp)

theorem execTrelease_grown (tid target : Nat) : Grown (execTrelease tid target) := grown_of fun s => act_grows (by simp)

theorem execTreset_grown (tid target : Nat) : Grown (execTreset tid target) := grown_of fun s => act_grows (by simp)

theorem execThreadControlCsr_grown (tid csr : Nat) (write : Bool) (value rd : Nat) : Grown (execThreadControlCsr tid csr write value rd) := by
  refine grown_of fun s => act_grows ?_
  dsimp only
  have hwrite {t : State} (e : tcsrWrite tid csr value s = some t) : Rises s.ctr t.ctr := (tcsrWrite_grows e).rises
  repeat' split
  all_goals simp_all

theorem execChannelEntryWrite_grown (tid chan half value : Nat) : Grown (execChannelEntryWrite tid chan half value) := by
  refine grown_of fun s => act_grows (mapped_grows ?_).rises
  simp

theorem execEcallCustomer_grown (tid epc tval : Nat) : Grown (execEcallCustomer tid epc tval) := grown_of fun s => act_grows (by simp)

theorem execThreadFault_grown (tid code epc tval addr : Nat) : Grown (execThreadFault tid code epc tval addr) :=
  grown_of fun s => act_grows (by simp)

theorem execCipherSubmit_grown (tid : Nat) (request : BitVec 512) : Grown (execCipherSubmit tid request) := by
  refine grown_of (actWin_grows fun s => ?_)
  simp

theorem execCopyOut_grown (tid handle addr len off : Nat) : Grown (execCopyOut tid handle addr len off) := by
  refine grown_of fun s => act_grows ?_
  dsimp only
  split <;> simp

theorem execCopyMeta_grown (tid handle addr : Nat) : Grown (execCopyMeta tid handle addr) := by
  refine grown_of fun s => act_grows ?_
  dsimp only
  split <;> simp

theorem execFree_grown (tid handle : Nat) : Grown (execFree tid handle) := by
  refine grown_of fun s => act_grows ?_
  dsimp only
  split <;> simp

theorem execInjectHandle_grown (tid handle pipe port : Nat) : Grown (execInjectHandle tid handle pipe port) := by
  refine grown_of (actWin_grows fun s => ?_)
  dsimp only
  split
  · simp
  · split
    · next e => simp [Grows.of_fst (injectTry_grows ..) e]
    · next e => simp [Grows.of_fst (injectTry_grows ..) e]

theorem execInjectBuffer_grown (tid addr len pipe port : Nat) : Grown (execInjectBuffer tid addr len pipe port) := by
  refine grown_of (actWin_grows fun s => ?_)
  simp

theorem execContextHold_grown (tid index : Nat) : Grown (execContextHold tid index) := by
  refine grown_of (ctxAct_grows fun s => ?_)
  simp

theorem execContextRelease_grown (tid index : Nat) : Grown (execContextRelease tid index) := by
  refine grown_of (ctxAct_grows fun s => ?_)
  simp

theorem execContextRead_grown (tid index : Nat) : Grown (execContextRead tid index) := by
  refine grown_of (ctxAct_grows fun s => ?_)
  simp

theorem execContextWrite_grown (tid index : Nat) (data : BitVec 256) : Grown (execContextWrite tid index data) := by
  refine grown_of (ctxAct_grows fun s => ?_)
  simp

theorem execSkinkTimerFire_grown (chan : Nat) : Grown (execSkinkTimerFire chan) := grown_of_rises fun s => by simp

theorem execSkinkPeriodTick_grown (chan : Nat) : Grown (execSkinkPeriodTick chan) := grown_of_rises fun s => by simp

theorem execSentinelFire_grown (part : Nat) : Grown (execSentinelFire part) := by
  refine grown_of_rises fun s => ?_
  split <;> simp

theorem execSentinelEscalate_grown (part : Nat) : Grown (execSentinelEscalate part) := by
  refine grown_of_rises fun s => ?_
  split <;> simp

theorem execDebugHalt_grown (tid : Nat) : Grown (execDebugHalt tid) := grown_of_rises fun s => by simp

theorem execDebugResume_grown (tid : Nat) : Grown (execDebugResume tid) := grown_of_rises fun s => by simp

theorem execDebugSingleStep_grown (tid : Nat) (next : Option Nat) : Grown (execDebugSingleStep tid next) := by
  refine grown_of_rises fun s => ?_
  dsimp only
  repeat' split
  all_goals simp

theorem execI3cPrivateRead_grown : Grown execI3cPrivateRead := by
  refine grown_of_rises fun s => ?_
  repeat' split
  all_goals simp

theorem execEnec_grown (direct : Bool) (events : Nat) : Grown (execEnec direct events) := by
  refine grown_of_rises fun s => ?_
  dsimp only
  repeat' split
  all_goals simp

theorem execDisec_grown (direct : Bool) (events : Nat) : Grown (execDisec direct events) := grown_of_rises fun s => by simp

theorem execRstdaa_grown : Grown execRstdaa := grown_of_rises fun s => by simp

theorem execEntdaa_grown (addr : Nat) : Grown (execEntdaa addr) := grown_of_rises fun s => by simp

theorem execSetmwl_grown (direct : Bool) (len : Nat) : Grown (execSetmwl direct len) := grown_of_rises fun s => by simp

theorem execSetmrl_grown (direct : Bool) (len : Nat) : Grown (execSetmrl direct len) := grown_of_rises fun s => by simp

theorem execRstact_grown (direct : Bool) (action : Nat) : Grown (execRstact direct action) := grown_of_rises fun s => by simp

theorem execSetnewda_grown (addr : Nat) : Grown (execSetnewda addr) := grown_of_rises fun s => by simp

theorem execGetmwl_grown : Grown execGetmwl := grown_of_rises fun s => by simp

theorem execGetmrl_grown : Grown execGetmrl := grown_of_rises fun s => by simp

theorem execGetpid_grown : Grown execGetpid := grown_of_rises fun s => by simp

theorem execGetbcr_grown : Grown execGetbcr := grown_of_rises fun s => by simp

theorem execGetdcr_grown : Grown execGetdcr := grown_of_rises fun s => by simp

theorem execGetstatus_grown : Grown execGetstatus := grown_of_rises fun s => by simp

theorem execGetmxds_grown : Grown execGetmxds := grown_of_rises fun s => by simp

theorem execI3cUnsupportedCcc_grown (code : Nat) (direct : Bool) : Grown (execI3cUnsupportedCcc code direct) := grown_of_rises fun s => by simp

theorem execHotJoinRequest_grown : Grown execHotJoinRequest := grown_of_rises fun s => by simp

theorem execKeep_grown (frame : BitVec 64) : Grown (execKeep frame) := by
  refine grown_of (chainRecv_grows fun s => ?_)
  simp

theorem execKeepSend_grown : Grown execKeepSend := grown_of_rises fun s => by simp

theorem execEnum_grown (frame : BitVec 64) : Grown (execEnum frame) := by
  refine grown_of (chainRecv_grows fun s => ?_)
  simp

theorem execClose_grown (frame : BitVec 64) : Grown (execClose frame) := by
  refine grown_of (chainRecv_grows fun s => ?_)
  repeat' split
  all_goals simp

theorem execReset_grown (frame : BitVec 64) : Grown (execReset frame) := by
  refine grown_of (chainRecv_grows fun s => ?_)
  simp

theorem execLeapArm_grown (frame : BitVec 64) : Grown (execLeapArm frame) := by
  refine grown_of (chainRecv_grows fun s => ?_)
  dsimp only
  split
  · simp
  split
  · simp
  split
  · rename_i t e
    split at e
    · exact (Grows.trans (.of (by simp)) (leapArm_grows e)).rises
    · cases e
  · simp

theorem execLeapCancel_grown (frame : BitVec 64) : Grown (execLeapCancel frame) := by
  refine grown_of (chainRecv_grows fun s => ?_)
  simp

theorem execLend_grown (frame : BitVec 64) : Grown (execLend frame) := by
  refine grown_of (chainRecv_grows fun s => ?_)
  simp

theorem execFault_grown (frame : BitVec 64) : Grown (execFault frame) := by
  refine grown_of (chainRecv_grows fun s => ?_)
  simp

theorem execData_grown (frame : BitVec 64) : Grown (execData frame) := by
  refine grown_of (chainRecv_grows fun s => ?_)
  dsimp only
  repeat' split
  all_goals simp

theorem execReservedFrameType_grown (frame : BitVec 64) : Grown (execReservedFrameType frame) := grown_of_rises fun s => by simp

theorem execChainBitTimeout_grown : Grown execChainBitTimeout := grown_of_rises fun s => by simp

theorem execChainInLinkLost_grown : Grown execChainInLinkLost := grown_of_rises fun s => by simp

theorem execChainOutLinkLost_grown : Grown execChainOutLinkLost := grown_of_rises fun s => by simp

theorem execChainEnumRetry_grown : Grown execChainEnumRetry := grown_of_rises fun s => by simp

theorem execChainArmTimeout_grown : Grown execChainArmTimeout := grown_of_rises fun s => by simp

theorem execIdcode_grown : Grown execIdcode := grown_of_rises fun s => by simp

theorem execSamplePreload_grown : Grown execSamplePreload := grown_of_rises fun s => by simp

theorem execExtest_grown : Grown execExtest := grown_of_rises fun s => by simp

theorem execExtestPulse_grown : Grown execExtestPulse := grown_of_rises fun s => by simp

theorem execExtestTrain_grown : Grown execExtestTrain := grown_of_rises fun s => by simp

theorem execClamp_grown : Grown execClamp := grown_of_rises fun s => by simp

theorem execHighz_grown : Grown execHighz := grown_of_rises fun s => by simp

theorem execDbgChallenge_grown : Grown execDbgChallenge := grown_of_rises fun s => by simp

theorem execDbgToken_grown (token : List Byte) : Grown (execDbgToken token) := grown_of_rises fun s => by simp

theorem execDbgStatus_grown : Grown execDbgStatus := grown_of_rises fun s => by simp

theorem execDbgDmi_grown (scope : Nat) (write : Bool) (addr value : Nat) :
    Grown (execDbgDmi scope write addr value) :=
  grown_of_rises fun s => by simp

theorem execBypass_grown (code : Nat) : Grown (execBypass code) := grown_of_rises fun s => by simp

theorem execUartRxInput_grown (char : Byte) : Grown (execUartRxInput char) := grown_of_rises fun s => by simp

theorem execFunctionReady_grown (port : Nat) : Grown (execFunctionReady port) := grown_of_rises fun s => by simp

theorem execReferenceClockStop_grown (pcie : Bool) (index : Nat) : Grown (execReferenceClockStop pcie index) := grown_of_rises fun s => by simp

theorem execHdrExitPattern_grown : Grown execHdrExitPattern := grown_of_rises fun s => by simp

theorem execChainInvalidCodeword_grown : Grown execChainInvalidCodeword := grown_of_rises fun s => by simp

theorem execNvmeCoalescingTimeExpire_grown (fid cq : Nat) : Grown (execNvmeCoalescingTimeExpire fid cq) := grown_of_rises fun s => by simp

theorem xtirzuRun_grown (tid : Nat) (x : Xtirzu) : Grown (xtirzuRun tid x) := by
  intro s t hrun
  cases x with
  | chWr idx rs1 => exact execChWr_grown tid idx _ s t hrun
  | chCmt rd rs1 n nb => exact execChCmt_grown tid _ n rd nb s t hrun
  | chRd rd rs1 => exact execChRd_grown tid _ rd s t hrun
  | chTry rd rs1 => exact execChTry_grown tid _ rd s t hrun
  | chWaitany rd rs1 rs2 => exact execChWaitany_grown tid _ _ rd s t hrun
  | fork rd rs1 rs2 => exact execFork_grown tid _ _ rd s t hrun
  | join rd rs1 => exact execJoin_grown tid _ rd s t hrun
  | threadExit rs1 => exact execThreadExit_grown tid _ s t hrun
  | trelease rs1 => exact execTrelease_grown tid _ s t hrun
  | treset rs1 => exact execTreset_grown tid _ s t hrun

theorem execXtirzuIllegal_grown (tid epc instr : Nat) (vectored : Bool) : Grown (execXtirzuIllegal tid epc instr vectored) := by
  intro s t hrun
  by_cases hgood : (wfXtirzuIllegal tid epc instr vectored && !xtirzuBad s tid instr) = true
  · cases hx : xtirzuOf instr with
    | none =>
      rw [execXtirzuIllegal_of_bad (.inr hx)] at hrun
      exact grown_of (fun s => act_grows (by simp)) s t hrun
    | some x =>
      rw [execXtirzuIllegal, hgood, hx] at hrun
      exact xtirzuRun_grown tid x s t hrun
  · rw [execXtirzuIllegal_of_bad (.inl (Bool.eq_false_iff.mpr hgood))] at hrun
    exact grown_of (fun s => act_grows (by simp)) s t hrun

/-- Whatever the command, if it does not reset the device. -/
theorem exec_grown : ∀ i, mayReset i = true ∨ Grown (exec i)
  | .sysRstNAssert => .inl rfl
  | .sysRstNRelease .. => .inl rfl
  | .pwrOkRise => .inl rfl
  | .pwrOkFall => .inl rfl
  | .alarmNAssert .. => .inr (execAlarmNAssert_grown _ _)
  | .supplyGlitch .. => .inr (execSupplyGlitch_grown _ _ _)
  | .tjThresholdCross .. => .inr (execTjThresholdCross_grown _ _)
  | .wakeNAssert .. => .inl rfl
  | .ppsInEdge => .inr execPpsInEdge_grown
  | .ptpStep .. => .inr (execPtpStep_grown _)
  | .arbiterEpoch .. => .inr (execArbiterEpoch_grown _ _ _ _)
  | .hardLimitCross .. => .inr (execHardLimitCross_grown _ _)
  | .governorPeriod .. => .inr (execGovernorPeriod_grown _)
  | .avsWriteDone .. => .inr (execAvsWriteDone_grown _)
  | .sensorWindow .. => .inr (execSensorWindow_grown _ _ _)
  | .stallWatchdogFire .. => .inr (execStallWatchdogFire_grown _ _)
  | .invalidCodeword .. => .inr (execInvalidCodeword_grown _ _)
  | .clearSelftestDone .. => .inr (execClearSelftestDone_grown _ _)
  | .probationEnd .. => .inr (execProbationEnd_grown _)
  | .checkerSelftest .. => .inr (execCheckerSelftest_grown _ _ _)
  | .scrubStep .. => .inr (execScrubStep_grown _ _ _ _)
  | .eftLockstepMismatch .. => .inr (execEftLockstepMismatch_grown _)
  | .eftRestartDone => .inr execEftRestartDone_grown
  | .wearEvaluation .. => .inr (execWearEvaluation_grown _ _ _ _ _ _ _)
  | .ageHour .. => .inr (execAgeHour_grown _)
  | .regrowthDone .. => .inr (execRegrowthDone_grown _ _)
  | .laneBerWindow .. => .inr (execLaneBerWindow_grown _ _ _)
  | .linkTrainingDone .. => .inr (execLinkTrainingDone_grown _ _ _)
  | .reformTimeout .. => .inr (execReformTimeout_grown _)
  | .linkLoss .. => .inr (execLinkLoss_grown _)
  | .ethFrameReceive .. => .inr (execEthFrameReceive_grown _ _ _ _)
  | .pauseFrameReceive .. => .inr (execPauseFrameReceive_grown _ _ _ _)
  | .pauseQuantaExpire .. => .inr (execPauseQuantaExpire_grown _ _)
  | .pauseStormLimit .. => .inr (execPauseStormLimit_grown _ _)
  | .pauseStormClear .. => .inr (execPauseStormClear_grown _ _)
  | .mgmt0FrameReceive .. => .inr (execMgmt0FrameReceive_grown _ _)
  | .pipelineHeaderAccept .. => .inr (execPipelineHeaderAccept_grown _)
  | .microword .. => .inr (execMicroword_grown _ _ _)
  | .microcodeOpComplete .. => .inr (execMicrocodeOpComplete_grown _ _ _)
  | .sprayReseqTimeout .. => .inr (execSprayReseqTimeout_grown _ _)
  | .sprayContextIdle .. => .inr (execSprayContextIdle_grown _ _)
  | .flowletGapExpire .. => .inr (execFlowletGapExpire_grown _ _ _)
  | .lbImbalanceWindow .. => .inr (execLbImbalanceWindow_grown _)
  | .agingSlice .. => .inr (execAgingSlice_grown _ _ _)
  | .learnServiceEvent .. => .inr (execLearnServiceEvent_grown _)
  | .rehashDone .. => .inr (execRehashDone_grown _ _)
  | .egressSchedule .. => .inr (execEgressSchedule_grown _ _ _ _)
  | .deadlineHeadCheck .. => .inr (execDeadlineHeadCheck_grown _)
  | .queueTelemetrySample .. => .inr (execQueueTelemetrySample_grown _ _ _)
  | .minuteBoundary => .inr execMinuteBoundary_grown
  | .meterExport .. => .inr (execMeterExport_grown _)
  | .timedLeapTrigger .. => .inr (execTimedLeapTrigger_grown _)
  | .padWriteResume .. => .inr (execPadWriteResume_grown _ _)
  | .pcieConfigRequest .. => .inr (execPcieConfigRequest_grown _ _ _ _ _)
  | .bmeClear .. => .inr (execBmeClear_grown _)
  | .mseClear .. => .inr (execMseClear_grown _)
  | .flr .. => .inr (execFlr_grown _)
  | .vfEnableSet .. => .inr (execVfEnableSet_grown _ _)
  | .vfEnableClear .. => .inr (execVfEnableClear_grown _)
  | .d3hotEnter .. => .inr (execD3hotEnter_grown _)
  | .d0Return .. => .inr (execD0Return_grown _)
  | .d3coldEnter .. => .inr (execD3coldEnter_grown _)
  | .hpPerstNAssert .. => .inr (execHpPerstNAssert_grown _ _)
  | .hpPerstNDeassert .. => .inr (execHpPerstNDeassert_grown _)
  | .hotReset .. => .inr (execHotReset_grown _)
  | .dlUp .. => .inr (execDlUp_grown _ _ _ _)
  | .l1Enter .. => .inr (execL1Enter_grown _ _)
  | .msixUnmask .. => .inr (execMsixUnmask_grown _ _)
  | .bar4WindowTlp .. => .inr (execBar4WindowTlp_grown _ _ _ _ _ _)
  | .pcieReadCompletion .. => .inr (execPcieReadCompletion_grown _ _ _)
  | .completionTimeout .. => .inr (execCompletionTimeout_grown _ _)
  | .ringEnable .. => .inr (execRingEnable_grown _ _ _)
  | .ringDisable .. => .inr (execRingDisable_grown _ _ _)
  | .ringReset .. => .inr (execRingReset_grown _ _)
  | .ringDb .. => .inr (execRingDb_grown _ _ _)
  | .indexWordReadDone .. => .inr (execIndexWordReadDone_grown _ _ _)
  | .hostTxPacket .. => .inr (execHostTxPacket_grown _ _ _ _ _)
  | .cplCi .. => .inr (execCplCi_grown _ _ _)
  | .cplModTimerExpire .. => .inr (execCplModTimerExpire_grown _ _)
  | .fnCtlUnfence .. => .inr (execFnCtlUnfence_grown _)
  | .registerWrite .. => .inr (execRegisterWrite_grown _ _ _ _ _)
  | .mbxEnable .. => .inr (execMbxEnable_grown _ _)
  | .mbxDisable .. => .inr (execMbxDisable_grown _ _)
  | .mbxDb .. => .inr (execMbxDb_grown _ _ _ _)
  | .mbxHeadlessAnswer .. => .inr (execMbxHeadlessAnswer_grown _)
  | .unassignedOpcode .. => .inr (execUnassignedOpcode_grown _)
  | .devInfo .. => .inr (execDevInfo_grown _)
  | .devCaps .. => .inr (execDevCaps_grown _)
  | .devTimeGet .. => .inr (execDevTimeGet_grown _)
  | .devTimeSet .. => .inr (execDevTimeSet_grown _ _ _)
  | .devReset .. => .inl rfl
  | .portConfig .. => .inr (execPortConfig_grown _ _)
  | .portState .. => .inr (execPortState_grown _ _)
  | .portStats .. => .inr (execPortStats_grown _ _ _)
  | .laneDiag .. => .inr (execLaneDiag_grown _ _ _ _ _)
  | .octetMode .. => .inr (execOctetMode_grown _ _ _ _)
  | .allotSet .. => .inr (execAllotSet_grown _ _ _ _ _ _)
  | .allotGet .. => .inr (execAllotGet_grown _ _)
  | .fnCreate .. => .inr (execFnCreate_grown _ _ _ _ _)
  | .fnDestroy .. => .inr (execFnDestroy_grown _ _)
  | .fnQuery .. => .inr (execFnQuery_grown _ _)
  | .tenantBind .. => .inr (execTenantBind_grown _ _ _)
  | .windowSet .. => .inr (execWindowSet_grown _ _)
  | .windowRetire .. => .inr (execWindowRetire_grown _ _ _)
  | .windowDrainDone .. => .inr (execWindowDrainDone_grown _ _)
  | .windowRetireTimeout .. => .inr (execWindowRetireTimeout_grown _ _)
  | .tblInsert .. => .inr (execTblInsert_grown _ _ _ _ _)
  | .tblDelete .. => .inr (execTblDelete_grown _ _ _ _ _)
  | .tblLookup .. => .inr (execTblLookup_grown _ _ _ _ _)
  | .tblIter .. => .inr (execTblIter_grown _ _ _ _ _ _ _)
  | .tblFlush .. => .inr (execTblFlush_grown _ _ _ _ _)
  | .tblRehash .. => .inr (execTblRehash_grown _ _ _)
  | .learnConfig .. => .inr (execLearnConfig_grown _ _ _ _ _ _)
  | .agingConfig .. => .inr (execAgingConfig_grown _ _ _ _ _ _)
  | .lbGroupSet .. => .inr (execLbGroupSet_grown _ _ _ _)
  | .lbMonitor .. => .inr (execLbMonitor_grown _ _ _ _ _ _)
  | .parseDepthSet .. => .inr (execParseDepthSet_grown _ _ _)
  | .portDefaultSet .. => .inr (execPortDefaultSet_grown _ _ _)
  | .ruleWrite .. => .inr (execRuleWrite_grown _ _ _ _ _)
  | .ruleClear .. => .inr (execRuleClear_grown _ _ _ _)
  | .ruleRead .. => .inr (execRuleRead_grown _ _ _ _ _)
  | .ucodeLoad .. => .inr (execUcodeLoad_grown _ _)
  | .ucodeKeyEnrol .. => .inr (execUcodeKeyEnrol_grown _ _ _ _)
  | .ucodeInfo .. => .inr (execUcodeInfo_grown _ _ _)
  | .ucodePatchState .. => .inr (execUcodePatchState_grown _ _ _)
  | .padCopy .. => .inr (execPadCopy_grown _)
  | .padLeap .. => .inr (execPadLeap_grown _ _ _ _)
  | .padState .. => .inr (execPadState_grown _)
  | .padDiscard .. => .inr (execPadDiscard_grown _)
  | .poolConfig .. => .inr (execPoolConfig_grown _ _ _)
  | .reserveSet .. => .inr (execReserveSet_grown _ _ _ _ _ _ _)
  | .policerSet .. => .inr (execPolicerSet_grown _ _ _)
  | .shaperSet .. => .inr (execShaperSet_grown _ _ _ _ _ _ _ _)
  | .queueMap .. => .inr (execQueueMap_grown _ _)
  | .queueSampleConfig .. => .inr (execQueueSampleConfig_grown _ _ _ _ _ _ _ _)
  | .queueStats .. => .inr (execQueueStats_grown _ _)
  | .volCreate .. => .inr (execVolCreate_grown _ _ _ _ _ _ _)
  | .volDestroy .. => .inr (execVolDestroy_grown _ _)
  | .volAttach .. => .inr (execVolAttach_grown _ _ _ _ _ _ _)
  | .volDetach .. => .inr (execVolDetach_grown _ _ _)
  | .backendAdd .. => .inr (execBackendAdd_grown _ _ _)
  | .backendState .. => .inr (execBackendState_grown _ _)
  | .volReconcileState .. => .inr (execVolReconcileState_grown _ _)
  | .keyLoad .. => .inr (execKeyLoad_grown _ _ _ _ _ _ _)
  | .keyErase .. => .inr (execKeyErase_grown _ _)
  | .keyEraseComplete .. => .inr (execKeyEraseComplete_grown _)
  | .saCreate .. => .inr (execSaCreate_grown _ _)
  | .saState .. => .inr (execSaState_grown _ _)
  | .alarmState .. => .inr (execAlarmState_grown _)
  | .alarmClear .. => .inr (execAlarmClear_grown _)
  | .kekRotate .. => .inr (execKekRotate_grown _)
  | .kekRotationDone => .inr execKekRotationDone_grown
  | .cipherRequestComplete .. => .inr (execCipherRequestComplete_grown _ _ _)
  | .cipherBusyTimeout .. => .inr (execCipherBusyTimeout_grown _)
  | .keyCacheFill .. => .inr (execKeyCacheFill_grown _)
  | .partCreate .. => .inr (execPartCreate_grown _ _ _ _ _ _ _ _ _ _ _)
  | .partDestroy .. => .inr (execPartDestroy_grown _ _)
  | .imageLoad .. => .inr (execImageLoad_grown _ _ _)
  | .partStart .. => .inr (execPartStart_grown _ _)
  | .partStop .. => .inr (execPartStop_grown _ _)
  | .debugAttach .. => .inr (execDebugAttach_grown _ _ _)
  | .meterRead .. => .inr (execMeterRead_grown _ _ _ _)
  | .meterExportConfig .. => .inr (execMeterExportConfig_grown _ _)
  | .telemConfig .. => .inr (execTelemConfig_grown _ _ _ _ _)
  | .eventSubscribe .. => .inr (execEventSubscribe_grown _ _ _ _ _ _)
  | .fwStage .. => .inr (execFwStage_grown _ _ _ _ _)
  | .fwActivate .. => .inl rfl
  | .fwActivateDrainDone => .inr execFwActivateDrainDone_grown
  | .fwActivateDrainTimeout => .inr execFwActivateDrainTimeout_grown
  | .fwState .. => .inr (execFwState_grown _)
  | .trialConfirm => .inr execTrialConfirm_grown
  | .trialTimerExpire => .inr execTrialTimerExpire_grown
  | .keyRevoke .. => .inr (execKeyRevoke_grown _ _)
  | .attestQuote .. => .inr (execAttestQuote_grown _ _)
  | .baskEnter .. => .inr (execBaskEnter_grown _)
  | .baskDrainDone => .inl rfl
  | .baskDrainTimeout .. => .inr (execBaskDrainTimeout_grown _)
  | .faultLogRead .. => .inr (execFaultLogRead_grown _ _)
  | .faultClear .. => .inr (execFaultClear_grown _ _)
  | .regrowState .. => .inr (execRegrowState_grown _)
  | .regrowStart .. => .inr (execRegrowStart_grown _ _ _)
  | .wearReport .. => .inr (execWearReport_grown _)
  | .powerBudgetSet .. => .inr (execPowerBudgetSet_grown _ _ _ _ _ _ _)
  | .powerState .. => .inr (execPowerState_grown _)
  | .governorSet .. => .inr (execGovernorSet_grown _ _ _ _ _ _ _ _)
  | .migDirtyStart .. => .inr (execMigDirtyStart_grown _ _ _ _)
  | .migDirtyStop .. => .inr (execMigDirtyStop_grown _ _)
  | .dirtyBitWrite .. => .inr (execDirtyBitWrite_grown _ _)
  | .migFreeze .. => .inr (execMigFreeze_grown _ _)
  | .migFreezeDrainDone .. => .inr (execMigFreezeDrainDone_grown _)
  | .migFreezeTimeout .. => .inr (execMigFreezeTimeout_grown _)
  | .migSave .. => .inr (execMigSave_grown _ _)
  | .migRestore .. => .inr (execMigRestore_grown _ _ _)
  | .migThaw .. => .inr (execMigThaw_grown _ _)
  | .migKeySet .. => .inr (execMigKeySet_grown _ _)
  | .chainState .. => .inr (execChainState_grown _)
  | .chainSend .. => .inr (execChainSend_grown _ _ _ _)
  | .chainSendTimeout => .inr execChainSendTimeout_grown
  | .ckvCtxRead .. => .inr (execCkvCtxRead_grown _ _)
  | .ckvCtxWrite .. => .inr (execCkvCtxWrite_grown _ _ _)
  | .vfExchNotify .. => .inr (execVfExchNotify_grown _ _)
  | .pfExchNotify .. => .inr (execPfExchNotify_grown _ _)
  | .exchPendClear .. => .inr (execExchPendClear_grown _ _ _)
  | .rcvOwnerWrite .. => .inr (execRcvOwnerWrite_grown _)
  | .nvmeCcEnable .. => .inr (execNvmeCcEnable_grown _ _)
  | .nvmeCcDisable .. => .inr (execNvmeCcDisable_grown _ _)
  | .nvmeCcShutdown .. => .inr (execNvmeCcShutdown_grown _ _)
  | .nvmeSqDoorbell .. => .inr (execNvmeSqDoorbell_grown _ _ _)
  | .nvmeCqDoorbell .. => .inr (execNvmeCqDoorbell_grown _ _ _)
  | .nvmeCommandFetch .. => .inr (execNvmeCommandFetch_grown _ _ _ _ _ _ _)
  | .nvmeCommandStart .. => .inr (execNvmeCommandStart_grown _ _ _)
  | .nvmePostingPoint .. => .inr (execNvmePostingPoint_grown _ _ _)
  | .nvmeDeleteIoSq .. => .inr (execNvmeDeleteIoSq_grown _ _)
  | .nvmeCreateIoSq .. => .inr (execNvmeCreateIoSq_grown _ _)
  | .nvmeGetLogPage .. => .inr (execNvmeGetLogPage_grown _ _)
  | .nvmeDeleteIoCq .. => .inr (execNvmeDeleteIoCq_grown _ _)
  | .nvmeCreateIoCq .. => .inr (execNvmeCreateIoCq_grown _ _)
  | .nvmeIdentify .. => .inr (execNvmeIdentify_grown _ _)
  | .nvmeAbort .. => .inr (execNvmeAbort_grown _ _)
  | .nvmeSetFeatures .. => .inr (execNvmeSetFeatures_grown _ _)
  | .nvmeGetFeatures .. => .inr (execNvmeGetFeatures_grown _ _)
  | .nvmeAsyncEventRequest .. => .inr (execNvmeAsyncEventRequest_grown _ _)
  | .nvmeAdminUnsupported .. => .inr (execNvmeAdminUnsupported_grown _ _)
  | .nvmeFlush .. => .inr (execNvmeFlush_grown _ _ _)
  | .nvmeWrite .. => .inr (execNvmeWrite_grown _ _ _ _ _)
  | .nvmeRead .. => .inr (execNvmeRead_grown _ _ _)
  | .nvmeCompare .. => .inr (execNvmeCompare_grown _ _ _ _ _)
  | .nvmeWriteZeroes .. => .inr (execNvmeWriteZeroes_grown _ _ _)
  | .nvmeDatasetManagement .. => .inr (execNvmeDatasetManagement_grown _ _ _)
  | .nvmeFusedCompareWrite .. => .inr (execNvmeFusedCompareWrite_grown _ _ _ _ _ _ _)
  | .nvmeIoUnsupported .. => .inr (execNvmeIoUnsupported_grown _ _ _)
  | .intentRecordTake .. => .inr (execIntentRecordTake_grown _ _ _)
  | .backendResponse .. => .inr (execBackendResponse_grown _ _ _)
  | .backendPduReceive .. => .inr (execBackendPduReceive_grown _ _)
  | .backendTimeout .. => .inr (execBackendTimeout_grown _)
  | .backendConnectionLost .. => .inr (execBackendConnectionLost_grown _)
  | .backendReconnect .. => .inr (execBackendReconnect_grown _ _)
  | .reconcileChunkDone .. => .inr (execReconcileChunkDone_grown _ _ _)
  | .rebuildChunkDone .. => .inr (execRebuildChunkDone_grown _ _ _ _)
  | .chWr .. => .inr (execChWr_grown _ _ _)
  | .chCmt .. => .inr (execChCmt_grown _ _ _ _ _)
  | .chCmtResume .. => .inr (execChCmtResume_grown _)
  | .chRd .. => .inr (execChRd_grown _ _ _)
  | .chTry .. => .inr (execChTry_grown _ _ _)
  | .chWaitany .. => .inr (execChWaitany_grown _ _ _ _)
  | .channelWaitWake .. => .inr (execChannelWaitWake_grown _)
  | .fork .. => .inr (execFork_grown _ _ _ _)
  | .join .. => .inr (execJoin_grown _ _ _)
  | .threadExit .. => .inr (execThreadExit_grown _ _)
  | .trelease .. => .inr (execTrelease_grown _ _)
  | .treset .. => .inr (execTreset_grown _ _)
  | .xtirzuIllegal .. => .inr (execXtirzuIllegal_grown _ _ _ _)
  | .threadControlCsr .. => .inr (execThreadControlCsr_grown _ _ _ _ _)
  | .channelEntryWrite .. => .inr (execChannelEntryWrite_grown _ _ _ _)
  | .ecallCustomer .. => .inr (execEcallCustomer_grown _ _ _)
  | .threadFault .. => .inr (execThreadFault_grown _ _ _ _ _)
  | .cipherSubmit .. => .inr (execCipherSubmit_grown _ _)
  | .copyOut .. => .inr (execCopyOut_grown _ _ _ _ _)
  | .copyMeta .. => .inr (execCopyMeta_grown _ _ _)
  | .free .. => .inr (execFree_grown _ _)
  | .injectHandle .. => .inr (execInjectHandle_grown _ _ _ _)
  | .injectBuffer .. => .inr (execInjectBuffer_grown _ _ _ _ _)
  | .contextHold .. => .inr (execContextHold_grown _ _)
  | .contextRelease .. => .inr (execContextRelease_grown _ _)
  | .contextRead .. => .inr (execContextRead_grown _ _)
  | .contextWrite .. => .inr (execContextWrite_grown _ _ _)
  | .skinkTimerFire .. => .inr (execSkinkTimerFire_grown _)
  | .skinkPeriodTick .. => .inr (execSkinkPeriodTick_grown _)
  | .sentinelFire .. => .inr (execSentinelFire_grown _)
  | .sentinelEscalate .. => .inr (execSentinelEscalate_grown _)
  | .debugHalt .. => .inr (execDebugHalt_grown _)
  | .debugResume .. => .inr (execDebugResume_grown _)
  | .debugSingleStep .. => .inr (execDebugSingleStep_grown _ _)
  | .i3cPrivateWrite .. => .inl rfl
  | .i3cPrivateRead => .inr execI3cPrivateRead_grown
  | .enec .. => .inr (execEnec_grown _ _)
  | .disec .. => .inr (execDisec_grown _ _)
  | .rstdaa => .inr execRstdaa_grown
  | .entdaa .. => .inr (execEntdaa_grown _)
  | .setmwl .. => .inr (execSetmwl_grown _ _)
  | .setmrl .. => .inr (execSetmrl_grown _ _)
  | .rstact .. => .inr (execRstact_grown _ _)
  | .setnewda .. => .inr (execSetnewda_grown _)
  | .getmwl => .inr execGetmwl_grown
  | .getmrl => .inr execGetmrl_grown
  | .getpid => .inr execGetpid_grown
  | .getbcr => .inr execGetbcr_grown
  | .getdcr => .inr execGetdcr_grown
  | .getstatus => .inr execGetstatus_grown
  | .getmxds => .inr execGetmxds_grown
  | .i3cUnsupportedCcc .. => .inr (execI3cUnsupportedCcc_grown _ _)
  | .targetResetPattern => .inl rfl
  | .hotJoinRequest => .inr execHotJoinRequest_grown
  | .keep .. => .inr (execKeep_grown _)
  | .keepSend => .inr execKeepSend_grown
  | .enum .. => .inr (execEnum_grown _)
  | .close .. => .inr (execClose_grown _)
  | .reset .. => .inr (execReset_grown _)
  | .leapArm .. => .inr (execLeapArm_grown _)
  | .leapCancel .. => .inr (execLeapCancel_grown _)
  | .lend .. => .inr (execLend_grown _)
  | .fault .. => .inr (execFault_grown _)
  | .data .. => .inr (execData_grown _)
  | .wake .. => .inl rfl
  | .reservedFrameType .. => .inr (execReservedFrameType_grown _)
  | .chainBitTimeout => .inr execChainBitTimeout_grown
  | .chainInLinkLost => .inr execChainInLinkLost_grown
  | .chainOutLinkLost => .inr execChainOutLinkLost_grown
  | .chainEnumRetry => .inr execChainEnumRetry_grown
  | .chainArmTimeout => .inr execChainArmTimeout_grown
  | .idcode => .inr execIdcode_grown
  | .samplePreload => .inr execSamplePreload_grown
  | .extest => .inr execExtest_grown
  | .extestPulse => .inr execExtestPulse_grown
  | .extestTrain => .inr execExtestTrain_grown
  | .clamp => .inr execClamp_grown
  | .highz => .inr execHighz_grown
  | .dbgChallenge => .inr execDbgChallenge_grown
  | .dbgToken .. => .inr (execDbgToken_grown _)
  | .dbgStatus => .inr execDbgStatus_grown
  | .dbgDmi .. => .inr (execDbgDmi_grown _ _ _ _)
  | .bypass .. => .inr (execBypass_grown _)
  | .uartRxInput .. => .inr (execUartRxInput_grown _)
  | .functionReady .. => .inr (execFunctionReady_grown _)
  | .referenceClockStop .. => .inr (execReferenceClockStop_grown _ _)
  | .vddRetUp => .inl rfl
  | .vddRetRemove => .inl rfl
  | .hdrExitPattern => .inr execHdrExitPattern_grown
  | .chainInvalidCodeword => .inr execChainInvalidCodeword_grown
  | .nvmeCoalescingTimeExpire .. => .inr (execNvmeCoalescingTimeExpire_grown _ _)

/-- Settles O55: every command but those that may reset the device leaves each counter where it is or raises it. -/
theorem countersKept : Obligations.CountersKept := by
  unfold Obligations.CountersKept
  intro i s t hreset hexec k a b
  obtain hmay | hgrown := exec_grown i
  · rw [hmay] at hreset
    cases hreset
  · exact hgrown s t hexec ⟨k, a, b⟩

end Sys2Proof.Machine
end
